-- ==== Sys2Proof/Word.lean ====
section
/-! DEFINITION. Words, bytes and their plainest arithmetic: the widths of R4 and R5. -/

namespace Sys2Proof

/-- One register of the system register space: 32 bits, little-endian (R5, R24). -/
abbrev Word := BitVec 32

/-- One byte; byte 0 of a multi-byte field is the least significant (R5). -/
abbrev Byte := BitVec 8

/-- One stored datum of a bank or of the signal table: 64 bits (R94, R182). -/
abbrev Datum := BitVec 64

/-- The largest value of a saturating counter of `w` bits. -/
def satMax (w : Nat) : Nat := 2 ^ w - 1

/-- A saturating counter of `w` bits advances by one and stays at its top. DESIGN CHOICE (assumption 10). -/
def satInc (w n : Nat) : Nat := if n + 1 ≤ satMax w then n + 1 else satMax w

/-- A saturating counter of `w` bits advances by `k` and stays at its top. -/
def satAdd (w n k : Nat) : Nat := if n + k ≤ satMax w then n + k else satMax w

theorem satInc_le (w n : Nat) : satInc w n ≤ satMax w := by
  unfold satInc; split <;> omega

theorem satAdd_le (w n k : Nat) : satAdd w n k ≤ satMax w := by
  unfold satAdd; split <;> omega

/-- Bit `n` of a word set to `b`. -/
def setBit {w : Nat} (x : BitVec w) (n : Nat) (b : Bool) : BitVec w :=
  if b then x ||| BitVec.twoPow w n else x &&& ~~~(BitVec.twoPow w n)

/-- The field of `len` bits from bit `lo` of a word, as a number. -/
def field {w : Nat} (x : BitVec w) (lo len : Nat) : Nat := (x.toNat >>> lo) % 2 ^ len

/-- A word made of number fields: each `(lo, len, value)` places the low `len` bits of `value` at bit `lo`. -/
def packFields : List (Nat × Nat × Nat) → Word
  | [] => 0
  | (lo, len, v) :: rest => BitVec.ofNat 32 ((v % 2 ^ len) <<< lo) ||| packFields rest

/-- 1 for true, 0 for false: a one-bit field. -/
def bit (b : Bool) : Nat := if b then 1 else 0

end Sys2Proof
end

