-- ==== Sys2Proof/Machine/State/Commit.lean ====
section
/-! DEFINITION. The commit register every block with SH fields has (00_scope.md R9, R10). -/

namespace Sys2Proof.Machine

/-- GENERATION, PENDING and COMMIT_ERR of one block (R9), and the instant of the last acceptance on the monotonic base. -/
structure Commit where
  gen     : BitVec 16 := 0
  pending : Bool := false
  err     : Bool := false
  at_     : Nat := 0
  deriving DecidableEq, Repr

end Sys2Proof.Machine
end

