-- ==== Sys2Proof/Machine/State/Access.lean ====
section
/-! DEFINITION. The plant port, device identity, signers, tamper sources and the serial lines
(19_plant_port_and_access.md R475 to R501). -/

namespace Sys2Proof.Machine

/-- IDENTITY of SEC_STATUS (R499), codes 0 to 3. -/
inductive Identity where
  | factory
  | enrolled
  | self
  | generating
  deriving DecidableEq, Repr

/-- STATE of a signer slot (R499), codes 0 to 3. -/
inductive SignerState where
  | empty
  | root
  | enrolled
  | revoked
  deriving DecidableEq, Repr

/-- One slot of the signer store (R484). The public key is kept as the X and Y of its certificate. -/
structure Signer where
  st     : SignerState := .empty
  id     : Nat := 0
  serial : Nat := 0
  keyX   : Nat := 0
  keyY   : Nat := 0
  deriving DecidableEq, Repr

/-- A tamper response (R487), codes 0 to 2. -/
inductive Response where
  | alert
  | lock
  | erase
  deriving DecidableEq, Repr

/-- The device certificate in MRAM (R483): issued at manufacture, installed through IDENTITY, or signed by the module itself. -/
inductive DeviceCert where
  | factory
  | installed (bytes : List Byte)
  | selfSigned
  deriving DecidableEq, Repr

/-- The SEC window and the backup domain's keys. `hasKey` says that the identity key's private half is held; `deferred`
are tamper events sensed without logic power: the source and the count (R487). -/
structure Sec where
  identity  : Identity := .factory
  hasKey    : Bool := true
  cert      : DeviceCert := .factory
  idX       : Nat := 0
  idY       : Nat := 0
  locked    : Bool := false
  signerSlot : Nat := 0x1F
  standing  : List Bool := [false, false, false, false, false]
  flags     : Word := 0
  serial    : Nat := 0
  counts    : List Nat := [0, 0, 0, 0, 0]
  responses : List Response := [.alert, .alert, .alert, .alert, .alert]
  everKey   : Bool := false
  identityGen : Nat := 0
  signers   : List Signer := { st := .root, id := 1 } :: { st := .root, id := 2 } :: List.replicate 14 {}
  armed     : Bool := false
  deferred  : List (Nat × Nat) := []
  deriving DecidableEq, Repr

/-- An anchor of the SECURITY section (R496). -/
structure Anchor where
  perms : Nat
  keyX  : Nat
  keyY  : Nat
  deriving DecidableEq, Repr

/-- One plant session (R478, R500): STATE 0 closed, 1 handshake, 2 open; `mac` is the client's address. `chans` are the message channels it holds open;
`noKey` a session opened while no key was accepted; `heardAt` the instant of its last record. -/
structure Session where
  st      : Nat := 0
  perms   : Nat := 0
  anchor  : Nat := 0xF
  ip      : Nat := 0
  mac     : Nat := 0
  served  : Nat := 0
  chans   : List Nat := []
  noKey   : Bool := false
  heardAt : Nat := 0
  deriving DecidableEq, Repr

/-- The plant service and the PLANT window. The address of the last accepted key is kept in MRAM (R475). -/
structure Plant where
  enabled   : Bool := false
  speed     : Nat := 0
  vid       : Nat := 0
  anchors   : List Anchor := []
  windows   : Nat := 0
  flags     : Word := 0
  ipv4      : Nat := 0xC0A8FE01
  netmask   : Nat := 0xFFFFFF00
  gateway   : Nat := 0
  handshakes : Nat := 0
  authFails : Nat := 0
  authRecAt : Option Nat := none
  refused   : Nat := 0
  respMax   : Nat := 0
  sessions  : List Session := List.replicate 4 {}
  deriving DecidableEq, Repr

/-- A transaction of a master line (R491, R497). -/
structure SerTrans where
  item      : Nat
  function  : Nat
  slave     : Nat
  onChange  : Bool
  address   : Nat
  count     : Nat
  waddress  : Nat
  wcount    : Nat
  periodMs  : Nat
  timeoutMs : Nat
  deriving DecidableEq, Repr

/-- A map item of a slave line (R492, R497). -/
structure SerMap where
  item     : Nat
  table    : Nat
  writable : Bool
  address  : Nat
  count    : Nat
  deriving DecidableEq, Repr

/-- SERl_CFG (R501). -/
structure SerCfg where
  baud    : Nat := 0
  parity  : Nat := 0
  stop2   : Bool := false
  term    : Bool := false
  bias    : Bool := false
  retries : Nat := 0
  deriving DecidableEq, Repr

/-- The attempt in progress of a master line: an item, or an entry of its transmit queue by its handle; `at_` is when it was
sent. -/
structure SerTx where
  item    : Nat
  handle  : Option Nat
  slave   : Nat
  function : Nat
  attempt : Nat
  at_     : Nat
  deriving DecidableEq, Repr

/-- One serial line. `data` holds the data bytes of a slave's writable items as last written, `sentData` what a master's write item sent
last, `lastSent` when a transaction was sent (ns), `round` the transaction last sent in the round, `failRun` the failed attempts of an item in a row, and `heard` the request of the active
side that a standby master has heard, as address and PDU. `afterQueue` says that a transaction has ended and a queue entry comes next. -/
structure SerLine where
  role      : Nat := 0
  slaveAddr : Nat := 0
  failLimit : Nat := 0
  writeTimeoutMs : Nat := 0
  trans     : List SerTrans := []
  maps      : List SerMap := []
  force     : SerCfg := {}
  shadow    : SerCfg := {}
  copied    : SerCfg := {}
  commit    : Commit := {}
  item      : Nat := 0
  round     : Option Nat := none
  tx        : Option SerTx := none
  afterQueue : Bool := false
  flags     : Word := 0
  frames    : Nat := 0
  crcErrors : Nat := 0
  timeouts  : Nat := 0
  exceptions : Nat := 0
  foreign   : Nat := 0
  failed    : BitVec 64 := 0
  lastExc   : Nat := 0
  data      : List (Nat × List Byte) := []
  sentData  : List (Nat × List Byte) := []
  lastSent  : List (Nat × Nat) := []
  failRun   : List (Nat × Nat) := []
  recAt     : Option Nat := none
  heard     : Option (Nat × List Byte) := none
  deriving DecidableEq, Repr

/-- The serial lines S1 and S2. -/
structure Ser where
  lines : List SerLine := List.replicate 2 {}
  deriving DecidableEq, Repr

end Sys2Proof.Machine
end

