-- ==== Sys2Proof/Machine/State/Event.lean ====
section
/-! DEFINITION. Event names, severities and what a record's code holds (18_event_recorder.md R460 to R463, R469). -/

namespace Sys2Proof.Machine

/-- The severities of R462, codes 0 to 3. -/
inductive Severity where
  | info
  | notice
  | fault
  | critical
  deriving DecidableEq, Repr

/-- The events the chapters name. The spec gives three of them an event number (R463); a record holds the name. -/
inductive Ev where
  | supplyOnBackup | supplyOnMains | x2Low | logicHigh | holdupWear | holdupLow | powerDown | powerDip
  | fieldSupplyLow | fieldSupplyLost | fieldSupplyNormal | fieldSupplyReturned | harbourRefused | harbourEnter
  | watchRound | watchReading
  | memOwnerFault | memCorrected | memUncorrectable | weakRow | bankFolded | spareLow | bankHandover
  | startResult | keyCopyBad | keyCopyRepaired | keyCopyRepairFailed | keyOut | keyWear | keyWorn
  | taskOverrun | modeRefused | halt | forceSet | forceReleased
  | olcResult | olcSwitched | olcConfirmed | olcConfirmFailed
  | signalStale
  | loopInputBad | loopParamBad | loopSaturated | loopDeadline
  | pairForeign | pairSideClash | partnerReturned | epochRaised | epochSuperseded | partnerLost | handover | takeover
  | pairLinkDown | jackAbsent | jackRefused | handoverFailed | handoverRefused | digestMismatch
  | hoistOverflow | hoistStale | hoistFresh | hoistOverAllowance
  | ringSpeed | ringOpen | ringClosed | ringLinkDown | ringDmaHalt | stationAdmitted | stationLost | sessionFull
  | stationUnknown | addressInUse | stationRefused
  | ptpMasterLost | ptpMasterChanged | timeStepped | pulseLate | calendarSetPtp | refDrift
  | canRefLost | canWindowMissed | canErrorPassive | canBusOff | canRecovered
  | dioShort | dioRecovered | dioLatched | dioExtFeed | dioPartnerLow | dioLogicSilent | dioHoldReleased
  | anaLogicSilent | hartDeviceAbsent
  | safetyReset | safetyResetRejected | safetyDemand | safetyFault | safetyPathFault | safetyTestRefused
  | brakeTestPassed | brakeTestFailed | brakeTestAborted | brakeTestDue
  | rtcDomainLost | rtcNotSet | rtcCurveBad | rtcRangeWrap | rtcSetInvalid | calendarSet | rtcAlarm | rtcWakeInput
  | rtcCellLow
  | logIndexRebuilt | logSlotRetired | logUserRefused | logWear
  | plantAuthFail | identityNew | signerEnrolled | signerRevoked | tamperAlert | tamperLock | tamperErase
  | secReauthorised
  | serialAbsent
  | panelTableBad | panelRecovered | panelDriveFault
  deriving DecidableEq, Repr

/-- What stands in a record's code: an event of the module, or the code of an application record (R469). -/
inductive EvCode where
  | mod (e : Ev)
  | app (c : BitVec 16)
  deriving DecidableEq, Repr

end Sys2Proof.Machine
end

