-- ==== Sys2Proof/Machine/State/Log.lean ====
section
/-! DEFINITION. The event recorder's state (18_event_recorder.md R460 to R474). -/

namespace Sys2Proof.Machine

/-- Who reads or writes a banked register: a native block or the plant port (R152, R196, R472). -/
inductive Reader where
  | sdk
  | plant
  deriving DecidableEq, Repr

/-- Who raises an application record (R469). -/
inductive Requester where
  | program
  | sdk
  | plant
  deriving DecidableEq, Repr

/-- One stored or staged record (R460); `raw` holds its bytes where an access to its staging rows has changed them. -/
structure LogRec where
  seq    : Nat
  code   : EvCode
  opsec  : Nat
  frac   : Nat
  power  : Nat
  sev    : Severity
  flags  : Nat
  source : Nat
  unit   : Nat
  p1     : Nat
  p2     : Nat
  p3     : Nat
  raw    : Option (List Byte) := none
  deriving DecidableEq, Repr

/-- The banked registers and latches of one reader (R472, R474). -/
structure LogBank where
  seqHi    : Nat := 0
  frac     : Nat := 0
  power    : Nat := 0
  sel      : Nat := 0
  latched  : Bool := false
  copy     : Option LogRec := none
  code     : BitVec 16 := 0xC000
  p1       : Word := 0
  p2       : Word := 0
  p3       : Word := 0
  sev      : Nat := 0
  refused  : Bool := false
  deriving DecidableEq, Repr

/-- The MRAM index (R467): the next SEQUENCE, and the slot of the oldest record of each severity. -/
structure LogIndex where
  next   : Nat := 1
  oldest : List (Option Nat) := [none, none, none, none]
  deriving DecidableEq, Repr

/-- The recorder: counts of R461, staging of R464, MRAM slots of R466 and R467, the MRAM index and whether its CRC fails (R467), the
scan of R468 and when it began, and the LOG window's registers. -/
structure Log where
  nextSeq    : Nat := 1
  opsec      : Nat := 0
  secBase    : Int := 0
  opsecKept  : Nat := 0
  power      : Nat := 0
  staged     : List LogRec := []
  maxStaged  : Nat := 0
  slots      : List (Nat × LogRec) := []
  writing    : List Nat := []
  retired    : List Nat := []
  index      : LogIndex := {}
  indexBad   : Bool := false
  dropped    : List Nat := [0, 0, 0, 0]
  accepting  : Bool := false
  rebuilding : Bool := false
  rebuildAt  : Nat := 0
  flags      : Word := 0
  sdk        : LogBank := {}
  plant      : LogBank := {}
  refusedAt  : List (Nat × Nat) := []
  userEnable : Bool := true
  userMaxSev : Nat := 1
  deriving DecidableEq, Repr

end Sys2Proof.Machine
end

