-- ==== Sys2Proof/Machine/State/Can.lean ====
section
/-! DEFINITION. The four CAN ports, the signal book and the queue engine (13_can_ports.md R326 to R360). -/

namespace Sys2Proof.Machine

/-- A frame, or the payload of an entry of another user: FORMAT bits as in the CAN section (R352), identifier, length,
data, and the XL fields (R327). -/
structure CanFrame where
  format : Nat
  id     : Nat
  length : Nat
  data   : List Byte
  sdt    : Nat := 0
  vcid   : Nat := 0
  sec    : Nat := 0
  af     : Nat := 0
  deriving DecidableEq, Repr

/-- The states of a held descriptor (R333); a descriptor that is not held is FREE. -/
inductive DescState where
  | pending
  | attempt
  | retired
  | filled
  deriving DecidableEq, Repr

/-- One held descriptor (R333): its queue, state, owner, entry, result (R340), flags and the instant of R358. -/
structure Desc where
  handle   : Nat
  queue    : Nat
  st       : DescState
  owner    : Requester
  frame    : CanFrame
  expiry   : Option Nat
  oneShot  : Bool
  result   : Nat
  flags    : Nat
  ts       : Nat
  taken    : Bool
  cancel   : Bool
  defn     : Option (Nat × Nat)
  shared   : Bool
  client   : Option Nat
  deriving DecidableEq, Repr

/-- One queue of the engine (R332, R360). -/
structure Queue where
  user      : Nat := 0
  unit      : Nat := 0
  role      : Nat := 0
  depth     : Nat := 0
  disabled  : Bool := false
  overflows : Nat := 0
  full      : Nat := 0
  deriving DecidableEq, Repr

/-- The shadow of one queue's assignment (R336, R359). -/
structure QueAssign where
  queue : Nat := 0
  user  : Nat := 0
  unit  : Nat := 0
  role  : Nat := 0
  depth : Nat := 0
  deriving DecidableEq, Repr

/-- The banked registers of one requester (R358, R359). -/
structure QueBank where
  head     : Word := 0
  id       : Nat := 0
  xl       : Word := 0
  af       : Word := 0
  expiry   : Nat := 0
  data     : List Byte := []
  ptr      : Nat := 0
  oneShot  : Bool := false
  result   : Nat := 0
  handle   : Nat := 0
  cancel   : Nat := 0
  cancelRefused : Bool := false
  takeSel  : Nat := 0
  takeValid : Bool := false
  taken    : Option Desc := none
  takePtr  : Nat := 0
  ack      : Nat := 0
  ackRefused : Bool := false
  deriving DecidableEq, Repr

/-- The queue engine and the QUE window. -/
structure Que where
  queues : List Queue := List.replicate 64 {}
  held   : List Desc := []
  flags  : Word := 0
  commit : Commit := {}
  shadow : QueAssign := {}
  copied : QueAssign := {}
  sdk    : QueBank := {}
  plant  : QueBank := {}
  deriving DecidableEq, Repr

/-- CANn_STATUS.STATE (R355), codes 0 to 5. -/
inductive CanState where
  | off
  | integrating
  | errorActive
  | errorPassive
  | busOff
  | recovering
  deriving DecidableEq, Repr

/-- A set of the port's SH fields (R331, R355, R356). -/
structure CanSet where
  cfg   : Word := 0
  nbt   : Word := 0
  dbt   : Word := 0
  xbt   : Word := 0
  fdtdc : Word := 0
  xltdc : Word := 0
  deriving DecidableEq, Repr

/-- One window of the signal book (R352). -/
structure BookWindow where
  start    : Nat
  typ      : Nat
  txEnable : Nat
  deriving DecidableEq, Repr

/-- One book entry (R352). -/
structure BookEntry where
  window  : Nat
  defn    : Nat
  base    : Nat
  period  : Nat
  deriving DecidableEq, Repr

/-- One frame definition (R352) with its run state: the last build (R341), a build that waits for an
attempt to end, and when a receive definition was last unpacked (R343). -/
structure CanDef where
  num      : Nat
  tx       : Bool
  format   : Nat
  cls      : Nat
  id       : Nat
  mask     : Nat
  length   : Nat
  task     : Nat
  trigger  : Nat
  divider  : Nat
  timeout  : Nat
  af       : Nat
  sdt      : Nat
  vcid     : Nat
  sec      : Nat
  expiryUs : Nat
  built    : Option (List Byte) := none
  waiting  : Option (List Byte × Option Nat) := none
  unpacked : Nat := 0
  absent   : Bool := false
  deriving DecidableEq, Repr

/-- One receive filter (R352). -/
structure CanFilter where
  set   : Nat
  accept : Nat
  id    : Nat
  mask  : Nat
  deriving DecidableEq, Repr

/-- The book's run state of a port (R344 to R347): `told` says that the window that runs was missed at its start, `markAt` is the sync mark, `listenAt` the instant from which an unsynchronised master
listens. -/
structure Book where
  enabled  : Bool := false
  master   : Bool := false
  prio     : Nat := 0
  cycles   : Nat := 1
  cycleNtu : Nat := 0
  refId    : Nat := 0
  refLen   : Nat := 0
  windows  : List BookWindow := []
  entries  : List BookEntry := []
  current  : Bool := false
  synced   : Bool := false
  gap      : Bool := false
  cycle    : Nat := 0
  window   : Nat := 0
  inWin    : Bool := false
  told     : Bool := false
  markAt   : Nat := 0
  listenAt : Nat := 0
  missed   : List (Nat × Word) := []
  scheduled : List (Nat × Nat) := []
  recordedAt : Option Nat := none
  deriving DecidableEq, Repr

/-- The counters of R354. -/
structure CanCounts where
  txOk       : Nat := 0
  rxOk       : Nat := 0
  unmatched  : Nat := 0
  rxBad      : Nat := 0
  errFrames  : Nat := 0
  busOffs    : Nat := 0
  replaced   : Nat := 0
  winMissed  : Nat := 0
  refLost    : Nat := 0
  deriving DecidableEq, Repr

/-- One CAN port. -/
structure CanPort where
  st       : CanState := .off
  tec      : Nat := 0
  rxec     : Nat := 0
  lastErr  : Nat := 0
  lastData : Bool := false
  flags    : Word := 0
  waitRecover : Bool := false
  offAt    : Nat := 0
  onBus    : Option Nat := none
  afterException : Bool := false
  force    : CanSet := {}
  shadow   : CanSet := {}
  copied   : CanSet := {}
  commit   : Commit := {}
  measFd   : Nat := 0
  measXl   : Nat := 0
  counts   : CanCounts := {}
  defs     : List CanDef := []
  filters  : List CanFilter := []
  book     : Book := {}
  deriving DecidableEq, Repr

end Sys2Proof.Machine
end

