-- ==== Sys2Proof/Machine/State/Cyc.lean ====
section
/-! DEFINITION. The program runtime and online change (05_program_cycle.md R124 to R162, 06_online_change.md R163 to
R180). -/

namespace Sys2Proof.Machine

/-- One task (R124, R160 to R162): its record, its sets (R131), the run state of its cycle and its measured figures.
`cycleAt` is the release instant of the cycle in progress, `held` a release held at level 1 (R148), `nextM` the index of
the next release instant. `latched` and `snapshot` hold words 0 and 1 of entries read (R127, R190), `slots` the task's output image (R128). `sinceB` says that the task has completed a cycle since the last switch instant, if there was one. -/
structure Task where
  enabled  : Bool := false
  mirrored : Bool := false
  period   : Nat := 0
  offset   : Nat := 0
  escalate : Nat := 0
  wdMargin : Nat := 0
  stack    : Nat := 0
  entry    : Nat := 0xFFFFFFFF
  reads    : List Nat := []
  writes   : List Nat := []
  nextM    : Nat := 0
  cycleM   : Nat := 0
  cycleAt  : Option Nat := none
  started  : Bool := false
  held     : Option Nat := none
  skipped  : Nat := 0
  firstSkip : Nat := 0
  overruns : Nat := 0
  cycles   : Nat := 0
  runLast  : Nat := 0
  runMax   : Nat := 0
  startLate : Nat := 0
  consec   : Nat := 0
  latched  : List (Nat × (Datum × Datum)) := []
  snapshot : List (Nat × (Datum × Datum)) := []
  slots    : List (Nat × (Datum × Byte)) := []
  runGen   : Nat := 0
  wasStale : Bool := false
  firstCycle : Bool := false
  sinceB   : Bool := true
  deriving DecidableEq, Repr

/-- One instance record with its data (R133); `off` is its DATA_OFFSET, `first` that it waits for its first run after a
switch and `edgeZero` that this run sets its edge memory to 0 (R174), `task` the task that last stored into it (R272). -/
structure Instance where
  id      : Nat
  typ     : Nat
  version : Nat
  data    : List Byte
  first   : Bool := false
  off     : Nat := 0
  edgeZero : Bool := false
  task    : Option Nat := none
  deriving DecidableEq, Repr

/-- One type entry (R131). -/
structure BlockType where
  id      : Nat
  version : Nat
  native  : Bool
  size    : Nat
  deriving DecidableEq, Repr

/-- One native entry (R131): windows in the order of R24, SYS in bit 0. -/
structure Native where
  typ     : Nat
  windows : Nat
  write   : Nat
  banks   : Nat
  deriving DecidableEq, Repr

/-- Rows of a bank that a native block has mapped (R151). -/
structure Mapping where
  native : Nat
  bank   : Nat
  row    : Nat
  count  : Nat
  deriving DecidableEq, Repr

/-- One slot of the force table (R143): the forced value, the value set aside, and the value and quality before the
force. -/
structure Force where
  value   : Datum
  aside   : Datum × Byte
  deriving DecidableEq, Repr

/-- A force or release that waits for the next 100 µs boundary (R143); `only` releases every force a FORCES record does not
list (R269). -/
inductive ForceOp where
  | put (index : Nat) (value : Datum)
  | release (index : Nat)
  | releaseAll
  | only (keep : List Nat)
  deriving DecidableEq, Repr

/-- A mode request accepted and pending (R136): its code of CYC_MODE_REQ, its requester and the instant from which it takes effect (R137). -/
structure ModeReq where
  code   : Nat
  sdk    : Bool
  byPair : Bool
  due    : Nat := 0
  deriving DecidableEq, Repr

/-- The program runtime and the CYC window but its change registers. `epoch` is the release epoch E of R125, none before
the first; a standby's is the active's, which may lie before the 0 of its own base. `posted` holds the value and quality last posted to each entry since the start (R128); `codeBase` and `dataBase` say from which
byte of the code banks and of the data banks on the image in force lies (R132, R164); `forceOps` are forces and releases that wait, each with the
instant of its boundary. -/
structure Cyc where
  tasks       : List Task := List.replicate 8 {}
  posted      : List (Nat × (Datum × Byte)) := []
  epoch       : Option Int := none
  stopEpoch   : Nat := 0
  imageId     : Nat := 0
  codeLen     : Nat := 0
  dataLen     : Nat := 0
  codeBase    : Nat := 0
  dataBase    : Nat := 0
  types       : List BlockType := []
  natives     : List Native := []
  instances   : List Instance := []
  maps        : List Mapping := []
  startResult : Nat := 0
  configError : Bool := false
  pendingReq  : Option ModeReq := none
  draining    : Bool := false
  flags       : Word := 0
  haltCause   : Nat := 0
  haltPower   : Nat := 0
  refusals    : Nat := 0
  commit      : Commit := {}
  escShadow   : List Nat := [0, 0, 0, 0, 0, 0, 0, 0]
  escCopied   : List Nat := [0, 0, 0, 0, 0, 0, 0, 0]
  forceSel    : Nat := 0
  forceVal    : Datum := 0
  forces      : List (Nat × Force) := []
  forceOps    : List (Nat × ForceOp) := []
  monoSdk     : Nat := 0
  monoPlant   : Nat := 0
  deriving DecidableEq, Repr

/-- CYC_OLC_CTRL.PHASE (R180), codes 0 to 8. -/
inductive OlcPhase where
  | idle
  | receiving
  | verifying
  | preparing
  | prepared
  | announced
  | switched
  | confirming
  | staged
  deriving DecidableEq, Repr

/-- One map of the MIGRATION section with its operations (R169, R170). -/
structure MigOp where
  src  : Nat
  dst  : Nat
  srcLen : Nat
  dstLen : Nat
  kind : Nat
  deriving DecidableEq, Repr

/-- One map of the MIGRATION section (R169). -/
structure MigMap where
  oldTyp : Nat
  oldVer : Nat
  newVer : Nat
  newTyp : Nat
  ops    : List MigOp
  deriving DecidableEq, Repr

/-- Online change (R163 to R180): the set in force and its generation, the phase, SINGLE and its value when the first piece arrived, the two
new headers, the sectors of the key erased for this change, the switch instant B, and the instant before which the switch lets no task start
(R172). -/
structure Olc where
  gen       : Nat := 0
  set       : Nat := 0
  digest    : Nat := 0
  result    : Nat := 0
  phase     : OlcPhase := .idle
  single    : Bool := false
  singleNow : Bool := false
  session   : Option Nat := none
  h1        : List Byte := []
  h2        : List Byte := []
  erased    : List Nat := []
  preparedAt : Nat := 0
  partnerReady : Bool := false
  switchAt  : Option Nat := none
  retries   : Nat := 0
  startAfter : Nat := 0
  deriving DecidableEq, Repr

end Sys2Proof.Machine
end

