-- ==== Sys2Proof/Machine/State/Field.lean ====
section
/-! DEFINITION. The field side: 24 V digital channels (14_digital_channels.md), universal analogue channels and HART
(15_analogue_channels.md). -/

namespace Sys2Proof.Machine

/-- The mode of a digital channel (R361), in the order of its codes 0 to 5. -/
inductive DioMode where
  | off
  | inputType1
  | inputType3
  | output
  | pairWired
  | timedPulse
  deriving DecidableEq, Repr

/-- The policy of an output stage (R362, R376), codes 0 to 2. -/
inductive DioPolicy where
  | safeOff
  | safeOn
  | hold
  deriving DecidableEq, Repr

/-- The output state of R370, OSTATE codes 0 to 3. -/
inductive OState where
  | normal
  | shortWait
  | retry
  | latched
  deriving DecidableEq, Repr

/-- One digital channel: its configuration (R381), its input and output state, its sticky diagnostics (R380) and the
reasons that hold its stage (R376, R377, R74). `since` is the instant of the last change of the stage (R370, R372), `foundAt` that of the last short found (R371). `latchedOff` is set while the stage waits off for the next write point
(R74), `valid` once the input has completed its filter (R73). -/
structure DioCh where
  mode      : DioMode := .off
  policy    : DioPolicy := .safeOff
  link0     : Bool := false
  link1     : Bool := false
  debounce  : Nat := 0
  level     : Bool := false
  readback  : Bool := false
  command   : Bool := false
  posted    : Bool := false
  held      : Option Bool := none
  stage     : Bool := false
  pulse     : Bool := false
  ostate    : OState := .normal
  retries   : Nat := 0
  foundAt   : Option Nat := none
  diag      : Byte := 0
  extNow    : Bool := false
  lowNow    : Bool := false
  relDemand0 : Bool := false
  relDemand1 : Bool := false
  relOther  : Bool := false
  silent    : Bool := false
  silentRec : Bool := false
  commanded : Bool := false
  latchedOff : Bool := false
  valid     : Bool := false
  since     : Nat := 0
  clearBit  : Bool := false
  restoreBit : Bool := false
  switches  : Nat := 0
  deriving DecidableEq, Repr

/-- One group of digital channels (R379); COMMON_FAULT is shared with the analogue channels of the group (R373). -/
structure DioGroup where
  refreshMs : Nat := 50
  common    : Bool := false
  deriving DecidableEq, Repr

/-- The digital channels DIO0 to DIO31 and the DIO window. `refreshAt` is the instant of the last refresh of the output stages, digital and
analogue (R376, R398). -/
structure Dio where
  ch     : List DioCh := List.replicate 32 {}
  groups : List DioGroup := List.replicate 4 {}
  flags  : Word := 0
  refreshAt : Nat := 0
  deriving DecidableEq, Repr

/-- The mode of an analogue channel (R383), in the order of its codes 0 to 10. -/
inductive AnaMode where
  | off
  | voltageIn
  | currentPassive
  | currentPowered
  | currentPair
  | rtd
  | resistance
  | thermocouple
  | voltageOut
  | currentOut
  | hartMultidrop
  deriving DecidableEq, Repr

/-- One analogue channel: its configuration (R412, R407), values in counts (R384), sticky diagnostics and the conditions
that stand behind bits 9:2 (R411). `round` holds the conversions taken in the watch round in progress, at most 8 (R81). -/
structure AnaCh where
  mode       : AnaMode := .off
  rate       : Nat := 0
  range420   : Bool := false
  hartEn     : Bool := false
  safeValue  : Bool := false
  pt1000     : Bool := false
  wiring     : Nat := 0
  tcType     : Nat := 0
  leadMohm   : Nat := 0
  gain       : Word := 0
  offset     : Word := 0
  safeCounts : Int := 0
  value      : Int := 0
  readback   : Int := 0
  valid      : Bool := false
  discard    : Nat := 3
  diag       : BitVec 16 := 0
  standing   : BitVec 16 := 0
  command    : Int := 0
  posted     : Bool := false
  out        : Int := 0
  code       : Int := 0
  impedance  : Bool := false
  silent     : Bool := false
  silentRec  : Bool := false
  commanded  : Bool := false
  latchedOff : Bool := false
  hartCount  : Nat := 0
  round      : List Int := []
  deriving DecidableEq, Repr

/-- One analogue group (R407, R410). -/
structure AnaGroup where
  cjcSource  : Nat := 0
  cjcFixed   : Int := 0
  cjc        : Int := 0
  cjcFault   : Bool := false
  loopSupply : Nat := 0
  refreshMs  : Nat := 50
  deriving DecidableEq, Repr

/-- One HART device of the key (R407) with its polling state (R402, R403): `longAddr` 0 is not yet read; `due` is the instant of its next poll,
`heardAt` that of its last valid frame, and `quiet` the time without one that had passed when its group was lost (R404). -/
structure HartDev where
  channel  : Nat
  slot     : Nat
  pollAddr : Nat
  poll     : Bool
  burst    : Bool
  longAddr : Nat
  pollMs   : Nat
  burstMs  : Nat
  absent   : Bool := false
  failed   : Nat := 0
  due      : Nat := 0
  heardAt  : Nat := 0
  quiet    : Nat := 0
  deriving DecidableEq, Repr

/-- The transaction in progress on a HART channel (R402): a poll of a slot, or a queue entry by its handle; its command and the instant at which
the attempt was sent. -/
structure HartTx where
  slot    : Nat
  handle  : Option Nat
  attempt : Nat
  cmd     : Nat
  at_     : Nat
  deriving DecidableEq, Repr

/-- The analogue channels AX0 to AX15, HART and the ANA window. -/
structure Ana where
  ch      : List AnaCh := List.replicate 16 {}
  groups  : List AnaGroup := List.replicate 4 {}
  flags   : Word := 0
  suspend : BitVec 16 := 0
  devs    : List HartDev := []
  tx      : List (Nat × HartTx) := []
  deriving DecidableEq, Repr

end Sys2Proof.Machine
end

