-- ==== Sys2Proof/Machine/State/Loop.lean ====
section
/-! DEFINITION. The compensator engine's state (08_compensator_engine.md R200 to R225). -/

namespace Sys2Proof.Machine

/-- A value of the engine: mantissa × 2^(exponent − 31) for states and stage values (R207). -/
structure Flt where
  m : Int := 0
  e : Int := -128
  deriving DecidableEq, Repr

/-- A gain: 24-bit mantissa × 2^(exponent − 23) (R207). -/
structure Gain where
  m : Int := 0
  e : Int := 0
  deriving DecidableEq, Repr

/-- One section's coefficients, exponent and ceiling (R201, R207, R225): `b` is B0 to B3, `a` is A1 to A3. -/
structure SecCfg where
  ec   : Int := 0
  ceil : Int := 0
  b    : List Int := [0, 0, 0, 0]
  a    : List Int := [0, 0, 0]
  deriving DecidableEq, Repr

/-- The SH registers of one loop: a set that LOOP_COMMIT takes (R220, R225). The limits are binary32 words. -/
structure LoopSet where
  kIn    : Gain := {}
  kFf    : Gain := {}
  outMin : Word := 0
  outMax : Word := 0
  safe   : Word := 0
  digOn  : Word := 0
  digOff : Word := 0
  secs   : List SecCfg := []
  deriving DecidableEq, Repr

/-- The states of one section at its exponent (R207, R209). -/
structure SecState where
  xs   : List Int := [0, 0, 0]
  ys   : List Int := [0, 0, 0]
  es   : Int := -128
  peak : Int := -128
  deriving DecidableEq, Repr

/-- A binding: kind 0 none, 1 SIGNAL or ANALOGUE channel, and so on as R203 numbers them, with its reference. -/
structure Binding where
  kind : Nat := 0
  ref  : Nat := 0
  deriving DecidableEq, Repr

/-- One loop context (R200 to R211): configuration, the set in force and its shadows, and its run state. `types` are those of its sections,
`typeBits` the record's bits whole (R225). `pars` holds the
parameter entries K_IN, K_FF, OUT_MIN, OUT_MAX (0 none), `parLast` the parameter values used last, `pendingOut` an aligned
output that waits for the next tick (R216), `spHeld` the setpoint of the last sample outside HOLD (R202), `armed` an ENABLE bit that
waits for the next tick (R218), `copied` an accepted set (R220). -/
structure Loop where
  defined   : Bool := false
  flags     : Nat := 0
  group     : Nat := 0
  types     : List Bool := []
  typeBits  : Nat := 0
  inA       : Binding := {}
  sp        : Binding := {}
  inB       : Binding := {}
  outEntry  : Nat := 0
  statEntry : Nat := 0
  chan      : Binding := {}
  pars      : List Nat := [0, 0, 0, 0]
  force     : LoopSet := {}
  shadow    : LoopSet := {}
  copied    : Option LoopSet := none
  dirty     : Bool := false
  enabled   : Bool := false
  armed     : Option Bool := none
  memBad    : Bool := false
  sticky    : Nat := 0
  held      : Bool := false
  clamping  : Bool := false
  satSec    : Nat := 0
  secs      : List SecState := []
  out       : Flt := {}
  outQual   : Byte := 0x01
  u         : Flt := {}
  parLast   : List (Option Flt) := [none, none, none, none]
  spHeld    : Option (Flt × Byte) := none
  pendingOut : Option (Flt × Byte) := none
  deriving DecidableEq, Repr

/-- One rate group (R200, R217, R223); `nextTick` is the instant of its next tick. -/
structure LoopGroup where
  nextTick : Nat := 0
  misses  : Nat := 0
  longest : Nat := 0
  last    : Nat := 0
  missed  : Bool := false
  deriving DecidableEq, Repr

/-- The banked selection and latch of one requester (R224); `want` is the loop whose states a LATCH asked for. -/
structure LoopBank where
  sel     : Nat := 0
  want    : Option Nat := none
  latched : Bool := false
  secs    : List SecState := []
  deriving DecidableEq, Repr

/-- The compensator engine and the LOOP window. `loops` lists the defined loops by number; from `computeFrom` on, loops compute in
RUN: the release epoch of an entry from STARTING or STOP, 0 of one from HOLD (R218). `wiped` says that a CLEAR of B11 left no context
there (R99). -/
structure Engine where
  loops  : List (Nat × Loop) := []
  groups : List LoopGroup := List.replicate 8 {}
  flags  : Word := 0
  worst  : Nat := 0
  peak   : Nat := 0
  computeFrom : Nat := 0
  wiped  : Bool := false
  commit : Commit := {}
  sdk    : LoopBank := {}
  plant  : LoopBank := {}
  deriving DecidableEq, Repr

end Sys2Proof.Machine
end

