-- ==== Sys2Proof/Machine/State/Mem.lean ====
section
/-! DEFINITION. The memory banks, their owners, grants, errors, folds and the MEM window (04_memory.md R94 to R123). -/

namespace Sys2Proof.Machine

/-- The DMA owner IDs 0 to 7 (R95, R106). -/
inductive Owner where
  | cpu
  | loop
  | ring
  | mirror
  | canQueue
  | recorder
  | panel
  | test
  deriving DecidableEq, Repr

/-- The use of a CPU bank (R95, R121), codes 0 to 2. -/
inductive BankUse where
  | general
  | code
  | data
  deriving DecidableEq, Repr

/-- What the BANKS section says of one bank (R95, R96): the bank, its owner ID, its use, and its grants as owner ID, first row and
last row. -/
structure BankRec where
  bank   : Nat
  owner  : Nat
  use    : Nat
  grants : List (Nat × Nat × Nat)
  deriving DecidableEq, Repr

/-- One grant of a bank (R96, R122). -/
structure Grant where
  owner : Owner
  first : Nat
  last  : Nat
  deriving DecidableEq, Repr

/-- One bank B0 to B16. `folds` maps a row as addressed to the spare row that replaces it; `marked` are spare rows that
failed; `clearing` holds while a handover's clear runs (R99). -/
structure Bank where
  owner    : Owner := .test
  use      : BankUse := .general
  grants   : List Grant := []
  retained : Bool := false
  powered  : Bool := true
  folds    : List (Nat × Nat) := []
  marked   : List Nat := []
  clearing : Bool := false
  ce       : Nat := 0
  ue       : Nat := 0
  deriving DecidableEq, Repr

/-- One entry of the weak-row record in MRAM (R109). -/
structure WeakEntry where
  bank    : Nat
  row     : Nat
  trigger : Nat
  power   : Nat
  fold    : Nat
  deriving DecidableEq, Repr

/-- MEM_INJECT (R123): positions 0x7F for none. -/
structure Inject where
  armed : Bool := false
  bank  : Nat := 0
  posA  : Nat := 0x7F
  posB  : Nat := 0x7F
  posC  : Nat := 0x7F
  deriving DecidableEq, Repr

/-- MEM_HANDOVER (R118). The `now` fields are the accepted handover that runs while BUSY. -/
structure Handover where
  busy    : Bool := false
  refused : Bool := false
  bank    : Nat := 0
  owner   : Nat := 0
  clear   : Bool := false
  nowBank  : Nat := 0
  nowOwner : Nat := 0
  nowClear : Bool := false
  deriving DecidableEq, Repr

/-- A place in a physical bank: bank 0 to 16, row 0 to 1,087 with spare row s at 1,024 + s, word 0 to 63. -/
structure Place where
  bank : Nat
  row  : Nat
  word : Nat
  deriving DecidableEq, Repr

/-- The location of the last correction or uncorrectable error (R119); SOURCE 0xF for none. -/
structure Loc where
  bank   : Nat := 0
  row    : Nat := 0
  word   : Nat := 0
  spare  : Bool := false
  source : Nat := 0xF
  deriving DecidableEq, Repr

/-- Memory, its code, the scrubber and the MEM window. `cells` holds the bytes by memory address (R94); `errs` the
positions in error of a stored word, by its place; `found` the words found uncorrectable that no 8-byte write has repaired (R107);
`corrected` the last 256 corrected positions with a mark that the write-back was made (R108); `backs` words that wait for
their write-back, with the positions corrected and those still in error after it; `roundSwept` that the watch round in progress has
swept the retained banks (R112). -/
structure Mem where
  banks     : List Bank := List.replicate 17 {}
  cells     : List Host.Cell := []
  errs      : List (Place × List Nat) := []
  folded    : Option Nat := none
  weak      : List WeakEntry := []
  weakDue   : List WeakEntry := []
  weakNew   : Nat := 0
  prevFolds : List (Nat × Nat × Nat) := []
  corrected : List (Place × Nat × Bool) := []
  rowsSeen  : List (Nat × Nat) := []
  rowsWeak  : List (Nat × Nat) := []
  scrubUe   : List Place := []
  backs     : List (Place × List Nat × List Nat) := []
  found     : List Place := []
  roundSwept : Bool := false
  flags     : Word := 0
  sweepDone : Bool := false
  handover  : Handover := {}
  period    : Nat := 60
  firstFast : Bool := false
  shadow    : Nat := 60
  copied    : Nat := 60
  commit    : Commit := {}
  sweeps    : Nat := 0
  sweepAt   : Nat := 0
  posBank   : Nat := 0
  posWord   : Nat := 0
  lastCe    : Loc := {}
  ceClass   : Nat := 0
  cePosA    : Nat := 0x7F
  cePosB    : Nat := 0x7F
  lastUe    : Loc := {}
  ownerFaults : Nat := 0
  inject    : Inject := {}
  olcWriting : Bool := false
  deriving DecidableEq, Repr

end Sys2Proof.Machine
end

