-- ==== Sys2Proof/Machine/State/Pair.lean ====
section
/-! DEFINITION. The pair, its pennants and commands, the Jack on both ends, and the hoist
(09_pair_and_takeover.md R226 to R260, 10_hoist_codec.md R261 to R279). -/

namespace Sys2Proof.Machine

/-- PAIR_STATUS.STATE (R242, R256), codes 0 to 7. -/
inductive PairState where
  | none
  | listen
  | standby
  | query
  | noActive
  | taking
  | active
  | releasing
  deriving DecidableEq, Repr

/-- The fields of a pennant (R231) but its CRC. Role, mode and command are their codes. -/
structure Pennant where
  pairId    : Nat
  side      : Nat
  role      : Nat
  mode      : Nat
  flags     : Nat
  seq       : Nat
  epoch     : Nat
  gen       : Nat
  set       : Nat
  level     : Nat
  digest    : Nat
  mono      : Nat
  nextT0    : Nat
  command   : Nat
  arg       : Nat
  cmdSeq    : Nat
  cmdAt     : Nat
  newEpoch  : Nat
  lastHoist : Nat
  deriving DecidableEq, Repr

/-- A Jack frame (R238): its type 0x41 to 0x46 and the fields at bytes 4 to 19. -/
structure JackFrame where
  typ    : Nat
  pairId : Nat
  side   : Nat
  arg    : Nat
  num    : Nat
  epoch  : Nat
  deriving DecidableEq, Repr

/-- A command in progress on the active side, or accepted on the standby (R231, R245): kind 1 MODE_CHANGE,
2 OLC_SWITCH, 3 HANDOVER, 4 HANDOVER_NOW; `void` a hand-over that silence has voided (R247). -/
structure PairCommand where
  kind     : Nat
  arg      : Nat
  seq      : Nat
  due      : Nat
  newEpoch : Nat
  acked    : Bool
  asked    : Nat
  void     : Bool := false
  deriving DecidableEq, Repr

/-- What a side keeps for the Jack (R241): `lastAnswer` is when its last answer or acknowledgement came, `answerAt` its last answer (R242). -/
structure JackClient where
  queryNo    : BitVec 16 := 0
  notifyNo   : BitVec 16 := 0
  reason     : Nat := 0
  attempts   : Nat := 0
  waiting    : Bool := false
  lastAnswer : Nat := 0
  answerAt   : Nat := 0
  reachable  : Bool := false
  fastNotify : Bool := false
  notifyAt   : Option Nat := none
  notifyWait : Bool := false
  refusedRec : Bool := false
  absentRec  : Bool := false
  linkRec    : Bool := false
  deriving DecidableEq, Repr

/-- One record of a Jack (R239, R260). `owner` is 0 none, 1 A, 2 B. -/
structure JackRec where
  pairId  : Nat
  epoch   : Nat := 0
  owner   : Nat := 0
  granted : Option Nat := none
  busy    : Bool := false
  querier : Nat := 0
  queryNo : Nat := 0
  known   : Nat := 0
  probeNo : Nat := 0
  replyTo : Nat := 0
  seenA   : Bool := false
  seenB   : Bool := false
  grants  : Nat := 0
  deriving DecidableEq, Repr

/-- The PAIR_TASKn block (R259), with when its last mismatch was recorded (R251). -/
structure PairTask where
  compared : Nat := 0
  mismatch : Nat := 0
  lastMm   : Nat := 0
  digest   : Nat := 0
  recAt    : Option Nat := none
  deriving DecidableEq, Repr

/-- The pair side, the Jack's records and the PAIR window. `aligned` says that the release epoch in force is the pair's (R248). -/
structure Pair where
  st        : PairState := .none
  side      : Nat := 0
  sbcSeries : Bool := false
  jackRing  : Bool := false
  jackP4    : Bool := false
  jackMac   : Nat := 0
  linkP3    : Bool := false
  partner   : Option Pennant := none
  partnerAt : Nat := 0
  silent    : Bool := false
  seq       : Nat := 0
  epoch     : Nat := 0
  epochCopy : Nat := 0
  cmd       : Option PairCommand := none
  accepted  : Option PairCommand := none
  cmdSeq    : Nat := 0
  mismatch  : Bool := false
  linkDown  : Bool := false
  foreign   : Bool := false
  clash     : Bool := false
  handoverFailed : Bool := false
  lastCause : Nat := 0
  lastStale : Bool := false
  decision  : Nat := 0
  skew      : Int := 0
  offsets   : List Int := []
  aligned   : Bool := false
  flags     : Word := 0
  rx        : Nat := 0
  bad       : Nat := 0
  silences  : Nat := 0
  takeovers : Nat := 0
  queries   : Nat := 0
  noAnswer  : Nat := 0
  tasks     : List PairTask := List.replicate 8 {}
  client    : JackClient := {}
  jack      : List JackRec := []
  deriving DecidableEq, Repr

/-- One range of the HOIST section (R262). -/
structure HoistRange where
  inst   : Nat
  offset : Nat
  count  : Nat
  hist   : Bool
  mbits  : Nat
  deriving DecidableEq, Repr

/-- One cycle record of a task since the last hoist (R269 class 0x01). -/
structure CycleRec where
  task   : Nat
  done   : Bool
  skips  : Nat
  m      : Nat
  digest : Nat
  firstSkip : Nat
  deriving DecidableEq, Repr

/-- The states of one section as a LOOP_STATE record carries them: Es, EXP_PEAK and the codes (R269, R270). -/
structure HoistSec where
  es   : Int
  peak : Int
  xs   : List Int
  ys   : List Int
  deriving DecidableEq, Repr

/-- One record of a hoist body (R269). -/
inductive HoistRec where
  | cycle (c : CycleRec)
  | outputs (mask cmds : Nat) (sbc0 sbc1 : Bool)
  | forces (refresh : Bool) (items : List (Nat × Datum))
  | loopState (loop qbytes : Nat) (mant : Int) (exp : Int) (qual : Byte) (sections : List HoistSec)
  | entries (refresh : Bool) (first : Nat) (items : List (Datum × Byte))
  | instanceRec (refresh : Bool) (range first : Nat) (granules : List (List Byte))
  | history (refresh : Bool) (range first : Nat) (codes : List Nat)
  deriving DecidableEq, Repr

/-- A decoded hoist body (R269). -/
structure HoistBody where
  seq      : Nat
  gen      : Nat
  pacing   : Nat
  overflow : Bool
  rotEnd   : Bool
  mono     : Nat
  rotPos   : Nat
  recs     : List HoistRec
  deriving DecidableEq, Repr

/-- What a hoist codes (R266): the force list, a loop's states, a mirrored entry by its position, a granule or an element of a
range. -/
inductive HItem where
  | forces
  | loop (n : Nat)
  | entry (pos : Nat)
  | granule (range g : Nat)
  | element (range e : Nat)
  deriving DecidableEq, Repr

/-- A cycle the standby completed, kept for the comparison of R251. -/
structure RanCycle where
  task   : Nat
  m      : Nat
  gen    : Nat
  fit    : Bool
  digest : Nat
  deriving DecidableEq, Repr

/-- The hoist on both sides and its registers in the PAIR window (R262 to R279). `image` and `next` hold words 0 and 1
of each mirrored entry; `coded` the value and quality that were coded last; `written` the granules and elements written and not coded, and
`carried` what the last hoist cut (R267); `gathers` the items of a task whose gather does not end by its next release, `gatherLate` that the next hoist tells of one (R265).
`seq` is the SEQ last sent or applied, `lastApplied` the one last applied (R268), `expect` the next one to account for; `heardAt` is
when the last whole hoist came, or this side became STANDBY. `imageOk` says the image is whole but for a hoist
with OVERFLOW (`sawOverflow`). `awaiting` are the active's cycles not yet compared, with their generation; `ran` the standby's own. -/
structure Hoist where
  mirror    : List Nat := []
  ranges    : List HoistRange := []
  qbytes    : List (Nat × Nat) := []
  refreshBytes : Nat := 8192
  pacing    : Nat := 0xFF
  allowance : Nat := 60000
  image     : List (Nat × (Datum × Datum)) := []
  next      : Option (List (Nat × (Datum × Datum))) := none
  coded     : List (Nat × (Datum × Byte)) := []
  written   : List HItem := []
  carried   : List HItem := []
  gathers   : List (Nat × List HItem) := []
  gatherLate : Bool := false
  cycles    : List CycleRec := []
  forcesNew : Bool := false
  rotPos    : Nat := 0
  seq       : Option Nat := none
  lastApplied : Option Nat := none
  heardAt   : Nat := 0
  expect    : Option Nat := none
  gen       : Nat := 0
  fragSeq   : Option Nat := none
  fragNext  : Nat := 0
  fragData  : List Byte := []
  fragLate  : Bool := false
  imageOk   : Bool := false
  sawOverflow : Bool := false
  onlyOver  : Bool := false
  catching  : Bool := false
  catchDone : Nat := 0
  catchAt   : Nat := 0
  catchMs   : Nat := 0
  halted    : Bool := false
  lastMask  : Nat := 0
  lastCmds  : Option Nat := none
  skipNext  : List (Nat × Nat) := []
  ownSkips  : List (Nat × Nat) := []
  ran       : List RanCycle := []
  awaiting  : List (Nat × CycleRec) := []
  loopsDue  : List HoistRec := []
  memDue    : List HoistRec := []
  flags     : Word := 0
  sent      : Nat := 0
  applied   : Nat := 0
  lost      : Nat := 0
  overflows : Nat := 0
  unpaired  : Nat := 0
  largest   : Nat := 0
  last      : Nat := 0
  rotations : Nat := 0
  overAt    : Option Nat := none
  hiSdk     : Nat := 0
  hiPlant   : Nat := 0
  deriving DecidableEq, Repr

end Sys2Proof.Machine
end

