-- ==== Sys2Proof/Machine/State/Panel.lean ====
section
/-! DEFINITION. The status panel (20_status_panel.md R502 to R515). -/

namespace Sys2Proof.Machine

/-- One of the three records of lines 6 to 8 (R502). -/
structure PanelRec where
  code  : EvCode
  power : Nat
  opsec : Nat
  deriving DecidableEq, Repr

/-- One row of the waveform table (R506): the drive codes of 1 to 48 frames, by old grey, new grey and band. -/
structure WaveRow where
  old   : Nat
  new   : Nat
  band  : Nat
  codes : List Nat
  deriving DecidableEq, Repr

/-- The panel's own flash (R505 to R507): the waveform table, the drive-voltage table by band in 0.1 V, the trims that are not 0 by pixel, and
whether each of the three passes its CRC-32C. -/
structure PanelFlash where
  wave    : List WaveRow := []
  drive   : List Nat := []
  trims   : List (Nat × Int) := []
  waveOk  : Bool := true
  driveOk : Bool := true
  trimOk  : Bool := true
  deriving DecidableEq, Repr

/-- The content of R502: what the eight lines show, taken as it stands when an update starts; the texts as code points. -/
structure Picture where
  name      : List Nat := []
  location  : List Nat := []
  role      : Nat := 0
  mode      : Nat := 0
  stale     : Bool := false
  configError : Bool := false
  level     : Nat := 0
  forced    : Bool := false
  key       : Option (Nat × Nat × Nat) := none
  result    : Nat := 0
  serial    : Nat := 0
  recs      : List PanelRec := []
  deriving DecidableEq, Repr

/-- What the displayed image shows: all white, or a picture. -/
inductive Shown where
  | white
  | picture (p : Picture)
  deriving DecidableEq, Repr

/-- The update in progress (R506, R510, R512): what it draws, the lengths F of its passes, and the power-cycle count and the operating seconds at its start
(R504). -/
structure PanelUpdate where
  draws    : Shown
  recovery : Bool
  corrective : Bool
  lengths  : List Nat := []
  power    : Nat := 0
  opsec    : Nat := 0
  deriving DecidableEq, Repr

/-- The panel driver and the PANEL window. Temperatures in 0.01 °C, voltages in 10 mV, energy in mJ. -/
structure Panel where
  enabled      : Bool := false
  includeFault : Bool := false
  minInterval  : Nat := 10
  location     : List Byte := []
  flash        : PanelFlash := {}
  temp         : Int := 0
  band         : Nat := 0
  bandLatched  : Nat := 0
  pending      : Bool := false
  correctiveDue : Bool := false
  disabled     : Bool := false
  noUpdate     : Bool := false
  unknown      : Bool := false
  update       : Option PanelUpdate := none
  frame        : Nat := 0
  lastF        : Nat := 0
  lastEnergy   : Nat := 0
  vsSet        : Nat := 0
  vsMeas       : Nat := 0
  vsOutRun     : Nat := 0
  driveRun     : Nat := 0
  flags        : Word := 0
  updates      : Nat := 0
  deferred     : Nat := 0
  startedAt    : Option Int := none
  inProgress   : Bool := false
  shown        : Shown := .white
  shownPower   : Nat := 0
  shownOpsec   : Nat := 0
  deriving DecidableEq, Repr

end Sys2Proof.Machine
end

