-- ==== Sys2Proof/Machine/State/Pwr.lean ====
section
/-! DEFINITION. Supplies, hold-up, field-supply groups and harbour watch (03_supplies_and_harbour_watch.md R59 to R93). -/

namespace Sys2Proof.Machine

/-- SOURCE of PWR_STATUS (R88), codes 0 to 2. -/
inductive Source where
  | mains
  | backup
  | holdup
  deriving DecidableEq, Repr

/-- STATE of a field-supply group (R71, R90), codes 0 to 4. -/
inductive FieldState where
  | normal
  | low
  | lost
  | qualifying
  | awaitAck
  deriving DecidableEq, Repr

/-- One field-supply group: A to D, then F (R71, R76). `startup` is the start-up LOST of R71, `first` says that
no qualification has come since the start, `overNow` that the over-voltage condition stands. -/
structure FieldGroup where
  lplus   : Nat := 0
  st      : FieldState := .lost
  startup : Bool := true
  first   : Bool := true
  overNow    : Bool := false
  deriving DecidableEq, Repr

/-- The SH fields of the PWR window (R86, R91 to R93). -/
structure PwrSet where
  policy    : Nat := 0
  autoEnter : Nat := 0
  retain    : Nat := 0
  wake      : Nat := 0xA5
  settle    : Nat := 0x064
  digital   : Nat := 0
  analogue  : Nat := 0
  deriving DecidableEq, Repr, Inhabited

/-- What the POWER section gives (R78, R86, R87). -/
structure PowerSec where
  harbour : Bool := false
  set     : PwrSet := {}
  deriving DecidableEq, Repr, Inhabited

/-- Where harbour watch stands (R79 to R81). `entering` waits for the task cycles to end. -/
inductive HbrPhase where
  | none
  | entering
  | asleep
  | settling
  | reading
  deriving DecidableEq, Repr

/-- A wake source (R80), PWR_HBR_LAST codes 1 to 4. -/
inductive WakeSource where
  | alarm0
  | alarm1
  | wakeInput
  | x1Return
  deriving DecidableEq, Repr

/-- The PWR window. Voltages in mV, power in 10 mW, energy in mJ, ESR in mΩ, capacitance in 10 µF. `standing` holds the
flags of R89 whose condition holds now; `rideAt` the t0 of the ride-through in progress (R67); `roundAt` the instant of the last ROUND
wake (R81); `lossNoted` the backup domain's note that retention ended in harbour watch (R83). -/
structure Pwr where
  x1        : Bool := false
  x1Dc      : Bool := false
  x2        : Bool := false
  x2Cut     : Bool := false
  x1V       : Nat := 0
  x2mV      : Nat := 0
  busmV     : Nat := 0
  power10mW : Nat := 0
  source    : Source := .mains
  holdupReady : Bool := false
  powerDown : Bool := false
  railsOff  : Bool := false
  rideAt    : Option Int := none
  esr       : Nat := 0
  cap       : Nat := 0
  energy    : Nat := 0
  holdupMs  : Nat := 0
  esrFactory : Nat := 0
  flags     : Word := 0
  standing  : Word := 0
  groups    : List FieldGroup := List.replicate 5 {}
  harbourEnabled : Bool := false
  force     : PwrSet := {}
  shadow    : PwrSet := {}
  copied    : PwrSet := {}
  commit    : Commit := {}
  hbr       : HbrPhase := .none
  retentionLost : Bool := false
  wakeWait  : List WakeSource := []
  lastAction : Nat := 0
  lastSource : Nat := 0
  rounds    : Nat := 0
  roundAt   : Nat := 0
  lossNoted : Bool := false
  pwrOn     : Bool := false
  pwrOnState : Bool := false
  dips      : Nat := 0
  deriving DecidableEq, Repr

end Sys2Proof.Machine
end

