-- ==== Sys2Proof/Machine/State/Ring.lean ====
section
/-! DEFINITION. The ring and its remote stations (11_ring_and_stations.md R280 to R307). -/

namespace Sys2Proof.Machine

/-- The state of a station's session (R293), STATE codes 0 to 3 of R307. -/
inductive StnState where
  | idle
  | admitting
  | live
  | lost
  deriving DecidableEq, Repr

/-- The fields of a HELLO (R287), with its source address. -/
structure HelloFrame where
  src     : Nat
  owner   : Nat
  station : Nat
  highest : Nat
  typ     : Nat
  outMax  : Nat
  inMax   : Nat
  deriving DecidableEq, Repr

/-- The fields of an ADMIT that a standby takes (R288, R300), with its destination address. -/
structure AdmitFrame where
  dest    : Nat
  owner   : Nat
  station : Nat
  session : Nat
  deriving DecidableEq, Repr

/-- The fields of an INPUT frame (R290), held until the release instant that unpacks it. -/
structure InputFrame where
  owner     : Nat
  station   : Nat
  status    : Nat
  session   : Nat
  highest   : Nat
  lastCycle : Nat
  seq       : Nat
  dataLen   : Nat
  data      : List Byte
  deriving DecidableEq, Repr

/-- One configured station: its record (R283) and its session (R293 to R299). `waiting` is a built output that waits for its
launch (R319), `admitAt` when ADMITTING began, `checked` that the first release instant after the start has passed (R297). -/
structure Station where
  num       : Nat
  task      : Nat
  lostCycles : Nat
  pinMac    : Bool
  outLen    : Nat
  inLen     : Nat
  watchdog  : Nat
  typ       : Nat
  mac       : Nat
  st        : StnState := .idle
  session   : Nat := 0
  addr      : Option Nat := none
  lastSeq   : Option Nat := none
  held      : Option InputFrame := none
  fromLost  : Bool := false
  admitAt   : Nat := 0
  first     : Bool := false
  fresh     : Bool := false
  missRun   : Nat := 0
  inputs    : Nat := 0
  misses    : Nat := 0
  losses    : Nat := 0
  status    : Nat := 0
  checked   : Bool := false
  waiting   : Option (Bool × List Byte × Nat) := none
  deriving DecidableEq, Repr

/-- The figures a LATCH of RING_SEL copies, and the selection (R307). -/
structure RingBank where
  sel     : Nat := 0
  latched : Bool := false
  state   : Word := 0
  inputs  : Word := 0
  misses  : Word := 0
  losses  : Word := 0
  deriving DecidableEq, Repr

/-- The counters of R303. -/
structure RingCounts where
  p1Rx         : Nat := 0
  p2Rx         : Nat := 0
  duplicates   : Nat := 0
  bad          : Nat := 0
  outDiscarded : Nat := 0
  joinsRefused : Nat := 0
  openings     : Nat := 0
  deriving DecidableEq, Repr

/-- The shadow of RING_CFG (R306). -/
structure RingCfg where
  station    : Nat := 0
  lostCycles : Nat := 0
  deriving DecidableEq, Repr

/-- The ring engine, the HSR watch of each direction (R282) and the RING window. `miss12` and `miss21` count supervision frames
in a row that did not return, `supAt` is when the last left, and `sup12` and `sup21` that the ones sent on P1 and P2 have not returned
yet. `nodes` lists the source addresses of the node table with the instant each was last seen, `seen` the HSR sequence numbers received
of them: source, number and instant. -/
structure Ring where
  runs      : Bool := false
  inputLead : Nat := 100
  stations  : List Station := []
  load      : Nat := 0
  link1     : Bool := false
  link2     : Bool := false
  blocked1  : Bool := false
  blocked2  : Bool := false
  rxHalt1   : Bool := false
  rxHalt2   : Bool := false
  txHalt1   : Bool := false
  txHalt2   : Bool := false
  dir12     : Bool := false
  dir21     : Bool := false
  miss12    : Nat := 0
  miss21    : Nat := 0
  hsrSeq    : BitVec 16 := 0
  supAt     : Option Nat := none
  sup12     : Option Nat := none
  sup21     : Option Nat := none
  nodes     : List (Nat × Nat) := []
  seen      : List (Nat × Nat × Nat) := []
  flags     : Word := 0
  counts    : RingCounts := {}
  refusedAt : List (Nat × Nat) := []
  commit    : Commit := {}
  shadow    : RingCfg := {}
  copied    : RingCfg := {}
  sdk       : RingBank := {}
  plant     : RingBank := {}
  deriving DecidableEq, Repr

end Sys2Proof.Machine
end

