-- ==== Sys2Proof/Machine/State/Rtc.lean ====
section
/-! DEFINITION. The calendar clock, alarms and the WAKE input (17_calendar_clock.md R441 to R459). -/

namespace Sys2Proof.Machine

/-- A calendar value (R446). -/
structure Calendar where
  year   : Nat := 2000
  month  : Nat := 1
  day    : Nat := 1
  hour   : Nat := 0
  minute : Nat := 0
  second : Nat := 0
  deriving DecidableEq, Repr

/-- One alarm: the fields it compares, MATCH and its switches (R450, R459). -/
structure Alarm where
  time     : Calendar := {}
  weekday  : Nat := 0
  enable   : Bool := false
  catchup  : Bool := true
  once     : Bool := false
  matchMask : Nat := 0
  deriving DecidableEq, Repr

/-- The RTC shadows as one set (R456). -/
structure RtcSet where
  time       : Calendar := {}
  weekday    : Nat := 0
  setWeekday : Bool := false
  setCalendar : Bool := false
  alarms     : List Alarm := [{}, {}]
  filter     : Nat := 5
  deriving DecidableEq, Repr

/-- What a read of RTC_NOW_TIME latches for one reader (R455). -/
structure RtcLatch where
  date : Calendar := {}
  sub  : Nat := 0
  deriving DecidableEq, Repr

/-- The backup domain's clock and the RTC window. `tickAt` is the instant of the last second tick on the monotonic base,
`discipline` a disciplining set that waits for the tick with its difference in s (R320), `corr` the correction in force in
0.01 ppm and `cycles` C of R444, `deferred` alarms that fired without logic power and X2, `untold` alarms that fired in harbour
watch and wait for their record, with LATE (R452), `unraised` the domain's other events that happened without logic power, with their
severity and parameter 1 (R462). -/
structure Rtc where
  now      : Calendar := {}
  weekday  : Nat := 0
  tickAt   : Int := 0
  valid    : Bool := false
  alarms   : List Alarm := [{}, {}]
  filter   : Nat := 5
  flags    : Word := 0
  counts   : List Nat := [0, 0]
  wakeLevel : Bool := false
  curveOk  : Bool := false
  curve    : List Int := List.replicate 27 0
  temp     : Int := 0
  corr     : Int := 0
  cycles   : Int := 0
  cellMv   : Nat := 0
  capMv    : Nat := 0
  shadow   : RtcSet := {}
  copied   : RtcSet := {}
  commit   : Commit := {}
  discipline : Option Int := none
  deferred : List Nat := []
  untold   : List (Nat × Bool) := []
  unraised : List (Ev × Severity × Nat) := []
  sdk      : RtcLatch := {}
  plant    : RtcLatch := {}
  deriving DecidableEq, Repr

end Sys2Proof.Machine
end

