-- ==== Sys2Proof/Machine/State/Safe.lean ====
section
/-! DEFINITION. The safety function's state: inputs, pairs, brake functions, test pulses and the SAFE window
(16_safety.md R413 to R440). -/

namespace Sys2Proof.Machine

/-- The two paths of R413. -/
inductive SafePath where
  | chip
  | supervisor
  deriving DecidableEq, Repr

/-- The mode of a pair (R416), codes 0 to 3. -/
inductive PairMode where
  | unused
  | equivalent
  | antivalent
  | reset
  deriving DecidableEq, Repr

/-- The state of a brake function (R420, R439): codes 0 to 5 and 15. -/
inductive FuncState where
  | demand
  | ready
  | check
  | released
  | fault
  | testing
  | disabled
  deriving DecidableEq, Repr

/-- How a static switch test ends (R425). -/
inductive StaticEnd where
  | pass
  | stuck
  | openLoad
  deriving DecidableEq, Repr

/-- One safety input as one path sees it: its filtered state and when that last became 1 (R415, R419), and the history of its test-pulse
checks (R418). -/
structure SiSeen where
  filt      : Bool := false
  rose      : Nat := 0
  otherLow  : Bool := false
  tpRun     : Nat := 0
  crossRun  : Nat := 0
  tpClear   : Nat := 2
  crossClear : Nat := 2
  resetFault : Bool := false
  deriving DecidableEq, Repr

/-- One safety input: its raw level, what each path sees (R413, R415), and for how many ticks the filtered states have differed (R414). -/
structure SiCh where
  raw    : Bool := false
  chip   : SiSeen := {}
  sup    : SiSeen := {}
  differ : Nat := 0
  deriving DecidableEq, Repr

/-- The latched faults of a pair (R427); `over0` and `over1` are TP_OVERLOAD of TP0 and of TP1 (R418). -/
structure PairFaults where
  discrepancy : Bool := false
  tpFault     : Bool := false
  cross       : Bool := false
  over0       : Bool := false
  over1       : Bool := false
  deriving DecidableEq, Repr

/-- One pair as one path evaluates it (R413, R416, R417): the count of disagreement, its latched faults and those of them that the other path
has not been told yet (R414), SEEN_BOTH_0 and the combined state. -/
structure PairSeen where
  count     : Nat := 0
  faults    : PairFaults := {}
  news      : PairFaults := {}
  seenBoth0 : Bool := false
  combined  : Bool := false
  deriving DecidableEq, Repr

/-- One pair of safety inputs (R416, R417, R438). `differ` and `differF` are the ticks for which its combined states, and its latched faults,
have differed between the paths (R414). -/
structure SiPair where
  mode    : PairMode := .unused
  test    : Bool := false
  filter  : Nat := 0
  disc    : Nat := 0
  chip    : PairSeen := {}
  sup     : PairSeen := {}
  differ  : Nat := 0
  differF : Nat := 0
  deriving DecidableEq, Repr

/-- One brake function with its safe brake output (R420 to R425, R430, R439, R440). `st` and `edge` are the chip path's state and its
reset edge waiting for the tick, with the length of its pulse in ms; `supSt` and `supEdge` the supervisor path's (R413), and `differ` the ticks for
which the states have differed (R414). `since` is the instant at which it entered its state, `duty` the mean voltage of its output in per cent of L+F
(R424, R426), `lowTicks`, `overTicks` and `offTicks` the ticks for which the coil current has been below MIN_MA or above 3.0 A while released, and
both pins at 2 V or above while off (R423 to R425); `told` the faults recorded already, `hourSecs` the seconds of the operating hour in progress. -/
structure SafeFunc where
  enabled   : Bool := false
  pairs     : Nat := 0
  resetSi   : Nat := 0
  reqEntry  : Nat := 0
  releaseMs : Nat := 0
  holdPct   : Nat := 0
  minMa     : Nat := 0
  intervalH : Nat := 0
  timeoutS  : Nat := 0
  st        : FuncState := .disabled
  since     : Nat := 0
  duty      : Nat := 0
  request   : Bool := false
  fromHoist : Bool := false
  hoistBit  : Bool := false
  ownReq    : Bool := false
  holdPhase : Bool := false
  hsOn      : Bool := false
  lsOn      : Bool := false
  torque    : Bool := false
  openLoad  : Bool := false
  overNow      : Bool := false
  stuck     : Bool := false
  btFailed  : Bool := false
  darkHs    : Nat := 0
  darkLs    : Nat := 0
  edge      : Option Nat := none
  supSt     : FuncState := .disabled
  supEdge   : Bool := false
  differ    : Nat := 0
  demands   : Nat := 0
  measMa    : Nat := 0
  measMv    : Nat := 0
  measMinus : Nat := 0
  lowTicks  : Nat := 0
  overTicks : Nat := 0
  offTicks  : Nat := 0
  last      : Nat := 0
  due       : Bool := false
  failStands : Bool := false
  hours     : Nat := 0
  hourSecs  : Nat := 0
  told      : Nat := 0
  deriving DecidableEq, Repr

/-- The safety function and the SAFE window. `path` is the latched PATH fault, `pathMissed` a PATH found through missed
exchanges and not yet recorded (R427). `tpOffAt0` and `tpOffAt1` are the instants at which a test pulse output was last found overloaded,
`dropAt0` and `dropAt1` those of its last drop (R418), `normalAt` that at which group F last left QUALIFYING (R426), and `tickAt` that of the last
tick (R413). -/
structure Safe where
  present   : Bool := false
  crc       : Word := 0
  tpEn0     : Bool := false
  tpEn1     : Bool := false
  tpPeriod  : Nat := 0
  tpWidth   : Nat := 0
  tpOver0   : Bool := false
  tpOver1   : Bool := false
  tpOffAt0  : Nat := 0
  tpOffAt1  : Nat := 0
  dropAt0   : Option Nat := none
  dropAt1   : Option Nat := none
  ch        : List SiCh := List.replicate 8 {}
  pairs     : List SiPair := List.replicate 4 {}
  funcs     : List SafeFunc := List.replicate 2 {}
  path      : Bool := false
  pathMissed : Bool := false
  fw        : Nat := 0
  missed    : Nat := 0
  missRun   : Nat := 0
  resumed   : Bool := false
  normalAt  : Nat := 0
  tickAt    : Option Nat := none
  rejected  : Nat := 0
  discs     : Nat := 0
  reqFunc   : Nat := 0
  reqRefused : Bool := false
  result    : Nat := 0
  resRefused : Bool := false
  deriving DecidableEq, Repr

end Sys2Proof.Machine
end

