-- ==== Sys2Proof/Machine/State/Sig.lean ====
section
/-! DEFINITION. The signal table's state (07_signal_table.md R181 to R199). -/

namespace Sys2Proof.Machine

/-- One entry of the signal table: the fields of its four words (R182), its initial value and the TYPE of its record (R190, R194), and the code of the
sink condition that stands (R187; SINK_COND reads 1 exactly when one stands). -/
structure SigEntry where
  value       : Datum := 0
  quality     : Byte := 0x01
  typ         : Nat := 0
  stale       : Bool := false
  staleCount  : Nat := 0
  substituted : Bool := false
  forced      : Bool := false
  cond        : Option Byte := none
  kind        : Nat := 0
  ref         : Word := 0
  staleCycles : Nat := 0
  substEn     : Bool := false
  pace        : Option Nat := none
  subst       : Datum := 0
  sinkFirst   : Nat := 0
  sinkCount   : Nat := 0
  initial     : Datum := 0
  recTyp      : Nat := 0
  deriving DecidableEq, Repr

/-- One record of the sink list: SINK_KIND 1 DIO, 2 ANA, 3 RING, 4 CAN, 5 SERIAL, and SINK_REF (R189). -/
structure Sink where
  kind : Nat
  ref  : Word
  deriving DecidableEq, Repr

/-- What a LATCH copies: the dynamic part of an entry (R199). -/
structure SigLatch where
  value : Datum := 0
  info  : Word := 0
  deriving DecidableEq, Repr

/-- The banked registers of one requester (R196, R199). -/
structure SigBank where
  rdIndex : Nat := 0
  latch   : SigLatch := {}
  wrValue : Datum := 0
  wrIndex : Nat := 0
  wrQual  : Byte := 0xC0
  refused : Bool := false
  deriving DecidableEq, Repr

/-- The shadows SIG_CFG_SEL, SIG_CFG_SUBST and SIG_CFG_STALE (R198). -/
structure SigCfg where
  sel         : Nat := 0
  subst       : Datum := 0
  staleCycles : Nat := 0
  substEn     : Bool := false
  deriving DecidableEq, Repr

/-- The signal table and the SIG window. -/
structure Sig where
  entries     : List (Nat × SigEntry) := []
  sinks       : List Sink := []
  flags       : Word := 0
  qualInvalid : Nat := 0
  sdk         : SigBank := {}
  plant       : SigBank := {}
  commit      : Commit := {}
  shadow      : SigCfg := {}
  copied      : SigCfg := {}
  deriving DecidableEq, Repr

end Sys2Proof.Machine
end

