-- ==== Sys2Proof/Machine/State/Sys.lean ====
section
/-! DEFINITION. The module as a whole: SYS window, clocks, roles and modes (01_station_overview.md R18 to R33), the Burgee
key and the course of a start (02_burgee_and_start.md R34 to R58, R543). -/

namespace Sys2Proof.Machine

/-- MODE of SYS_STATE (R28), codes 0 to 5. -/
inductive Mode where
  | starting
  | run
  | stop
  | hold
  | harbour
  | halted
  deriving DecidableEq, Repr

/-- ROLE of SYS_STATE (R28), codes 0 to 4. -/
inductive Role where
  | none
  | solo
  | active
  | standby
  | jack
  deriving DecidableEq, Repr

/-- The fast clocks of R29 and R30 that a request or SYS_CLKHOLD runs, bits 2 to 5. -/
inductive Clock where
  | core
  | network
  | peripheral
  | analogue
  deriving DecidableEq, Repr

/-- SYS window and clocks. `pll` says that the PLLs are locked and `run` holds the fast clocks that run (R29, R31); `phy` the power of P1 to P4 (R47) and `ports`
the ports the key uses; `linkP4` the link of P4 (the links of P1 to P3 stand with the ring and the pair). -/
structure Sys where
  level    : Nat := 0
  stale    : Bool := false
  role     : Role := .none
  mode     : Mode := .starting
  clkHold  : Word := 0
  refClock : Bool := false
  pll      : Bool := false
  run      : List Clock := []
  coreAwake : Bool := false
  hwRev    : Nat := 1
  phy      : List Bool := [false, false, false, false]
  ports    : List Bool := [false, false, false, false]
  linkP4   : Bool := false
  deriving DecidableEq, Repr

/-- The carrier in socket K (R34, R36): what it reports and its bytes; an unlisted byte reads 0xFF (erased). -/
structure Key where
  present    : Bool := false
  capacityMB : Nat := 64
  answers    : Bool := true
  cells      : List Host.Cell := []
  deriving DecidableEq, Repr

/-- The fields of a header copy (R38). -/
structure Header where
  level    : Nat
  flags    : Nat
  keyId    : Nat
  seq      : Nat
  startSet : Nat
  kind     : Nat
  name     : List Byte
  pairId   : Nat
  digest0  : List Byte
  digest1  : List Byte
  gen0     : Nat
  gen1     : Nat
  signer   : Nat
  deriving DecidableEq, Repr

/-- One directory entry (R42). -/
structure DirEntry where
  typ     : Nat
  inst    : Nat
  length  : Nat
  offsetA : Nat
  offsetB : Nat
  crc     : Nat
  required : Bool
  digest  : List Byte
  deriving DecidableEq, Repr

/-- A copy of a directory (type 0) or section that failed under R43; `copy` is 0 for A and 1 for B. -/
structure BadCopy where
  typ  : Nat
  inst : Nat
  copy : Nat
  deriving DecidableEq, Repr

/-- Where a start stands (R47, R53, R57). -/
inductive StartPhase where
  | idle
  | early
  | linkWait
  | listening
  | querying
  deriving DecidableEq, Repr

/-- The start in progress or the last one, and the accepted key. `last` is the KEY_ID, HEADER_SEQ and START_SET of the
header accepted at the last start (R58); `secs` the sections of the set in force by type and instance, which every start loads (R47, R87). -/
structure Start where
  phase    : StartPhase := .idle
  keyRead  : Bool := false
  header   : Option Header := none
  last     : Option (Nat × Nat × Nat) := none
  dir      : List DirEntry := []
  secs     : List ((Nat × Nat) × List Byte) := []
  bad      : List BadCopy := []
  failed   : List BadCopy := []
  accepted : Bool := false
  keyOut   : Bool := false
  heard    : List Pennant := []
  deriving DecidableEq, Repr

end Sys2Proof.Machine
end

