-- ==== Sys2Proof/Machine/State/Time.lean ====
section
/-! DEFINITION. Network time and timed actions (12_network_time.md R308 to R325). -/

namespace Sys2Proof.Machine

/-- TIME_STATUS.STATE (R309, R324), codes 0 to 5. -/
inductive TimeState where
  | disabled
  | freeRun
  | acquiring
  | locked
  | holdover
  | grandmaster
  deriving DecidableEq, Repr

/-- MODE of a timed pulse series (R325). -/
inductive PulseMode where
  | off
  | oneShot
  | periodic
  deriving DecidableEq, Repr

/-- One set of a pulse block's SH fields: AT in µs of network time, WIDTH and PERIOD in µs (R317, R325). -/
structure PulseSet where
  mode   : Nat := 0
  atSec  : Nat := 0
  atUs   : Nat := 0
  width  : Nat := 0
  period : Nat := 0
  deriving DecidableEq, Repr

/-- One timed pulse channel: its series in force and its counts (R317, R318, R325). `next` is the next instant in µs of
network time, none when the series has no instant to come; `missedShot` says that a ONE_SHOT ended without firing (R318). -/
structure Pulse where
  force  : PulseSet := {}
  shadow : PulseSet := {}
  copied : PulseSet := {}
  next   : Option Nat := none
  done   : Bool := false
  missedShot : Bool := false
  out    : Bool := false
  offAt  : Nat := 0
  fired  : Nat := 0
  late   : Nat := 0
  missed : Nat := 0
  lateRecAt : Option Nat := none
  deriving DecidableEq, Repr

/-- LAUNCH of one task (R321). -/
structure Launch where
  timed : Bool := false
  phase : Nat := 0
  deriving DecidableEq, Repr

/-- The TIME section (R321). -/
structure TimeCfg where
  ptp       : Bool := false
  gmCapable : Bool := false
  p2p       : Bool := false
  discipline : Bool := false
  port4     : Bool := false
  domain    : Nat := 0
  priority1 : Nat := 0
  priority2 : Nat := 0
  clockClass : Nat := 248
  logSync   : Int := 0
  logAnnounce : Nat := 0
  logDelay  : Int := 0
  announceTimeout : Nat := 2
  utcOffset : Int := 37
  launch    : List Launch := List.replicate 8 {}
  deriving DecidableEq, Repr

/-- Network time, its servo, PTP and the TIME window. `ns` is network time in ns; `frac` the fractional accumulator in
1/1,000,000,000 ns of the frequency correction; `syncWait` a two-step Sync that waits for its Follow_Up: sequenceId, receipt
and correction; `syncDiff` the last receipt less origin; `expired` 10 s of HOLDOVER have passed; `linkDelay1` and
`linkDelay2` the mean link delays of the ring ports; `syncAt` and `announceAt` when the master's last Sync and Announce came, `stepAt` the
whole millisecond at which a pending step may be applied, `checkedAt` when the calendar was last checked; `driftSum` TIME_FREQ
summed over `driftNs` ns of the hour `driftHour` while LOCKED, up to `driftAt` (R536); `launches` are the tasks whose
TIMED outputs wait, with the network-time instant in ns. -/
structure Time where
  cfg      : TimeCfg := {}
  st       : TimeState := .disabled
  ns       : Nat := 0
  frac     : Nat := 0
  freq     : Int := 0
  freqs    : List Int := []
  utcOffset : Int := 37
  utcValid : Bool := false
  portState : Nat := 0
  ringDir  : Bool := false
  stepPending : Option Int := none
  prevOffset : Option Int := none
  offset   : Int := 0
  inWindow : Nat := 0
  pathDelay : Nat := 0
  linkDelay1 : Nat := 0
  linkDelay2 : Nat := 0
  master   : Nat := 0
  syncWait : Option (Nat × Nat × Int) := none
  syncDiff : Int := 0
  reqAt    : Nat := 0
  holdSince : Nat := 0
  syncAt   : Nat := 0
  announceAt : Nat := 0
  stepAt   : Nat := 0
  checkedAt : Nat := 0
  expired  : Bool := false
  everLocked : Bool := false
  driftNotice : Bool := false
  driftFault : Bool := false
  driftSum : Int := 0
  driftNs  : Nat := 0
  driftAt  : Nat := 0
  driftHour : Nat := 0
  ptpSeq   : Nat := 0
  steps    : Nat := 0
  late     : Nat := 0
  flags    : Word := 0
  commit   : Commit := {}
  pulses   : List Pulse := List.replicate 4 {}
  launches : List (Nat × Nat) := []
  secSdk   : Nat := 0
  secPlant : Nat := 0
  deriving DecidableEq, Repr

end Sys2Proof.Machine
end

