-- ==== Sys2Proof/Syntax.lean ====
section
/-! DEFINITION. The commands: one constructor per row of the table of operations and events, with what the command carries
from outside the module (a frame, a level, a measured figure, a register word). -/

namespace Sys2Proof

open Machine

/-- The input faults of R393. -/
inductive InFault where
  | overRange
  | underRange
  | brokenWire
  deriving DecidableEq, Repr

/-- The output conditions of R397. -/
inductive OutCond where
  | openLoop
  | compliance
  | outShort
  deriving DecidableEq, Repr

/-- A response: its code, whether the code signals an error, the field device status, the loop current and the variables as
binary32 words, and the data. -/
structure HartReply where
  code    : Nat
  error   : Bool
  status  : Byte
  vars    : List Word
  data    : List Byte
  deriving DecidableEq, Repr

/-- How an attempt of a CAN entry ends (R337 to R339): sent, arbitration lost, an error, or an uncorrectable word. -/
inductive TxEnd where
  | sent
  | lost
  | error
  | memory (p : Place)
  deriving DecidableEq, Repr

/-- A received frame on a CAN port: the frame, its ESI, the instant of its SOF sample point, and whether a reserved bit was
recessive (R327, R328, R358). -/
structure CanRx where
  frame    : CanFrame
  esi      : Bool
  sofAt    : Nat
  reserved : Bool
  deriving DecidableEq, Repr

/-- An error frame as the port sees it (R348, R350): the code, the field, whether it was transmitting, whether in the data
phase, and what ISO 11898-1 adds to TEC and REC. -/
structure CanErr where
  code    : Nat
  field   : Nat
  sending : Bool
  inData  : Bool
  tecAdd  : Nat
  recAdd  : Nat
  deriving DecidableEq, Repr

/-- An enqueue: the staged entry of a requester by a write of QUE_TX_CTRL, or an entry of the runtime (R333, R334, R359). -/
inductive EnqueueReq where
  | staged (r : Reader) (ctrl : Word)
  | runtime (queue : Nat) (frame : CanFrame) (expiry : Option Nat) (oneShot : Bool)
  deriving DecidableEq, Repr


/-- How the write of a staged record ends (R465, R467, R69): stored, the slot failing its verification twice, an
uncorrectable word in staging, or power lost while the slot, or after it the index, is being written. -/
inductive StoreEnd where
  | stored
  | fails
  | memory (p : Place)
  | cut
  | indexCut
  deriving DecidableEq, Repr

/-- The part of an owner's work that an access belongs to (R106): a task's, a native block's, a loop's, a ring DMA channel's or a
queue's. -/
inductive MemUnit where
  | none
  | native (n : Nat)
  | task (n : Nat)
  | loop (n : Nat)
  | ring (port : Nat) (tx : Bool) (station : Nat)
  | queue (q : Nat)
  deriving DecidableEq, Repr

/-- An access to a bank (R97, R100): who, at which address, how many bytes, what is written, and which stored bits have flipped
before it, as word address and position. -/
structure MemAccess where
  owner : Owner
  unit  : MemUnit
  write : Bool
  addr  : Nat
  size  : Nat
  data  : List Byte
  flips : List (Nat × Nat)
  deriving DecidableEq, Repr

/-- Where a frame comes in: the port, 1 to 4, its source address and on the ring its HSR sequence number, none where it is untagged
(R280). -/
structure Rx where
  port : Nat
  src  : Nat
  hsr  : Option Nat
  deriving DecidableEq, Repr

/-- A frame at the switch (R281, R314): where it comes in, its bytes, and of a PTP message its messageType and its correctionField in
2^−16 ns; the residence time in ns. -/
structure RingFwd where
  x         : Rx
  body      : List Byte
  ptp       : Option (Nat × Nat)
  residence : Nat
  deriving DecidableEq, Repr

/-- A Sync as received (R311): the port (1, 2 or 4), its domain, the clockIdentity of its sender, whether two-step, its
sequenceId, its origin in ns and its correction in ns. -/
structure PtpSync where
  port    : Nat
  domain  : Nat
  source  : Nat
  twoStep : Bool
  seq     : Nat
  origin  : Nat
  corr    : Int
  deriving DecidableEq, Repr

/-- What the BMCA of IEEE 1588-2019 decides on an Announce (R309): follow its grandmaster, be the grandmaster, or neither. -/
inductive Bmca where
  | follow
  | master
  | passive
  deriving DecidableEq, Repr

/-- An Announce as received, with the grandmaster the BMCA settles on (R309, R313). -/
structure PtpAnnounce where
  port      : Nat
  domain    : Nat
  master    : Nat
  utcOffset : Int
  utcValid  : Bool
  decision  : Bmca
  deriving DecidableEq, Repr

/-- A delay response (R311): E2E: the receipt time of the Delay_Req at the master in ns; P2P: the responder's turnaround in
ns; and the correction. -/
structure PtpDelay where
  port   : Nat
  domain : Nat
  time   : Nat
  corr   : Int
  deriving DecidableEq, Repr

/-- A tick of a rate group (R200, R217): the group, how many of its due loops are computed before the next tick, its own
computation time in 10 ns, and the load in 0.01 %. -/
structure LoopTick where
  group    : Nat
  computed : Nat
  busy     : Nat
  load     : Nat
  deriving DecidableEq, Repr

/-- What the two paths find at a tick (R413, R414, R423, R436, R438): the raw levels, an exchange that was missed, clocks that differ by more than
2 %, and of each safe brake output the measured coil current in mA and the voltages of SBCn+ and SBCn− in 10 mV. -/
structure SafeTick where
  raw    : BitVec 8
  missed : Bool
  clocks : Bool
  ma0    : Nat
  mv0    : Nat
  minus0 : Nat := 0
  ma1    : Nat
  mv1    : Nat
  minus1 : Nat := 0
  deriving DecidableEq, Repr

/-- What the channels show in the middle of a dark window, by the comparators of each path (R413, R418). -/
structure DropLevels where
  chip : BitVec 8
  sup  : BitVec 8
  deriving DecidableEq, Repr

/-- The readback of a static switch test in 10 mV (R425): L+F, then SBCn+ and SBCn− with the high side alone, and with the low side alone. -/
structure StaticBack where
  supply    : Nat
  highPlus  : Nat
  highMinus : Nat
  lowPlus   : Nat
  lowMinus  : Nat
  deriving DecidableEq, Repr

/-- What a power-down below 0.25 J still completes (R69): the staged records written, and whether the backup domain is updated. -/
structure PowerRows where
  records : Nat
  backup  : Bool
  deriving DecidableEq, Repr

/-- A field-supply sample (R71, R86): L+ of groups A to D and F in 10 mV, X1 in V, X2 in mV, the bus in mV and the logic power in
10 mW. -/
structure SupplySample where
  lplus : List Nat
  x1V   : Nat
  x2mV  : Nat
  busmV : Nat
  power : Nat
  deriving DecidableEq, Repr


/-- What a cycle leaves at its write point (R128): the slots its blocks assigned, the stores into instance data as instance, offset
and bytes, and whether a header write that the write point brings about passes its read-back (R175). -/
structure WritePoint where
  task   : Nat
  slots  : List (Nat × (Datum × Byte))
  stores : List (Nat × Nat × List Byte)
  keyOk  : Bool
  deriving DecidableEq, Repr

/-- What a start finds (R34, R47 to R49, R443, R444, R468, R505): another key in socket K (none: as it stands), whether the PLLs lock
within three attempts, a broken integrity word, the compensation curve where it passes its CRC, a recorder index that fails its
CRC, whether the code test passes, the rows that fail the pattern test as physical bank and row (spare row s as 1,024 + s), the flash
offsets of the copies whose read fails three times, whether the panel's tables and its trim map pass their CRC, and whether the key leaves
socket K while it is read (R54). -/
structure StartIn where
  key        : Option Key
  locked     : Bool
  domainLost : Bool
  curve      : Option (List Int)
  indexBad   : Bool
  coder      : Bool
  rowFails   : List (Nat × Nat)
  readFails  : List Nat
  panel      : PanelFlash := {}
  removed    : Bool
  deriving DecidableEq, Repr


/-- A TCP connection to the plant service (R475, R478): the client's IPv4 and MAC addresses, and the VID of its frames, 0 for none. -/
structure PlantPeer where
  ip  : Nat
  mac : Nat := 0
  vid : Nat := 0
  deriving DecidableEq, Repr

/-- A request on a plant session (R475, R478, R479): the session, REQUEST_NO, the time from its receipt to the start of its response in µs,
whether its body has the form of its service, and the VID of its frames. DESIGN CHOICE (assumption 25). -/
structure PlantReq where
  session : Nat
  number  : Nat
  us      : Nat
  formed  : Bool
  vid     : Nat := 0
  deriving DecidableEq, Repr

/-- A client of a TLS handshake (R476, R477): the versions, cipher suites, groups and signature schemes that it offers by their code points,
whether its messages verify, the certificate's signed bytes and signature, its own key, and whether its validity holds now. -/
structure ClientCert where
  versions : List Nat := [0x0304]
  suites   : List Nat := [0x1301]
  groups   : List Nat := [0x0017]
  schemes  : List Nat := [0x0403]
  tls    : Bool
  signed : List Byte
  sigR   : Nat
  sigS   : Nat
  keyX   : Nat
  keyY   : Nat
  inTime : Bool
  deriving DecidableEq, Repr

/-- What a piece of an online change carries (R166): bytes of the inactive set at an offset, or a header. -/
inductive OlcPart where
  | data (off : Nat) (bytes : List Byte)
  | h1 (bytes : List Byte)
  | h2 (bytes : List Byte)
  deriving DecidableEq, Repr

/-- A piece (R166, R167): its part, whether it is the last, the offsets of the copies whose read-back fails three times, and whether the
writing of H1 that the last piece brings about passes its read-back. -/
structure OlcPiece where
  part  : OlcPart
  last  : Bool
  fails : List Nat
  keyOk : Bool
  deriving DecidableEq, Repr

/-- A frame on a serial line as it arrives (R490): whether its CRC is right, its address and its PDU. -/
structure SerFrame where
  crcOk : Bool
  addr  : Nat
  pdu   : List Byte
  deriving DecidableEq, Repr

/-- A block that has a commit register (R9): CANn by its port, SERl by its line. -/
inductive Block where
  | pwr
  | mem
  | cyc
  | sig
  | loop
  | ring
  | time
  | can (port : Nat)
  | que
  | rtc
  | ser (line : Nat)
  deriving DecidableEq, Repr

/-- An access to the system register space (R26): its address, and whether it is one aligned word of 32 bits. -/
structure RegAt where
  addr : Nat
  word : Bool
  deriving DecidableEq, Repr

/-- One pair of a REG_WRITE request (R480). -/
structure RegPair where
  reg   : RegAt
  value : Word
  deriving DecidableEq, Repr
/-- A command: an operation on the module or an event at it. -/
inductive Instr where
  /-- COMMIT_WRITE (R10). A write to a block's commit register is accepted or refused; an accepted write copies every shadow and sets PENDING. -/
  | commitWrite (b : Block) (v : Word)
  /-- COMMIT_BOUNDARY (R10). At the block's own boundary the accepted shadow set takes effect whole and PENDING clears. -/
  | commitBoundary (b : Block)
  /-- REGISTER_WRITE (R7). A write to a register that has no row of its own acts by its access code. -/
  | registerWrite (r : Reader) (a : RegAt) (v : Word) (x : StartIn)
  /-- SDK_REG_READ (R151). A native block reads one register after the ownership check. -/
  | sdkRegRead (native : Nat) (a : RegAt)
  /-- SDK_REG_WRITE (R151). A native block writes one register after the write-ownership check. -/
  | sdkRegWrite (native : Nat) (a : RegAt) (v : Word) (x : StartIn)
  /-- SDK_BUF_MAP (R151). A native block is given access to rows of a bank it owns. -/
  | sdkBufMap (native bank row count : Nat)
  /-- SDK_REQUEST_STOP (R136). A native block requests STOP. -/
  | sdkRequestStop (native : Nat)
  /-- SDK_MONO (R151). A native block reads the 64-bit monotonic time base whole. -/
  | sdkMono (native : Nat)
  /-- SYS_CLKHOLD_WRITE (R29). A write to SYS_CLKHOLD holds fast clocks on or lets them go. -/
  | sysClkholdWrite (v : Word)
  /-- CLOCK_GATE (R31). A fast clock is gated 10 µs after its last release unless a new request arrives. -/
  | clockGate (c : Clock)
  /-- CORE_WAKE (R32). The cycle timer wakes the core execution domain 5 µs ahead of a release. -/
  | coreWake
  /-- COLD_START (R47). The internal bus enters its range after logic power was absent and the start sequence runs. -/
  | coldStart (x : StartIn)
  /-- LINK_WAIT_END (R47). The link wait ends, by link on every enabled port or at t0 + 2,950 ms, and the start proceeds to mode and role. -/
  | linkWaitEnd
  /-- ROLE_DISCOVERY_LISTEN_END (R57). After 5 ms of listening on P3 a pair side joins, stops or queries the Jack. -/
  | roleDiscoveryListenEnd
  /-- KEY_REMOVED (R54). The key leaves socket K during a start, which ends with KEY_REMOVED. -/
  | keyRemoved
  /-- KEY_OUT (R55). The key leaves socket K outside a start: KEY_OUT, no further key writes, tamper source 1 in RUN. -/
  | keyOut
  /-- KEY_COPY_REPAIR (R44). In RUN a failed key copy is rewritten from the good copy and checked by read-back. -/
  | keyCopyRepair (ok : Bool)
  /-- X1_PRESENT (R60). X1 has held its present threshold for 200 ms. -/
  | x1Present (dc : Bool)
  /-- X1_LOST (R60). X1 falls below its lost threshold. -/
  | x1Lost
  /-- X2_PRESENT (R60). X2 has held 17.5 V or more for 200 ms. -/
  | x2Present
  /-- X2_LOST (R60). X2 is below 16.5 V for 1 ms; in harbour watch retention ends. -/
  | x2Lost
  /-- X2_OVER (R60). X2 above 33.0 V for 1 ms is disconnected and X2_OVER set. -/
  | x2Over
  /-- X2_RECONNECT (R60). X2 is connected again after 200 ms at or below 32.5 V. -/
  | x2Reconnect
  /-- X2_LOW (R60). X2 below 21.0 V for 1 s while feeding sets X2_LOW. -/
  | x2Low
  /-- LOGIC_HIGH (R63). Logic power above 18 W for 1 s sets LOGIC_HIGH. -/
  | logicHigh
  /-- HOLDUP_MEASURE (R64). At start and every 24 h a discharge pulse measures ESR, capacitance and hold-up time. -/
  | holdupMeasure (esr cap : Nat)
  /-- HOLDUP_ENERGY_UPDATE (R64). Every 10 ms the present usable store energy E is computed. -/
  | holdupEnergyUpdate (mV : Nat)
  /-- BUS_LOST (R67). The bus falls below 23.0 V with no input feeding; the store holds it and ride-through begins. -/
  | busLost (rows : PowerRows)
  /-- POWER_DOWN (R67). Ride-through ends with inputs still lost and the module powers down in order. -/
  | powerDown (rows : PowerRows)
  /-- RIDE_THROUGH_ENERGY_LOW (R69). Store energy below 0.25 J ends the ride-through early and power-down begins. -/
  | rideThroughEnergyLow (rows : PowerRows)
  /-- POWER_DIP (R70). An input returns during ride-through and the bus rises above 24.0 V; the module carries on. -/
  | powerDip (x1 : Bool)
  /-- FIELD_SUPPLY_LOW (R71). L+ below 19.2 V for 2 ms moves a group to LOW. -/
  | fieldSupplyLow (g : Nat)
  /-- FIELD_SUPPLY_LOST (R71). L+ below 15.0 V for 1 ms moves a group to LOST and holds its channels. -/
  | fieldSupplyLost (g : Nat)
  /-- FIELD_SUPPLY_NORMAL (R71). L+ at 19.6 V or more for 10 ms returns a group from LOW to NORMAL. -/
  | fieldSupplyNormal (g : Nat)
  /-- FIELD_SUPPLY_QUALIFYING (R71). A sample at 20.4 V or more moves a LOST group to QUALIFYING. -/
  | fieldSupplyQualifying (g : Nat)
  /-- QUALIFYING_RESTART (R71). A sample below 20.4 V returns a QUALIFYING group to LOST. -/
  | qualifyingRestart (g : Nat)
  /-- FIELD_SUPPLY_RETURNED (R71). 100 ms at 20.4 V qualifies a group to AWAIT_ACK or NORMAL. -/
  | fieldSupplyReturned (g : Nat)
  /-- FIELD_SUPPLY_OVER (R71). L+ above 30.0 V for 2 ms sets the group's over-voltage bit. -/
  | fieldSupplyOver (g : Nat)
  /-- FIELD_SUPPLY_RESTORE (R75). A restore bit written in AWAIT_ACK returns the group to NORMAL; otherwise RESTORE_IGNORED. -/
  | fieldSupplyRestore (v : Word)
  /-- HARBOUR_ENTER_REQUEST (R78). ENTER is written and the harbour-watch conditions are checked. -/
  | harbourEnterRequest
  /-- HARBOUR_AUTO_ENTER (R78). X1 lost for AUTO_ENTER seconds requests harbour-watch entry. -/
  | harbourAutoEnter
  /-- HARBOUR_ENTRY (R79). After the last task cycle ends the module hands over, switches outputs off and sleeps. -/
  | harbourEntry
  /-- HARBOUR_WAKE (R80). A wake source in harbour watch takes its action, none, ROUND or RUN. -/
  | harbourWake (x : StartIn)
  /-- WATCH_ROUND_SETTLE_END (R81). The settle time ends and the named groups are supervised. -/
  | watchRoundSettleEnd
  /-- WATCH_READINGS_DONE (R81). The readings are recorded, PWRON goes off and the module sleeps again. -/
  | watchReadingsDone
  /-- PWRON_FAULT (R84). PWRON above 0.6 A for 10 ms switches off and sets PWRON_FAULT. -/
  | pwronFault
  /-- MEMORY_ACCESS (R97). An owner or grant holder accesses a word of a bank. -/
  | memoryAccess (a : MemAccess)
  /-- WEAK_ROW_RECORD_WRITE (R108). The weak-row entry is written to the MRAM record within 1 ms. -/
  | weakRowRecordWrite
  /-- SCRUB_WORD (R104). The scrubber reads the next word in a free bank cycle. -/
  | scrubWord (flips : List Nat)
  /-- SCRUB_WRITE_BACK (R105). The scrubber writes back a corrected word unless a write reached it since its read. -/
  | scrubWriteBack (p : Place)
  /-- MEM_HANDOVER_GO (R99). A handover request is accepted or refused. -/
  | memHandoverGo (r : Reader) (v : Word)
  /-- MEM_HANDOVER_COMPLETE (R99). The bank passes to its new owner, after its clear if CLEAR was set. -/
  | memHandoverComplete
  /-- MEM_INJECT_WRITE (R113). A write to MEM_INJECT arms, re-arms or disarms an error injection. -/
  | memInjectWrite (v : Word)
  /-- LOCKSTEP (R139). The two cores disagree on a bus transaction and the module halts. -/
  | lockstep
  /-- TRAP (R139). An illegal instruction, stack overflow or other trap in block code halts the module. -/
  | trap (task : Nat)
  /-- RELEASE_INSTANT (R125). A release instant of a task arrives; stale steps, station checks and pending pair actions are made. -/
  | releaseInstant (n : Nat)
  /-- TASK_START (R127). A task starts and freezes its read set into its snapshot. -/
  | taskStart (n : Nat)
  /-- TASK_WRITE_POINT (R128). A task reaches its write point and posts its write set. -/
  | taskWritePoint (w : WritePoint)
  /-- BACKSTOP (R147). A cycle's response time passes 10 × PERIOD or 2 s and the module halts. -/
  | backstop (n : Nat)
  /-- WATCHDOG (R148). At level 1 a cycle misses PERIOD + WD_MARGIN and the module halts. -/
  | watchdog (n : Nat)
  /-- MODE_REQ_RUN (R135). A RUN request is accepted or refused. -/
  | modeReqRun (r : Reader)
  /-- MODE_REQ_STOP (R135). A STOP request is accepted or refused. -/
  | modeReqStop (r : Reader)
  /-- MODE_REQ_HOLD (R135). A HOLD request is accepted or refused. -/
  | modeReqHold (r : Reader)
  /-- MODE_REQ_RESTART (R135). A RESTART request starts the module from the code test onward. -/
  | modeReqRestart (r : Reader) (x : StartIn)
  /-- MODE_REQ_UNDEFINED (R156). A REQUEST code 0 or 5 to 15 is refused. -/
  | modeReqUndefined (code : Nat) (r : Reader)
  /-- MODE_CHANGE (R137). An accepted mode request takes effect at the next T0 release or millisecond. -/
  | modeChange
  /-- MODE_DRAIN_COMPLETE (R137). Every task has reached its write point and outputs take the new mode's treatment. -/
  | modeDrainComplete
  /-- FORCE_SET (R142). SET forces the selected entry or changes its force value. -/
  | forceSet
  /-- FORCE_RELEASE (R159). RELEASE releases the force on the selected entry. -/
  | forceRelease
  /-- FORCE_RELEASE_ALL (R159). RELEASE_ALL releases every force. -/
  | forceReleaseAll
  /-- FORCE_EFFECT (R143). At the next 100 µs boundary a force or release takes effect and sinks are fed. -/
  | forceEffect
  /-- OLC_PIECE (R166). A piece of an online change is written into the inactive set. -/
  | olcPiece (r : PlantReq) (p : OlcPiece)
  /-- OLC_PIECE_FORWARD (R166). The standby receives a forwarded piece on P3 and writes it to its own key. -/
  | olcPieceForward (p : OlcPiece)
  /-- OLC_ACTIVATE (R168). ACTIVATE starts preparation in STAGED, or is refused. -/
  | olcActivate
  /-- OLC_ABORT (R180). ABORT ends a change before the switch. -/
  | olcAbort
  /-- OLC_PREPARED (R168). Preparation and instance matching end and the switch instant is chosen. -/
  | olcPrepared
  /-- OLC_SWITCH (R172). At B the new image becomes the one in force. -/
  | olcSwitch
  /-- OLC_NO_BOUNDARY (R171). No switch instant within 60 s ends the change. -/
  | olcNoBoundary
  /-- OLC_CONFIRM_RETRY (R175). A failed H2 write is retried after 10 s. -/
  | olcConfirmRetry (ok : Bool)
  /-- SIG_RD_LATCH (R199). LATCH copies the selected entry's dynamic part into the requester's latch. -/
  | sigRdLatch (r : Reader) (v : Word)
  /-- SIG_WR_GO (R199). GO writes value and quality into a HOST entry, or is refused. -/
  | sigWrGo (r : Reader) (v : Word)
  /-- GROUP_TICK (R200). A rate group ticks and its due loops are computed. -/
  | groupTick (t : LoopTick)
  /-- LOOP_ENABLE_WRITE (R218). A write to LOOP_ENABLE enables or disables loops. -/
  | loopEnableWrite (hi : Bool) (v : Word)
  /-- LOOP_LATCH (R224). LATCH requests a copy of the selected loop's states. -/
  | loopLatch (r : Reader) (v : Word)
  /-- LOOP_LATCH_DONE (R224). The states are copied between two samples and LATCHED reads 1. -/
  | loopLatchDone (r : Reader)
  /-- PENNANT_SEND (R232). A pair side sends a pennant on P3 every 500 µs. -/
  | pennantSend
  /-- PENNANT_RECEIVED (R233). A pennant is accepted or discarded, and commands and epochs in it are acted on. -/
  | pennantReceived (body : List Byte)
  /-- PARTNER_SILENT (R234). 1,600 µs without an accepted pennant declares the partner silent. -/
  | partnerSilent
  /-- JACK_QUERY_TIMEOUT (R241). No Jack answer within 1 ms brings a new attempt or NO_ACTIVE. -/
  | jackQueryTimeout
  /-- JACK_BUSY_RETRY (R241). 500 µs after BUSY the query is sent again. -/
  | jackBusyRetry
  /-- JACK_ANSWER (R242). A pair side receives the Jack's answer and acts on its verdict. -/
  | jackAnswer (x : Rx) (body : List Byte)
  /-- JACK_PROBE (R241). A pair side receives a probe and replies within 100 µs. -/
  | jackProbe (x : Rx) (body : List Byte)
  /-- JACK_NOTIFY_SEND (R241). A pair side sends a notify every 1 s, or every 10 ms until acknowledged. -/
  | jackNotifySend
  /-- JACK_NOTIFY_ACK (R241). A pair side receives the notify acknowledgement. -/
  | jackNotifyAck (x : Rx) (body : List Byte)
  /-- JACK_QUERY (R239). The Jack receives a query and answers or probes the other side. -/
  | jackQuery (x : Rx) (body : List Byte)
  /-- JACK_PROBE_REPLY (R239). The Jack receives a probe reply and answers the querier. -/
  | jackProbeReply (x : Rx) (body : List Byte)
  /-- JACK_PROBE_TIMEOUT (R239). No probe reply within 500 µs and the Jack grants the querier. -/
  | jackProbeTimeout (idx : Nat)
  /-- JACK_NOTIFY (R239). The Jack receives a notify, updates its record and acknowledges. -/
  | jackNotify (x : Rx) (body : List Byte)
  /-- NO_ACTIVE_RETRY (R242). After 100 ms in NO_ACTIVE the side queries again. -/
  | noActiveRetry
  /-- LINK_DOWN_RETRY (R242). With PAIR_LINK_DOWN standing, 10 ms after the last answer the standby queries again. -/
  | linkDownRetry
  /-- HANDOVER_REQUEST (R245). A hand-over request is accepted and announced, or refused. -/
  | handoverRequest
  /-- HANDOVER_TIMEOUT (R242). No acknowledgement 100 ms after the request returns RELEASING to ACTIVE. -/
  | handoverTimeout
  /-- HOIST_TIMER (R264). With no mirrored task a hoist is sent every 1 ms. -/
  | hoistTimer
  /-- HOIST_FRAGMENT (R272). The standby receives a hoist fragment. -/
  | hoistFragment (body : List Byte) (bad : Option Place)
  /-- HOIST_SEQ_READ (R277). A read of PAIR_HOIST_SEQ_LO latches the high bits. -/
  | hoistSeqRead (r : Reader)
  /-- RING_FORWARD (R281). The switch forwards a ring frame port to port, adding PTP residence time. -/
  | ringForward (f : RingFwd)
  /-- SUPERVISION_SEND (R280). An HSR supervision frame is sent on each port every 10 ms. -/
  | supervisionSend
  /-- SUPERVISION_RETURN (R282). An own supervision frame returns and closes its direction. -/
  | supervisionReturn (p12 : Bool)
  /-- SUPERVISION_TIMEOUT (R282). A supervision frame does not return within 1 ms; two in a row open the direction. -/
  | supervisionTimeout (p12 : Bool)
  /-- LINK_UP (R280). An Ethernet port gains link; a ring port below 1000 Mbit/s is blocked. -/
  | linkUp (port speed : Nat)
  /-- LINK_LOST (R302). An Ethernet port loses link. -/
  | linkLost (port : Nat)
  /-- HELLO (R293). A station HELLO is admitted or refused. -/
  | hello (x : Rx) (body : List Byte)
  /-- INPUT (R296). A station INPUT frame is validated and unpacked. -/
  | input (x : Rx) (body : List Byte) (flips : List (Nat × Nat))
  /-- ADMIT_TIMEOUT (R293). 10 ms without a valid INPUT returns ADMITTING to IDLE or LOST. -/
  | admitTimeout (n : Nat)
  /-- ADMIT_SEEN (R300). A standby sees an ADMIT of its owner and tracks the session. -/
  | admitSeen (x : Rx) (dest : Nat) (body : List Byte)
  /-- OUTPUT_SEEN (R300). A module sees an OUTPUT of its owner and checks its epoch. -/
  | outputSeen (x : Rx) (body : List Byte)
  /-- RING_SEL_LATCH (R307). LATCH copies one station's four figures into the requester's latch. -/
  | ringSelLatch (r : Reader) (v : Word)
  /-- PTP_SYNC (R309). A Sync is received and the servo corrects network time. -/
  | ptpSync (m : PtpSync)
  /-- PTP_FOLLOW_UP (R311). A Follow_Up from a two-step master is received. -/
  | ptpFollowUp (m : PtpSync)
  /-- PTP_ANNOUNCE (R309). An Announce is received and the BMCA runs. -/
  | ptpAnnounce (m : PtpAnnounce)
  /-- PTP_DELAY_RESP (R311). A delay response is received and the path delay measured. -/
  | ptpDelayResp (m : PtpDelay)
  /-- PTP_PDELAY_REQ (R314). A ring port answers a Pdelay_Req. -/
  | ptpPdelayReq (port seq : Nat)
  /-- PTP_SYNC_SEND (R311). As grandmaster the module sends Sync and Follow_Up. -/
  | ptpSyncSend
  /-- PTP_MASTER_LOST (R309). Missed Syncs or announce timeout lose the master. -/
  | ptpMasterLost
  /-- HOLDOVER_EXPIRY (R309). After 10 s of HOLDOVER TIME entries become UNCERTAIN_HOLDOVER. -/
  | holdoverExpiry
  /-- TIME_STEP (R315). A pending step is applied whole to network time. -/
  | timeStep
  /-- PULSE_INSTANT (R318). A timed pulse instant is reached and the channel switches on. -/
  | pulseInstant (n : Nat)
  /-- PULSE_END (R317). A timed pulse ends after WIDTH. -/
  | pulseEnd (n : Nat)
  /-- TIMED_LAUNCH (R319). A TIMED task's ring output frame launches at its phase instant. -/
  | timedLaunch (task : Nat) (late : Bool)
  /-- CALENDAR_DISCIPLINE (R320). The calendar is checked against network time and set when off by more than 1 s. -/
  | calendarDiscipline
  /-- TIME_NOW_READ (R322). A read of TIME_NOW_NS latches the seconds. -/
  | timeNowRead (r : Reader)
  /-- REF_DRIFT (R536). An hourly TIME_FREQ average is judged against 20 and 25 ppm. -/
  | refDrift
  /-- CAN_FRAME_RECEIVED (R343). A valid CAN frame is matched, unpacked, queued or dropped. -/
  | canFrameReceived (p : Nat) (r : CanRx)
  /-- CAN_ARBITRATION (R337). At an arbitration opportunity the port offers one entry. -/
  | canArbitration (p : Nat) (cancels : List Nat) (ownSof : Bool)
  /-- CAN_TX_DONE (R340). An attempt completes, loses arbitration or fails, and the entry retires or waits. -/
  | canTxDone (p : Nat) (e : TxEnd) (measured : Nat)
  /-- CAN_ERROR_FRAME (R348). An error frame updates TEC and REC and a status entry. -/
  | canErrorFrame (p : Nat) (e : CanErr)
  /-- CAN_RECOVER (R349). A write of RECOVER starts recovery from bus-off. -/
  | canRecover (p : Nat)
  /-- CAN_RECOVERED (R349). 128 × 11 recessive bits complete recovery. -/
  | canRecovered (p : Nat)
  /-- CAN_INTEGRATED (R331). 11 recessive bits at the new rate end integration. -/
  | canIntegrated (p : Nat)
  /-- CAN_ENTRY_EXPIRED (R338). A pending entry reaches its expiry and retires EXPIRED. -/
  | canEntryExpired (h : Nat)
  /-- CAN_REFERENCE_SEND (R345). A potential master attempts its reference at a cycle start. -/
  | canReferenceSend (p : Nat)
  /-- CAN_MASTER_LISTEN_END (R345). An unsynchronised potential master sends its reference after 2 cycles of listening. -/
  | canMasterListenEnd (p : Nat)
  /-- CAN_REF_LOST (R345). No valid reference for 2 × CYCLE_NTU loses synchronisation. -/
  | canRefLost (p : Nat)
  /-- BOOK_WINDOW_START (R346). A book window starts and its scheduled frames are built. -/
  | bookWindowStart (p w : Nat)
  /-- BOOK_WINDOW_END (R347). A window ends; an unsent scheduled frame is missed. -/
  | bookWindowEnd (p w : Nat)
  /-- QUE_ENQUEUE (R359). GO in QUE_TX_CTRL enqueues the staged entry or returns a refusal. -/
  | queEnqueue (r : EnqueueReq)
  /-- QUE_TX_HEAD_WRITE (R358). A write of QUE_TX_HEAD sets the data pointer to 0. -/
  | queTxHeadWrite (r : Reader) (v : Word)
  /-- QUE_TX_DATA_WRITE (R358). A write of QUE_TX_DATA stores 4 bytes and advances the pointer. -/
  | queTxDataWrite (r : Reader) (v : Word)
  /-- QUE_CANCEL (R339). GO in QUE_CANCEL requests cancellation of an entry. -/
  | queCancel (r : Reader) (v : Word)
  /-- QUE_TAKE (R359). TAKE latches the oldest retired or filled entry of a queue. -/
  | queTake (r : Reader) (v : Word)
  /-- QUE_TAKE_DATA_READ (R358). A read of QUE_TAKE_DATA returns the next 4 bytes of the latched entry. -/
  | queTakeDataRead (r : Reader)
  /-- QUE_ACK (R359). GO in QUE_ACK acknowledges an entry and frees its descriptor. -/
  | queAck (r : Reader) (v : Word)
  /-- DIO_DEBOUNCE (R365). An input's raw level holds for DEBOUNCE_US and its STATE entry is written. -/
  | dioDebounce (n : Nat) (level : Bool)
  /-- DIO_SHORT (R370). Readback low for 2 ms with the stage on switches it off into SHORT_WAIT. -/
  | dioShort (n : Nat) (thermal : Bool)
  /-- DIO_RETRY (R370). 100 ms after switch-off with the command on, the stage retries. -/
  | dioRetry (n : Nat)
  /-- DIO_RETRY_CHECK (R370). 2 ms after a retry the readback decides NORMAL, SHORT_WAIT or LATCHED. -/
  | dioRetryCheck (n : Nat) (high : Bool)
  /-- DIO_CLEAR (R371). A clear returns SHORT_WAIT or LATCHED to NORMAL, or is ignored. -/
  | dioClear (mask : Word)
  /-- DIO_EXT_FEED (R372). An off stage with readback high for 2 ms sets EXT_FEED. -/
  | dioExtFeed (n : Nat)
  /-- DIO_PARTNER_LOW (R375). A standby's pair-wired readback disagrees with the active's command for 2 ms. -/
  | dioPartnerLow (n : Nat)
  /-- DIO_REFRESH (R376). The controller refreshes every output stage every 1 ms. -/
  | dioRefresh
  /-- DIO_REFRESH_TIMEOUT (R376). A stage without refresh for REFRESH_MS applies its policy. -/
  | dioRefreshTimeout (n : Nat)
  /-- ANA_CONVERSION (R388). A conversion completes and the VALUE entry is written. -/
  | anaConversion (n : Nat) (raw : Int)
  /-- ANA_INPUT_FAULT (R393). An input fault condition sets or ends after 100 ms. -/
  | anaInputFault (n : Nat) (f : InFault) (stands : Bool)
  /-- ANA_LOOP_LIMIT (R392). A powered loop over its budget for 50 ms sets LOOP_LIMIT. -/
  | anaLoopLimit (n : Nat) (stands : Bool)
  /-- ANA_OUTPUT_DIAG (R397). An output condition sets or ends after 5 readback conversions. -/
  | anaOutputDiag (n : Nat) (k : OutCond) (stands : Bool)
  /-- CJC_READ (R395). The cold-junction sensor is read every 100 ms and CJC_FAULT judged. -/
  | cjcRead (g : Nat) (internal : Int)
  /-- ANA_REFRESH_TIMEOUT (R398). An analogue stage without refresh applies its policy. -/
  | anaRefreshTimeout (n : Nat)
  /-- HART_POLL (R402). A device is polled with command 3, followed by one queued request. -/
  | hartPoll (n slot : Nat)
  /-- HART_RESPONSE (R403). A HART response is received and its entries written. -/
  | hartResponse (n : Nat) (r : HartReply)
  /-- HART_RESPONSE_TIMEOUT (R402). No response within 305 ms brings another attempt or a failure. -/
  | hartResponseTimeout (n : Nat)
  /-- HART_BURST (R401). A burst frame is received and unpacked. -/
  | hartBurst (n slot : Nat) (r : HartReply)
  /-- HART_BURST_ABSENT (R403). No burst for 3 × BURST_MS declares the device absent. -/
  | hartBurstAbsent (n slot : Nat)
  /-- SAFETY_TICK (R413). Each safety path evaluates pairs, functions and faults every 0.5 ms. -/
  | safetyTick (t : SafeTick)
  /-- SI_FILTER (R415). A safety input's raw level holds for FILTER and its filtered state changes. -/
  | siFilter (p : SafePath) (n : Nat) (level : Bool)
  /-- TEST_PULSE_DROP (R418). A test pulse drops for TP_WIDTH and the channels are checked. -/
  | testPulseDrop (tp : Nat) (levels : DropLevels)
  /-- TP_OVERLOAD (R418). A test pulse above 0.15 A for 1 ms switches off for 1 s. -/
  | tpOverload (tp : Nat)
  /-- TP_OVERLOAD_RETRY (R418). After 1 s an overloaded test pulse output tries again. -/
  | tpOverloadRetry (tp : Nat)
  /-- SBC_STATIC_TEST (R425). The static switch test completes after 4 ms. -/
  | sbcStaticTest (f : Nat) (e : StaticBack)
  /-- SBC_HOLD_PHASE (R424). After RELEASE_MS the high side changes to hold PWM. -/
  | sbcHoldPhase (f : Nat)
  /-- SBC_OPEN_LOAD (R424). Coil current below MIN_MA for 100 ms latches OPEN_LOAD. -/
  | sbcOpenLoad (f : Nat)
  /-- SBC_DARK_TEST (R425). Every 8 s a released switch opens for 300 µs and its readback is checked. -/
  | sbcDarkTest (f : Nat) (high ok : Bool)
  /-- SBC_OVERLOAD (R423). Output above 3.0 A for 10 ms latches OVERLOAD. -/
  | sbcOverload (f : Nat)
  /-- SBC_OFF_CHECK (R425). An off SBC with a pin above 2 V for 10 ms latches SWITCH_STUCK. -/
  | sbcOffCheck (f : Nat)
  /-- GROUP_F_RESUME (R426). 100 ms after group F enters NORMAL, test-pulse checks and discrepancy counting resume. -/
  | groupFResume
  /-- BRAKE_TEST_START (R430). START begins a brake test or is refused. -/
  | brakeTestStart (f : Nat)
  /-- BRAKE_TEST_ABORT (R440). ABORT ends a brake test in progress. -/
  | brakeTestAbort (f : Nat)
  /-- TORQUE_ALLOWED (R430). 4 ms into a test TORQUE_ALLOWED is set. -/
  | torqueAllowed (f : Nat)
  /-- BRAKE_TEST_PASS (R430). RESULT PASS ends the test with the function READY. -/
  | brakeTestPass
  /-- BRAKE_TEST_FAIL (R430). RESULT FAIL ends the test in FAULT with FAIL_STANDS. -/
  | brakeTestFail
  /-- BRAKE_TEST_TIMEOUT (R430). TEST_TIMEOUT_S passes and the test is aborted. -/
  | brakeTestTimeout (f : Nat)
  /-- BRAKE_TEST_DUE (R430). HOURS reaches TEST_INTERVAL_H and DUE is set. -/
  | brakeTestDue (f : Nat)
  /-- SECOND_TICK (R449). The calendar advances one second, applies a pending set and compares alarms. -/
  | secondTick
  /-- COMPENSATION_INTERVAL (R444). Each 60 s the domain temperature is read and the correction set. -/
  | compensationInterval (t : Int)
  /-- CELL_MEASURE (R441). The backup cell is measured at start and every 24 h. -/
  | cellMeasure (cell cap : Nat)
  /-- WAKE_INPUT (R453). The filtered WAKE level rises and gives a WAKE event. -/
  | wakeInput
  /-- RTC_NOW_READ (R455). A read of RTC_NOW_TIME latches the date and sub-second count. -/
  | rtcNowRead (r : Reader)
  /-- RECORD_STORE (R467). A staged record is written to an MRAM slot and verified. -/
  | recordStore (how : StoreEnd)
  /-- EVENT_BLOCK (R469). The program raises an application record through the event block. -/
  | eventBlock (code : BitVec 16) (sev : Nat) (p1 p2 p3 : Word)
  /-- LOG_USER_GO (R469). GO in LOG_USER_CTRL raises an application record or is refused. -/
  | logUserGo (r : Reader) (v : Word)
  /-- LOG_RD_LATCH (R474). LATCH copies a record slot whole into LOG_RD_W0 to W7. -/
  | logRdLatch (r : Reader) (v : Word)
  /-- OPSEC_TICK (R461). Operating seconds advance and are copied to the backup domain. -/
  | opsecTick
  /-- LOG_NEXT_SEQ_READ (R472). A read of LOG_NEXT_SEQ_LO latches the high bits. -/
  | logNextSeqRead (r : Reader)
  /-- LOG_OPSEC_READ (R472). A read of LOG_OPSEC latches fraction and power-cycle count. -/
  | logOpsecRead (r : Reader)
  /-- ARP_REQUEST (R475). The plant port answers an ARP request. -/
  | arpRequest (vid mac ip target : Nat)
  /-- ICMP_ECHO (R475). The plant port answers an ICMP echo. -/
  | icmpEcho (vid target : Nat) (body : List Byte)
  /-- PLANT_CONNECT (R478). A TCP connection is accepted, or closed when four sessions are open. -/
  | plantConnect (p : PlantPeer)
  /-- PLANT_HANDSHAKE (R476). A TLS handshake completes or fails and the session takes its permissions. -/
  | plantHandshake (k : Nat) (c : ClientCert)
  /-- PLANT_IDLE_TIMEOUT (R478). A session without a record for 120 s is closed. -/
  | plantIdleTimeout (k : Nat)
  /-- IDENTIFY (R480). The IDENTIFY service returns identity fields. -/
  | identify (r : PlantReq)
  /-- REG_READ (R480). The REG_READ service returns register words. -/
  | regRead (r : PlantReq) (a : RegAt) (count : Nat)
  /-- REG_WRITE (R481). The REG_WRITE service applies address and value pairs in order. -/
  | regWrite (r : PlantReq) (pairs : List RegPair) (x : StartIn)
  /-- LOG_BULK (R480). The LOG_BULK service returns slot copies. -/
  | logBulk (r : PlantReq) (first count : Nat)
  /-- DICTIONARY (R480). The DICTIONARY service returns event dictionary entries. -/
  | dictionary (r : PlantReq) (first count : Nat)
  /-- KEY_READ (R480). The KEY_READ service returns key bytes. -/
  | keyRead (r : PlantReq) (set off len : Nat)
  /-- ENROL (R485). A signer certificate is enrolled, replaced, revoked or refused. -/
  | enrol (r : PlantReq) (cert : List Byte)
  /-- IDENTITY_GET_REQUEST (R483). The IDENTITY service returns a PKCS#10 request for the identity key. -/
  | identityGetRequest (r : PlantReq)
  /-- IDENTITY_INSTALL (R483). The IDENTITY service installs a device certificate. -/
  | identityInstall (r : PlantReq) (cert : List Byte) (key : Nat × Nat)
  /-- REAUTHORISE (R488). REAUTHORISE clears LOCKED or is refused. -/
  | reauthorise (r : PlantReq)
  /-- MESSAGE_OPEN (R482). A session opens a message channel. -/
  | messageOpen (r : PlantReq) (c : Nat)
  /-- MESSAGE_CLOSE (R482). A session closes a message channel. -/
  | messageClose (r : PlantReq) (c : Nat)
  /-- MESSAGE_SEND (R482). A client message becomes a filled entry in the channel's receive queue. -/
  | messageSend (r : PlantReq) (c tag : Nat) (data : List Byte)
  /-- MESSAGE_DELIVER (R482). A queued message is handed to TLS for every session with the channel open. -/
  | messageDeliver (c : Nat)
  /-- PLANT_UNKNOWN_SERVICE (R480). A request for an unimplemented service gets BAD_REQUEST. -/
  | plantUnknownService (code : Nat) (r : PlantReq)
  /-- IDENTITY_KEY_GENERATED (R483). After ERASE or DOMAIN_LOST a new identity key is generated and the identity becomes SELF. -/
  | identityKeyGenerated (x y : Nat)
  /-- TAMPER_COVER (R486). The cover loop reads open or short for two samples and its response acts. -/
  | tamperCover
  /-- SUPPLY_GLITCH (R486). A core supply glitch enters tamper source 2. -/
  | supplyGlitch
  /-- CLOCK_GLITCH (R486). A clock period glitch enters tamper source 3. -/
  | clockGlitch
  /-- TAMPER_TEMPERATURE (R486). The backup domain outside its temperature for 1 s enters tamper source 4. -/
  | tamperTemperature
  /-- SERIAL_TRANSACTION (R491). A master line sends its next due transaction or queue entry. -/
  | serialTransaction (n : Nat)
  /-- SERIAL_REPLY (R491). A master receives a reply and unpacks or fails the attempt. -/
  | serialReply (n : Nat) (f : SerFrame)
  /-- SERIAL_TIMEOUT (R491). No valid reply within TIMEOUT_MS fails the attempt. -/
  | serialTimeout (n : Nat)
  /-- SERIAL_REQUEST (R492). A slave line receives a request and answers it. -/
  | serialRequest (n : Nat) (f : SerFrame)
  /-- SERIAL_WRITE_TIMEOUT (R494). A writable slave item without a write for WRITE_TIMEOUT_MS is declared absent. -/
  | serialWriteTimeout (n item : Nat)
  /-- PANEL_COMPARE (R503). Once a second the panel content is compared with the last image. -/
  | panelCompare
  /-- PANEL_UPDATE_START (R508). An update starts once interval, energy, temperature and idle conditions hold. `frames` and `vs` are F
  and V_S as the sender has them; the driver goes by the panel's own tables (R506, R507), and they decide nothing. -/
  | panelUpdateStart (frames vs : Nat)
  /-- PANEL_FRAME (R506). One 20 ms drive frame is applied. -/
  | panelFrame (vs : Nat) (bad : Option Place)
  /-- PANEL_TEMP_READ (R506). The panel temperature is read every 1 s. -/
  | panelTempRead (t : Int)
  /-- PANEL_REFRESH_REQ (R514). REFRESH in PANEL_REQ requests a corrective refresh. -/
  | panelRefreshReq (v : Word)
  /-- FIELD_SUPPLY_SAMPLE (R71). Every 100 µs each L+ is sampled, LPLUS is updated, and sticky flags and COMMON_FAULT whose cause still stands set again. -/
  | fieldSupplySample (x : SupplySample)
  /-- PTP_DELAY_REQ_SEND (R311). At its LOG_DELAY interval the ordinary clock sends a Delay_Req, or each ring port sends a Pdelay_Req in P2P mode. -/
  | ptpDelayReqSend
  /-- PTP_DELAY_REQ (R311). As grandmaster in E2E mode the module receives a Delay_Req and answers with a Delay_Resp. -/
  | ptpDelayReq (port domain seq : Nat)
  /-- PTP_ANNOUNCE_SEND (R313). As grandmaster the module sends Announce at its LOG_ANNOUNCE interval with UTC_OFFSET, timeSource and CLOCK_CLASS. -/
  | ptpAnnounceSend
  /-- WAKE_LEVEL_FALL (R453). After 10 ms at 0 the filtered WAKE level returns to 0, which re-arms the next WAKE event. -/
  | wakeLevelFall
  /-- TAMPER_CONDITION_END (R488). A tamper source leaves its condition, for example the cover loop closing or the key going back into socket K, and its STANDING bit clears. -/
  | tamperConditionEnd (source : Nat)
  /-- PLANT_SESSION_CLOSE (R478). A client closes its TCP or TLS connection, and the session and its message channels close. -/
  | plantSessionClose (k : Nat)
  /-- JACK_REACHABLE_EXPIRY (R241). 1.5 s pass without a Jack answer or acknowledgement, and JACK_REACHABLE falls to 0; on a Jack, SEEN_A or SEEN_B falls when no notify has come for 1.5 s. -/
  | jackReachableExpiry (of : Option (Nat × Nat))
  deriving DecidableEq, Repr

end Sys2Proof
end

