-- ==== Sys2Proof/Decode.lean ====
section
/-! DEFINITION. Commands from words of the table: its rows give no bits (`"fields": []` in every row), so no word spells a command. -/

namespace Sys2Proof

/-- The command that a word spells by the table's bits. DESIGN CHOICE (assumption 1). -/
def decodeTableWord (_nbits _w : Nat) : Option Instr := none

end Sys2Proof
end

