-- ==== Sys2Proof/Config.lean ====
section
/-! DEFINITION. What the spec leaves to an implementation and the values it leaves open: every constant here is opaque, so
no proof can see what it is (notes/assumptions say which entry each one belongs to). -/

namespace Sys2Proof.Config

/-- The number of a module event within its subsystem (R463); the spec states three of them.
DESIGN CHOICE (assumption 12). -/
opaque eventNumber : Machine.Ev → BitVec 8

/-- A fresh value the spec leaves open, by the count of the free values taken before.
DESIGN CHOICE (assumption 16). -/
opaque freeNat : Nat → Nat

/-- A fresh integer the spec leaves open. -/
opaque freeInt : Nat → Int

/-- The ECDSA P-256 verdict over a message, with a public key X, Y and a signature r, s (R39, R477, R484).
DESIGN CHOICE (assumption 17). -/
opaque ecdsaVerifies : List Byte → Nat → Nat → Nat → Nat → Bool

/-- What the bytes of a BANKS section say (R95); the spec gives no layout for it. DESIGN CHOICE (assumption 18). -/
opaque banksOf : List Byte → List Machine.BankRec

/-- What the bytes of a POWER section say (R87); the spec gives no layout for it. -/
opaque powerOf : List Byte → Machine.PowerSec

/-- The MAC address of the module, which its ARP replies carry (R475). DESIGN CHOICE (assumption 20). -/
opaque moduleMac : Nat

/-- The module serial as the subject of the device certificate writes it (R483). DESIGN CHOICE (assumption 284). -/
opaque serialText : Nat → List Byte

/-- The X.509 certificate that the Reltia device CA issued at manufacture, and one that the module signs itself, by subject common name and
public key (R483). -/
opaque factoryCert : List Byte → Nat → Nat → List Byte
opaque selfCert : List Byte → Nat → Nat → List Byte

/-- The bytes of an entry of the event dictionary, by behaviour level and code (R463); the spec gives no layout for it. -/
opaque dictionaryEntry : Nat → Nat → List Byte

/-- The name of an event in the dictionary of R463, by behaviour level and code, as code points (R502). -/
opaque eventName : Nat → Nat → List Nat

/-- Whether the panel font has a character, and whether a pixel of its place of 16 rows of 8 pixels is black (R502).
DESIGN CHOICE (assumption 289). -/
opaque fontHas : Nat → Bool
opaque glyph : Nat → Nat → Nat → Bool

/-- The PKCS#10 request for an identity key, by module serial, public point and a fresh number (R480, R483). -/
opaque pkcs10 : Nat → Nat → Nat → Nat → List Byte

/-- Word `k` of a slot of the force table (R181), by the indices forced, the force of the slot and what was stored there last; the spec gives
no layout for it. DESIGN CHOICE (assumption 231). -/
opaque forceWord : List Nat → Machine.Force → Nat → Nat → BitVec 64

/-- Word `k` of a loop's context in its rows of B11 (R200), by the loop and what was stored there last; the spec gives no layout for it. -/
opaque contextWord : Machine.Loop → Nat → Nat → BitVec 64

/-- A module status item, by SOURCE_REF and SYS_STATE (R188): the spec lists no such item. DESIGN CHOICE (assumption 103). -/
opaque systemItem : BitVec 32 → BitVec 32 → BitVec 64

/-- The temperature of a thermocouple in 0.001 °C, by TC_TYPE, its voltage in µV and the cold junction in 0.01 °C, and the ends of a type's
table (R383, R384): the tables of IEC 60584-1 stand outside the spec. DESIGN CHOICE (assumption 246). -/
opaque thermoTemp : Nat → Int → Int → Int
opaque thermoRange : Nat → Int × Int

/-- The clockIdentity of the module's ordinary clock (R309, R322); the spec gives none. DESIGN CHOICE (assumption 287). -/
opaque clockIdentity : Nat

/-- The factory constants for the PHY latency of a port at a link speed by its code in R500 (R312), in ns: on receipt and on sending.
DESIGN CHOICE (assumption 237). -/
opaque phyReceive : Nat → Nat → Nat
opaque phySend : Nat → Nat → Nat

end Sys2Proof.Config
end

