-- ==== Sys2Proof/Machine/State/Wire.lean ====
section
/-! DEFINITION. What the module puts on its wires: frames and answers it sends, as the chapters lay them out. -/

namespace Sys2Proof.Machine

/-- The kinds of frames and answers the module sends; `memRead` and `sdk` are what a read of a bank and a call of a native
block return. -/
inductive SentKind where
  | pennant | jackQuery | jackAnswer | jackProbe | jackProbeReply | jackNotify | jackAck
  | hoist | ringOutput | ringAdmit | ringForward | supervision | hello
  | ptpSync | ptpFollowUp | ptpAnnounce | ptpDelayReq | ptpDelayResp | ptpPdelayReq | ptpPdelayResp
  | can | serial | hart | plant | arp | icmp | message
  | memRead | sdk | olcPiece | deviceCert
  deriving DecidableEq, Repr

/-- What an Ethernet frame of the module carries before its payload: the ports it leaves on, the destination address, the priority and VID of an
IEEE 802.1Q tag, the sequence number of an HSR tag, and the EtherType (R229, R230, R280, R286). -/
structure Eth where
  ports : List Nat
  dest  : Nat
  tag   : Option Nat := none
  vid   : Nat := 0
  hsr   : Option Nat := none
  typ   : Nat := 0x88B5
  deriving DecidableEq, Repr

/-- One frame or answer sent: its kind, the port, line, channel, station or session it left on, a number that the kind
defines, its bytes, the Ethernet header where the spec lays one out, and of a CAN frame
its fields and its ESI (R327). DESIGN CHOICE (assumption 27). -/
structure Sent where
  kind : SentKind
  unit : Nat
  num  : Nat
  body : List Byte
  eth  : Option Eth := none
  can  : Option (CanFrame × Bool) := none
  deriving DecidableEq, Repr

end Sys2Proof.Machine
end

