-- ==== Sys2Proof/Machine/State.lean ====
section
/-! DEFINITION. The machine's state: every register, table, queue, counter, mode and pin the spec gives the module, and
the queue of the commands that are waiting. -/

namespace Sys2Proof.Machine

/-- Why a step stops with a fault. The module's own faults are effects on its state. -/
inductive Fault where
  /-- Raised by MEMORY_ACCESS at a memory address that no bank has (R94). Safe: it only stops a run. -/
  | noSuchAddress
  deriving DecidableEq, Repr

/-- Why a step refuses. -/
inductive Refusal where
  /-- A command that has no meaning in the model. Safe: it stops. -/
  | notModelled (mnemonic : String)
  deriving DecidableEq, Repr

end Sys2Proof.Machine

namespace Sys2Proof.Machine

/-- The module's state. One field per subsystem, then the monotonic base of R150 in ns, the count of the free values taken
(the model's own), what was sent on the wires (newest first) and the queue of waiting commands. -/
structure State where
  sys   : Sys := {}
  key   : Key := {}
  start : Start := {}
  pwr   : Pwr := {}
  mem   : Mem := {}
  cyc   : Cyc := {}
  olc   : Olc := {}
  sig   : Sig := {}
  eng   : Engine := {}
  pair  : Pair := {}
  hoist : Hoist := {}
  ring  : Ring := {}
  time  : Time := {}
  can   : List CanPort := List.replicate 4 {}
  que   : Que := {}
  dio   : Dio := {}
  ana   : Ana := {}
  safe  : Safe := {}
  rtc   : Rtc := {}
  log   : Log := {}
  sec   : Sec := {}
  plant : Plant := {}
  ser   : Ser := {}
  panel : Panel := {}
  mono  : Nat := 0
  monoFrac : Nat := 0
  free  : Nat := 0
  sent  : List Sent := []
  pending : List Instr := []
  deriving DecidableEq, Repr

/-- The module right after reset: every field at the value its register map gives, or at the value its log entry names. -/
def State.reset : State := {}

end Sys2Proof.Machine
end

