-- ==== Sys2Proof/Machine/Ops.lean ====
section
/-! DEFINITION. The operations every command shares: updates of one part of the state, keyed tables, bytes of an addressed
store, flag words, free values and the raising of an event (18_event_recorder.md R460 to R465). -/

namespace Sys2Proof.Machine

/-! ### One part of the state -/

def onSys (f : Sys → Sys) (s : State) : State := { s with sys := f s.sys }
def onKey (f : Key → Key) (s : State) : State := { s with key := f s.key }
def onStart (f : Start → Start) (s : State) : State := { s with start := f s.start }
def onPwr (f : Pwr → Pwr) (s : State) : State := { s with pwr := f s.pwr }
def onMem (f : Mem → Mem) (s : State) : State := { s with mem := f s.mem }
def onCyc (f : Cyc → Cyc) (s : State) : State := { s with cyc := f s.cyc }
def onOlc (f : Olc → Olc) (s : State) : State := { s with olc := f s.olc }
def onSig (f : Sig → Sig) (s : State) : State := { s with sig := f s.sig }
def onEng (f : Engine → Engine) (s : State) : State := { s with eng := f s.eng }
def onPair (f : Pair → Pair) (s : State) : State := { s with pair := f s.pair }
def onHoist (f : Hoist → Hoist) (s : State) : State := { s with hoist := f s.hoist }
def onRing (f : Ring → Ring) (s : State) : State := { s with ring := f s.ring }
def onTime (f : Time → Time) (s : State) : State := { s with time := f s.time }
def onQue (f : Que → Que) (s : State) : State := { s with que := f s.que }
def onDio (f : Dio → Dio) (s : State) : State := { s with dio := f s.dio }
def onAna (f : Ana → Ana) (s : State) : State := { s with ana := f s.ana }
def onSafe (f : Safe → Safe) (s : State) : State := { s with safe := f s.safe }
def onRtc (f : Rtc → Rtc) (s : State) : State := { s with rtc := f s.rtc }
def onLog (f : Log → Log) (s : State) : State := { s with log := f s.log }
def onSec (f : Sec → Sec) (s : State) : State := { s with sec := f s.sec }
def onPlant (f : Plant → Plant) (s : State) : State := { s with plant := f s.plant }
def onSer (f : Ser → Ser) (s : State) : State := { s with ser := f s.ser }
def onPanel (f : Panel → Panel) (s : State) : State := { s with panel := f s.panel }

/-- CAN port `n`, 1 to 4. -/
def onCan (n : Nat) (f : CanPort → CanPort) (s : State) : State :=
  { s with can := s.can.modify (n - 1) f }

/-- One frame or answer goes out. DESIGN CHOICE (assumption 11). -/
def send (k : SentKind) (unit num : Nat) (body : List Byte) (s : State) : State :=
  { s with sent := { kind := k, unit := unit, num := num, body := body } :: s.sent }

/-- One frame leaves on a CAN port, with its fields and its ESI (R327). DESIGN CHOICE (assumption 11). -/
def sendCan (p num : Nat) (f : CanFrame) (esi : Bool) (s : State) : State :=
  { s with sent := { kind := .can, unit := p, num := num, body := f.data, can := some (f, esi) } :: s.sent }

/-- A payload on an Ethernet port: zero bytes fill it up to the least length (R229). -/
def padded (body : List Byte) : List Byte := body ++ List.replicate (46 - body.length) 0

/-- One Ethernet frame goes out. DESIGN CHOICE (assumption 11). -/
def sendFrame (k : SentKind) (unit num : Nat) (e : Eth) (body : List Byte) (s : State) : State :=
  { s with sent := { kind := k, unit := unit, num := num, body := padded body, eth := some e } :: s.sent }

/-- A fold of state updates over a list, in its order. -/
def forAll {α : Type} (l : List α) (f : α → State → State) (s : State) : State :=
  l.foldl (fun t a => f a t) s

/-- A force or a release is written: it waits for the next 100 µs boundary of the monotonic base (R143). -/
def forceWaits (o : ForceOp) (s : State) : State :=
  onCyc (fun c => { c with forceOps := c.forceOps ++ [((s.mono / 100000 + 1) * 100000, o)] }) s

/-! ### Keyed tables: lists of pairs in strictly rising key order -/

/-- The value at a key. -/
def look {α : Type} (k : Nat) : List (Nat × α) → Option α
  | [] => none
  | (i, a) :: r => if i = k then some a else look k r

/-- The table with `a` at key `k`. -/
def put {α : Type} (k : Nat) (a : α) : List (Nat × α) → List (Nat × α)
  | [] => [(k, a)]
  | (i, b) :: r => if k < i then (k, a) :: (i, b) :: r else if i = k then (k, a) :: r else (i, b) :: put k a r

/-- The table without key `k`. -/
def del {α : Type} (k : Nat) (t : List (Nat × α)) : List (Nat × α) := t.filter fun p => p.1 != k

/-- The table with the value at `k`, where there is one, changed by `f`. -/
def change {α : Type} (k : Nat) (f : α → α) (t : List (Nat × α)) : List (Nat × α) :=
  t.map fun p => if p.1 = k then (p.1, f p.2) else p

/-- Element `i` of a list, or the given value past its end. -/
def at' {α : Type} (l : List α) (i : Nat) (d : α) : α := l.getD i d

/-! ### Bytes of an addressed store -/

/-- The byte at an address; an unlisted address reads `z`. -/
def cellGet (z : Byte) (a : Nat) : List Host.Cell → Byte
  | [] => z
  | (i, b) :: r => if i = a then b else cellGet z a r

/-- The store with byte `v` at an address, in canonical form: rising addresses, no byte equal to `z` listed. -/
def cellPut (z : Byte) (a : Nat) (v : Byte) : List Host.Cell → List Host.Cell
  | [] => if v = z then [] else [(a, v)]
  | (i, b) :: r =>
    if a < i then (if v = z then (i, b) :: r else (a, v) :: (i, b) :: r)
    else if i = a then (if v = z then r else (a, v) :: r)
    else (i, b) :: cellPut z a v r

/-- Bytes written one after the other from an address. -/
def cellPuts (z : Byte) : Nat → List Byte → List Host.Cell → List Host.Cell
  | _, [], c => c
  | a, v :: r, c => cellPuts z (a + 1) r (cellPut z a v c)

/-- `n` bytes read one after the other from an address. -/
def cellGets (z : Byte) (a n : Nat) (c : List Host.Cell) : List Byte :=
  (List.range n).map fun i => cellGet z (a + i) c

/-- The canonical form of an addressed store. -/
def cellsWf (z : Byte) : List Host.Cell → Bool
  | [] => true
  | [(_, v)] => v != z
  | (a, v) :: (b, w) :: r => v != z && decide (a < b) && cellsWf z ((b, w) :: r)

/-! ### Flag words -/

/-- Flags set: bit `n` of a flag word. -/
def flag (n : Nat) (w : Word) : Word := setBit w n true

/-- A write to a W1C word: each 1 clears its bit (R7). -/
def w1c (w v : Word) : Word := w &&& ~~~v

/-! ### Free values -/

/-- A free value taken: the count moves on. -/
def freed {α : Type} (f : Nat → α) (s : State) : α × State := (f s.free, { s with free := s.free + 1 })

/-! ### Counts at least so many ns apart -/

/-- Whether `ns` have passed since an instant, or there was none: the limits "at most once in".
DESIGN CHOICE (assumption 14). -/
def longAgo (last : Option Nat) (ns now : Nat) : Bool :=
  match last with
  | none => true
  | some t => t + ns ≤ now

/-- Nanoseconds in a second. -/
def nsPerSec : Nat := 1000000000

/-! ### Raising an event -/

/-- The severity's code (R462). -/
def Severity.code : Severity → Nat
  | .info => 0
  | .notice => 1
  | .fault => 2
  | .critical => 3

/-- FRACTION of the operating second in progress, in 1/65,536 s (R460, R461). -/
def opFraction (s : State) : Nat := min (((s.mono : Int) - s.log.secBase).toNat * 65536 / nsPerSec) 65535

/-- Whether a record of a severity finds a place in staging (R465). -/
def stagingTakes (sev : Severity) (inUse : Nat) : Bool :=
  match sev with
  | .info | .notice => inUse < 3840
  | .fault | .critical => inUse < 4096

/-- A record that finds no place (R465, R466): counted, and the flags named by `bits` set. -/
def dropRecord (sev : Severity) (bits : List Nat) (l : Log) : Log :=
  { l with
    dropped := l.dropped.modify sev.code (satInc 32)
    flags := bits.foldl (fun w b => flag b w) l.flags }

/-- The raising of a record in one step: the next SEQUENCE, the counts and its place in staging (R464, R465). -/
def raiseRecord (code : EvCode) (sev : Severity) (flags source unit p1 p2 p3 : Nat) (s : State) : State :=
  let r : LogRec :=
    { seq := s.log.nextSeq, code := code, opsec := s.log.opsec, frac := opFraction s, power := s.log.power, sev := sev,
      flags := flags ||| bit (!s.log.accepting), source := source, unit := unit, p1 := p1, p2 := p2, p3 := p3 }
  onLog (fun l =>
    let l := { l with nextSeq := l.nextSeq + 1 }
    if stagingTakes sev l.staged.length then
      { l with staged := l.staged ++ [r], maxStaged := max l.maxStaged (l.staged.length + 1) }
    else dropRecord sev [0, 1] l) s

/-- The subsystem number of an event: the number of its home chapter's subsystem, 0 for the module as a whole (R460).
DEDUCED (assumption 13). -/
def Ev.subsystem : Ev → Nat
  | .supplyOnBackup | .supplyOnMains | .x2Low | .logicHigh | .holdupWear | .holdupLow | .powerDown | .powerDip
  | .fieldSupplyLow | .fieldSupplyLost | .fieldSupplyNormal | .fieldSupplyReturned | .harbourRefused | .harbourEnter
  | .watchRound | .watchReading => 1
  | .rtcDomainLost | .rtcNotSet | .rtcCurveBad | .rtcRangeWrap | .rtcSetInvalid | .calendarSet | .rtcAlarm
  | .rtcWakeInput | .rtcCellLow => 2
  | .memOwnerFault | .memCorrected | .memUncorrectable | .weakRow | .bankFolded | .spareLow | .bankHandover => 4
  | .startResult | .keyCopyBad | .keyCopyRepaired | .keyCopyRepairFailed | .keyWear | .keyWorn => 0
  | .taskOverrun | .modeRefused | .halt | .forceSet | .forceReleased | .olcResult | .olcSwitched | .olcConfirmed
  | .olcConfirmFailed => 5
  | .signalStale => 6
  | .loopInputBad | .loopParamBad | .loopSaturated | .loopDeadline => 7
  | .pairForeign | .pairSideClash | .partnerReturned | .epochRaised | .epochSuperseded | .partnerLost | .handover
  | .takeover | .pairLinkDown | .jackAbsent | .jackRefused | .handoverFailed | .handoverRefused | .digestMismatch => 8
  | .hoistOverflow | .hoistStale | .hoistFresh | .hoistOverAllowance => 9
  | .ringSpeed | .ringOpen | .ringClosed | .ringLinkDown | .ringDmaHalt | .stationAdmitted | .stationLost
  | .sessionFull | .stationUnknown | .addressInUse | .stationRefused => 10
  | .ptpMasterLost | .ptpMasterChanged | .timeStepped | .pulseLate | .calendarSetPtp | .refDrift => 11
  | .canRefLost | .canWindowMissed | .canErrorPassive | .canBusOff | .canRecovered => 12
  | .dioShort | .dioRecovered | .dioLatched | .dioExtFeed | .dioPartnerLow | .dioLogicSilent | .dioHoldReleased => 14
  | .anaLogicSilent | .hartDeviceAbsent => 15
  | .safetyReset | .safetyResetRejected | .safetyDemand | .safetyFault | .safetyPathFault | .safetyTestRefused
  | .brakeTestPassed | .brakeTestFailed | .brakeTestAborted | .brakeTestDue => 16
  | .logIndexRebuilt | .logSlotRetired | .logUserRefused | .logWear => 17
  | .plantAuthFail | .identityNew | .signerEnrolled | .signerRevoked | .tamperAlert | .tamperLock | .tamperErase
  | .secReauthorised | .keyOut => 18
  | .panelTableBad | .panelRecovered | .panelDriveFault => 19
  | .serialAbsent => 20

/-- A module event is raised: its severity, unit and parameters (R460, R464). -/
def raise (e : Ev) (sev : Severity) (unit p1 p2 p3 : Nat) (s : State) : State :=
  raiseRecord (.mod e) sev 0 e.subsystem unit p1 p2 p3 s

/-- A two's-complement parameter of 32 bits. -/
def signed32 (x : Int) : Nat := (x % (2 ^ 32 : Int)).toNat

/-- An update made only when a condition holds. -/
def doIf (b : Bool) (f : State → State) (s : State) : State := if b then f s else s

end Sys2Proof.Machine
end

