-- ==== Sys2Proof/Machine/Clocks.lean ====
section
/-! DEFINITION. The fast clocks: requests, holds and gating (01_station_overview.md R29 to R33). -/

namespace Sys2Proof.Machine

/-- Whether the logic rails are on: not after a power-down, and in harbour watch only during a round (R461, R81). -/
def railsOn (s : State) : Bool := !s.pwr.railsOff && s.pwr.hbr != .asleep

/-- The fast clocks in the order of R29. -/
def allClocks : List Clock := [.core, .network, .peripheral, .analogue]

/-- The bit of a clock in SYS_CLKHOLD and SYS_CLKSTAT (R29). -/
def Clock.bit : Clock → Nat
  | .core => 2
  | .network => 3
  | .peripheral => 4
  | .analogue => 5

/-- Whether SYS_CLKHOLD holds a clock on (R29). DEDUCED (assumption 23). -/
def clockHeld (s : State) (c : Clock) : Bool := !s.pwr.railsOff && s.sys.clkHold.getLsbD c.bit

/-- Whether a key repair is in progress (R44): in RUN, with copies that wait for it. -/
def keyRepairs (s : State) : Bool := s.sys.mode == .run && !s.start.bad.isEmpty && s.key.present && !s.start.keyOut

/-- Whether the Burgee key is in use (R30): a start reads it, copies wait for their repair, or an online change writes it. -/
def keyInUse (s : State) : Bool := s.start.phase != .idle || s.olc.phase != .idle || keyRepairs s

/-- Whether the queue engine holds a descriptor (R30, R333). -/
def queuesBusy (s : State) : Bool := !s.que.held.isEmpty

/-- Whether a standing request of R32, or of another block that the clock feeds (R30), holds for a clock.
DEDUCED (assumption 24). -/
def clockRequested (s : State) (c : Clock) : Bool :=
  railsOn s &&
    match c with
    | .core => s.sys.coreAwake || s.start.phase != .idle || s.eng.loops.any fun p => p.2.enabled
    | .network => s.sys.mode != .harbour && (s.sys.phy.any id || s.time.cfg.ptp)
    | .peripheral => s.sys.mode != .harbour
        && (s.can.any (fun p => p.force.cfg.getLsbD 0) || s.ser.lines.any (fun l => l.role != 0) || queuesBusy s || keyInUse s)
    | .analogue => s.ana.ch.any fun x => x.mode != .off

/-- Requests and holds are granted: a clock that one of them names runs once the PLLs are locked (R29, R31). -/
def grantClocks (s : State) : State :=
  onSys (fun y =>
    let run := allClocks.filter fun c => y.run.contains c || (y.pll && (clockRequested s c || clockHeld s c))
    { y with run := run, refClock := y.refClock || !run.isEmpty }) s

/-- The PLLs lock, and every fast clock runs until it is gated (R29, R47). -/
def clocksRun (s : State) : State := onSys (fun y => { y with refClock := true, pll := true, run := allClocks }) s

/-- A clock that a block needs at once is started (R31). -/
def startClock (c : Clock) (s : State) : State :=
  onSys (fun y => { y with run := allClocks.filter fun k => y.run.contains k || (y.pll && k == c) }) s

/-- A clock is gated, unless it is requested or held (R31). -/
def gateClock (c : Clock) (s : State) : State :=
  if clockRequested s c || clockHeld s c then s
  else onSys (fun y => { y with run := y.run.filter (· != c) }) s

/-- Only the held clocks run on: harbour watch between its wake-ups (R30, R33). -/
def clocksAsleep (s : State) : State :=
  let held := allClocks.filter (clockHeld s)
  onSys (fun y => { y with run := held, refClock := !held.isEmpty, coreAwake := false }) s

/-- A write of SYS_CLKHOLD (R29). -/
def writeClkHold (v : Word) (s : State) : State := onSys (fun y => { y with clkHold := v &&& 0x3C }) s

/-- SYS_CLKSTAT (R29). -/
def clkStat (s : State) : Word :=
  (s.sys.run.foldl (fun w c => setBit w c.bit true) (setBit 1 1 s.sys.refClock))

end Sys2Proof.Machine
end

