-- ==== Sys2Proof/Machine/Operands.lean ====
section
/-! DEFINITION. How operands are read: byte strings as numbers (R5), the CRC-32C of R40, floating-point words as exact
numbers and the one rounding of R6. -/

namespace Sys2Proof.Machine

/-! ### Byte strings -/

/-- A byte string as a number, least significant byte first (R5). -/
def leNat : List Byte → Nat
  | [] => 0
  | b :: r => b.toNat + 256 * leNat r

/-- A byte string as a number, most significant byte first. -/
def beNat (l : List Byte) : Nat := l.foldl (fun n b => n * 256 + b.toNat) 0

/-- The `n` bytes of a number, least significant first. -/
def leBytes : Nat → Nat → List Byte
  | 0, _ => []
  | n + 1, v => BitVec.ofNat 8 v :: leBytes n (v / 256)

/-- The `n` bytes of a number, most significant first. -/
def beBytes (n v : Nat) : List Byte := (leBytes n v).reverse

/-- `len` bytes of a string from byte `off`; bytes past its end are left out. -/
def slice (l : List Byte) (off len : Nat) : List Byte := (l.drop off).take len

/-- The field of `len` bytes at byte `off`, least significant first. -/
def fld (l : List Byte) (off len : Nat) : Nat := leNat (slice l off len)

/-- A two's-complement number of `bits` bits. -/
def signedOf (bits v : Nat) : Int :=
  let x := v % 2 ^ bits
  if x < 2 ^ (bits - 1) then x else (x : Int) - 2 ^ bits

/-- The low `bits` bits of an integer. -/
def lowBits (bits : Nat) (x : Int) : Nat := (x % (2 ^ bits : Int)).toNat

/-- Whether every byte is 0. -/
def allZero (l : List Byte) : Bool := l.all (· == 0)

/-- The bytes `src` laid over `dst` from byte `off`; nothing goes past the end of `dst`. -/
def overlay (dst : List Byte) (off : Nat) (src : List Byte) : List Byte :=
  (dst.take off ++ src ++ dst.drop (off + src.length)).take dst.length

/-- Bit `n` of byte `off` set to `b`. -/
def overlayBit (dst : List Byte) (off n : Nat) (b : Bool) : List Byte := dst.modify off fun x => setBit x n b

/-! ### CRC-32C (R40) -/

/-- One bit of the reflected polynomial 0x1EDC_6F41. -/
def crcBit (c : BitVec 32) : BitVec 32 := if c.getLsbD 0 then (c >>> 1) ^^^ 0x82F63B78#32 else c >>> 1

/-- One byte of the CRC. -/
def crcByte (c : BitVec 32) (b : Byte) : BitVec 32 :=
  crcBit (crcBit (crcBit (crcBit (crcBit (crcBit (crcBit (crcBit (c ^^^ b.zeroExtend 32))))))))

/-- CRC-32C: reflected input and output, initial value and final exclusive OR 0xFFFF_FFFF. -/
def crc32c (l : List Byte) : Nat := (l.foldl crcByte 0xFFFFFFFF#32 ^^^ 0xFFFFFFFF#32).toNat

/-! ### Exact numbers -/

/-- A floating-point word as it stands: not a number, an infinity, or the exact number m × 2^e. -/
inductive Num where
  | nan
  | inf (neg : Bool)
  | fin (m e : Int)
  deriving DecidableEq, Repr

/-- A binary format: fraction bits and exponent bits of IEEE 754. -/
structure Fmt where
  frac : Nat
  exp  : Nat
  deriving DecidableEq, Repr

/-- binary32. -/
def f32 : Fmt := { frac := 23, exp := 8 }

/-- binary64. -/
def f64 : Fmt := { frac := 52, exp := 11 }

/-- The exponent of the least significant bit of a subnormal number. -/
def Fmt.low (f : Fmt) : Int := 2 - (2 : Int) ^ (f.exp - 1) - f.frac

/-- The number a word of a format stands for. -/
def numOf (f : Fmt) (w : Nat) : Num :=
  let frac := w % 2 ^ f.frac
  let ex := w / 2 ^ f.frac % 2 ^ f.exp
  let neg := w / 2 ^ (f.frac + f.exp) % 2 == 1
  let sg : Int := if neg then -1 else 1
  if ex = 2 ^ f.exp - 1 then (if frac = 0 then .inf neg else .nan)
  else if ex = 0 then .fin (sg * frac) f.low
  else .fin (sg * (frac + 2 ^ f.frac)) (f.low + ex - 1)

/-- n / d rounded half to even (R6). -/
def divEven (n : Int) (d : Nat) : Int :=
  let q := n / d
  let r := n % d
  if 2 * r < d then q else if (d : Int) < 2 * r then q + 1 else if q % 2 = 0 then q else q + 1

/-- m × 2^e as an integer, rounded half to even (R6). -/
def roundInt (m e : Int) : Int :=
  if 0 ≤ e then m * 2 ^ e.toNat else divEven m (2 ^ (-e).toNat)

/-- The word of a format for m × 2^e, rounded once half to even (R6). -/
def wordOf (f : Fmt) (m e : Int) : Nat :=
  let sgn := if m < 0 then 2 ^ (f.frac + f.exp) else 0
  let n := m.natAbs
  if n = 0 then 0
  else
    let len : Int := Nat.log2 n + 1
    let u0 := max (e + len - (f.frac + 1)) f.low
    let k0 := (roundInt n (e - u0)).toNat
    let (k, u) := if k0 = 2 ^ (f.frac + 1) then (2 ^ f.frac, u0 + 1) else (k0, u0)
    let ef := if k < 2 ^ f.frac then 0 else (u - f.low + 1).toNat
    if 2 ^ f.exp - 1 ≤ ef then sgn + (2 ^ f.exp - 1) * 2 ^ f.frac
    else sgn + ef * 2 ^ f.frac + (if k < 2 ^ f.frac then k else k - 2 ^ f.frac)

/-- The word of a format for a number; a NaN takes the quiet NaN, an infinity stays one. -/
def wordOfNum (f : Fmt) : Num → Nat
  | .nan => (2 ^ f.exp - 1) * 2 ^ f.frac + 2 ^ (f.frac - 1)
  | .inf neg => (if neg then 2 ^ (f.frac + f.exp) else 0) + (2 ^ f.exp - 1) * 2 ^ f.frac
  | .fin m e => wordOf f m e

/-- An exact sum of two numbers m × 2^e. -/
def exactAdd (m1 e1 m2 e2 : Int) : Int × Int :=
  let e := min e1 e2
  (m1 * 2 ^ (e1 - e).toNat + m2 * 2 ^ (e2 - e).toNat, e)

/-- gain × value + offset, exact (R385). -/
def affine (gain value offset : Num) : Num :=
  match gain, value, offset with
  | .fin g ge, .fin v ve, .fin o oe =>
    let (m, e) := exactAdd (g * v) (ge + ve) o oe
    .fin m e
  | .fin g _, .inf neg, .fin _ _ => if g = 0 then .nan else .inf (neg != decide (g < 0))
  | _, _, _ => .nan

/-- An integer kept within a range. -/
def clamp (lo hi x : Int) : Int := if x < lo then lo else if hi < x then hi else x

/-- SHA-256's rotation. -/
def rotr (x : BitVec 32) (n : Nat) : BitVec 32 := x.rotateRight n

end Sys2Proof.Machine
end

