-- ==== Sys2Proof/Machine/FieldOps.lean ====
section
/-! DEFINITION. What drives the field outputs: the treatment of roles, modes and group states on digital and analogue
stages (R19, R72, R74, R368, R370, R374 to R377, R396 to R399), common faults (R373) and output commands. -/

namespace Sys2Proof.Machine

/-- The field-supply group of index `g`: 0 to 3 for A to D, 4 for F. -/
def fieldGroup (s : State) (g : Nat) : FieldGroup := s.pwr.groups.getD g {}

/-- FIELD_SUPPLY of a group: LOST, QUALIFYING or AWAIT_ACK (R380, R411). -/
def FieldState.off : FieldState → Bool
  | .lost | .qualifying | .awaitAck => true
  | .normal | .low => false

/-- LOST or QUALIFYING (R72). -/
def FieldState.dead : FieldState → Bool
  | .lost | .qualifying => true
  | _ => false

/-- STATE of R90. -/
def FieldState.code : FieldState → Nat
  | .normal => 0
  | .low => 1
  | .lost => 2
  | .qualifying => 3
  | .awaitAck => 4

/-- Whether the module commands its outputs: SOLO or ACTIVE, in RUN or HOLD, or while the cycles of a mode change run to
their write points (R19, R137). -/
def commandsOutputs (s : State) : Bool :=
  (s.sys.role == .solo || s.sys.role == .active) && (s.sys.mode == .run || s.sys.mode == .hold || s.cyc.draining)

def dioCh (s : State) (n : Nat) : DioCh := s.dio.ch.getD n {}
def anaCh (s : State) (n : Nat) : AnaCh := s.ana.ch.getD n {}

/-- An update of one digital channel. -/
def onDioCh (n : Nat) (f : DioCh → DioCh) (s : State) : State :=
  onDio (fun d => { d with ch := d.ch.modify n f }) s

/-- An update of one analogue channel. -/
def onAnaCh (n : Nat) (f : AnaCh → AnaCh) (s : State) : State :=
  onAna (fun d => { d with ch := d.ch.modify n f }) s

/-- The digital modes that have an output stage under R368. -/
def DioMode.isOutput : DioMode → Bool
  | .output | .pairWired => true
  | _ => false

/-- The digital modes with an output stage: those, and the timed pulse outputs (R317). -/
def DioMode.hasStage (m : DioMode) : Bool := m.isOutput || m == .timedPulse

def DioMode.isInput : DioMode → Bool
  | .inputType1 | .inputType3 => true
  | _ => false

/-- The output modes of an analogue channel (R383). -/
def AnaMode.isOutput : AnaMode → Bool
  | .voltageOut | .currentOut => true
  | _ => false

/-- The safe state of a digital output by its policy, as in STARTING and STOP (R376). -/
def dioSafe (c : DioCh) : Bool :=
  match c.policy with
  | .safeOff => false
  | .safeOn => true
  | .hold => c.held.getD false

/-- A HOLD channel released and not yet returned (R377). -/
def dioReleased (c : DioCh) : Bool := c.relDemand0 || c.relDemand1 || c.relOther

/-- The state a digital output stage takes (R19, R72, R74, R370, R375, R376, R377). DEDUCED (assumption 170). -/
def dioTarget (s : State) (n : Nat) (c : DioCh) : Bool :=
  let g := fieldGroup s (n / 8)
  if s.sys.role == .jack then false
  else match c.mode with
  | .off | .inputType1 | .inputType3 => false
  | .timedPulse =>
    c.pulse && commandsOutputs s && !g.st.off && !c.latchedOff && !c.silent && !s.pwr.powerDown && c.ostate != .shortWait
      && c.ostate != .latched
  | .output | .pairWired =>
    if s.sys.mode == .harbour || dioReleased c then false
    else if g.st.dead then c.policy == .hold && g.startup && c.held.getD false
    else if g.st == .awaitAck then false
    else if c.ostate == .shortWait || c.ostate == .latched then false
    else if s.sys.mode == .halted then c.policy == .safeOn
    else if c.silent || s.pwr.powerDown then dioSafe c
    else if commandsOutputs s then
      if c.posted then c.command
      else if c.latchedOff && c.policy != .hold then false
      else dioSafe c
    else if c.mode == .pairWired then false
    else dioSafe c

/-- The last command of a channel, which HOLD keeps (R376): off once it is released (R377). -/
def dioHeld (s : State) (n : Nat) (c : DioCh) : Option Bool :=
  if dioReleased c then some false
  else if commandsOutputs s && c.posted && !(fieldGroup s (n / 8)).st.off then some c.command
  else c.held

/-- One refresh of a digital stage: the last command, the state the stage takes by it, and the switch-on count (R370, R376, R378). -/
def dioStep (s : State) (n : Nat) (c : DioCh) : DioCh :=
  let held := dioHeld s n c
  let on := dioTarget s n { c with held := held }
  { c with
    stage := on
    held := held
    switches := if on && !c.stage then satInc 32 c.switches else c.switches
    since := if on == c.stage then c.since else s.mono }

/-- The state an output is commanded to but for R370 and the supply of its group, which keeps the states of R370 (R374): its command, or what its
role and mode give it (R19, R376). -/
def dioWants (s : State) (n : Nat) : Bool :=
  let t := { s with pwr := { s.pwr with groups := s.pwr.groups.modify (n / 8) fun g => { g with st := .normal } } }
  dioTarget t n { dioCh s n with ostate := .normal }

/-- The commanded state that the last OUTPUTS record carries for a PAIR_WIRED channel (R375); none while the module holds
none. -/
def pairCommanded (s : State) (n : Nat) : Option Bool :=
  if s.sys.role == .standby && s.pair.st != .noActive && !s.pair.silent && !s.cyc.configError then
    if s.hoist.lastMask.testBit n then s.hoist.lastCmds.map fun w => w.testBit n else none
  else none

/-- Whether a stage that is off with its readback high reports EXT_FEED (R372, R375): on the ACTIVE side a PAIR_WIRED channel from
its first posting on. -/
def extFeedReports (s : State) (n : Nat) : Bool :=
  let c := dioCh s n
  if c.mode == .output || c.mode == .timedPulse then true
  else if c.mode == .pairWired then
    if s.sys.role == .active then c.posted else pairCommanded s n == some false
  else false

/-- One output's check (R370, R373): a retry whose command is off ends in SHORT_WAIT, where its group's supply lets it; a standing feed or low
readback ends with its condition. -/
def dioCheck (s : State) (n : Nat) (c : DioCh) : DioCh :=
  { c with
    ostate := if c.ostate == .retry && !(fieldGroup s (n / 8)).st.off && !dioWants s n then .shortWait else c.ostate
    extNow := c.extNow && !dioTarget s n c && extFeedReports s n
    lowNow := c.lowNow && pairCommanded s n == some true }

/-- The check of every output. -/
def outputsCheck (s : State) : State :=
  { s with dio := { s.dio with ch := s.dio.ch.mapIdx fun n c => dioCheck s n c } }

/-- The counts an analogue output is commanded to by its policy (R398). -/
def anaPolicy (c : AnaCh) : Int := if c.safeValue then c.safeCounts else 0

/-- The counts an analogue output takes (R19, R72, R74, R398). -/
def anaTarget (s : State) (n : Nat) (c : AnaCh) : Int :=
  let g := fieldGroup s (n / 4)
  if !c.mode.isOutput || s.sys.role == .jack then 0
  else if s.sys.mode == .harbour || g.st.off then 0
  else if c.silent || s.pwr.powerDown then anaPolicy c
  else if commandsOutputs s then
    if c.posted then c.command else if c.latchedOff then 0 else anaPolicy c
  else anaPolicy c

/-- The DAC code of counts before saturation, with its bounds (R396). -/
def dacCode (m : AnaMode) (counts : Int) : Int × Int × Int :=
  match m with
  | .voltageOut => (divEven (counts * 65536) 20000000, -32768, 32767)
  | _ => (divEven (counts * 65536) 24000000, 0, 65535)

/-- Whether a module switches HART impedances in (R390, R404): SOLO or ACTIVE, neither halted nor powering down, and powered. -/
def hartDrives (s : State) : Bool :=
  (s.sys.role == .solo || s.sys.role == .active) && s.sys.mode != .halted && s.sys.mode != .harbour && !s.pwr.powerDown && !s.pwr.railsOff

/-- One refresh of an analogue stage (R396, R398), a code that saturates setting CLAMPED, and of the switch that bridges the HART impedance (R390). -/
def anaStep (s : State) (n : Nat) (c : AnaCh) : AnaCh :=
  let impedance := c.hartEn && hartDrives s
  if c.mode.isOutput then
    let out := anaTarget s n c
    let (k, lo, hi) := dacCode c.mode out
    { c with out := out, code := clamp lo hi k, impedance := impedance
             diag := if out != c.out && (k < lo || hi < k) then setBit c.diag 12 true else c.diag }
  else { c with impedance := impedance }

/-- Every stage takes the state its channel, group, role and mode give it. -/
def refreshStages (s : State) : State :=
  { s with
    dio := { s.dio with ch := s.dio.ch.mapIdx fun n c => dioStep s n c }
    ana := { s.ana with ch := s.ana.ch.mapIdx fun n c => anaStep s n c } }

/-- What follows the state at once, whatever changed it: the output stages (R368, R376, R398) and the clocks (R31).
DEDUCED (assumption 7). -/
def follow (s : State) : State := grantClocks (refreshStages s)

/-- What a command answers. -/
abbrev Out := Host.Outcome State Fault Refusal

/-- The answer of a command that leaves a state. -/
def answer (s : State) : Out := .next (follow s)

/-! ### Diagnostics and common faults -/

/-- Bits 7:0 of DIO_CHn_DIAG (R380): the sticky bits with FIELD_SUPPLY and ACTIVE_FAULT. -/
def dioDiag (s : State) (n : Nat) : Byte :=
  let c := dioCh s n
  let off := (fieldGroup s (n / 8)).st.off
  setBit (setBit (c.diag &&& 0xFC) 1 off) 0 (c.ostate != .normal || off)

/-- Bits 15:0 of ANA_CHn_DIAG (R411). -/
def anaDiag (s : State) (n : Nat) : BitVec 16 :=
  let c := anaCh s n
  let off := (fieldGroup s (n / 4)).st.off
  setBit (setBit (c.diag &&& 0x1FFC) 1 off) 0 (c.standing &&& 0x03FC != 0 || off)

/-- Whether a cause of COMMON_FAULT stands in group `g` (R373, R399). -/
def commonCause (s : State) (g : Nat) : Bool :=
  (fieldGroup s g).st == .low || (fieldGroup s g).st == .lost
  || ((s.dio.ch.drop (8 * g)).take 8).any (fun c => c.extNow || c.lowNow || c.ostate != .normal)
  || ((s.ana.ch.drop (4 * g)).take 4).any (fun c => c.standing &&& 0x03FC != 0)

/-- COMMON_FAULT set in each group in which a cause stands (R373). -/
def markCommon (s : State) : State :=
  onDio (fun d => { d with groups := d.groups.mapIdx fun g x => { x with common := x.common || commonCause s g } }) s

/-! ### Commands to the channels -/

/-- A digital output takes a command (R368): it is posted, a return under R74 ends, and an attempt of RETRY with the command
off ends (R370). -/
def dioCommand (n : Nat) (on : Bool) (s : State) : State :=
  let back := !(fieldGroup s (n / 8)).st.off
  refreshStages (onDioCh n (fun c =>
    if c.mode.isOutput then
      { c with
        command := on
        posted := true
        latchedOff := c.latchedOff && !back
        relOther := c.relOther && !back
        ostate := if c.ostate == .retry && !on && back then .shortWait else c.ostate }
    else c) s)

/-- An analogue output takes counts (R396); a code that saturates sets CLAMPED. -/
def anaCommand (n : Nat) (counts : Int) (s : State) : State :=
  let back := !(fieldGroup s (n / 4)).st.off
  refreshStages (onAnaCh n (fun c =>
    if c.mode.isOutput then
      let (k, lo, hi) := dacCode c.mode counts
      { c with
        command := counts
        posted := true
        latchedOff := c.latchedOff && !back
        diag := if k < lo || hi < k then setBit c.diag 12 true else c.diag }
    else c) s)

/-- A clear of digital channel `n` (R371). A short that the same check of 100 µs has found stands. DEDUCED (assumption 278). -/
def dioClear (n : Nat) (s : State) : State :=
  if (fieldGroup s (n / 8)).st.off then onDio (fun d => { d with flags := flag 6 d.flags }) s
  else if (dioCh s n).foundAt.any fun t => t / 100000 == s.mono / 100000 then s
  else refreshStages (onDioCh n (fun c =>
    if c.ostate == .shortWait || c.ostate == .latched then { c with ostate := .normal, retries := 0 } else c) s)

/-- A group enters NORMAL from AWAIT_ACK or QUALIFYING: each output waits for its next command (R74). -/
def outputsReturn (g : Nat) (s : State) : State :=
  refreshStages
    { s with
      dio := { s.dio with ch := s.dio.ch.mapIdx fun n c =>
        if n / 8 = g then { c with posted := false, latchedOff := true } else c }
      ana := { s.ana with ch := s.ana.ch.mapIdx fun n c =>
        if n / 4 = g then { c with posted := false, latchedOff := true } else c } }

/-- An update of one field-supply group. -/
def onGroup (g : Nat) (f : FieldGroup → FieldGroup) (s : State) : State :=
  onPwr (fun p => { p with groups := p.groups.modify g f }) s

/-- The restore bit of group `g` (R75): AWAIT_ACK goes to NORMAL; in any other state RESTORE_IGNORED sets. -/
def restoreGroup (g : Nat) (s : State) : State :=
  if (fieldGroup s g).st == .awaitAck then outputsReturn g (onGroup g (fun x => { x with st := .normal }) s)
  else onPwr (fun p => { p with flags := flag 18 p.flags }) s

/-- A HOLD channel of index `n` is released to off (R377): the bit, the flag and the record, once per release.
DEDUCED (assumption 171). -/
def releaseHold (n : Nat) (mark : DioCh → DioCh) (s : State) : State :=
  let c := dioCh s n
  if c.policy == .hold && c.mode.isOutput then
    let s := onDioCh n (fun c => { mark c with diag := setBit c.diag 6 true, held := some false }) s
    let s := onDio (fun d => { d with flags := flag 5 d.flags }) s
    raise .dioHoldReleased .notice n 0 0 0 s
  else s

/-- Every HOLD channel a test names is released (R377). -/
def releaseHolds (which : Nat → DioCh → Bool) (mark : DioCh → DioCh) (s : State) : State :=
  forAll (List.range 32) (fun n t =>
    let c := dioCh t n
    if c.policy == .hold && which n c && !dioReleased c then releaseHold n mark t else onDioCh n (fun c =>
      if c.policy == .hold && which n c then mark c else c) t) s

end Sys2Proof.Machine
end

