-- ==== Sys2Proof/Machine/Words.lean ====
section
/-! DEFINITION. Places in the banks, and a word stored whole with its check bits (04_memory.md R94, R105, R107, R110, R111, R113). -/

namespace Sys2Proof.Machine

/-! ### Places -/

/-- Bytes of a bank. -/
def bankBytes : Nat := 0x80000

def bankAt (s : State) (n : Nat) : Bank := s.mem.banks.getD n {}

def onBank (n : Nat) (f : Bank → Bank) (s : State) : State :=
  onMem (fun m => { m with banks := m.banks.modify n f }) s

/-- The physical bank that answers at the addresses of Bn (R111). -/
def answering (s : State) (n : Nat) : Nat := if s.mem.folded = some n then 16 else n

/-- An update of what a bank takes from its address: of Bn, and of B16 where it answers there (R111). -/
def onAnswering (n : Nat) (f : Bank → Bank) (s : State) : State :=
  onBank n f (if s.mem.folded = some n then onBank 16 f s else s)

/-- The physical place of the word at a memory address (R94, R110, R111). -/
def placeOf (s : State) (addr : Nat) : Place :=
  let b := answering s (addr / bankBytes)
  let row := addr % bankBytes / 0x200
  { bank := b, row := match look row (bankAt s b).folds with
      | some k => 1024 + k
      | none => row
    word := addr % 0x200 / 8 }

/-! ### Errors -/

/-- The positions in error of a stored word. -/
def errAt (s : State) (p : Place) : List Nat := ((s.mem.errs.find? fun e => e.1 == p).map (·.2)).getD []

/-- The word's positions in error become `l`. -/
def setErr (p : Place) (l : List Nat) (s : State) : State :=
  onMem (fun m =>
    let rest := m.errs.filter fun e => e.1 != p
    { m with errs := if l.isEmpty then rest else (p, l) :: rest }) s

/-- The word at an address is stored with its check bits, by its owner or by the module for it (R105, R107, R113): an armed injection
inverts its positions; a write-back that waits for it is dropped; a write of all 8 bytes repairs it. -/
def recode (addr : Nat) (full : Bool) (s : State) : State :=
  let p := placeOf s addr
  let i := s.mem.inject
  let hit := full && i.armed && i.bank == addr / bankBytes
  let e := if hit then ([i.posA, i.posB, i.posC].filter (· < 80)).eraseDups else []
  setErr p e (onMem (fun m =>
    { m with
      backs := m.backs.filter fun b => b.1 != p
      found := if full then m.found.filter (· != p) else m.found
      inject := if hit then { m.inject with armed := false } else m.inject }) s)

/-! ### Tables in the banks (R181, R200) -/

def sigTableAt : Nat := 0x500000
def sinkListAt : Nat := 0x520000
def forceTableAt : Nat := 0x530000
def snapshotAt : Nat := 0x532000
def contextAt : Nat := 0x580000
def stagingAt : Nat := 0x780000

/-- Bytes of a loop context's rows: 16 rows (R200). -/
def contextBytes : Nat := 16 * 0x200

/-- The dynamic part of an entry is stored whole: words 0 and 1 (R183). -/
def touchEntry (i : Nat) (s : State) : State := recode (sigTableAt + 32 * i + 8) true (recode (sigTableAt + 32 * i) true s)

/-- The rest of an entry is stored whole: words 2 and 3 (R183). -/
def touchRecord (i : Nat) (s : State) : State := recode (sigTableAt + 32 * i + 24) true (recode (sigTableAt + 32 * i + 16) true s)

end Sys2Proof.Machine
end

