-- ==== Sys2Proof/Machine/Signals.lean ====
section
/-! DEFINITION. The signal table (07_signal_table.md R181 to R199): qualities, writes, forces set aside, delivery to sinks,
the stale phase, and the writing of source entries at each change. -/

namespace Sys2Proof.Machine

/-! ### Qualities (R185) -/

def qGood : Byte := 0xC0
def qForced : Byte := 0xC1
def qStale : Byte := 0x41
def qSubst : Byte := 0x42
def qCompliance : Byte := 0x43
def qHoldover : Byte := 0x44
def qConfig : Byte := 0x01
def qSupply : Byte := 0x02
def qStation : Byte := 0x03
def qFault : Byte := 0x04
def qMemory : Byte := 0x05

/-- The class of a quality: 0 BAD, 1 UNCERTAIN, 3 GOOD. -/
def qClass (q : Byte) : Nat := q.toNat / 64

/-- The codes of R185. -/
def validQualities : List Byte :=
  [qGood, qForced, qStale, qSubst, qCompliance, qHoldover, qConfig, qSupply, qStation, qFault, qMemory]

/-- Whether a task may post a code (R186). -/
def postable (q : Byte) : Bool := validQualities.contains q && q != qForced

/-! ### Entries -/

/-- The entry of an index; an undefined one reads type 0, value 0 and BAD_CONFIG (R193). -/
def sigEntry (s : State) (i : Nat) : SigEntry := (look i s.sig.entries).getD {}

/-- A number made of fields: each `(lo, len, value)` places the low `len` bits of `value` at bit `lo`. -/
def packNat : List (Nat × Nat × Nat) → Nat
  | [] => 0
  | (lo, len, v) :: rest => (v % 2 ^ len) * 2 ^ lo + packNat rest

/-- Word 1 of an entry with a quality (R182). -/
def SigEntry.word1 (e : SigEntry) (q : Byte) : Datum :=
  BitVec.ofNat 64 (packNat
    [(32, 13, e.sinkFirst), (28, 4, e.sinkCount), (27, 1, bit e.stale), (26, 1, bit e.cond.isSome), (25, 1, bit e.substituted),
     (24, 1, bit e.forced), (16, 8, e.staleCount), (8, 8, e.typ), (0, 8, q.toNat)])

/-- A copy of an entry's dynamic part, words 0 and 1 whole, with a value and a quality (R183, R190). -/
def SigEntry.copied (e : SigEntry) (v : Datum × Byte) : Datum × Datum := (v.1, e.word1 v.2)

/-- QUALITY of a copied word 1. -/
def copyQual (w : Datum) : Byte := w.setWidth 8

/-- Whether an index is defined. -/
def sigDefined (s : State) (i : Nat) : Bool := (look i s.sig.entries).isSome

/-- The value an entry holds, or holds aside while it is forced. -/
def ownValue (s : State) (i : Nat) : Datum :=
  if (sigEntry s i).forced then ((look i s.cyc.forces).map (·.aside.1)).getD (sigEntry s i).value else (sigEntry s i).value

/-- An update of one entry. -/
def onEntry (i : Nat) (f : SigEntry → SigEntry) (s : State) : State :=
  onSig (fun g => { g with entries := change i f g.entries }) s

/-- The quality an entry stores for a written one: GOOD_FORCED while forced, else the sink condition's code when its class
is at or below the written class (R187). -/
def storedQuality (e : SigEntry) (q : Byte) : Byte :=
  if e.forced then qForced
  else match e.cond with
    | none => q
    | some c => if qClass c ≤ qClass q then c else q

/-- A write of value and quality whole, with TYPE from the record (R190, R191): it ends a stale phase. -/
def SigEntry.write (e : SigEntry) (v : Datum) (q : Byte) : SigEntry :=
  { e with
    value := v, typ := e.recTyp, quality := storedQuality e q, stale := false, staleCount := 0, substituted := false }

/-- A quality as R186 stores it: GOOD_FORCED or an invalid code becomes BAD_CONFIG and is counted. -/
def admitQuality (q : Byte) (s : State) : Byte × State :=
  if postable q then (q, s)
  else (qConfig, onSig (fun g => { g with qualInvalid := satInc 32 g.qualInvalid, flags := flag 0 g.flags }) s)

/-- The width of a value of a type in bytes: W of R269. -/
def typeWidth (t : Nat) : Nat :=
  if t = 0x01 || t = 0x02 || t = 0x06 || t = 0x0C then 1
  else if t = 0x03 || t = 0x07 || t = 0x0D then 2
  else if t = 0x04 || t = 0x08 || t = 0x0A || t = 0x0E || t = 0x11 then 4
  else 8

/-- Whether a type is signed, so that VALUE is sign-extended (R184). -/
def typeSigned (t : Nat) : Bool :=
  t = 0x02 || t = 0x03 || t = 0x04 || t = 0x05 || t = 0x10 || t = 0x11

/-- VALUE for the `W` bytes of a type: right-aligned, sign-extended or zero-extended (R184). -/
def valueOfRaw (t n : Nat) : Datum :=
  let w := 8 * typeWidth t
  if typeSigned t then BitVec.ofInt 64 (signedOf w n) else BitVec.ofNat 64 (n % 2 ^ w)

/-- The number a VALUE of a type stands for. -/
def numOfValue (t : Nat) (v : Datum) : Num :=
  if t = 0x0A then numOf f32 (v.toNat % 2 ^ 32)
  else if t = 0x0B then numOf f64 v.toNat
  else if typeSigned t then .fin (signedOf (8 * typeWidth t) v.toNat) 0
  else .fin v.toNat 0

/-! ### Engineering values (R385) -/

/-- ENG_GAIN as it acts: 0.0 acts as 1.0. -/
def engGain (c : AnaCh) : Num :=
  match numOf f32 c.gain.toNat with
  | .fin m e => if m = 0 then .fin 1 0 else .fin m e
  | x => x

/-- The engineering value of an input's counts. -/
def engValue (c : AnaCh) (counts : Int) : Num := affine (engGain c) (.fin counts 0) (numOf f32 c.offset.toNat)

/-- An exact number as VALUE of a numeric type, rounded once and saturated (R6, R385). DEDUCED (assumption 104). -/
def valueOfNum (t : Nat) (x : Num) : Datum :=
  if t = 0x0A then BitVec.ofNat 64 (wordOfNum f32 x)
  else if t = 0x0B then BitVec.ofNat 64 (wordOfNum f64 x)
  else
    let hi : Int := if typeSigned t then 2 ^ (8 * typeWidth t - 1) - 1 else 2 ^ (8 * typeWidth t) - 1
    let lo : Int := if typeSigned t then -(2 ^ (8 * typeWidth t - 1)) else 0
    match x with
    | .nan => 0
    | .inf neg => BitVec.ofInt 64 (if neg then lo else hi)
    | .fin m e => BitVec.ofInt 64 (clamp lo hi (roundInt m e))

/-- VALUE of an analogue input's entry of a type: counts for SCALED, else the engineering value (R385). -/
def anaValue (c : AnaCh) (t : Nat) (counts : Int) : Datum :=
  if t = 0x11 then BitVec.ofInt 64 counts else valueOfNum t (engValue c counts)

/-- The counts of an output for an exact engineering value (R385); none for a NaN, whose counts the spec does not state. -/
def countsOf (c : AnaCh) (x : Num) : Option Int :=
  match affine (engGain c) x (numOf f32 c.offset.toNat) with
  | .nan => none
  | .inf neg => some (if neg then -(2 ^ 31) else 2 ^ 31 - 1)
  | .fin m e => some (clamp (-(2 ^ 31)) (2 ^ 31 - 1) (roundInt m e))

/-- An analogue output takes an engineering value; the counts of a NaN are a free value. -/
def anaCommandNum (n : Nat) (x : Num) (s : State) : State :=
  match countsOf (anaCh s n) x with
  | some k => anaCommand n k s
  | none =>
    let (k, s) := freed Config.freeInt s
    anaCommand n (clamp (-(2 ^ 31)) (2 ^ 31 - 1) k) s

/-! ### Sinks (R189) -/

/-- Whether the module's outputs follow postings: not on a STANDBY or a JACK (R19, R249). -/
def takesCommands (s : State) : Bool := s.sys.role == .solo || s.sys.role == .active

/-- A change from 0 to 1 of a CLEAR or RESTORE item acts; the bit is kept (R369). -/
def dioItem (n item : Nat) (b : Bool) (s : State) : State :=
  let c := dioCh s n
  if item = 1 then
    let s' := onDioCh n (fun c => { c with clearBit := b }) s
    if b && !c.clearBit then dioClear n s' else s'
  else if item = 2 then
    let s' := onDioCh n (fun c => { c with restoreBit := b }) s
    if b && !c.restoreBit then restoreGroup (n / 8) s' else s'
  else if takesCommands s then dioCommand n b s
  else s

/-- One sink takes an entry's value. Ring, CAN and serial sinks read the entry when their frame is built (R298, R341, R491,
R492), so nothing is kept for them here. -/
def sinkTakes (k : Sink) (e : SigEntry) (s : State) : State :=
  match k.kind with
  | 1 => dioItem (field k.ref 0 5) (field k.ref 8 2) (e.value.getLsbD 0) s
  | 2 =>
    let n := field k.ref 0 4
    if takesCommands s then
      if e.typ = 0x11 then anaCommand n (signedOf 32 e.value.toNat) s else anaCommandNum n (numOfValue e.typ e.value) s
    else s
  | _ => s

/-- The sink records of an entry. -/
def sinksOf (s : State) (e : SigEntry) : List Sink := (s.sig.sinks.drop e.sinkFirst).take e.sinkCount

/-- An entry's sinks receive its value. -/
def deliver (i : Nat) (s : State) : State :=
  let e := sigEntry s i
  forAll (sinksOf s e) (fun k t => sinkTakes k e t) s

/-! ### Writing an entry -/

/-- A write of an entry: it ends a stale phase (R190, R192); value and quality are set aside while the entry is forced, and its
sinks receive the value it holds (R143, R189, R191). -/
def writeEntry (i : Nat) (v : Datum) (q : Byte) (s : State) : State :=
  if sigDefined s i then
    if (sigEntry s i).forced then
      let s := onCyc (fun c => { c with forces := change i (fun f => { f with aside := (v, q) }) c.forces }) s
      deliver i (onEntry i (fun e => { e with stale := false, staleCount := 0, substituted := false }) (touchEntry i s))
    else deliver i (onEntry i (fun e => e.write v q) (touchEntry i s))
  else s

/-! ### Source entries that follow an item -/

/-- A digital input's STATE with its quality (R366, R369). DEDUCED (assumption 102). -/
def dioStateItem (s : State) (n : Nat) : Datum × Byte :=
  let c := dioCh s n
  if c.mode.isInput then (BitVec.ofNat 64 (bit c.level), if c.valid then qGood else qSupply)
  else (BitVec.ofNat 64 (bit c.readback), qGood)

/-- The GROUP item (R369). -/
def dioGroupItem (s : State) (g : Nat) : Datum :=
  BitVec.ofNat 64 (bit (s.dio.groups.getD g {}).common + 2 * (fieldGroup s g).st.code)

/-- Whether group F is LOST or QUALIFYING (R433, R437). -/
def fDead (s : State) : Bool := (fieldGroup s 4).st.dead

/-- STATE of SAFE_FUNCf (R439). -/
def FuncState.code : FuncState → Nat
  | .demand => 0
  | .ready => 1
  | .check => 2
  | .released => 3
  | .fault => 4
  | .testing => 5
  | .disabled => 15

/-- Whether a safe brake output is on: both switches closed (R437). -/
def SafeFunc.sbcOn (f : SafeFunc) : Bool := f.hsOn && f.lsOn

/-- A pair as one path evaluates it (R413). -/
def SiPair.on (p : SiPair) : SafePath → PairSeen
  | .chip => p.chip
  | .supervisor => p.sup

/-- TP_OVERLOAD of a pair (R418, R427). -/
def PairFaults.overload (f : PairFaults) : Bool := f.over0 || f.over1

/-- Whether some fault is latched (R427, R437). -/
def PairFaults.any (f : PairFaults) : Bool := f.discrepancy || f.tpFault || f.cross || f.overload

/-- Whether a pair has a latched fault, as the SAFE window shows it: the chip path's (R427, R437). DEDUCED (assumption 180). -/
def SiPair.faulty (p : SiPair) : Bool := p.chip.faults.any

/-- TPn_OVERLOAD (R418, R437): while the output is off, and while the fault of some pair stands. -/
def tpOverload (s : State) (tp : Nat) : Bool :=
  (if tp = 0 then s.safe.tpOver0 else s.safe.tpOver1)
    || s.safe.pairs.any fun p => if tp = 0 then p.chip.faults.over0 else p.chip.faults.over1

/-- SAFE_STATUS (R437). F_UNAVAILABLE reads its after-reset 0 until a start has begun. -/
def safeStatus (s : State) : Word :=
  let pr n := s.safe.pairs.getD n {}
  let fn n := s.safe.funcs.getD n {}
  packFields
    [(23, 1, bit ((fieldGroup s 4).st == .low)), (22, 1, bit (s.log.power != 0 && fDead s)), (21, 1, bit (tpOverload s 1)),
     (20, 1, bit (tpOverload s 0)), (19, 1, bit s.safe.path), (18, 1, bit s.safe.present),
     (9, 1, bit (fn 1).sbcOn), (8, 1, bit (fn 0).sbcOn),
     (7, 1, bit (pr 3).faulty), (6, 1, bit (pr 2).faulty), (5, 1, bit (pr 1).faulty), (4, 1, bit (pr 0).faulty),
     (3, 1, bit (pr 3).chip.combined), (2, 1, bit (pr 2).chip.combined), (1, 1, bit (pr 1).chip.combined), (0, 1, bit (pr 0).chip.combined)]

/-- A SAFE item with its quality (R433). -/
def safeItem (s : State) (item idx : Nat) : Datum × Byte :=
  let q : Byte := if fDead s then qSupply else qGood
  if item = 0 then
    let p := s.safe.pairs.getD idx {}
    (BitVec.ofNat 64 (bit p.chip.combined), if fDead s then qSupply else if p.faulty then qFault else qGood)
  else if item = 1 then
    let f := s.safe.funcs.getD idx {}
    (BitVec.ofNat 64 (f.st.code + 16 * bit f.sbcOn + 32 * bit f.torque + 64 * bit f.due), q)
  else (BitVec.ofNat 64 (safeStatus s).toNat, q)

/-- ROLE of SYS_STATE (R28). -/
def Role.code : Role → Nat
  | .none => 0
  | .solo => 1
  | .active => 2
  | .standby => 3
  | .jack => 4

/-- MODE of SYS_STATE (R28). -/
def Mode.code : Mode → Nat
  | .starting => 0
  | .run => 1
  | .stop => 2
  | .hold => 3
  | .harbour => 4
  | .halted => 5

/-- SYS_STATE (R28). -/
def sysState (s : State) : Word :=
  packFields [(24, 8, s.sys.level), (16, 1, bit s.sys.stale), (8, 4, s.sys.role.code), (0, 4, s.sys.mode.code)]

/-- The item that an entry's source shows and that is written at each change: DIO items, the DIAG item of ANA, SAFE items and the module status
items of SYSTEM, of which the spec names none. DESIGN CHOICE (assumption 103). -/
def sourceItem (s : State) (e : SigEntry) : Option (Datum × Byte) :=
  match e.kind with
  | 2 =>
    let n := field e.ref 0 5
    match field e.ref 8 2 with
    | 0 => some (dioStateItem s n)
    | 1 => some (BitVec.ofNat 64 (dioDiag s n).toNat, qGood)
    | _ => some (dioGroupItem s (n / 8), qGood)
  | 3 =>
    if field e.ref 8 2 = 1 then some (BitVec.ofNat 64 (anaDiag s (field e.ref 0 4)).toNat, qGood) else none
  | 10 => some (safeItem s (field e.ref 8 2) (field e.ref 0 3))
  | 11 => some (Config.systemItem e.ref (sysState s), qGood)
  | _ => none

/-- A write that is due to an entry. -/
structure Due where
  index   : Nat
  value   : Datum
  quality : Byte
  deriving DecidableEq, Repr

/-- The entries whose item differs between two states. -/
def itemChanges (s t : State) : List Due :=
  t.sig.entries.filterMap fun p =>
    match sourceItem t p.2 with
    | none => none
    | some x => if sourceItem s p.2 = some x then none else some { index := p.1, value := x.1, quality := x.2 }

/-- The due writes are made one after the other; a change that a delivery makes to another item becomes due in turn. The
number bounds how many are made. -/
def drain : Nat → List Due → State → State
  | 0, _, s => s
  | _, [], s => s
  | n + 1, d :: r, s =>
    let t := writeEntry d.index d.value d.quality s
    drain n (r ++ itemChanges s t) t

/-! ### Sink conditions (R187, R374, R397) -/

/-- The condition a sink finds at its output. -/
def sinkCondition (s : State) (k : Sink) : Option Byte :=
  match k.kind with
  | 1 =>
    let n := field k.ref 0 5
    let c := dioCh s n
    if field k.ref 8 2 = 0 then
      if (fieldGroup s (n / 8)).st.off then some qSupply else if c.ostate != .normal then some qFault else none
    else none
  | 2 =>
    let n := field k.ref 0 4
    let c := anaCh s n
    if (fieldGroup s (n / 4)).st.off then some qSupply
    else if c.standing.getLsbD 7 || c.standing.getLsbD 8 then some qFault
    else if c.standing.getLsbD 6 then some qCompliance
    else none
  | _ => none

/-- The condition that stands first: BAD_FIELD_SUPPLY, then BAD_CHANNEL_FAULT, then UNCERTAIN_COMPLIANCE (R397). -/
def worstCondition (l : List Byte) : Option Byte :=
  if l.contains qSupply then some qSupply
  else if l.contains qFault then some qFault
  else if l.contains qCompliance then some qCompliance
  else none

/-- The condition that stands for an entry. -/
def entryCondition (s : State) (e : SigEntry) : Option Byte :=
  worstCondition ((sinksOf s e).filterMap (sinkCondition s))

/-- An entry with the condition that stands: its code is written where one is found. A forced entry holds GOOD_FORCED. -/
def SigEntry.conditioned (e : SigEntry) (c : Option Byte) : SigEntry :=
  match c with
  | none => { e with cond := none }
  | some q => { e with cond := some q, quality := if e.forced then qForced else q }

/-- Each entry's sink condition: its code is written into the live entry when it is found, and SINK_COND clears when it ends
(R187). -/
def markConditions (s : State) : State :=
  let due := s.sig.entries.filterMap fun p =>
    let c := entryCondition s p.2
    if c = p.2.cond then none else some (p.1, c)
  forAll due (fun x t => touchEntry x.1 (onEntry x.1 (fun e => e.conditioned x.2) t)) s

/-- How many due writes one command makes at most. -/
def drainBound : Nat := 8192

/-- Whether timed pulses run: in RUN or HOLD, as SOLO or ACTIVE (R318). -/
def pulsesRun (s : State) : Bool := takesCommands s && (s.sys.mode == .run || s.sys.mode == .hold)

/-- Out of RUN and HOLD, or without the role SOLO or ACTIVE, a timed pulse channel is off and its series discarded (R318). -/
def pulsesCheck (s : State) : State :=
  if pulsesRun s then s
  else
    { s with
      time := { s.time with pulses := s.time.pulses.map fun p => { p with next := none, out := false } }
      dio := { s.dio with ch := s.dio.ch.map fun c => { c with pulse := false } } }

/-- What follows every command that touches the field: timed pulses, the stages, the common faults, the source entries that changed since the
state `s`, and the sink conditions. DEDUCED (assumption 8). -/
def settle (s t : State) : State :=
  let t := markCommon (refreshStages (outputsCheck (pulsesCheck t)))
  markConditions (drain drainBound (itemChanges s t) t)

/-! ### Absence and the stale phase (R192) -/

/-- The bad code of a source kind. -/
def badCode (kind : Nat) : Byte := if kind = 4 then qStation else qFault

/-- The step of the stale phase on an entry. -/
def SigEntry.staleStep (e : SigEntry) : SigEntry :=
  if e.staleCycles ≤ e.staleCount then
    if e.substEn then { e with value := e.subst, substituted := true, quality := storedQuality e qSubst }
    else { e with quality := storedQuality e (badCode e.kind) }
  else e

/-- A step of the phase at an index: a forced entry sets the value aside; a change is delivered to the sinks. -/
def staleStepAt (i : Nat) (s : State) : State :=
  let e := sigEntry s i
  if e.forced then
    let old := ((look i s.cyc.forces).map (·.aside)).getD (e.value, e.quality)
    let new :=
      (if e.staleCycles ≤ e.staleCount && e.substEn then e.subst else old.1,
       if e.staleCycles ≤ e.staleCount then (if e.substEn then qSubst else badCode e.kind) else qStale)
    let s := onEntry i (fun e => { e with substituted := e.substituted || (e.staleCycles ≤ e.staleCount && e.substEn) }) s
    if new = old then s
    else deliver i (onCyc (fun c => { c with forces := change i (fun f => { f with aside := new }) c.forces }) s)
  else
    let s' := onEntry i SigEntry.staleStep (touchEntry i s)
    let e' := sigEntry s' i
    if e'.value = e.value && e'.quality = e.quality then s' else deliver i s'

/-- One entry enters the stale phase: count 0, UNCERTAIN_STALE, and the first step. -/
def enterStale (i : Nat) (s : State) : State :=
  let s := onSig (fun g => { g with flags := flag 1 g.flags }) s
  let e := sigEntry s i
  let s := onEntry i (fun e =>
    { e with stale := true, staleCount := 0, quality := storedQuality e qStale, substituted := false }) (touchEntry i s)
  staleStepAt i (if e.forced || (sigEntry s i).quality == e.quality then s else deliver i s)

/-- The absence of a source is declared: its entries, named by a test, enter the phase, and SIGNAL_STALE is recorded for the
first of them. -/
def declareAbsent (which : SigEntry → Bool) (s : State) : State :=
  let l := (s.sig.entries.filter fun p => which p.2 && !p.2.stale).map (·.1)
  match l with
  | [] => s
  | i :: _ => raise .signalStale .notice 0xFF i 0 0 (forAll l enterStale s)

/-- The stale steps at a release instant of a pacing task: counts advance and steps are made, but for the entries in `skip`,
whose absence is declared at this instant. -/
def staleTick (task : Nat) (skip : List Nat) (s : State) : State :=
  let l := (s.sig.entries.filter fun p => p.2.stale && p.2.pace == some task && !skip.contains p.1).map (·.1)
  forAll l (fun i t =>
    staleStepAt i (onEntry i (fun e => { e with staleCount := min (e.staleCount + 1) 255 }) t)) s

/-- The boundary of SIG_COMMIT (R198): the settings of the selected entry, of a kind from 4 to 7, are replaced. -/
def sigBoundary (s : State) : State :=
  if s.sig.commit.pending then
    let c := s.sig.copied
    let k := (sigEntry s c.sel).kind
    let s := onSig (fun g => { g with commit := { g.commit with pending := false } }) s
    if sigDefined s c.sel && decide (4 ≤ k) && decide (k ≤ 7) then
      onEntry c.sel (fun e => { e with subst := c.subst, staleCycles := c.staleCycles, substEn := c.substEn })
        (touchRecord c.sel s)
    else onSig (fun g => { g with flags := flag 3 g.flags }) s
  else s

/-- A source update of every entry a test names, with a value and quality by entry (R191). -/
def updateWhere (which : SigEntry → Bool) (val : SigEntry → Option (Datum × Byte)) (s : State) : State :=
  forAll (s.sig.entries.filter fun p => which p.2) (fun p t =>
    match val p.2 with
    | none => t
    | some (v, q) => writeEntry p.1 v q t) s

end Sys2Proof.Machine
end

