-- ==== Sys2Proof/Machine/Queue.lean ====
section
/-! DEFINITION. The queue engine (13_can_ports.md R332 to R340, R358, R359): descriptors, enqueues, fills, retirements,
cancels, takes and acknowledgements. -/

namespace Sys2Proof.Machine

/-- Descriptors of the engine (R332). -/
def descriptorTotal : Nat := 2048

def queueAt (s : State) (q : Nat) : Queue := s.que.queues.getD q {}

/-- Users of R332. -/
def userCan : Nat := 1
def userPlant : Nat := 2
def userSerial : Nat := 3
def userHart : Nat := 4

/-- Descriptors held by a queue (R360). -/
def heldBy (s : State) (q : Nat) : Nat := (s.que.held.filter fun d => d.queue == q).length

/-- Descriptors of a queue's own reserve in use. -/
def reserveUsed (s : State) (q : Nat) : Nat := (s.que.held.filter fun d => d.queue == q && !d.shared).length

/-- The sum of all depths. -/
def depthSum (l : List Queue) : Nat := (l.map (·.depth)).sum

/-- Free descriptors of the shared pool (R332). -/
def sharedFree (s : State) : Nat :=
  descriptorTotal - depthSum s.que.queues - (s.que.held.filter fun d => d.shared).length

/-- Whether an assignment set waits for a queue (R336). -/
def assignWaits (s : State) (q : Nat) : Bool := s.que.commit.pending && s.que.copied.queue == q

/-- Whether a queue is a transmit queue: CAN roles 0 to 3, role 0 of the other users (R332). -/
def isTransmit (x : Queue) : Bool :=
  if x.user = userCan then x.role < 4 else (x.user = userPlant || x.user = userSerial || x.user = userHart) && x.role = 0

/-- The queue of a user, unit and role. -/
def queueOf (s : State) (user unit role : Nat) : Option Nat :=
  (List.range 64).find? fun q => let x := queueAt s q; x.user == user && x.unit == unit && x.role == role

/-- The lowest handle that is not held. -/
def freeHandle (s : State) : Nat :=
  ((List.range descriptorTotal).find? fun h => !(s.que.held.any fun d => d.handle == h)).getD 0

def canPort (s : State) (p : Nat) : CanPort := s.can.getD (p - 1) {}

/-- Bits of CANn_CFG (R355). -/
def CanPort.enabled (c : CanPort) : Bool := c.force.cfg.getLsbD 0
def CanPort.fdEn (c : CanPort) : Bool := c.force.cfg.getLsbD 1
def CanPort.xlEn (c : CanPort) : Bool := c.force.cfg.getLsbD 2
def CanPort.listen (c : CanPort) : Bool := c.force.cfg.getLsbD 3
def CanPort.autoRecover (c : CanPort) : Bool := c.force.cfg.getLsbD 4
def CanPort.term (c : CanPort) : Bool := c.force.cfg.getLsbD 5

/-- The payload lengths of FD frames (R327). -/
def fdLengths : List Nat := [0, 1, 2, 3, 4, 5, 6, 7, 8, 12, 16, 20, 24, 32, 48, 64]

/-- Whether a frame's length, identifier and DLC keep R327. -/
def frameFits (f : CanFrame) : Bool :=
  let kind := f.format % 4
  let ide := f.format / 4 % 2 == 1
  let brs := f.format / 8 % 2 == 1
  let rtr := f.format / 16 % 2 == 1
  let idOk := f.id < (if ide then 2 ^ 29 else 2 ^ 11)
  if kind = 0 then idOk && !brs && f.length ≤ 8
  else if kind = 1 then idOk && !rtr && fdLengths.contains f.length
  else kind == 2 && !ide && !brs && !rtr && f.id < 2 ^ 11 && 1 ≤ f.length && f.length ≤ 2048

/-- Whether a port has a format enabled (R328). -/
def formatEnabled (c : CanPort) (format : Nat) : Bool :=
  format % 4 == 0 || (format % 4 == 1 && c.fdEn) || (format % 4 == 2 && c.xlEn)

/-- Results of R334. -/
def resOk : Nat := 0
def resFull : Nat := 1
def resFormat : Nat := 2
def resRefused : Nat := 3
def resStandby : Nat := 4

/-- Whether an entry of a queue that is not a port's has the length of its user: a PDU of 1 to 253 bytes, a message of up to 1,024 (R482,
R495). -/
def lengthFits (user length : Nat) : Bool :=
  if user = userSerial then decide (1 ≤ length) && decide (length ≤ 253) else user != userPlant || decide (length ≤ 1024)

/-- The result an enqueue returns, before a place is looked for (R334, R336, R351). DEDUCED (assumption 163). -/
def enqueueCheck (s : State) (q : Nat) (f : CanFrame) : Nat :=
  let x := queueAt s q
  let c := canPort s x.unit
  if !isTransmit x || x.disabled || assignWaits s q || (x.user = userCan && c.st == .off) then resRefused
  else if s.sys.role == .standby || s.sys.role == .jack then resStandby
  else if x.user = userCan && !(formatEnabled c f.format && frameFits f) then resFormat
  else if !lengthFits x.user f.length then resFormat
  else resOk

def onQueueAt (q : Nat) (f : Queue → Queue) (s : State) : State :=
  onQue (fun e => { e with queues := e.queues.modify q f }) s

/-- An update of one held descriptor. -/
def onDesc (h : Nat) (f : Desc → Desc) (s : State) : State :=
  onQue (fun e => { e with held := e.held.map fun d => if d.handle = h then f d else d }) s

/-- Whether the unit and role of a queue suit its user (R332). -/
def Queue.ok (q : Queue) : Bool :=
  match q.user with
  | 0 => true
  | 1 => decide (1 ≤ q.unit) && decide (q.unit ≤ 4) && decide (q.role < 8)
  | 2 => decide (q.unit < 4) && decide (q.role < 2)
  | 3 => decide (1 ≤ q.unit) && decide (q.unit ≤ 2) && decide (q.role < 2)
  | 4 => decide (q.unit < 16) && q.role == 0
  | _ => false

/-- Whether the queues of a table keep R332: each enabled CAN port has exactly one queue for each of its roles, and the depths fit. -/
def queuesFit (s : State) (l : List Queue) : Bool :=
  decide (depthSum l ≤ descriptorTotal) &&
  [1, 2, 3, 4].all fun p =>
    !(canPort s p).enabled || (List.range 8).all fun role =>
      (l.filter fun q => q.user == userCan && q.unit == p && q.role == role).length == 1

/-- The boundary of QUE_COMMIT (R336): the named queue holds no descriptor. -/
def queBoundary (s : State) : State :=
  let c := s.que.copied
  if s.que.commit.pending && heldBy s c.queue == 0 then
    let x := { queueAt s c.queue with user := c.user, unit := c.unit, role := c.role, depth := c.depth }
    let l := s.que.queues.set c.queue x
    onQue (fun e =>
      let e := { e with commit := { e.commit with pending := false } }
      if x.ok && decide (c.depth ≤ descriptorTotal) && queuesFit s l then { e with queues := l }
      else { e with flags := flag 2 e.flags }) s
  else s

/-- A held descriptor goes back to FREE; an assignment may have waited for it. -/
def freeDesc (h : Nat) (s : State) : State :=
  queBoundary (onQue (fun e => { e with held := e.held.filter fun d => d.handle != h }) s)

def descOf (s : State) (h : Nat) : Option Desc := s.que.held.find? fun d => d.handle == h

/-- Results of R340. -/
def retSent : Nat := 0
def retCancelled : Nat := 1
def retCancelledAfter : Nat := 2
def retExpired : Nat := 3
def retWindowMissed : Nat := 4
def retSingleShot : Nat := 5
def retMemError : Nat := 6
def retRoleLost : Nat := 7
def retPortOff : Nat := 8

/-- The HART channels and the serial lines go on without an entry that has retired. -/
def dropAttempt (h : Nat) (s : State) : State :=
  { s with
    ana := { s.ana with tx := s.ana.tx.filter fun p => p.2.handle != some h }
    ser := { s.ser with lines := s.ser.lines.map fun l => if l.tx.any (fun t => t.handle == some h) then { l with tx := none } else l } }

/-- A transmit entry retires with a result, once (R333, R340). The runtime takes and acknowledges its own entries, so they go
back to FREE. A reply replaces the data where the user keeps one. -/
def retire (h result : Nat) (reply : Option (List Byte)) (s0 : State) : State :=
  let s := dropAttempt h s0
  match descOf s h with
  | none => s
  | some d =>
    if d.st == .retired || d.st == .filled then s
    else if d.owner == .program then freeDesc h s
    else onDesc h (fun d =>
      { d with
        st := .retired, result := result, ts := s.mono
        frame := match reply with
          | none => d.frame
          | some b => { d.frame with data := b, length := b.length } }) s

/-- Whether a queue belongs to a serial line that is not a master: its entries retire with PORT_OFF (R495). -/
def serialOff (s : State) (q : Nat) : Bool :=
  let x := queueAt s q
  x.user == userSerial && (s.ser.lines.getD (x.unit - 1) {}).role != 1

/-- Whether a queue belongs to a HART channel with HART_EN clear, or whose group is LOST (R405). -/
def hartOff (s : State) (q : Nat) : Bool :=
  let x := queueAt s q
  x.user == userHart && (!(anaCh s x.unit).hartEn || (fieldGroup s (x.unit / 4)).st == .lost)

/-- An enqueue (R334): its result, the handle of an accepted entry, and the state. -/
def enqueue (owner : Requester) (q : Nat) (f : CanFrame) (expiry : Option Nat) (oneShot : Bool)
    (defn : Option (Nat × Nat)) (client : Option Nat) (s : State) : Nat × Nat × State :=
  let r := enqueueCheck s q f
  if r ≠ resOk then (r, 0, onQue (fun e => { e with flags := flag 1 e.flags }) s)
  else
    let own := reserveUsed s q < (queueAt s q).depth
    if own || 0 < sharedFree s then
      let h := freeHandle s
      let c := canPort s (queueAt s q).unit
      let late := (queueAt s q).user = userCan && (c.st == .busOff || c.st == .recovering)
      let d : Desc :=
        { handle := h, queue := q, st := .pending, owner := owner, frame := f, expiry := expiry, oneShot := oneShot,
          result := 0, flags := if late then 2 else 0, ts := 0, taken := false, cancel := false, defn := defn,
          shared := !own, client := client }
      let s := onQue (fun e => { e with held := e.held ++ [d] }) s
      (resOk, h, if serialOff s q || hartOff s q then retire h retPortOff none s else s)
    else
      (resFull, 0, onQueueAt q (fun x => { x with full := satInc 32 x.full })
        (onQue (fun e => { e with flags := flag 0 e.flags }) s))

/-- A received frame or status entry finds a place in its queue's reserve, or is dropped and counted (R333, R335).
DEDUCED (assumption 164). -/
def fill (q : Nat) (f : CanFrame) (flags ts : Nat) (client : Option Nat) (s : State) : State :=
  let x := queueAt s q
  if reserveUsed s q < x.depth && !assignWaits s q && !x.disabled then
    let d : Desc :=
      { handle := freeHandle s, queue := q, st := .filled, owner := .sdk, frame := f, expiry := none, oneShot := false,
        result := 0, flags := flags, ts := ts, taken := false, cancel := false, defn := none, shared := false,
        client := client }
    onQue (fun e => { e with held := e.held ++ [d] }) s
  else
    let s := onQueueAt q (fun x => { x with overflows := satInc 32 x.overflows }) s
    let s := onQue (fun e => { e with flags := flag 3 e.flags }) s
    if x.user = userCan then onCan x.unit (fun c => { c with flags := flag 2 c.flags }) s else s

/-- Every transmit entry of a user that is PENDING or in ATTEMPT, in the queues a test names, retires with a result. -/
def retireAll (which : Queue → Bool) (result : Nat) (s : State) : State :=
  forAll (s.que.held.filter fun d =>
    (d.st == .pending || d.st == .attempt) && which (queueAt s d.queue)) (fun d t => retire d.handle result none t) s

/-! ### The registers of a requester (R358, R359) -/

def Requester.ofReader : Reader → Requester
  | .sdk => .sdk
  | .plant => .plant

def queBank (s : State) : Reader → QueBank
  | .sdk => s.que.sdk
  | .plant => s.que.plant

def onQueBank (r : Reader) (f : QueBank → QueBank) (s : State) : State :=
  onQue (fun e => match r with
    | .sdk => { e with sdk := f e.sdk }
    | .plant => { e with plant := f e.plant }) s

/-- Whether a requester may write a window (R27, R131, R481): a native block that owns it for writing, or WRITE_WINDOWS of
the key. Windows are numbered in the order of R24. -/
def mayWrite (s : State) (r : Reader) (win : Nat) : Bool :=
  match r with
  | .sdk => s.cyc.natives.any fun n => n.write.testBit win
  | .plant => s.plant.windows.testBit win

/-- The staged entry of a requester: LENGTH bytes, unwritten ones 0; a remote frame has none (R327). -/
def stagedFrame (b : QueBank) : CanFrame :=
  let len := field b.head 0 12
  { format := field b.head 16 5, id := b.id, length := len,
    data := if (field b.head 16 5).testBit 4 then [] else (b.data ++ List.replicate len 0).take len,
    sdt := field b.xl 24 8, vcid := field b.xl 16 8, sec := field b.xl 0 1, af := b.af.toNat }

/-- A write of QUE_TX_HEAD: the fields, and the data pointer to 0. -/
def writeTxHead (r : Reader) (v : Word) (s : State) : State :=
  onQueBank r (fun b => { b with head := v &&& 0x3F1F0FFF, ptr := 0, data := [] }) s

/-- A write of QUE_TX_DATA: 4 bytes at the pointer; bytes beyond LENGTH are ignored. -/
def writeTxData (r : Reader) (v : Word) (s : State) : State :=
  onQueBank r (fun b =>
    let len := field b.head 0 12
    if b.ptr < len then
      { b with data := ((b.data ++ List.replicate (b.ptr - b.data.length) 0) ++ leBytes 4 v.toNat).take len,
               ptr := b.ptr + 4 }
    else b) s

/-- Queues of the window QUE in WRITE_WINDOWS and WRITE (R131): the eleventh of R24. -/
def winQue : Nat := 10

/-- A write of QUE_TX_CTRL: ONE_SHOT, and with GO the enqueue of the staged entry (R359). -/
def writeTxCtrl (r : Reader) (v : Word) (s : State) : State :=
  let s := onQueBank r (fun b => { b with oneShot := v.getLsbD 30 }) s
  if v.getLsbD 31 then
    let b := queBank s r
    let q := field b.head 24 6
    let exp := if b.expiry = 0 then none else some b.expiry
    if mayWrite s r winQue then
      let (res, h, s) := enqueue (.ofReader r) q (stagedFrame b) exp b.oneShot none none s
      onQueBank r (fun b => { b with result := res, handle := if res = resOk then h else b.handle }) s
    else onQueBank r (fun b => { b with result := resRefused })
      (onQue (fun e => { e with flags := flag 1 e.flags }) s)
  else s

/-- A cancel request of an entry (R339): refused for one that is not held, not owned or retired; a PENDING one retires at
once; one in ATTEMPT is sampled as the attempt ends. -/
def cancelEntry (o : Requester) (h : Nat) (s : State) : Bool × State :=
  match descOf s h with
  | none => (false, s)
  | some d =>
    if d.owner ≠ o then (false, s)
    else match d.st with
      | .pending => (true, retire h retCancelled none s)
      | .attempt => (true, onDesc h (fun d => { d with cancel := true }) s)
      | _ => (false, s)

/-- A write of QUE_CANCEL. -/
def writeCancel (r : Reader) (v : Word) (s : State) : State :=
  let h := field v 0 11
  let s := onQueBank r (fun b => { b with cancel := h }) s
  if v.getLsbD 31 then
    let (ok, s) := cancelEntry (.ofReader r) h s
    let s := onQueBank r (fun b => { b with cancelRefused := !ok }) s
    if ok then s else onQue (fun e => { e with flags := flag 1 e.flags }) s
  else s

/-- Whether a requester may take or acknowledge an entry (R333): its own retired ones, and FILLED ones that the other has
not taken. -/
def mayTake (o : Requester) (d : Desc) : Bool :=
  (d.st == .retired && d.owner == o) || (d.st == .filled && (!d.taken || d.owner == o))

/-- A write of QUE_TAKE_SEL: with TAKE the oldest entry is latched (R359). -/
def writeTakeSel (r : Reader) (v : Word) (s : State) : State :=
  let q := field v 0 6
  let s := onQueBank r (fun b => { b with takeSel := q }) s
  if v.getLsbD 31 then
    let o := Requester.ofReader r
    match s.que.held.find? fun d => d.queue == q && !d.taken && mayTake o d with
    | none => onQueBank r (fun b => { b with takeValid := false }) s
    | some d =>
      onDesc d.handle (fun d => { d with taken := true, owner := o })
        (onQueBank r (fun b => { b with takeValid := true, taken := some d, takePtr := 0 }) s)
  else s

/-- A read of QUE_TAKE_DATA: the next 4 bytes of the latched entry; beyond LENGTH it returns 0. -/
def readTakeData (r : Reader) (s : State) : Word × State :=
  let b := queBank s r
  let data := match b.taken with
    | none => []
    | some d => d.frame.data
  (BitVec.ofNat 32 (fld data b.takePtr 4), onQueBank r (fun b => { b with takePtr := b.takePtr + 4 }) s)

/-- A write of QUE_ACK (R359): the entry's descriptor goes free. -/
def writeAck (r : Reader) (v : Word) (s : State) : State :=
  let h := field v 0 11
  let s := onQueBank r (fun b => { b with ack := h }) s
  if v.getLsbD 31 then
    let ok := match descOf s h with
      | none => false
      | some d => mayTake (.ofReader r) d
    let s := onQueBank r (fun b => { b with ackRefused := !ok }) s
    if ok then freeDesc h s else onQue (fun e => { e with flags := flag 1 e.flags }) s
  else s

end Sys2Proof.Machine
end

