-- ==== Sys2Proof/Machine/Digital.lean ====
section
/-! DEFINITION. The commands of the digital channels (14_digital_channels.md R364 to R377). -/

namespace Sys2Proof.Machine

/-- A change of a debounced input level, or of an output's readback (R365, R366, R369). -/
def dioLevel (n : Nat) (level : Bool) (s : State) : State :=
  onDioCh n (fun c =>
    if c.mode.isInput then { c with level := level, valid := !(fieldGroup s (n / 8)).st.dead }
    else { c with readback := level, extNow := c.extNow && level, lowNow := c.lowNow && !level }) s

/-- DIO_DEBOUNCE (R365, R366): the debounced state of channel `n` takes a level it has held for its debounce time; for an
output the readback changes. -/
def execDioDebounce (n : Nat) (level : Bool) (s : State) : Out := answer (settle s (dioLevel n level s))

/-- Whether R370 runs on a channel: every output, but for a PAIR_WIRED one of a STANDBY (R375). -/
def dioRuns370 (s : State) (c : DioCh) : Bool :=
  c.mode == .output || c.mode == .timedPulse || (c.mode == .pairWired && s.sys.role != .standby)

/-- Whether a channel's stage has stood as it is for `ms` (R370, R372). -/
def DioCh.stood (c : DioCh) (ms : Nat) (s : State) : Bool := decide (c.since + ms * 1000000 ≤ s.mono)

/-- A short is found (R370): readback low for 2 ms with the stage on. -/
def dioShort (n : Nat) (thermal : Bool) (s : State) : State :=
  let c := dioCh s n
  if dioRuns370 s c && c.ostate == .normal && c.stage && c.stood 2 s then
    let s := onDioCh n (fun c =>
      { c with
        ostate := .shortWait, retries := 0, readback := false, foundAt := some s.mono
        diag := if thermal then setBit (setBit c.diag 3 true) 4 true else setBit c.diag 3 true }) s
    raise .dioShort .fault n 0 0 0 (onDio (fun d => { d with flags := flag 1 d.flags }) s)
  else s

/-- DIO_SHORT (R370). -/
def execDioShort (n : Nat) (thermal : Bool) (s : State) : Out := answer (settle s (dioShort n thermal s))

/-- A retry of a channel in SHORT_WAIT whose command is on (R370), not while its group keeps its state (R374). -/
def dioRetry (n : Nat) (s : State) : State :=
  let c := dioCh s n
  if dioRuns370 s c && c.ostate == .shortWait && c.stood 100 s && dioWants s n && !(fieldGroup s (n / 8)).st.off then
    onDioCh n (fun c => { c with ostate := .retry, retries := min (c.retries + 1) 10 }) s
  else s

/-- DIO_RETRY (R370): 100 ms since the stage went off. -/
def execDioRetry (n : Nat) (s : State) : Out := answer (settle s (dioRetry n s))

/-- The check of a retry, 2 ms after switch-on (R370); an attempt whose command has gone off meanwhile ends in SHORT_WAIT. A group that is off keeps
the state (R374). -/
def dioRetryCheck (n : Nat) (high : Bool) (s : State) : State :=
  let c := dioCh s n
  if c.ostate == .retry && !(fieldGroup s (n / 8)).st.off then
    if !dioWants s n then onDioCh n (fun c => { c with ostate := .shortWait }) s
    else if !c.stood 2 s then s
    else if high then
      raise .dioRecovered .notice n 0 0 0
        (onDioCh n (fun c => { c with ostate := .normal, retries := 0, readback := true }) s)
    else if c.retries < 10 then onDioCh n (fun c => { c with ostate := .shortWait, readback := false, foundAt := some s.mono }) s
    else
      raise .dioLatched .fault n 0 0 0
        (onDio (fun d => { d with flags := flag 2 d.flags })
          (onDioCh n (fun c => { c with ostate := .latched, readback := false, foundAt := some s.mono }) s))
  else s

/-- DIO_RETRY_CHECK (R370). -/
def execDioRetryCheck (n : Nat) (high : Bool) (s : State) : Out := answer (settle s (dioRetryCheck n high s))

/-- A write of DIO_CLEAR (R371): each 1 clears its channel. -/
def dioClearMask (mask : Word) (s : State) : State :=
  forAll (List.range 32) (fun n t => if mask.getLsbD n then dioClear n t else t) s

/-- DIO_CLEAR (R371, R378). -/
def execDioClear (mask : Word) (s : State) : Out := answer (settle s (dioClearMask mask s))

/-- An external feed is found (R372): the standing condition, and flag and record until the bit is cleared. -/
def dioExtFeed (n : Nat) (s : State) : State :=
  let c := dioCh s n
  if !c.stage && c.stood 2 s && extFeedReports s n then
    let s := onDioCh n (fun c => { c with readback := true, extNow := true }) s
    if c.diag.getLsbD 2 then s
    else
      raise .dioExtFeed .notice n 0 0 0
        (onDio (fun d => { d with flags := flag 0 d.flags })
          (onDioCh n (fun c => { c with diag := setBit c.diag 2 true }) s))
  else s

/-- DIO_EXT_FEED (R372, R375): the stage off and the readback high for 2 ms. -/
def execDioExtFeed (n : Nat) (s : State) : Out := answer (settle s (dioExtFeed n s))

/-- A PAIR_WIRED channel of a standby reads low while the active commands it on (R375). -/
def dioPartnerLow (n : Nat) (s : State) : State :=
  let c := dioCh s n
  if c.mode == .pairWired && pairCommanded s n == some true then
    let s := onDioCh n (fun c => { c with readback := false, lowNow := true }) s
    if c.diag.getLsbD 7 then s
    else
      raise .dioPartnerLow .notice n 0 0 0
        (onDio (fun d => { d with flags := flag 3 d.flags })
          (onDioCh n (fun c => { c with diag := setBit c.diag 7 true }) s))
  else s

/-- DIO_PARTNER_LOW (R375). -/
def execDioPartnerLow (n : Nat) (s : State) : Out := answer (settle s (dioPartnerLow n s))

/-- The controller's refresh of every stage (R376, R398): each follows the controller again. -/
def stagesRefreshed (s : State) : State :=
  { s with
    dio := { s.dio with ch := s.dio.ch.map fun c => { c with silent := false, commanded := false }, refreshAt := s.mono }
    ana := { s.ana with ch := s.ana.ch.map fun c => { c with silent := false, commanded := false } } }

/-- DIO_REFRESH (R376): the refresh of the output stages, made every 1 ms in every mode in which the logic is awake. -/
def execDioRefresh (s : State) : Out :=
  answer (if s.pwr.railsOff || s.sys.mode == .harbour then s else settle s (stagesRefreshed s))

/-- A digital stage without refresh for REFRESH_MS applies its policy by itself (R376): LOGIC_SILENT, unless a power-down or
harbour-watch entry commanded it. -/
def dioSilence (n : Nat) (s : State) : State :=
  onDioCh n (fun c =>
    if c.mode.isOutput || c.mode == .timedPulse then
      if c.commanded then { c with silent := true }
      else { c with silent := true, silentRec := true, diag := setBit c.diag 5 true }
    else c) s

/-- Whether no refresh has come for a time in ms (R376, R398): always where the logic is without power. -/
def refreshLate (ms : Nat) (s : State) : Bool :=
  s.pwr.railsOff || s.sys.mode == .harbour || decide (s.dio.refreshAt + ms * 1000000 ≤ s.mono)

/-- DIO_REFRESH_TIMEOUT (R376). -/
def execDioRefreshTimeout (n : Nat) (s : State) : Out :=
  answer (if refreshLate (s.dio.groups.getD (n / 8) {}).refreshMs s then settle s (dioSilence n s) else s)

end Sys2Proof.Machine
end

