-- ==== Sys2Proof/Machine/Analogue.lean ====
section
/-! DEFINITION. The commands of the analogue channels and HART (15_analogue_channels.md R386 to R405). -/

namespace Sys2Proof.Machine

/-- Whether an input mode. -/
def AnaMode.isInput (m : AnaMode) : Bool := m != .off && !m.isOutput

/-- The quality of an input's VALUE (R72, R393, R395). -/
def anaQuality (s : State) (n : Nat) : Byte :=
  let c := anaCh s n
  if !c.valid || (fieldGroup s (n / 4)).st.dead then qSupply
  else if c.standing &&& 0x023C != 0 then qFault
  else qGood

/-- The entries of an ANA source item of a channel (R406). -/
def isAnaItem (n item : Nat) (e : SigEntry) : Bool := e.kind == 3 && field e.ref 0 4 == n && field e.ref 8 2 == item

/-- The VALUE entries of a channel are written (R388). -/
def writeAnaValue (n : Nat) (s : State) : State :=
  let c := anaCh s n
  let q := anaQuality s n
  updateWhere (isAnaItem n 0) (fun e => some (anaValue c e.typ c.value, q)) s

/-- The READBACK entries of a channel are written (R406). -/
def writeAnaReadback (n : Nat) (s : State) : State :=
  updateWhere (isAnaItem n 2) (fun _ => some (BitVec.ofInt 64 (anaCh s n).readback, qGood)) s

/-! ### From a measurement to counts (R383, R384, R394) -/

/-- The Callendar-Van Dusen equation: R(T) / R0 times 10^27, T in 0.001 °C, with the coefficients of IEC 60751 for α = 0.00385 /°C (R394).
PRESUMED (assumption 254). -/
def vanDusen (t : Int) : Int :=
  10 ^ 27 + 39083 * 10 ^ 17 * t - 5775 * 10 ^ 11 * t ^ 2 - (if t < 0 then 4183 * (t - 100000) * t ^ 3 else 0)

/-- The resistance of an element at 0 °C in mΩ. -/
def AnaCh.rZero (c : AnaCh) : Int := if c.pt1000 then 1000000 else 100000

/-- The greatest temperature that is not further from a resistance than the one below it, in `2 ^ bits` steps from `t` on: the nearest. -/
def nearestTemp (rZero mohm : Int) : Nat → Int → Int
  | 0, t => t
  | bits + 1, t =>
    let u := t + 2 ^ bits
    nearestTemp rZero mohm bits (if rZero * (vanDusen (u - 1) + vanDusen u) ≤ 2 * 10 ^ 27 * mohm then u else t)

/-- The resistance at the terminals without the leads, in mΩ: in 2-wire LEAD_MOHM is subtracted, in 3-wire and 4-wire the leads have no part
(R394). -/
def AnaCh.element (c : AnaCh) (raw : Int) : Int := if c.wiring = 0 then raw - c.leadMohm else raw

/-- A measurement in counts before it saturates: µV, nA and mΩ as they are, and the temperature of an RTD or a thermocouple (R384, R394). -/
def AnaCh.measured (c : AnaCh) (cjc raw : Int) : Int :=
  match c.mode with
  | .rtd => nearestTemp c.rZero (c.element raw) 21 (-240000)
  | .resistance => c.element raw
  | .thermocouple => Config.thermoTemp c.tcType raw cjc
  | _ => raw

/-- The measurement limits of a channel's mode in counts (R383, R384). DEDUCED (assumption 172). -/
def AnaCh.limits (c : AnaCh) : Int × Int :=
  match c.mode with
  | .voltageIn => (-11000000, 11000000)
  | .rtd => (-200000, 850000)
  | .resistance => (0, 4000000)
  | .thermocouple => Config.thermoRange c.tcType
  | _ => (0, 25000000)

/-- A measurement in counts, saturated at the measurement limit (R393). -/
def AnaCh.counts (c : AnaCh) (cjc raw : Int) : Int := max c.limits.1 (min c.limits.2 (c.measured cjc raw))

/-- Whether a mode keeps the raw mΩ or µV as its READBACK (R406). -/
def AnaCh.keepsRaw (c : AnaCh) : Bool := c.mode == .rtd || c.mode == .resistance || c.mode == .thermocouple

/-- A conversion completes (R386 to R388): an input's value by what was measured in µV, nA or mΩ, or an output's readback in counts.
DEDUCED (assumption 172). -/
def anaConversion (n : Nat) (raw : Int) (s : State) : State :=
  let c := anaCh s n
  let counts := c.counts (s.ana.groups.getD (n / 4) {}).cjc raw
  if c.mode.isOutput then writeAnaReadback n (onAnaCh n (fun c => { c with readback := raw }) s)
  else if c.mode == .off || (fieldGroup s (n / 4)).st.dead then s
  else if 0 < c.discard then onAnaCh n (fun c => { c with discard := c.discard - 1 }) s
  else
    let s := onAnaCh n (fun c =>
      { c with value := counts, valid := true, round := if c.round.length < 8 && s.pwr.hbr == .reading then counts :: c.round else c.round
               readback := if c.keepsRaw then raw else c.readback }) s
    let s := writeAnaValue n s
    if c.keepsRaw then writeAnaReadback n s else s

/-- ANA_CONVERSION (R386, R387, R388). -/
def execAnaConversion (n : Nat) (raw : Int) (s : State) : Out := answer (settle s (anaConversion n raw s))

/-- A diagnostic condition of a channel begins or ends: the standing bit, the sticky bit, FAULT_ANY and a further flag. -/
def anaCondition (n b : Nat) (stands : Bool) (extra : Option Nat) (s : State) : State :=
  let s := onAnaCh n (fun c =>
    { c with
      standing := setBit c.standing b stands
      diag := if stands then setBit c.diag b true else c.diag }) s
  if stands then
    onAna (fun a =>
      { a with flags := match extra with
          | none => flag 0 a.flags
          | some x => flag x (flag 0 a.flags) }) s
  else s

/-- The bit of a fault in ANA_CHn_DIAG. -/
def faultBit : InFault → Nat
  | .overRange => 2
  | .underRange => 3
  | .brokenWire => 4

/-- Whether R393 gives a fault to a channel. -/
def faultApplies (f : InFault) (c : AnaCh) : Bool :=
  match c.mode, f with
  | .voltageIn, .brokenWire => false
  | .voltageIn, _ => true
  | .currentPassive, .overRange | .currentPowered, .overRange | .currentPair, .overRange => true
  | .currentPassive, _ | .currentPowered, _ | .currentPair, _ => c.range420
  | .rtd, _ | .thermocouple, _ => true
  | .resistance, .underRange => false
  | .resistance, _ => true
  | _, _ => false

/-- Whether the channel's last valid conversion shows a fault (R393); none where it does not tell: an open lead, or no conversion yet. -/
def AnaCh.shows (c : AnaCh) (cjc : Int) (f : InFault) : Option Bool :=
  let v := c.measured cjc (if c.keepsRaw then c.readback else c.value)
  if !c.valid then none
  else match c.mode, f with
    | .voltageIn, .overRange => some (decide (10500000 < v))
    | .voltageIn, .underRange => some (decide (v < -10500000))
    | .rtd, .overRange => some (decide (850000 < v))
    | .rtd, .underRange => some (decide (v < -200000))
    | .resistance, .overRange => some (decide (4100000 < v))
    | .thermocouple, .overRange => some (decide (c.limits.2 < v))
    | .thermocouple, .underRange => some (decide (v < c.limits.1))
    | .rtd, .brokenWire | .resistance, _ | .thermocouple, .brokenWire => none
    | _, .overRange => some (decide (21000000 < v))
    | _, .underRange => some (decide (500000 ≤ v) && decide (v < 3600000))
    | _, .brokenWire => some (decide (v < 500000))

/-- An input fault begins or ends (R393), as the conversions show it; BROKEN_WIRE suppresses the range flags. -/
def anaInputFault (n : Nat) (f : InFault) (stands : Bool) (s : State) : State :=
  let c := anaCh s n
  if faultApplies f c && (c.shows (s.ana.groups.getD (n / 4) {}).cjc f).all (· == stands) then
    if stands && f != .brokenWire && c.standing.getLsbD 4 then s
    else
      let s := anaCondition n (faultBit f) stands none s
      let s := if stands && f == .brokenWire then
          onAnaCh n (fun c => { c with standing := setBit (setBit c.standing 2 false) 3 false }) s
        else s
      if (anaCh s n).valid then writeAnaValue n s else s
  else s

/-- ANA_INPUT_FAULT (R393): the condition has held, or has been absent, for 100 ms. -/
def execAnaInputFault (n : Nat) (f : InFault) (stands : Bool) (s : State) : Out :=
  answer (settle s (anaInputFault n f stands s))

/-- Whether the last valid conversion of a powered input contradicts what is said of its current (R392): above 22 mA or not. -/
def AnaCh.denies (c : AnaCh) (stands : Bool) : Bool := c.mode == .currentPowered && c.valid && decide (22000000 < c.value) != stands

/-- LOOP_LIMIT begins or ends (R392). -/
def anaLoopLimit (n : Nat) (stands : Bool) (s : State) : State :=
  let c := anaCh s n
  if (c.mode == .currentPowered || c.mode == .hartMultidrop) && !c.denies stands then
    let s := anaCondition n 5 stands (some 1) s
    if (anaCh s n).valid then writeAnaValue n s else s
  else s

/-- ANA_LOOP_LIMIT (R391, R392). -/
def execAnaLoopLimit (n : Nat) (stands : Bool) (s : State) : Out := answer (settle s (anaLoopLimit n stands s))

/-- Whether an output's last readback conversion shows OPEN_LOOP: below 0.1 mA with the command at 1.0 mA or more (R397). -/
def AnaCh.open (c : AnaCh) : Bool := decide (c.readback < 100000) && decide (1000000 ≤ c.out)

/-- Whether an output's last readback conversion shows a condition of R397; the 25 mA limit of a voltage output is no reading. -/
def AnaCh.outShows (c : AnaCh) : OutCond → Option Bool
  | .openLoop => some c.open
  | .compliance => some (decide (c.readback + 200000 < c.out) && !c.open)
  | .outShort => none

/-- An output condition begins or ends (R397), as the readback shows it: COMPLIANCE only without OPEN_LOOP. -/
def anaOutputDiag (n : Nat) (k : OutCond) (stands : Bool) (s : State) : State :=
  let c := anaCh s n
  if !(c.outShows k).all (· == stands) then s
  else match k with
  | .openLoop =>
    if c.mode == .currentOut then
      let s := anaCondition n 7 stands none s
      if stands then onAnaCh n (fun c => { c with standing := setBit c.standing 6 false }) s else s
    else s
  | .compliance =>
    if c.mode == .currentOut && !(stands && c.standing.getLsbD 7) then anaCondition n 6 stands (some 2) s else s
  | .outShort => if c.mode == .voltageOut then anaCondition n 8 stands none s else s

/-- ANA_OUTPUT_DIAG (R397): five readback conversions in a row with, or without, the condition. -/
def execAnaOutputDiag (n : Nat) (k : OutCond) (stands : Bool) (s : State) : Out :=
  answer (settle s (anaOutputDiag n k stands s))

/-- The cold-junction temperature in force of a group, in 0.01 °C (R395). -/
def cjcInForce (s : State) (g : Nat) (internal : Int) : Int :=
  let x := s.ana.groups.getD g {}
  if x.cjcSource = 0 then internal
  else if x.cjcSource ≤ 4 then divEven (anaCh s (4 * g + (x.cjcSource - 1))).value 10
  else x.cjcFixed

/-- Whether CJC_FAULT stands in a group (R395). -/
def cjcFaulty (s : State) (g : Nat) (internal : Int) : Bool :=
  let x := s.ana.groups.getD g {}
  internal < -4000 || 8500 < internal
  || (1 ≤ x.cjcSource && x.cjcSource ≤ 4 && qClass (anaQuality s (4 * g + (x.cjcSource - 1))) == 0)

/-- The loop supply of a group in 0.1 V (R391, R410): none while its L+ is lost, else a free value from 21.0 V to 22.5 V.
DESIGN CHOICE (assumption 249). -/
def loopVolts (g : Nat) (s : State) : Nat × State :=
  if (fieldGroup s g).st.dead then (0, s) else freed (fun k => 210 + Config.freeNat k % 16) s

/-- A group's cold-junction sensor and loop supply are read (R395, R410). -/
def cjcRead (g : Nat) (internal : Int) (s : State) : State :=
  let bad := cjcFaulty s g internal
  let was := (s.ana.groups.getD g {}).cjcFault
  let (volts, s) := loopVolts g s
  let s := onAna (fun a => { a with groups := a.groups.modify g fun x =>
    { x with cjc := cjcInForce s g internal, cjcFault := bad, loopSupply := volts } }) s
  if bad = was then s
  else forAll (List.range 4) (fun k t =>
    let n := 4 * g + k
    if (anaCh t n).mode == .thermocouple then
      let t := anaCondition n 9 bad (some 4) t
      if (anaCh t n).valid then writeAnaValue n t else t
    else t) s

/-- CJC_READ (R395). -/
def execCjcRead (g : Nat) (internal : Int) (s : State) : Out := answer (settle s (cjcRead g internal s))

/-- An analogue stage without refresh applies its policy (R398). -/
def anaSilence (n : Nat) (s : State) : State :=
  onAnaCh n (fun c =>
    if c.mode.isOutput then
      if c.commanded then { c with silent := true }
      else { c with silent := true, silentRec := true, diag := setBit c.diag 11 true }
    else c) s

/-- ANA_REFRESH_TIMEOUT (R398). -/
def execAnaRefreshTimeout (n : Nat) (s : State) : Out :=
  answer (if refreshLate (s.ana.groups.getD (n / 4) {}).refreshMs s then settle s (anaSilence n s) else s)

/-! ### HART (R401 to R405) -/

/-- Whether HART runs on a channel (R404): SOLO or ACTIVE, HART_EN set, the group not LOST or QUALIFYING. -/
def hartRuns (s : State) (n : Nat) : Bool :=
  takesCommands s && (anaCh s n).hartEn && !(fieldGroup s (n / 4)).st.dead
  && (s.sys.mode == .run || s.sys.mode == .stop || s.sys.mode == .hold)

/-- Whether polls and queue transmissions of a channel are suspended (R404). -/
def hartSuspended (s : State) (n : Nat) : Bool := s.ana.suspend.getLsbD n

def hartDev (s : State) (n slot : Nat) : Option HartDev :=
  s.ana.devs.find? fun d => d.channel == n && d.slot == slot

def onHartDev (n slot : Nat) (f : HartDev → HartDev) (s : State) : State :=
  onAna (fun a => { a with devs := a.devs.map fun d => if d.channel = n ∧ d.slot = slot then f d else d }) s

/-- The entries of a device. -/
def isHartEntry (n slot : Nat) (e : SigEntry) : Bool := e.kind == 7 && field e.ref 0 4 == n && field e.ref 4 4 == slot

/-- What a response writes to one entry of its device (R403, R406). -/
def hartItem (r : HartReply) (e : SigEntry) : Option (Datum × Byte) :=
  let item := field e.ref 8 3
  if item = 5 then some (BitVec.ofNat 64 (r.code % 256 * 256 + r.status.toNat), if r.status.getLsbD 7 then qFault else qGood)
  else if r.error then none
  else
    let v := valueOfNum e.typ (numOf f32 (r.vars.getD item 0).toNat)
    some (v, if r.status.getLsbD 7 then qFault else if item = 0 && r.status.getLsbD 3 then qSubst else qGood)

/-- A valid response or burst frame of a device (R403, R409): the absence ends and the count advances. -/
def hartHeard (n slot : Nat) (s : State) : State :=
  onHartDev n slot (fun d => { d with absent := false, failed := 0, heardAt := s.mono })
    (onAnaCh n (fun c => { c with hartCount := satInc 16 c.hartCount }) s)

/-- What a response to a queue entry writes to one entry of its device, which keeps its value (R403): STATUS, and the quality; an entry in the stale
phase waits for its value. DEDUCED (assumption 280). -/
def hartQuality (s : State) (i : Nat) (r : HartReply) (e : SigEntry) : Option (Datum × Byte) :=
  if field e.ref 8 3 = 5 then hartItem r e
  else if e.stale then none
  else (hartItem r e).map fun x => (ownValue s i, x.2)

/-- A valid response to a queue entry: the qualities of its device's entries follow it (R403). -/
def hartTold (n slot : Nat) (r : HartReply) (s : State) : State :=
  forAll (s.sig.entries.filter fun p => isHartEntry n slot p.2) (fun p t =>
    match hartQuality t p.1 r p.2 with
    | none => t
    | some (v, q) => writeEntry p.1 v q t) (hartHeard n slot s)

/-- A valid answer to a poll, or a burst frame: the entries of its device are written. -/
def hartAnswered (n slot : Nat) (r : HartReply) (s : State) : State :=
  updateWhere (isHartEntry n slot) (hartItem r) (hartHeard n slot s)

/-- A device is declared absent (R403). -/
def hartAbsent (n slot : Nat) (s : State) : State :=
  match hartDev s n slot with
  | none => s
  | some d =>
    if d.absent then s
    else
      let s := onHartDev n slot (fun d => { d with absent := true }) s
      let s := onAnaCh n (fun c => { c with diag := setBit c.diag 10 true }) s
      let s := onAna (fun a => { a with flags := flag 3 a.flags }) s
      declareAbsent (isHartEntry n slot) (raise .hartDeviceAbsent .notice n n slot 0 s)

/-- The transmit queue of a channel (R405). -/
def hartQueue (s : State) (n : Nat) : Option Nat := queueOf s userHart n 0

/-- The address bytes of a frame to a device (R401): the long address where it is known, else the polling address; bit 7 of the first
byte names the primary master. PRESUMED (assumption 248). -/
def hartAddress : Option HartDev → List Byte
  | none => []
  | some d =>
    if d.longAddr = 0 then [BitVec.ofNat 8 (128 + d.pollAddr % 64)]
    else BitVec.ofNat 8 (128 + d.longAddr % 64) :: (List.range 4).map fun k => BitVec.ofNat 8 (d.longAddr / 256 ^ (k + 1))

/-- An attempt of a channel's transaction goes out: its address, its command and its data (R401, R402). -/
def hartSend (n : Nat) (t : HartTx) (data : List Byte) (s : State) : State :=
  send .hart n (t.handle.getD t.slot) (hartAddress (hartDev s n t.slot) ++ BitVec.ofNat 8 t.cmd :: data)
    (onAna (fun a => { a with tx := put n t a.tx }) s)

/-- The transaction of a channel ends. -/
def hartIdle (n : Nat) (s : State) : State := onAna (fun a => { a with tx := del n a.tx }) s

/-- The waiting entry of a channel's queue that goes next (R402). -/
def hartWaits (s : State) (n : Nat) : Option Desc :=
  (hartQueue s n).bind fun q => s.que.held.find? fun d => d.queue == q && d.st == .pending

/-- One waiting entry of the channel's queue is sent (R402). -/
def hartEntry (n : Nat) (s : State) : State :=
  if hartSuspended s n || !hartRuns s n then hartIdle n s
  else match hartWaits s n with
    | none => hartIdle n s
    | some d =>
      hartSend n { slot := d.frame.id / 2 ^ 16 % 16, handle := some d.handle, attempt := 1, cmd := d.frame.id % 256, at_ := s.mono }
        d.frame.data (onDesc d.handle (fun d => { d with st := .attempt }) s)

/-- Whether a device's long address is still to be read (R401). -/
def hartUnread (s : State) (n slot : Nat) : Bool := (hartDev s n slot).any fun d => d.longAddr == 0

/-- First contact with a device: command 0 (R401). -/
def hartContact (n slot : Nat) (s : State) : State :=
  hartSend n { slot := slot, handle := none, attempt := 1, cmd := 0, at_ := s.mono } [] s

/-- After a poll, one waiting entry of the channel's queue is sent (R402), after command 0 where its device's long address is not known (R401). -/
def hartAfterPoll (n : Nat) (s : State) : State :=
  match hartWaits s n with
  | none => hartIdle n s
  | some d =>
    let slot := d.frame.id / 2 ^ 16 % 16
    if hartUnread s n slot && !hartSuspended s n && hartRuns s n then hartContact n slot s else hartEntry n s

/-- Whether a device is the one a channel polls next (R402): due, and none of the channel's is due before it or with it in a lower slot. -/
def hartNext (s : State) (d : HartDev) : Bool :=
  d.poll && decide (d.due ≤ s.mono) && s.ana.devs.all fun e =>
    e.channel != d.channel || !e.poll || decide (d.due < e.due) || (e.due == d.due && decide (d.slot ≤ e.slot))

/-- A poll of a device starts (R402): by command 3, or by command 0 at first contact where its long address is not known (R401). -/
def hartPoll (n slot : Nat) (s : State) : State :=
  match hartDev s n slot, look n s.ana.tx with
  | some d, none =>
    if hartNext s d && hartRuns s n && !hartSuspended s n then
      hartSend n { slot := slot, handle := none, attempt := 1, cmd := if d.longAddr = 0 then 0 else 3, at_ := s.mono } []
        (onHartDev n slot (fun d => { d with due := s.mono + d.pollMs * 1000000 }) s)
    else s
  | _, _ => s

/-- HART_POLL (R402). -/
def execHartPoll (n slot : Nat) (s : State) : Out := answer (hartPoll n slot s)

/-- The long address in the data of an answer to command 0, its five bytes as a number; none where the data is too short.
PRESUMED (assumption 248). -/
def longAddress (data : List Byte) : Option Nat :=
  if data.length < 12 then none else some (leNat ([data.getD 1 0 &&& 0x3F, data.getD 2 0] ++ slice data 9 3))

/-- A valid answer to the poll in progress (R401 to R403): one to command 0 gives the long address, and command 3 follows it for a device that is
polled. -/
def hartPolled (n : Nat) (t : HartTx) (r : HartReply) (s : State) : State :=
  if t.cmd = 3 then hartAfterPoll n (hartAnswered n t.slot r s)
  else match if r.error then none else longAddress r.data with
    | none => hartEntry n (hartAnswered n t.slot { r with error := true } s)
    | some a =>
      let s := onHartDev n t.slot (fun d => { d with longAddr := a }) (hartHeard n t.slot s)
      if (hartDev s n t.slot).any (·.poll) then hartSend n { t with cmd := 3, attempt := 1, at_ := s.mono } [] s
      else hartAfterPoll n s

/-- A valid response to the transaction in progress (R402, R403, R405). DEDUCED (assumption 247). -/
def hartResponse (n : Nat) (r : HartReply) (s : State) : State :=
  match look n s.ana.tx with
  | none => s
  | some t =>
    match t.handle with
    | none => hartPolled n t r s
    | some h =>
      let late := match descOf s h with
        | none => false
        | some d => d.cancel
      let s := if t.cmd = 3 then hartAnswered n t.slot r s else hartTold n t.slot r s
      let s := if late then onDesc h (fun d => { d with flags := d.flags ||| 1 }) s else s
      retire h retSent (some (BitVec.ofNat 8 r.code :: r.status :: r.data))
        (hartIdle n s)

/-- HART_RESPONSE (R402, R403). -/
def execHartResponse (n : Nat) (r : HartReply) (s : State) : Out := answer (settle s (hartResponse n r s))

/-- How a queue entry ends whose attempt brought nothing: cancelled, expired, or another attempt (R338, R339, R405). -/
def attemptFails (s : State) (d : Desc) (last : Bool) : Option Nat :=
  if d.cancel then some retCancelledAfter
  else match d.expiry with
    | some t => if t ≤ s.mono then some retExpired else if last then some retSingleShot else none
    | none => if last then some retSingleShot else none

/-- 305 ms without a valid response (R402, R403): another attempt, at most three, and none while the channel is suspended, where an
entry waits again. DEDUCED (assumption 247). -/
def hartTimeout (n : Nat) (s : State) : State :=
  match look n s.ana.tx with
  | none => s
  | some t =>
    let again : HartTx := { t with attempt := t.attempt + 1, at_ := s.mono }
    if s.mono < t.at_ + 305000000 then s
    else match t.handle with
    | none =>
      if hartSuspended s n then hartIdle n s
      else if t.attempt < 3 then hartSend n again [] s
      else if (hartDev s n t.slot).any (·.poll) then
        let s := onHartDev n t.slot (fun d => { d with failed := d.failed + 1 }) s
        let failed : Nat := ((hartDev s n t.slot).map (·.failed)).getD 0
        hartEntry n (if 3 ≤ failed then hartAbsent n t.slot s else s)
      else hartEntry n s
    | some h =>
      match descOf s h with
      | none => hartIdle n s
      | some d =>
        match attemptFails s d (3 ≤ t.attempt) with
        | none =>
          if hartSuspended s n then hartIdle n (onDesc h (fun d => { d with st := .pending }) s) else hartSend n again d.frame.data s
        | some r => retire h r none (hartIdle n s)

/-- HART_RESPONSE_TIMEOUT (R402, R403). -/
def execHartResponseTimeout (n : Nat) (s : State) : Out := answer (settle s (hartTimeout n s))

/-- A burst frame of a device (R401, R403): received while HART runs, a suspended channel included. A first contact brings command 0, and on a
channel without polls one waiting entry takes the line after it (R402). DEDUCED (assumption 247). -/
def hartBurst (n slot : Nat) (r : HartReply) (s : State) : State :=
  match hartDev s n slot with
  | none => s
  | some d =>
    if d.burst && hartRuns s n then
      let t := hartAnswered n slot r s
      if (look n s.ana.tx).isSome then t
      else if d.longAddr = 0 ∧ !d.poll ∧ !hartSuspended s n then hartContact n slot t
      else if s.ana.devs.all (fun e => e.channel != n || !e.poll) then hartAfterPoll n t
      else t
    else s

/-- HART_BURST (R402, R403). -/
def execHartBurst (n slot : Nat) (r : HartReply) (s : State) : Out := answer (settle s (hartBurst n slot r s))

/-- HART_BURST_ABSENT (R403): no valid burst frame for 3 × BURST_MS; absence counts stop while HART does not run (R404). -/
def execHartBurstAbsent (n slot : Nat) (s : State) : Out :=
  answer (match hartDev s n slot with
    | none => s
    | some d =>
      if d.burst && hartRuns s n && decide (d.heardAt + 3 * d.burstMs * 1000000 ≤ s.mono) then settle s (hartAbsent n slot s) else s)

/-- HART starts afresh as a side becomes ACTIVE (R404): polls in slot order, absence counts at 0. -/
def hartAfresh (s : State) : State :=
  onAna (fun a => { a with tx := [], devs := a.devs.map fun d => { d with failed := 0, due := s.mono, heardAt := s.mono, quiet := 0 } }) s

/-- HART stops: the transactions in progress end (R404). -/
def hartStops (s : State) : State := onAna (fun a => { a with tx := [] }) s

/-- A group of channels is lost (R404, R405): its transactions end, an entry in its attempt with PORT_OFF, and the absence counts stop.
DEDUCED (assumption 247). -/
def hartLost (g : Nat) (s : State) : State :=
  let ends := s.ana.tx.filter fun p => p.1 / 4 == g
  let s := forAll ends (fun p t => match p.2.handle with
    | none => hartIdle p.1 t
    | some h => hartIdle p.1 (retire h retPortOff none t)) s
  onAna (fun a => { a with devs := a.devs.map fun d => if d.channel / 4 = g then { d with quiet := s.mono - d.heardAt } else d }) s

/-- The group is back: its absence counts go on (R404). -/
def hartReturns (g : Nat) (s : State) : State :=
  onAna (fun a => { a with devs := a.devs.map fun d => if d.channel / 4 = g then { d with heardAt := s.mono - d.quiet, quiet := 0 } else d }) s

end Sys2Proof.Machine
end

