-- ==== Sys2Proof/Machine/MemErrors.lean ====
section
/-! DEFINITION. Access rights and what is reported of errors in the banks (04_memory.md R96 to R98, R103, R106 to R110, R119):
corrections, uncorrectable words, owner faults, weak rows, and how each owner but the CPU degrades. -/

namespace Sys2Proof.Machine

/-! ### Places -/

/-- The location of a place as R119 reports it. -/
def locOf (s : State) (p : Place) (source : Nat) : Loc :=
  let b := if p.bank = 16 then s.mem.folded.getD 16 else p.bank
  if p.row < 1024 then { bank := b, row := p.row, word := p.word, spare := false, source := source }
  else
    match (bankAt s p.bank).folds.find? fun f => f.2 == p.row - 1024 with
    | some f => { bank := b, row := f.1, word := p.word, spare := true, source := source }
    | none => { bank := b, row := p.row - 1024, word := p.word, spare := true, source := source }

/-- A position that flips is in error if it was not, and right again if it was. -/
def flipPos (l : List Nat) (k : Nat) : List Nat := if l.contains k then l.filter (· != k) else k :: l

/-- Bits of a word that flip. -/
def flipErr (p : Place) (ks : List Nat) (s : State) : State := setErr p (ks.foldl flipPos (errAt s p)) s

/-! ### Images (R132, R168) -/

/-- The address of byte `i` of banks taken one after the other; beyond the last it goes on at the first. -/
def bankAddr (banks : List Nat) (i : Nat) : Nat :=
  let i := i % (banks.length * bankBytes)
  banks.getD (i / bankBytes) 0 * bankBytes + i % bankBytes

/-- The cells with bytes laid into banks from a byte of them on. -/
def layBytes (banks : List Nat) (base : Nat) (l : List Byte) (cells : List Host.Cell) : List Host.Cell :=
  (l.mapIdx fun i v => (bankAddr banks (base + i), v)).foldl (fun t c => cellPut 0 c.1 c.2 t) cells

/-- An image is loaded from a byte of banks on, its words in turn stored whole (R94, R107, R113). -/
def loadImage (banks : List Nat) (base : Nat) (l : List Byte) (s : State) : State :=
  let words := ((List.range l.length).map fun i => bankAddr banks (base + i) / 8 * 8).eraseDups
  onMem (fun m => { m with cells := layBytes banks base l m.cells }) (forAll words (fun a t => recode a true t) s)

/-! ### Owner IDs (R95) -/

def Owner.code : Owner → Nat
  | .cpu => 0
  | .loop => 1
  | .ring => 2
  | .mirror => 3
  | .canQueue => 4
  | .recorder => 5
  | .panel => 6
  | .test => 7

def ownerOf (n : Nat) : Owner :=
  match n with
  | 0 => .cpu
  | 1 => .loop
  | 2 => .ring
  | 3 => .mirror
  | 4 => .canQueue
  | 5 => .recorder
  | 6 => .panel
  | _ => .test

/-- The severity of MEM_UNCORRECTABLE for an owner (R106). -/
def Owner.severity : Owner → Severity
  | .cpu | .test => .critical
  | _ => .fault

/-- The source of the scrubber (R107, R119). -/
def scrubSource : Nat := 8

/-! ### Access rights (R96 to R98) -/

/-- Whether a grant covers a row. -/
def Grant.covers (g : Grant) (row : Nat) : Bool := decide (g.first ≤ row) && decide (row ≤ g.last)

/-- Whether an owner may read or write a row of bank n as addressed. -/
def accessAllowed (s : State) (o : Owner) (n row : Nat) (write : Bool) : Bool :=
  let b := bankAt s n
  let held := b.grants.any fun g => g.owner == o && g.covers row
  let granted := b.grants.any fun g => g.covers row
  !b.clearing &&
    (held || (b.owner == o && !(write && granted) && !(write && o == .cpu && b.use == .code && !s.mem.olcWriting)))

/-! ### Reports -/

/-- A weak row is found (R108): recorded, flagged and due for the weak-row record, once in a start. -/
def weakFound (trigger : Nat) (p : Place) (s : State) : State :=
  if s.mem.rowsWeak.contains (p.bank, p.row) then s
  else
    raise .weakRow .notice 0xFF p.bank p.row trigger
      (onMem (fun m =>
        { m with
          rowsWeak := (p.bank, p.row) :: m.rowsWeak
          flags := flag 3 m.flags
          weakDue := m.weakDue ++ [{ bank := p.bank, row := p.row, trigger := trigger, power := s.log.power, fold := 0xFF }] }) s)

/-- The newest kept correction at a position of a word has its write-back made. -/
def markBack (p : Place) (k : Nat) : List (Place × Nat × Bool) → List (Place × Nat × Bool)
  | [] => []
  | c :: r => if c.1 = p ∧ c.2.1 = k then (p, k, true) :: r else c :: markBack p k r

/-- A correction is reported (R103, R105, R108) at positions in ascending order; the word waits for its write-back, which
leaves `left` in error. The 256 kept locations are positions of words, so a 2-bit correction takes two of them.
DEDUCED (assumption 61). DESIGN CHOICE (assumption 222). The unit of its record is the physical bank. DESIGN CHOICE (assumption 267). -/
def reportCe (source : Nat) (p : Place) (pos left : List Nat) (s : State) : State :=
  let again := match pos with
    | [k] => s.mem.corrected.any fun c => c.1 == p && c.2.1 == k && c.2.2
    | _ => false
  let first := !s.mem.rowsSeen.contains (p.bank, p.row)
  let loc := locOf s p source
  let s := onBank p.bank (fun b => { b with ce := satInc 32 b.ce }) s
  let s := onMem (fun m =>
    { m with
      flags := flag 0 m.flags, lastCe := loc, ceClass := pos.length
      cePosA := pos.headD 0x7F, cePosB := (pos.drop 1).headD 0x7F
      rowsSeen := if first then (p.bank, p.row) :: m.rowsSeen else m.rowsSeen
      corrected := ((pos.map fun k => (p, k, false)) ++ m.corrected).take 256
      backs := (p, pos, left) :: m.backs.filter fun b => b.1 != p }) s
  let s := if first then raise .memCorrected .info p.bank 0 0 0 s else s
  if 2 ≤ pos.length then weakFound 2 p s else if again then weakFound 3 p s else s

/-- An uncorrectable word is reported (R106, R107): counted, flagged, located and weak; recorded where `rec_` says so. -/
def reportUe (source : Nat) (sev : Severity) (rec_ : Bool) (p : Place) (s : State) : State :=
  let loc := locOf s p source
  let s := onBank p.bank (fun b => { b with ue := satInc 32 b.ue }) s
  let s := onMem (fun m => { m with flags := flag 1 m.flags, lastUe := loc, found := p :: m.found.filter (· != p) }) s
  let s := if rec_ then raise .memUncorrectable sev 0xFF loc.bank loc.row source s else s
  weakFound 1 p s

/-- An access of an owner meets an uncorrectable word (R106). -/
def ueFound (o : Owner) (p : Place) (s : State) : State := reportUe o.code o.severity true p s

/-- An owner fault (R97). -/
def ownerFault (o : Owner) (p : Place) (s : State) : State :=
  let loc := locOf s p o.code
  raise .memOwnerFault .fault 0xFF loc.bank loc.row o.code
    (onMem (fun m => { m with ownerFaults := satInc 32 m.ownerFaults, flags := flag 2 m.flags, lastUe := loc }) s)

/-! ### Reading a word through the code (R102, R103) -/

/-- How a read of a word with positions in error ends: uncorrectable, or corrected at some positions, which leaves some in
error. -/
inductive CodeRead where
  | bad
  | good (corrected left : List Nat)
  deriving DecidableEq, Repr

/-- Whether a word is uncorrectable: found so since its owner last wrote all 8 bytes of it, or with three positions in error (R102, R107). -/
def uncorrectable (p : Place) (s : State) : Bool := s.mem.found.contains p || (errAt s p).length == 3

/-- What the code makes of the positions in error of the word at a place (R102, R107): four or more may be found, missed or
miscorrected; a word found uncorrectable stays so. DESIGN CHOICE (assumption 60). -/
def codeRead (p : Place) (s : State) : CodeRead × State :=
  let e := errAt s p
  if uncorrectable p s then (.bad, s)
  else if e.length ≤ 2 then (.good (e.mergeSort (· ≤ ·)) [], s)
  else
    let (k, s) := freed Config.freeNat s
    if k % 4 = 0 then (.bad, s)
    else if k % 4 = 1 then (.good [] e, s)
    else
      let (a, s) := freed Config.freeNat s
      let (b, s) := freed Config.freeNat s
      let pos := if k % 4 = 2 ∨ a % 80 = b % 80 then [a % 80] else [min (a % 80) (b % 80), max (a % 80) (b % 80)]
      (.good pos (pos.foldl flipPos e), s)

/-- The places of rows `lo` to `lo + n - 1` of a bank whose words are in error or were found uncorrectable. -/
def wrongWords (s : State) (bank lo n : Nat) : List Place :=
  ((s.mem.errs.map (·.1)) ++ s.mem.found).eraseDups.filter fun p =>
    let l := locOf s p 0
    l.bank == bank && decide (lo ≤ l.row) && decide (l.row < lo + n)
      && placeOf s (bank * bankBytes + l.row * 0x200 + p.word * 8) == p

/-- An owner reads words in turn, up to the first that is uncorrectable; corrections are reported (R103, R106). -/
def blockRead (o : Owner) : List Place → State → Option Place × State
  | [], s => (none, s)
  | p :: r, s =>
    match codeRead p s with
    | (.bad, s) => (some p, s)
    | (.good pos left, s) => blockRead o r (if pos.isEmpty then s else reportCe o.code p pos left s)

/-- Whether a word lies in an owner's bank, or in rows of another's that a grant gives it (R95, R96). -/
def holdsWord (s : State) (o : Owner) (p : Place) : Bool :=
  (bankAt s p.bank).owner == o
  || (bankAt s p.bank).grants.any fun g =>
    g.owner == o && g.covers (locOf s p 0).row

/-- An owner meets an uncorrectable word in a bank or in granted rows of its own: the state with the error reported, or none where the word is
another's or is not uncorrectable (R102, R106). -/
def metBad (o : Owner) (p : Place) (s : State) : Option State :=
  if holdsWord s o p then
    match codeRead p s with
    | (.bad, s) => some (ueFound o p s)
    | (.good _ _, _) => none
  else none

/-! ### How the owners degrade (R106) -/

/-- The transfer of a queue halts: the descriptor in transfer retires with MEM_ERROR, and the queue is disabled. -/
def queueHalts (q : Nat) (s : State) : State :=
  let s := forAll (s.que.held.filter fun d => d.queue == q && d.st == .attempt) (fun d t => retire d.handle retMemError none t) s
  onQueueAt q (fun x => { x with disabled := true }) s

/-- A DMA channel of a ring port halts (R302). -/
def ringHalts (port : Nat) (tx : Bool) (station : Nat) (s : State) : State :=
  raise .ringDmaHalt .fault port port (bit tx) station
    (onRing (fun r =>
      let r := { r with flags := flag 4 r.flags }
      match port == 1, tx with
      | true, false => { r with rxHalt1 := true }
      | false, false => { r with rxHalt2 := true }
      | true, true => { r with txHalt1 := true }
      | false, true => { r with txHalt2 := true }) s)

/-- The context read of a loop halts: its output holds with BAD_MEMORY, and it stays disabled. -/
def loopHalts (n : Nat) (s : State) : State :=
  match look n s.eng.loops with
  | none => s
  | some l =>
    let s := onEng (fun e =>
      { e with
        flags := flag 5 e.flags
        loops := change n (fun l =>
          { l with memBad := true, sticky := l.sticky ||| 2 ^ 7, enabled := false, armed := none, pendingOut := none
                   outQual := qMemory }) e.loops }) s
    if l.outEntry = 0 then s else writeEntry l.outEntry (ownValue s l.outEntry) qMemory s

/-- A panel update meets an uncorrectable word, or a drive fault (R511): the driver stops, the flag stays. -/
def panelStops (memory : Bool) (s : State) : State :=
  if s.panel.update.isSome then
    raise .panelDriveFault .fault 0xFF 0 0 0
      (onPanel (fun p =>
        { p with
          update := none, frame := 0, vsOutRun := 0, unknown := true
          flags := flag 1 p.flags
          driveRun := p.driveRun + 1
          noUpdate := p.noUpdate || memory
          disabled := p.disabled || decide (3 ≤ p.driveRun + 1) }) s)
  else onPanel (fun p => { p with noUpdate := p.noUpdate || memory }) s

end Sys2Proof.Machine
end

