-- ==== Sys2Proof/Machine/Payload.lean ====
section
/-! DEFINITION. Process data in frames: where an entry's value lies (R284, R342), frames built from sink entries and
received data unpacked into source entries. -/

namespace Sys2Proof.Machine

/-- The place of a value in process data: its first byte, the bit of a BOOL, and whether a quality byte follows. -/
structure Slot where
  byte : Nat
  bit  : Nat
  qual : Bool
  deriving DecidableEq, Repr

/-- One value laid into the data: a BOOL takes one bit, every other type W bytes, least significant first. -/
def placeValue (p : Slot) (e : SigEntry) (data : List Byte) : List Byte :=
  let d := if e.typ = 0x01 then overlayBit data p.byte p.bit (e.value.getLsbD 0)
           else overlay data p.byte (leBytes (typeWidth e.typ) e.value.toNat)
  if p.qual then overlay d (p.byte + typeWidth e.typ) [e.quality] else d

/-- The data of `len` bytes that the sinks of a kind write; the other bytes are 0. -/
def buildPayload (s : State) (kind : Nat) (at_ : Word → Option Slot) (len : Nat) : List Byte :=
  s.sig.entries.foldl (fun data p =>
    (sinksOf s p.2).foldl (fun data k =>
      if k.kind = kind then
        match at_ k.ref with
        | none => data
        | some pl => placeValue pl p.2 data
      else data) data) (List.replicate len 0)

/-- The value an entry takes from received data. -/
def takeValue (p : Slot) (e : SigEntry) (data : List Byte) : Datum :=
  if e.typ = 0x01 then BitVec.ofNat 64 (bit ((data.getD p.byte 0).getLsbD p.bit))
  else valueOfRaw e.typ (fld data p.byte (typeWidth e.typ))

/-- Received data unpacked into the source entries of a kind (R191); a received quality is admitted as a posted one. -/
def unpackPayload (kind : Nat) (at_ : Word → Option Slot) (data : List Byte) (s : State) : State :=
  forAll s.sig.entries (fun p t =>
    if p.2.kind = kind then
      match at_ p.2.ref with
      | none => t
      | some pl =>
        let v := takeValue pl p.2 data
        if pl.qual then
          let (q, t) := admitQuality (data.getD (pl.byte + typeWidth p.2.typ) 0) t
          writeEntry p.1 v q t
        else writeEntry p.1 v qGood t
    else t) s

end Sys2Proof.Machine
end

