-- ==== Sys2Proof/Machine/Can.lean ====
section
/-! DEFINITION. The CAN ports and the signal book (13_can_ports.md R326 to R351). -/

namespace Sys2Proof.Machine

/-- The state's code in CANn_STATUS (R355). -/
def CanState.code : CanState → Nat
  | .off => 0
  | .integrating => 1
  | .errorActive => 2
  | .errorPassive => 3
  | .busOff => 4
  | .recovering => 5

/-- Whether role and mode permit sending (R351). -/
def canTxAllowed (s : State) : Bool :=
  takesCommands s && (s.sys.mode == .run || s.sys.mode == .hold || s.sys.mode == .stop)

/-- Whether a port is on the bus. -/
def CanState.onBus : CanState → Bool
  | .errorActive | .errorPassive => true
  | _ => false

/-- The queue of a port's role. -/
def canQueue (s : State) (p role : Nat) : Option Nat := queueOf s userCan p role

/-- A status entry of 8 bytes (R350). -/
def statusEntry (p kind code where_ phase : Nat) (s : State) : State :=
  match canQueue s p 7 with
  | none => s
  | some q =>
    let c := canPort s p
    fill q { format := 0, id := 0, length := 8,
             data := [BitVec.ofNat 8 kind, BitVec.ofNat 8 code, BitVec.ofNat 8 (min c.tec 255),
                      BitVec.ofNat 8 (min c.rxec 255), BitVec.ofNat 8 where_, BitVec.ofNat 8 phase, 0, 0] } 0 s.mono none s

/-- A change of the port's state, with its status entry. -/
def canGo (p : Nat) (st : CanState) (s : State) : State :=
  if (canPort s p).st = st then s
  else statusEntry p 2 st.code 0 0 (onCan p (fun c => { c with st := st }) s)

/-- The ports that a start's set puts on the bus go from OFF to INTEGRATING, each with the status entry of the change (R350). -/
def portsIntegrate (s : State) : State :=
  forAll [1, 2, 3, 4] (fun p t => if (canPort t p).st = .integrating then statusEntry p 2 CanState.integrating.code 0 0 t else t) s

/-- A port is on the bus in the state that TEC and REC give it (R348). -/
def canOnBus (p : Nat) (s : State) : State :=
  let c := canPort s p
  if 128 ≤ c.tec || 128 ≤ c.rxec then
    if c.st = .errorPassive then s
    else raise .canErrorPassive .notice p 0 0 0
      (onCan p (fun c => { c with flags := flag 0 c.flags }) (canGo p .errorPassive s))
  else canGo p .errorActive s

/-- The state TEC and REC give a port that is on the bus (R348). -/
def canByCounts (p : Nat) (s : State) : State := if (canPort s p).st.onBus then canOnBus p s else s

/-! ### Frame definitions (R341, R342) -/

/-- The place a CAN reference names for a definition of a port (R342). -/
def canSlot (p d : Nat) (ref : Word) : Option Slot :=
  if field ref 30 2 + 1 = p ∧ field ref 22 8 = d then
    some { byte := field ref 11 11, bit := field ref 8 3, qual := ref.getLsbD 7 }
  else none

def canDef (s : State) (p d : Nat) : Option CanDef := (canPort s p).defs.find? fun x => x.num == d

def onCanDef (p d : Nat) (f : CanDef → CanDef) (s : State) : State :=
  onCan p (fun c => { c with defs := c.defs.map fun x => if x.num = d then f x else x }) s

/-- The frame of a transmit definition with its data (R341, R352). -/
def defFrame (d : CanDef) (data : List Byte) : CanFrame :=
  { format := d.format, id := d.id, length := d.length, data := data, sdt := d.sdt, vcid := d.vcid, sec := d.sec,
    af := d.af }

/-- The data a definition would carry now. -/
def defData (s : State) (p : Nat) (d : CanDef) : List Byte :=
  if d.format / 16 % 2 = 1 then [] else buildPayload s 4 (canSlot p d.num) d.length

def onBook (p : Nat) (f : Book → Book) (s : State) : State := onCan p (fun c => { c with book := f c.book }) s

/-- A build goes into its class queue; one that the queue refuses is counted (R341). -/
def enqueueBuild (p : Nat) (d : CanDef) (data : List Byte) (exp : Option Nat) (oneShot : Bool) (s : State) : State :=
  match canQueue s p d.cls with
  | none => s
  | some q =>
    let (r, _, s) := enqueue .program q (defFrame d data) exp oneShot (some (p, d.num)) none s
    if r = resOk then s
    else
      onQue (fun e => { e with flags := flag 0 e.flags })
        (onCan p (fun c => { c with counts := { c.counts with replaced := satInc 32 c.counts.replaced } }) s)

/-- A build of a transmit definition (R341): it replaces the PENDING entry, waits for an ATTEMPT to end, or is enqueued. -/
def buildDef (p : Nat) (d : CanDef) (oneShot : Bool) (s : State) : State :=
  let data := defData s p d
  let exp := if d.expiryUs = 0 then none else some (s.mono + d.expiryUs * 1000)
  let s := onCanDef p d.num (fun x => { x with built := some data }) s
  match s.que.held.find? fun e => e.defn == some (p, d.num) && (e.st == .pending || e.st == .attempt) with
  | some e =>
    if e.st = .pending then
      onCan p (fun c => { c with counts := { c.counts with replaced := satInc 32 c.counts.replaced } })
        (onDesc e.handle (fun e => { e with frame := defFrame d data, expiry := exp }) s)
    else onCanDef p d.num (fun x => { x with waiting := some (data, exp) }) s
  | none => enqueueBuild p d data exp oneShot s

/-- Whether a definition is built at a write point of a task with a release index (R341). -/
def defTriggers (s : State) (p task idx : Nat) (d : CanDef) : Bool :=
  d.tx && d.task == task &&
  (if d.trigger = 0 then idx % max d.divider 1 == 0
   else if d.trigger = 1 then d.built != some (defData s p d) || (d.divider != 0 && idx % d.divider == 0)
   else false)

/-- The builds at a write point of a task in RUN (R341, R351); ports that are OFF build nothing. -/
def canWritePoint (task idx : Nat) (s : State) : State :=
  forAll [1, 2, 3, 4] (fun p t =>
    if (canPort t p).enabled && takesCommands t && t.sys.mode == .run then
      forAll (canPort t p).defs (fun d t => if defTriggers t p task idx d then buildDef p d false t else t) t
    else t) s

/-- The CYCLIC builds in HOLD, at each release instant of their task (R351). -/
def canHoldInstant (task idx : Nat) (s : State) : State :=
  forAll [1, 2, 3, 4] (fun p t =>
    if (canPort t p).enabled && takesCommands t then
      forAll (canPort t p).defs (fun d t =>
        if d.tx && d.task == task && d.trigger == 0 && idx % max d.divider 1 == 0 then buildDef p d false t else t) t
    else t) s

/-! ### Reception (R328, R343) -/

/-- Whether a received frame matches a receive definition (R343). -/
def defMatches (f : CanFrame) (d : CanDef) : Bool :=
  !d.tx && d.format == f.format && (f.id ^^^ d.id) &&& d.mask == 0

/-- Whether a received frame matches a filter (R352). -/
def filterMatches (f : CanFrame) (x : CanFilter) : Bool :=
  x.accept.testBit (f.format % 4) && (!x.accept.testBit 4 || x.accept.testBit 3 == f.format.testBit 2)
  && (f.id ^^^ x.id) &&& x.mask == 0

/-- A reference message of a port's book (R345): classical base data, the identifier but for the master's priority, and
REF_LENGTH bytes. DEDUCED (assumption 161). -/
def isReference (b : Book) (f : CanFrame) : Bool :=
  b.enabled && f.format == 0 && f.id / 8 == b.refId / 8 && f.length == b.refLen

/-- A port synchronises on a reference (R345): its cycle count, Next_is_Gap and the sync mark. -/
def bookSync (p cycle : Nat) (gap mine : Bool) (at_ : Nat) (s : State) : State :=
  onBook p (fun b => { b with synced := true, gap := gap, cycle := cycle, current := mine, window := 0, inWin := false,
                              markAt := at_ }) s

/-- Bits 5:0 and bit 7 of data byte 0 of a reference. -/
def takeReference (p : Nat) (r : CanRx) (s : State) : State :=
  let b0 := (r.frame.data.getD 0 0).toNat
  bookSync p (b0 % 64) (b0.testBit 7) false r.sofAt s

/-- A frame of a disabled format, or with a reserved bit recessive: the port waits for integration (R328). -/
def protocolException (p : Nat) (s : State) : State :=
  let s := onCan p (fun c => { c with flags := flag 10 c.flags, afterException := true }) s
  canGo p .integrating (statusEntry p 3 0 0 0 s)

/-- A match is unpacked, or too short (R343). -/
def unpackDef (p : Nat) (d : CanDef) (f : CanFrame) (s : State) : State :=
  if f.length < d.length then
    onCan p (fun c => { c with counts := { c.counts with rxBad := satInc 32 c.counts.rxBad } }) s
  else
    unpackPayload 5 (canSlot p d.num) f.data
      (onCanDef p d.num (fun x => { x with unpacked := s.mono, absent := false }) s)

/-- A frame without a definition goes to a receive queue, or is dropped and counted (R343). -/
def toReceiveQueue (p : Nat) (r : CanRx) (s : State) : State :=
  match (canPort s p).filters.find? (filterMatches r.frame) with
  | some x =>
    match canQueue s p (4 + x.set) with
    | some q => fill q r.frame (if r.esi then 4 else 0) r.sofAt none s
    | none => s
  | none =>
    onCan p (fun c => { c with flags := flag 3 c.flags,
                               counts := { c.counts with unmatched := satInc 32 c.counts.unmatched } }) s

/-- A frame as the port takes it: a classical DLC of 9 to 15 gives 8 bytes (R327). -/
def takenFrame (f : CanFrame) : CanFrame :=
  if f.format % 4 = 0 then { f with length := min f.length 8, data := f.data.take 8 } else f

/-- REC after a valid reception: one less, or from above 127 to a value from 119 to 127 that ISO 11898-1 leaves open (R348).
PRESUMED (assumption 162). -/
def recFalls (p : Nat) (s : State) : State :=
  if 127 < (canPort s p).rxec then
    let (k, s) := freed Config.freeNat s
    onCan p (fun c => { c with rxec := 119 + k % 9 }) s
  else onCan p (fun c => { c with rxec := c.rxec - 1 }) s

/-- A frame is received (R328, R343, R345, R348); a port that is bus-off or recovering takes the reference messages of its book alone. -/
def canReceive (p : Nat) (r0 : CanRx) (s : State) : State :=
  let r := { r0 with frame := takenFrame r0.frame }
  let c := canPort s p
  if c.st.onBus then
    if r.reserved || !formatEnabled c r.frame.format then protocolException p s
    else
      let s := onCan p (fun c => { c with counts := { c.counts with rxOk := satInc 32 c.counts.rxOk } }) s
      let s := canByCounts p (recFalls p s)
      let s := if isReference c.book r.frame then takeReference p r s else s
      match c.defs.find? (defMatches r.frame) with
      | some d => unpackDef p d r.frame s
      | none => toReceiveQueue p r s
  else if (c.st == .busOff || c.st == .recovering) && !r.reserved && isReference c.book r.frame then takeReference p r s
  else s

/-- CAN_FRAME_RECEIVED (R343). -/
def execCanFrameReceived (p : Nat) (r : CanRx) (s : State) : Out := answer (settle s (canReceive p r s))

/-- At a release instant of a pacing task: the definitions not unpacked for TIMEOUT_MS are declared absent (R343). -/
def canTimeouts (task : Nat) (s : State) : State :=
  forAll [1, 2, 3, 4] (fun p t =>
    forAll (canPort t p).defs (fun d t =>
      let mine (e : SigEntry) : Bool := e.kind == 5 && (canSlot p d.num e.ref).isSome && e.pace == some task
      if !d.tx && !d.absent && d.unpacked + d.timeout * 1000000 ≤ t.mono && (t.sig.entries.any fun q => mine q.2) then
        declareAbsent mine (onCanDef p d.num (fun x => { x with absent := true }) t)
      else t) t) s

/-! ### Transmission (R337 to R340) -/

/-- The arbitration field as a number: the lower wins. Base identifiers stand at the top of the 29 bits, a base frame ahead
of an extended one with the same top, a data frame ahead of a remote one (R337 cites ISO 11898-1). -/
def arbKey (f : CanFrame) : Nat :=
  let rtr := f.format / 16 % 2
  if f.format / 4 % 2 = 1 then f.id / 2 ^ 18 * 2 ^ 21 + 3 * 2 ^ 19 + f.id % 2 ^ 18 * 2 + rtr
  else f.id * 2 ^ 21 + rtr * 2 ^ 20

/-- The class of an entry: the role of its queue. -/
def descClass (s : State) (d : Desc) : Nat := (queueAt s d.queue).role

/-- Whether an entry is one of a port's PENDING ones. -/
def pendingOn (s : State) (p : Nat) (d : Desc) : Bool :=
  d.st == .pending && (queueAt s d.queue).user == userCan && (queueAt s d.queue).unit == p

/-- Whether an entry goes before an older one: in a book window by the arbitration field alone (R346), else by the lower class and then that field
(R337). -/
def goesBefore (s : State) (book : Bool) (d b : Desc) : Bool :=
  if book || descClass s d == descClass s b then decide (arbKey d.frame < arbKey b.frame) else decide (descClass s d < descClass s b)

/-- The entry that goes first of some, by age on a tie (R337, R346). -/
def bestEntry (s : State) (book : Bool) (l : List Desc) : Option Desc :=
  l.foldl (fun best d =>
    match best with
    | none => some d
    | some b => if goesBefore s book d b then some d else some b) none

/-- The type of the window that runs on a port: FREE without BOOK, unsynchronised, or outside every window (R337, R345, R346). -/
def windowType (c : CanPort) : Nat :=
  if c.book.enabled && c.book.synced && c.book.inWin then ((c.book.windows[c.book.window]?).map (·.typ)).getD 2 else 2

/-- NTU of the end of the free time that runs at an NTU: the next window that is not FREE, or the end of the cycle (R346). -/
def freeEnd (b : Book) (ntu : Nat) : Nat :=
  (b.windows.find? fun w => w.typ != 2 && decide (ntu < w.start)).elim b.cycleNtu (·.start)

/-- NTU of the end of the window that runs (R344). -/
def windowEnd (b : Book) : Nat := ((b.windows[b.window + 1]?).map (·.start)).getD b.cycleNtu

/-- A timing word's fields for NBT (R329, R356), as the numbers they stand for: BRP, TSEG1, TSEG2, SJW. -/
def nbtFields (w : Word) : Nat × Nat × Nat × Nat :=
  (field w 22 9 + 1, field w 14 8 + 1, field w 7 7 + 1, field w 0 7 + 1)

/-- The fields of DBT and XBT. -/
def dbtFields (w : Word) : Nat × Nat × Nat × Nat :=
  (field w 24 5 + 1, field w 16 6 + 1, field w 8 5 + 1, field w 0 5 + 1)

/-- BRP × NTQ: the bit time in units of 5 ns. -/
def bitUnits (f : Nat × Nat × Nat × Nat) : Nat := f.1 * (1 + f.2.1 + f.2.2.1)

/-- One NTU of a port, the nominal bit time, in ns (R344). -/
def ntuNs (c : CanPort) : Nat := 5 * bitUnits (nbtFields c.force.nbt)

/-- The NTU of the cycle that runs, from the sync mark (R344). -/
def ntuNow (s : State) (p : Nat) : Nat := (s.mono - (canPort s p).book.markAt) / max (ntuNs (canPort s p)) 1

/-- The longest frame with worst-case stuff bits, as bits of the arbitration phase and bits of the data phase (R346 cites the standard).
PRESUMED (assumption 19). -/
def worstBits (format n : Nat) : Nat × Nat :=
  let ide := format.testBit 2
  match format % 4 with
  | 0 =>
    let n := if format.testBit 4 then 0 else n
    if ide then (64 + 8 * n + (53 + 8 * n) / 4, 0) else (44 + 8 * n + (33 + 8 * n) / 4, 0)
  | 1 =>
    let head := if ide then 36 else 17
    let stuffHead := (head - 1) / 4
    let data := 5 + 8 * n + ((head + 4 + 8 * n) / 4 - stuffHead) + (if n ≤ 16 then 21 + 6 else 25 + 7)
    if format.testBit 3 then (head + stuffHead + 10, data) else (head + stuffHead + data + 10, 0)
  | _ => (35, 115 + 8 * n + (108 + 8 * n) / 10)

/-- The worst-case length of a frame in NTU at a set of rates: rounded up, with 3 NTU of intermission (R346). -/
def worstLength (format n : Nat) (c : CanSet) : Nat :=
  let b := worstBits format n
  let ntu := max (bitUnits (nbtFields c.nbt)) 1
  let data := bitUnits (dbtFields (if format % 4 = 1 then c.dbt else c.xbt))
  (b.1 * ntu + b.2 * data + ntu - 1) / ntu + 3

/-- The worst-case length of an entry in NTU (R346). -/
def worstNtu (c : CanPort) (f : CanFrame) : Nat := worstLength f.format f.length c.force

/-- A book entry of a port: its definition has trigger BOOK (R341). -/
def bookEntry (s : State) (p : Nat) (d : Desc) : Bool :=
  match d.defn with
  | none => false
  | some (_, k) => ((canDef s p k).map (·.trigger)) == some 2

/-- The entries a port may offer at an NTU of its cycle (R337, R346); past the end of the cycle no window bounds them. -/
def offers (s : State) (p ntu : Nat) : List Desc :=
  let c := canPort s p
  let l := s.que.held.filter (pendingOn s p)
  let scheduled (d : Desc) : Bool := c.book.scheduled.any fun x => x.1 == c.book.window && d.defn == some (p, x.2)
  match windowType c with
  | 0 =>
    let w := c.book.windows.getD c.book.window { start := 0, typ := 0, txEnable := 0 }
    if ntu ≤ w.start + w.txEnable then l.filter scheduled else []
  | 1 => l.filter fun d => scheduled d && decide (ntu + worstNtu c d.frame ≤ windowEnd c.book)
  | 2 =>
    l.filter fun d => !bookEntry s p d
      && (!(c.book.enabled && c.book.synced) || decide (c.book.cycleNtu ≤ ntu) || decide (ntu + worstNtu c d.frame ≤ freeEnd c.book ntu))
  | _ => []

/-- The entry goes to ATTEMPT; no build waits for its end yet (R341). -/
def startAttempt (p : Nat) (d : Desc) (s : State) : State :=
  onCan p (fun c =>
    { c with
      onBus := some d.handle
      defs := c.defs.map fun x => if d.defn = some (p, x.num) then { x with waiting := none } else x })
    (onDesc d.handle (fun d => { d with st := .attempt }) s)

/-- The PENDING entries of a port that are asked to be cancelled retire, but for `kept` (R339). -/
def cancelPending (p : Nat) (cancels : List Nat) (kept : Option Nat) (s : State) : State :=
  forAll (s.que.held.filter fun d => pendingOn s p d && cancels.contains d.handle && kept != some d.handle)
    (fun d t => retire d.handle retCancelled none t) s

/-- An arbitration opportunity (R337) with the cancel requests that arrive by the SOF sample point (R339): the entry the
port offers goes to ATTEMPT. -/
def arbitrate (p : Nat) (cancels : List Nat) (ownSof : Bool) (s : State) : State :=
  let c := canPort s p
  if c.st.onBus && canTxAllowed s && !c.listen && c.onBus.isNone then
    let l := offers s p (ntuNow s p)
    let book := windowType c != 2
    match bestEntry s book l, bestEntry s book (l.filter fun x => !cancels.contains x.handle) with
    | some d, none =>
      if ownSof then
        startAttempt p d (onDesc d.handle (fun d => { d with cancel := true }) (cancelPending p cancels (some d.handle) s))
      else cancelPending p cancels none s
    | _, some e => startAttempt p e (cancelPending p cancels none s)
    | none, none => cancelPending p cancels none s
  else s

/-- CAN_ARBITRATION (R337, R339). -/
def execCanArbitration (p : Nat) (cancels : List Nat) (ownSof : Bool) (s : State) : Out :=
  answer (arbitrate p cancels ownSof s)

/-- After an attempt, a build that waited for it: enqueued after a success, put in the entry's place after a failure (R341). -/
def waitingBuild (p : Nat) (d : Desc) (ok : Bool) (s : State) : State :=
  match d.defn with
  | none => s
  | some (_, k) =>
    match canDef s p k with
    | none => s
    | some x =>
      match x.waiting with
      | none => s
      | some (data, exp) =>
        let s := onCanDef p k (fun x => { x with waiting := none }) s
        if ok || (descOf s d.handle).isNone then enqueueBuild p x data exp (x.trigger == 2) s
        else
          onCan p (fun c => { c with counts := { c.counts with replaced := satInc 32 c.counts.replaced } })
            (onDesc d.handle (fun d => { d with frame := defFrame x data, expiry := exp }) s)

/-- The end of an attempt (R337 to R340, R348): TEC falls by one after a success. DEDUCED (assumption 255). -/
def txDone (p : Nat) (e : TxEnd) (measured : Nat) (s : State) : State :=
  let c := canPort s p
  match c.onBus with
  | none => s
  | some h =>
    let s := onCan p (fun c => { c with onBus := none }) s
    match descOf s h with
    | none => s
    | some d =>
      match e with
      | .sent =>
        let s := onCan p (fun c =>
          { c with
            tec := c.tec - 1
            measFd := if d.frame.format % 4 = 1 ∧ d.frame.format.testBit 3 then measured else c.measFd
            measXl := if d.frame.format % 4 = 2 then measured else c.measXl
            counts := { c.counts with txOk := satInc 32 c.counts.txOk }
            flags := if d.cancel then flag 7 c.flags else c.flags }) s
        let s := sendCan p h d.frame (c.st == .errorPassive && d.frame.format % 4 == 1) s
        let s := if d.cancel then onDesc h (fun d => { d with flags := d.flags ||| 1 }) s else s
        let s := onBook p (fun b => { b with scheduled := b.scheduled.filter fun x => d.defn != some (p, x.2) }) s
        waitingBuild p d true (canByCounts p (retire h retSent none s))
      | .memory place =>
        match metBad .canQueue place (retire h retMemError none s) with
        | some s => waitingBuild p d false (queueHalts d.queue s)
        | none => onCan p (fun c => { c with onBus := some h }) s
      | _ =>
        let late := match d.expiry with
          | none => false
          | some t => t ≤ s.mono
        if d.cancel then waitingBuild p d false (retire h retCancelledAfter none s)
        else if late then
          waitingBuild p d false (retire h retExpired none (onCan p (fun c => { c with flags := flag 8 c.flags }) s))
        else if !takesCommands s then retire h retRoleLost none s
        else if d.oneShot then
          waitingBuild p d false (retire h (if bookEntry s p d then retWindowMissed else retSingleShot) none s)
        else
          let off := c.st = .busOff || c.st = .recovering
          waitingBuild p d false
            (onDesc h (fun d => { d with st := .pending, flags := if off then d.flags ||| 2 else d.flags }) s)

/-- An entry that is PENDING at its expiry retires (R338). -/
def entryExpired (h : Nat) (s : State) : State :=
  match descOf s h with
  | none => s
  | some d =>
    if d.st = .pending ∧ d.expiry.any (fun t => decide (t ≤ s.mono)) then
      let x := queueAt s d.queue
      let s := if x.user = userCan then onCan x.unit (fun c => { c with flags := flag 8 c.flags }) s else s
      retire h retExpired none s
    else s

/-- CAN_ENTRY_EXPIRED (R338). -/
def execCanEntryExpired (h : Nat) (s : State) : Out := answer (entryExpired h s)

/-! ### Errors and bus-off (R348 to R350) -/

/-- Bus-off (R348, R349): PENDING entries are flagged, and recovery starts or waits. DEDUCED (assumption 160). -/
def goBusOff (p : Nat) (s : State) : State :=
  let waiting := (s.que.held.filter (pendingOn s p)).length
  let s := forAll (s.que.held.filter (pendingOn s p)) (fun d t => onDesc d.handle (fun d => { d with flags := d.flags ||| 2 }) t) s
  let last := (canPort s p).lastErr
  let s := onCan p (fun c =>
    { c with flags := flag 1 c.flags, offAt := s.mono,
             counts := { c.counts with busOffs := satInc 32 c.counts.busOffs } }) s
  let s := raise .canBusOff .fault p p waiting last (canGo p .busOff s)
  if (canPort s p).autoRecover then canGo p .recovering s
  else onCan p (fun c => { c with waitRecover := true }) s

/-- An error frame (R348, R350). PRESUMED (assumption 162). -/
def errorFrame (p : Nat) (e : CanErr) (s : State) : State :=
  if (canPort s p).st.onBus then
    let s := onCan p (fun c =>
      { c with
        tec := c.tec + e.tecAdd, rxec := min (c.rxec + e.recAdd) 255, lastErr := e.code, lastData := e.inData
        flags := flag 9 c.flags
        counts := { c.counts with errFrames := satInc 32 c.counts.errFrames } }) s
    let s := statusEntry p 1 e.code e.field (bit e.sending + 2 * bit e.inData) s
    if 255 < (canPort s p).tec then goBusOff p s else canByCounts p s
  else s

/-- CAN_ERROR_FRAME (R348, R349, R350). -/
def execCanErrorFrame (p : Nat) (e : CanErr) (s : State) : Out := answer (errorFrame p e s)

/-- CAN_TX_DONE (R337 to R340). -/
def execCanTxDone (p : Nat) (e : TxEnd) (measured : Nat) (s : State) : Out := answer (settle s (txDone p e measured s))

/-- A write of 1 to RECOVER (R349): it acts only on a port that waits for it. -/
def recoverPort (p : Nat) (s : State) : State :=
  let c := canPort s p
  if c.st = .busOff ∧ c.waitRecover then canGo p .recovering (onCan p (fun c => { c with waitRecover := false }) s) else s

/-- CAN_RECOVER (R349). -/
def execCanRecover (p : Nat) (s : State) : Out := answer (recoverPort p s)

/-- Integration ends (R328, R331): the port is on the bus. -/
def portIntegrated (p : Nat) (s : State) : State :=
  if (canPort s p).st = .integrating then
    canOnBus p (onCan p (fun c => { c with afterException := false, book := { c.book with listenAt := s.mono } }) s)
  else s

/-- CAN_INTEGRATED (R331). -/
def execCanIntegrated (p : Nat) (s : State) : Out := answer (portIntegrated p s)

/-! ### The signal book (R344 to R347) -/

/-- The data of a reference message: the cycle count in bits 5:0 of byte 0. -/
def referenceData (b : Book) (cycle : Nat) : List Byte :=
  (BitVec.ofNat 8 (cycle % 64) :: List.replicate (b.refLen - 1) 0).take b.refLen

/-- Whether a port is a potential master (R345, R351); in bus-monitoring mode it sends nothing (R328). -/
def potentialMaster (s : State) (p : Nat) : Bool :=
  (canPort s p).book.enabled && !(canPort s p).listen && (canPort s p).book.master && canTxAllowed s && (canPort s p).st.onBus

/-- A port sends its reference message and becomes the current master (R345); the count of frames sent and TEC follow (R348, R354). -/
def sendReference (p cycle : Nat) (s : State) : State :=
  let c := canPort s p
  let f : CanFrame := { format := 0, id := c.book.refId, length := c.book.refLen, data := referenceData c.book cycle }
  let s := onCan p (fun c => { c with tec := c.tec - 1, counts := { c.counts with txOk := satInc 32 c.counts.txOk } }) s
  canByCounts p (bookSync p cycle false true s.mono (sendCan p c.book.refId f false s))

/-- Whether some NTU have passed on a port since an instant. -/
def ntuPassed (s : State) (p from_ n : Nat) : Bool := decide (from_ + n * ntuNs (canPort s p) ≤ s.mono)

/-- CAN_REFERENCE_SEND (R345): at an expected cycle start, which there is none after Next_is_Gap, a synchronised potential master wins with its
reference. -/
def execCanReferenceSend (p : Nat) (s : State) : Out :=
  answer (if potentialMaster s p && (canPort s p).book.synced && !(canPort s p).book.gap && ntuPassed s p (canPort s p).book.markAt (canPort s p).book.cycleNtu then
    sendReference p (((canPort s p).book.cycle + 1) % max (canPort s p).book.cycles 1) s else s)

/-- CAN_MASTER_LISTEN_END (R345): a potential master that has not synchronised has listened for 2 × CYCLE_NTU; it sends its
reference with cycle count 0. -/
def execCanMasterListenEnd (p : Nat) (s : State) : Out :=
  answer (if potentialMaster s p && !(canPort s p).book.synced
      && ntuPassed s p (canPort s p).book.listenAt (2 * (canPort s p).book.cycleNtu) then sendReference p 0 s else s)

/-- No valid reference for 2 × CYCLE_NTU (R345). -/
def refLost (p : Nat) (s : State) : State :=
  let c := canPort s p
  if c.book.enabled && c.book.synced && !c.book.gap && ntuPassed s p c.book.markAt (2 * c.book.cycleNtu) then
    raise .canRefLost .fault p 0 0 0 (onCan p (fun c =>
      { c with flags := flag 5 c.flags, counts := { c.counts with refLost := satInc 32 c.counts.refLost },
               book := { c.book with synced := false, current := false, inWin := false, listenAt := s.mono } }) s)
  else s

/-- CAN_REF_LOST (R345). -/
def execCanRefLost (p : Nat) (s : State) : Out := answer (refLost p s)

/-- Whether the mode builds book frames (R351). -/
def buildsBook (s : State) : Bool := takesCommands s && (s.sys.mode == .run || s.sys.mode == .hold)

/-- A window of a cycle is missed (R347): its bit, flag and count, the record at most once in 60 s. DEDUCED (assumption 255). -/
def windowMissed (p cycle w : Nat) (s : State) : State :=
  let c := canPort s p
  let old := (look cycle c.book.missed).getD 0
  let rec_ := longAgo c.book.recordedAt (60 * nsPerSec) s.mono
  let s := onCan p (fun c =>
    { c with
      flags := flag 4 c.flags
      counts := { c.counts with winMissed := satInc 32 c.counts.winMissed }
      book := { c.book with missed := put cycle (flag w old) c.book.missed,
                            recordedAt := if rec_ then some s.mono else c.book.recordedAt } }) s
  if rec_ then raise .canWindowMissed .notice p 0 cycle w s else s

/-- The book entries of a window that a cycle schedules (R344). -/
def scheduledIn (b : Book) (cycle w : Nat) : List Nat :=
  (b.entries.filter fun e => e.window == w && cycle % max e.period 1 == e.base).map (·.defn)

/-- The scheduled definitions of a window are built (R341). -/
def windowBuilds (p w : Nat) (s : State) : State :=
  let defs := scheduledIn (canPort s p).book (canPort s p).book.cycle w
  let s := onBook p (fun b => { b with window := w, inWin := true, scheduled := defs.map fun d => (w, d) }) s
  forAll defs (fun d t => match canDef t p d with
    | none => t
    | some x => buildDef p x true t) s

/-- Whether an EXCLUSIVE window runs whose TX_ENABLE lasts (R346, R349). -/
def exclusiveOpen (s : State) (p : Nat) : Bool :=
  let c := canPort s p
  let w := c.book.windows.getD c.book.window { start := 0, typ := 0, txEnable := 0 }
  buildsBook s && windowType c == 0 && decide (ntuNow s p ≤ w.start + w.txEnable)

/-- Recovery ends (R349): TEC and REC 0, error active. In an EXCLUSIVE window whose TX_ENABLE lasts, its scheduled frame is built and goes
first. -/
def portRecovered (p : Nat) (s : State) : State :=
  let c := canPort s p
  if c.st = .recovering then
    let s := raise .canRecovered .notice p 0 ((s.mono - c.offAt) / 1000) 0
      (canGo p .errorActive (onCan p (fun c => { c with tec := 0, rxec := 0, book := { c.book with listenAt := s.mono } }) s))
    if exclusiveOpen s p then windowBuilds p (canPort s p).book.window s else s
  else s

/-- CAN_RECOVERED (R349). -/
def execCanRecovered (p : Nat) (s : State) : Out := answer (portRecovered p s)

/-- A window starts (R341, R346, R347): the scheduled definitions are built, or missed at the start. -/
def windowStart (p w : Nat) (s : State) : State :=
  let c := canPort s p
  if c.book.synced && !ntuPassed s p c.book.markAt (((c.book.windows[w]?).map (·.start)).getD 0) then s
  else if c.book.enabled && buildsBook s && w < c.book.windows.length then
    let defs := scheduledIn c.book c.book.cycle w
    if c.book.synced && c.st.onBus then windowBuilds p w (onBook p (fun b => { b with told := false }) s)
    else
      let s := onBook p (fun b => { b with window := w, inWin := b.synced, scheduled := [], told := !defs.isEmpty }) s
      if defs.isEmpty then s else windowMissed p c.book.cycle w s
  else onBook p (fun b => { b with window := w, inWin := b.synced, scheduled := [], told := false }) s

/-- BOOK_WINDOW_START (R341, R346, R347). -/
def execBookWindowStart (p w : Nat) (s : State) : Out := answer (windowStart p w s)

/-- A window ends (R347): a scheduled frame that has not retired SENT is missed, unless the window was missed at its start. DEDUCED (assumption 255). -/
def bookWindowEnd (p w : Nat) (s : State) : State :=
  let c := canPort s p
  if c.book.synced && !ntuPassed s p c.book.markAt (((c.book.windows[w + 1]?).map (·.start)).getD c.book.cycleNtu) then s
  else
    let left := c.book.scheduled.filter fun x => x.1 == w
    let s := onBook p (fun b => { b with scheduled := [], inWin := false }) s
    if left.isEmpty then s
    else
      let s := forAll left (fun x t =>
        forAll (t.que.held.filter fun d => d.defn == some (p, x.2) && d.st == .pending)
          (fun d t => retire d.handle retWindowMissed none t) t) s
      if c.book.told then s else windowMissed p c.book.cycle w s

/-- BOOK_WINDOW_END (R347). -/
def execBookWindowEnd (p w : Nat) (s : State) : Out := answer (bookWindowEnd p w s)

/-! ### Roles, modes and commits (R331, R351) -/

/-- A port goes OFF: its pending entries retire with PORT_OFF (R331). -/
def portOff (p : Nat) (s : State) : State :=
  let s := retireAll (fun x => x.user == userCan && x.unit == p) retPortOff s
  canGo p .off (onCan p (fun c => { c with onBus := none }) s)

/-- Every port ends its frame and goes OFF: a halt cause, a power-down or harbour-watch entry (R351). -/
def canAllOff (s : State) : State :=
  forAll [1, 2, 3, 4] (fun p t => canGo p .off (onCan p (fun c => { c with onBus := none }) t)) s

/-- Whether the NBT fields keep R329: 10 kbit/s to 1 Mbit/s. -/
def nbtOk (w : Word) : Bool :=
  let f := nbtFields w
  let ntq := 1 + f.2.1 + f.2.2.1
  2 ≤ f.2.1 && f.2.1 ≤ 256 && 2 ≤ f.2.2.1 && f.2.2.1 ≤ 128 && f.2.2.2 ≤ f.2.2.1 && 8 ≤ ntq && ntq ≤ 385
  && 200 ≤ bitUnits f && bitUnits f ≤ 20000

/-- Whether a data-phase set keeps R329 and R330: no slower than the NBT rate, no faster than its maximum, compensation
enabled above 1 Mbit/s and an OFFSET with it. -/
def dataOk (nbt w tdc : Word) (minUnits : Nat) : Bool :=
  let f := dbtFields w
  let ntq := 1 + f.2.1 + f.2.2.1
  let en := tdc.getLsbD 31
  f.2.2.2 ≤ f.2.2.1 && 5 ≤ ntq && ntq ≤ 97 && minUnits ≤ bitUnits f && bitUnits f ≤ bitUnits (nbtFields nbt)
  && (en || 200 ≤ bitUnits f) && !(en && field tdc 16 8 == 0)

/-- Whether a set of a port keeps R329 and R330, in each of its three timing sets. DEDUCED (assumption 233). -/
def canSetOk (c : CanSet) : Bool :=
  nbtOk c.nbt && dataOk c.nbt c.dbt c.fdtdc 25 && dataOk c.nbt c.xbt c.xltdc 20

/-- Whether two sets differ in their bit timing. -/
def timingDiffers (a b : CanSet) : Bool := a.nbt != b.nbt || a.dbt != b.dbt || a.xbt != b.xbt

/-- Whether a port may leave OFF: not after a halt cause or a power-down, nor in harbour watch, until the next start (R351). -/
def portsRun (s : State) : Bool := railsOn s && s.sys.mode != .halted && s.sys.mode != .harbour && s.pwr.hbr == .none

/-- The boundary of CANn_COMMIT (R331). -/
def canBoundary (p : Nat) (s : State) : State :=
  let c := canPort s p
  if c.commit.pending then
    let s := onCan p (fun c => { c with commit := { c.commit with pending := false } }) s
    if canSetOk c.copied then
      let s := onCan p (fun c => { c with force := c.copied }) s
      if !c.copied.cfg.getLsbD 0 then portOff p s
      else if (c.st = .off && portsRun s) || (timingDiffers c.copied c.force && c.st.onBus) then canGo p .integrating s
      else s
    else onCan p (fun c => { c with flags := flag 6 c.flags }) s
  else s

/-! ### The queue window's commands -/

/-- QUE_ENQUEUE (R334, R359). -/
def execQueEnqueue (r : EnqueueReq) (s : State) : Out :=
  answer (match r with
    | .staged r v => writeTxCtrl r v s
    | .runtime q f exp one => (enqueue .program q f exp one none none s).2.2)

/-- QUE_TX_HEAD_WRITE (R358). -/
def execQueTxHeadWrite (r : Reader) (v : Word) (s : State) : Out := answer (writeTxHead r v s)

/-- QUE_TX_DATA_WRITE (R358). -/
def execQueTxDataWrite (r : Reader) (v : Word) (s : State) : Out := answer (writeTxData r v s)

/-- QUE_CANCEL (R339). -/
def execQueCancel (r : Reader) (v : Word) (s : State) : Out := answer (writeCancel r v s)

/-- QUE_TAKE (R359). -/
def execQueTake (r : Reader) (v : Word) (s : State) : Out := answer (writeTakeSel r v s)

/-- QUE_TAKE_DATA_READ (R358). -/
def execQueTakeDataRead (r : Reader) (s : State) : Out := answer (readTakeData r s).2

/-- QUE_ACK (R359). -/
def execQueAck (r : Reader) (v : Word) (s : State) : Out := answer (writeAck r v s)

end Sys2Proof.Machine
end

