-- ==== Sys2Proof/Machine/Calendar.lean ====
section
/-! DEFINITION. Calendar arithmetic (17_calendar_clock.md R446, R448, R450, R451). -/

namespace Sys2Proof.Machine

/-- A leap year (R446). -/
def leapYear (y : Nat) : Bool := y % 4 == 0 && (y % 100 != 0 || y % 400 == 0)

/-- The length of a month. -/
def monthDays (y m : Nat) : Nat :=
  if m = 2 then (if leapYear y then 29 else 28)
  else if m = 4 ∨ m = 6 ∨ m = 9 ∨ m = 11 then 30 else 31

/-- The days of a year. -/
def yearDays (y : Nat) : Nat := if leapYear y then 366 else 365

/-- Days from 2000-01-01 to the first day of a year from 2000 on. -/
def daysToYear (y : Nat) : Nat :=
  (y - 2000) * 365 + ((y + 3) / 4 - 500) + ((y + 399) / 400 - 5) - ((y + 99) / 100 - 20)

/-- Days from the first day of a year to the first day of its month. -/
def daysToMonth (y m : Nat) : Nat := ((List.range (m - 1)).map fun i => monthDays y (i + 1)).sum

/-- Seconds of a calendar value within its day. -/
def Calendar.daySecond (c : Calendar) : Nat := c.hour * 3600 + c.minute * 60 + c.second

/-- Days from 2000-01-01. -/
def Calendar.days (c : Calendar) : Nat := daysToYear c.year + daysToMonth c.year c.month + (c.day - 1)

/-- Seconds from 2000-01-01 00:00:00. -/
def Calendar.seconds (c : Calendar) : Nat := c.days * 86400 + c.daySecond

/-- The month and day of a day number within a year. -/
def monthOfDay (y : Nat) : Nat → Nat → Nat → Nat × Nat
  | 0, m, d => (m, d + 1)
  | fuel + 1, m, d => if d < monthDays y m then (m, d + 1) else monthOfDay y fuel (m + 1) (d - monthDays y m)

/-- The year of a day number from 2000-01-01, and the day within it. -/
def yearOfDay : Nat → Nat → Nat → Nat × Nat
  | 0, y, d => (y, d)
  | fuel + 1, y, d => if d < yearDays y then (y, d) else yearOfDay fuel (y + 1) (d - yearDays y)

/-- The calendar value of a number of seconds from 2000-01-01 00:00:00. -/
def calendarOf (n : Nat) : Calendar :=
  let (y, d) := yearOfDay 1000 2000 (n / 86400)
  let (m, d) := monthOfDay y 11 1 d
  let t := n % 86400
  { year := y, month := m, day := d, hour := t / 3600, minute := t / 60 % 60, second := t % 60 }

/-- The last second of the calendar (R446). -/
def lastSecond : Calendar := { year := 2999, month := 12, day := 31, hour := 23, minute := 59, second := 59 }

/-- The next second (R446); the second after the last is 2000-01-01 00:00:00. -/
def Calendar.tick (c : Calendar) : Calendar :=
  if c = lastSecond then {}
  else if c.second < 59 then { c with second := c.second + 1 }
  else if c.minute < 59 then { c with second := 0, minute := c.minute + 1 }
  else if c.hour < 23 then { c with second := 0, minute := 0, hour := c.hour + 1 }
  else if c.day < monthDays c.year c.month then { c with second := 0, minute := 0, hour := 0, day := c.day + 1 }
  else if c.month < 12 then { c with second := 0, minute := 0, hour := 0, day := 1, month := c.month + 1 }
  else { year := c.year + 1 }

/-- Whether a calendar value is possible (R448). -/
def Calendar.possible (c : Calendar) : Bool :=
  decide (2000 ≤ c.year) && decide (c.year ≤ 2999) && decide (1 ≤ c.month) && decide (c.month ≤ 12) && decide (1 ≤ c.day)
  && decide (c.day ≤ monthDays c.year c.month) && decide (c.hour ≤ 23) && decide (c.minute ≤ 59) && decide (c.second ≤ 59)

/-- MATCH of an alarm for a field: bit 0 second, 1 minute, 2 hour, 3 day, 4 month, 5 year, 6 weekday (R459). -/
def Alarm.compares (a : Alarm) (bit : Nat) : Bool := a.matchMask.testBit bit

/-- The last day an alarm may compare (R448): the length of its month in its year; with the year not compared, the month's greatest
length; with the month not compared, 31. DEDUCED (assumption 262). -/
def Alarm.lastDay (a : Alarm) : Nat :=
  if !a.compares 4 then 31 else if a.compares 5 then monthDays a.time.year a.time.month else monthDays 2000 a.time.month

/-- Whether every field lies in the range of its register layout (R457). -/
def Alarm.inRange (a : Alarm) : Bool :=
  let t := a.time
  decide (2000 ≤ t.year) && decide (t.year ≤ 2999) && decide (1 ≤ t.month) && decide (t.month ≤ 12) && decide (1 ≤ t.day)
    && decide (t.day ≤ 31) && decide (t.hour ≤ 23) && decide (t.minute ≤ 59) && decide (t.second ≤ 59) && decide (a.weekday ≤ 6)

/-- Whether an enabled alarm is possible (R448). -/
def Alarm.possible (a : Alarm) : Bool :=
  let t := a.time
  !a.enable ||
    ((!a.compares 0 || decide (t.second ≤ 59)) && (!a.compares 1 || decide (t.minute ≤ 59))
      && (!a.compares 2 || decide (t.hour ≤ 23))
      && (!a.compares 4 || (decide (1 ≤ t.month) && decide (t.month ≤ 12)))
      && (!a.compares 5 || (decide (2000 ≤ t.year) && decide (t.year ≤ 2999)))
      && (!a.compares 6 || decide (a.weekday ≤ 6))
      && (!a.compares 3 || (decide (1 ≤ t.day) && decide (t.day ≤ a.lastDay))))

/-- Whether a set is possible (R448). -/
def RtcSet.possible (x : RtcSet) : Bool :=
  (!x.setCalendar || x.time.possible) && (!x.setWeekday || decide (x.weekday ≤ 6)) && x.alarms.all Alarm.possible

/-- Whether an alarm's date fields match a day. -/
def Alarm.dateMatches (a : Alarm) (y m d weekday : Nat) : Bool :=
  (!a.compares 3 || a.time.day == d) && (!a.compares 4 || a.time.month == m) && (!a.compares 5 || a.time.year == y)
  && (!a.compares 6 || a.weekday == weekday)

/-- Whether an alarm matches at a tick (R450). -/
def Alarm.hits (a : Alarm) (c : Calendar) (weekday : Nat) : Bool :=
  a.dateMatches c.year c.month c.day weekday && (!a.compares 0 || a.time.second == c.second)
  && (!a.compares 1 || a.time.minute == c.minute) && (!a.compares 2 || a.time.hour == c.hour)

/-- Whether the time fields match some second of a day from second `lo` up to, not including, second `hi`. -/
def Alarm.timeHits (a : Alarm) (lo hi : Nat) : Bool :=
  (if a.compares 2 then [a.time.hour] else List.range 24).any fun h =>
    (if a.compares 1 then [a.time.minute] else List.range 60).any fun m =>
      (if a.compares 0 then [a.time.second] else List.range 60).any fun s =>
        decide (lo ≤ h * 3600 + m * 60 + s) && decide (h * 3600 + m * 60 + s < hi)

/-- Whether a second from `lo` seconds into a day on, `n` seconds long, matches: day by day, in at most `fuel` days. -/
def Alarm.hitsWithin (a : Alarm) (weekday : Nat) : Nat → Calendar → Nat → Bool
  | 0, _, _ => false
  | fuel + 1, c, n =>
    let lo := c.daySecond
    (a.dateMatches c.year c.month c.day weekday && a.timeHits lo (min 86400 (lo + n)))
    || (decide (86400 < lo + n) &&
        a.hitsWithin weekday fuel (Calendar.tick { c with hour := 23, minute := 59, second := 59 }) (lo + n - 86400))

/-- Whether a second that a set passes over matches: from `old` up to, not including, `new` (R451). -/
def Alarm.passedOver (a : Alarm) (old new : Calendar) (weekday : Nat) : Bool :=
  decide (old.seconds < new.seconds) &&
    a.hitsWithin weekday ((new.seconds - old.seconds) / 86400 + 2) old (new.seconds - old.seconds)

end Sys2Proof.Machine
end

