-- ==== Sys2Proof/Machine/Records.lean ====
section
/-! DEFINITION. A record of the event recorder as bytes (18_event_recorder.md R460, R463). -/

namespace Sys2Proof.Machine

/-- The event number of R463: three are stated, the rest are open. -/
def eventNumber (e : Ev) : BitVec 8 :=
  match e with
  | .logIndexRebuilt => 1
  | .logSlotRetired => 2
  | .logUserRefused => 3
  | e => Config.eventNumber e

/-- CODE of R463. -/
def codeWord : EvCode → Nat
  | .mod e => e.subsystem * 256 + (eventNumber e).toNat
  | .app c => c.toNat

/-- The 32 bytes of a record (R460), or what an access to its staging rows made of them (R464). -/
def recBytes (r : LogRec) : List Byte :=
  r.raw.getD (leBytes 6 r.seq ++ leBytes 2 (codeWord r.code) ++ leBytes 4 r.opsec ++ leBytes 2 r.frac ++ leBytes 3 r.power
    ++ leBytes 1 (r.sev.code * 16 + r.flags) ++ leBytes 2 (r.source * 256 + r.unit)
    ++ leBytes 4 r.p1 ++ leBytes 4 r.p2 ++ leBytes 4 r.p3)

end Sys2Proof.Machine
end

