-- ==== Sys2Proof/Machine/Recorder.lean ====
section
/-! DEFINITION. The event recorder's commands (18_event_recorder.md R460 to R474). -/

namespace Sys2Proof.Machine

/-! ### Slots -/

/-- Slots of the recorder. -/
def slotTotal : Nat := 65536

/-- The first number from `n` on, below `n + fuel`, that a test refuses. -/
def firstNot (p : Nat → Bool) : Nat → Nat → Option Nat
  | 0, _ => none
  | fuel + 1, n => if p n then firstNot p fuel (n + 1) else some n

/-- Whether a slot is not empty: it holds a record, is being written, or is retired. -/
def slotTaken (l : Log) (n : Nat) : Bool :=
  (look n l.slots).isSome || l.writing.contains n || l.retired.contains n

/-- The lowest-numbered empty slot. -/
def emptySlot (l : Log) : Option Nat := firstNot (slotTaken l) slotTotal 0

/-- The stored record of lowest SEQUENCE among those at or below a severity. -/
def oldestBelow (sev : Severity) (l : Log) : Option Nat :=
  (l.slots.foldl (fun (best : Option (Nat × Nat)) p =>
    if p.2.sev.code ≤ sev.code then
      match best with
      | none => some (p.1, p.2.seq)
      | some b => if p.2.seq < b.2 then some (p.1, p.2.seq) else some b
    else best) none).map (·.1)

/-- The slot a record takes (R466). -/
def slotFor (sev : Severity) (l : Log) : Option Nat :=
  match emptySlot l with
  | some n => some n
  | none => oldestBelow sev l

/-- The slot of the highest stored SEQUENCE. -/
def newestSlot (l : Log) : Option (Nat × LogRec) :=
  l.slots.foldl (fun best p =>
    match best with
    | none => some p
    | some b => if b.2.seq < p.2.seq then some p else some b) none

/-- The slot of the stored record of lowest SEQUENCE of one severity. -/
def oldestOf (l : Log) (sev : Nat) : Option Nat :=
  (l.slots.foldl (fun (best : Option (Nat × Nat)) p =>
    if p.2.sev.code = sev then
      match best with
      | none => some (p.1, p.2.seq)
      | some b => if p.2.seq < b.2 then some (p.1, p.2.seq) else some b
    else best) none).map (·.1)

/-- The MRAM index is updated (R467). -/
def Log.indexed (l : Log) : Log := { l with index := { next := l.nextSeq, oldest := (List.range 4).map (oldestOf l) } }

/-- A slot fails its verification twice: it is retired, and the record stays to go to another slot (R467). -/
def retireSlot (n : Nat) (s : State) : State :=
  raise .logSlotRetired .fault 0xFF n 0 0
    (onLog (fun l => { l with slots := del n l.slots, retired := n :: l.retired, flags := flag 4 l.flags }) s)

/-- The oldest staged record is written to its slot and verified, and the index updated (R464 to R468), as its write ended: a record is
written once no scan runs. DESIGN CHOICE (assumption 192). -/
def recordStore (how : StoreEnd) (s : State) : State :=
  let s := onLog (fun l => { l with rebuilding := false }) s
  match s.log.staged with
  | [] => s
  | r :: rest =>
    if !s.log.accepting then s
    else match how, slotFor r.sev s.log with
      | .memory p, _ =>
        (metBad .recorder p (onLog (fun l => dropRecord r.sev [0, 1] { l with staged := rest }) s)).getD s
      | _, none => onLog (fun l => dropRecord r.sev [0] { l with staged := rest }) s
      | h, some n =>
        match h with
        | .stored => onLog (fun l => ({ l with staged := rest, slots := put n r l.slots }).indexed) s
        | .fails => retireSlot n s
        | .cut => onLog (fun l => { l with staged := rest, slots := del n l.slots, writing := n :: l.writing }) s
        | .indexCut => onLog (fun l => { l with staged := rest, slots := put n r l.slots, indexBad := true }) s
        | .memory _ => s

/-- RECORD_STORE (R466, R467). -/
def execRecordStore (how : StoreEnd) (s : State) : Out := answer (recordStore how s)

/-! ### Application records (R469) -/

/-- A requester's number: 0 program, 1 SDK, 2 plant port. -/
def Requester.code : Requester → Nat
  | .program => 0
  | .sdk => 1
  | .plant => 2

/-- The severity of a code 0 to 3. -/
def severityOf (n : Nat) : Severity :=
  match n with
  | 0 => .info
  | 1 => .notice
  | 2 => .fault
  | _ => .critical

/-- Whether a request for an application record is refused, with its cause: 1 the code, 2 user records disabled. -/
def userRefusal (code : BitVec 16) (s : State) : Option Nat :=
  if code.toNat < 0xC000 then some 1 else if !s.log.userEnable then some 2 else none

/-- An application record is raised or refused (R469); the answer says which. -/
def userRecord (q : Requester) (code : BitVec 16) (sev : Nat) (p1 p2 p3 : Word) (s : State) : Bool × State :=
  match userRefusal code s with
  | some cause =>
    let s := onLog (fun l => { l with flags := flag 2 l.flags }) s
    if longAgo (look q.code s.log.refusedAt) (60 * nsPerSec) s.mono then
      (false, raise .logUserRefused .notice 0xFF q.code cause 0
        (onLog (fun l => { l with refusedAt := put q.code s.mono l.refusedAt }) s))
    else (false, s)
  | none =>
    (true, raiseRecord (.app code) (severityOf (min sev s.log.userMaxSev)) 4 5 q.code p1.toNat p2.toNat p3.toNat s)

/-- EVENT_BLOCK (R469): the program raises an application record. -/
def execEventBlock (code : BitVec 16) (sev : Nat) (p1 p2 p3 : Word) (s : State) : Out :=
  answer (userRecord .program code sev p1 p2 p3 s).2

/-! ### The banked registers (R472, R474) -/

def logBank (s : State) : Reader → LogBank
  | .sdk => s.log.sdk
  | .plant => s.log.plant

def onLogBank (r : Reader) (f : LogBank → LogBank) (s : State) : State :=
  onLog (fun l => match r with
    | .sdk => { l with sdk := f l.sdk }
    | .plant => { l with plant := f l.plant }) s

/-- A write of LOG_USER_CTRL: SEVERITY, and with GO the record (R469, R474). -/
def writeLogUser (r : Reader) (v : Word) (s : State) : State :=
  let s := onLogBank r (fun b => { b with sev := field v 0 2 }) s
  if v.getLsbD 31 then
    let b := logBank s r
    let (ok, s) := userRecord (.ofReader r) b.code b.sev b.p1 b.p2 b.p3 s
    onLogBank r (fun b => { b with refused := !ok }) s
  else s

/-- LOG_USER_GO (R469, R474): a write of LOG_USER_CTRL by a reader that has passed the check of R27 or R481. -/
def execLogUserGo (r : Reader) (v : Word) (s : State) : Out := answer (writeLogUser r v s)

/-- A write of LOG_RD_SEL: SLOT, and with LATCH the copy of that slot (R474). -/
def writeLogSel (r : Reader) (v : Word) (s : State) : State :=
  let n := field v 0 16
  onLogBank r (fun b =>
    if v.getLsbD 31 then { b with sel := n, latched := true, copy := look n s.log.slots } else { b with sel := n }) s

/-- LOG_RD_LATCH (R474). -/
def execLogRdLatch (r : Reader) (v : Word) (s : State) : Out := answer (writeLogSel r v s)

/-- A read of LOG_NEXT_SEQ_LO (R472): the word, with bits 47:32 latched for the reader. -/
def readNextSeq (r : Reader) (s : State) : Word × State :=
  (BitVec.ofNat 32 s.log.nextSeq, onLogBank r (fun b => { b with seqHi := s.log.nextSeq / 2 ^ 32 % 2 ^ 16 }) s)

/-- LOG_NEXT_SEQ_READ (R472). -/
def execLogNextSeqRead (r : Reader) (s : State) : Out := answer (readNextSeq r s).2

/-- A read of LOG_OPSEC (R472): the word, with FRACTION and the power-cycle count latched. -/
def readOpsec (r : Reader) (s : State) : Word × State :=
  (BitVec.ofNat 32 s.log.opsec, onLogBank r (fun b => { b with frac := opFraction s, power := s.log.power }) s)

/-- LOG_OPSEC_READ (R472). -/
def execLogOpsecRead (r : Reader) (s : State) : Out := answer (readOpsec r s).2

/-- Word k of a latched record (R472); an empty slot's bytes are 0. -/
def latchedWord (b : LogBank) (k : Nat) : Word :=
  match b.copy with
  | none => 0
  | some r => BitVec.ofNat 32 (fld (recBytes r) (4 * k) 4)

/-- A second of operation of a brake function since its last passed test (R430). -/
def SafeFunc.second (f : SafeFunc) : SafeFunc :=
  if f.hourSecs + 1 < 3600 then { f with hourSecs := f.hourSecs + 1 }
  else { f with hourSecs := 0, hours := satInc 16 f.hours }

/-- Operating seconds advance, a second after they last did, and are copied to the backup domain (R461); so do the operating hours of R430. -/
def opsecTick (s : State) : State :=
  if railsOn s && decide (s.log.secBase + nsPerSec ≤ (s.mono : Int)) then
    onSafe (fun x => { x with funcs := x.funcs.map SafeFunc.second })
      (onLog (fun l => { l with opsec := l.opsec + 1, opsecKept := l.opsec + 1, secBase := s.mono }) s)
  else s

/-- OPSEC_TICK (R461). -/
def execOpsecTick (s : State) : Out := answer (opsecTick s)

/-! ### Status words (R472, R473) -/

/-- LOG_STATUS. -/
def logStatus (s : State) : Word :=
  let n := newestSlot s.log
  packFields [(31, 1, bit s.log.accepting), (30, 1, bit (s.log.rebuilding && decide (s.mono < s.log.rebuildAt + 40000000))), (16, 1, bit n.isNone),
    (0, 16, (n.map (·.1)).getD 0)]

/-- LOG_STOREDs. -/
def storedCount (sev : Nat) (s : State) : Nat := (s.log.slots.filter fun p => p.2.sev.code == sev).length

end Sys2Proof.Machine
end

