-- ==== Sys2Proof/Machine/Loop.lean ====
section
/-! DEFINITION. The compensator engine (08_compensator_engine.md R200 to R225): its arithmetic, samples, ticks, enabling and
latches. -/

namespace Sys2Proof.Machine

/-! ### Arithmetic (R207 to R210) -/

/-- m × 2^e rounded once to a normalised mantissa of `w` bits with exponent `lo` to `hi`, the value being mantissa ×
2^(exponent − (w − 1)): mantissa, exponent and whether it saturated at full scale. -/
def normTo (w : Nat) (lo hi m e : Int) : Int × Int × Bool :=
  if m = 0 then (0, lo, false)
  else
    let mag := if 0 ≤ m then m.toNat else (-m - 1).toNat
    let sh : Int := (if mag = 0 then 0 else (Nat.log2 mag : Int) + 1) - (w - 1)
    let k := roundInt m (-sh)
    let (k, sh) :=
      if k = 2 ^ (w - 1) then (2 ^ (w - 2), sh + 1)
      else if k = -(2 ^ (w - 2)) then (-(2 ^ (w - 1)), sh - 1) else (k, sh)
    let x := sh + (w - 1) + e
    if hi < x then (if 0 < m then 2 ^ (w - 1) - 1 else -(2 ^ (w - 1)), hi, true)
    else if x < lo then (roundInt m (e + (w - 1) - lo), lo, false)
    else (k, x, false)

/-- An exact number as a stage value. -/
def toStage (m e : Int) : Flt × Bool :=
  let (k, x, sat) := normTo 32 (-128) 127 m e
  ({ m := k, e := x }, sat)

/-- A stage value rounded to the gain format. -/
def toGain (f : Flt) : Gain × Bool :=
  let (k, x, sat) := normTo 24 (-32) 31 f.m (f.e - 31)
  ({ m := k, e := x }, sat)

/-- Full scale of a sign at an exponent. DEDUCED (assumption 111). -/
def fullScale (m e : Int) : Flt := { m := if m < 0 then -(2 ^ 31) else 2 ^ 31 - 1, e := e }

/-- The normalised exponent of a stored value; 0 counts as −128. -/
def expOf (m e : Int) : Int := if m = 0 then -128 else (normTo 32 (-1000) 1000 m (e - 31)).2.1

/-- A mantissa moved from exponent `e` to `x`: a right shift rounds half to even, a left shift is exact. -/
def alignTo (m e x : Int) : Int := roundInt m (e - x)

/-- An input's number as a stage value (R208): the value, whether it was a NaN and whether it saturated. -/
def stageOfNum : Num → Flt × Bool × Bool
  | .nan => ({}, true, false)
  | .inf neg => (fullScale (if neg then -1 else 1) 127, false, true)
  | .fin m e => ((toStage m e).1, false, (toStage m e).2)

/-- A stage value as an exact number. -/
def Flt.num (f : Flt) : Num := .fin f.m (f.e - 31)

/-- a − b, exact and rounded once. -/
def fltSub (a b : Flt) : Flt × Bool :=
  let (m, e) := exactAdd a.m (a.e - 31) (-b.m) (b.e - 31)
  toStage m e

/-- k × a, exact and rounded once. -/
def fltMul (k : Gain) (a : Flt) : Flt × Bool := toStage (k.m * a.m) (k.e - 23 + (a.e - 31))

/-- a + k × b, exact and rounded once. -/
def fltAddMul (a : Flt) (k : Gain) (b : Flt) : Flt × Bool :=
  let (m, e) := exactAdd a.m (a.e - 31) (k.m * b.m) (k.e - 23 + (b.e - 31))
  toStage m e

/-- a − b of exact values, for comparisons. -/
def fltLess (a b : Flt) : Bool := decide ((exactAdd a.m (a.e - 31) (-b.m) (b.e - 31)).1 < 0)

/-! ### A section (R209) -/

/-- The ceiling that acts (R225). -/
def SecCfg.top (c : SecCfg) : Int := clamp (-64) 63 c.ceil

/-- Values stored at their largest normalised exponent; EXP_PEAK follows. -/
def storeSec (xs ys : List (Int × Int)) (peak : Int) : SecState :=
  let es := (xs ++ ys).foldl (fun (a : Int) v => max a (expOf v.1 v.2)) (-128)
  { xs := xs.map fun v => alignTo v.1 v.2 es, ys := ys.map fun v => alignTo v.1 v.2 es, es := es, peak := max peak es }

/-- A stored value above the ceiling becomes full scale at it. -/
def cutTo (top : Int) (v : Int × Int) : (Int × Int) × Bool :=
  if top < expOf v.1 v.2 then (((fullScale v.1 top).m, top), true) else (v, false)

/-- States above a lowered ceiling saturate (R220). -/
def lowerSec (top : Int) (s : SecState) : SecState × Bool :=
  if s.es ≤ top then (s, false)
  else
    let xs := s.xs.map fun m => cutTo top (m, s.es)
    let ys := s.ys.map fun m => cutTo top (m, s.es)
    (storeSec (xs.map (·.1)) (ys.map (·.1)) s.peak, (xs ++ ys).any (·.2))

/-- The sum of products of two lists. -/
def dot : List Int → List Int → Int
  | a :: as, b :: bs => a * b + dot as bs
  | _, _ => 0

/-- The result of a section: its output, whether SAT_STATE and SAT_ACC, and its states. -/
structure SecOut where
  y        : Flt
  satState : Bool
  satAcc   : Bool
  st       : SecState

/-- One section of order `k` (2 or 3) computes. -/
def secStep (k : Nat) (c : SecCfg) (s : SecState) (x : Flt) : SecOut :=
  let top := c.top
  let (s, cut) := lowerSec top s
  let high := decide (top < max s.es (expOf x.m x.e))
  let x := if high then fullScale x.m top else x
  let e := if high then top else max s.es (expOf x.m x.e)
  let xa := alignTo x.m x.e e
  let xs := (s.xs.take k).map fun m => alignTo m s.es e
  let ys := (s.ys.take k).map fun m => alignTo m s.es e
  let acc := dot (c.b.take (k + 1)) (xa :: xs) - dot (c.a.take k) ys
  let (y, _) := toStage acc (c.ec + e - 54)
  let overNow := decide (top < expOf y.m y.e)
  let y := if overNow then fullScale y.m top else y
  let st := storeSec ((xa, e) :: (xs.take (k - 1)).map fun m => (m, e))
    ((y.m, y.e) :: (ys.take (k - 1)).map fun m => (m, e)) s.peak
  { y := y, satState := cut || high, satAcc := overNow
    st := { st with xs := (st.xs ++ [0, 0, 0]).take 3, ys := (st.ys ++ [0, 0, 0]).take 3 } }

/-- CLAMP_FB (R210): the newest result of a section becomes a value, rounded and saturated at its ceiling; Es is formed afresh only where the
value needs a higher one. DESIGN CHOICE (assumption 272). -/
def feedBack (c : SecCfg) (v : Flt) (s : SecState) : SecState :=
  let (w, _) := cutTo c.top (v.m, v.e)
  if expOf w.1 w.2 ≤ s.es then { s with ys := alignTo w.1 w.2 s.es :: s.ys.drop 1 }
  else storeSec (s.xs.map fun m => (m, s.es)) (w :: (s.ys.drop 1).map fun m => (m, s.es)) s.peak

/-! ### Loops -/

def loopAt (s : State) (n : Nat) : Loop := (look n s.eng.loops).getD {}

def onLoop (n : Nat) (f : Loop → Loop) (s : State) : State :=
  onEng (fun e => { e with loops := change n f e.loops }) s

/-- FLAGS of a loop (R221). -/
def Loop.mirror (l : Loop) : Bool := l.flags.testBit 1
def Loop.errorMode (l : Loop) : Bool := l.flags.testBit 2
def Loop.aligned (l : Loop) : Bool := l.flags.testBit 3
def Loop.clampFb (l : Loop) : Bool := l.flags.testBit 4
def Loop.badSafe (l : Loop) : Bool := l.flags.testBit 5

/-- A mode in which loops compute (R218); a JACK runs no loop (R19). -/
def loopsMode (s : State) : Bool := (s.sys.mode == .run || s.sys.mode == .hold) && s.sys.role != .jack

/-- Whether loops compute now: in HOLD, and in RUN from the release epoch on where it was entered from STARTING or STOP (R218). -/
def loopsCompute (s : State) : Bool :=
  loopsMode s && (s.sys.mode == .hold || decide (s.eng.computeFrom ≤ s.mono))

/-- States cleared to 0, EXP_PEAK −128, no parameter used (R206, R218). -/
def Loop.cleared (l : Loop) : Loop :=
  { l with secs := l.types.map fun _ => {}, parLast := [none, none, none, none] }

/-- Enabled loops clear on entry into RUN from STARTING or STOP, and compute from the release epoch on (R218). -/
def loopsEnterRun (epoch : Nat) (s : State) : State :=
  onEng (fun e => { e with computeFrom := epoch, loops := e.loops.map fun p => (p.1, if p.2.enabled then p.2.cleared else p.2) }) s

/-- Sticky bits of the status word: set, with the bit of LOOP_FLAGS (R211, R224). -/
def loopSticky (n bit any : Nat) (s : State) : State :=
  onEng (fun e =>
    { e with
      flags := flag any e.flags
      loops := change n (fun l => { l with sticky := l.sticky ||| 2 ^ bit }) e.loops }) s

/-- SAT_ACC, SAT_STATE or SAT_OUT: bit 0, 1 or 2 (R211). -/
def loopSat (n bit sec : Nat) (s : State) : State :=
  let was := (loopAt s n).sticky.testBit bit
  let s := loopSticky n bit 3 s
  let s := if bit = 2 then s else onLoop n (fun l => { l with satSec := sec }) s
  if was then s else raise .loopSaturated .notice n n bit sec s

/-- PAR_BAD (R206), recorded once while it is set. -/
def loopParBad (n : Nat) (s : State) : State :=
  let was := (loopAt s n).sticky.testBit 5
  let s := loopSticky n 5 2 s
  if was then s else raise .loopParamBad .notice n 0 0 0 s

/-! ### Inputs and parameters (R203, R205, R206, R208) -/

/-- An input as read at the sample start: its value, its quality (none where nothing is bound), NaN, saturation. -/
structure LoopIn where
  value : Flt := {}
  qual  : Option Byte := none
  nan   : Bool := false
  sat   : Bool := false

/-- What a binding reads. -/
def readBinding (s : State) (b : Binding) : LoopIn :=
  match b.kind with
  | 1 =>
    let e := sigEntry s b.ref
    let (v, nan, sat) := stageOfNum (numOfValue e.typ e.value)
    { value := v, qual := some e.quality, nan := nan, sat := sat }
  | 2 =>
    let c := anaCh s b.ref
    let (v, nan, sat) := stageOfNum (numOf f32 (wordOfNum f32 (engValue c c.value)))
    { value := v, qual := some (anaQuality s b.ref), nan := nan, sat := sat }
  | 3 => { value := (loopAt s b.ref).out, qual := some (loopAt s b.ref).outQual }
  | _ => {}

/-- The value of a parameter's register; none for a NaN limit. -/
def parRegister (l : Loop) (i : Nat) : Option Flt :=
  match i with
  | 0 => some { m := l.force.kIn.m * 256, e := l.force.kIn.e }
  | 1 => some { m := l.force.kFf.m * 256, e := l.force.kFf.e }
  | _ =>
    let (v, nan, _) := stageOfNum (numOf f32 (if i = 2 then l.force.outMin else l.force.outMax).toNat)
    if nan then none else some v

/-- Parameter `i` of loop `n` as this sample uses it: none is no limit. A register's value used for want of a parameter is not the value used
last, so a later commit acts. DESIGN CHOICE (assumption 270). -/
def readPar (n i : Nat) (s : State) : Option Flt × State :=
  let l := loopAt s n
  let fromReg := fun (s : State) =>
    match parRegister l i with
    | none => (none, loopParBad n s)
    | some v => (some v, s)
  let ref := l.pars.getD i 0
  if ref = 0 then fromReg s
  else
    let e := sigEntry s ref
    let (v, nan, sat) := stageOfNum (numOfValue e.typ e.value)
    if qClass e.quality = 0 ∨ nan then
      let s := loopParBad n s
      match l.parLast.getD i none with
      | some v => (some v, s)
      | none => fromReg s
    else
      let overNow := sat || (decide (i < 2) && (toGain v).2)
      let s := if overNow then loopSat n 2 (l.types.length - 1) s else s
      (some v, onLoop n (fun l => { l with parLast := l.parLast.modify i fun _ => some v }) s)

/-! ### One sample (R202, R205, R210) -/

/-- The worst input of a list in the order IN_A, SP, IN_B: the first of the lowest class. -/
def worstQual : List (Option Byte) → Option Byte
  | [] => none
  | none :: r => worstQual r
  | some q :: r =>
    match worstQual r with
    | none => some q
    | some w => if qClass w < qClass q then some w else some q

/-- The sections of a loop in order, from `i` on: the output and the states. -/
def runSections (n : Nat) : Nat → List Bool → List SecCfg → List SecState → Flt → State → Flt × List SecState × State
  | i, t :: ts, c :: cs, st :: sts, x, s =>
    let r := secStep (if t then 3 else 2) c st x
    let s := if r.satState then loopSat n 1 i s else s
    let s := if r.satAcc then loopSat n 0 i s else s
    let (y, rest, s) := runSections n (i + 1) ts cs sts r.y s
    (y, r.st :: rest, s)
  | _, _, _, _, x, s => (x, [], s)

/-- The computation proper: `u`, the sections, the output stage and the clamp. -/
def loopCompute (n : Nat) (a sp b : Flt) (kIn kFf : Gain) (lo hi : Option Flt) (s : State) : State :=
  let l := loopAt s n
  let last := l.types.length - 1
  let (e, sat1) := if l.errorMode then fltSub sp a else (a, false)
  let (u, sat2) := fltMul kIn e
  let s := if sat1 || sat2 then loopSat n 2 last s else s
  let (y, secs, s) := runSections n 0 l.types l.force.secs l.secs u s
  let (v, sat3) := fltAddMul y kFf b
  let low := match lo with | none => v | some x => if fltLess v x then x else v
  let out := match hi with | none => low | some x => if fltLess x low then x else low
  let clamped := (match lo with | none => false | some x => fltLess v x) || (match hi with | none => false | some x => fltLess x v)
  let s := if sat3 || clamped then loopSat n 2 last s else s
  let fb := (fltAddMul out { kFf with m := -kFf.m } b).1
  let secs := if clamped && l.clampFb then secs.mapIdx fun i st => if i = last then feedBack (l.force.secs.getD i {}) fb st else st
              else secs
  onLoop n (fun l => { l with secs := secs, u := u, out := out, clamping := clamped, held := false }) s

/-- A loop's output as the value of its entry's type, and whether it lies beyond the type (R210). -/
def outDatum (t : Nat) (f : Flt) : Datum × Bool :=
  let v := valueOfNum t f.num
  let beyond :=
    if t = 0x0A ∨ t = 0x0B then false
    else
      let x := roundInt f.m (f.e - 31)
      let w := 8 * typeWidth t
      if typeSigned t then decide (x < -(2 ^ (w - 1))) || decide (2 ^ (w - 1) - 1 < x)
      else decide (x < 0) || decide (2 ^ w - 1 < x)
  (v, beyond)

/-- Exact comparison of numbers: a at or above b; a NaN, as a commit may leave in DIG_ON or DIG_OFF, compares with nothing.
DESIGN CHOICE (assumption 271). -/
def numAtLeast (a b : Num) : Bool :=
  match a, b with
  | .fin m e, .fin m' e' => decide (0 ≤ (exactAdd m e (-m') e').1)
  | .inf neg, .fin _ _ => !neg
  | .fin _ _, .inf neg => neg
  | .inf n1, .inf n2 => !n1 || n2
  | _, _ => false

/-- The comparator of a DIGITAL binding: between its limits the channel keeps its state, which is its command where it has one (R203). -/
def comparator (s : State) (l : Loop) (out : Flt) : Bool :=
  if numAtLeast out.num (numOf f32 l.force.digOn.toNat) then true
  else if numAtLeast (numOf f32 l.force.digOff.toNat) out.num then false
  else if (dioCh s l.chan.ref).posted then (dioCh s l.chan.ref).command
  else dioTarget s l.chan.ref (dioCh s l.chan.ref)

/-- A loop's output goes to its entry and its channel (R203, R216, R219). DEDUCED (assumption 110). -/
def loopPost (n : Nat) (out : Flt) (q : Byte) (s : State) : State :=
  let l := loopAt s n
  let s := if l.outEntry = 0 then s else writeEntry l.outEntry (outDatum (sigEntry s l.outEntry).typ out).1 q s
  match l.chan.kind with
  | 1 => if takesCommands s then anaCommandNum l.chan.ref out.num s else s
  | 2 => if takesCommands s then dioCommand l.chan.ref (comparator s l out) s else s
  | _ => s

/-- The status word (R204). -/
def loopStatus (s : State) (l : Loop) : Word :=
  if l.defined then
    packFields [(29, 3, l.group), (12, 2, l.satSec), (11, 1, bit l.clamping), (10, 1, bit (l.enabled && loopsMode s)),
      (9, 1, bit l.held), (0, 8, l.sticky)]
  else 0

/-- The setpoint a sample uses: in HOLD the one of the last sample before HOLD (R202). DEDUCED (assumption 112). -/
def setpoint (s : State) (l : Loop) : LoopIn :=
  let now := readBinding s l.sp
  if s.sys.mode = .hold then
    match l.spHeld with
    | some (v, q) => { value := v, qual := now.qual.map fun _ => q }
    | none => now
  else now

/-- One sample of loop `n` (R202, R205, R206). A NaN committed as SAFE_VALUE counts as 0. DESIGN CHOICE (assumption 271). -/
def loopSample (n : Nat) (s : State) : State :=
  let l := loopAt s n
  let last := l.types.length - 1
  let a := readBinding s l.inA
  let sp := setpoint s l
  let b := readBinding s l.inB
  let s := onLoop n (fun l => { l with spHeld := some (sp.value, sp.qual.getD qGood) }) s
  let s := if a.nan || sp.nan || b.nan then loopSticky n 6 1 s else s
  let s := if a.sat || sp.sat || b.sat then loopSat n 2 last s else s
  let (kIn, s) := readPar n 0 s
  let (kFf, s) := readPar n 1 s
  let (lo, s) := readPar n 2 s
  let (hi, s) := readPar n 3 s
  let s := match lo, hi with
    | some x, some y => if fltLess y x then loopParBad n s else s
    | _, _ => s
  let worst := worstQual [a.qual, sp.qual, b.qual]
  let q := match worst with
    | none => qGood
    | some w => if qClass w = 3 then qGood else w
  let s :=
    if worst.any (fun w => qClass w == 0) then
      let s := if l.held then s
        else raise .loopInputBad .notice n n 0 0 (loopSticky n 6 1 (onLoop n (fun l => { l with held := true }) s))
      let s := onLoop n (fun l => { l with clamping := false }) s
      if l.badSafe then onLoop n (fun l => { l with out := (stageOfNum (numOf f32 l.force.safe.toNat)).1 }) s else s
    else loopCompute n a.value sp.value b.value (toGain (kIn.getD {})).1 (toGain (kFf.getD {})).1 lo hi s
  let out := (loopAt s n).out
  let s := onLoop n (fun l => { l with outQual := q }) s
  let s := if l.outEntry ≠ 0 ∧ (outDatum (sigEntry s l.outEntry).typ out).2 then loopSat n 2 last s else s
  let s := if l.aligned then onLoop n (fun l => { l with pendingOut := some (out, q) }) s else loopPost n out q s
  if l.statEntry = 0 then s
  else writeEntry l.statEntry (BitVec.ofNat 64 (loopStatus s (loopAt s n)).toNat) qGood s

/-! ### Enabling (R218) -/

/-- A loop is disabled: BAD_CONFIG once to its entry, and its channel takes its loss-of-logic value. -/
def loopDisable (n : Nat) (s : State) : State :=
  let l := loopAt s n
  let s := onLoop n (fun l => { l with enabled := false, outQual := qConfig, pendingOut := none }) s
  let s := if l.outEntry = 0 then s else writeEntry l.outEntry (ownValue s l.outEntry) qConfig s
  match l.chan.kind with
  | 1 => onAnaCh l.chan.ref (fun c => { c with posted := false, latchedOff := false }) s
  | 2 => onDioCh l.chan.ref (fun c => { c with posted := false, latchedOff := false }) s
  | _ => s

/-- The new state of an ENABLE bit acts. -/
def loopEnable (n : Nat) (on : Bool) (s : State) : State :=
  let s := onLoop n (fun l => { l with armed := none }) s
  let l := loopAt s n
  if on && !l.enabled then onLoop n (fun l => { l.cleared with enabled := true }) s
  else if !on && l.enabled then loopDisable n s
  else s

/-- A write of one bit of LOOP_ENABLE. -/
def loopEnableBit (n : Nat) (on : Bool) (s : State) : State :=
  let l := loopAt s n
  if !l.defined then s
  else if l.memBad then
    if on then onEng (fun e => { e with flags := flag 6 e.flags }) s else s
  else if loopsMode s then
    onLoop n (fun l => { l with armed := if on = l.enabled then none else some on }) s
  else loopEnable n on s

/-- A write of LOOP_ENABLE_LO or, with `hi`, LOOP_ENABLE_HI. -/
def loopEnableWrite (hi : Bool) (v : Word) (s : State) : State :=
  forAll (List.range 32) (fun i t => loopEnableBit (i + 32 * bit hi) (v.getLsbD i) t) s

/-- LOOP_ENABLE_WRITE (R218, R223). -/
def execLoopEnableWrite (hi : Bool) (v : Word) (s : State) : Out := answer (settle s (loopEnableWrite hi v s))

/-! ### A tick (R200, R214, R216, R217, R220) -/

/-- Numbers of the loops of a group, ascending. -/
def loopsOf (s : State) (g : Nat) : List Nat := (s.eng.loops.filter fun p => p.2.group == g).map (·.1)

/-- PENDING of LOOP_COMMIT clears when no loop has a set to take (R220). -/
def loopCommitEnd (s : State) : State :=
  if s.eng.loops.any (fun p => p.2.copied.isSome) then s
  else onEng (fun e => { e with commit := { e.commit with pending := false } }) s

/-- A loop takes its accepted set. -/
def loopTakeSet (n : Nat) (s : State) : State :=
  onLoop n (fun l => match l.copied with
    | none => l
    | some c => { l with force := c, copied := none }) s

/-- The loops of a group that their tick finds not yet computed miss it (R217). -/
def loopsMissed (g : Nat) (l : List Nat) (s : State) : State :=
  match l with
  | [] => s
  | first :: _ =>
    let s := forAll l (fun n t => loopSticky n 3 4 t) s
    let was := (s.eng.groups.getD g {}).missed
    let s := onEng (fun e => { e with groups := e.groups.modify g fun x =>
      { x with misses := satInc 32 x.misses, missed := true } }) s
    if was then s else raise .loopDeadline .fault 0xFF g first 0 s

/-- The states that a hoist brought replace a loop's own at its sample start (R272); the out keeps its quality with it. -/
def loopTakesState (n : Nat) (s : State) : State :=
  let s := forAll s.hoist.loopsDue (fun r t => match r with
    | .loopState k _ m e qual secs =>
      if k = n then onLoop n (fun l =>
        { l with
          out := { m := m, e := e }
          outQual := qual
          secs := secs.map fun x =>
            { xs := (x.xs ++ [0, 0, 0]).take 3, ys := (x.ys ++ [0, 0, 0]).take 3, es := x.es, peak := x.peak } }) t
      else t
    | _ => t) s
  onHoist (fun h => { h with loopsDue := h.loopsDue.filter fun r => match r with
    | .loopState k _ _ _ _ _ => k != n
    | _ => true }) s

/-- The words of loop `n`'s context, rows 16 × n on of B11, that are in error (R200). -/
def contextErrors (s : State) (n : Nat) : List Place := wrongWords s 11 (16 * n) 16

/-- Whether the engine may read the rows of loop `n`'s context (R97). -/
def contextAllowed (s : State) (n : Nat) : Bool := (List.range 16).all fun r => accessAllowed s .loop 11 (16 * n + r) false

/-- One due loop: its context is read, and halts it where a word is uncorrectable or the rows are not the engine's (R97, R106); else it
samples. -/
def loopDue (n : Nat) (s : State) : State :=
  if !contextAllowed s n then loopHalts n (ownerFault .loop (placeOf s (contextAt + n * contextBytes)) s)
  else match blockRead .loop (contextErrors s n) s with
  | (some p, s) => loopHalts n (ueFound .loop p s)
  | (none, s) => loopSample n (loopTakesState n s)

/-- The periods of the rate groups in µs (R200). -/
def groupUs : List Nat := [50, 100, 200, 500, 1000, 2000, 5000, 10000]

/-- The first tick instant of a group after an instant (R200). -/
def tickAfter (g now : Nat) : Nat :=
  let p := groupUs.getD g 10000 * 1000
  (now / p + 1) * p

/-- Whether a faster group's tick stands that has not been computed (R214). -/
def fasterTicks (s : State) (g : Nat) : Bool :=
  (List.range g).any fun k => !(loopsOf s k).isEmpty && decide ((s.eng.groups.getD k {}).nextTick ≤ s.mono)

/-- A group ticks, when its tick instant has come and no faster group's stands (R214): aligned outputs go out, ENABLE bits and sets are taken, and the due loops are computed.
DEDUCED (assumption 113). -/
def groupTick (t : LoopTick) (s : State) : State :=
  if !railsOn s || decide (s.mono < (s.eng.groups.getD t.group {}).nextTick) || fasterTicks s t.group then s
  else
    let ls := loopsOf s t.group
    let s := forAll ls (fun n s =>
      match (loopAt s n).pendingOut with
      | none => s
      | some (out, q) => loopPost n out q (onLoop n (fun l => { l with pendingOut := none }) s)) s
    let s := forAll ls (fun n s =>
      match (loopAt s n).armed with
      | none => s
      | some on => loopEnable n on s) s
    let due := if loopsCompute s then ls.filter fun n => (loopAt s n).enabled else []
    let late := due.drop t.computed
    let s := loopCommitEnd (forAll (ls.filter fun n => !late.contains n) loopTakeSet s)
    let s := forAll (due.take t.computed) loopDue s
    let s := loopsMissed t.group late s
    onEng (fun e =>
      { e with
        peak := max e.peak t.load
        groups := e.groups.modify t.group fun x => { x with nextTick := tickAfter t.group s.mono, last := t.busy, longest := max x.longest t.busy } }) s

/-- GROUP_TICK (R200). -/
def execGroupTick (t : LoopTick) (s : State) : Out := answer (settle s (groupTick t s))

/-! ### The latch (R224) -/

def loopBank (s : State) : Reader → LoopBank
  | .sdk => s.eng.sdk
  | .plant => s.eng.plant

def onLoopBank (r : Reader) (f : LoopBank → LoopBank) (s : State) : State :=
  onEng (fun e => match r with
    | .sdk => { e with sdk := f e.sdk }
    | .plant => { e with plant := f e.plant }) s

/-- A write of LOOP_SEL. -/
def writeLoopSel (r : Reader) (v : Word) (s : State) : State :=
  let n := field v 0 6
  onLoopBank r (fun b =>
    if v.getLsbD 31 then { b with sel := n, want := some n, latched := false } else { b with sel := n }) s

/-- LOOP_LATCH (R224). -/
def execLoopLatch (r : Reader) (v : Word) (s : State) : Out := answer (writeLoopSel r v s)

/-- The states asked for are copied between two samples. -/
def loopLatchDone (r : Reader) (s : State) : State :=
  match (loopBank s r).want with
  | none => s
  | some n => onLoopBank r (fun b => { b with want := none, latched := true, secs := (loopAt s n).secs }) s

/-- LOOP_LATCH_DONE (R224). -/
def execLoopLatchDone (r : Reader) (s : State) : Out := answer (loopLatchDone r s)

end Sys2Proof.Machine
end

