-- ==== Sys2Proof/Machine/Banked.lean ====
section
/-! DEFINITION. What the banks hold of tables that have a field of State of their own (05_program_cycle.md R132, 07_signal_table.md R181,
R182, 08_compensator_engine.md R200, 10_hoist_codec.md R263): the bytes of the signal table, the sink list, the force table, the
snapshots, the loop contexts and the instance data, at their addresses. Every other byte is a cell of the store. -/

namespace Sys2Proof.Machine

/-! ### The words of a table (R182, R189, R190) -/

/-- Word `k` of an entry (R182). -/
def SigEntry.word (e : SigEntry) (k : Nat) : Datum :=
  match k with
  | 0 => e.value
  | 1 => e.word1 e.quality
  | 2 => BitVec.ofNat 64 (packNat
      [(32, 32, e.ref.toNat), (24, 8, e.staleCycles), (12, 1, bit e.substEn), (11, 1, bit e.pace.isNone), (8, 3, e.pace.getD 0),
       (0, 8, e.kind)])
  | _ => e.subst

/-- An entry with word `k` written as it stands in the bank; words 2 and 3 change only at a start and under R198 (R183). A SINK_COND
written as 1 where no condition stands takes the quality written with it. DESIGN CHOICE (assumption 231). -/
def SigEntry.putWord (e : SigEntry) (k : Nat) (w : Datum) : SigEntry :=
  match k with
  | 0 => { e with value := w }
  | 1 =>
    { e with
      sinkFirst := field w 32 13, sinkCount := field w 28 4, stale := w.getLsbD 27, substituted := w.getLsbD 25, forced := w.getLsbD 24
      cond := if w.getLsbD 26 then some (e.cond.getD (BitVec.ofNat 8 (field w 0 8))) else none
      staleCount := field w 16 8, typ := field w 8 8, quality := BitVec.ofNat 8 (field w 0 8) }
  | _ => e

/-- The eight bytes of a sink record as a word (R189). -/
def Sink.word (k : Sink) : Datum := BitVec.ofNat 64 (packNat [(0, 8, k.kind), (32, 32, k.ref.toNat)])

/-! ### Places of the tables (R181, R200, R464) -/

/-- What lies at an address whose word is one of a table's. -/
inductive TableWord where
  | entry (i k : Nat)
  | sink (i : Nat)
  | force (i k : Nat)
  | snapshot (task pos k : Nat)
  | image (pos k : Nat)
  | context (loop k : Nat)
  | staged (i k : Nat)
  deriving DecidableEq, Repr

/-- The snapshot whose 16 bytes are the `n`th of the snapshot rows: those of T0 first, each in the order of its read set, then the mirror
image. The spec places them "at load". DESIGN CHOICE (assumption 231). -/
def snapshotWord (s : State) (k : Nat) : Nat → List Nat → Option TableWord
  | n, [] => if n < s.hoist.mirror.length then some (.image n k) else none
  | n, t :: rest =>
    let c := (taskOf t).length
    if n < c then some (.snapshot t n k) else snapshotWord s k (n - c) rest
where
  taskOf (t : Nat) : List Nat := if (s.cyc.tasks.getD t {}).enabled then (s.cyc.tasks.getD t {}).reads else []

/-- The entries whose snapshots lie before those of task `n`. -/
def snapshotsBefore (s : State) (n : Nat) : Nat := ((List.range n).map fun t => (snapshotWord.taskOf s t).length).sum

/-- What lies at a word's address, where it is a table's (R96, R181, R200, R464): the staged records lie one after the other from the first
row of the recorder's grant, the oldest first. DESIGN CHOICE (assumption 231). -/
def tableWord (s : State) (a : Nat) : Option TableWord :=
  let k := a % 32 / 8
  if a < sigTableAt then none
  else if a < sinkListAt then
    let i := (a - sigTableAt) / 32
    if (look i s.sig.entries).isSome then some (.entry i k) else none
  else if a < forceTableAt then
    let i := (a - sinkListAt) / 8
    if i < s.sig.sinks.length then some (.sink i) else none
  else if a < snapshotAt then
    let i := (a - forceTableAt) / 32
    if i < s.cyc.forces.length then some (.force i k) else none
  else if a < contextAt then snapshotWord s (a % 16 / 8) ((a - snapshotAt) / 16) (List.range 8)
  else if a < stagingAt then
    let n := (a - contextAt) / contextBytes
    if n < 64 ∧ (look n s.eng.loops).isSome ∧ s.eng.wiped = false then some (.context n ((a - contextAt) % contextBytes / 8)) else none
  else
    let i := (a - stagingAt) / 32
    if i < s.log.staged.length then some (.staged i k) else none

/-- What a table's word holds. The layouts of a force slot and of a loop context are not given: their words are open.
DESIGN CHOICE (assumption 231). -/
def tableWordOf (s : State) (cell : Nat) : TableWord → Datum
  | .entry i k => ((look i s.sig.entries).getD {}).word k
  | .sink i => (s.sig.sinks.getD i { kind := 0, ref := 0 }).word
  | .force i k => Config.forceWord (s.cyc.forces.map (·.1)) ((s.cyc.forces.map (·.2)).getD i { value := 0, aside := (0, 0) }) k cell
  | .snapshot t p k =>
    match (s.cyc.tasks.getD t {}).snapshot[p]? with
    | some x => if k = 0 then x.2.1 else x.2.2
    | none => 0
  | .image p k =>
    let i := s.hoist.mirror.getD p 0
    match look i s.hoist.image with
    | some v => if k = 0 then v.1 else v.2
    | none => 0
  | .context n k => Config.contextWord ((look n s.eng.loops).getD {}) k cell
  | .staged i k => BitVec.ofNat 64 (((s.log.staged[i]?).map fun r => fld (recBytes r) (8 * k) 8).getD 0)

/-! ### Instance data (R132, R133) -/

/-- The banks of a use that the CPU owns by the set, from the lowest. A bank that changes hands later stays among them by its use. -/
def useBanks (s : State) (u : BankUse) : List Nat := (List.range 16).filter fun n => (s.mem.banks.getD n {}).use == u

/-- The place of an address in the instance data of the image in force: the instance's number in the list and the byte of it. -/
def instanceAt (s : State) (a : Nat) : Option (Nat × Nat) :=
  let banks := useBanks s .data
  match banks.findIdx? (· == a / bankBytes) with
  | none => none
  | some j =>
    let total := banks.length * bankBytes
    let o := (j * bankBytes + a % bankBytes + total - s.cyc.dataBase % total) % total
    match s.cyc.instances.findIdx? fun x => decide (x.off ≤ o) && decide (o < x.off + x.data.length) with
    | none => none
    | some i => some (i, o - (s.cyc.instances.getD i { id := 0, typ := 0, version := 0, data := [] }).off)

/-! ### Bytes of the banks -/

/-- What a byte reads that nothing has written: 0, and QUALITY BAD_CONFIG in an undefined entry of the signal table (R193). -/
def unwritten (s : State) (a : Nat) : Byte :=
  if s.start.accepted && decide (sigTableAt ≤ a ∧ a < sinkListAt ∧ a % 32 = 8) && !sigDefined s ((a - sigTableAt) / 32) then qConfig else 0

/-- A byte at a memory address. -/
def bankByte (s : State) (a : Nat) : Byte :=
  match instanceAt s a with
  | some (i, o) => (s.cyc.instances.getD i { id := 0, typ := 0, version := 0, data := [] }).data.getD o 0
  | none => cellGet 0 a s.mem.cells ^^^ unwritten s a

/-- The eight bytes stored at a word's address. -/
def wordBytes (s : State) (base : Nat) : List Byte :=
  match tableWord s base with
  | some w => leBytes 8 (tableWordOf s (leNat (cellGets 0 base 8 s.mem.cells)) w).toNat
  | none => (List.range 8).map fun i => bankByte s (base + i)

/-- A byte written at a memory address. -/
def putBankByte (a : Nat) (v : Byte) (s : State) : State :=
  match instanceAt s a with
  | some (i, o) => onCyc (fun c => { c with instances := c.instances.modify i fun x => { x with data := x.data.set o v } }) s
  | none => onMem (fun m => { m with cells := cellPut 0 a (v ^^^ unwritten s a) m.cells }) s

/-- Eight bytes written at a word's address, as they are: what they mean is the table's. -/
def putWordBytes (base : Nat) (w : List Byte) (s : State) : State :=
  let d : Datum := BitVec.ofNat 64 (leNat w)
  match tableWord s base with
  | some (.entry i k) => onSig (fun g => { g with entries := change i (fun e => e.putWord k d) g.entries }) s
  | some (.sink i) => onSig (fun g => { g with sinks := g.sinks.set i { kind := field d 0 8, ref := BitVec.ofNat 32 (field d 32 32) } }) s
  | some (.snapshot t p k) =>
    onCyc (fun c => { c with tasks := c.tasks.modify t fun x =>
      { x with snapshot := x.snapshot.modify p fun y => (y.1, if k = 0 then (d, y.2.2) else (y.2.1, d)) } }) s
  | some (.image p k) =>
    let i := s.hoist.mirror.getD p 0
    onHoist (fun h => { h with image := change i (fun v => if k = 0 then (d, v.2) else (v.1, d)) h.image }) s
  | some (.staged i k) =>
    onLog (fun l => { l with staged := l.staged.modify i fun r => { r with raw := some (overlay (recBytes r) (8 * k) w) } }) s
  | some (.force ..) | some (.context ..) => onMem (fun m => { m with cells := cellPuts 0 base w m.cells }) s
  | none => forAll ((List.range 8).zip w) (fun x t => putBankByte (base + x.1) x.2 t) s

end Sys2Proof.Machine
end

