-- ==== Sys2Proof/Machine/Frames.lean ====
section
/-! DEFINITION. The module's identity on its wires, its time of release instants, and the frames of EtherType 0x88B5 that it
builds (09_pair_and_takeover.md R229 to R232, R238; 11_ring_and_stations.md R286 to R289). -/

namespace Sys2Proof.Machine

/-! ### Identity -/

/-- A header before any was accepted. -/
def noHeader : Header :=
  { level := 0, flags := 0, keyId := 0, seq := 0, startSet := 0, kind := 0, name := [], pairId := 0, digest0 := [],
    digest1 := [], gen0 := 0, gen1 := 0, signer := 0 }

/-- The accepted header. -/
def hdr (s : State) : Header := s.start.header.getD noHeader

/-- Whether the module is a pair side: STATION_KIND 1 or 2 of an accepted key (R226). -/
def isPairSide (s : State) : Bool := s.start.accepted && ((hdr s).kind == 1 || (hdr s).kind == 2)

/-- OWNER_ID: the PAIR_ID of a pair, or the KEY_ID of a SOLO module (R286). -/
def ownerId (s : State) : Nat := if (hdr s).kind = 1 ∨ (hdr s).kind = 2 then (hdr s).pairId else (hdr s).keyId

/-! ### Release instants (R125) -/

def taskAt (s : State) (n : Nat) : Task := s.cyc.tasks.getD n {}

/-- The epoch release instants count from: the release epoch, or in a STOP that has not yet entered RUN the first whole
millisecond after the start ended (R297). -/
def epochOf (s : State) : Int := s.cyc.epoch.getD s.cyc.stopEpoch

/-- The release instant m of a task on the module's base, in ns (R125). -/
def releaseAt (s : State) (n m : Nat) : Nat :=
  (epochOf s + (((taskAt s n).offset + m * (taskAt s n).period) * 1000000 : Nat)).toNat

/-- The next whole millisecond of the monotonic base after an instant. -/
def nextMs (t : Nat) : Nat := (t / 1000000 + 1) * 1000000

/-- Whether the module has release instants of a task: it is enabled, and a JACK runs no process program (R19, R124). -/
def taskRuns (s : State) (n : Nat) : Bool := (taskAt s n).enabled && s.sys.role != .jack

/-- The index of the first release instant of a task, of an epoch, that does not lie before an instant (R125). -/
def Task.firstIndex (t : Task) (epoch : Int) (now : Nat) : Nat :=
  let behind := ((now : Int) - (epoch + (t.offset * 1000000 : Nat))).toNat
  let p := max (t.period * 1000000) 1
  (behind + p - 1) / p

/-- The next release instant of T0, or the next whole millisecond where T0 is disabled (R137, R245). -/
def nextT0 (s : State) : Nat :=
  if taskRuns s 0 then releaseAt s 0 (taskAt s 0).nextM else nextMs s.mono

/-- The first release instant of T0 at least some ns ahead; whole milliseconds where T0 is disabled (R245). -/
def t0Ahead (s : State) (ahead : Nat) : Nat :=
  let t := s.mono + ahead
  if taskRuns s 0 then releaseAt s 0 ((taskAt s 0).firstIndex (epochOf s) t)
  else (t + 999999) / 1000000 * 1000000

/-- How far a standby's release instants may lie from the active's, in ns (R248). -/
def trackNs : Nat := 10000

/-! ### Frames -/

/-- A frame of R229: type, VERSION 1, LENGTH, the bytes from byte 4, and the CRC-32C. -/
def frameBytes (t : Nat) (mid : List Byte) : List Byte :=
  let l := leBytes 1 t ++ [1] ++ leBytes 2 (mid.length + 8) ++ mid
  l ++ leBytes 4 (crc32c l)

/-- Whether a frame of a type passes R229: VERSION, LENGTH and CRC. -/
def frameOk (t : Nat) (l : List Byte) : Bool :=
  let n := fld l 2 2
  fld l 0 1 == t && fld l 1 1 == 1 && decide (8 ≤ n) && decide (n ≤ l.length)
    && crc32c (l.take (n - 4)) == fld l (n - 4) 4

/-- The bytes of a pennant (R231). -/
def pennantBytes (p : Pennant) : List Byte :=
  frameBytes 0x40
    (leBytes 8 p.pairId ++ leBytes 1 p.side ++ leBytes 1 p.role ++ leBytes 1 p.mode ++ leBytes 1 p.flags ++ leBytes 8 p.seq
      ++ leBytes 4 p.epoch ++ leBytes 2 p.gen ++ leBytes 1 p.set ++ leBytes 1 p.level ++ leBytes 32 p.digest
      ++ leBytes 8 p.mono ++ leBytes 8 p.nextT0 ++ leBytes 1 p.command ++ leBytes 1 p.arg ++ leBytes 2 p.cmdSeq
      ++ leBytes 8 p.cmdAt ++ leBytes 4 p.newEpoch ++ leBytes 8 p.lastHoist)

/-- Whether a change is prepared on this side: PREPARED of a pennant (R168). -/
def olcPrepared (s : State) : Bool := s.olc.phase == .prepared || s.olc.phase == .announced

/-- The pennant the module sends now, with a command's fields: kind, argument, number, instant, epoch (R231). -/
def ownPennant (s : State) (cmd arg num at_ new : Nat) : Pennant :=
  { pairId := (hdr s).pairId, side := s.pair.side, role := s.sys.role.code, mode := s.sys.mode.code
    flags := bit s.sys.stale + 2 * bit (olcPrepared s) + 4 * bit s.pair.accepted.isSome + 8 * bit s.pair.client.reachable
      + 16 * bit s.pair.mismatch
    seq := s.pair.seq, epoch := s.pair.epoch, gen := s.olc.gen, set := s.olc.set, level := s.sys.level
    digest := s.olc.digest, mono := s.mono, nextT0 := if s.sys.role == .active then nextT0 s else 0
    command := cmd, arg := arg, cmdSeq := num, cmdAt := at_, newEpoch := new
    lastHoist := s.hoist.seq.getD 0 }

/-- One pennant leaves; SEQ advances (R232). -/
def sendPennant (cmd arg num at_ new : Nat) (s : State) : State :=
  onPair (fun p => { p with seq := p.seq + 1 })
    (sendFrame .pennant s.pair.side s.pair.seq { ports := [3], dest := 0x01524D000010 } (pennantBytes (ownPennant s cmd arg num at_ new)) s)

/-- The bytes of a Jack frame (R238). -/
def jackBytes (f : JackFrame) : List Byte :=
  frameBytes f.typ (leBytes 8 f.pairId ++ leBytes 1 f.side ++ leBytes 1 f.arg ++ leBytes 2 f.num ++ leBytes 4 f.epoch)

/-! ### Ring frames (R286 to R289) -/

/-- The place of a RING item of a station (R284). -/
def ringSlot (st : Nat) (ref : Word) : Option Slot :=
  if field ref 25 7 = st then some { byte := field ref 13 10, bit := field ref 10 3, qual := ref.getLsbD 9 }
  else none

/-- The ring ports that can send a frame (R280, R302). -/
def ringPorts (s : State) : List Nat :=
  (if s.ring.link1 && !s.ring.blocked1 && !s.ring.txHalt1 then [1] else [])
    ++ (if s.ring.link2 && !s.ring.blocked2 && !s.ring.txHalt2 then [2] else [])

/-- Whether a frame of the module can leave on some ring port (R302). -/
def ringSends (s : State) : Bool := s.ring.runs && !(ringPorts s).isEmpty

/-- A frame of the module leaves on the ring, on both ports, with its HSR tag and one HSR sequence number (R280). -/
def ringSend (k : SentKind) (unit num dest : Nat) (body : List Byte) (s : State) (typ : Nat := 0x88B5) : State :=
  if ringSends s then
    onRing (fun r => { r with hsrSeq := r.hsrSeq + 1 })
      (sendFrame k unit num { ports := ringPorts s, dest := dest, hsr := some s.ring.hsrSeq.toNat, typ := typ } body s)
  else s

/-- A Jack frame leaves on the paths that the STATION section names: the ring, or P4 with an 802.1Q tag of priority 7 (R226, R229, R230).
DESIGN CHOICE (assumption 232). -/
def jackSend (k : SentKind) (unit num dest : Nat) (body : List Byte) (s : State) : State :=
  let s := if s.pair.jackRing then ringSend k unit num dest body s else s
  if s.pair.jackP4 then sendFrame k unit num { ports := [4], dest := dest, tag := some 7 } body s else s

/-- INPUT_AT of an OUTPUT launched at an instant (R289). -/
def inputAt (s : State) (task launch : Nat) : Nat :=
  let next := releaseAt s task (taskAt s task).nextM
  let us := ((next : Int) - launch - s.ring.inputLead * 1000) / 1000
  if us < 10 then 0xFFFFFFFF else min us.toNat 0xFFFFFFFF

/-- The OUTPUT frame (R289). -/
def outputBytes (s : State) (st flags session cycle inAt : Nat) (data : List Byte) : List Byte :=
  frameBytes 0x22
    (leBytes 8 (ownerId s) ++ leBytes 1 st ++ leBytes 1 flags ++ leBytes 2 session ++ leBytes 4 s.pair.epoch
      ++ leBytes 8 cycle ++ leBytes 4 inAt ++ leBytes 2 data.length ++ leBytes 2 0 ++ data)

def onStation (n : Nat) (f : Station → Station) (s : State) : State :=
  onRing (fun r => { r with stations := r.stations.map fun x => if x.num = n then f x else x }) s

def stationOf (s : State) (n : Nat) : Option Station := s.ring.stations.find? fun x => x.num == n

/-- The process data of a station: the latest values of its sinks, with forces (R298). -/
def stationData (s : State) (x : Station) : List Byte := buildPayload s 3 (ringSlot x.num) x.outLen

/-- One OUTPUT of a LIVE station leaves; FIRST marks the first of a session (R289, R293). -/
def sendOutput (safe : Bool) (data : List Byte) (cycle launch : Nat) (x : Station) (s : State) : State :=
  onStation x.num (fun x => { x with first := false })
    (ringSend .ringOutput x.num cycle (x.addr.getD 0)
      (outputBytes s x.num (bit safe + 2 * bit x.first) x.session cycle (inputAt s x.task launch) data) s)

/-- One OUTPUT with SAFE set and zero data to each LIVE station (R299). -/
def ringSafeOnce (s : State) : State :=
  forAll (s.ring.stations.filter fun x => x.st == .live) (fun x t =>
    sendOutput true (List.replicate x.outLen 0) (taskAt t x.task).cycleM t.mono x t) s

/-- The announcement of a new owner: STATION 0, ANNOUNCE, its epoch (R300). -/
def ringAnnounce (s : State) : State :=
  ringSend .ringOutput 0 0 0x01524D000022 (outputBytes s 0 4 0 0 0xFFFFFFFF []) s

/-- No built output waits for its launch any more (R299, R319). -/
def launchesDrop (s : State) : State :=
  onTime (fun t => { t with launches := [] })
    (onRing (fun r => { r with stations := r.stations.map fun x => { x with waiting := none } }) s)

/-- The ADMIT of a station (R288). -/
def admitBytes (s : State) (x : Station) (typ : Nat) : List Byte :=
  frameBytes 0x21
    (leBytes 8 (ownerId s) ++ leBytes 1 x.num ++ leBytes 1 0 ++ leBytes 2 x.session ++ leBytes 4 s.pair.epoch
      ++ leBytes 2 x.outLen ++ leBytes 2 x.inLen ++ leBytes 2 x.watchdog ++ leBytes 2 0
      ++ leBytes 4 ((taskAt s x.task).period * 1000) ++ leBytes 4 typ)

end Sys2Proof.Machine
end

