-- ==== Sys2Proof/Machine/PanelDraw.lean ====
section
/-! DEFINITION. What the status panel draws: the eight lines, their pixels, and the drive codes and length of an update
(20_status_panel.md R502, R506, R507, R512). -/

namespace Sys2Proof.Machine

/-! ### Text (R502) -/

/-- The code points of UTF-8 bytes up to the first zero byte; a byte that opens no sequence is a "?". PRESUMED (assumption 288). -/
def utf8 : Nat → List Byte → List Nat
  | 0, _ => []
  | _, [] => []
  | n + 1, b :: l =>
    let c := b.toNat
    let more := fun (k lead : Nat) =>
      if (l.take k).length = k ∧ (l.take k).all fun x => x.toNat / 64 == 2 then
        (l.take k).foldl (fun v x => v * 64 + x.toNat % 64) lead :: utf8 n (l.drop k)
      else 0x3F :: utf8 n l
    if c = 0 then []
    else if c < 0x80 then c :: utf8 n l
    else if c / 32 = 6 then more 1 (c % 32)
    else if c / 16 = 14 then more 2 (c % 16)
    else if c / 8 = 30 then more 3 (c % 8)
    else 0x3F :: utf8 n l

/-- A text of the spec as code points. -/
def textOf (l : String) : List Nat := l.toList.map Char.toNat

/-- The digits of a number in a base up to 16, `k` of them. -/
def digits (base : Nat) : Nat → Nat → List Nat
  | 0, _ => []
  | k + 1, n => digits base k (n / base) ++ [(let d := n % base; if d < 10 then 0x30 + d else 0x37 + d)]

/-- A number in decimal without leading zeros. -/
def decimal (n : Nat) : List Nat :=
  let l := (digits 10 20 n).dropWhile (· == 0x30)
  if l.isEmpty then [0x30] else l

/-- One place of a line: a character, and whether it is inverse. -/
structure Cell where
  char    : Nat
  inverse : Bool := false
  deriving DecidableEq, Repr

/-- Items side by side, one space between them. DESIGN CHOICE (assumption 289). -/
def spaced (items : List (List Nat)) : List Nat := [0x20].intercalate (items.filter (!·.isEmpty))

/-- A line of 37 characters. -/
def lineOf (l : List Nat) : List Cell := (l.take 37).map fun c => { char := c }

/-- The names of ROLE and MODE in the order of their codes (R28). -/
def roleNames : List String := ["NONE", "SOLO", "ACTIVE", "STANDBY", "JACK"]
def modeNames : List String := ["STARTING", "RUN", "STOP", "HOLD", "HARBOUR", "HALTED"]

/-- The name of a start result (R52). -/
def resultName (code : Nat) : String :=
  (["OK", "KEY_ABSENT", "KEY_UNREADABLE", "KEY_REMOVED", "KEY_HEADER_BAD", "KEY_FORMAT", "KEY_SIGNATURE", "KEY_LEVEL", "KEY_DIRECTORY_BAD",
    "KEY_SECTION_BAD", "KEY_SECTION_UNKNOWN", "CONFIG_LIMIT", "CONFIG_INCONSISTENT", "PAIR_CONFIG_MISMATCH", "", "", "CLOCK_FAIL",
    "MEM_CODER_FAIL", "MEM_SPARE_EXHAUSTED"] : List String).getD code ""

/-- Line 3: role, mode, STALE, CONFIG_ERROR, the level, and the force mark. -/
def stateLine (p : Picture) : List Cell :=
  let l := spaced [textOf (roleNames.getD p.role ""), textOf (modeNames.getD p.mode ""), if p.stale then textOf "STALE" else [],
    if p.configError then textOf "CONFIG_ERROR" else [], 0x4C :: decimal p.level]
  let mark : Cell := { char := 0x46, inverse := true }
  (lineOf (if p.forced then l ++ [0x20] else l) ++ if p.forced then [mark] else []).take 37

/-- Line 4: KEY_ID in four groups of four digits, START_SET and GENERATION. -/
def keyLine (p : Picture) : List Cell :=
  match p.key with
  | none => lineOf (textOf "NO KEY")
  | some (id, set, gen) =>
    let group := fun i => digits 16 4 (id / 65536 ^ i)
    lineOf (spaced [group 3, group 2, group 1, group 0, decimal set, decimal gen])

/-- Line 5: START_RESULT or the module serial, then the counts of the picture (R502, R504). DEDUCED (assumption 286). -/
def resultLine (p : Picture) (power opsec : Nat) : List Cell :=
  let first := if p.result = 0 then (Config.serialText p.serial).map (·.toNat) else textOf (resultName p.result)
  lineOf (spaced [first, decimal power, decimal opsec])

/-- One of lines 6 to 8: CODE in hex, the event name cut to 14, POWER_CYCLE and OPSEC. -/
def recordLine (level : Nat) (r : PanelRec) : List Cell :=
  lineOf (spaced [digits 16 4 (codeWord r.code), (Config.eventName level (codeWord r.code)).take 14, decimal r.power, decimal r.opsec])

/-- The eight lines of a picture, drawn with the counts at the start of its update. -/
def pictureLines (p : Picture) (power opsec : Nat) : List (List Cell) :=
  [lineOf p.name, lineOf p.location, stateLine p, keyLine p, resultLine p power opsec] ++ p.recs.map (recordLine p.level)

/-! ### Pixels -/

/-- The panel's columns, and its pixels. -/
def panelWidth : Nat := 296
def panelPixels : Nat := 37888

/-- Whether a pixel of a character is black; a character that the font lacks is a "?" (R502). -/
def inkOf (c : Cell) (row col : Nat) : Bool :=
  (Config.glyph (if Config.fontHas c.char then c.char else 0x3F) row col) != c.inverse

/-- The grey of a pixel of eight lines, 0 white or 3 black: each character has a place of 8 by 16 pixels. DEDUCED (assumption 286). -/
def linesGrey (l : List (List Cell)) (i : Nat) : Nat :=
  let x := i % panelWidth
  let y := i / panelWidth
  match (l.getD (y / 16) [])[x / 8]? with
  | none => 0
  | some c => if inkOf c (y % 16) (x % 8) then 3 else 0

/-- The grey of a pixel of an image (R506). -/
def greyOf (x : Shown) (power opsec i : Nat) : Nat :=
  match x with
  | .white => 0
  | .picture p => linesGrey (pictureLines p power opsec) i

/-- The image as the backup domain holds it, 2 bits a pixel in 9,472 bytes (R509). -/
def imageByte (x : Shown) (power opsec k : Nat) : Byte :=
  BitVec.ofNat 8 (((List.range 4).map fun j => greyOf x power opsec (4 * k + j) * 4 ^ j).sum)

/-! ### Sequences and their length (R506, R507) -/

/-- The stored sequence of a pixel by old grey, new grey and band; old grey 4 is UNKNOWN. -/
def PanelFlash.sequence (f : PanelFlash) (old new band : Nat) : List Nat :=
  ((f.wave.find? fun r => r.old == old && r.new == new && r.band == band).map (·.codes)).getD []

/-- V_S of a band in 10 mV, 10.0 V to 15.0 V in 0.1 V steps. -/
def PanelFlash.volts (f : PanelFlash) (band : Nat) : Nat := 10 * max 100 (min (f.drive.getD band 100) 150)

/-- The trim of a pixel; 0 for every pixel where the trim map fails its CRC (R505). -/
def PanelFlash.trim (f : PanelFlash) (i : Nat) : Int := if f.trimOk then (look i f.trims).getD 0 else 0

/-- The last `k` driving frames dropped, of a sequence from its end backward. -/
def dropDriving : Nat → List Nat → List Nat
  | 0, l => l
  | _, [] => []
  | k + 1, 0 :: l => 0 :: dropDriving (k + 1) l
  | k + 1, _ :: l => dropDriving k l

/-- The last driving frame repeated `k` times, of a sequence from its end backward. -/
def repeatDriving (k : Nat) : List Nat → List Nat
  | [] => []
  | 0 :: l => 0 :: repeatDriving k l
  | c :: l => List.replicate k c ++ c :: l

/-- A sequence trimmed by t frames, and never beyond 48. -/
def trimmed (t : Int) (l : List Nat) : List Nat :=
  ((if 0 ≤ t then repeatDriving t.toNat l.reverse else dropDriving t.natAbs l.reverse).reverse).take 48

/-- A pass of an update: the old and the new grey of each pixel. -/
structure Pass where
  old : Nat → Nat
  new : Nat → Nat

/-- The sequence of a pixel in a pass. -/
def PanelFlash.pixel (f : PanelFlash) (band : Nat) (p : Pass) (i : Nat) : List Nat :=
  trimmed (f.trim i) (f.sequence (p.old i) (p.new i) band)

/-- The largest value of a function below a bound. -/
def maxBelow (f : Nat → Nat) : Nat → Nat
  | 0 => 0
  | n + 1 => max (f n) (maxBelow f n)

/-- The length of a pass: the longest trimmed sequence of any pixel. -/
def PanelFlash.passLength (f : PanelFlash) (band : Nat) (p : Pass) : Nat := maxBelow (fun i => (f.pixel band p i).length) panelPixels

/-- The drive code of a pixel in a frame of a pass: 0 once its sequence has ended (R507). -/
def PanelFlash.code (f : PanelFlash) (band : Nat) (p : Pass) (i frame : Nat) : Nat := (f.pixel band p i).getD frame 0

/-- From UNKNOWN to white, and from white to an image (R510, R512). -/
def clearPass : Pass := { old := fun _ => 4, new := fun _ => 0 }
def drawPass (x : Shown) (power opsec : Nat) : Pass := { old := fun _ => 0, new := greyOf x power opsec }

/-- From the displayed image to another. -/
def changePass (s : State) (x : Shown) (power opsec : Nat) : Pass :=
  { old := greyOf s.panel.shown s.panel.shownPower s.panel.shownOpsec, new := greyOf x power opsec }

/-- The passes of an update: the recovery pass, the two of a corrective refresh, or one change of the picture (R506, R510, R512). -/
def PanelUpdate.passes (s : State) (u : PanelUpdate) : List Pass :=
  if u.recovery then [clearPass]
  else if u.corrective then [clearPass, drawPass u.draws u.power u.opsec]
  else [changePass s u.draws u.power u.opsec]

/-- The lengths F of the passes of an update in a band. -/
def passLengths (s : State) (u : PanelUpdate) (band : Nat) : List Nat := (u.passes s).map (s.panel.flash.passLength band)

/-- The pass in which a frame of an update falls, and its number there. -/
def passAt : List Pass → List Nat → Nat → Option (Pass × Nat)
  | p :: ps, f :: fs, n => if n < f then some (p, n) else passAt ps fs (n - f)
  | _, _, _ => none

/-- The drive code that a pixel receives in the frame in progress (R506, R507, R512). -/
def driveCode (s : State) (i : Nat) : Nat :=
  match s.panel.update with
  | none => 0
  | some u =>
    match passAt (u.passes s) u.lengths s.panel.frame with
    | some (p, n) => s.panel.flash.code s.panel.bandLatched p i n
    | none => 0

end Sys2Proof.Machine
end

