-- ==== Sys2Proof/Machine/Panel.lean ====
section
/-! DEFINITION. The status panel's commands (20_status_panel.md R502 to R515). -/

namespace Sys2Proof.Machine

/-! ### The content (R502) -/

/-- Whether a record's severity is listed: CRITICAL, or FAULT and CRITICAL with INCLUDE_FAULT. -/
def panelListed (s : State) (r : LogRec) : Bool :=
  r.sev == .critical || (s.panel.includeFault && r.sev == .fault)

/-- A record placed among the newest three, highest SEQUENCE first. -/
def newestThree (l : List LogRec) (r : LogRec) : List LogRec :=
  ((l.filter fun x => r.seq < x.seq) ++ r :: (l.filter fun x => !(r.seq < x.seq))).take 3

/-- The three stored records of highest SEQUENCE among those listed, newest first. -/
def panelRecs (s : State) : List PanelRec :=
  ((s.log.slots.filterMap fun p => if panelListed s p.2 then some p.2 else none).foldl newestThree []).map fun r =>
    { code := r.code, power := r.power, opsec := r.opsec }

/-- The content as it stands. -/
def pictureOf (s : State) : Picture :=
  { name := if s.start.accepted then utf8 32 (hdr s).name else []
    location := utf8 32 s.panel.location
    role := s.sys.role.code, mode := s.sys.mode.code, stale := s.sys.stale, configError := s.cyc.configError
    level := s.sys.level, forced := !s.cyc.forces.isEmpty
    key := if s.start.accepted then some ((hdr s).keyId, s.olc.set, s.olc.gen) else none
    result := s.cyc.startResult, serial := s.sec.serial
    recs := panelRecs s }

/-! ### Bands (R506) -/

/-- The lower bounds of bands 1 to 7 in 0.01 °C. -/
def bandBounds : List Int := [0, 800, 1600, 2400, 3200, 4000, 5000]

/-- The band of a temperature. -/
def bandOf (t : Int) : Nat := (bandBounds.filter fun b => b ≤ t).length

/-- The band with its hysteresis: it rises at a bound and falls 1 °C below it. DEDUCED (assumption 220). -/
def bandNext (band : Nat) (t : Int) : Nat :=
  let up := bandOf t
  if band ≤ up then up else min band (bandOf (t + 100))

/-- A reading of the panel sensor. -/
def panelTemp (t : Int) (s : State) : State :=
  onPanel (fun p => { p with temp := t, band := bandNext p.band t }) s

/-- PANEL_TEMP_READ (R506). -/
def execPanelTempRead (t : Int) (s : State) : Out := answer (panelTemp t s)

/-! ### Requests (R503, R504, R512) -/

/-- Whether the panel may draw at all: enabled, its tables good, not stopped until the next start, and not in harbour watch
(R504, R505, R511). -/
def panelMay (s : State) : Bool :=
  s.panel.enabled && !s.panel.noUpdate && !s.panel.disabled && s.sys.mode != .harbour && s.pwr.hbr == .none

/-- The comparison made once a second. -/
def panelCompare (s : State) : State :=
  if panelMay s && railsOn s && (s.panel.unknown || s.panel.shown != .picture (pictureOf s)) then
    onPanel (fun p => { p with pending := true }) s
  else s

/-- PANEL_COMPARE (R503). -/
def execPanelCompare (s : State) : Out := answer (panelCompare s)

/-- A write of PANEL_REQ (R514). -/
def panelRequest (v : Word) (s : State) : State :=
  if v.getLsbD 0 then onPanel (fun p => { p with correctiveDue := true }) s else s

/-- PANEL_REFRESH_REQ (R512, R514). -/
def execPanelRefreshReq (v : Word) (s : State) : Out := answer (panelRequest v s)

/-! ### An update (R506 to R512) -/

/-- The energy an update must find, in 0.1 mJ: 400 mJ and 1.5 times W_E of each of its passes (R507, R508, R512). -/
def panelNeeds (lengths : List Nat) : Nat := 4000 + (lengths.map fun f => 30 + 18 * f).sum

/-- The update that a start makes: the recovery pass, a corrective refresh of the same picture, or the picture of R502, with the counts
that the picture kept in harbour watch shows (R504). DEDUCED (assumption 220). -/
def updateFor (s : State) : PanelUpdate :=
  let plain : PanelUpdate :=
    { draws := .picture (pictureOf s), recovery := false, corrective := false, power := s.log.power, opsec := s.log.opsec }
  let u : PanelUpdate :=
    if s.panel.unknown then { plain with draws := .white, recovery := true }
    else if s.panel.correctiveDue then
      { draws := s.panel.shown, recovery := false, corrective := true, power := s.panel.shownPower, opsec := s.panel.shownOpsec }
    else plain
  { u with lengths := passLengths s u s.panel.band }

/-- An update starts once every condition holds, with the band latched and V_S set from the panel's own table; a failed energy check is counted
(R503, R506, R508, R509). -/
def panelStart (s : State) : State :=
  if panelMay s && railsOn s && (s.panel.pending || s.panel.correctiveDue) && s.panel.update.isNone && decide (-2000 ≤ s.panel.temp)
      && s.panel.startedAt.all (fun (t : Int) => decide (t + s.panel.minInterval * nsPerSec ≤ (s.mono : Int))) then
    let u := updateFor s
    if s.pwr.energy * 10 < panelNeeds u.lengths then
      onPanel (fun p => { p with deferred := satInc 32 p.deferred }) s
    else
      onPanel (fun p =>
        { p with
          update := some u, inProgress := true, frame := 0, vsOutRun := 0, bandLatched := p.band
          lastF := u.lengths.foldl max 0, lastEnergy := (divEven (panelNeeds u.lengths) 10).toNat, vsSet := p.flash.volts p.band
          startedAt := some (s.mono : Int)
          correctiveDue := p.correctiveDue && !u.corrective
          pending := p.pending && u.corrective }) s
  else s

/-- PANEL_UPDATE_START (R503, R507 to R510). F and V_S come from the panel's own tables, not from the sender. -/
def execPanelUpdateStart (_frames _vs : Nat) (s : State) : Out := answer (panelStart s)

/-- The end of an update (R509 to R512): the image stored, the flag cleared, the band taken again.
DEDUCED (assumption 221). -/
def panelEnd (u : PanelUpdate) (s : State) : State :=
  let far := s.panel.band + 2 ≤ s.panel.bandLatched || s.panel.bandLatched + 2 ≤ s.panel.band
  let s := onPanel (fun p =>
    { p with
      update := none, inProgress := false, frame := 0, shown := u.draws, shownPower := u.power, shownOpsec := u.opsec
      unknown := p.unknown && !u.recovery, driveRun := 0
      updates := satInc 32 p.updates
      correctiveDue := p.correctiveDue || far
      flags := if far then flag 2 p.flags else p.flags }) s
  if u.recovery then raise .panelRecovered .notice 0xFF 0 0 0 (onPanel (fun p => { p with flags := flag 0 p.flags }) s)
  else s

/-- Whether the frame in progress has lasted its 20 ms (R506). Without logic power the monotonic base stands, and tells nothing. -/
def frameOver (s : State) : Bool :=
  s.pwr.railsOff || s.panel.startedAt.all fun (t : Int) => decide (t + (s.panel.frame + 1) * 20000000 ≤ (s.mono : Int))

/-- One frame is driven, outside harbour watch (R504), with V_S as measured, in 10 mV; `bad` is a word of the frame buffers that it met (R506, R511). -/
def panelFrame (vs : Nat) (bad : Option Place) (s : State) : State :=
  match s.panel.update.filter fun _ => frameOver s && s.pwr.hbr == .none with
  | none => s
  | some u =>
    match bad.bind fun p => metBad .panel p s with
    | some t => panelStops true t
    | none =>
      let out := decide (vs * 100 < s.panel.vsSet * 97) || decide (s.panel.vsSet * 103 < vs * 100)
      let s := onPanel (fun p => { p with vsMeas := vs, vsOutRun := if out then p.vsOutRun + 1 else 0 }) s
      if 2 ≤ s.panel.vsOutRun then panelStops false s
      else if s.panel.frame + 1 < u.lengths.sum then onPanel (fun p => { p with frame := p.frame + 1 }) s
      else panelEnd u s

/-- PANEL_FRAME (R506, R509, R511). -/
def execPanelFrame (vs : Nat) (bad : Option Place) (s : State) : Out := answer (panelFrame vs bad s)

end Sys2Proof.Machine
end

