-- ==== Sys2Proof/Machine/Roles.lean ====
section
/-! DEFINITION. Taking and leaving a role, the ensign epoch, STALE, and the halt of R140 (05_program_cycle.md R139 to R141,
06_online_change.md R176, 09_pair_and_takeover.md R235, R236, R242, R246, 10_hoist_codec.md R273). -/

namespace Sys2Proof.Machine

/-! ### An ending of an online change (R176, R177) -/

/-- No switch is announced or agreed any more. -/
def dropSwitch (s : State) : State :=
  onPair (fun p => { p with cmd := p.cmd.filter fun c => c.kind != 2, accepted := p.accepted.filter fun c => c.kind != 2 }) s

/-- An ending: the phase, RESULT and the record of OLC_RESULT; the prepared image and the announced switch are discarded. -/
def olcEnd (code : Nat) (sev : Severity) (s : State) : State :=
  raise .olcResult sev 0xFF code 0 0
    (onMem (fun m => { m with olcWriting := false })
      (onOlc (fun o => { o with phase := .idle, result := code, switchAt := none, retries := 0, partnerReady := false }) (dropSwitch s)))

/-- Whether a change stands before its switch: PHASE 1 to 5 or 8. -/
def OlcPhase.before : OlcPhase → Bool
  | .receiving | .verifying | .preparing | .prepared | .announced | .staged => true
  | .idle | .switched | .confirming => false

/-- A change before its switch ends (R176). -/
def olcAbandon (code : Nat) (s : State) : State :=
  if s.olc.phase.before then olcEnd code .notice s else s

/-- Result codes of CYC_OLC_STATUS (R179). -/
def olcAborted : Nat := 2
def olcAbandoned : Nat := 3
def olcPartnerLost : Nat := 13

/-! ### The ensign epoch (R235, R236) -/

/-- An epoch is held: in the backup domain and in MRAM. -/
def storeEpoch (e : Nat) (s : State) : State := onPair (fun p => { p with epoch := e, epochCopy := e }) s

/-- A SOLO module raises its epoch above a station's HIGHEST (R235). -/
def raiseEpoch (highest : Nat) (s : State) : State :=
  if s.sys.role = .solo ∧ s.pair.epoch < highest then
    raise .epochRaised .notice 0xFF (highest + 1) 0 0 (storeEpoch (highest + 1) s)
  else s

/-! ### STALE (R273) -/

/-- The image is not whole; STALE stands, with HOIST_STALE on entering it: cause 1 join, 2 lost, 3 late, 4 overflow,
5 generation, 6 silence. DEDUCED (assumption 139). -/
def becomeStale (cause : Nat) (s : State) : State :=
  let s := onHoist (fun h => { h with imageOk := false, catching := false, onlyOver := false }) s
  if s.sys.stale then s
  else raise .hoistStale .notice 0xFF cause 0 0 (onSys (fun y => { y with stale := true }) s)

/-! ### Leaving and taking ACTIVE -/

/-- What a side that leaves ACTIVE for STANDBY stops: its pending transmissions retire with ROLE_LOST, a CAN frame in its attempt at the attempt's
end; no port is the master of its book, and HART stops (R351, R404, R495). DEDUCED (assumption 279). -/
def stopSending (s : State) : State :=
  let s := retireAll (fun x => x.user == userSerial || x.user == userHart) retRoleLost s
  let s := forAll (s.que.held.filter fun d => d.st == .pending && (queueAt s d.queue).user == userCan)
    (fun d t => retire d.handle retRoleLost none t) s
  let s := forAll [1, 2, 3, 4] (fun p t => onBook p (fun b => { b with current := false }) t) s
  hartStops { s with ser := { s.ser with lines := s.ser.lines.map fun l => { l with tx := none, heard := none } } }

/-- An ACTIVE side becomes STANDBY. -/
def toStandby (s : State) : State :=
  let s := onHoist (fun h => { h with expect := h.seq.map (· + 1), sawOverflow := false, heardAt := s.mono }) s
  launchesDrop (stopSending (onPair (fun p => { p with st := .standby, cmd := none })
    (onSys (fun y => { y with role := .standby }) s)))

/-- An ACTIVE side that learns of a higher epoch (R236): STANDBY (STALE), SUPERSEDED and the record; its own epoch becomes
the highest it knows. -/
def supersede (e : Nat) (s : State) : State :=
  let s := onPair (fun p => { p with flags := flag 4 p.flags, epoch := max p.epoch e, epochCopy := max p.epoch e }) s
  let s := onSafe (fun x => { x with funcs := x.funcs.map fun f => { f with ownReq := false } }) s
  let s := olcAbandon olcAbandoned s
  becomeStale 1 (toStandby (raise .epochSuperseded .fault 0xFF 0 0 0 s))

/-- A higher epoch is seen by a side (R236): an ACTIVE one is superseded, a standby takes it as the highest it knows.
DEDUCED (assumption 120). -/
def seeEpoch (e : Nat) (s : State) : State :=
  if s.pair.epoch < e then
    if s.sys.role = .active then supersede e s
    else if s.sys.role = .standby then storeEpoch e s else s
  else s

/-- The cycle records of a hoist, one for each enabled MIRRORED task, before any cycle (R261, R269). -/
def freshCycles (s : State) : List CycleRec :=
  ((List.range 8).filter fun n => taskRuns s n && (taskAt s n).mirrored).map fun n =>
    { task := n, done := false, skips := 0, m := 0, digest := 0, firstSkip := 0 }

/-- A side enters ACTIVE (R242, R268, R300, R404): the announcement, stations in ADMITTING as IDLE, sessions whose first output was the old
owner's, its outputs wait for their first posting, its hoists go on from the SEQ last applied, HART afresh. DEDUCED (assumption 140). -/
def enterActive (s : State) : State :=
  let s := onPair (fun p => { p with st := .active, accepted := none, aligned := true }) s
  let s := onSys (fun y => { y with role := .active, stale := false }) s
  let s := onRing (fun r => { r with stations := r.stations.map fun x =>
    let x := { x with first := false }
    if x.st = .admitting then { x with st := .idle, held := none } else x }) s
  let s := onHoist (fun h => { h with catching := false, fragSeq := none, fragNext := 0, fragData := [], fragLate := false,
                                      coded := h.image.map (fun p => (p.1, (p.2.1, copyQual p.2.2))), written := [], carried := [], gathers := [], cycles := freshCycles s,
                                      seq := h.lastApplied,
                                      awaiting := [], ran := [] }) s
  let s := { s with dio := { s.dio with ch := s.dio.ch.map fun c => { c with posted := false } }
                    ana := { s.ana with ch := s.ana.ch.map fun c => { c with posted := false } } }
  hartAfresh (ringAnnounce s)

/-- The condition of tamper source 1 stands in RUN only (R486). -/
def keyTamperEnds (m : Mode) (s : State) : State :=
  if m = .run then s else onSec (fun x => { x with standing := x.standing.modify 1 fun _ => false }) s

/-- The mode changes; an armed injection is dropped when it leaves STOP (R113). -/
def setMode (m : Mode) (s : State) : State :=
  onSys (fun y => { y with mode := m })
    (keyTamperEnds m (if m = .stop then s else onMem (fun x => { x with inject := { x.inject with armed := false } }) s))

/-- The mirror channel halts (R106): no hoist is sent or applied until the next start; a standby shows STALE.
DEDUCED (assumption 65). DEDUCED (assumption 135). -/
def mirrorHalts (s : State) : State :=
  let s := onHoist (fun h => { h with halted := true }) s
  if s.sys.role = .standby then becomeStale 2 s else s

/-! ### Halting (R140) -/

/-- Every cycle ends where it stands; nothing is posted and nothing is held, an aligned output of a loop included. -/
def stopTasks (s : State) : State :=
  onEng (fun e => { e with loops := e.loops.map fun p => (p.1, { p.2 with pendingOut := none }) })
    (onCyc (fun c => { c with draining := false, tasks := c.tasks.map fun t =>
      { t with cycleAt := none, started := false, held := none } }) s)

/-- HANDOVER_NOW in three pennants (R246), while the module holds a pair role. -/
def handoverNow (s : State) : State :=
  if isPairSide s && (s.sys.role == .active || s.sys.role == .standby) then
    let n := (s.pair.cmdSeq + 1) % 65536
    let p := sendPennant 4 0 n 0 (s.pair.epoch + 1)
    p (p (p (onPair (fun x => { x with cmdSeq := n }) s)))
  else s

/-- The module gives up its role (R18): no pair state, no command; the HART entries of an ACTIVE side end with ROLE_LOST (R405). -/
def dropRole (s : State) : State :=
  let s := if s.sys.role == .active then retireAll (fun x => x.user == userHart) retRoleLost s else s
  let s := onSafe (fun x => { x with funcs := x.funcs.map fun f => { f with ownReq := false } }) s
  launchesDrop (onPair (fun p => { p with st := .none, cmd := none, accepted := none })
    (onSys (fun y => { y with role := .none, stale := false }) s))

/-- Every HOLD channel is released to off (R140, R377). -/
def releaseAllHolds (s : State) : State := releaseHolds (fun _ _ => true) (fun c => { c with relOther := true }) s

/-- What every field bus of the module does when it stops: CAN goes OFF, HART impedances are bridged (R351, R404). -/
def busesStop (s : State) : State :=
  hartStops (canAllOff { s with ser := { s.ser with lines := s.ser.lines.map fun l => { l with tx := none, heard := none } } })

/-- A halt cause takes the module to HALTED (R139 to R141, R414): the cause in the backup domain, HANDOVER_NOW, the SAFE frames of
a SOLO module, the record, no role. -/
def haltNow (cause task : Nat) (s : State) : State :=
  if s.sys.mode = .halted then s
  else
    let s := onCyc (fun c => { c with haltCause := cause, haltPower := s.log.power, pendingReq := none }) s
    let s := if cause = 8 then s else handoverNow s
    let s := if s.sys.role = .solo then ringSafeOnce s else s
    let s := raise .halt .critical 0xFF cause task 0 s
    let s := olcAbandon olcAbandoned (stopTasks s)
    let s := onStart (fun t => { t with phase := .idle }) s
    let s := onSafe (fun x => { x with funcs := x.funcs.map fun f => { f with hsOn := false, holdPhase := false, duty := 0 } }) s
    releaseAllHolds (busesStop (dropRole (setMode .halted s)))

/-- A halt of the cores, in every mode in which they run (R135). -/
def coresHalt (cause task : Nat) (s : State) : State :=
  if railsOn s && s.sys.mode != .harbour then haltNow cause task s else s

end Sys2Proof.Machine
end

