-- ==== Sys2Proof/Machine/Memory.lean ====
section
/-! DEFINITION. The commands of the memory banks (04_memory.md R97 to R118, R123). -/

namespace Sys2Proof.Machine

/-! ### Accesses (R97, R98) -/

/-- What halts when an owner meets an uncorrectable word or commits an owner fault (R106): `cause` is the CPU's halt cause. -/
def ownerDegrades (o : Owner) (u : MemUnit) (cause : Nat) (s : State) : State :=
  match o with
  | .cpu => coresHalt cause (match u with | .task n => n | _ => 0xFF) s
  | .loop => match u with | .loop n => loopHalts n s | _ => s
  | .ring => match u with | .ring port tx st => ringHalts port tx st s | _ => s
  | .mirror => mirrorHalts s
  | .canQueue => match u with | .queue q => queueHalts q s | _ => s
  | .recorder => onLog (fun l => match l.staged with
      | [] => l
      | r :: rest => dropRecord r.sev [0, 1] { l with staged := rest }) s
  | .panel => panelStops true s
  | .test => s

/-- The bytes of a word with some of its positions inverted; the check bits have no byte. -/
def flipBytes (w : List Byte) (ks : List Nat) : List Byte :=
  ks.foldl (fun w k => if k < 64 then w.modify (k / 8) fun b => b ^^^ BitVec.twoPow 8 (k % 8) else w) w

/-- A word's bytes are stored with its check bits. -/
def storeWord (base : Nat) (w : List Byte) (full : Bool) (s : State) : State := recode base full (putWordBytes base w s)

/-- Whether a row is among those an access may reach: a native block's own mapped rows (R151), any row for others. -/
def nativeMapped (s : State) (u : MemUnit) (bank row : Nat) : Bool :=
  match u with
  | .native n => s.cyc.maps.any fun m => m.native == n && m.bank == bank && decide (m.row ≤ row ∧ row < m.row + m.count)
  | _ => true

/-- One word access (R97, R100, R103, R106, R107): the bytes it returns and the state. `data` is laid over the word from
`lane`; a read has none. DEDUCED (assumption 63). -/
def wordAccess (o : Owner) (u : MemUnit) (base : Nat) (write : Option (Nat × List Byte)) (s : State) : List Byte × State :=
  let p := placeOf s base
  let row := base % bankBytes / 0x200
  let zero : List Byte := List.replicate 8 0
  if !(accessAllowed s o (base / bankBytes) row write.isSome && nativeMapped s u (base / bankBytes) row) then
    (zero, ownerDegrades o u 2 (ownerFault o p s))
  else
    match write with
    | some (0, [b0, b1, b2, b3, b4, b5, b6, b7]) =>
      let w := [b0, b1, b2, b3, b4, b5, b6, b7]
      (w, storeWord base w true s)
    | _ =>
      match codeRead p s with
      | (.bad, s) => (zero, ownerDegrades o u 1 (ueFound o p s))
      | (.good pos left, s) =>
        let w := flipBytes (wordBytes s base) left
        let s := if pos.isEmpty then s else reportCe o.code p pos left s
        match write with
        | none => (w, s)
        | some (lane, data) =>
          let w := overlay w lane data
          (w, storeWord base w false s)

/-- Bits that flip in stored words before an access: the word's address and the position.
DESIGN CHOICE (assumption 66). -/
def applyFlips (l : List (Nat × Nat)) (s : State) : State :=
  forAll l (fun f t => flipErr (placeOf t f.1) [f.2] t) s

/-- Bytes cut at the words they lie in, by the address of each: a word's address, the lane of the first byte and the bytes (R100). -/
def wordParts (addr : Nat → Nat) : Nat → Nat → List Byte → List (Nat × Nat × List Byte)
  | 0, _, _ => []
  | fuel + 1, i, l =>
    if l.isEmpty then []
    else
      let a := addr i
      let k := 8 - a % 8
      (a / 8 * 8, a % 8, l.take k) :: wordParts addr fuel (i + k) (l.drop k)

/-- A task's store into the data of an instance, word by word (R97, R106, R107): a core that traps stores nothing more. -/
def putInstance (n id off : Nat) (l : List Byte) (s : State) : State :=
  match s.cyc.instances.find? fun i => i.id == id with
  | none => s
  | some i =>
    let l := l.take (i.data.length - off)
    let addr := fun k => bankAddr (useBanks s .data) (s.cyc.dataBase + i.off + off + k)
    forAll (wordParts addr l.length 0 l) (fun x t =>
      if t.sys.mode = .halted then t else (wordAccess .cpu (.task n) x.1 (some (x.2.1, x.2.2)) t).2) s

/-- An access of 1 to 8 bytes (R97, R100): one word access, or two where it spans two words. The banks run on the core clock (R30, R31). -/
def memoryAccess (a : MemAccess) (s : State) : State :=
  let s := applyFlips a.flips (startClock .core s)
  let base := a.addr / 8 * 8
  let lane := a.addr % 8
  let first := min a.size (8 - lane)
  let w1 := if a.write then some (lane, (a.data ++ List.replicate 8 0).take first) else none
  let (b1, s) := wordAccess a.owner a.unit base w1 s
  let (b2, s) :=
    if lane + a.size ≤ 8 then ([], s)
    else
      let rest := lane + a.size - 8
      wordAccess a.owner a.unit (base + 8)
        (if a.write then some (0, ((a.data ++ List.replicate 16 0).drop first).take rest) else none) s
  if a.write then s
  else send .memRead a.owner.code a.addr ((slice b1 lane first) ++ b2.take (lane + a.size - 8)) s

/-- MEMORY_ACCESS (R97, R100 to R103, R106). DESIGN CHOICE (assumption 62). -/
def execMemoryAccess (a : MemAccess) (s : State) : Out :=
  if a.addr + a.size ≤ 16 * bankBytes then answer (settle s (memoryAccess a s)) else .fault .noSuchAddress

/-! ### Weak rows (R108, R109) -/

/-- Entries added to the weak-row record, which holds 2,048 (R109). What comes after them is not kept.
DESIGN CHOICE (assumption 223). -/
def weakAdd (weak new : List WeakEntry) : List WeakEntry := (weak ++ new).take 2048

/-- The oldest entry that waits is written to the weak-row record. -/
def weakRecordWrite (s : State) : State :=
  match s.mem.weakDue with
  | [] => s
  | w :: rest => onMem (fun m => { m with weakDue := rest, weak := weakAdd m.weak [w], weakNew := m.weakNew + 1 }) s

/-- WEAK_ROW_RECORD_WRITE (R108, R109). -/
def execWeakRowRecordWrite (s : State) : Out := answer (weakRecordWrite s)

/-! ### The scrubber (R104, R105, R107) -/

/-- The sweep period in force: 0 acts as 1 and more than 86,400 as 86,400; the first sweep after a short path runs at 1 s
(R112, R114). -/
def sweepSeconds (m : Mem) : Nat := if m.firstFast then 1 else max 1 (min m.period 86400)

/-- Whether the scrubber reads a bank: powered, and in harbour watch retained (R104, R112). -/
def scrubbed (s : State) (n : Nat) : Bool := (bankAt s n).powered && (s.sys.mode != .harbour || (bankAt s n).retained)

/-- The next bank that is read from bank `n` on, and whether the sweep wrapped. -/
def nextBank (s : State) : Nat → Nat → Bool → Nat × Bool
  | 0, n, w => (n, w)
  | fuel + 1, n, w =>
    let (m, w) := if 17 ≤ n then (0, true) else (n, w)
    if scrubbed s m then (m, w) else nextBank s fuel (m + 1) w

/-- The position moves on; at the end of a sweep it is counted and judged (R104, R112).
DESIGN CHOICE (assumption 224): SCRUB_LATE is judged when the sweep ends. -/
def scrubAdvance (s : State) : State :=
  let (b, w, wrap) :=
    if s.mem.posWord + 1 < 69632 ∧ scrubbed s s.mem.posBank then (s.mem.posBank, s.mem.posWord + 1, false)
    else
      let (b, wrap) := nextBank s 18 (s.mem.posBank + 1) false
      (b, 0, wrap)
  let late := decide (sweepSeconds s.mem * nsPerSec * 3 < (s.mono - s.mem.sweepAt) * 2)
  onMem (fun m =>
    let m := { m with posBank := b, posWord := w }
    if wrap then
      { m with sweeps := satInc 32 m.sweeps, sweepDone := true, sweepAt := s.mono, firstFast := false
               roundSwept := s.sys.mode == .harbour
               flags := if late then flag 5 m.flags else m.flags }
    else m) s

/-- The boundary of MEM_COMMIT (R115). -/
def memBoundary (s : State) : State :=
  if s.mem.commit.pending then
    onMem (fun m => { m with period := m.copied, commit := { m.commit with pending := false } }) s
  else s

/-- Whether the scrubber runs: with the logic powered; in a watch round one sweep, during the settle time (R104, R112). -/
def scrubRuns (s : State) : Bool :=
  railsOn s && (s.sys.mode != .harbour || (s.pwr.hbr == .settling && !s.mem.roundSwept))

/-- A sweep begins at the first word (R112). -/
def scrubAfresh (s : State) : State := onMem (fun m => { m with posBank := 0, posWord := 0, sweepAt := s.mono, roundSwept := false }) s

/-- The scrubber reads its next word; `flips` are positions of it that have flipped (R104, R105, R107). -/
def scrubWord (flips : List Nat) (s : State) : State :=
  if !scrubRuns s then s
  else
    let s := memBoundary (startClock .core s)
    let p : Place := { bank := s.mem.posBank, row := s.mem.posWord / 64, word := s.mem.posWord % 64 }
    if !scrubbed s p.bank then scrubAdvance s
    else
      let s := flipErr p flips s
      let s := match codeRead p s with
        | (.bad, s) =>
          let first := !s.mem.scrubUe.contains p
          reportUe scrubSource .fault first p
            (if first then onMem (fun m => { m with scrubUe := p :: m.scrubUe }) s else s)
        | (.good pos left, s) => if pos.isEmpty then s else reportCe scrubSource p pos left s
      scrubAdvance s

/-- SCRUB_WORD (R104, R107). -/
def execScrubWord (flips : List Nat) (s : State) : Out := answer (scrubWord flips s)

/-- A word that waits is written back, unless a write has reached it or it is uncorrectable by now (R105). -/
def scrubWriteBack (p : Place) (s : State) : State :=
  match s.mem.backs.find? fun b => b.1 == p with
  | none => s
  | some b =>
    let s' := onMem (fun m => { m with backs := m.backs.filter fun b => b.1 != p }) s
    if uncorrectable p s || (bankAt s p.bank).clearing then s'
    else setErr p b.2.2 (onMem (fun m => { m with corrected := b.2.1.foldl (fun l k => markBack p k l) m.corrected }) s')

/-- SCRUB_WRITE_BACK (R105). -/
def execScrubWriteBack (p : Place) (s : State) : Out := answer (scrubWriteBack p s)

/-! ### Handover (R99) -/

/-- Loaded content of R58. -/
def holdsLoaded (s : State) (n : Nat) : Bool :=
  let b := bankAt s n
  (b.owner == .cpu && (b.use == .code || b.use == .data)) || n == 10 || b.owner == .loop
  || (b.owner == .cpu && b.use == .general && s.cyc.natives.any fun x => x.banks.testBit n)

/-- Whether the block behind an owner has a transfer enabled into bank n (R99). -/
def transferEnabled (s : State) (o : Owner) (n : Nat) : Bool :=
  match o with
  | .cpu => holdsLoaded s n
  | .loop => s.eng.loops.any fun l => l.2.enabled
  | .ring => s.ring.runs
  | .mirror => isPairSide s && !(s.sys.mode == .stop && s.cyc.configError)
  | .canQueue =>
    s.can.any (fun c => c.st != .off) || s.ser.lines.any (fun l => l.role != 0)
    || s.ana.ch.any (fun c => c.hartEn || c.mode == .hartMultidrop) || s.plant.enabled || !s.que.held.isEmpty
  | .recorder => s.log.accepting
  | .panel => s.panel.enabled
  | .test => false

/-- Whether a request is refused. -/
def handoverRefused (s : State) (r : Reader) (bank owner : Nat) : Bool :=
  let b := bankAt s bank
  decide (15 < bank) || owner == 7 || b.grants.any (fun g => g.owner.code == owner)
  || transferEnabled s b.owner bank || b.grants.any (fun g => transferEnabled s g.owner bank)
  || s.mem.handover.busy || (r == .plant && s.sys.mode != .stop)

/-- A write of MEM_HANDOVER (R99, R118): with GO the request, while without it the fields take what is written; a request that names
the current owner changes nothing.
DEDUCED (assumption 64). -/
def writeHandover (r : Reader) (v : Word) (s : State) : State :=
  let bank := field v 16 5
  let owner := field v 8 3
  let clear := v.getLsbD 1
  let keep := fun (h : Handover) => { h with bank := bank, owner := owner, clear := clear }
  if v.getLsbD 0 then
    if bank ≤ 15 ∧ (bankAt s bank).owner.code = owner ∧ owner ≠ 7 ∧ !s.mem.handover.busy ∧ !(r == .plant && s.sys.mode != .stop) then
      onMem (fun m => { m with handover := { keep m.handover with refused := false } }) s
    else if handoverRefused s r bank owner then
      onMem (fun m => { m with handover := { m.handover with refused := true } }) s
    else
      let s := onMem (fun m => { m with handover := { keep m.handover with refused := false, busy := true, nowBank := bank, nowOwner := owner, nowClear := clear } }) s
      if clear then onAnswering bank (fun b => { b with clearing := true }) s else s
  else onMem (fun m => { m with handover := keep m.handover }) s

/-- MEM_HANDOVER_GO (R99, R118). -/
def execMemHandoverGo (r : Reader) (v : Word) (s : State) : Out := answer (writeHandover r v s)

/-- A loop whose context reads zero: no binding, no coefficient and no state (R200). -/
def Loop.wiped (l : Loop) : Loop :=
  { defined := l.defined, group := l.group, types := l.types, enabled := l.enabled, memBad := l.memBad, sticky := l.sticky
    force := { secs := l.types.map fun _ => {} }, shadow := { secs := l.types.map fun _ => {} }, secs := l.types.map fun _ => {} }

/-- Every word and spare row of the bank that answers as Bn is zero with valid check bits, but for an armed injection, which takes the first
write of the clear (R113); cleared, B11 holds no loop's context any more.
DESIGN CHOICE (assumption 256). -/
def clearBank (n : Nat) (s : State) : State :=
  let b := answering s n
  let s := if n = 11 then onEng (fun e => { e with wiped := true, loops := e.loops.map fun p => (p.1, p.2.wiped) }) s else s
  recode (n * bankBytes) true
    (onMem (fun m =>
      { m with
        cells := m.cells.filter fun c => c.1 / bankBytes != n
        errs := m.errs.filter fun e => e.1.bank != b
        found := m.found.filter fun p => p.bank != b
        backs := m.backs.filter fun e => e.1.bank != b }) s)

/-- A handover completes (R99). -/
def handoverComplete (s : State) : State :=
  let h := s.mem.handover
  if h.busy then
    let old := (bankAt s h.nowBank).owner
    let s := if h.nowClear then clearBank h.nowBank s else s
    let s := onAnswering h.nowBank (fun b => { b with owner := ownerOf h.nowOwner, clearing := false }) s
    raise .bankHandover .notice 0xFF h.nowBank old.code h.nowOwner
      (onMem (fun m => { m with handover := { m.handover with busy := false } }) s)
  else s

/-- MEM_HANDOVER_COMPLETE (R99). -/
def execMemHandoverComplete (s : State) : Out := answer (handoverComplete s)

/-! ### Injection (R113, R123) -/

/-- A write of MEM_INJECT. -/
def writeInject (v : Word) (s : State) : State :=
  let arm := v.getLsbD 31
  if arm && s.sys.mode != .stop then onMem (fun m => { m with flags := flag 6 m.flags }) s
  else onMem (fun m => { m with inject :=
    { armed := arm, bank := field v 24 5, posC := field v 16 7, posB := field v 8 7, posA := field v 0 7 } }) s

/-- MEM_INJECT_WRITE (R113, R123). -/
def execMemInjectWrite (v : Word) (s : State) : Out := answer (writeInject v s)

end Sys2Proof.Machine
end

