-- ==== Sys2Proof/Machine/Hoist.lean ====
section
/-! DEFINITION. The hoist (10_hoist_codec.md R261 to R279): what an active codes and sends, what a standby applies, and the
comparison of digests (09_pair_and_takeover.md R250, R251). -/

namespace Sys2Proof.Machine

/-- Value and quality of a copy of a dynamic part (R183). -/
def copyValue (w : Datum × Datum) : Datum × Byte := (w.1, copyQual w.2)

/-! ### Records as bytes (R269 to R271) -/

/-- The head of a record with its content. -/
def hoistRecord (cls : Nat) (refresh : Bool) (content : List Byte) : List Byte :=
  leBytes 1 cls ++ leBytes 1 (bit refresh) ++ leBytes 2 (content.length + 4) ++ content

/-- The type of the entry at a position of the mirror list. -/
def mirrorType (s : State) (pos : Nat) : Nat := (sigEntry s (s.hoist.mirror.getD pos 0)).typ

/-- Bytes of a history code (R269). -/
def codeBytes (mbits : Nat) : Nat := mbits / 8 + 1

/-- MBITS of a range. -/
def rangeBits (s : State) (r : Nat) : Nat := match s.hoist.ranges[r]? with
  | some x => x.mbits
  | none => 24

/-- The bytes of a record. -/
def hoistRecBytes (s : State) : HoistRec → List Byte
  | .cycle c => hoistRecord 1 false
      (leBytes 1 c.task ++ leBytes 1 (bit c.done) ++ leBytes 2 c.skips ++ leBytes 8 c.m ++ leBytes 4 c.digest
        ++ leBytes 8 c.firstSkip)
  | .outputs mask cmds a b => hoistRecord 7 false
      (leBytes 4 mask ++ leBytes 4 cmds ++ leBytes 4 (bit a + 2 * bit b))
  | .forces r items => hoistRecord 6 r
      (leBytes 2 items.length ++ leBytes 2 0
        ++ items.flatMap fun x => leBytes 2 x.1 ++ leBytes 2 0 ++ leBytes 8 x.2.toNat)
  | .loopState n q m e qual secs => hoistRecord 4 false
      (leBytes 1 n ++ leBytes 1 q ++ leBytes 1 secs.length ++ leBytes 1 0 ++ leBytes 4 (lowBits 32 m)
        ++ leBytes 1 (lowBits 8 e) ++ [qual] ++ leBytes 2 0
        ++ secs.flatMap fun x => leBytes 1 (lowBits 8 x.es) ++ leBytes 1 (lowBits 8 x.peak) ++ leBytes 2 0
            ++ (x.xs ++ x.ys).flatMap fun v => leBytes q (lowBits (8 * q) v))
  | .entries r first items => hoistRecord 2 r
      (leBytes 2 first ++ leBytes 2 items.length
        ++ (items.mapIdx fun i x => x.2 :: leBytes (typeWidth (mirrorType s (first + i))) x.1.toNat).flatten)
  | .instanceRec r range first gs => hoistRecord 3 r
      (leBytes 2 range ++ leBytes 2 first ++ leBytes 2 gs.length ++ leBytes 2 0 ++ gs.flatten)
  | .history r range first codes => hoistRecord 5 r
      (leBytes 2 range ++ leBytes 2 first ++ leBytes 2 codes.length ++ leBytes 2 0
        ++ codes.flatMap fun c => leBytes (codeBytes (rangeBits s range)) c)

/-- The head of a body (R269). -/
def hoistHead (seq gen pacing flags mono rot : Nat) : List Byte :=
  [0x57, 0x4C, 0x47, 0x48] ++ leBytes 8 seq ++ leBytes 2 gen ++ leBytes 1 pacing ++ leBytes 1 flags ++ leBytes 8 mono
    ++ leBytes 4 rot ++ leBytes 4 0

/-- The code of a loop state (R270): its mantissa at Q bits. -/
def stateCode (q : Nat) (m : Int) : Int := min (roundInt m ((8 * q : Int) - 32)) (2 ^ (8 * q - 1) - 1)

/-- The mantissa a code of Q bits stands for (R270). -/
def stateOfCode (q : Nat) (c : Int) : Int := c * 2 ^ (32 - 8 * q)

/-- The code of a history element (R271). DEDUCED (assumption 132). -/
def historyCode (mbits w : Nat) : Nat :=
  let drop := 24 - mbits
  let mag := w % 2 ^ 31
  let sgn := w / 2 ^ 31 % 2 * 2 ^ (31 - drop)
  if drop = 0 then w
  else if 0x7F800000 < mag then sgn + (mag ||| 0x400000) / 2 ^ drop
  else if mag = 0x7F800000 then sgn + mag / 2 ^ drop
  else sgn + min (divEven mag (2 ^ drop)).toNat (0x7F800000 / 2 ^ drop - 1)

/-- The binary32 a history code stands for (R271). -/
def historyOfCode (mbits c : Nat) : Nat := c * 2 ^ (24 - mbits) % 2 ^ 32

/-! ### What the records are taken from (R265) -/

/-- The bytes of an instance of the set in force. -/
def instanceData (s : State) (id : Nat) : List Byte := ((s.cyc.instances.find? fun i => i.id == id).map (·.data)).getD []

/-- `len` bytes at `off` past the start of range `r`. -/
def rangeBytes (s : State) (r off len : Nat) : List Byte :=
  match s.hoist.ranges[r]? with
  | some x => slice (instanceData s x.inst) (x.offset + off) len
  | none => []

/-- The loop's states as coded (R270). -/
def loopRecord (s : State) (n : Nat) : HoistRec :=
  let l := loopAt s n
  let q := (look n s.hoist.qbytes).getD 4
  .loopState n q l.out.m l.out.e l.outQual
    ((l.types.zip l.secs).map fun x =>
      let k := if x.1 then 3 else 2
      { es := x.2.es, peak := x.2.peak, xs := (x.2.xs.take k).map (stateCode q), ys := (x.2.ys.take k).map (stateCode q) })

/-- The commanded state of a PAIR_WIRED channel (R253). DEDUCED (assumption 134). -/
def wiredCommand (s : State) (c : DioCh) : Bool :=
  commandsOutputs s && (if c.posted then c.command else dioSafe c)

/-- A word with bit `n` taken from a test of channel `n`. -/
def channelMask (s : State) (p : DioCh → Bool) : Nat :=
  (s.dio.ch.mapIdx fun n c => if p c then 2 ^ n else 0).foldl (· + ·) 0

/-- The OUTPUTS record (R265, R269). -/
def outputsRecord (s : State) : HoistRec :=
  let wired := fun (c : DioCh) => c.mode == .pairWired
  .outputs (channelMask s wired) (channelMask s fun c => wired c && wiredCommand s c)
    (s.safe.funcs.getD 0 {}).request (s.safe.funcs.getD 1 {}).request

/-- The record of one item, with the image that this hoist carries. -/
def itemRecord (s : State) (img : List (Nat × (Datum × Datum))) (refresh : Bool) : HItem → HoistRec
  | .forces => .forces refresh (s.cyc.forces.map fun f => (f.1, f.2.value))
  | .loop n => loopRecord s n
  | .entry p => .entries refresh p [((look (s.hoist.mirror.getD p 0) img).map copyValue).getD (0, qConfig)]
  | .granule r g => .instanceRec refresh r g [rangeBytes s r (64 * g) 64]
  | .element r e => .history refresh r e [historyCode (rangeBits s r) (leNat (rangeBytes s r (4 * e) 4))]

/-- Two records of consecutive positions as one (R269); none across a gap. -/
def joinRecords : HoistRec → HoistRec → Option HoistRec
  | .entries r f l, .entries r' f' l' => if r = r' ∧ f + l.length = f' then some (.entries r f (l ++ l')) else none
  | .instanceRec r a f l, .instanceRec r' a' f' l' =>
    if r = r' ∧ a = a' ∧ f + l.length = f' then some (.instanceRec r a f (l ++ l')) else none
  | .history r a f l, .history r' a' f' l' =>
    if r = r' ∧ a = a' ∧ f + l.length = f' then some (.history r a f (l ++ l')) else none
  | _, _ => none

/-- Records with the items each carries, in the order of a list of items: runs joined, RLENGTH at most 65,535.
DEDUCED (assumption 130). -/
def buildRecords (s : State) (img : List (Nat × (Datum × Datum))) (refresh : Bool) :
    List HItem → List (HoistRec × List HItem) → List (HoistRec × List HItem)
  | [], done => done.reverse
  | i :: rest, done =>
    let r := itemRecord s img refresh i
    match done with
    | [] => buildRecords s img refresh rest [(r, [i])]
    | (p, is) :: more =>
      match joinRecords p r with
      | some j =>
        if (hoistRecBytes s j).length ≤ 65535 then buildRecords s img refresh rest ((j, is ++ [i]) :: more)
        else buildRecords s img refresh rest ((r, [i]) :: done)
      | none => buildRecords s img refresh rest ((r, [i]) :: done)

/-- The records that fit into `room` bytes, and the items of the first that does not and of all after it (R267).
DEDUCED (assumption 131). -/
def fitRecords (s : State) (room : Nat) : List (HoistRec × List HItem) → List (HoistRec × List HItem) × List HItem
  | [] => ([], [])
  | (r, is) :: rest =>
    let n := (hoistRecBytes s r).length
    if n ≤ room then
      let (done, cut) := fitRecords s (room - n) rest
      ((r, is) :: done, cut)
    else ([], is ++ rest.flatMap (·.2))

/-! ### The round-robin (R266) -/

/-- The entries that the hoists carry, by position: with no MIRRORED task, none (R264). -/
def carriedEntries (s : State) : List Nat := if s.hoist.pacing = 0xFF then [] else List.range s.hoist.mirror.length

/-- Every item of the round-robin: mirrored entries, granules, history elements and the force list. -/
def rotation (s : State) : List HItem :=
  (carriedEntries s).map HItem.entry
    ++ (s.hoist.ranges.mapIdx fun r x => if x.hist then [] else (List.range x.count).map (HItem.granule r)).flatten
    ++ (s.hoist.ranges.mapIdx fun r x => if x.hist then (List.range x.count).map (HItem.element r) else []).flatten
    ++ [.forces]

/-- As many items of the round-robin, from the front, as keep the records within `room` bytes. One that alone is larger is added as the only
one, where it keeps the body within the `whole` left of A. DESIGN CHOICE (assumption 276). -/
def refreshItems (s : State) (img : List (Nat × (Datum × Datum))) (room whole : Nat) : List HItem → List HItem → List HItem
  | [], done => done
  | i :: rest, done =>
    let l := done ++ [i]
    let n := ((buildRecords s img true l []).map fun r => (hoistRecBytes s r.1).length).sum
    if n ≤ room then refreshItems s img room whole rest l
    else if done.isEmpty && decide (n ≤ whole) then l
    else done

/-! ### Sending (R264 to R268) -/

/-- Whether the module is active in a pair and sends hoists (R234, R264, R106). -/
def hoistSends (s : State) : Bool :=
  isPairSide s && s.sys.role == .active && !s.pair.silent && !s.hoist.halted

/-- The live dynamic part of every mirrored entry, whole (R183, R263). -/
def liveImage (s : State) : List (Nat × (Datum × Datum)) :=
  s.hoist.mirror.foldl (fun l i => let e := sigEntry s i; put i (e.copied (e.value, e.quality)) l) []

/-- The mirrored loops, ascending. -/
def mirroredLoops (s : State) : List Nat := (s.eng.loops.filter fun l => l.2.defined && l.2.mirror).map (·.1)

/-- The items of steps 3 to 7 in the order of R266, but what a gather has not handed over (R265); what the last hoist cut comes
first (R267). -/
def changeItems (s : State) (img : List (Nat × (Datum × Datum))) : List HItem :=
  let h := s.hoist
  let late := h.gathers.flatMap (·.2)
  let changed := (carriedEntries s).filter fun p =>
    let i := h.mirror.getD p 0
    (look i img).map copyValue != look i h.coded
  let all : List HItem := (if h.forcesNew then [.forces] else []) ++ (mirroredLoops s).map HItem.loop ++ changed.map HItem.entry
    ++ (rotation s).filter fun i => h.written.contains i && !late.contains i
  h.carried ++ all.filter fun i => !h.carried.contains i

/-- The fragments of a body (R268), from number `no`. -/
def sendFragments (seq : Nat) : Nat → Nat → List Byte → State → State
  | 0, _, _, s => s
  | fuel + 1, no, body, s =>
    let data := body.take 1456
    let rest := body.drop 1456
    let s := sendFrame .hoist 3 seq { ports := [3], dest := 0x01524D000012 }
      (frameBytes 0x50 (leBytes 8 seq ++ leBytes 2 no ++ leBytes 1 (bit rest.isEmpty) ++ leBytes 1 0 ++ data)) s
    if rest.isEmpty then s else sendFragments seq fuel (no + 1) rest s

/-- The record of an overflow, at most once in 60 s (R267). -/
def overflowRecord (s : State) : State :=
  if longAgo s.hoist.overAt (60 * nsPerSec) s.mono then
    raise .hoistOverflow .notice 0xFF 0 0 0 (onHoist (fun h => { h with overAt := some s.mono }) s)
  else s

/-- One hoist is closed, coded and sent (R264 to R269). -/
def hoistClose (s : State) : State :=
  let img := liveImage s
  if !hoistSends s then
    if s.hoist.pacing = 0xFF || s.sys.role != .active then s else onHoist (fun h => { h with next := some img }) s
  else
    let h := s.hoist
    let seq := match h.seq with
      | some n => n + 1
      | none => 0
    let fixed := (h.cycles.map HoistRec.cycle) ++ [outputsRecord s]
    let len := fun (l : List HoistRec) => (l.map fun r => (hoistRecBytes s r).length).sum
    let used := 32 + len fixed
    let (changes, cut) := fitRecords s (h.allowance - used) (buildRecords s img false (changeItems s img) [])
    let used := used + len (changes.map (·.1))
    let rot := rotation s
    let room := min h.allowance (used + h.refreshBytes) - used
    let order := rot.drop h.rotPos ++ rot.take h.rotPos
    let fresh := if cut.isEmpty then refreshItems s img room (h.allowance - used) order [] else []
    let refreshed := (buildRecords s img true fresh []).map (·.1)
    let overNow := !cut.isEmpty || h.gatherLate || (look h.pacing h.gathers).isSome
    let wraps := decide (rot.length ≤ h.rotPos + fresh.length)
    let done := changes.flatMap (·.2) ++ fresh
    let body := hoistHead seq s.olc.gen h.pacing (bit overNow + 2 * bit wraps) s.mono h.rotPos
      ++ (fixed ++ changes.map (·.1) ++ refreshed).flatMap (hoistRecBytes s)
    let coded := done.foldl (fun c i => match i with
      | .entry p =>
        let k := h.mirror.getD p 0
        match look k img with
        | some v => put k (copyValue v) c
        | none => c
      | _ => c) h.coded
    let s := sendFragments seq (body.length / 1456 + 1) 0 body s
    let s := onHoist (fun h =>
      { h with
        next := if h.pacing = 0xFF then h.next else some img
        coded := coded
        written := h.written.filter fun i => !done.contains i
        carried := cut
        gatherLate := false
        cycles := h.cycles.map fun c => { c with done := false, skips := 0, firstSkip := 0 }
        forcesNew := h.forcesNew && cut.contains .forces
        rotPos := (h.rotPos + fresh.length) % rot.length
        rotations := if wraps then satInc 16 h.rotations else h.rotations
        seq := some seq
        gen := s.olc.gen
        sent := satInc 32 h.sent
        last := body.length
        largest := max h.largest body.length
        overflows := if overNow then satInc 32 h.overflows else h.overflows
        flags := if overNow then flag 2 h.flags else h.flags }) s
    if overNow then overflowRecord s else s

/-! ### What a cycle hands over (R265, R274) -/

/-- The record of a task among the cycle records, changed. -/
def onCycleRec (n : Nat) (f : CycleRec → CycleRec) (s : State) : State :=
  onHoist (fun h => { h with cycles := h.cycles.map fun c => if c.task = n then f c else c }) s

/-- A mirrored task hands its completed cycle over. -/
def hoistCycle (n m digest : Nat) (s : State) : State :=
  onCycleRec n (fun c => { c with done := true, m := m, digest := digest }) s

/-- A mirrored task's release `m` is skipped. -/
def hoistSkip (n m : Nat) (s : State) : State :=
  onCycleRec n (fun c => { c with skips := c.skips + 1, firstSkip := if c.skips = 0 then m else c.firstSkip }) s

/-- The granules and elements that a store of `len` bytes at `off` of an instance touches (R265). -/
def touched (s : State) (id off len : Nat) : List HItem :=
  (rotation s).filter fun i => match i with
    | .granule r g => match s.hoist.ranges[r]? with
      | some x => x.inst == id && decide (x.offset + 64 * g < off + len) && decide (off < x.offset + 64 * g + 64)
      | none => false
    | .element r e => match s.hoist.ranges[r]? with
      | some x => x.inst == id && decide (x.offset + 4 * e < off + len) && decide (off < x.offset + 4 * e + 4)
      | none => false
    | _ => false

/-- Bytes an item takes on the gather port. DEDUCED (assumption 137). -/
def gatherBytes : HItem → Nat
  | .granule _ _ => 64
  | .element _ _ => 4
  | _ => 0

/-- The items that a gather of some bytes has not handed over. -/
def notGathered : Nat → List HItem → List HItem
  | _, [] => []
  | room, i :: rest => if gatherBytes i ≤ room then notGathered (room - gatherBytes i) rest else i :: rest

/-- A mirrored task hands its written items over at its write point, at 3,200 bytes per µs until its next release. -/
def hoistGather (n : Nat) (items : List HItem) (nextRelease : Nat) (s : State) : State :=
  let late := notGathered ((nextRelease - s.mono) * 3200 / 1000) items
  onHoist (fun h =>
    { h with
      written := h.written ++ items.filter fun i => !h.written.contains i
      gathers := if late.isEmpty then h.gathers else put n late h.gathers }) s

/-- The gather of a task at its next release (R265): GATHER_LATE where it has not ended. The pacing task's own hoist has told of it; of any other
task the next hoist tells. -/
def gatherCheck (n : Nat) (s : State) : State :=
  match look n s.hoist.gathers with
  | none => s
  | some _ => onHoist (fun h => { h with gathers := del n h.gathers, gatherLate := h.gatherLate || n != h.pacing, flags := flag 3 h.flags }) s

/-! ### A body read (R268, R269) -/

/-- `n` items of `w` bytes each. -/
def chunks (w : Nat) : Nat → List Byte → List (List Byte)
  | 0, _ => []
  | n + 1, l => l.take w :: chunks w n (l.drop w)

/-- The items of an ENTRIES record from a position on. -/
def readEntries (s : State) : Nat → Nat → List Byte → List (Datum × Byte)
  | 0, _, _ => []
  | n + 1, pos, l =>
    let t := mirrorType s pos
    (valueOfRaw t (fld l 1 (typeWidth t)), l.headD 0) :: readEntries s n (pos + 1) (l.drop (1 + typeWidth t))

/-- The sections of a LOOP_STATE record, by the sections' orders. -/
def readSections (q : Nat) : List Bool → List Byte → List HoistSec
  | [], _ => []
  | t :: ts, l =>
    let k := if t then 3 else 2
    let code := fun i => stateOfCode q (signedOf (8 * q) (fld l (4 + i * q) q))
    { es := signedOf 8 (fld l 0 1), peak := signedOf 8 (fld l 1 1)
      xs := (List.range k).map code, ys := (List.range k).map fun i => code (k + i) } :: readSections q ts (l.drop (4 + 2 * k * q))

/-- One record; loop states carry the mantissas that their codes stand for. -/
def readRecord (s : State) (cls : Nat) (refresh : Bool) (l : List Byte) : Option HoistRec :=
  match cls with
  | 1 => some (.cycle
      { task := fld l 0 1, done := fld l 1 1 % 2 == 1, skips := fld l 2 2, m := fld l 4 8, digest := fld l 12 4
        firstSkip := fld l 16 8 })
  | 7 => some (.outputs (fld l 0 4) (fld l 4 4) (fld l 8 1 % 2 == 1) (fld l 8 1 / 2 % 2 == 1))
  | 6 => some (.forces refresh ((chunks 12 (fld l 0 2) (l.drop 4)).map fun x => (fld x 0 2, BitVec.ofNat 64 (fld x 4 8))))
  | 4 =>
    let n := fld l 0 1
    let q := fld l 1 1
    some (.loopState n q (signedOf 32 (fld l 4 4)) (signedOf 8 (fld l 8 1)) (l.getD 9 0)
      (readSections q ((loopAt s n).types.take (fld l 2 1)) (l.drop 12)))
  | 2 => some (.entries refresh (fld l 0 2) (readEntries s (fld l 2 2) (fld l 0 2) (l.drop 4)))
  | 3 => some (.instanceRec refresh (fld l 0 2) (fld l 2 2) (chunks 64 (fld l 4 2) (l.drop 8)))
  | 5 =>
    let b := codeBytes (rangeBits s (fld l 0 2))
    some (.history refresh (fld l 0 2) (fld l 2 2) ((chunks b (fld l 4 2) (l.drop 8)).map leNat))
  | _ => none

/-- The records of a body; a class R261 does not name is passed over. -/
def readRecords (s : State) : Nat → List Byte → List HoistRec
  | 0, _ => []
  | fuel + 1, l =>
    let n := fld l 2 2
    if l.length < 4 ∨ n < 4 ∨ l.length < n then []
    else
      let rest := readRecords s fuel (l.drop n)
      match readRecord s (fld l 0 1) (fld l 1 1 % 2 == 1) (slice l 4 (n - 4)) with
      | some r => r :: rest
      | none => rest

/-- A body read; none where its head is not one. -/
def readBody (s : State) (l : List Byte) : Option HoistBody :=
  if l.take 4 = [0x57, 0x4C, 0x47, 0x48] ∧ 32 ≤ l.length then
    some
      { seq := fld l 4 8, gen := fld l 12 2, pacing := fld l 14 1, overflow := fld l 15 1 % 2 == 1
        rotEnd := fld l 15 1 / 2 % 2 == 1, mono := fld l 16 8, rotPos := fld l 24 4
        recs := readRecords s l.length (l.drop 32) }
  else none

/-! ### The comparison (R251, R274) -/

/-- One comparison: counted, and a difference counted, flagged, kept and recorded. -/
def digestCompare (a : CycleRec) (own : Nat) (s : State) : State :=
  let t := s.pair.tasks.getD a.task {}
  let onT := fun (f : PairTask → PairTask) => onPair fun p => { p with tasks := p.tasks.modify a.task f }
  let s := onT (fun t => { t with compared := satInc 32 t.compared }) s
  if own = a.digest then s
  else
    let s := onT (fun t => { t with mismatch := satInc 32 t.mismatch, lastMm := a.m % 2 ^ 32 }) s
    let s := onPair (fun p => { p with flags := flag 9 p.flags }) s
    if longAgo t.recAt (60 * nsPerSec) s.mono then
      raise .digestMismatch .notice a.task a.task (a.m % 2 ^ 32) a.digest
        (onT (fun t => { t with recAt := some s.mono }) s)
    else s

/-- The cycles that both sides have completed are compared; each leaves both lists. -/
def compareCycles (s : State) : State :=
  let pairs := s.hoist.awaiting.filterMap fun a =>
    (s.hoist.ran.find? fun r => r.task == a.2.task && r.m == a.2.m).map fun r => (a, r)
  let s := forAll pairs (fun x t =>
    if x.2.fit && x.1.1 == x.2.gen then digestCompare x.1.2 x.2.digest t else t) s
  onHoist (fun h =>
    { h with
      awaiting := h.awaiting.filter fun a => !h.ran.any fun r => r.task == a.2.task && r.m == a.2.m
      ran := h.ran.filter fun r => !h.awaiting.any fun a => r.task == a.2.task && r.m == a.2.m }) s

/-- A cycle is unpaired (R274). -/
def unpairedCycle (s : State) : State :=
  onHoist (fun h => { h with unpaired := satInc 32 h.unpaired, flags := flag 5 h.flags }) s

/-- One release that the active skipped: skipped too, or its cycle unpaired where it has been made.
DEDUCED (assumption 138). -/
def skipReported (n m : Nat) (s : State) : State :=
  if m < (taskAt s n).nextM then
    if s.hoist.ownSkips.contains (n, m) then onHoist (fun h => { h with ownSkips := h.ownSkips.filter (· != (n, m)) }) s
    else
      let s := unpairedCycle (onHoist (fun h => { h with ran := h.ran.filter fun r => !(r.task == n && r.m == m) }) s)
      if (taskAt s n).cycleAt.isSome && (taskAt s n).cycleM == m then
        onCyc (fun c => { c with tasks := c.tasks.modify n fun t => { t with wasStale := true } }) s
      else s
  else onHoist (fun h => { h with skipNext := h.skipNext ++ [(n, m)] }) s

/-- A TASK_CYCLE record is applied. -/
def applyCycle (gen : Nat) (c : CycleRec) (s : State) : State :=
  let s := forAll (List.range c.skips) (fun i t => skipReported c.task (c.firstSkip + i) t) s
  if c.done then
    if s.hoist.ownSkips.contains (c.task, c.m) then
      unpairedCycle (onHoist (fun h => { h with ownSkips := h.ownSkips.filter (· != (c.task, c.m)) }) s)
    else onHoist (fun h => { h with awaiting := h.awaiting.filter (fun a => a.2.task != c.task) ++ [(gen, c)] }) s
  else s

/-! ### Records applied (R272) -/

/-- An INSTANCE or HISTORY record is written into its instance, before a freeze of task `n`. -/
def applyMem (n : Nat) (r : HoistRec) (s : State) : State :=
  match r with
  | .instanceRec _ range first gs => match s.hoist.ranges[range]? with
    | some x => putInstance n x.inst (x.offset + 64 * first) gs.flatten s
    | none => s
  | .history _ range first codes => match s.hoist.ranges[range]? with
    | some x => putInstance n x.inst (x.offset + 4 * first) (codes.flatMap fun c => leBytes 4 (historyOfCode x.mbits c)) s
    | none => s
  | _ => s

/-- Whether an INSTANCE or HISTORY record is written before a freeze of task `n`: the task owns the instance, or no task has stored into it
yet. DESIGN CHOICE (assumption 234). -/
def memDueAt (s : State) (n : Nat) (r : HoistRec) : Bool :=
  let of := fun range => (s.hoist.ranges[range]?).bind fun x =>
    (s.cyc.instances.find? fun i => i.id == x.inst).bind fun i => i.task
  match r with
  | .instanceRec _ range _ _ | .history _ range _ _ => (of range).all (· == n)
  | _ => true

/-- What waits for the next freeze of task `n` is written (R272). -/
def applyMemDue (n : Nat) (s : State) : State :=
  let due := memDueAt s n
  onHoist (fun h => { h with memDue := h.memDue.filter fun r => !due r }) (forAll (s.hoist.memDue.filter due) (applyMem n) s)

/-- One record of a whole hoist is applied, or waits for the instant R272 gives. What a hoist does not carry of an entry's word 1 is this
side's own. DESIGN CHOICE (assumption 257). -/
def applyRecord (gen : Nat) (r : HoistRec) (s : State) : State :=
  match r with
  | .cycle c => applyCycle gen c s
  | .outputs mask cmds a b =>
    let s := onHoist (fun h => { h with lastMask := mask, lastCmds := some cmds }) s
    if s.sys.stale then s
    else onSafe (fun x => { x with funcs := x.funcs.mapIdx fun i f => { f with hoistBit := if i = 0 then a else b } }) s
  | .forces _ items =>
    forAll (.only (items.map (·.1)) :: items.map fun x => .put x.1 x.2) forceWaits s
  | .loopState n _ _ _ _ _ => onHoist (fun h =>
      { h with loopsDue := (h.loopsDue.filter fun x => match x with
          | .loopState k _ _ _ _ _ => k != n
          | _ => true) ++ [r] }) s
  | .entries _ first items =>
    onHoist (fun h =>
      { h with next := some ((items.mapIdx fun i v => (h.mirror.getD (first + i) 0, v)).foldl
          (fun l x => put x.1 ((sigEntry s x.1).copied x.2) l) (h.next.getD h.image)) }) s
  | .instanceRec _ _ _ _ | .history _ _ _ _ => onHoist (fun h => { h with memDue := h.memDue ++ [r] }) s

/-- Items of the round-robin that a hoist refreshed. -/
def refreshedCount (b : HoistBody) : Nat :=
  (b.recs.map fun r => match r with
    | .forces true _ => 1
    | .entries true _ l => l.length
    | .instanceRec true _ _ l => l.length
    | .history true _ _ l => l.length
    | _ => 0).sum

/-! ### Loss and freshness (R272, R273) -/

/-- IMAGE_WHOLE. -/
def imageWhole (s : State) : Bool := s.hoist.imageOk && !s.hoist.sawOverflow

/-- Hoists up to SEQ `n` are lost: counted once each, LOST set, the image not whole. DEDUCED (assumption 133). -/
def hoistsLost (n cause : Nat) (s : State) : State :=
  let from_ := s.hoist.expect.getD n
  if n < from_ then s
  else
    becomeStale cause (onHoist (fun h =>
      { h with
        lost := min (h.lost + (n + 1 - from_)) (satMax 32)
        expect := some (n + 1)
        flags := flag 1 h.flags }) s)

/-- A catch-up begins with this hoist, or goes on and may end (R273). -/
def catchUp (b : HoistBody) (s : State) : State :=
  if s.hoist.imageOk then s
  else
    let s := if s.hoist.catching then s
      else onHoist (fun h => { h with catching := true, catchDone := 0, catchAt := s.mono }) s
    let n := s.hoist.catchDone + refreshedCount b
    if (rotation s).length ≤ n then
      onHoist (fun h =>
        { h with catching := false, catchDone := 0, imageOk := true, catchMs := (s.mono - h.catchAt) / 1000000 }) s
    else onHoist (fun h => { h with catchDone := n }) s

/-- STALE clears after a complete hoist (R20, R273); the first cycle of each task after it is not compared (R251). -/
def becomeFresh (s : State) : State :=
  if s.sys.stale then
    let ms := if s.hoist.onlyOver then 0 else s.hoist.catchMs
    let s := onSys (fun y => { y with stale := false }) (onHoist (fun h => { h with onlyOver := false }) s)
    let s := onCyc (fun c => { c with tasks := c.tasks.map fun t => { t with firstCycle := true } }) s
    raise .hoistFresh .info 0xFF ms 0 0 s
  else s

/-- A hoist with OVERFLOW is applied (R273): STALE, and not whole until the next without it. -/
def receivedOverflow (s : State) : State :=
  let only := s.hoist.imageOk
  let s := onHoist (fun h =>
    { h with sawOverflow := true, overflows := satInc 32 h.overflows, flags := flag 2 h.flags, onlyOver := h.onlyOver || only }) s
  if s.sys.stale then s
  else raise .hoistStale .notice 0xFF 4 0 0 (onSys (fun y => { y with stale := true }) s)

/-- The offset of this side's base from its partner's: the filter over the last 16 accepted pennants (R248), their mean, rounded down.
DESIGN CHOICE (assumption 277). -/
def pairOffset (s : State) : Int :=
  match s.pair.offsets with
  | [] => 0
  | l => l.sum / l.length

/-- Whether a hoist closed at an instant of the partner's base is in time: the pacing release after it is still to come. -/
def inTime (s : State) (b : HoistBody) : Bool :=
  let t := taskAt s s.hoist.pacing
  s.hoist.pacing = 0xFF || t.nextM = 0 || s.cyc.epoch.isNone
    || decide ((releaseAt s s.hoist.pacing (t.nextM - 1) : Int) ≤ b.mono + pairOffset s)

/-- A whole hoist in time is applied (R272, R273). -/
def hoistApply (b : HoistBody) (s : State) : State :=
  let follows := s.hoist.expect == some b.seq && s.hoist.seq == some (b.seq - 1) && b.seq != 0
  let s := if follows then s
    else match s.hoist.expect with
      | none => s
      | some e => if e < b.seq then hoistsLost (b.seq - 1) 2 s else becomeStale 2 s
  let wasWhole := imageWhole s
  let s := onHoist (fun h =>
    { h with seq := some b.seq, lastApplied := some b.seq, expect := some (b.seq + 1), gen := b.gen, applied := satInc 32 h.applied
             rotations := if b.rotEnd then satInc 16 h.rotations else h.rotations }) s
  let s := catchUp b s
  let s := if b.overflow then receivedOverflow s
    else
      let s := onHoist (fun h => { h with sawOverflow := false }) s
      if follows && wasWhole then becomeFresh s else s
  compareCycles (forAll b.recs (applyRecord b.gen) s)

/-- A hoist is whole (R272): late, of another generation, or applied. -/
def hoistWhole (b : HoistBody) (late : Bool) (s : State) : State :=
  let s := onHoist (fun h => { h with heardAt := s.mono }) s
  if late then onHoist (fun h => { h with flags := flag 0 h.flags }) s
  else if !inTime s b then hoistsLost b.seq 3 (onHoist (fun h => { h with flags := flag 0 h.flags }) s)
  else if b.gen ≠ s.olc.gen then hoistsLost b.seq 5 (onHoist (fun h => { h with flags := flag 4 h.flags }) s)
  else hoistApply b s

/-- Whether the module applies hoists: a STANDBY whose mirror channel runs. -/
def hoistReceives (s : State) : Bool := isPairSide s && s.sys.role == .standby && !s.hoist.halted

/-- A fragment arrives at a standby (R268, R272). -/
def hoistFragment (l : List Byte) (s : State) : State :=
  let n := fld l 2 2
  if !frameOk 0x50 l ∨ n < 21 then s
  else
    let seq := fld l 4 8
    let no := fld l 12 2
    let data := slice l 16 (n - 20)
    let s := if no = 0 then
        onHoist (fun h => { h with fragSeq := some seq, fragNext := 0, fragData := [], fragLate := false }) s
      else s
    if s.hoist.fragSeq = some seq ∧ s.hoist.fragNext = no then
      let s := onHoist (fun h => { h with fragNext := no + 1, fragData := h.fragData ++ data }) s
      if l.getD 14 0 &&& 1 = 1 then
        let late := s.hoist.fragLate
        let body := s.hoist.fragData
        let s := onHoist (fun h => { h with fragSeq := none, fragNext := 0, fragData := [], fragLate := false }) s
        match readBody s body with
        | some b => if b.seq = seq then hoistWhole b late s else s
        | none => s
      else s
    else onHoist (fun h => { h with fragSeq := none, fragNext := 0, fragData := [], fragLate := false }) s

/-- HOIST_FRAGMENT (R272, R106): a fragment, or an uncorrectable word that the mirror channel meets with it. -/
def execHoistFragment (l : List Byte) (bad : Option Place) (s : State) : Out :=
  answer (if !hoistReceives s then s else settle s (match bad.bind fun p => metBad .mirror p s with
    | some t => mirrorHalts t
    | none => hoistFragment l s))

/-- How long a standby waits for the next hoist of an active in RUN: the longest time between two write points of the pacing task, and
2 ms where there is none (R147, R264). -/
def hoistPatience (s : State) : Nat :=
  let p := (taskAt s s.hoist.pacing).period * 1000000
  if s.hoist.pacing = 0xFF then 2000000 else p + min (10 * p) (2 * nsPerSec)

/-- A standby that hears the active in RUN and no hoist of it becomes stale: the active's mirror channel has halted (R106, R273).
DESIGN CHOICE (assumption 235). -/
def hoistSilent (s : State) : State :=
  if hoistReceives s && !s.pair.silent && (s.pair.partner.any fun p => p.role == 2 && p.mode == 1)
      && decide (s.hoist.heardAt + hoistPatience s < s.mono) then becomeStale 2 s
  else s

/-- HOIST_TIMER (R264): with no mirrored task, a hoist every 1 ms. -/
def execHoistTimer (s : State) : Out :=
  answer (if s.hoist.pacing ≠ 0xFF then s else if hoistSends s then hoistClose s else settle s (hoistSilent s))

/-- The words of the mirror image are stored whole (R263). -/
def touchImage (s : State) : State :=
  forAll (List.range (2 * s.hoist.mirror.length)) (fun k t => recode (snapshotAt + 16 * snapshotsBefore t 8 + 8 * k) true t) s

/-- The end of the in-time window on a standby (R272): what is not whole by the pacing release is lost, and the image that the
hoist brought is put in force (R263). -/
def hoistWindow (s : State) : State :=
  let s :=
    if hoistReceives s then
      let s := match s.hoist.fragSeq with
        | some n => onHoist (fun h => { h with fragLate := true }) (hoistsLost n 2 s)
        | none => s
      match s.pair.partner with
      | some p => hoistSilent (if p.role = 2 ∧ !s.pair.silent ∧ s.hoist.expect.isSome then hoistsLost p.lastHoist 2 s else s)
      | none => s
    else s
  match s.hoist.next with
  | none => s
  | some img => onHoist (fun h => { h with image := img, next := none }) (touchImage s)

/-! ### Registers (R277) -/

/-- A read of PAIR_HOIST_SEQ_LO: bits 63:32 are latched for the reader. -/
def hoistSeqRead (r : Reader) (s : State) : State :=
  let hi := s.hoist.seq.getD 0 / 2 ^ 32
  onHoist (fun h => match r with
    | .sdk => { h with hiSdk := hi }
    | .plant => { h with hiPlant := hi }) s

/-- HOIST_SEQ_READ (R277). -/
def execHoistSeqRead (r : Reader) (s : State) : Out := answer (hoistSeqRead r s)

end Sys2Proof.Machine
end

