-- ==== Sys2Proof/Machine/Tamper.lean ====
section
/-! DEFINITION. Tamper sources and their responses (19_plant_port_and_access.md R483, R486 to R489). -/

namespace Sys2Proof.Machine

/-! ### Responses (R487) -/

/-- The record of a response. -/
def Response.event : Response → Ev × Severity
  | .alert => (.tamperAlert, .fault)
  | .lock => (.tamperLock, .fault)
  | .erase => (.tamperErase, .critical)

/-- The flags of SEC_FLAGS that a response sets: each response builds on the one before. -/
def Response.flags : Response → Word
  | .alert => 1
  | .lock => 3
  | .erase => 7

/-- A session closes, with its message channels (R478). -/
def Session.closed : Session := {}

/-- Every session is dropped (R487); the flag is set where there is one. -/
def dropSessions (s : State) : State :=
  onPlant (fun p =>
    { p with sessions := p.sessions.map fun _ => Session.closed
             flags := if p.sessions.any fun k => k.st != 0 then flag 3 p.flags else p.flags }) s

/-- What a response does to the module. DEDUCED (assumption 206). -/
def respond (r : Response) (s : State) : State :=
  let s := onSec (fun x => { x with flags := x.flags ||| r.flags, locked := x.locked || r != .alert }) s
  let s := if r == .erase then
      dropSessions (onSec (fun x => { x with hasKey := false, idX := 0, idY := 0, identity := .generating }) s)
    else s
  if r != .alert && (s.olc.phase == .receiving || s.olc.phase == .verifying) then olcEnd olcAborted .notice s else s

/-- The response of a source (R487): ALERT while no key has ever been accepted. -/
def Sec.response (x : Sec) (src : Nat) : Response := if x.everKey then x.responses.getD src .alert else .alert

/-- A source enters its condition (R486): counted at each entry, and its response acts. An event without logic power is recorded
at the next start. -/
def tamperEnter (src : Nat) (s : State) : State :=
  if s.sec.standing.getD src false then s
  else
    let s := onSec (fun x =>
      { x with standing := x.standing.modify src fun _ => true, counts := x.counts.modify src (satInc 32) }) s
    let r := s.sec.response src
    let n := s.sec.counts.getD src 0
    let s :=
      if railsOn s then raise r.event.1 r.event.2 0xFF src n 0 s
      else onSec (fun x => { x with deferred := x.deferred ++ [(src, n)] }) s
    respond r s

/-- The tamper events sensed without logic power are recorded at the start, with DEFERRED (R462, R487). -/
def tamperDeferred (s : State) : State :=
  onSec (fun x => { x with deferred := [] })
    (forAll s.sec.deferred (fun d t =>
      let r := t.sec.response d.1
      raiseRecord (.mod r.event.1) r.event.2 2 r.event.1.subsystem 0xFF d.1 d.2 0 t) s)

/-- TAMPER_COVER (R486): two samples in a row outside the closed loop's range. -/
def execTamperCover (s : State) : Out := answer (tamperEnter 0 s)

/-- SUPPLY_GLITCH (R486): armed once the start has locked its clocks. -/
def execSupplyGlitch (s : State) : Out := answer (if s.sec.armed && railsOn s then tamperEnter 2 s else s)

/-- CLOCK_GLITCH (R486). -/
def execClockGlitch (s : State) : Out := answer (if s.sec.armed && railsOn s then tamperEnter 3 s else s)

/-- TAMPER_TEMPERATURE (R486). -/
def execTamperTemperature (s : State) : Out := answer (tamperEnter 4 s)

/-- A source leaves its condition (R488, R499). -/
def tamperLeave (src : Nat) (s : State) : State :=
  onSec (fun x => { x with standing := x.standing.modify src fun _ => false }) s

/-- The condition of a source ends: of source 1 by a key that goes back into socket K, which the next start reads (R53, R55). -/
def conditionEnds (src : Nat) (s : State) : State :=
  tamperLeave src (if src = 1 then onKey (fun k => { k with present := true }) s else s)

/-- TAMPER_CONDITION_END (R488). -/
def execTamperConditionEnd (src : Nat) (s : State) : Out := answer (conditionEnds src s)

/-- A new identity key (R483): the identity is SELF. -/
def identityGenerated (x y : Nat) (s : State) : State :=
  if s.sec.identity == .generating && railsOn s then
    raise .identityNew .notice 0xFF 0 0 0
      (onSec (fun k =>
        { k with identity := .self, hasKey := true, cert := .selfSigned, idX := x, idY := y, identityGen := satInc 32 k.identityGen
                 flags := flag 6 k.flags }) s)
  else s

/-- IDENTITY_KEY_GENERATED (R483). -/
def execIdentityKeyGenerated (x y : Nat) (s : State) : Out := answer (identityGenerated x y s)

end Sys2Proof.Machine
end

