-- ==== Sys2Proof/Machine/Modes.lean ====
section
/-! DEFINITION. Entry into a mode and the ends of a start (02_burgee_and_start.md R46, R52, R57; 05_program_cycle.md R125, R135 to
R137), and what a takeover does (09_pair_and_takeover.md R242). -/

namespace Sys2Proof.Machine

/-! ### Entering a mode -/

/-- The first whole millisecond at least 1 ms after an instant (R125). -/
def epochAfter (t : Nat) : Nat := (t + 1999999) / 1000000 * 1000000

/-- The local channel values that a task latches at its release (R127, R183): its DIO and ANA entries, a forced one as set aside. -/
def localValues (s : State) (n : Nat) : List (Nat × (Datum × Datum)) :=
  ((taskAt s n).reads.filter fun i => (sigEntry s i).kind == 2 || (sigEntry s i).kind == 3).map fun i =>
    let e := sigEntry s i
    (i, e.copied (if e.forced then ((look i s.cyc.forces).map (·.aside)).getD (e.value, e.quality) else (e.value, e.quality)))

/-- A task under a release epoch: its next release instant is the first that does not lie behind, and a cycle in progress runs on
(R125, R137). -/
def Task.underEpoch (t : Task) (epoch : Int) (now : Nat) : Task := { t with nextM := t.firstIndex epoch now, held := none }

/-- The module enters RUN with a release epoch (R125, R135): loops clear on entry from STARTING or STOP (R218), and outputs wait for
their first posting but for those HOLD held. With socket K empty, tamper source 1 is entered (R55). -/
def enterRun (epoch : Int) (s : State) : State :=
  let kept := s.sys.mode == .hold
  let s := if kept then onEng (fun e => { e with computeFrom := 0 }) s
    else
      { loopsEnterRun epoch.toNat s with
        dio := { s.dio with ch := s.dio.ch.map fun c => { c with posted := false } }
        ana := { s.ana with ch := s.ana.ch.map fun c => { c with posted := false } } }
  let s := onCyc (fun c =>
    { c with epoch := some epoch, pendingReq := none, draining := false, tasks := c.tasks.map (·.underEpoch epoch s.mono) }) s
  let s := setMode .run s
  if s.key.present then s else tamperEnter 1 s

/-- Whether a cycle is in progress, or a release is held for one. -/
def cyclesRun (s : State) : Bool := s.cyc.tasks.any fun t => t.cycleAt.isSome || t.held.isSome

/-- The module leaves RUN for STOP or HOLD (R137): no task is released; cycles in progress run on. A held release is dropped. -/
def leaveRun (m : Mode) (s : State) : State :=
  let s := onCyc (fun c => { c with pendingReq := none, tasks := c.tasks.map fun t => { t with held := none } }) s
  onCyc (fun c => { c with draining := c.tasks.any fun t => t.cycleAt.isSome }) (setMode m s)

/-- The module enters STOP from HOLD or from a start: release instants count from the epoch in force, or where there is none from the
first whole millisecond after (R297). -/
def enterStop (s : State) : State :=
  let e := s.cyc.epoch.getD (nextMs s.mono)
  setMode .stop (onCyc (fun c => { c with pendingReq := none, stopEpoch := nextMs s.mono, tasks := c.tasks.map (·.underEpoch e s.mono) }) s)

/-! ### The ends of a start (R52) -/

/-- The severity of a start result. -/
def resultSeverity (code : Nat) : Severity := if code = 0 then .info else .critical

/-- A start ends with a result: its code and its record. -/
def startResult (code p2 p3 : Nat) (s : State) : State :=
  raise .startResult (resultSeverity code) 0xFF code p2 p3
    (onStart (fun t => { t with phase := .idle })
      (onCyc (fun c => { c with startResult := code, configError := decide (1 ≤ code ∧ code ≤ 12) }) s))

/-- AUTOSTART of the accepted header (R38). -/
def autostart (s : State) : Bool := (hdr s).flags.testBit 0

/-- A module that first becomes SOLO with both stores at 0 takes epoch 1 (R235). -/
def soloEpoch (s : State) : State := if s.sys.role = .solo ∧ s.pair.epoch = 0 then storeEpoch 1 s else s

/-- The role of a start result OK is taken (R46, R135): RUN, or STOP where AUTOSTART is 0. -/
def startOk (role : Role) (epoch : Option Int) (s : State) : State :=
  let s := startResult 0 0 0 s
  let s := soloEpoch (onSys (fun y => { y with role := role, level := (hdr s).level }) s)
  if autostart s then enterRun (epoch.getD (epochAfter s.mono)) s
  else enterStop (onCyc (fun c => { c with epoch := epoch }) s)

/-- A start ends without an accepted key (R52): STOP, SOLO, CONFIG_ERROR, LEVEL 0. DEDUCED (assumption 45). -/
def startFails (code p2 p3 : Nat) (s : State) : State :=
  let s := startResult code p2 p3 (onStart (fun t => { t with accepted := false, header := none }) s)
  enterStop (soloEpoch (onSys (fun y => { y with role := .solo, level := 0, stale := false }) s))

/-- A side that does not join (R57, R242): STANDBY in STOP with PAIR_CONFIG_MISMATCH. -/
def startMismatch (s : State) : State :=
  let s := startResult 13 0 0 s
  let s := onSys (fun y => { y with role := .standby, level := (hdr s).level }) s
  enterStop (onPair (fun p => { p with st := .standby, mismatch := true }) s)

/-- A start that ends in HALTED (R52, R135). -/
def startHalts (code : Nat) (s : State) : State := haltNow 8 0xFF (startResult code 0 0 s)

/-! ### Taking over (R242, R244) -/

/-- What the functions of an owner take their request from (R421). -/
def ownRequests (own : Bool) (s : State) : State :=
  onSafe (fun x => { x with funcs := x.funcs.map fun f => { f with ownReq := own } }) s

/-- The figures of a takeover (R258): cause 1 HANDOVER, 2 HANDOVER_NOW, 3 GRANT after silence, 4 at start, 5 on retry. -/
def takeoverFigures (cause : Nat) (s : State) : State :=
  let us10 := (s.mono - s.pair.partnerAt) / 10000
  onPair (fun p =>
    { p with
      takeovers := satInc 32 p.takeovers
      lastCause := cause
      lastStale := s.sys.stale
      decision := if cause = 3 ∨ cause = 5 then min us10 0xFFFF else 0 }) s

/-- A side enters TAKING with an epoch (R242); a change before its switch ends (R176). -/
def enterTaking (cause epoch : Nat) (s : State) : State :=
  let e := max s.pair.epoch epoch
  let s := olcAbandon olcAbandoned (storeEpoch e s)
  let s := takeoverFigures cause s
  let s := onPair (fun p =>
    { p with st := .taking, accepted := none, flags := flag 3 p.flags
             client := { p.client with waiting := false, fastNotify := cause == 2 } }) s
  if cause = 2 then raise .handover .notice 0xFF 0 0 0 s
  else raise .takeover .fault 0xFF e cause (bit s.pair.lastStale) s

/-- A side enters ACTIVE by HANDOVER at COMMAND_AT (R242, R245). -/
def activeByHandover (epoch : Nat) (s : State) : State :=
  let s := olcAbandon olcAbandoned (storeEpoch (max s.pair.epoch epoch) s)
  let s := takeoverFigures 1 s
  let s := raise .handover .notice 0xFF 0 0 0 s
  let s := onPair (fun p => { p with client := { p.client with fastNotify := true } }) s
  ownRequests true (enterActive s)

/-- The old active of a hand-over (R242, R273): STANDBY, its image whole but where its own mirror channel has halted, STALE until the first hoist is applied. Its brake
requests go on as the last release command it held. -/
def standbyByHandover (s : State) : State :=
  let s := onSafe (fun x => { x with funcs := x.funcs.map fun f => { f with ownReq := false, hoistBit := f.request } }) s
  let s := olcAbandon olcAbandoned (toStandby s)
  let s := onHoist (fun h => { h with imageOk := !h.halted, catching := false }) s
  raise .hoistStale .notice 0xFF 1 0 0 (onSys (fun y => { y with stale := true }) s)

end Sys2Proof.Machine
end

