-- ==== Sys2Proof/Machine/KeyFlash.lean ====
section
/-! DEFINITION. Reading, erasing and programming the Burgee key (02_burgee_and_start.md R36 to R41), and the end of an online change
(06_online_change.md R175, R177). -/

namespace Sys2Proof.Machine

/-- Bytes of the key from an offset; what is not written reads as erased. -/
def keyBytes (s : State) (off n : Nat) : List Byte := cellGets 0xFF off n s.key.cells

/-- An erase sector of the key. -/
def sectorBytes : Nat := 0x10000

/-- Offset of the wear record's count of a sector (R36). -/
def wearAt (sector : Nat) : Nat := 0x20000 + 4 * sector

/-- The erase count of a sector. DEDUCED (assumption 41). -/
def wearCount (s : State) (sector : Nat) : Nat := leNat (keyBytes s (wearAt sector) 4)

/-- A sector is erased, and its count advances (R37). -/
def eraseSector (sector : Nat) (s : State) : State :=
  let n := satInc 32 (wearCount s sector)
  onKey (fun k =>
    let kept := k.cells.filter fun c => c.1 / sectorBytes != sector
    { k with cells := cellPuts 0xFF (wearAt sector) (leBytes 4 n) kept }) s

/-- Bytes are programmed into erased flash. -/
def programKey (off : Nat) (l : List Byte) (s : State) : State :=
  onKey (fun k => { k with cells := cellPuts 0xFF off l k.cells }) s

/-- A range of whole sectors is erased and bytes are written at its start. -/
def rewriteKey (off : Nat) (l : List Byte) (s : State) : State :=
  let first := off / sectorBytes
  let last := (off + max l.length 1 - 1) / sectorBytes
  programKey off l (forAll (List.range (last + 1 - first)) (fun i t => eraseSector (first + i) t) s)

/-- A header is written, copy A in full before copy B (R41). DEDUCED (assumption 96). -/
def writeHeader (l : List Byte) (s : State) : State := rewriteKey sectorBytes l (rewriteKey 0 l s)

/-- The set that starts and the other one. -/
def startSetOf (s : State) : Nat := (hdr s).startSet

/-- Whether the key may be written: in socket K and not out since the start (R35, R55). -/
def keyWritable (s : State) : Bool := s.key.present && s.key.answers && !s.start.keyOut

/-! ### Confirmation (R175, R177) -/

/-- Every enabled task has reached the write point of a cycle released at or after B. -/
def olcProved (s : State) : Bool := s.cyc.tasks.all fun t => !t.enabled || t.sinceB

/-- The H2 header is written, or its write fails: a failed one leaves copy A erased and is retried, at most three times. -/
def olcConfirm (ok : Bool) (s : State) : State :=
  if ok && keyWritable s then
    let s := writeHeader s.olc.h2 s
    let s := onStart (fun t => { t with header := t.header.map fun h =>
      { h with startSet := s.olc.set, seq := fld s.olc.h2 16 4, gen0 := fld s.olc.h2 128 2, gen1 := fld s.olc.h2 130 2
               digest0 := slice s.olc.h2 64 32, digest1 := slice s.olc.h2 96 32 } }) s
    olcEnd 1 .notice (raise .olcConfirmed .notice 0xFF 0 0 0 s)
  else
    let s := if keyWritable s then eraseSector 0 s else s
    if s.olc.retries < 3 then onOlc (fun o => { o with phase := .confirming, retries := o.retries + 1 }) s
    else olcEnd 14 .fault (raise .olcConfirmFailed .fault 0xFF 0 0 0 s)

end Sys2Proof.Machine
end

