-- ==== Sys2Proof/Machine/KeyRead.lean ====
section
/-! DEFINITION. Selecting a header and reading a set from the Burgee key (02_burgee_and_start.md R34, R36 to R46, R543). -/

namespace Sys2Proof.Machine

/-! ### Start results (R52) -/

def keyAbsent : Nat := 1
def keyUnreadable : Nat := 2
def keyRemoved : Nat := 3
def keyHeaderBad : Nat := 4
def keyFormat : Nat := 5
def keySignature : Nat := 6
def keyLevel : Nat := 7
def keyDirectoryBad : Nat := 8
def keySectionBad : Nat := 9
def keySectionUnknown : Nat := 10
def configLimit : Nat := 11
def configInconsistent : Nat := 12
def clockFail : Nat := 16
def memCoderFail : Nat := 17
def memSpareExhausted : Nat := 18

/-! ### The header (R38 to R41) -/

/-- The fields of a header copy. -/
def readHeader (l : List Byte) : Header :=
  { level := fld l 6 1, flags := fld l 7 1, keyId := fld l 8 8, seq := fld l 16 4, startSet := fld l 20 1, kind := fld l 21 1
    name := slice l 24 32, pairId := fld l 56 8, digest0 := slice l 64 32, digest1 := slice l 96 32
    gen0 := fld l 128 2, gen1 := fld l 130 2, signer := fld l 132 8 }

/-- Whether a string begins with "WLG" and a letter: the MAGIC of the header, the directory and every section. -/
def hasMagic (c : Byte) (l : List Byte) : Bool := slice l 0 4 == [0x57, 0x4C, 0x47, c]

/-- Whether the last four bytes of a string are the CRC-32C of those before (R40). -/
def crcOk (l : List Byte) : Bool :=
  let n := l.length - 4
  fld l n 4 == crc32c (l.take n)

/-- Whether a header's signature verifies with an enrolled signer that it names (R39, R484). -/
def headerSigned (s : State) (l : List Byte) : Bool :=
  (s.sec.signers.drop 2).any fun k =>
    k.st == .enrolled && k.id == fld l 132 8 &&
      Config.ecdsaVerifies (slice l 0 140) k.keyX k.keyY (beNat (slice l 140 32)) (beNat (slice l 172 32))

/-- What a header copy is worth (R41). -/
inductive CopyVerdict where
  | valid
  | signature
  | format
  | bad
  deriving DecidableEq, Repr

/-- The verdict on the 256 bytes of a header copy. -/
def headerVerdict (s : State) (l : List Byte) : CopyVerdict :=
  if !(hasMagic 0x4B l && crcOk l) then .bad
  else if fld l 4 2 ≠ 1 then .format
  else if !headerSigned s l then .signature
  else if 1 < fld l 20 1 ∨ 3 < fld l 21 1 then .bad
  else .valid

/-- A header copy at its offset; a copy that cannot be read is bad (R34). -/
def headerCopy (s : State) (fails : List Nat) (off : Nat) : CopyVerdict × List Byte :=
  let l := keyBytes s off 256
  (if fails.contains off then .bad else headerVerdict s l, l)

/-- The header that R41 selects, or the result that ends the start. -/
def selectHeader (s : State) (fails : List Nat) : Except Nat Header :=
  let a := headerCopy s fails 0
  let b := headerCopy s fails sectorBytes
  match a.1, b.1 with
  | .valid, .valid => .ok (if (readHeader a.2).seq < (readHeader b.2).seq then readHeader b.2 else readHeader a.2)
  | .valid, _ => .ok (readHeader a.2)
  | _, .valid => .ok (readHeader b.2)
  | va, vb =>
    if va = .signature ∨ vb = .signature then .error keySignature
    else if va = .format ∨ vb = .format then .error keyFormat
    else .error keyHeaderBad

/-- Whether the build implements a behaviour level (R2, R45). -/
def levelImplemented (n : Nat) : Bool := n == 1 || n == 2

/-! ### The directory (R42, R43) -/

/-- Bytes of a configuration set (R36). -/
def setBytes : Nat := 0x1F80000

/-- The base of a set (R36). -/
def setBase (n : Nat) : Nat := if n = 0 then 0x100000 else 0x2080000

/-- The digest and the generation that a header gives a set. -/
def Header.digest (h : Header) (n : Nat) : List Byte := if n = 0 then h.digest0 else h.digest1
def Header.gen (h : Header) (n : Nat) : Nat := if n = 0 then h.gen0 else h.gen1

/-- The fields of a directory entry. -/
def readDirEntry (l : List Byte) : DirEntry :=
  { typ := fld l 0 2, inst := fld l 2 2, length := fld l 4 4, offsetA := fld l 8 4, offsetB := fld l 12 4, crc := fld l 16 4
    required := (fld l 20 1).testBit 0, digest := slice l 24 32 }

/-- A directory copy that passes its checks: its head and entries. -/
def dirCopy (s : State) (fails : List Nat) (off : Nat) (digest : List Byte) : Option (List Byte) :=
  let count := fld (keyBytes s off 8) 4 2
  if fails.contains off || !hasMagic 0x44 (keyBytes s off 4) || count < 1 || 1000 < count then none
  else
    let n := 64 + 64 * count
    let l := keyBytes s off (n + 4)
    if crcOk l && sha256 (l.take n) == digest then some (l.take n) else none

/-- The entries of a directory. -/
def dirEntries (l : List Byte) : List DirEntry :=
  (List.range (fld l 4 2)).map fun i => readDirEntry (slice l (64 + 64 * i) 64)

/-- A directory read copy by copy: its bytes, and whether copy A failed. -/
def readDirectory (s : State) (fails : List Nat) (base : Nat) (digest : List Byte) : Option (List Byte × Bool) :=
  match dirCopy s fails base digest with
  | some l => some (l, false)
  | none => (dirCopy s fails (base + sectorBytes) digest).map fun l => (l, true)

/-! ### The checks of the entries (R45, R543) -/

/-- The section types: the type, the instances it may have, and whether it must be there. -/
def sectionTypes : List (Nat × List Nat × Bool) :=
  [(0x01, [0], true), (0x02, [0], true), (0x03, [0], true), (0x04, [0], true), (0x05, [0], true), (0x06, [0], false),
   (0x07, [0], true), (0x08, [0], false), (0x09, [0], false), (0x0A, [0], false), (0x0B, [0], false)]
  ++ [(0x0C, [1, 2, 3, 4], false), (0x0D, [0], true), (0x0E, [0, 1, 2, 3], false), (0x0F, [0, 1, 2, 3], false),
   (0x10, [0], false), (0x11, [0], true), (0x12, [0], false), (0x13, [0], false), (0x14, [0], true), (0x15, [1, 2], false),
   (0x16, [0], false)]

def listedType (t : Nat) : Bool := sectionTypes.any fun x => x.1 == t

/-- Whether some two elements of a list are equal. -/
def hasTwice {α : Type} [BEq α] : List α → Bool
  | [] => false
  | a :: r => r.contains a || hasTwice r

/-- The first check of R543 that fails, as the result that ends the start. -/
def dirCheck (d : List DirEntry) : Option Nat :=
  let listed := d.filter fun e => listedType e.typ
  if d.any fun e => !listedType e.typ && e.required then some keySectionUnknown
  else if listed.any fun e => !(sectionTypes.any fun x => x.1 == e.typ && x.2.1.contains e.inst) then some configInconsistent
  else if hasTwice (listed.map fun e => (e.typ, e.inst)) then some configInconsistent
  else if sectionTypes.any fun x => x.2.2 && !(listed.any fun e => e.typ == x.1) then some configInconsistent
  else none

/-! ### The sections (R43) -/

/-- A section copy that passes its checks. -/
def sectionCopy (s : State) (fails : List Nat) (off : Nat) (e : DirEntry) : Option (List Byte) :=
  let l := keyBytes s off e.length
  if !fails.contains off && crc32c l == e.crc && sha256 l == e.digest then some l else none

/-- A verified set: its header, its directory's bytes, its sections by type and instance, and the copies that failed. -/
structure KeySet where
  header : Header
  dir    : List DirEntry
  secs   : List ((Nat × Nat) × List Byte)
  bad    : List BadCopy

/-- The sections of listed types read one after the other, with the copies found bad; none where both copies of one fail, which ends
the start there. -/
def readKeySections (s : State) (fails : List Nat) (base : Nat) :
    List DirEntry → Option (List ((Nat × Nat) × List Byte)) × List BadCopy
  | [] => (some [], [])
  | e :: r =>
    if !listedType e.typ then readKeySections s fails base r
    else
      match sectionCopy s fails (base + e.offsetA) e, sectionCopy s fails (base + e.offsetB) e with
      | some l, _ =>
        let rest := readKeySections s fails base r
        (rest.1.map fun x => ((e.typ, e.inst), l) :: x, rest.2)
      | none, some l =>
        let rest := readKeySections s fails base r
        (rest.1.map fun x => ((e.typ, e.inst), l) :: x, { typ := e.typ, inst := e.inst, copy := 0 } :: rest.2)
      | none, none => (none, [])

/-- A set read and verified against its header, or the result that ends the start, with the copies found bad until then. -/
def readSet (s : State) (fails : List Nat) (h : Header) (n : Nat) : Except (Nat × List BadCopy) KeySet :=
  let base := setBase n
  match readDirectory s fails base (h.digest n) with
  | none => .error (keyDirectoryBad, [])
  | some (l, badA) =>
    let d := dirEntries l
    let bad : List BadCopy := if badA then [{ typ := 0, inst := 0, copy := 0 }] else []
    if fld l 6 1 ≠ h.level ∨ fld l 8 2 ≠ h.gen n then .error (keyDirectoryBad, bad)
    else
      match dirCheck d with
      | some code => .error (code, bad)
      | none =>
        match readKeySections s fails base d with
        | (none, more) => .error (keySectionBad, bad ++ more)
        | (some secs, more) => .ok { header := h, dir := d, secs := secs, bad := bad ++ more }

/-- Copies found bad are recorded (R43): the type and the instance. DEDUCED (assumption 30). -/
def tellBad (l : List BadCopy) (s : State) : State :=
  forAll l (fun b t => raise .keyCopyBad .notice 0xFF b.typ b.inst 0 t) s

end Sys2Proof.Machine
end

