-- ==== Sys2Proof/Machine/KeyParse.lean ====
section
/-! DEFINITION. What the bytes of a set's sections say: each section in the layout of its home chapter (R124, R130 to R133, R194,
R221, R228, R262, R283, R321, R332, R352, R362, R407, R434, R454, R470, R496, R497, R513). -/

namespace Sys2Proof.Machine

/-- The section of a type and instance; none where the set has none. -/
def KeySet.sec (k : KeySet) (t i : Nat) : Option (List Byte) := (k.secs.find? fun x => x.1 == (t, i)).map (·.2)

/-- Its bytes; an absent section has none. -/
def KeySet.bytes (k : KeySet) (t i : Nat) : List Byte := (k.sec t i).getD []

/-- Records of one size, one after the other. -/
def recsOf (l : List Byte) (off size n : Nat) : List (List Byte) := (List.range n).map fun i => slice l (off + size * i) size

/-- A word of a section. -/
def wordAt (l : List Byte) (off : Nat) : Word := BitVec.ofNat 32 (fld l off 4)

/-- A bit of a byte of a section. -/
def bitAt (l : List Byte) (off n : Nat) : Bool := (fld l off 1).testBit n

/-- A signed byte of a section. -/
def s8 (l : List Byte) (off : Nat) : Int := signedOf 8 (fld l off 1)

/-! ### STATION (R228) -/

def KeySet.station (k : KeySet) : List Byte := k.bytes 0x01 0

/-- The PAIR_IDs that a Jack serves. -/
def KeySet.served (k : KeySet) : List Nat := (recsOf k.station 16 16 (fld k.station 7 1)).map fun r => fld r 0 8

/-! ### TASKS and CODE (R124, R130, R131) -/

def KeySet.taskSec (k : KeySet) : List Byte := k.bytes 0x03 0
def KeySet.taskRec (k : KeySet) (n : Nat) : List Byte := slice k.taskSec (16 + 32 * n) 32

/-- Whether a task is enabled. -/
def KeySet.taskOn (k : KeySet) (n : Nat) : Bool := decide (n < 8) && bitAt (k.taskRec n) 1 0

def KeySet.period (k : KeySet) (n : Nat) : Nat := fld (k.taskRec n) 2 2

def KeySet.code (k : KeySet) : List Byte := k.bytes 0x04 0
def KeySet.taskEntry (k : KeySet) (n : Nat) : List Byte := slice k.code (64 + 16 * n) 16

/-- A read or write set: its 16-bit indices. -/
def KeySet.indexSet (k : KeySet) (off n : Nat) : List Nat :=
  (List.range n).map fun i => fld k.code (fld k.code 32 4 + off + 2 * i) 2

def KeySet.reads (k : KeySet) (n : Nat) : List Nat := k.indexSet (fld (k.taskEntry n) 4 4) (fld (k.taskEntry n) 8 2)
def KeySet.writes (k : KeySet) (n : Nat) : List Nat := k.indexSet (fld (k.taskEntry n) 12 4) (fld (k.taskEntry n) 10 2)

def KeySet.typeRecs (k : KeySet) : List (List Byte) := recsOf k.code 192 16 (fld k.code 18 2)
def KeySet.nativeRecs (k : KeySet) : List (List Byte) := recsOf k.code (192 + 16 * fld k.code 18 2) 16 (fld k.code 20 2)

def KeySet.types (k : KeySet) : List BlockType :=
  k.typeRecs.map fun r => { id := fld r 0 4, version := fld r 4 2, native := fld r 6 1 == 1, size := fld r 8 4 }

def KeySet.natives (k : KeySet) : List Native :=
  k.nativeRecs.map fun r => { typ := fld r 0 4, windows := fld r 4 4, write := fld r 8 4, banks := fld r 12 2 }

/-- The code bytes (R130). -/
def KeySet.codeBytes (k : KeySet) : List Byte := slice k.code (fld k.code 24 4) (fld k.code 28 4)

/-! ### INSTANCE (R133) -/

def KeySet.instSec (k : KeySet) : List Byte := k.bytes 0x05 0
def KeySet.instRecs (k : KeySet) : List (List Byte) := recsOf k.instSec 16 24 (fld k.instSec 4 4)

/-- Offset of the data image within the section. -/
def KeySet.dataAt (k : KeySet) : Nat := 16 + 24 * fld k.instSec 4 4

def KeySet.instances (k : KeySet) : List Instance :=
  k.instRecs.map fun r =>
    { id := fld r 0 8, typ := fld r 8 4, version := fld r 12 2, data := slice k.instSec (k.dataAt + fld r 16 4) (fld r 20 4)
      off := fld r 16 4 }

/-! ### MIGRATION (R169) -/

def migOp (r : List Byte) : MigOp :=
  { src := fld r 0 4, dst := fld r 4 4, srcLen := fld r 8 2, dstLen := fld r 10 2, kind := fld r 12 1 }

def migOps (l : List Byte) : List MigOp := (recsOf l (16 + 24 * fld l 4 4) 16 (fld l 8 4)).map migOp

/-- The maps of a MIGRATION section with their operations. -/
def migMaps (l : List Byte) : List MigMap :=
  (recsOf l 16 24 (fld l 4 4)).map fun r =>
    { oldTyp := fld r 0 4, oldVer := fld r 4 2, newVer := fld r 6 2, newTyp := fld r 8 4
      ops := ((migOps l).drop (fld r 12 4)).take (fld r 16 2) }

/-! ### SIGNALS (R194) -/

def KeySet.sigSec (k : KeySet) : List Byte := k.bytes 0x07 0
def KeySet.sigRecs (k : KeySet) : List (List Byte) := recsOf k.sigSec 16 32 (fld k.sigSec 4 2)

/-- Entry 0 (R193). -/
def entryZero : SigEntry := { typ := 0x0F, recTyp := 0x0F, kind := 1, quality := qGood }

/-- An entry at its start value (R193). -/
def readEntry (r : List Byte) : SigEntry :=
  let v : Datum := BitVec.ofNat 64 (fld r 16 8)
  { value := v, initial := v, quality := if fld r 4 1 = 1 then qGood else qConfig, typ := fld r 2 1, recTyp := fld r 2 1, kind := fld r 4 1
    ref := wordAt r 8, staleCycles := fld r 6 1, substEn := bitAt r 3 0, pace := if fld r 5 1 = 0xFF then none else some (fld r 5 1)
    subst := BitVec.ofNat 64 (fld r 24 8), sinkFirst := fld r 12 2, sinkCount := fld r 7 1 }

/-- The entries of the set by index, entry 0 included. -/
def KeySet.entries (k : KeySet) : List (Nat × SigEntry) :=
  (0, entryZero) :: k.sigRecs.map fun r => (fld r 0 2, readEntry r)

/-- The entry of an index. -/
def KeySet.entry (k : KeySet) (i : Nat) : Option SigEntry := look i k.entries

/-- The slots of a task's output image: the value and quality last posted to an entry, else its INITIAL value with GOOD (R128). -/
def KeySet.slotsOf (k : KeySet) (posted : List (Nat × (Datum × Byte))) (writes : List Nat) : List (Nat × (Datum × Byte)) :=
  writes.map fun i => (i, (look i posted).getD (((k.entry i).getD {}).initial, qGood))

/-- A task of the set, before its first release. -/
def KeySet.task (k : KeySet) (n : Nat) : Task :=
  let r := k.taskRec n
  { enabled := bitAt r 1 0, mirrored := bitAt r 1 1, period := fld r 2 2, offset := fld r 4 2, escalate := fld r 6 1
    wdMargin := fld r 8 2, stack := fld r 12 4, entry := fld (k.taskEntry n) 0 4, reads := k.reads n, writes := k.writes n
    slots := k.slotsOf [] (k.writes n) }

def KeySet.tasks (k : KeySet) : List Task := (List.range 8).map k.task

/-- The sink records (R189). -/
def KeySet.sinks (k : KeySet) : List Sink :=
  (recsOf k.sigSec (16 + 32 * fld k.sigSec 4 2) 8 (fld k.sigSec 6 2)).map fun r => { kind := fld r 0 1, ref := wordAt r 4 }

/-! ### LOOPS (R221, R225) -/

def KeySet.loopSec (k : KeySet) : List Byte := k.bytes 0x08 0
def KeySet.loopRecs (k : KeySet) : List (List Byte) := recsOf k.loopSec 16 192 (fld k.loopSec 4 1)

/-- A gain in the layout of LOOP_X_K_IN. -/
def gainOf (w : Word) : Gain := { m := signedOf 24 (field w 8 24), e := signedOf 6 (field w 0 6) }

/-- A binding of 16 bits. -/
def bindingOf (n : Nat) : Binding := { kind := n / 4096, ref := n % 4096 }

/-- The number of sections of a loop record. -/
def loopSections (r : List Byte) : Nat := fld r 3 1 % 4 + 1

/-- Section `i` of a loop record. -/
def loopSection (r : List Byte) (i : Nat) : SecCfg :=
  let x := slice r (64 + 32 * i) 32
  { ec := s8 x 0, ceil := s8 x 1, b := [0, 1, 2, 3].map fun j => signedOf 32 (fld x (4 + 4 * j) 4)
    a := [0, 1, 2].map fun j => signedOf 32 (fld x (20 + 4 * j) 4) }

/-- A loop of the set: the shadows equal the set in force (R220). -/
def readLoop (r : List Byte) : Loop :=
  let set : LoopSet :=
    { kIn := gainOf (wordAt r 24), kFf := gainOf (wordAt r 28), outMin := wordAt r 32, outMax := wordAt r 36
      safe := wordAt r 40, digOn := wordAt r 44, digOff := wordAt r 48, secs := [0, 1, 2, 3].map (loopSection r) }
  let types := (List.range (loopSections r)).map fun i => bitAt r 3 (4 + i)
  { defined := true, flags := fld r 1 1, group := fld r 2 1, types := types, typeBits := fld r 3 1 / 16, inA := bindingOf (fld r 4 2)
    sp := bindingOf (fld r 6 2), inB := bindingOf (fld r 8 2), outEntry := fld r 10 2 % 4096, statEntry := fld r 12 2 % 4096
    chan := { kind := fld r 14 2 / 4096, ref := fld r 14 2 % 64 }
    pars := [16, 18, 20, 22].map fun o => fld r o 2 % 4096
    force := set, shadow := set, enabled := bitAt r 1 0, secs := types.map fun _ => {} }

def KeySet.loops (k : KeySet) : List (Nat × Loop) := k.loopRecs.map fun r => (fld r 0 1, readLoop r)

/-! ### RING (R283, R301) -/

def KeySet.ringSec (k : KeySet) : List Byte := k.bytes 0x0A 0
def KeySet.ringRecs (k : KeySet) : List (List Byte) := recsOf k.ringSec 32 32 (fld k.ringSec 4 1)

def readStation (r : List Byte) : Station :=
  { num := fld r 0 1, task := fld r 1 1, lostCycles := if fld r 2 1 = 0 then 3 else fld r 2 1, pinMac := bitAt r 3 0
    outLen := fld r 4 2, inLen := fld r 6 2, watchdog := fld r 8 2, typ := fld r 12 4, mac := beNat (slice r 16 6) }

def KeySet.stations (k : KeySet) : List Station := k.ringRecs.map readStation

/-- The ring load L in bits per 10,000 s over the product of the eight periods: numerator and denominator (R301). -/
def KeySet.loadParts (k : KeySet) : Nat × Nat :=
  let sum := fun t => ((k.stations.filter fun x => x.task == t).map fun x => (x.outLen + x.inLen + 168) * 8).sum
  (List.range 8).foldl (fun x t => if sum t = 0 ∨ k.period t = 0 then x else (x.1 * k.period t + sum t * x.2, x.2 * k.period t)) (0, 1)

/-- L in 0.1 Mbit/s, rounded; the parts are in bits per ms. -/
def KeySet.load (k : KeySet) : Nat := (divEven k.loadParts.1 (100 * k.loadParts.2)).toNat

/-- Whether P1 and P2 run the ring: stations are configured, or the Jack is reached on it (R283). -/
def KeySet.ringRuns (k : KeySet) : Bool := (k.sec 0x0A 0).isSome || bitAt k.station 6 0

/-! ### TIME (R321) -/

def KeySet.timeCfg (k : KeySet) : TimeCfg :=
  match k.sec 0x0B 0 with
  | none => {}
  | some l =>
    { ptp := bitAt l 4 0, gmCapable := bitAt l 4 1, p2p := bitAt l 4 2, discipline := bitAt l 4 3, port4 := fld l 5 1 == 1
      domain := fld l 6 1, priority1 := fld l 7 1, priority2 := fld l 8 1, clockClass := fld l 9 1, logSync := s8 l 10
      logAnnounce := fld l 11 1, logDelay := s8 l 12, announceTimeout := fld l 13 1, utcOffset := signedOf 16 (fld l 14 2)
      launch := (List.range 8).map fun n => { timed := (wordAt l (32 + 4 * n)).getLsbD 31, phase := field (wordAt l (32 + 4 * n)) 0 24 } }

/-! ### CAN and QUEUES (R332, R352) -/

/-- The counts of a CAN section: windows, book entries, definitions, filters. -/
def canCounts (l : List Byte) : Nat × Nat × Nat × Nat := (fld l 29 1, fld l 36 2, fld l 38 2, fld l 40 1)

def canWindowRecs (l : List Byte) : List (List Byte) := recsOf l 64 8 (fld l 29 1)
def canBookRecs (l : List Byte) : List (List Byte) := recsOf l (64 + 8 * fld l 29 1) 4 (fld l 36 2)
def canDefRecs (l : List Byte) : List (List Byte) := recsOf l (64 + 8 * fld l 29 1 + 4 * fld l 36 2) 32 (fld l 38 2)
def canFilterRecs (l : List Byte) : List (List Byte) :=
  recsOf l (64 + 8 * fld l 29 1 + 4 * fld l 36 2 + 32 * fld l 38 2) 12 (fld l 40 1)

/-- The section's length by its counts. -/
def canLength (l : List Byte) : Nat := 64 + 8 * fld l 29 1 + 4 * fld l 36 2 + 32 * fld l 38 2 + 12 * fld l 40 1

/-- CANn_CFG that the head's FLAGS stand for (R355). -/
def canCfgWord (flags : Nat) : Word :=
  packFields [(0, 1, bit (flags.testBit 0)), (1, 1, bit (flags.testBit 1)), (2, 1, bit (flags.testBit 2)),
    (3, 1, bit (flags.testBit 3)), (4, 1, bit (flags.testBit 4)), (5, 1, bit (flags.testBit 5))]

def canSetOf (l : List Byte) : CanSet :=
  { cfg := canCfgWord (fld l 5 1), nbt := wordAt l 8, dbt := wordAt l 12, xbt := wordAt l 16, fdtdc := wordAt l 20
    xltdc := wordAt l 24 }

def readCanDef (r : List Byte) : CanDef :=
  { num := fld r 0 1, tx := fld r 1 1 == 2, format := fld r 2 1, cls := fld r 3 1, id := fld r 4 4 % 2 ^ 29
    mask := fld r 8 4 % 2 ^ 29, length := fld r 12 2, task := fld r 14 1, trigger := fld r 15 1, divider := fld r 16 2
    timeout := fld r 18 2, af := fld r 20 4, sdt := fld r 24 1, vcid := fld r 25 1, sec := fld r 26 1 % 2, expiryUs := fld r 28 4 }

def canBook (l : List Byte) : Book :=
  { enabled := bitAt l 5 6, master := bitAt l 5 7, prio := fld l 6 1, cycles := max (fld l 28 1) 1, cycleNtu := fld l 30 2
    refId := fld l 32 2, refLen := fld l 34 1
    windows := (canWindowRecs l).map fun r => { start := fld r 0 2, typ := fld r 2 1, txEnable := fld r 3 1 }
    entries := (canBookRecs l).map fun r => { window := fld r 0 1, defn := fld r 1 1, base := fld r 2 1, period := fld r 3 1 } }

/-- The frame definitions, in the order of DEF (R343). -/
def canDefsOf (l : List Byte) : List CanDef :=
  ((canDefRecs l).foldl (fun t r => put (readCanDef r).num (readCanDef r) t) []).map (·.2)

/-- A port as its section configures it: integrating where it is enabled (R331, R352). -/
def canPortOf (l : List Byte) : CanPort :=
  let set := canSetOf l
  { st := if bitAt l 5 0 then .integrating else .off
    force := set, shadow := set, copied := set, defs := canDefsOf l, book := canBook l
    filters := (canFilterRecs l).map fun r =>
      { set := fld r 0 1, accept := fld r 1 1, id := fld r 4 4 % 2 ^ 29, mask := fld r 8 4 % 2 ^ 29 } }

/-- A port of the set; OFF where its section is absent. -/
def KeySet.canPort (k : KeySet) (p : Nat) : CanPort :=
  match k.sec 0x0C p with
  | none => {}
  | some l => canPortOf l

/-- The default of a queue (R332, R405, R482, R495). -/
def queueDefault (q : Nat) : Queue :=
  if q < 32 then { user := userCan, unit := q / 8 + 1, role := q % 8, depth := 16 }
  else if q < 40 then { user := userPlant, unit := (q - 32) / 2, role := q % 2, depth := 32 }
  else if q < 44 then { user := userSerial, unit := (q - 40) / 2 + 1, role := q % 2, depth := 16 }
  else if q < 60 then { user := userHart, unit := q - 44, role := 0, depth := 8 }
  else {}

def KeySet.queueSec (k : KeySet) : List Byte := k.bytes 0x0D 0

/-- Queue `q` as its record assigns it. -/
def KeySet.queue (k : KeySet) (q : Nat) : Queue :=
  let r := slice k.queueSec (16 + 8 * q) 8
  if fld r 1 1 = 0xFF then queueDefault q
  else { user := fld r 1 1, unit := fld r 2 1, role := fld r 3 1, depth := fld r 4 2 }

def KeySet.queues (k : KeySet) : List Queue := (List.range 64).map k.queue

/-! ### DIO and ANA (R362, R407) -/

/-- The record of a digital channel; empty where the group's section is absent. -/
def KeySet.dioRec (k : KeySet) (n : Nat) : List Byte := slice (k.bytes 0x0E (n / 8)) (16 + 16 * (n % 8)) 16

/-- The codes of R361. -/
def dioModeOf (n : Nat) : DioMode :=
  match n with
  | 1 => .inputType1
  | 2 => .inputType3
  | 3 => .output
  | 4 => .pairWired
  | 5 => .timedPulse
  | _ => .off

def dioPolicyOf (n : Nat) : DioPolicy :=
  match n with
  | 1 => .safeOn
  | 2 => .hold
  | _ => .safeOff

def KeySet.dioMode (k : KeySet) (n : Nat) : DioMode := dioModeOf (fld (k.dioRec n) 1 1)

/-- The record of an analogue channel. -/
def KeySet.anaRec (k : KeySet) (n : Nat) : List Byte := slice (k.bytes 0x0F (n / 4)) (16 + 32 * (n % 4)) 32

/-- The codes of R383. -/
def anaModeOf (n : Nat) : AnaMode :=
  match n with
  | 1 => .voltageIn
  | 2 => .currentPassive
  | 3 => .currentPowered
  | 4 => .currentPair
  | 5 => .rtd
  | 6 => .resistance
  | 7 => .thermocouple
  | 8 => .voltageOut
  | 9 => .currentOut
  | 10 => .hartMultidrop
  | _ => .off

def KeySet.anaMode (k : KeySet) (n : Nat) : AnaMode := anaModeOf (fld (k.anaRec n) 1 1)

/-- Modes that may run HART (R383). -/
def AnaMode.mayHart : AnaMode → Bool
  | .currentPassive | .currentPowered | .currentPair | .currentOut | .hartMultidrop => true
  | _ => false

/-- An analogue channel as its record configures it. -/
def readAnaCh (r : List Byte) : AnaCh :=
  { mode := anaModeOf (fld r 1 1), rate := fld r 2 1, range420 := bitAt r 3 0, hartEn := bitAt r 3 1, safeValue := bitAt r 3 2
    pt1000 := bitAt r 3 3, wiring := fld r 3 1 / 16 % 4, tcType := fld r 4 1, leadMohm := fld r 8 4, gain := wordAt r 12
    offset := wordAt r 16, safeCounts := signedOf 32 (fld r 20 4) }

/-- The HART records of a group. -/
def KeySet.hartRecs (k : KeySet) (g : Nat) : List (List Byte) := recsOf (k.bytes 0x0F g) 144 16 (fld (k.bytes 0x0F g) 10 1)

def readHart (r : List Byte) : HartDev :=
  { channel := fld r 0 1, slot := fld r 1 1, pollAddr := fld r 2 1, poll := bitAt r 3 0, burst := bitAt r 3 1, longAddr := fld r 4 5
    pollMs := fld r 10 2, burstMs := fld r 12 2 }

def KeySet.hartDevs (k : KeySet) : List HartDev := ([0, 1, 2, 3].flatMap k.hartRecs).map readHart

/-! ### SAFETY (R434) -/

def KeySet.safeSec (k : KeySet) : List Byte := k.bytes 0x10 0
def KeySet.pairRec (k : KeySet) (n : Nat) : List Byte := slice k.safeSec (16 + 16 * n) 16
def KeySet.funcRec (k : KeySet) (f : Nat) : List Byte := slice k.safeSec (80 + 32 * f) 32

/-- Whether the set enables a brake function. -/
def KeySet.funcOn (k : KeySet) (f : Nat) : Bool := decide (f < 2) && bitAt (k.funcRec f) 1 0

/-- The codes of R416. -/
def pairModeOf (n : Nat) : PairMode :=
  match n with
  | 1 => .equivalent
  | 2 => .antivalent
  | 3 => .reset
  | _ => .unused

def readPair (r : List Byte) : SiPair :=
  { mode := pairModeOf (fld r 1 1), test := bitAt r 2 0, filter := fld r 3 1, disc := fld r 4 2 }

/-! ### CALENDAR (R454, R457, R459) -/

/-- An alarm from its TIME, DATE and CTRL words. -/
def alarmOf (time date ctrl : Word) : Alarm :=
  { time := { year := field date 16 12, month := field date 8 4, day := field date 0 5, hour := field time 24 5
              minute := field time 18 6, second := field time 12 6 }
    weekday := field time 29 3, enable := ctrl.getLsbD 31, catchup := ctrl.getLsbD 30, once := ctrl.getLsbD 29
    matchMask := field ctrl 0 7 }

def calAlarm (l : List Byte) (a : Nat) : Alarm := alarmOf (wordAt l (16 + 16 * a)) (wordAt l (20 + 16 * a)) (wordAt l (24 + 16 * a))

/-! ### SECURITY and SERIAL (R496, R497) -/

def KeySet.secSec (k : KeySet) : List Byte := k.bytes 0x14 0

def KeySet.anchors (k : KeySet) : List Anchor :=
  (recsOf k.secSec 32 80 (fld k.secSec 5 1)).map fun r =>
    { perms := fld r 0 1, keyX := beNat (slice r 16 32), keyY := beNat (slice r 48 32) }

def responseOf (n : Nat) : Response :=
  match n with
  | 0 => .alert
  | 1 => .lock
  | _ => .erase

def KeySet.responses (k : KeySet) : List Response := (List.range 5).map fun i => responseOf (fld k.secSec (8 + i) 1)

def serTransRecs (l : List Byte) : List (List Byte) := recsOf l 32 16 (fld l 13 1)
def serMapRecs (l : List Byte) : List (List Byte) := recsOf l (32 + 16 * fld l 13 1) 16 (fld l 14 1)

def readTrans (r : List Byte) : SerTrans :=
  { item := fld r 0 1, function := fld r 1 1, slave := fld r 2 1, onChange := bitAt r 3 0, address := fld r 4 2, count := fld r 6 2
    waddress := fld r 8 2, wcount := fld r 10 2, periodMs := fld r 12 2, timeoutMs := fld r 14 2 }

def readMap (r : List Byte) : SerMap :=
  { item := fld r 0 1, table := fld r 1 1, writable := bitAt r 2 0, address := fld r 4 2, count := fld r 6 2 }

def serCfgOf (l : List Byte) : SerCfg :=
  { baud := fld l 7 1, parity := fld l 8 1, stop2 := fld l 9 1 == 2, term := bitAt l 6 0, bias := bitAt l 6 1, retries := fld l 11 1 }

/-- A serial line as its section configures it. -/
def serLineOf (l : List Byte) : SerLine :=
  let c := serCfgOf l
  { role := fld l 5 1, slaveAddr := fld l 10 1, failLimit := fld l 12 1, writeTimeoutMs := fld l 16 2
    trans := (serTransRecs l).map readTrans, maps := (serMapRecs l).map readMap, force := c, shadow := c, copied := c }

/-- A line of the set; off where its section is absent. -/
def KeySet.serLine (k : KeySet) (n : Nat) : SerLine :=
  match k.sec 0x15 n with
  | none => {}
  | some l => serLineOf l

/-- Functions that read, and that write (R491). -/
def serReads (f : Nat) : Bool := f == 1 || f == 2 || f == 3 || f == 4 || f == 23
def serWrites (f : Nat) : Bool := f == 5 || f == 6 || f == 15 || f == 16 || f == 23

/-- Bytes of data in bits or registers. -/
def bitBytes (n : Nat) : Nat := (n + 7) / 8

/-- The data bytes of a transaction's read part and of its write part (R491). -/
def SerTrans.readLen (t : SerTrans) : Nat := if t.function = 1 ∨ t.function = 2 then bitBytes t.count else 2 * t.count
def SerTrans.writeLen (t : SerTrans) : Nat :=
  if t.function = 15 then bitBytes t.count else if t.function = 23 then 2 * t.wcount
  else if t.function = 16 then 2 * t.count else 2

/-- The data bytes of a map item: coils and discrete inputs are bits. -/
def SerMap.len (m : SerMap) : Nat := if m.table < 2 then bitBytes m.count else 2 * m.count

/-! ### HOIST (R261, R262, R264) -/

def KeySet.hoistSec (k : KeySet) : List Byte := k.bytes 0x09 0
def KeySet.hoistEntryRecs (k : KeySet) : List (List Byte) := recsOf k.hoistSec 32 4 (fld k.hoistSec 4 2)
def KeySet.hoistRangeRecs (k : KeySet) : List (List Byte) :=
  recsOf k.hoistSec (32 + 4 * fld k.hoistSec 4 2) 16 (fld k.hoistSec 6 2)
def KeySet.hoistLoopRecs (k : KeySet) : List (List Byte) :=
  recsOf k.hoistSec (32 + 4 * fld k.hoistSec 4 2 + 16 * fld k.hoistSec 6 2) 4 (fld k.hoistSec 8 1)

/-- The index of an instance by its identity. -/
def KeySet.instIndex (k : KeySet) (id : Nat) : Option Nat := k.instances.findIdx? fun i => i.id == id

/-- The ranges of the set; a range of an unknown instance is not one. -/
def KeySet.ranges (k : KeySet) : List HoistRange :=
  k.hoistRangeRecs.map fun r =>
    { inst := fld r 0 8, offset := fld r 8 4, count := fld r 12 2, hist := fld r 14 1 == 1, mbits := fld r 15 1 }

/-- Kinds that the default rule mirrors. -/
def mirroredKinds : List Nat := [2, 3, 5, 6, 7, 10, 12]

/-- Whether the default rule holds for the set. -/
def KeySet.defaultEntries (k : KeySet) : Bool :=
  match k.sec 0x09 0 with
  | none => true
  | some l => bitAt l 9 0

/-- The entries that MIRRORED tasks read. -/
def KeySet.mirrorReads (k : KeySet) : List Nat :=
  ((List.range 8).filter fun n => k.taskOn n && (k.task n).mirrored).flatMap k.reads

/-- The mirror list in ascending index (R261, R262). -/
def KeySet.mirror (k : KeySet) : List Nat :=
  let inc := k.hoistEntryRecs.filterMap fun r => if fld r 2 1 = 1 then some (fld r 0 2) else none
  let exc := k.hoistEntryRecs.filterMap fun r => if fld r 2 1 = 2 then some (fld r 0 2) else none
  let reads := k.mirrorReads
  (k.entries.filter fun p =>
    p.1 != 0 && !exc.contains p.1 &&
      (inc.contains p.1 || (k.defaultEntries && mirroredKinds.contains p.2.kind && reads.contains p.1))).map (·.1)

/-- QBYTES of each MIRROR loop that the section lists. -/
def KeySet.qbytes (k : KeySet) : List (Nat × Nat) := k.hoistLoopRecs.foldl (fun t r => put (fld r 0 1) (fld r 1 1) t) []

/-- REFRESH_BYTES. -/
def KeySet.refreshBytes (k : KeySet) : Nat :=
  match k.sec 0x09 0 with
  | none => 8192
  | some l => fld l 12 4

/-- The pacing task (R264): the enabled MIRRORED task of shortest PERIOD; 0xFF for none. -/
def KeySet.pacing (k : KeySet) : Nat :=
  (((List.range 8).filter fun n => k.taskOn n && (k.task n).mirrored).foldl (fun (b : Option Nat) n =>
    match b with
    | none => some n
    | some m => if k.period n < k.period m then some n else some m) none).getD 0xFF

/-- The allowance A (R264). -/
def KeySet.allowance (k : KeySet) : Nat := if k.pacing = 0xFF then 60000 else min (60000 * k.period k.pacing) 262144

/-- A record's length with its head, split at 65,535 bytes: `n` items of `w` bytes after `h` bytes of record content (R269). -/
def runBytes (h n w : Nat) : Nat :=
  if n = 0 then 0
  else
    let fit := max 1 ((65535 - 4 - h) / max w 1)
    (n + fit - 1) / fit * (4 + h) + n * w

/-- The worst-case coded hoist (R267): every record at its largest, and REFRESH_BYTES. DEDUCED (assumption 33). -/
def KeySet.worstHoist (k : KeySet) : Nat :=
  let cycles := 28 * ((List.range 8).filter fun n => k.taskOn n && (k.task n).mirrored).length
  let forces := 8 + 12 * 256
  let loops := (k.loops.map fun p =>
    if p.2.flags.testBit 1 then
      16 + (p.2.types.map fun t => 4 + 2 * (if t then 3 else 2) * (look p.1 k.qbytes).getD 4).sum
    else 0).sum
  let entries := runBytes 4 1 ((k.mirror.map fun i => 1 + typeWidth ((k.entry i).getD {}).typ).sum)
  let ranges := (k.ranges.map fun r => if r.hist then runBytes 8 r.count (r.mbits / 8 + 1) else runBytes 8 r.count 64).sum
  cycles + 16 + forces + loops + (if k.mirror.isEmpty then 0 else entries) + ranges + k.refreshBytes

/-! ### BANKS (R95, R96) -/

def KeySet.banks (k : KeySet) : List BankRec := Config.banksOf (k.bytes 0x02 0)

/-- The defaults of R95 and R96. -/
def bankDefault (n : Nat) : Bank :=
  if n < 6 then { owner := .cpu, use := .code }
  else if n < 10 then { owner := .cpu, use := .data }
  else if n = 10 then { owner := .cpu }
  else if n = 11 then { owner := .loop }
  else if n = 12 then { owner := .ring }
  else if n = 13 then { owner := .canQueue }
  else if n = 14 then { owner := .mirror }
  else if n = 15 then
    { owner := .cpu, grants := [{ owner := .recorder, first := 0, last := 255 }, { owner := .panel, first := 256, last := 319 }] }
  else {}

def bankUseOf (n : Nat) : BankUse :=
  match n with
  | 1 => .code
  | 2 => .data
  | _ => .general

/-- Owner, use and grants of Bn in the set. -/
def KeySet.bank (k : KeySet) (n : Nat) : Bank :=
  match k.banks.find? fun r => r.bank == n with
  | none => bankDefault n
  | some r => { owner := ownerOf r.owner, use := if r.owner = 0 then bankUseOf r.use else .general
                grants := r.grants.map fun g => { owner := ownerOf g.1, first := g.2.1, last := g.2.2 } }

/-- The CPU banks of a use, ascending. -/
def KeySet.banksFor (k : KeySet) (u : BankUse) : List Nat :=
  (List.range 16).filter fun n => (k.bank n).owner == .cpu && (k.bank n).use == u

end Sys2Proof.Machine
end

