-- ==== Sys2Proof/Machine/KeyChecks.lean ====
section
/-! DEFINITION. The load limits of R50 and the consistency checks of R51 and the home chapters (R96, R124, R132, R133, R188, R195,
R222, R228, R262, R285, R321, R332, R353, R363, R408, R433, R435, R454, R470, R496, R497, R513). -/

namespace Sys2Proof.Machine

/-! ### The load limits (R50) -/

/-- The first element that lies outside a test or repeats an earlier one. -/
def firstBreach (ok : Nat → Bool) : List Nat → List Nat → Option Nat
  | _, [] => none
  | seen, a :: r => if !ok a || seen.contains a then some a else firstBreach ok (a :: seen) r

/-- The first answer of a list of checks. -/
def firstSome {α : Type} : List (Option α) → Option α
  | [] => none
  | some a :: _ => some a
  | none :: r => firstSome r

/-- A value where a condition is breached. -/
def breach (b : Bool) (v : Nat) : Option Nat := if b then some v else none

/-- Bytes of the banks that the CPU owns for a use. -/
def KeySet.bankRoom (k : KeySet) (u : BankUse) : Nat := (k.banksFor u).length * 0x80000

def KeySet.limit1 (k : KeySet) : Option Nat :=
  let n := fld k.ringSec 4 1
  if 127 < n then some n else firstBreach (fun a => decide (1 ≤ a ∧ a ≤ 127)) [] (k.stations.map (·.num))

def KeySet.limit2 (k : KeySet) : Option Nat :=
  let n := (k.loops.filter fun p => p.2.enabled).length
  breach (64 < n) n

def KeySet.limit3 (k : KeySet) : Option Nat :=
  let n := fld k.sigSec 4 2
  if 4095 < n then some n else firstBreach (fun a => a != 0) [] (k.sigRecs.map fun r => fld r 0 2)

def KeySet.limit4 (k : KeySet) : Option Nat :=
  let n := ((recsOf k.queueSec 16 8 (fld k.queueSec 4 1)).filter fun r => fld r 1 1 != 0).length
  breach (64 < n) n

def KeySet.limit5 (k : KeySet) : Option Nat :=
  let n := depthSum k.queues
  breach (descriptorTotal < n) n

def KeySet.limit6 (k : KeySet) : Option Nat :=
  let n := fld k.code 28 4
  breach (3145728 < n || k.bankRoom .code < n) n

/-- Instance data and the stacks of the enabled tasks (R50, R124). -/
def KeySet.dataNeed (k : KeySet) : Nat :=
  fld k.instSec 8 4 + (((List.range 8).filter k.taskOn).map fun n => (k.task n).stack).sum

def KeySet.limit7 (k : KeySet) : Option Nat :=
  breach (2097152 < k.dataNeed || k.bankRoom .data < k.dataNeed) k.dataNeed

def KeySet.limit8 (k : KeySet) : Option Nat :=
  let count := fld k.taskSec 4 1
  if count ≠ 8 then some (0xF2000000 + count)
  else firstSome ((List.range 8).map fun n =>
    let t := k.task n
    if !k.taskOn n then none
    else if t.period < 1 ∨ 10000 < t.period then some (n * 2 ^ 28 + t.period)
    else if t.period ≤ t.offset then some (n * 2 ^ 28 + 2 ^ 24 + t.offset)
    else none)

def KeySet.limit9 (k : KeySet) : Option Nat := breach (400000 * k.loadParts.2 < k.loadParts.1) k.load

def KeySet.limit10 (k : KeySet) : Option Nat :=
  firstSome (k.stations.map fun x =>
    if 1024 < x.outLen then some (x.num * 2 ^ 24 + x.outLen)
    else if 1024 < x.inLen then some (x.num * 2 ^ 24 + 2 ^ 16 + x.inLen) else none)

def KeySet.limit11 (k : KeySet) : Option Nat := breach (262144 < k.worstHoist) k.worstHoist

def KeySet.limit12 (k : KeySet) : Option Nat :=
  firstSome ((List.range 16).map fun c =>
    let n := (k.hartDevs.filter fun d => d.channel == c).length
    breach (15 < n) (c * 2 ^ 24 + n))

/-- The channels with the HOLD policy. -/
def KeySet.holds (k : KeySet) : List Nat := (List.range 32).filter fun n => fld (k.dioRec n) 2 1 == 2

def KeySet.limit13 (k : KeySet) : Option Nat := breach (4 < k.holds.length) k.holds.length

def KeySet.limit14 (k : KeySet) : Option Nat :=
  firstSome ([1, 2, 3, 4].map fun p =>
    let l := k.bytes 0x0C p
    breach (64 < fld l 28 1 || 32 < fld l 29 1) (p * 2 ^ 24 + fld l 28 1 * 256 + fld l 29 1))

/-- The first limit breached: its number and parameter 3. -/
def KeySet.limits (k : KeySet) : Option (Nat × Nat) :=
  firstSome ((List.zip (List.range 15)
    [none, k.limit1, k.limit2, k.limit3, k.limit4, k.limit5, k.limit6, k.limit7, k.limit8, k.limit9, k.limit10, k.limit11, k.limit12,
     k.limit13, k.limit14]).map fun x => x.2.map fun v => (x.1, v))

/-! ### Helpers of the consistency checks -/

/-- Whether bytes of a record are 0. -/
def zeros (l : List Byte) (off n : Nat) : Bool := allZero (slice l off n)

/-- Whether a number lies in a range. -/
def within (lo hi n : Nat) : Bool := decide (lo ≤ n) && decide (n ≤ hi)

/-- Whether numbers rise strictly. -/
def rising : List Nat → Bool
  | [] => true
  | [_] => true
  | a :: b :: r => decide (a < b) && rising (b :: r)

/-- Whether a reference holds nothing but its named bits. -/
def onlyBits (ref : Word) (mask : Nat) : Bool := ref &&& ~~~(BitVec.ofNat 32 mask) == 0

/-- Whether a binary32 word is a NaN, or a NaN or an infinity. -/
def isNaN32 (w : Word) : Bool := numOf f32 w.toNat == .nan
def notFinite32 (w : Word) : Bool :=
  match numOf f32 w.toNat with
  | .fin _ _ => false
  | _ => true

/-- An absent section keeps every rule. -/
def ifPresent (l : Option (List Byte)) (ok : List Byte → Bool) : Bool :=
  match l with
  | none => true
  | some l => ok l

/-! ### STATION, BANKS, TASKS, CODE, INSTANCE -/

def KeySet.stationOk (k : KeySet) : Bool :=
  let l := k.station
  let kind := k.header.kind
  let pair := kind == 1 || kind == 2
  decide (16 ≤ l.length) && hasMagic 0x4E l && fld l 4 1 == kind && decide (fld l 5 1 < 2) && decide (fld l 6 1 < 4) && zeros l 14 2
  && (if kind = 3 then decide (fld l 6 1 ≠ 0) && within 1 32 (fld l 7 1) && decide (16 + 16 * fld l 7 1 ≤ l.length)
      else if pair then (fld l 6 1 == 1 || fld l 6 1 == 2) && fld l 7 1 == 0
      else fld l 6 1 == 0 && fld l 7 1 == 0)
  && (pair || zeros l 8 6) && (pair || !bitAt l 5 0)
  && k.served.all (· != 0) && !hasTwice k.served && (recsOf l 16 16 (fld l 7 1)).all fun r => zeros r 8 8

/-- Grants of a bank that overlap. -/
def grantsMeet : List (Nat × Nat × Nat) → Bool
  | a :: b :: _ => decide (a.2.1 ≤ b.2.2 ∧ b.2.1 ≤ a.2.2)
  | _ => false

def KeySet.banksOk (k : KeySet) : Bool :=
  !hasTwice (k.banks.map (·.bank)) && k.banks.all fun b =>
    decide (b.bank < 16) && decide (b.owner < 7) && decide (b.use < 3) && decide (b.grants.length ≤ 2) && !grantsMeet b.grants
    && b.grants.all fun g => decide (g.1 < 7) && g.1 != b.owner && decide (g.2.1 ≤ g.2.2) && decide (g.2.2 < 1024)

/-- DEDUCED (assumption 32). -/
def KeySet.taskOk (k : KeySet) (n : Nat) : Bool :=
  let r := k.taskRec n
  let t := k.task n
  fld r 0 1 == n && decide (fld r 1 1 < 4) && zeros r 7 1 && zeros r 10 2 && zeros r 16 16
  && (!k.taskOn n || (decide (t.wdMargin ≤ 10000) && within 1024 262144 t.stack && t.stack % 64 == 0))

def KeySet.tasksOk (k : KeySet) : Bool :=
  let l := k.taskSec
  decide (272 ≤ l.length) && hasMagic 0x54 l && zeros l 5 11 && (List.range 8).all k.taskOk

/-- Whether an index is defined in the set. -/
def KeySet.defines (k : KeySet) (i : Nat) : Bool := (k.entry i).isSome

def KeySet.setsOk (k : KeySet) (n : Nat) : Bool :=
  let e := k.taskEntry n
  let room := fld k.code 36 4
  let fits := fun off count => decide (off + 2 * count ≤ room)
  within 0 4096 (fld e 8 2) && within 0 4096 (fld e 10 2) && fits (fld e 4 4) (fld e 8 2) && fits (fld e 12 4) (fld e 10 2)
  && rising (k.reads n) && rising (k.writes n) && (k.reads n).all k.defines
  && ((k.writes n).all fun i => i != 0 && ((k.entry i).any fun e => e.kind == 0))
  && (!k.taskOn n || decide (fld e 0 4 < fld k.code 28 4))

/-- Whether a native entry may own what it names (R131, R132). -/
def KeySet.nativeOk (k : KeySet) (r : List Byte) (x : Native) : Bool :=
  zeros r 14 2 && decide (x.windows < 2 ^ 20) && decide (x.write < 2 ^ 20) && x.write &&& x.windows == x.write
  && (k.types.any fun t => t.id == x.typ && t.native)
  && (List.range 16).all fun b =>
    !x.banks.testBit b || ((k.bank b).owner == .cpu && ((k.bank b).use == .data || (k.bank b).use == .general))

/-- Whether two native entries both own a window for writing. -/
def writeMeets : List Native → Bool
  | [] => false
  | a :: r => r.any (fun b => a.write &&& b.write != 0) || writeMeets r

def KeySet.codeOk (k : KeySet) : Bool :=
  let l := k.code
  let abi := if k.header.level = 1 then 1 else 2
  decide (64 ≤ l.length) && hasMagic 0x42 l && fld l 4 2 == 1 && fld l 6 1 == k.header.level && zeros l 7 1 && fld l 16 2 == abi
  && decide (fld l 18 2 ≤ 4096) && decide (fld l 20 2 ≤ 64) && zeros l 22 2 && zeros l 40 24
  && fld l 24 4 % 64 == 0 && fld l 32 4 % 4 == 0
  && decide (192 + 16 * (fld l 18 2 + fld l 20 2) ≤ l.length) && decide (fld l 24 4 + fld l 28 4 ≤ l.length)
  && decide (fld l 32 4 + fld l 36 4 ≤ l.length)
  && (List.range 8).all k.setsOk
  && (k.typeRecs.all fun r => decide (fld r 6 1 < 2) && zeros r 7 1 && zeros r 12 4)
  && ((List.zip k.nativeRecs k.natives).all fun x => k.nativeOk x.1 x.2) && !writeMeets k.natives
  && decide ((((List.range 8).filter k.taskOn).map fun n => (k.reads n).length).sum + k.mirror.length ≤ 19968)

def KeySet.instOk (k : KeySet) : Bool :=
  let l := k.instSec
  decide (16 ≤ l.length) && hasMagic 0x49 l && zeros l 12 4 && decide (k.dataAt + fld l 8 4 ≤ l.length)
  && !hasTwice (k.instances.map (·.id))
  && (k.instRecs.all fun r =>
    zeros r 14 2 && fld r 16 4 % 8 == 0 && decide (fld r 16 4 + fld r 20 4 ≤ fld l 8 4)
    && k.types.any fun t => t.id == fld r 8 4 && t.version == fld r 12 2 && t.size == fld r 20 4)

/-! ### References of entries and sinks -/

/-- Types of a number that an analogue value may take (R406). -/
def anaTypes : List Nat := [0x11, 0x04, 0x05, 0x0A, 0x0B]

/-- Whether a channel measures. -/
def AnaMode.measures (m : AnaMode) : Bool := m.isInput && m != .hartMultidrop

/-- The bits that an item of process data takes: a BOOL's bit, another type's bytes, and the quality byte after it. -/
def slotBits (p : Slot) (t : Nat) : List (Nat × Nat) :=
  (if t = 0x01 then (8 * p.byte + p.bit, 1) else (8 * p.byte, 8 * typeWidth t))
    :: (if p.qual then [(8 * (p.byte + typeWidth t), 8)] else [])

/-- Whether an item lies within its data and a type other than BOOL has BIT 0. -/
def slotFits (p : Slot) (t len : Nat) : Bool :=
  (t == 0x01 || p.bit == 0) && (slotBits p t).all fun x => decide (x.1 + x.2 ≤ 8 * len)

def slotOfRing (ref : Word) : Slot := { byte := field ref 13 10, bit := field ref 10 3, qual := ref.getLsbD 9 }
def slotOfCan (ref : Word) : Slot := { byte := field ref 11 11, bit := field ref 8 3, qual := ref.getLsbD 7 }
def slotOfSerial (ref : Word) : Slot := { byte := field ref 17 8, bit := field ref 14 3, qual := false }

def KeySet.station? (k : KeySet) (n : Nat) : Option Station := k.stations.find? fun x => x.num == n

/-- The definition a CAN reference names. -/
def KeySet.canDef? (k : KeySet) (ref : Word) : Option CanDef :=
  ((k.sec 0x0C (field ref 30 2 + 1)).map fun l => (canDefRecs l).map readCanDef).bind fun ds =>
    ds.find? fun d => d.num == field ref 22 8

/-- The data bytes of a serial item in a direction, where the line's role has it: sources are a master's reads and a slave's
writable items, sinks a master's writes and a slave's readable items (R493). -/
def KeySet.serItem (k : KeySet) (source : Bool) (ref : Word) : Option Nat :=
  let l := k.serLine (if ref.getLsbD 31 then 2 else 1)
  let n := field ref 25 6
  if l.role = 1 then
    match l.trans.find? fun t => t.item == n with
    | none => none
    | some t =>
      if source then (if serReads t.function then some t.readLen else none)
      else if serWrites t.function then some t.writeLen else none
  else if l.role = 2 then
    match l.maps.find? fun m => m.item == n with
    | none => none
    | some m => if source == m.writable then some m.len else none
  else none

/-- Whether the source reference of an entry names what the set defines and its type suits it. -/
def KeySet.sourceOk (k : KeySet) (e : SigEntry) : Bool :=
  let r := e.ref
  match e.kind with
  | 2 =>
    onlyBits r 0x31F &&
      match field r 8 2 with
      | 0 => k.dioMode (field r 0 5) != .off && e.typ == 0x01
      | 1 => k.dioMode (field r 0 5) != .off && e.typ == 0x0C
      | 2 => e.typ == 0x0C
      | _ => false
  | 3 =>
    let m := k.anaMode (field r 0 4)
    onlyBits r 0x30F &&
      match field r 8 2 with
      | 0 => m.measures && anaTypes.contains e.typ
      | 1 => m != .off && e.typ == 0x0D
      | 2 => (m.isOutput || m == .rtd || m == .resistance || m == .thermocouple) && e.typ == 0x11
      | _ => false
  | 4 =>
    onlyBits r 0xFE7FFE00 && (k.station? (field r 25 7)).any fun x =>
      e.pace == some x.task && slotFits (slotOfRing r) e.typ x.inLen
  | 5 =>
    onlyBits r 0xFFFFFF80 && (k.canDef? r).any fun d => !d.tx && slotFits (slotOfCan r) e.typ d.length
  | 6 =>
    onlyBits r 0xFFFFE000 && (k.serItem true r).any fun n => slotFits (slotOfSerial r) e.typ n
  | 7 =>
    onlyBits r 0x7FF && (k.hartDevs.any fun d => d.channel == field r 0 4 && d.slot == field r 4 4) &&
      (if field r 8 3 < 5 then e.typ == 0x0A || e.typ == 0x0B else field r 8 3 == 5 && e.typ == 0x0D)
  | 8 =>
    onlyBits r 0x33F && (k.loops.any fun p => p.1 == field r 0 6) && decide (field r 8 2 < 2)
  | 9 =>
    onlyBits r 0xF &&
      match field r 0 4 with
      | 0 => e.typ == 0x05 || e.typ == 0x09
      | 1 => e.typ == 0x04
      | 2 => e.typ == 0x06
      | 3 => e.typ == 0x03
      | _ => false
  | 10 =>
    onlyBits r 0x307 &&
      match field r 8 2 with
      | 0 => decide (field r 0 3 < 4) && e.typ == 0x01
      | 1 => decide (field r 0 3 < 2) && e.typ == 0x0C
      | 2 => field r 0 3 == 0 && e.typ == 0x0E
      | _ => false
  | _ => true

/-- Whether a sink record of an entry names what the set defines. -/
def KeySet.sinkOk (k : KeySet) (e : SigEntry) (x : Sink) : Bool :=
  let r := x.ref
  match x.kind with
  | 1 =>
    let m := k.dioMode (field r 0 5)
    onlyBits r 0x31F && (if field r 8 2 < 2 then m.isOutput else field r 8 2 == 2)
  | 2 => onlyBits r 0x30F && field r 8 2 == 0 && (k.anaMode (field r 0 4)).isOutput && anaTypes.contains e.typ
  | 3 => onlyBits r 0xFE7FFE00 && (k.station? (field r 25 7)).any fun y => slotFits (slotOfRing r) e.typ y.outLen
  | 4 => onlyBits r 0xFFFFFF80 && (k.canDef? r).any fun d => d.tx && slotFits (slotOfCan r) e.typ d.length
  | 5 => onlyBits r 0xFFFFE000 && (k.serItem false r).any fun n => slotFits (slotOfSerial r) e.typ n
  | _ => false

/-- The sinks of an entry. -/
def KeySet.sinksOf (k : KeySet) (e : SigEntry) : List Sink := (k.sinks.drop e.sinkFirst).take e.sinkCount

def KeySet.sigRecOk (k : KeySet) (r : List Byte) : Bool :=
  let e := readEntry r
  let pace := fld r 5 1
  within 1 4095 (fld r 0 2) && within 1 0x11 e.typ && decide (fld r 3 1 < 2) && decide (e.kind < 13) && zeros r 14 2
  && (decide (pace < 8) || pace == 0xFF) && decide (e.sinkCount ≤ 15)
  && decide (e.sinkFirst + e.sinkCount ≤ fld k.sigSec 6 2)
  && (!(within 4 7 e.kind) || (e.pace.any fun t => k.taskOn t))
  && k.sourceOk e && (k.sinksOf e).all (k.sinkOk e)

/-- Whether some two spans of bits meet. -/
def spansMeet : List (Nat × Nat) → Bool
  | [] => false
  | a :: r => r.any (fun b => decide (a.1 < b.1 + b.2 ∧ b.1 < a.1 + a.2)) || spansMeet r

/-- The bits that the items of a station take in one direction (R285). -/
def KeySet.stationSpans (k : KeySet) (n : Nat) (inputs : Bool) : List (Nat × Nat) :=
  k.entries.flatMap fun p =>
    if inputs then (if p.2.kind = 4 ∧ field p.2.ref 25 7 = n then slotBits (slotOfRing p.2.ref) p.2.typ else [])
    else (k.sinksOf p.2).flatMap fun x => if x.kind = 3 ∧ field x.ref 25 7 = n then slotBits (slotOfRing x.ref) p.2.typ else []

/-- The entries of one receive definition share their pacing task (R353). DEDUCED (assumption 34). -/
def KeySet.canPaceOk (k : KeySet) : Bool :=
  let es := (k.entries.filter fun p => p.2.kind == 5).map (·.2)
  es.all fun a => es.all fun b => field a.ref 22 10 != field b.ref 22 10 || a.pace == b.pace

def KeySet.sigsOk (k : KeySet) : Bool :=
  let l := k.sigSec
  decide (16 + 32 * fld l 4 2 + 8 * fld l 6 2 ≤ l.length) && decide (16 ≤ l.length) && hasMagic 0x53 l && zeros l 8 8
  && decide (fld l 6 2 ≤ 8192) && rising (k.sigRecs.map fun r => fld r 0 2) && k.sigRecs.all k.sigRecOk
  && ((recsOf l (16 + 32 * fld l 4 2) 8 (fld l 6 2)).all fun r => zeros r 1 3)
  && decide ((k.entries.map fun p => p.2.sinkCount).sum ≤ 8192) && k.canPaceOk
  && (k.stations.all fun x => !spansMeet (k.stationSpans x.num true) && !spansMeet (k.stationSpans x.num false))

/-! ### LOOPS (R222) -/

/-- Types of a SIGNAL input or parameter entry. -/
def loopTypes : List Nat := [2, 3, 4, 5, 6, 7, 8, 9, 10, 11, 17]

/-- Whether an input binding is allowed; HART_MULTIDROP is no input mode here. DESIGN CHOICE (assumption 275). -/
def KeySet.loopInOk (k : KeySet) (n : Nat) (b : Binding) : Bool :=
  match b.kind with
  | 0 => true
  | 1 => (k.entry b.ref).any fun e => loopTypes.contains e.typ
  | 2 => decide (b.ref < 16) && (k.anaMode b.ref).measures
  | 3 => b.ref != n && k.loops.any fun p => p.1 == b.ref
  | _ => false

/-- Whether a channel is named by a COMMAND item of a DIO sink record, or a VALUE item of an ANA sink record, an entry's or not. -/
def KeySet.sinkDrives (k : KeySet) (kind ch : Nat) : Bool :=
  k.sinks.any fun x => x.kind == kind && field x.ref 8 2 == 0 && field x.ref 0 5 == ch

def KeySet.loopChanOk (k : KeySet) (n : Nat) (b : Binding) : Bool :=
  let alone := !(k.loops.any fun p => p.1 != n && p.2.chan == b)
  match b.kind with
  | 0 => true
  | 1 => decide (b.ref < 16) && (k.anaMode b.ref).isOutput && alone && !k.sinkDrives 2 b.ref
  | 2 => decide (b.ref < 32) && (k.dioMode b.ref).isOutput && alone && !k.sinkDrives 1 b.ref
  | _ => false

/-- Whether an entry stands for an item of a loop. -/
def SigEntry.isLoopItem (e : SigEntry) (n item : Nat) : Bool := e.kind == 8 && field e.ref 0 6 == n && field e.ref 8 2 == item

def loopSecOk (r : List Byte) (third : Bool) : Bool :=
  let m := [4, 8, 12, 16, 20, 24, 28].map fun o => signedOf 32 (fld r o 4)
  decide (-32 ≤ s8 r 0 ∧ s8 r 0 ≤ 31) && decide (-64 ≤ s8 r 1 ∧ s8 r 1 ≤ 63) && zeros r 2 2
  && (m.all fun x => decide (-8388608 ≤ x ∧ x ≤ 8388607)) && (third || (zeros r 16 4 && zeros r 28 4))

def KeySet.loopOk (k : KeySet) (r : List Byte) : Bool :=
  let n := fld r 0 1
  let l := readLoop r
  let count := loopSections r
  decide (n < 64) && decide (fld r 1 1 < 64) && decide (l.group < 8) && fld r 3 1 / 4 % 4 == 0 && decide (fld r 10 2 < 4096)
  && decide (fld r 12 2 < 4096) && fld r 14 2 / 64 % 64 == 0 && ([16, 18, 20, 22].all fun o => decide (fld r o 2 < 4096))
  && (wordAt r 24 &&& 0xC0 == 0) && (wordAt r 28 &&& 0xC0 == 0) && zeros r 52 12
  && ((List.range 4).all fun i =>
    if i < count then loopSecOk (slice r (64 + 32 * i) 32) (bitAt r 3 (4 + i))
    else zeros r (64 + 32 * i) 32)
  && k.loopInOk n l.inA && k.loopInOk n l.sp && k.loopInOk n l.inB
  && (l.pars.all fun i => i == 0 || (k.entry i).any fun e => loopTypes.contains e.typ)
  && (l.outEntry == 0 || (k.entry l.outEntry).any fun e => e.isLoopItem n 0 && [3, 4, 5, 0x0A, 0x0B, 0x11].contains e.typ)
  && (l.statEntry == 0 || (k.entry l.statEntry).any fun e => e.isLoopItem n 1 && e.typ == 0x0E)
  && k.loopChanOk n l.chan && ([32, 36, 40, 44, 48].all fun o => !isNaN32 (wordAt r o))

def KeySet.loopsOk (k : KeySet) : Bool :=
  ifPresent (k.sec 0x08 0) fun l =>
    decide (fld l 4 1 ≤ 64) && decide (16 + 192 * fld l 4 1 ≤ l.length) && decide (16 ≤ l.length) && hasMagic 0x4C l && zeros l 5 11
    && rising (k.loopRecs.map fun r => fld r 0 1) && k.loopRecs.all k.loopOk

/-! ### HOIST (R262) -/

def KeySet.hoistEntryOk (k : KeySet) (r : List Byte) : Bool :=
  within 1 4095 (fld r 0 2) && within 1 2 (fld r 2 1) && zeros r 3 1
  && (fld r 2 1 == 2 || (k.entry (fld r 0 2)).any fun e => e.kind != 0 && e.kind != 1)

/-- The bytes of its instance that a range covers: first and length. -/
def HoistRange.span (r : HoistRange) : Nat × Nat := (r.offset, r.count * (if r.hist then 4 else 64))

def KeySet.rangeOk (k : KeySet) (r : List Byte) : Bool :=
  let hist := fld r 14 1 == 1
  let off := fld r 8 4
  match k.instIndex (fld r 0 8) with
  | none => false
  | some i =>
    let size := ((k.instances[i]?).map fun x => x.data.length).getD 0
    decide (fld r 14 1 < 2) && decide (1 ≤ fld r 12 2) && off % (if hist then 4 else 64) == 0
    && decide (off + fld r 12 2 * (if hist then 4 else 64) ≤ size)
    && (if hist then [8, 16, 24].contains (fld r 15 1) else fld r 15 1 == 0)

def rangesMeet : List HoistRange → Bool
  | [] => false
  | a :: r => r.any (fun b => a.inst == b.inst && spansMeet [a.span, b.span]) || rangesMeet r

def KeySet.hoistOk (k : KeySet) : Bool :=
  ifPresent (k.sec 0x09 0) fun l =>
    decide (32 ≤ l.length) && decide (32 + 4 * fld l 4 2 + 16 * fld l 6 2 + 4 * fld l 8 1 ≤ l.length) && hasMagic 0x58 l
    && decide (fld l 4 2 ≤ 4095) && decide (fld l 6 2 ≤ 1024) && decide (fld l 8 1 ≤ 64) && decide (fld l 9 1 < 2) && zeros l 10 2
    && within 1024 65536 (fld l 12 4) && zeros l 16 16 && k.hoistEntryRecs.all k.hoistEntryOk && k.hoistRangeRecs.all k.rangeOk
    && !rangesMeet k.ranges
    && k.hoistLoopRecs.all fun r =>
      within 1 4 (fld r 1 1) && zeros r 2 2 && ((look (fld r 0 1) k.loops).any fun p => p.flags.testBit 1)

/-! ### RING and TIME (R285, R321) -/

def KeySet.ringRecOk (k : KeySet) (r : List Byte) : Bool :=
  fld r 2 1 != 1 && decide (fld r 3 1 < 2) && zeros r 10 2 && zeros r 22 10 && k.taskOn (fld r 1 1)
  && within 2 60000 (fld r 8 2) && decide (2 * k.period (fld r 1 1) ≤ fld r 8 2)

def KeySet.ringOk (k : KeySet) : Bool :=
  ifPresent (k.sec 0x0A 0) fun l =>
    decide (32 ≤ l.length) && decide (32 + 32 * fld l 4 1 ≤ l.length) && hasMagic 0x52 l && zeros l 5 1 && zeros l 8 24
    && (fld l 6 2 == 0 || within 20 1000 (fld l 6 2)) && rising (k.stations.map (·.num)) && k.ringRecs.all k.ringRecOk

def KeySet.launchOk (k : KeySet) (l : List Byte) (n : Nat) : Bool :=
  let w := wordAt l (32 + 4 * n)
  field w 24 7 == 0 && (!k.taskOn n || decide (field w 0 24 < 1000 * k.period n))
  && (!w.getLsbD 31 || (k.taskOn n && k.stations.any fun x => x.task == n))

def KeySet.timeOk (k : KeySet) : Bool :=
  ifPresent (k.sec 0x0B 0) fun l =>
    decide (64 ≤ l.length) && hasMagic 0x50 l && decide (fld l 4 1 < 16) && decide (fld l 5 1 < 2) && decide (fld l 6 1 < 128)
    && decide (-4 ≤ s8 l 10 ∧ s8 l 10 ≤ 1) && decide (fld l 11 1 ≤ 3) && decide (-4 ≤ s8 l 12 ∧ s8 l 12 ≤ 5)
    && within 2 10 (fld l 13 1) && zeros l 16 16 && (List.range 8).all (k.launchOk l)
    && (fld l 5 1 == 1 || k.ringRuns)

/-! ### CAN and QUEUES (R332, R353) -/

/-- Whether a definition or descriptor of a format keeps the lengths of R327. -/
def canFrameOk (format length : Nat) (id : Nat) : Bool :=
  frameFits { format := format, id := id, length := length, data := List.replicate length 0 }

def KeySet.canDefOk (k : KeySet) (flags : Nat) (bookEntries : List BookEntry) (r : List Byte) : Bool :=
  let d := readCanDef r
  let kind := d.format % 4
  within 1 2 (fld r 1 1) && decide (d.format < 32) && decide (kind < 3) && decide (fld r 4 4 < 2 ^ 29) && decide (fld r 8 4 < 2 ^ 29)
  && decide (fld r 26 1 < 2) && zeros r 27 1 && decide (d.trigger < 3) && decide (d.divider ≤ 1000)
  && (kind != 1 || flags.testBit 1) && (kind != 2 || flags.testBit 2)
  && canFrameOk d.format d.length d.id
  && (if d.tx then
      decide (d.cls < 4) && k.taskOn d.task
      && (d.trigger != 0 || decide (1 ≤ d.divider))
      && (d.trigger != 2 || bookEntries.any fun e => e.defn == d.num)
    else d.cls == 0 && within 1 60000 d.timeout)

/-- Whether two book entries can fall in one window and cycle. -/
def bookMeets (cycles : Nat) : List BookEntry → Bool
  | [] => false
  | a :: r =>
    r.any (fun b => a.window == b.window && (List.range cycles).any fun c =>
      c % max a.period 1 == a.base && c % max b.period 1 == b.base) || bookMeets cycles r

def powersOfTwo : List Nat := [1, 2, 4, 8, 16, 32, 64]

def canBookOk (l : List Byte) : Bool :=
  let b := canBook l
  let defs := (canDefRecs l).map readCanDef
  let set := canSetOf l
  powersOfTwo.contains (fld l 28 1) && within 1 32 (fld l 29 1) && within 1 65535 b.cycleNtu && decide (b.refId < 2048)
  && within 1 8 b.refLen && rising (b.windows.map (·.start))
  && (b.windows.all fun w => decide (w.typ < 3) && within 1 16 w.txEnable)
  && ((canWindowRecs l).all fun r => zeros r 4 4)
  && (b.windows.head?.all fun w => decide (worstLength 0 b.refLen set ≤ w.start))
  && (b.windows.getLast?.all fun w => decide (w.start < b.cycleNtu))
  && (b.entries.all fun e =>
    powersOfTwo.contains e.period && decide (e.period ≤ b.cycles) && decide (e.base < e.period)
    && (b.windows[e.window]?).any (fun w => w.typ != 2) && defs.any fun d => d.num == e.defn && d.tx && d.trigger == 2)
  && !bookMeets b.cycles (b.entries.filter fun e => (b.windows[e.window]?).any fun w => w.typ == 0)
  && (!b.master || b.refId % 8 == b.prio)

def KeySet.canOk (k : KeySet) (p : Nat) : Bool :=
  ifPresent (k.sec 0x0C p) fun l =>
    decide (64 ≤ l.length) && decide (canLength l ≤ l.length) && hasMagic 0x43 l && fld l 4 1 == p && decide (fld l 6 1 < 8)
    && zeros l 7 1 && zeros l 35 1 && zeros l 41 23 && decide (fld l 36 2 ≤ 2048) && decide (fld l 38 2 ≤ 256)
    && decide (fld l 40 1 ≤ 32)
    && (wordAt l 8 &&& 0x80000000 == 0) && (wordAt l 12 &&& 0xE0C0E0E0 == 0) && (wordAt l 16 &&& 0xE0C0E0E0 == 0)
    && (wordAt l 20 &&& 0x7F00FFFF == 0) && (wordAt l 24 &&& 0x7F00FFFF == 0)
    && canSetOk (canSetOf l) && canBookOk l && !hasTwice ((canDefRecs l).map fun r => fld r 0 1)
    && (canDefRecs l).all (k.canDefOk (fld l 5 1) (canBook l).entries)
    && (canFilterRecs l).all fun r => decide (fld r 0 1 < 3) && decide (fld r 1 1 < 32) && zeros r 2 2
      && decide (fld r 4 4 < 2 ^ 29) && decide (fld r 8 4 < 2 ^ 29)

def KeySet.queuesOk (k : KeySet) : Bool :=
  let l := k.queueSec
  decide (528 ≤ l.length) && hasMagic 0x51 l && fld l 4 1 == 64 && zeros l 5 11
  && ((List.range 64).all fun q =>
    let r := slice l (16 + 8 * q) 8
    fld r 0 1 == q && zeros r 6 2 && decide (fld r 4 2 ≤ 2048) && (k.queue q).ok)
  && ([1, 2, 3, 4].all fun p =>
    !bitAt (k.bytes 0x0C p) 5 0 || (List.range 8).all fun role =>
      (k.queues.filter fun q => q.user == userCan && q.unit == p && q.role == role).length == 1)

/-! ### DIO and ANA (R363, R408) -/

def KeySet.isPair (k : KeySet) : Bool := k.header.kind == 1 || k.header.kind == 2

def KeySet.dioChOk (k : KeySet) (n : Nat) (r : List Byte) : Bool :=
  let mode := dioModeOf (fld r 1 1)
  let policy := fld r 2 1
  let links := fld r 3 1
  fld r 0 1 == n && decide (fld r 1 1 < 6) && decide (policy < 3) && decide (links < 4) && zeros r 6 10
  && (if mode.isInput then decide (5 ≤ fld r 4 2) else fld r 4 2 == 0)
  && (policy == 0 || mode == .output) && (mode != .pairWired || k.isPair) && (mode != .timedPulse || decide (28 ≤ n))
  && (policy != 2 || (links != 0 && (!links.testBit 0 || k.funcOn 0) && (!links.testBit 1 || k.funcOn 1)))

def KeySet.dioOk (k : KeySet) (g : Nat) : Bool :=
  ifPresent (k.sec 0x0E g) fun l =>
    decide (144 ≤ l.length) && hasMagic 0x4F l && fld l 4 1 == g && zeros l 5 1 && within 10 1000 (fld l 6 2) && zeros l 8 8
    && (List.range 8).all fun i => k.dioChOk (8 * g + i) (slice l (16 + 16 * i) 16)

/-- Whether SAFE_COUNTS of an output lies in the full range of its mode (R384). -/
def safeCountsOk (c : AnaCh) : Bool :=
  match c.mode with
  | .voltageOut => decide (-10000000 ≤ c.safeCounts ∧ c.safeCounts ≤ 10000000)
  | .currentOut => decide (0 ≤ c.safeCounts ∧ c.safeCounts ≤ 25000000)
  | _ => true

def KeySet.anaChOk (k : KeySet) (n : Nat) (r : List Byte) : Bool :=
  let c := readAnaCh r
  fld r 0 1 == n && decide (fld r 1 1 < 11) && decide (c.rate < 7) && decide (fld r 3 1 < 64) && decide (c.wiring < 3)
  && safeCountsOk c && decide (c.tcType < 8) && zeros r 5 3 && zeros r 24 8 && !notFinite32 c.gain && !notFinite32 c.offset
  && (!c.hartEn || (c.mode.mayHart && decide (c.rate ≤ 3))) && (c.mode != .currentPair || k.isPair)

/-- The loop-supply budget of a group in mA (R391). -/
def KeySet.loopBudget (k : KeySet) (g : Nat) : Nat :=
  ((List.range 4).map fun i =>
    match k.anaMode (4 * g + i) with
    | .currentPowered => 22
    | .hartMultidrop => 64
    | _ => 0).sum

def KeySet.hartOk (k : KeySet) (g : Nat) (r : List Byte) : Bool :=
  let d := readHart r
  let c := readAnaCh (k.anaRec d.channel)
  d.channel / 4 == g && c.hartEn && decide (d.slot < 15) && decide (d.pollAddr < 64) && within 1 3 (fld r 3 1) && zeros r 9 1
  && within 500 60000 d.pollMs && (d.burstMs == 0 || within 100 60000 d.burstMs) && zeros r 14 2 && (!d.burst || d.burstMs != 0)
  && (c.mode == .hartMultidrop || (k.hartDevs.filter fun x => x.channel == d.channel).length == 1)

def KeySet.anaOk (k : KeySet) (g : Nat) : Bool :=
  ifPresent (k.sec 0x0F g) fun l =>
    decide (144 ≤ l.length) && decide (144 + 16 * fld l 10 1 ≤ l.length) && hasMagic 0x41 l && fld l 4 1 == g
    && decide (fld l 5 1 < 6) && within 10 1000 (fld l 8 2) && decide (fld l 10 1 ≤ 60) && zeros l 11 5
    && ((List.range 4).all fun i => k.anaChOk (4 * g + i) (slice l (16 + 32 * i) 32))
    && decide (k.loopBudget g ≤ 88)
    && (!(within 1 4 (fld l 5 1)) || k.anaMode (4 * g + (fld l 5 1 - 1)) == .rtd)
    && (k.hartRecs g).all (k.hartOk g) && !hasTwice ((k.hartRecs g).map fun r => (fld r 0 1, fld r 1 1))

/-! ### SAFETY (R435) -/

def KeySet.pairOk (k : KeySet) (n : Nat) : Bool :=
  let r := k.pairRec n
  let p := readPair r
  let l := k.safeSec
  fld r 0 1 == n && decide (fld r 1 1 < 4) && decide (fld r 2 1 < 2) && within 2 20 p.filter && within 2 4000 p.disc && zeros r 6 10
  && (!p.test || (bitAt l 4 0 && bitAt l 4 1 && decide (fld l 8 2 + 100 < 500 * p.filter)))

def KeySet.funcOk (k : KeySet) (f : Nat) : Bool :=
  let r := k.funcRec f
  fld r 0 1 == f && decide (fld r 1 1 < 2) &&
    (!k.funcOn f ||
      (within 1 15 (fld r 2 1) && decide (fld r 3 1 < 8) && within 50 2000 (fld r 6 2) && within 50 100 (fld r 8 1) && zeros r 9 1
      && within 20 500 (fld r 10 2) && decide (fld r 12 2 ≤ 8760) && within 1 60 (fld r 14 2) && zeros r 16 16
      && ((List.range 4).all fun n =>
        !(fld r 2 1).testBit n || (readPair (k.pairRec n)).mode == .equivalent || (readPair (k.pairRec n)).mode == .antivalent)
      && (readPair (k.pairRec (fld r 3 1 / 2))).mode == .reset
      && (k.entry (fld r 4 2)).any fun e => e.typ == 0x01 && (e.kind == 0 || e.kind == 12)))

def KeySet.safeOk (k : KeySet) : Bool :=
  ifPresent (k.sec 0x10 0) fun l =>
    decide (144 ≤ l.length) && hasMagic 0x46 l && decide (fld l 4 1 < 4) && zeros l 5 1 && within 10 1000 (fld l 6 2)
    && within 200 1000 (fld l 8 2) && zeros l 10 6 && (List.range 4).all k.pairOk && (List.range 2).all k.funcOk

/-! ### CALENDAR, RECORDER, SECURITY, SERIAL, PANEL, MIGRATION -/

def calOk (l : List Byte) : Bool :=
  decide (64 ≤ l.length) && hasMagic 0x5A l && decide (fld l 4 1 < 2) && decide (1 ≤ fld l 5 1) && zeros l 6 10 && zeros l 48 16
  && [0, 1].all fun a =>
    zeros l (28 + 16 * a) 4 && (wordAt l (16 + 16 * a) &&& 0xFFF == 0) && (wordAt l (20 + 16 * a) &&& 0xF000F0E0 == 0)
    && (wordAt l (24 + 16 * a) &&& 0x1FFFFF80 == 0) && (calAlarm l a).inRange && (calAlarm l a).possible

def recorderOk (l : List Byte) : Bool :=
  decide (16 ≤ l.length) && hasMagic 0x45 l && decide (fld l 4 1 < 2) && decide (fld l 5 1 < 4) && zeros l 6 10

def KeySet.secOk (k : KeySet) : Bool :=
  let l := k.secSec
  decide (32 ≤ l.length) && hasMagic 0x55 l && decide (fld l 4 1 < 2) && decide (fld l 5 1 ≤ 4)
  && decide (32 + 80 * fld l 5 1 ≤ l.length) && decide (fld l 6 2 ≤ 4094) && ((List.range 5).all fun i => decide (fld l (8 + i) 1 < 3))
  && zeros l 13 3 && decide (fld l 16 4 < 2 ^ 20)
  && (recsOf l 32 80 (fld l 5 1)).all fun r => decide (fld r 0 1 < 16) && zeros r 1 15

def serTransOk (r : List Byte) : Bool :=
  let t := readTrans r
  decide (t.item < 64) && [1, 2, 3, 4, 5, 6, 15, 16, 23].contains t.function && decide (fld r 3 1 < 2)
  && (within 1 247 t.slave || (t.slave == 0 && [5, 6, 15, 16].contains t.function))
  && (t.function == 23 || zeros r 8 4) && decide (t.periodMs ≤ 60000) && within 10 5000 t.timeoutMs

def serMapOk (r : List Byte) : Bool :=
  let m := readMap r
  decide (m.item < 64) && decide (m.table < 4) && decide (fld r 2 1 < 2) && zeros r 3 1 && zeros r 8 8
  && (!m.writable || m.table == 0 || m.table == 3) && (if m.table < 2 then decide (m.count ≤ 2000) else decide (m.count ≤ 125))

def serialOk (n : Nat) (l : List Byte) : Bool :=
  let maps := (serMapRecs l).map readMap
  decide (32 ≤ l.length) && decide (32 + 16 * (fld l 13 1 + fld l 14 1) ≤ l.length) && hasMagic 0x59 l && fld l 4 1 == n
  && decide (fld l 5 1 < 3) && decide (fld l 6 1 < 4) && decide (fld l 7 1 < 9) && decide (fld l 8 1 < 3) && within 1 2 (fld l 9 1)
  && (fld l 9 1 == 1 || fld l 8 1 == 0) && within 1 247 (fld l 10 1) && decide (fld l 11 1 ≤ 5) && decide (1 ≤ fld l 12 1)
  && decide (fld l 13 1 ≤ 64) && decide (fld l 14 1 ≤ 64) && zeros l 15 1 && decide (fld l 16 2 ≤ 60000) && zeros l 18 14
  && (serTransRecs l).all serTransOk && (serMapRecs l).all serMapOk
  && !hasTwice ((serTransRecs l).map (fun r => fld r 0 1) ++ (serMapRecs l).map (fun r => fld r 0 1))
  && [0, 1, 2, 3].all fun t => !spansMeet ((maps.filter fun m => m.table == t).map fun m => (m.address, m.count))

def panelOk (l : List Byte) : Bool :=
  decide (48 ≤ l.length) && hasMagic 0x57 l && decide (fld l 4 1 < 4) && decide (10 ≤ fld l 5 1) && zeros l 6 10

/-- A MIGRATION section's head and reserved bytes (R169). -/
def migrationOk (l : List Byte) : Bool :=
  decide (16 ≤ l.length) && hasMagic 0x4D l && decide (fld l 12 1 < 2) && zeros l 13 3
  && decide (16 + 24 * fld l 4 4 + 16 * fld l 8 4 ≤ l.length)
  && (recsOf l 16 24 (fld l 4 4)).all (fun r => zeros r 18 6)
  && (recsOf l (16 + 24 * fld l 4 4) 16 (fld l 8 4)).all fun r => zeros r 13 3

/-- The consistency checks of R51 and the home chapters. Of "a set that would configure HOLD mode or forcing in a role that FLAGS do not
permit" no check is made: no section but the header's FLAGS names either. DEDUCED (assumption 31). -/
def KeySet.consistent (k : KeySet) : Bool :=
  k.stationOk && k.banksOk && k.tasksOk && k.codeOk && k.instOk && k.sigsOk && k.loopsOk && k.hoistOk && k.ringOk && k.timeOk
  && [1, 2, 3, 4].all k.canOk && k.queuesOk && [0, 1, 2, 3].all k.dioOk && [0, 1, 2, 3].all k.anaOk && k.safeOk
  && ifPresent (k.sec 0x12 0) calOk && ifPresent (k.sec 0x13 0) recorderOk && k.secOk
  && [1, 2].all (fun n => ifPresent (k.sec 0x15 n) (serialOk n)) && ifPresent (k.sec 0x16 0) panelOk
  && ifPresent (k.sec 0x06 0) migrationOk

/-- What the checks make of a set: a start result with parameters 2 and 3, or none (R50, R51). -/
def KeySet.check (k : KeySet) : Option (Nat × Nat × Nat) :=
  match k.limits with
  | some (n, v) => some (configLimit, n, v)
  | none => if k.consistent then none else some (configInconsistent, 0, 0)

end Sys2Proof.Machine
end

