-- ==== Sys2Proof/Machine/Ring.lean ====
section
/-! DEFINITION. The ring ports, the station sessions and the exchange (11_ring_and_stations.md R280 to R307). -/

namespace Sys2Proof.Machine

/-! ### The ports (R280 to R282, R302) -/

/-- Whether a ring port carries frames: its PHY and the network clock run, and it has link at 1000 Mbit/s (R280, R281). After key load the
PHYs are off where neither the RING section nor the Jack path uses the ring (R283). -/
def ringPortUp (s : State) (port : Nat) : Bool :=
  railsOn s && s.sys.mode != .harbour && (s.sys.run.contains .network && (s.ring.runs || !s.start.accepted))
  && (if port = 1 then s.ring.link1 && !s.ring.blocked1 else s.ring.link2 && !s.ring.blocked2)

/-- Whether the receive channel of a port takes frames for this module. -/
def ringReceives (s : State) (port : Nat) : Bool :=
  s.ring.runs && ringPortUp s port && !(if port = 1 then s.ring.rxHalt1 else s.ring.rxHalt2)

/-- The forget time of the node table, in ns. -/
def forgetNs : Nat := 400000000

/-- A source address is noted in the node table (R280). -/
def noteSource (src : Nat) (s : State) : State :=
  onRing (fun r =>
    let kept := r.nodes.filter fun n => s.mono < n.2 + forgetNs && n.1 != src
    if (r.nodes.any fun n => n.1 == src && s.mono < n.2 + forgetNs) || kept.length < 512 then
      { r with nodes := kept ++ [(src, s.mono)] }
    else { r with nodes := kept, flags := flag 7 r.flags }) s

/-- An untagged frame is discarded and counted (R280). -/
def untagged (s : State) : State := onRing (fun r => { r with counts := { r.counts with bad := satInc 32 r.counts.bad } }) s

/-- A frame for this module arrives on a port (R303). -/
def ringRx (x : Rx) (s : State) : State :=
  noteSource x.src (onRing (fun r => { r with counts :=
    if x.port = 1 then { r.counts with p1Rx := satInc 32 r.counts.p1Rx }
    else { r.counts with p2Rx := satInc 32 r.counts.p2Rx } }) s)

/-- Whether a frame is a second copy of one received within the forget time (R280). -/
def hsrSecond (x : Rx) (s : State) : Bool :=
  s.ring.seen.any fun e => e.1 == x.src && x.hsr == some e.2.1 && decide (s.mono < e.2.2 + forgetNs)

/-- The number of a frame from a source in the node table is kept. -/
def hsrKeep (x : Rx) (s : State) : State :=
  onRing (fun r =>
    let kept := r.seen.filter fun e => s.mono < e.2.2 + forgetNs
    { r with seen := match x.hsr with
        | some n => if r.nodes.any fun e => e.1 == x.src then kept ++ [(x.src, n, s.mono)] else kept
        | none => kept }) s

/-- What the duplicate discard lets through (R280). -/
def hsrOnce (x : Rx) (f : State → State) (s : State) : State := if hsrSecond x s then s else f (hsrKeep x s)

/-- A frame for this module on P1 or P2 that is not an INPUT: counted, discarded where it is untagged or a second copy, and else taken
(R280, R303). -/
def ringTakes (x : Rx) (f : State → State) (s : State) : State :=
  if x.hsr.isNone then untagged s else hsrOnce x f (ringRx x s)

/-- A frame on P1 or P2 that the module does not take: untagged it is discarded and counted, and else its source is noted (R280, R286). -/
def ringPasses (x : Rx) (s : State) : State := if x.hsr.isNone then untagged s else noteSource x.src s

/-- The measured mean link delay of a ring port in ns (R314). -/
def linkDelay (s : State) (port : Nat) : Nat := if port = 1 then s.time.linkDelay1 else s.time.linkDelay2

/-- messageType of the Pdelay messages of IEEE 1588, which stay on their link (R314). -/
def pdelayTypes : List Nat := [2, 3, 10]

/-- What the switch adds to the correctionField of a PTP message, in 2^−16 ns: to an event message the residence time, and in P2P mode
to a Sync the link delay of the port it came in on (R314). -/
def ptpCorrection (s : State) (port typ residence : Nat) : Nat :=
  if typ = 0 then (residence + (if s.time.cfg.p2p then linkDelay s port else 0)) * 65536
  else if typ = 1 then residence * 65536
  else 0

/-- The switch forwards a frame to the other port (R281, R314). DESIGN CHOICE (assumption 236). -/
def ringForward (f : RingFwd) (s : State) : State :=
  let out := 3 - f.x.port
  if !(ringPortUp s f.x.port && ringPortUp s out) then s
  else if f.x.hsr.isNone then untagged s
  else match f.ptp with
    | none => send .ringForward out 0 f.body (noteSource f.x.src s)
    | some (typ, corr) =>
      if pdelayTypes.contains typ then noteSource f.x.src s
      else send .ringForward out (corr + ptpCorrection s f.x.port typ f.residence) f.body (noteSource f.x.src s)

/-- RING_FORWARD (R281, R314). -/
def execRingForward (f : RingFwd) (s : State) : Out := answer (ringForward f s)

/-- Nanoseconds in a millisecond. -/
def nsPerMs : Nat := 1000000

/-- The address and EtherType of HSR supervision frames (IEC 62439-3). PRESUMED (assumption 238). -/
def supervisionDest : Nat := 0x01154E000100
def supervisionType : Nat := 0x88FB

/-- A supervision frame leaves on both ports, 10 ms after the last (R280). -/
def supervisionSend (s : State) : State :=
  if s.ring.runs && railsOn s && s.sys.mode != .harbour && longAgo s.ring.supAt (10 * nsPerMs) s.mono then
    onRing (fun r => { r with supAt := some s.mono, sup12 := some s.mono, sup21 := some s.mono })
      (ringSend .supervision 0 s.ring.hsrSeq.toNat supervisionDest [] s supervisionType)
  else s

/-- SUPERVISION_SEND (R280). -/
def execSupervisionSend (s : State) : Out := answer (supervisionSend s)

/-- Event messages of the ordinary clock come from P1, or from P2 while direction P1 to P2 is marked open (R311). -/
def ptpDirection (s : State) : State := onTime (fun t => { t with ringDir := decide (2 ≤ s.ring.miss12) }) s

/-- The supervision frame in flight of a direction: `p12` the one sent on P1. -/
def inFlight (p12 : Bool) (s : State) : Option Nat := if p12 then s.ring.sup12 else s.ring.sup21

/-- The frame in flight of a direction has returned or is given up. -/
def landed (p12 : Bool) (s : State) : State :=
  onRing (fun r => if p12 then { r with sup12 := none } else { r with sup21 := none }) s

/-- An own supervision frame returns within 1 ms (R282): `p12` for the one sent on P1. -/
def supervisionReturn (p12 : Bool) (s : State) : State :=
  let wasOpen := if p12 then decide (2 ≤ s.ring.miss12) else decide (2 ≤ s.ring.miss21)
  let s := onRing (fun r => if p12 then { r with dir12 := true, miss12 := 0 } else { r with dir21 := true, miss21 := 0 }) (landed p12 s)
  ptpDirection (if wasOpen then raise .ringClosed .notice 0xFF 0 0 0 s else s)

/-- SUPERVISION_RETURN (R282). -/
def execSupervisionReturn (p12 : Bool) (s : State) : Out :=
  answer (if (inFlight p12 s).any fun t => decide (s.mono ≤ t + nsPerMs) then supervisionReturn p12 s else s)

/-- An own supervision frame does not return within 1 ms (R282): two in a row mark the direction open.
DEDUCED (assumption 142). -/
def supervisionTimeout (p12 : Bool) (s : State) : State :=
  let n := (if p12 then s.ring.miss12 else s.ring.miss21) + 1
  let s := onRing (fun r => if p12 then { r with miss12 := min n 2 } else { r with miss21 := min n 2 }) (landed p12 s)
  if n = 2 then
    ptpDirection (raise .ringOpen .fault 0xFF 0 0 0 (onRing (fun r =>
      let r := if p12 then { r with dir12 := false } else { r with dir21 := false }
      { r with flags := flag 2 r.flags, counts := { r.counts with openings := satInc 32 r.counts.openings } }) s))
  else s

/-- SUPERVISION_TIMEOUT (R282). -/
def execSupervisionTimeout (p12 : Bool) (s : State) : Out :=
  answer (if (inFlight p12 s).any fun t => decide (t + nsPerMs ≤ s.mono) then supervisionTimeout p12 s else s)

/-- The code of a link at 1000 Mbit/s: 1 is 10 Mbit/s and 2 is 100 Mbit/s (R500). -/
def gigabit : Nat := 3

/-- A port of the module, 1 to 4, gains link at a speed by its code (R280, R500). -/
def linkUp (port speed : Nat) (s : State) : State :=
  match port with
  | 1 | 2 =>
    if speed < gigabit then
      raise .ringSpeed .fault port 0 0 0 (onRing (fun r =>
        let r := { r with flags := flag 3 r.flags }
        if port = 1 then { r with blocked1 := true, link1 := false } else { r with blocked2 := true, link2 := false }) s)
    else onRing (fun r =>
      if port = 1 then { r with link1 := true, blocked1 := false } else { r with link2 := true, blocked2 := false }) s
  | 3 => onPair (fun p => { p with linkP3 := true }) s
  | 4 => { s with sys := { s.sys with linkP4 := true }, plant := { s.plant with speed := speed } }
  | _ => s

/-- A port loses link (R302). -/
def linkLost (port : Nat) (s : State) : State :=
  match port with
  | 1 | 2 =>
    let had := if port = 1 then s.ring.link1 else s.ring.link2
    let s := onRing (fun r =>
      if port = 1 then { r with link1 := false, blocked1 := false } else { r with link2 := false, blocked2 := false }) s
    if had then
      raise .ringLinkDown .notice port 0 0 0 (onRing (fun r => { r with flags := flag (port - 1) r.flags }) s)
    else s
  | 3 => onPair (fun p => { p with linkP3 := false }) s
  | 4 => { s with sys := { s.sys with linkP4 := false }, plant := { s.plant with speed := 0 } }
  | _ => s

/-- LINK_LOST (R302). -/
def execLinkLost (port : Nat) (s : State) : Out := answer (linkLost port s)

/-! ### Sessions (R293, R294) -/

/-- Whether the module owns the exchange: SOLO or ACTIVE. -/
def ringOwner (s : State) : Bool := takesCommands s

/-- A HELLO is refused (R294): the count, the flag and the record, once for each address in 60 s. -/
def joinRefused (case : Nat) (e : Ev) (h : HelloFrame) (p3 : Nat) (s : State) : State :=
  let s := onRing (fun r =>
    { r with flags := flag 6 r.flags, counts := { r.counts with joinsRefused := satInc 32 r.counts.joinsRefused } }) s
  let key := h.station * 8 + case
  if longAgo (look key s.ring.refusedAt) (60 * nsPerSec) s.mono then
    raise e .notice h.station h.station (h.src % 2 ^ 32) p3
      (onRing (fun r => { r with refusedAt := put key s.mono r.refusedAt }) s)
  else s

/-- The session after the last: plus 1, skipping 0. -/
def nextSession (n : Nat) : Nat := if n + 1 < 65536 then n + 1 else 1

/-- A HELLO is admitted (R293): ADMITTING and the ADMIT. -/
def admitStation (x : Station) (h : HelloFrame) (s : State) : State :=
  let s := onStation x.num (fun x =>
    { x with st := .admitting, fromLost := x.st == .lost, session := nextSession x.session, addr := some h.src,
             lastSeq := none, held := none, waiting := none, admitAt := s.mono }) s
  match stationOf s x.num with
  | none => s
  | some x => ringSend .ringAdmit x.num x.session h.src (admitBytes s x h.typ) s

/-- A HELLO of the module's owner (R293, R294, R235, R236). DEDUCED (assumption 140). -/
def hello (h : HelloFrame) (s : State) : State :=
  let busy := (s.ring.stations.filter fun x => x.st == .admitting || x.st == .live).length
  match stationOf s h.station with
  | none => if 127 ≤ busy then joinRefused 0 .sessionFull h 0 s else joinRefused 1 .stationUnknown h 0 s
  | some x =>
    if 127 ≤ busy then joinRefused 0 .sessionFull h 0 s
    else if (x.st == .live || x.st == .admitting) && x.addr != some h.src then joinRefused 2 .addressInUse h 0 s
    else if x.pinMac && x.mac != h.src then joinRefused 3 .stationRefused h 1 s
    else if x.typ ≠ 0 ∧ x.typ ≠ h.typ then joinRefused 4 .stationRefused h 2 s
    else if h.outMax < x.outLen ∨ h.inMax < x.inLen then joinRefused 5 .stationRefused h 3 s
    else if s.pair.epoch < h.highest then
      let s := joinRefused 6 .stationRefused h 4 s
      if s.sys.role = .active then supersede h.highest s else raiseEpoch h.highest s
    else if x.st == .admitting then s
    else admitStation x h s

/-- A HELLO read from its bytes; none where it fails R229 (R287). -/
def readHello (src : Nat) (l : List Byte) : Option HelloFrame :=
  if frameOk 0x20 l && fld l 2 2 == 32 then
    some { src := src, owner := fld l 4 8, station := fld l 12 1, highest := fld l 16 4, typ := fld l 20 4, outMax := fld l 24 2
           inMax := fld l 26 2 }
  else none

/-- HELLO (R280, R286, R287, R293, R294): only the owner answers. -/
def execHello (x : Rx) (l : List Byte) (s : State) : Out :=
  answer (if ringReceives s x.port then
    match readHello x.src l with
    | some h =>
      if h.owner = ownerId s then settle s (ringTakes x (fun t => if ringOwner t then hello h t else t) s) else ringPasses x s
    | none => ringPasses x s
  else s)

/-- 10 ms pass without a valid INPUT in ADMITTING (R293). -/
def admitTimeout (n : Nat) (s : State) : State :=
  onStation n (fun x =>
    if x.st = .admitting ∧ x.held.isNone ∧ x.admitAt + 10 * nsPerMs ≤ s.mono then { x with st := if x.fromLost then .lost else .idle }
    else x) s

/-- ADMIT_TIMEOUT (R293). -/
def execAdmitTimeout (n : Nat) (s : State) : Out := answer (admitTimeout n s)

/-- An ADMIT read from its bytes (R288). -/
def readAdmit (dest : Nat) (l : List Byte) : Option AdmitFrame :=
  if frameOk 0x21 l && fld l 2 2 == 40 then
    some { dest := dest, owner := fld l 4 8, station := fld l 12 1, session := fld l 14 2 }
  else none

/-- A standby sees an ADMIT of its owner (R300). -/
def admitSeen (a : AdmitFrame) (s : State) : State :=
  onStation a.station (fun x =>
    { x with st := .admitting, fromLost := x.st == .lost || (x.st == .admitting && x.fromLost), session := a.session,
             addr := some a.dest, lastSeq := none, held := none, admitAt := s.mono }) s

/-- ADMIT_SEEN (R280, R300). -/
def execAdmitSeen (x : Rx) (dest : Nat) (l : List Byte) (s : State) : Out :=
  answer (if ringReceives s x.port then
    match readAdmit dest l with
    | some a =>
      if x.hsr.isSome ∧ s.sys.role = .standby ∧ a.owner = ownerId s then hsrOnce x (admitSeen a) (noteSource x.src s)
      else ringPasses x s
    | none => ringPasses x s
  else s)

/-- A module sees an OUTPUT of its owner with an epoch above its own (R236, R300): ACTIVE or standby, it becomes STANDBY
(STALE). -/
def outputSeen (e : Nat) (s : State) : State :=
  if s.pair.epoch < e then
    if s.sys.role = .active ∨ s.pair.st = .taking then supersede e s
    else if s.sys.role = .standby then
      let s := onPair (fun p => { p with flags := flag 4 p.flags, epoch := e, epochCopy := e }) s
      becomeStale 1 (raise .epochSuperseded .fault 0xFF 0 0 0 s)
    else s
  else s

/-- OUTPUT_SEEN (R236, R280, R289, R300): an OUTPUT of the module's owner, of a configured station or the announcement. -/
def execOutputSeen (x : Rx) (l : List Byte) (s : State) : Out :=
  let st := fld l 12 1
  answer (if !ringReceives s x.port then s
  else if x.hsr.isSome && frameOk 0x22 l && fld l 2 2 == 40 + fld l 32 2 && fld l 4 8 == ownerId s
      && (st == 0 || (stationOf s st).isSome) then
    settle s (hsrOnce x (outputSeen (fld l 16 4)) (noteSource x.src s))
  else ringPasses x s)

/-! ### Inputs (R291, R296) -/

/-- Whether an entry shows an item of a station. -/
def isRingEntry (n : Nat) (e : SigEntry) : Bool := e.kind == 4 && field e.ref 25 7 == n

/-- A frame's data is unpacked into the station's entries (R191, R296). -/
def unpackStation (n : Nat) (data : List Byte) (s : State) : State := unpackPayload 4 (ringSlot n) data s

/-- Whether SEQ is next: the first of its session, or 1 to 2^31 − 1 ahead (R291). -/
def seqNext (last : Option Nat) (seq : Nat) : Bool :=
  match last with
  | none => true
  | some l =>
    let d := (seq + 2 ^ 32 - l) % 2 ^ 32
    decide (1 ≤ d) && decide (d ≤ 2 ^ 31 - 1)

/-- An INPUT that fails R291: counted. -/
def inputBad (discard : Bool) (s : State) : State :=
  onRing (fun r =>
    { r with flags := if discard then flag 8 r.flags else r.flags
             counts := { r.counts with bad := satInc 32 r.counts.bad } }) s

/-- A valid INPUT of a station (R293, R296, R297). -/
def inputValid (x : Station) (f : InputFrame) (s : State) : State :=
  let s := onStation x.num (fun x =>
    { x with lastSeq := some f.seq, status := f.status % 8, inputs := satInc 32 x.inputs, missRun := 0, fresh := true }) s
  let t := taskAt s x.task
  if x.st = .live ∧ !(t.cycleAt.isSome && !t.started) then unpackStation x.num f.data s
  else onStation x.num (fun x => { x with held := some f }) s

/-- A standby that has seen no ADMIT for a station takes the session of its first INPUT (R300). -/
def adoptSession (src : Nat) (f : InputFrame) (x : Station) (s : State) : State :=
  if s.sys.role = .standby ∧ x.st = .idle ∧ x.addr.isNone then
    onStation x.num (fun x => { x with st := .admitting, session := f.session, addr := some src, lastSeq := none, admitAt := s.mono }) s
  else s

/-- The fields of an INPUT (R290). -/
def readInput (l : List Byte) : InputFrame :=
  { owner := fld l 4 8, station := fld l 12 1, status := fld l 13 1, session := fld l 14 2, highest := fld l 16 4
    lastCycle := fld l 20 8, seq := fld l 28 4, dataLen := fld l 32 2, data := slice l 36 (fld l 32 2) }

/-- Rows of a receive slot: the largest ring frame has 1,064 bytes (R290). -/
def slotRows : Nat := 3

/-- The first byte of the receive slot of a ring port in B12 (R296). DESIGN CHOICE (assumption 236). -/
def slotAt (port : Nat) : Nat := 12 * bankBytes + (port - 1) * slotRows * 0x200

/-- The words of a frame, from an address on, written by the ring engine. -/
def slotWords : Nat → Nat → List Byte → State → State
  | 0, _, _, s => s
  | n + 1, a, l, s => slotWords n (a + 8) (l.drop 8) (storeWord a ((l ++ List.replicate 8 0).take 8) true s)

/-- A frame goes into its port's slot of B12, and the engine reads it there: the frame as read, or none where a word is uncorrectable or the
slot's rows are not the engine's, and the port's receive channel has halted (R97, R106, R296, R302). -/
def throughSlot (port station : Nat) (l : List Byte) (flips : List (Nat × Nat)) (s : State) : Option (List Byte) × State :=
  let a := slotAt port
  let words := (l.length + 7) / 8
  if !(List.range slotRows).all fun k => accessAllowed s .ring 12 ((port - 1) * slotRows + k) true then
    (none, ringHalts port false station (ownerFault .ring (placeOf s a) s))
  else
    let s := applyFlips flips (slotWords words a l s)
    match blockRead .ring ((List.range words).map fun k => placeOf s (a + 8 * k)) s with
    | (some p, s) => (none, ringHalts port false station (ueFound .ring p s))
    | (none, s) => (some ((List.range l.length).map fun i => bankByte s (a + i)), s)

/-- One copy of an INPUT as read from its slot (R229, R291). -/
def inputFrame (src : Nat) (l : List Byte) (s : State) : State :=
  let f := readInput l
  if !frameOk 0x23 l || fld l 2 2 != 40 + f.dataLen then inputBad false s
  else
    let s := raiseEpoch f.highest s
    match stationOf s f.station with
    | none => inputBad false s
    | some x0 =>
      let s := adoptSession src f x0 s
      match stationOf s f.station with
      | none => s
      | some x =>
        if x.st == .idle || x.st == .lost then inputBad true s
        else if x.lastSeq == some f.seq && x.session == f.session && x.addr == some src then
          onRing (fun r => { r with counts := { r.counts with duplicates := satInc 32 r.counts.duplicates } }) s
        else if x.session == f.session && x.addr == some src && f.dataLen == x.inLen && seqNext x.lastSeq f.seq then
          inputValid x f s
        else inputBad false s

/-- One copy of an INPUT (R291, R296, R302). -/
def inputCopy (x : Rx) (l : List Byte) (flips : List (Nat × Nat)) (s : State) : State :=
  match throughSlot x.port (fld l 12 1) l flips s with
  | (some l, s) => inputFrame x.src l s
  | (none, s) => s

/-- INPUT (R286, R291, R293, R296, R300, R302): each copy of a tagged frame that carries the module's OWNER_ID. One that no INPUT of R290 can
be, shorter than 40 bytes or longer than 1,064, fails R291 before it has a slot. -/
def execInput (x : Rx) (l : List Byte) (flips : List (Nat × Nat)) (s : State) : Out :=
  answer (if !ringReceives s x.port then s
  else if x.hsr.isNone ∨ fld l 4 8 ≠ ownerId s then ringPasses x s
  else if l.length < 40 ∨ 1064 < l.length then inputBad false (ringRx x s)
  else settle s (inputCopy x l flips (ringRx x s)))

/-! ### At the release instants and write points of a station's task -/

/-- A station is declared lost (R293, R297). -/
def stationLost (x : Station) (s : State) : State :=
  let s := onStation x.num (fun x => { x with st := .lost, losses := satInc 16 x.losses, waiting := none, held := none }) s
  let s := onRing (fun r => { r with flags := flag 5 r.flags }) s
  raise .stationLost .fault x.num 0 0 0 (declareAbsent (isRingEntry x.num) s)

/-- The check of one station at a release instant of its task, whatever its state (R293, R297). -/
def stationCheck (x : Station) (s : State) : State :=
  match x.st, x.held with
  | .admitting, some f =>
    let s := onStation x.num (fun x =>
      { x with st := .live, held := none, first := true, fresh := false, checked := true, missRun := 0 }) s
    raise .stationAdmitted .info x.num 0 0 0 (unpackStation x.num f.data s)
  | st, _ =>
    let miss := !x.fresh
    let run := if miss then x.missRun + 1 else x.missRun
    let s := onStation x.num (fun x =>
      { x with fresh := false, missRun := min run 255, misses := if miss then satInc 32 x.misses else x.misses, checked := true }) s
    if st = .live then if x.lostCycles ≤ run then stationLost x s else s
    else if x.checked then s
    else updateWhere (isRingEntry x.num) (fun e => some (e.initial, qStation)) s

/-- The checks of every station of a task (R297). -/
def stationChecks (task : Nat) (s : State) : State :=
  forAll (s.ring.stations.filter fun x => x.task == task) stationCheck s

/-- The frames held while a freeze was made are unpacked (R296). -/
def unpackHeld (task : Nat) (s : State) : State :=
  forAll (s.ring.stations.filter fun x => x.task == task && x.st == .live) (fun x t =>
    match x.held with
    | none => t
    | some f => unpackStation x.num f.data (onStation x.num (fun x => { x with held := none }) t)) s

/-- The first network-time instant at or after an instant with n mod PERIOD equal to PHASE (R319), in ns. -/
def launchInstant (from_ period phase : Nat) : Nat :=
  let p := max period 1
  from_ + (phase + p - from_ % p) % p

/-- An output is launched at once, or waits for its instant where its task is TIMED (R319). -/
def launch (safe : Bool) (data : List Byte) (cycle : Nat) (x : Station) (s : State) : State :=
  let l := s.time.cfg.launch.getD x.task {}
  if l.timed then
    let at_ := launchInstant (s.time.ns + 4000) ((taskAt s x.task).period * 1000000) (l.phase * 1000)
    onTime (fun t => { t with launches := put x.task at_ t.launches })
      (onStation x.num (fun x => { x with waiting := some (safe, data, cycle) }) s)
  else sendOutput safe data cycle s.mono x s

/-- The outputs of the stations of a task are built and launched; the data of a station that is not LIVE is discarded
(R298). -/
def stationOutputs (safe : Bool) (task cycle : Nat) (s : State) : State :=
  forAll (s.ring.stations.filter fun x => x.task == task) (fun x t =>
    if x.st = .live then launch safe (if safe then List.replicate x.outLen 0 else stationData t x) cycle x t
    else if safe then t
    else onRing (fun r => { r with counts := { r.counts with outDiscarded := satInc 32 r.counts.outDiscarded } }) t) s

/-- What the module sends at a write point of a task (R299). -/
def outputsAtWritePoint (task cycle : Nat) (s : State) : State :=
  if takesCommands s && (s.sys.mode == .run || s.cyc.draining) then stationOutputs false task cycle s else s

/-- What the module sends at a release instant of a task (R299): SAFE in STOP, the last values in HOLD. -/
def outputsAtRelease (task m : Nat) (s : State) : State :=
  if takesCommands s && s.sys.mode == .stop && !s.cyc.draining then stationOutputs true task m s
  else if s.sys.role == .solo && s.sys.mode == .hold && !s.cyc.draining then stationOutputs false task m s
  else s

/-! ### The RING window -/

/-- The boundary of RING_COMMIT (R304). -/
def ringBoundary (s : State) : State :=
  if s.ring.commit.pending then
    let c := s.ring.copied
    let s := onRing (fun r => { r with commit := { r.commit with pending := false } }) s
    match stationOf s c.station with
    | none => onRing (fun r => { r with flags := flag 9 r.flags }) s
    | some x =>
      if c.lostCycles < 2 then onRing (fun r => { r with flags := flag 9 r.flags }) s
      else
        let s := onStation x.num (fun x => { x with lostCycles := c.lostCycles }) s
        if x.st = .live ∧ c.lostCycles ≤ x.missRun then stationLost x s else s
  else s

def ringBank (s : State) : Reader → RingBank
  | .sdk => s.ring.sdk
  | .plant => s.ring.plant

def onRingBank (r : Reader) (f : RingBank → RingBank) (s : State) : State :=
  onRing (fun g => match r with
    | .sdk => { g with sdk := f g.sdk }
    | .plant => { g with plant := f g.plant }) s

/-- STATE of R307. -/
def StnState.code : StnState → Nat
  | .idle => 0
  | .admitting => 1
  | .live => 2
  | .lost => 3

/-- RING_SV_STATE of a station. -/
def stationWord (x : Station) : Word :=
  packFields [(30, 2, x.st.code), (29, 1, 1), (24, 3, x.status), (16, 8, x.lostCycles), (0, 16, x.session)]

/-- A write of RING_SEL (R307): station 0 and one that is not configured latch zeros. -/
def writeRingSel (r : Reader) (v : Word) (s : State) : State :=
  let n := field v 0 7
  onRingBank r (fun b =>
    if v.getLsbD 31 then
      match stationOf s n with
      | none => { sel := n, latched := true }
      | some x =>
        { sel := n, latched := true, state := stationWord x, inputs := BitVec.ofNat 32 x.inputs
          misses := BitVec.ofNat 32 x.misses
          losses := packFields [(16, 16, x.losses), (0, 8, x.missRun)] }
    else { b with sel := n }) s

/-- RING_SEL_LATCH (R307). -/
def execRingSelLatch (r : Reader) (v : Word) (s : State) : Out := answer (writeRingSel r v s)

end Sys2Proof.Machine
end

