-- ==== Sys2Proof/Machine/Rtc.lean ====
section
/-! DEFINITION. The backup domain's clock, its alarms and the WAKE input (17_calendar_clock.md R441 to R459). -/

namespace Sys2Proof.Machine

/-- Always-on cycles since the second tick. -/
def rtcSub (s : State) : Nat := min (((s.mono : Int) - s.rtc.tickAt).toNat * 32768 / nsPerSec) 65535

/-- Whether wake sources wait for harbour watch's action: in it, or while it is entered (R80). -/
def inHarbour (s : State) : Bool := s.sys.mode == .harbour || s.pwr.hbr == .entering

/-- A wake source waits for its action in harbour watch (R80). -/
def wakeBy (w : WakeSource) (s : State) : State :=
  onPwr (fun p => { p with wakeWait := p.wakeWait ++ [w] }) s

/-- The backup domain raises an event: at once with logic power, at the next start without it (R462). -/
def raiseBackup (e : Ev) (sev : Severity) (p1 : Nat) (s : State) : State :=
  if s.pwr.railsOff then onRtc (fun r => { r with unraised := r.unraised ++ [(e, sev, p1)] }) s else raise e sev 0xFF p1 0 0 s

/-- An alarm fires (R452): its flags, count and ONCE, and the action of the state. -/
def alarmFires (a : Nat) (late : Bool) (s : State) : State :=
  let s := onRtc (fun r =>
    { r with
      flags := if late then flag (a + 2) (flag a r.flags) else flag a r.flags
      counts := r.counts.modify a (satInc 16)
      alarms := r.alarms.modify a fun x => if x.once then { x with enable := false } else x }) s
  if s.pwr.railsOff then onRtc (fun r => { r with deferred := r.deferred ++ [a] }) s
  else if inHarbour s then
    wakeBy (if a = 0 then .alarm0 else .alarm1) (onRtc (fun r => { r with untold := r.untold ++ [(a, late)] }) s)
  else raise .rtcAlarm .info 0xFF a (bit late) 0 s

/-- The comparison of one alarm at a tick (R450, R451): `moved` is the value from which a set moved the calendar. -/
def alarmCompare (moved : Option Calendar) (a : Nat) (s : State) : State :=
  let x := s.rtc.alarms.getD a {}
  if !x.enable then s
  else
    let overNow := match moved with
      | none => false
      | some old => x.passedOver old s.rtc.now s.rtc.weekday
    if overNow && x.catchup then alarmFires a true s
    else if x.hits s.rtc.now s.rtc.weekday then alarmFires a false s else s

/-- The UTC second in progress, from 2000-01-01 (R320): 946,684,800 s lie between the epochs. -/
def utcSecond (s : State) : Int := (s.time.ns / nsPerSec : Nat) - s.time.utcOffset - 946684800

/-- The calendar moves to a value that a set writes. -/
def calendarMoves (new : Calendar) (s : State) : State := onRtc (fun r => { r with now := new, valid := true }) s

/-- What a tick makes of the sets that wait (R448, R449): the calendar is `old` unless a set writes it. -/
def tickSets (old : Calendar) (s : State) : Option Calendar × State :=
  let c := s.rtc.copied
  if s.rtc.commit.pending then
    let s := onRtc (fun r => { r with commit := { r.commit with pending := false }, discipline := none }) s
    if !c.possible then
      (none, raiseBackup .rtcSetInvalid .notice 0 (onRtc (fun r => { r with flags := flag 7 r.flags, now := old }) s))
    else
      let s := onRtc (fun r =>
        { r with alarms := c.alarms, filter := c.filter, now := old
                 weekday := if c.setWeekday then c.weekday else r.weekday }) s
      if c.setCalendar then
        (some old, raiseBackup .calendarSet .notice (signed32 ((c.time.seconds : Int) - old.seconds)) (calendarMoves c.time s))
      else (none, s)
  else
    match s.rtc.discipline with
    | none => (none, onRtc (fun r => { r with now := old }) s)
    | some d =>
      let new := calendarOf (utcSecond s).toNat
      let s := onTime (fun t => { t with flags := flag 7 t.flags }) (onRtc (fun r => { r with discipline := none }) s)
      (some old, raiseBackup .calendarSetPtp .notice (signed32 d) (calendarMoves new s))

/-- The second tick (R446, R447, R449 to R452). -/
def secondTick (s : State) : State :=
  let was := s.rtc.now
  let old := was.tick
  let s := if was = lastSecond then
      raiseBackup .rtcRangeWrap .fault 0 (onRtc (fun r => { r with flags := flag 8 r.flags }) s)
    else s
  let s := if old.daySecond = 0 then onRtc (fun r => { r with weekday := (r.weekday + 1) % 7 }) s else s
  let (moved, s) := tickSets old s
  let s := alarmCompare moved 1 (alarmCompare moved 0 s)
  onRtc (fun r => { r with tickAt := s.mono }) s

/-- Whether a second may have passed since the last tick: none is shorter than 0.9997 s (R444). Without power the monotonic base stands, and
tells nothing. -/
def secondPassed (s : State) : Bool := s.pwr.railsOff || decide (s.rtc.tickAt + 999700000 ≤ (s.mono : Int))

/-- SECOND_TICK (R449). -/
def execSecondTick (s : State) : Out := answer (if secondPassed s then secondTick s else s)

/-- The crystal's offset at a temperature in 0.01 °C, as a numerator over 500 in 0.01 ppm: from the curve between two of its
points, or the nominal parabola (R444). DESIGN CHOICE (assumption 190). -/
def crystalOffset (t : Int) (s : State) : Int × State :=
  if !s.rtc.curveOk then (divEven (-17 * (t - 2500) * (t - 2500)) 100, s)
  else if t < -4000 ∨ 9000 < t then
    let (x, s) := freed Config.freeInt s
    (x, s)
  else
    let i := min ((t + 4000) / 500).toNat 25
    let p := s.rtc.curve.getD i 0
    let q := s.rtc.curve.getD (i + 1) 0
    (p * 500 + (q - p) * (t + 4000 - 500 * i), s)

/-- The start of a compensation interval (R444): C = offset × 60 × 32,768 cycles, rounded, at most 512. -/
def compensate (t : Int) (s : State) : State :=
  let (o, s) := crystalOffset t s
  onRtc (fun r =>
    { r with temp := t, corr := divEven o 500, cycles := clamp (-512) 512 (divEven (o * 1966080) 50000000000) }) s

/-- COMPENSATION_INTERVAL (R444). -/
def execCompensationInterval (t : Int) (s : State) : Out := answer (compensate t s)

/-- The cell and the supercapacitor are measured, in mV (R441). -/
def cellMeasure (cell cap : Nat) (s : State) : State :=
  let s := onRtc (fun r => { r with cellMv := cell, capMv := cap }) s
  if cell < 2700 then raise .rtcCellLow .notice 0xFF 0 0 0 (onRtc (fun r => { r with flags := flag 5 r.flags }) s) else s

/-- CELL_MEASURE (R441). -/
def execCellMeasure (cell cap : Nat) (s : State) : Out := answer (cellMeasure cell cap s)

/-- Whether WAKE is sensed: with logic power or X2 (R453). -/
def wakeSensed (s : State) : Bool := !s.pwr.railsOff || s.pwr.x2

/-- The filtered WAKE level rises (R453). -/
def wakeRise (s : State) : State :=
  if s.rtc.wakeLevel || !wakeSensed s then s
  else
    let s := onRtc (fun r => { r with wakeLevel := true }) s
    if inHarbour s then wakeBy .wakeInput s
    else raiseBackup .rtcWakeInput .info 0 (onRtc (fun r => { r with flags := flag 9 r.flags }) s)

/-- WAKE_INPUT (R453). -/
def execWakeInput (s : State) : Out := answer (wakeRise s)

/-- WAKE_LEVEL_FALL (R453). -/
def execWakeLevelFall (s : State) : Out := answer (if wakeSensed s then onRtc (fun r => { r with wakeLevel := false }) s else s)

/-- The time layout of R457. -/
def timeWord (c : Calendar) (weekday : Nat) : Word :=
  packFields [(29, 3, weekday), (24, 5, c.hour), (18, 6, c.minute), (12, 6, c.second)]

/-- The date layout of R457. -/
def dateWord (c : Calendar) : Word := packFields [(16, 12, c.year), (8, 4, c.month), (0, 5, c.day)]

/-- A calendar value with the fields of a time word. -/
def Calendar.withTime (c : Calendar) (v : Word) : Calendar :=
  { c with hour := field v 24 5, minute := field v 18 6, second := field v 12 6 }

/-- A calendar value with the fields of a date word. -/
def Calendar.withDate (c : Calendar) (v : Word) : Calendar :=
  { c with year := field v 16 12, month := field v 8 4, day := field v 0 5 }

/-- An alarm's control word (R459). -/
def alarmWord (a : Alarm) : Word :=
  packFields [(31, 1, bit a.enable), (30, 1, bit a.catchup), (29, 1, bit a.once), (0, 7, a.matchMask)]

/-- An alarm with the fields of its control word. -/
def Alarm.withCtrl (a : Alarm) (v : Word) : Alarm :=
  { a with enable := v.getLsbD 31, catchup := v.getLsbD 30, once := v.getLsbD 29, matchMask := field v 0 7 }

/-- A read of RTC_NOW_TIME (R455): the word, with the date and the sub-second count latched. -/
def readRtcNow (r : Reader) (s : State) : Word × State :=
  let l : RtcLatch := { date := s.rtc.now, sub := rtcSub s }
  (timeWord s.rtc.now s.rtc.weekday, onRtc (fun x => match r with
    | .sdk => { x with sdk := l }
    | .plant => { x with plant := l }) s)

/-- RTC_NOW_READ (R455). -/
def execRtcNowRead (r : Reader) (s : State) : Out := answer (readRtcNow r s).2

end Sys2Proof.Machine
end

