-- ==== Sys2Proof/Machine/NetTime.lean ====
section
/-! DEFINITION. Network time, PTP, timed pulses and timed launches (12_network_time.md R308 to R325) and the drift check of
R536. -/

namespace Sys2Proof.Machine

/-! ### States (R309) -/

/-- STATE of TIME_STATUS. -/
def TimeState.code : TimeState → Nat
  | .disabled => 0
  | .freeRun => 1
  | .acquiring => 2
  | .locked => 3
  | .holdover => 4
  | .grandmaster => 5

/-- Whether TIME entries carry UNCERTAIN_HOLDOVER. -/
def timeUncertain (s : State) : Bool :=
  match s.time.st with
  | .locked | .grandmaster => false
  | .holdover => s.time.expired
  | _ => true

/-- The quality of TIME entries. -/
def timeQuality (s : State) : Byte := if timeUncertain s then qHoldover else qGood

/-- Whether a master is selected. -/
def hasMaster (s : State) : Bool := s.time.st == .acquiring || s.time.st == .locked

/-- The port the ordinary clock takes its event messages from (R311). -/
def ptpPort (s : State) : Nat := if s.time.cfg.port4 then 4 else if s.time.ringDir then 2 else 1

/-- Whether PTP messages can leave. -/
def ptpSends (s : State) : Bool :=
  s.time.cfg.ptp && railsOn s && s.sys.mode != .harbour && (if s.time.cfg.port4 then s.sys.linkP4 else ringSends s)

/-- The EtherType of PTP (R311), and the multicast addresses of IEEE 1588 over IEEE 802.3: of the Pdelay messages, and of all others.
PRESUMED (assumption 238). -/
def ptpType : Nat := 0x88F7
def ptpPeerDest : Nat := 0x0180C200000E
def ptpDest : Nat := 0x011B19000000

/-- A PTP message leaves: on the ring with its HSR sequence number, or on P4 with an 802.1Q tag of priority 7 (R311). -/
def ptpSend (k : SentKind) (num : Nat) (body : List Byte) (s : State) (dest : Nat := ptpDest) : State :=
  if !ptpSends s then s
  else if s.time.cfg.port4 then sendFrame k 4 num { ports := [4], dest := dest, tag := some 7, typ := ptpType } body s
  else ringSend k 1 num dest body s ptpType

/-- The logMessageInterval of a message: LOG_SYNC, LOG_ANNOUNCE or LOG_DELAY (R321). PRESUMED (assumption 238). -/
def ptpInterval (log : Int) : List Byte := leBytes 1 (lowBits 8 log)

/-- The speed of a port's link, by its code in R500. -/
def portSpeed (s : State) (port : Nat) : Nat := if port = 4 then s.plant.speed else gigabit

/-- The timestamp of an event message that arrives on a port (R312). -/
def receiptAt (s : State) (port : Nat) : Nat := s.time.ns - Config.phyReceive port (portSpeed s port)

/-- The timestamp of an event message that leaves a port at a network time (R312). -/
def sendingAt (s : State) (port ns : Nat) : Nat := ns + Config.phySend port (portSpeed s port)

/-- The mean path delay, or in P2P mode on the ring the mean link delay of the port in use (R311, R314, R322). -/
def meanDelay (s : State) : Nat :=
  if s.time.cfg.p2p && !s.time.cfg.port4 then linkDelay s (ptpPort s) else s.time.pathDelay

/-- A time in the layout of IEEE 1588: 48-bit seconds and 32-bit nanoseconds, most significant first. -/
def ptpTimestamp (ns : Nat) : List Byte := beBytes 6 (ns / nsPerSec) ++ beBytes 4 (ns % nsPerSec)

/-! ### The calendar check (R320) -/

/-- UTC less the calendar, in ns. -/
def calendarError (s : State) : Int :=
  (s.time.ns : Int) - (s.time.utcOffset + 946684800) * nsPerSec
    - (s.rtc.now.seconds * nsPerSec + rtcSub s * nsPerSec / 32768 : Nat)

/-- A check of the calendar: one off by more than 1 s is disciplined at the next second tick (R320). DEDUCED (assumption 154). -/
def calendarCheck (s : State) : State :=
  let s := onTime (fun t => { t with checkedAt := s.mono }) s
  if s.time.cfg.discipline && s.time.st == .locked then
    let d := calendarError s
    if d < -(nsPerSec : Int) ∨ (nsPerSec : Int) < d then
      onRtc (fun r => { r with discipline := some (Int.tdiv d nsPerSec) }) s
    else s
  else s

/-- CALENDAR_DISCIPLINE (R320): 3,600 s of the monotonic base since the last check, LOCKED with UTC_VALID. -/
def execCalendarDiscipline (s : State) : Out :=
  answer (if s.time.everLocked && decide (s.time.checkedAt + 3600 * nsPerSec ≤ s.mono) && s.time.st == .locked && s.time.utcValid
    then calendarCheck s else s)

/-! ### The servo (R310, R315) -/

/-- An offset as TIME_OFFSET holds it. -/
def sat32 (x : Int) : Int := clamp (-(2 ^ 31)) (2 ^ 31 - 1) x

/-- LOCKED after 16 Sync intervals in a row within 1 µs; LOCKED ends with one outside (R309). -/
def lockStep (off : Int) (s : State) : State :=
  let near := decide (-1000 ≤ off) && decide (off ≤ 1000)
  let n := if near then min (s.time.inWindow + 1) 16 else 0
  let s := onTime (fun t => { t with inWindow := n }) s
  if s.time.st = .acquiring ∧ n = 16 then
    let first := !s.time.everLocked
    let s := onTime (fun t => { t with st := .locked, everLocked := true, portState := 9 }) s
    if first then calendarCheck s else s
  else if s.time.st = .locked ∧ n = 0 then onTime (fun t => { t with st := .acquiring, portState := 8 }) s
  else s

/-- TIME_FREQ summed over the time since it was last summed, while LOCKED (R536). -/
def driftAdds (s : State) : State :=
  onTime (fun t =>
    if t.st = .locked then
      { t with driftSum := t.driftSum + t.freq * ((s.mono - t.driftAt : Nat) : Int), driftNs := t.driftNs + (s.mono - t.driftAt), driftAt := s.mono }
    else { t with driftAt := s.mono }) s

/-- One offset measurement, master less own time, in ns (R315). The frequency the servo chooses is a free value within
±100 ppm. DESIGN CHOICE (assumption 150). DEDUCED (assumption 151). -/
def measure (off : Int) (s : State) : State :=
  let big := fun (x : Int) => decide (10000000 ≤ x.natAbs)
  let s := onTime (fun t => { t with offset := sat32 off }) (driftAdds s)
  let s :=
    if big off then
      match s.time.prevOffset with
      | some p =>
        if big p && decide ((p - off).natAbs ≤ 1000000) then
          onTime (fun t => { t with stepPending := some off, stepAt := nextMs s.mono }) s
        else s
      | none => s
    else
      let (f, s) := freed Config.freeInt s
      let f := clamp (-100000) 100000 f
      onTime (fun t => { t with freq := f, freqs := (f :: t.freqs).take 16 }) s
  lockStep off (onTime (fun t => { t with prevOffset := some off }) s)

/-- A Sync with its origin known: the offset is formed (R309, R311). -/
def syncOffset (origin : Nat) (corr : Int) (receipt : Nat) (s : State) : State :=
  let diff := (receipt : Int) - origin - corr
  measure (meanDelay s - diff) (onTime (fun t => { t with syncDiff := diff }) s)

/-- Whether a message of the selected master concerns the ordinary clock (R311). -/
def ptpTakes (s : State) (m : PtpSync) : Bool :=
  s.time.cfg.ptp && hasMaster s && m.domain == s.time.cfg.domain && m.port == ptpPort s && m.source == s.time.master

/-- A PTP message that arrives on P1 or P2 is a frame for this module (R303). -/
def ptpRx (port : Nat) (s : State) : State :=
  if !ringReceives s port then s
  else if port = 1 then onRing (fun r => { r with counts := { r.counts with p1Rx := satInc 32 r.counts.p1Rx } }) s
  else if port = 2 then onRing (fun r => { r with counts := { r.counts with p2Rx := satInc 32 r.counts.p2Rx } }) s
  else s

/-- A Sync (R311): a two-step one waits for its Follow_Up. -/
def ptpSync (m : PtpSync) (s : State) : State :=
  if ptpTakes s m then
    let s := onTime (fun t => { t with syncAt := s.mono }) s
    if m.twoStep then onTime (fun t => { t with syncWait := some (m.seq, receiptAt s m.port, m.corr) }) s
    else syncOffset m.origin m.corr (receiptAt s m.port) s
  else s

/-- PTP_SYNC (R309, R311, R315). -/
def execPtpSync (m : PtpSync) (s : State) : Out := answer (ptpSync m (ptpRx m.port s))

/-- A Follow_Up of a two-step master (R311). -/
def ptpFollowUp (m : PtpSync) (s : State) : State :=
  if ptpTakes s m then
    match s.time.syncWait with
    | some (q, receipt, corr) =>
      if q = m.seq then syncOffset m.origin (corr + m.corr) receipt (onTime (fun t => { t with syncWait := none }) s) else s
    | none => s
  else s

/-- PTP_FOLLOW_UP (R311). -/
def execPtpFollowUp (m : PtpSync) (s : State) : Out := answer (ptpFollowUp m (ptpRx m.port s))

/-- The UTC offset of a master (R313). -/
def takeUtc (m : PtpAnnounce) (s : State) : State :=
  onTime (fun t => { t with utcOffset := if m.utcValid then m.utcOffset else t.cfg.utcOffset, utcValid := m.utcValid }) s

/-- The BMCA leaves the module the grandmaster, where it is GM_CAPABLE: by an Announce that is not better, or by hearing none for the
announce receipt timeout (R309, R311, R313). DEDUCED (assumption 281). -/
def beGrandmaster (s : State) : State :=
  if s.time.cfg.gmCapable then
    onTime (fun t =>
      { t with st := .grandmaster, portState := 6, master := Config.clockIdentity, inWindow := 0, prevOffset := none, syncWait := none,
               stepPending := none, utcOffset := t.cfg.utcOffset, utcValid := false }) s
  else s

/-- An Announce with the decision of the BMCA (R309, R311, R313). A grandmaster that the BMCA makes passive is none any more: it holds its
time over, or runs free. DESIGN CHOICE (assumption 239). -/
def ptpAnnounce (m : PtpAnnounce) (s : State) : State :=
  if !s.time.cfg.ptp || m.domain != s.time.cfg.domain || m.port != ptpPort s then s
  else
    match m.decision with
    | .follow =>
      let s := onTime (fun t => { t with announceAt := s.mono }) s
      if hasMaster s && m.master == s.time.master then takeUtc m s
      else
        let changed := s.time.master != 0 && s.time.master != m.master
        let s := takeUtc m (onTime (fun t =>
          { t with st := .acquiring, portState := 8, master := m.master, inWindow := 0, prevOffset := none, syncWait := none,
                   stepPending := none, expired := false, syncAt := s.mono }) s)
        if changed then
          raise .ptpMasterChanged .notice 0xFF 0 0 0 (onTime (fun t => { t with flags := flag 2 t.flags }) s)
        else s
    | .master => beGrandmaster s
    | .passive =>
      let s := onTime (fun t => { t with announceAt := s.mono }) s
      if hasMaster s then s
      else if s.time.st = .grandmaster then
        onTime (fun t => { t with st := if t.everLocked then .holdover else .freeRun, portState := 7, holdSince := s.mono, expired := false }) s
      else onTime (fun t => { t with portState := 7 }) s

/-- PTP_ANNOUNCE (R309, R313). -/
def execPtpAnnounce (m : PtpAnnounce) (s : State) : Out := answer (ptpAnnounce m (ptpRx m.port s))

/-- A delay response (R311, R314): the mean path delay, E2E, or the mean link delay of the port it came in on, P2P. -/
def ptpDelayResp (m : PtpDelay) (s : State) : State :=
  if s.time.cfg.ptp && m.domain == s.time.cfg.domain then
    let sent : Int := sendingAt s m.port s.time.reqAt
    if s.time.cfg.p2p then
      let d := (Int.tdiv ((receiptAt s m.port : Int) - sent - m.time - m.corr) 2).toNat
      onTime (fun t => match m.port with
        | 1 => { t with linkDelay1 := d }
        | 2 => { t with linkDelay2 := d }
        | _ => { t with pathDelay := d }) s
    else if m.port = ptpPort s then
      onTime (fun t => { t with pathDelay := (Int.tdiv (s.time.syncDiff + ((m.time : Int) - sent - m.corr)) 2).toNat }) s
    else s
  else s

/-- PTP_DELAY_RESP (R311). -/
def execPtpDelayResp (m : PtpDelay) (s : State) : Out := answer (ptpDelayResp m (ptpRx m.port s))

/-- A ring port answers a Pdelay_Req, and so does P4 for an ordinary clock that runs there in P2P (R311, R314). -/
def ptpPdelayReq (port seq : Nat) (s : State) : State :=
  if port = 4 then
    if s.time.cfg.port4 && s.time.cfg.p2p then ptpSend .ptpPdelayResp seq (ptpTimestamp (receiptAt s port)) s ptpPeerDest else s
  else if ringPortUp s port then
    onRing (fun r => { r with hsrSeq := r.hsrSeq + 1 })
      (sendFrame .ptpPdelayResp port seq { ports := [port], dest := ptpPeerDest, hsr := some s.ring.hsrSeq.toNat, typ := ptpType }
        (ptpTimestamp (receiptAt s port)) s)
  else s

/-- PTP_PDELAY_REQ (R314). -/
def execPtpPdelayReq (port seq : Nat) (s : State) : Out := answer (ptpPdelayReq port seq (ptpRx port s))

/-- The grandmaster sends Sync and Follow_Up (R311). -/
def ptpSyncSend (s : State) : State :=
  if s.time.st = .grandmaster then
    onTime (fun t => { t with ptpSeq := (t.ptpSeq + 1) % 65536 })
      (ptpSend .ptpFollowUp s.time.ptpSeq (ptpTimestamp (sendingAt s (ptpPort s) s.time.ns)) (ptpSend .ptpSync s.time.ptpSeq (ptpInterval s.time.cfg.logSync) s))
  else s

/-- PTP_SYNC_SEND (R311, R313). -/
def execPtpSyncSend (s : State) : Out := answer (ptpSyncSend s)

/-- The grandmaster sends Announce (R313): UTC_OFFSET with currentUtcOffsetValid FALSE, timeSource 0xA0 and CLOCK_CLASS. -/
def ptpAnnounceSend (s : State) : State :=
  if s.time.st = .grandmaster then
    ptpSend .ptpAnnounce s.time.ptpSeq
      (beBytes 2 (lowBits 16 s.time.cfg.utcOffset) ++ [0, 0xA0] ++ leBytes 1 s.time.cfg.clockClass
        ++ leBytes 1 s.time.cfg.priority1 ++ leBytes 1 s.time.cfg.priority2 ++ ptpInterval s.time.cfg.logAnnounce) s
  else s

/-- PTP_ANNOUNCE_SEND (R313). -/
def execPtpAnnounceSend (s : State) : Out := answer (ptpAnnounceSend s)

/-- Each ring port measures its link delay in P2P, also where the ordinary clock runs on P4 (R314). -/
def ringPdelayReq (s : State) : State := if s.time.cfg.port4 then ringSend .ptpPdelayReq 1 0 ptpPeerDest [] s ptpType else s

/-- The clock sends its delay request: Delay_Req to a selected master, or in P2P a Pdelay_Req on each ring port and on its own (R311,
R314). -/
def ptpDelayReqSend (s : State) : State :=
  let mark := onTime (fun t => { t with reqAt := s.time.ns })
  if s.time.cfg.p2p then mark (ptpSend .ptpPdelayReq 0 [] (ringPdelayReq s) ptpPeerDest)
  else if hasMaster s then mark (ptpSend .ptpDelayReq 0 (ptpTimestamp s.time.ns) s) else s

/-- PTP_DELAY_REQ_SEND (R311). -/
def execPtpDelayReqSend (s : State) : Out := answer (if s.time.cfg.ptp then ptpDelayReqSend s else s)

/-- The grandmaster answers a Delay_Req with its receipt time (R311). -/
def ptpDelayReq (port domain seq : Nat) (s : State) : State :=
  if s.time.st = .grandmaster ∧ !s.time.cfg.p2p ∧ domain = s.time.cfg.domain ∧ port = ptpPort s then
    ptpSend .ptpDelayResp seq (ptpTimestamp (receiptAt s port) ++ ptpInterval s.time.cfg.logDelay) s
  else s

/-- PTP_DELAY_REQ (R311). -/
def execPtpDelayReq (port domain seq : Nat) (s : State) : Out := answer (ptpDelayReq port domain seq (ptpRx port s))

/-- The frequency held over: the average over the last 16 Sync intervals (R310). -/
def heldFreq (t : Time) : Int := if t.freqs.isEmpty then t.freq else divEven t.freqs.sum t.freqs.length

/-- The master is lost (R309, R310, R315). -/
def ptpMasterLost (s : State) : State :=
  if hasMaster s then
    raise .ptpMasterLost .fault 0xFF 0 0 0 (onTime (fun t =>
      { t with
        st := if t.everLocked then .holdover else .freeRun
        portState := 4, freq := heldFreq t, stepPending := none, prevOffset := none, inWindow := 0, syncWait := none
        holdSince := s.mono, expired := false, flags := flag 1 t.flags }) s)
  else s

/-- 4 Sync intervals of the TIME section, in ns; LOG_SYNC is −4 to 1 (R309, R321). -/
def syncPatience (c : TimeCfg) : Nat := nsPerSec * 2 ^ (c.logSync + 4).toNat / 4

/-- The announce receipt timeout of the TIME section, in ns. -/
def announcePatience (c : TimeCfg) : Nat := nsPerSec * c.announceTimeout * 2 ^ c.logAnnounce

/-- Whether the announce receipt timeout has passed with PTP on (R309). -/
def announceLate (s : State) : Bool := s.time.cfg.ptp && decide (s.time.announceAt + announcePatience s.time.cfg ≤ s.mono)

/-- What 4 Sync intervals without a Sync or the announce receipt timeout do (R309): the master is lost, and a clock that may be grandmaster and
hears no Announce becomes it. -/
def ptpSilent (s : State) : State :=
  let late := announceLate s
  let s := if late || decide (s.time.syncAt + syncPatience s.time.cfg ≤ s.mono) then ptpMasterLost s else s
  if late && s.time.st != .grandmaster then beGrandmaster s else s

/-- PTP_MASTER_LOST (R309): no valid Sync for 4 Sync intervals, or the announce receipt timeout. -/
def execPtpMasterLost (s : State) : Out := answer (ptpSilent s)

/-- HOLDOVER_EXPIRY (R309): 10 s of HOLDOVER. -/
def execHoldoverExpiry (s : State) : Out :=
  answer (if s.time.st = .holdover ∧ s.time.holdSince + 10 * nsPerSec ≤ s.mono then onTime (fun t => { t with expired := true }) s else s)

/-! ### Timed pulses (R317, R318) -/

def pulseAt (s : State) (n : Nat) : Pulse := s.time.pulses.getD n {}

def onPulse (n : Nat) (f : Pulse → Pulse) (s : State) : State :=
  onTime (fun t => { t with pulses := t.pulses.modify n f }) s

/-- An instant that fires no pulse (R318). -/
def pulseMissed (n k : Nat) (s : State) : State :=
  if k = 0 then s
  else onTime (fun t => { t with flags := flag 5 t.flags }) (onPulse n (fun p => { p with missed := satAdd 8 p.missed k }) s)

/-- Whether channel TP_n can pulse: its group is not LOST or QUALIFYING, and no channel fault (R318). -/
def pulseMay (s : State) (n : Nat) : Bool := !(fieldGroup s 3).st.dead && (dioCh s (28 + n)).ostate == .normal

/-- The channel switches on for WIDTH, which runs on whatever network time does (R317, R318); it ends a return under R74. -/
def pulseOn (n : Nat) (s : State) : State :=
  onDioCh (28 + n) (fun c => { c with pulse := true, latchedOff := c.latchedOff && (fieldGroup s 3).st.off })
    (onPulse n (fun p => { p with out := true, offAt := s.mono + p.force.width * 1000, fired := satInc 16 p.fired }) s)

/-- The series goes on after an instant that did or did not fire: PERIODIC with the next, ONE_SHOT with none. -/
def Pulse.after (p : Pulse) (i : Nat) (fires : Bool) : Pulse :=
  if p.force.mode = 2 then { p with next := some (i + p.force.period) } else { p with next := none, done := true, missedShot := !fires }

/-- An instant is reached (R318). -/
def pulseInstant (n : Nat) (s : State) : State :=
  match (pulseAt s n).next with
  | none => s
  | some i =>
    if s.time.ns < i * 1000 then s
    else if !pulsesRun s then onPulse n (fun p => { p with next := none }) s
    else
      let fires := pulseMay s n
      let s := if fires then pulseOn n s else pulseMissed n 1 s
      onPulse n (fun p => p.after i fires) s

/-- PULSE_INSTANT (R317, R318). -/
def execPulseInstant (n : Nat) (s : State) : Out := answer (settle s (pulseInstant n s))

/-- PULSE_END (R317): WIDTH has passed. -/
def execPulseEnd (n : Nat) (s : State) : Out :=
  answer (if s.mono < (pulseAt s n).offAt then s
  else settle s (onDioCh (28 + n) (fun c => { c with pulse := false }) (onPulse n (fun p => { p with out := false }) s)))

/-- One pulse at once, flagged LATE (R318). -/
def pulseLate (n : Nat) (s : State) : State :=
  if pulseMay s n then
    let s := pulseOn n s
    let rec_ := longAgo (pulseAt s n).lateRecAt (60 * nsPerSec) s.mono
    let s := onPulse n (fun p => { p with late := satInc 8 p.late, lateRecAt := if rec_ then some s.mono else p.lateRecAt }) s
    let s := onTime (fun t => { t with late := satInc 32 t.late, flags := flag 3 t.flags }) s
    if rec_ then raise .pulseLate .notice n 0 0 0 s else s
  else pulseMissed n 1 s

/-- Instants of a series before an instant in ns are passed over: one pulse late, the others missed, and the series goes on
with the first at or after it (R318). -/
def pulsePass (n nowNs : Nat) (s : State) : State :=
  let p := pulseAt s n
  match p.next with
  | none => s
  | some i =>
    if nowNs ≤ i * 1000 then s
    else if p.force.mode = 2 then
      let per := max p.force.period 1
      let k := (nowNs - i * 1000 + per * 1000 - 1) / (per * 1000)
      onPulse n (fun p => { p with next := some (i + k * per) }) (pulseMissed n (k - 1) (pulseLate n s))
    else onPulse n (fun p => { p with next := none, done := true, missedShot := !pulseMay s n }) (pulseLate n s)

/-- After a backward step a PERIODIC series takes its first instant at or after the new time, and a ONE_SHOT that has not fired reaches its
instant again (R318). -/
def pulseBack (n nowNs : Nat) (s : State) : State :=
  onPulse n (fun p =>
    if p.force.mode = 2 ∧ p.next.isSome then
      let at_ := p.force.atSec * 1000000 + p.force.atUs
      let per := max p.force.period 1
      { p with next := some (if nowNs ≤ at_ * 1000 then at_ else at_ + (nowNs - at_ * 1000 + per * 1000 - 1) / (per * 1000) * per) }
    else if p.force.mode = 1 ∧ p.done ∧ p.missedShot ∧ nowNs ≤ (p.force.atSec * 1000000 + p.force.atUs) * 1000 then
      { p with next := some (p.force.atSec * 1000000 + p.force.atUs), done := false, missedShot := false }
    else p) s

/-- Every channel. -/
def allPulses (f : Nat → State → State) (s : State) : State := forAll [0, 1, 2, 3] f s

/-- The instants that a new set of a channel keeps (R317, R325). -/
def pulseSetOk (s : State) (n : Nat) (x : PulseSet) : Bool :=
  (dioCh s (28 + n)).mode == .timedPulse &&
    (x.mode == 0 || x.mode == 3 ||
      (decide (x.atUs ≤ 999999) && decide (1 ≤ x.width) && decide (x.width ≤ 1000000)
        && (x.mode == 1 || (decide (3 ≤ x.period) && decide (x.width + 2 ≤ x.period)))))

/-- Whether a channel's series was discarded before its end (R318). -/
def Pulse.discarded (p : Pulse) : Bool := p.next.isNone && !p.done && (p.force.mode == 1 || p.force.mode == 2)

/-- A channel takes its copied set (R318, R323): one equal to the set in force leaves its series as it runs, unless it was discarded.
DEDUCED (assumption 152). -/
def pulseTake (n : Nat) (s : State) : State :=
  let p := pulseAt s n
  let x := p.copied
  if !pulseSetOk s n x then onTime (fun t => { t with flags := flag 6 t.flags }) s
  else if x = p.force ∧ !p.discarded then s
  else
    let on := x.mode = 1 ∨ x.mode = 2
    let s := onPulse n (fun p =>
      { p with force := x, done := false, missedShot := false, next := if on then some (x.atSec * 1000000 + x.atUs) else none }) s
    if pulsesRun s then pulsePass n s.time.ns s else onPulse n (fun p => { p with next := none }) s

/-- The boundary of TIME_COMMIT (R323). -/
def timeBoundary (s : State) : State :=
  if s.time.commit.pending then
    allPulses pulseTake (onTime (fun t => { t with commit := { t.commit with pending := false } }) s)
  else s

/-! ### Timed launches (R319) -/

/-- Whether the module sends OUTPUT frames (R299). -/
def outputsGo (s : State) : Bool :=
  takesCommands s && railsOn s && (s.sys.mode == .run || s.sys.mode == .hold || s.sys.mode == .stop)

/-- The waiting outputs of a task leave; a late one is flagged and counted. -/
def timedLaunch (task : Nat) (late : Bool) (s : State) : State :=
  let s := onTime (fun t => { t with launches := del task t.launches }) s
  forAll (s.ring.stations.filter fun x => x.task == task) (fun x t =>
    match x.waiting with
    | none => t
    | some (safe, data, cycle) =>
      let t := onStation x.num (fun x => { x with waiting := none }) t
      let t := if late then onTime (fun y => { y with late := satInc 32 y.late, flags := flag 4 y.flags }) t else t
      if x.st = .live ∧ outputsGo t then sendOutput safe data cycle t.mono x t else t) s

/-- TIMED_LAUNCH (R319): the instant of the task's waiting frames is reached; `late` says that they were not ready at it. -/
def execTimedLaunch (task : Nat) (late : Bool) (s : State) : Out :=
  answer (if (look task s.time.launches).any fun t => decide (t ≤ s.time.ns) then timedLaunch task late s else s)

/-! ### A step (R315, R318, R319) -/

/-- A pending step is applied whole. -/
def timeStep (s : State) : State :=
  match s.time.stepPending with
  | none => s
  | some d =>
    let old := s.time.ns
    let new := ((old : Int) + d).toNat
    let s := onTime (fun t =>
      { t with ns := new, stepPending := none, prevOffset := none, steps := satInc 32 t.steps, flags := flag 0 t.flags }) s
    let s := raise .timeStepped .notice 0xFF (signed32 (Int.tdiv d 1000)) s.time.st.code 0 s
    let s := allPulses (fun n t => if old < new then pulsePass n new t else pulseBack n new t) s
    forAll s.time.launches (fun l t => if old < l.2 ∧ l.2 < new then timedLaunch l.1 true t else t) s

/-- Whether T0 has release instants: it runs, in RUN, STOP or HOLD (R125, R297). -/
def t0Runs (s : State) : Bool := taskRuns s 0 && (s.sys.mode == .run || s.sys.mode == .stop || s.sys.mode == .hold)

/-- TIME_STEP (R315): the next whole millisecond where T0 has no release instants; its next release instant makes the step else. -/
def execTimeStep (s : State) : Out :=
  answer (if !t0Runs s && decide (s.time.stepAt ≤ s.mono) then settle s (timeStep s) else s)

/-! ### TIME entries (R316) -/

/-- The value of a TIME item. -/
def timeItem (s : State) (item : Nat) : Datum :=
  match item with
  | 0 => BitVec.ofNat 64 s.time.ns
  | 1 => BitVec.ofInt 64 s.time.offset
  | 2 => BitVec.ofNat 64 s.time.st.code
  | _ => BitVec.ofInt 64 s.time.utcOffset

/-- The TIME entries paced by a task are written at its release instant (R316). -/
def writeTimeEntries (task : Nat) (s : State) : State :=
  updateWhere (fun e => e.kind == 9 && e.pace == some task) (fun e => some (timeItem s (field e.ref 0 4), timeQuality s)) s

/-! ### Reads and drift -/

/-- A read of TIME_NOW_NS (R322): the nanoseconds, with the seconds latched. -/
def readTimeNow (r : Reader) (s : State) : Word × State :=
  (BitVec.ofNat 32 (s.time.ns % nsPerSec), onTime (fun t => match r with
    | .sdk => { t with secSdk := t.ns / nsPerSec }
    | .plant => { t with secPlant := t.ns / nsPerSec }) s)

/-- TIME_NOW_READ (R322). -/
def execTimeNowRead (r : Reader) (s : State) : Out := answer (readTimeNow r s).2

/-- The hour of the monotonic base (R536). -/
def monoHour (s : State) : Nat := s.mono / (3600 * nsPerSec)

/-- An hourly average of TIME_FREQ, in 0.001 ppm, is judged (R536). -/
def driftJudged (avg : Int) (s : State) : State :=
    let s := if 20000 < avg.natAbs ∧ !s.time.driftNotice then
        raise .refDrift .notice 0xFF (signed32 avg) 0 0 (onTime (fun t => { t with driftNotice := true }) s)
      else s
    if 25000 < avg.natAbs ∧ !s.time.driftFault then
      raise .refDrift .fault 0xFF (signed32 avg) 0 0 (onTime (fun t => { t with driftFault := true }) s)
    else s

/-- The average over the hour that has ended, of the time in it that was LOCKED (R536). DEDUCED (assumption 251). -/
def refDrift (s : State) : State :=
  if s.time.driftHour < monoHour s then
    let s := driftAdds s
    let t := s.time
    let s := onTime (fun t => { t with driftSum := 0, driftNs := 0, driftHour := monoHour s }) s
    if t.driftNs = 0 then s else driftJudged (divEven t.driftSum t.driftNs) s
  else s

/-- REF_DRIFT (R536). -/
def execRefDrift (s : State) : Out := answer (refDrift s)

end Sys2Proof.Machine
end

