-- ==== Sys2Proof/Machine/Load.lean ====
section
/-! DEFINITION. Every block takes its configuration from a checked set (04_memory.md R95 to R98, R115; 05_program_cycle.md R128, R134,
R153; 07_signal_table.md R193; 08_compensator_engine.md R215, R220; 09_pair_and_takeover.md R228; 10_hoist_codec.md R262 to R264;
11_ring_and_stations.md R283; 12_network_time.md R308, R321; 13_can_ports.md R331, R332; 14_digital_channels.md R362;
15_analogue_channels.md R407; 16_safety.md R420, R434; 17_calendar_clock.md R454; 18_event_recorder.md R470;
19_plant_port_and_access.md R475, R496, R497; 20_status_panel.md R513). -/

namespace Sys2Proof.Machine

/-! ### Program and signals -/

/-- Bytes laid into banks one after the other; a zero byte is as memory reads where nothing is listed. -/
def bankCells : List Nat → List Byte → List Host.Cell
  | [], _ => []
  | b :: r, l =>
    ((l.take bankBytes).mapIdx fun i v => (b * bankBytes + i, v)).filter (fun c => c.2 != 0) ++ bankCells r (l.drop bankBytes)

/-- ESCALATE of the eight tasks, of a disabled one too, though it has no effect (R124). DESIGN CHOICE (assumption 273). -/
def KeySet.escalates (k : KeySet) : List Nat := k.tasks.map (·.escalate)

/-- The program runtime of the set; the halt cause, the last start result and the mode request are not the set's.
DEDUCED (assumption 35). -/
def KeySet.loadCyc (k : KeySet) (c : Cyc) : Cyc :=
  { c with
    tasks := k.tasks, imageId := fld k.code 8 8, codeLen := fld k.code 28 4, dataLen := fld k.instSec 8 4
    types := k.types, natives := k.natives, instances := k.instances, escShadow := k.escalates, escCopied := k.escalates }

/-- The signal table of the set, by ascending index. -/
def KeySet.loadSig (k : KeySet) (x : Sig) : Sig :=
  { x with entries := k.entries.foldl (fun t p => put p.1 p.2 t) [], sinks := k.sinks }

/-- The online-change registers that the header gives (R178). -/
def KeySet.loadOlc (k : KeySet) (o : Olc) : Olc :=
  let n := k.header.startSet
  { o with gen := k.header.gen n, set := n, digest := leNat (k.header.digest n) }

/-! ### The engine and the hoist -/

/-- The cost of a loop in core clocks (R214). -/
def Loop.cost (l : Loop) : Nat := 14 + (l.types.map fun t => if t then 9 else 7).sum

/-- W in 0.01 %, rounded down (R215). -/
def worstLoad (l : List (Nat × Loop)) : Nat :=
  ((l.filter fun p => p.2.enabled).map fun p => p.2.cost * 25 * (10000 / groupUs.getD p.2.group 10000)).sum / 10000

/-- The engine of the set. -/
def KeySet.loadEng (k : KeySet) (e : Engine) : Engine :=
  let l := k.loops.foldl (fun t p => put p.1 p.2 t) []
  { e with loops := l, worst := worstLoad l }

/-- The hoist of the set (R262 to R264). -/
def KeySet.loadHoist (k : KeySet) (h : Hoist) : Hoist :=
  { h with
    mirror := k.mirror, ranges := k.ranges, qbytes := k.qbytes, refreshBytes := k.refreshBytes, pacing := k.pacing
    allowance := k.allowance }

/-! ### The pair, the ring and time -/

/-- A pair side's or a Jack's part of the STATION section; a Jack keeps the records of pairs it served before (R239, R240). -/
def KeySet.loadPair (k : KeySet) (p : Pair) : Pair :=
  { p with
    side := if k.header.kind = 1 ∨ k.header.kind = 2 then k.header.kind else 0
    sbcSeries := bitAt k.station 5 0, jackRing := bitAt k.station 6 0, jackP4 := bitAt k.station 6 1
    jackMac := beNat (slice k.station 8 6)
    jack := k.served.map fun id =>
      { ((p.jack.find? fun r => r.pairId == id).getD { pairId := id }) with
        granted := none, busy := false, grants := 0, seenA := false, seenB := false } }

/-- The ring of the set (R283). -/
def KeySet.loadRing (k : KeySet) (r : Ring) : Ring :=
  let lead := fld k.ringSec 6 2
  { r with runs := k.ringRuns, inputLead := if lead = 0 then 100 else lead, stations := k.stations, load := k.load }

/-- Network time at a start: the calendar as UTC plus the offset (R308, R313). -/
def timeFromCalendar (s : State) (offset : Int) : Nat :=
  (((s.rtc.now.seconds : Int) + 946684800 + offset) * nsPerSec).toNat + rtcSub s * nsPerSec / 32768

/-- Network time and PTP of the set. -/
def KeySet.loadTime (k : KeySet) (s : State) : Time :=
  let c := k.timeCfg
  { s.time with
    cfg := c, st := if c.ptp then .freeRun else .disabled, portState := if c.ptp then 4 else 0, announceAt := s.mono, utcOffset := c.utcOffset, ns := timeFromCalendar s c.utcOffset }

/-! ### The field -/

/-- Digital channel `n` as the set configures it. A stage keeps its last command, its switch-on count and the release by a demand whose
function the set still links (R71, R376, R377). -/
def KeySet.loadDioCh (k : KeySet) (n : Nat) (c : DioCh) : DioCh :=
  let r := k.dioRec n
  let l0 := bitAt r 3 0
  let l1 := bitAt r 3 1
  { c with
    mode := k.dioMode n, policy := dioPolicyOf (fld r 2 1), link0 := l0, link1 := l1, debounce := fld r 4 2
    relDemand0 := c.relDemand0 && l0 && k.funcOn 0, relDemand1 := c.relDemand1 && l1 && k.funcOn 1 }

/-- The digital channels of the set (R362). -/
def KeySet.loadDio (k : KeySet) (d : Dio) : Dio :=
  { d with
    ch := d.ch.mapIdx k.loadDioCh
    groups := d.groups.mapIdx fun g x =>
      { x with refreshMs := match k.sec 0x0E g with
          | none => 50
          | some l => fld l 6 2 } }

/-- An analogue channel as the set configures it, with its diagnostics kept. -/
def KeySet.loadAnaCh (k : KeySet) (n : Nat) (c : AnaCh) : AnaCh :=
  { readAnaCh (k.anaRec n) with diag := c.diag, silentRec := c.silentRec }

/-- An analogue group of the set. -/
def KeySet.loadAnaGroup (k : KeySet) (g : Nat) (x : AnaGroup) : AnaGroup :=
  match k.sec 0x0F g with
  | none => x
  | some l => { x with cjcSource := fld l 5 1, cjcFixed := signedOf 16 (fld l 6 2), refreshMs := fld l 8 2 }

/-- The analogue channels of the set and their HART devices (R407). -/
def KeySet.loadAna (k : KeySet) (a : Ana) : Ana :=
  { a with ch := a.ch.mapIdx k.loadAnaCh, groups := a.groups.mapIdx k.loadAnaGroup, devs := k.hartDevs }

/-! ### Safety -/

/-- A brake function of the set at its start: DEMAND, or FAULT where a failed test stands (R420). SAFE_TESTf stays as it was. -/
def KeySet.loadFunc (k : KeySet) (n : Nat) (f : SafeFunc) : SafeFunc :=
  let r := k.funcRec n
  let kept : SafeFunc := { last := f.last, due := f.due, failStands := f.failStands, hours := f.hours, hourSecs := f.hourSecs }
  if k.funcOn n then
    { kept with
      enabled := true, pairs := fld r 2 1, resetSi := fld r 3 1, reqEntry := fld r 4 2, releaseMs := fld r 6 2, holdPct := fld r 8 1
      minMa := fld r 10 2, intervalH := fld r 12 2, timeoutS := fld r 14 2
      st := if f.failStands then .fault else .demand, supSt := if f.failStands then .fault else .demand, btFailed := f.failStands }
  else kept

/-- CRC of a directory entry. -/
def KeySet.dirCrc (k : KeySet) (t : Nat) : Nat := ((k.dir.find? fun e => e.typ == t).map (·.crc)).getD 0

/-- The safety function of the set (R434); absent, every function is disabled and the test pulses are off. -/
def KeySet.loadSafe (k : KeySet) (x : Safe) : Safe :=
  match k.sec 0x10 0 with
  | none => x
  | some l =>
    { x with
      present := true, crc := BitVec.ofNat 32 (k.dirCrc 0x10), tpEn0 := bitAt l 4 0, tpEn1 := bitAt l 4 1, tpPeriod := fld l 6 2
      tpWidth := fld l 8 2, pairs := (List.range 4).map fun n => readPair (k.pairRec n), funcs := x.funcs.mapIdx k.loadFunc }

/-! ### Calendar, recorder, plant and panel -/

/-- The alarms and the filter of the set (R454); without them those in the backup domain stay. The shadows follow the set in force
(R456). -/
def KeySet.loadRtc (k : KeySet) (r : Rtc) : Rtc :=
  let r := match k.sec 0x12 0 with
    | none => r
    | some l =>
      { r with filter := fld l 5 1, alarms := if bitAt l 4 0 then [calAlarm l 0, calAlarm l 1] else r.alarms }
  { r with shadow := { time := r.now, weekday := r.weekday, alarms := r.alarms, filter := r.filter } }

/-- The user settings of the recorder (R470). -/
def KeySet.loadLog (k : KeySet) (x : Log) : Log :=
  match k.sec 0x13 0 with
  | none => { x with userEnable := true, userMaxSev := 1 }
  | some l => { x with userEnable := bitAt l 4 0, userMaxSev := fld l 5 1 }

/-- The plant service of the set; its address is kept in MRAM (R475, R496). -/
def KeySet.loadPlant (k : KeySet) (p : Plant) : Plant :=
  let l := k.secSec
  { p with
    enabled := bitAt l 4 0, vid := fld l 6 2, anchors := k.anchors, windows := fld l 16 4, ipv4 := beNat (slice l 20 4)
    netmask := beNat (slice l 24 4), gateway := beNat (slice l 28 4) }

/-- The slot of the signer store that holds the key's signer (R499). -/
def signerSlotOf (x : Sec) (id : Nat) : Nat :=
  ((List.range 16).find? fun i => (x.signers.getD i {}).st != .empty && (x.signers.getD i {}).id == id).getD 0x1F

/-- The tamper responses of the set, kept in the backup domain (R487). -/
def KeySet.loadSec (k : KeySet) (x : Sec) : Sec :=
  { x with responses := k.responses, everKey := true, signerSlot := signerSlotOf x k.header.signer }

/-- The panel of the set (R513). -/
def KeySet.loadPanel (k : KeySet) (p : Panel) : Panel :=
  match k.sec 0x16 0 with
  | none => { p with enabled := true, includeFault := false, minInterval := 10, location := [] }
  | some l => { p with enabled := bitAt l 4 0, includeFault := bitAt l 4 1, minInterval := fld l 5 1, location := slice l 16 32 }

/-- The POWER section, in the shadows and in force (R87). -/
def KeySet.loadPwr (k : KeySet) (p : Pwr) : Pwr :=
  let x := Config.powerOf (k.bytes 0x11 0)
  { p with harbourEnabled := x.harbour, force := x.set, shadow := x.set, copied := x.set }

/-! ### Memory -/

/-- The initial data image (R133). -/
def KeySet.dataImage (k : KeySet) : List Byte := slice k.instSec k.dataAt (fld k.instSec 8 4)

/-- The banks take their owners, uses and grants; B16 has those of the bank it replaces, or owner 7 (R95, R96, R111). Code lies in the
code banks from the lowest, and the data image in the data banks (R132, R134). -/
def KeySet.loadMem (k : KeySet) (m : Mem) : Mem :=
  let cfg := fun n b =>
    let src := if n = 16 then m.folded.map k.bank else some (k.bank n)
    match src with
    | none => { b with owner := Owner.test, use := .general, grants := [] }
    | some c => { b with owner := c.owner, use := c.use, grants := c.grants }
  { m with banks := m.banks.mapIdx cfg, cells := layBytes (k.banksFor .data) 0 k.dataImage (bankCells (k.banksFor .code) k.codeBytes) }

/-- The ports the set uses: the ring on P1 and P2, the pair link on P3, and P4 with the plant service, the Jack path or PTP (R47, R283,
R475). -/
def KeySet.usedPorts (k : KeySet) : List Bool :=
  [k.ringRuns, k.ringRuns, k.header.kind == 1 || k.header.kind == 2,
   bitAt k.secSec 4 0 || bitAt k.station 6 1 || (k.timeCfg.ptp && k.timeCfg.port4)]

/-! ### The whole set -/

/-- Every block takes its part of a set that has passed its checks. -/
def KeySet.apply (k : KeySet) (s : State) : State :=
  { s with
    start := { s.start with header := some k.header, dir := k.dir, secs := k.secs, accepted := true }
    sys := { s.sys with ports := k.usedPorts }
    mem := k.loadMem s.mem
    cyc := k.loadCyc s.cyc, sig := k.loadSig s.sig, olc := k.loadOlc s.olc
    eng := k.loadEng s.eng, hoist := k.loadHoist s.hoist
    pair := k.loadPair s.pair, ring := k.loadRing s.ring, time := k.loadTime s
    can := [1, 2, 3, 4].map k.canPort, que := { s.que with queues := k.queues }
    dio := k.loadDio s.dio, ana := k.loadAna s.ana, safe := k.loadSafe s.safe
    rtc := k.loadRtc s.rtc, log := k.loadLog s.log, sec := k.loadSec s.sec, plant := k.loadPlant s.plant
    ser := { s.ser with lines := [k.serLine 1, k.serLine 2] }
    panel := k.loadPanel s.panel, pwr := k.loadPwr s.pwr }

/-- HOIST_OVER_ALLOWANCE of a set whose worst-case hoist is larger than the allowance of its shortest mirrored task (R51). -/
def KeySet.tellAllowance (k : KeySet) (s : State) : State :=
  if k.pacing ≠ 0xFF ∧ 60000 * k.period k.pacing < k.worstHoist then raise .hoistOverAllowance .notice 0xFF k.worstHoist 0 0 s
  else s

end Sys2Proof.Machine
end

