-- ==== Sys2Proof/Machine/Pair.lean ====
section
/-! DEFINITION. The pair: pennants, the Jack on both ends, takeover and hand-over (09_pair_and_takeover.md R226 to R260;
02_burgee_and_start.md R57). -/

namespace Sys2Proof.Machine

/-! ### Pennants (R231 to R234) -/

/-- Whether the side runs the pair link: in RUN or STOP with a key and a pair role. -/
def pairRuns (s : State) : Bool :=
  isPairSide s && (s.sys.mode == .run || s.sys.mode == .stop) && !s.cyc.configError && s.pair.st != .none

/-- The pennant's command as it leaves now: the active's command in progress, or a standby's request for a mode (R138). -/
def pennantSend (s : State) : State :=
  if pairRuns s then
    match s.pair.cmd with
    | some c =>
      if c.void then sendPennant 0 0 s.pair.cmdSeq 0 0 s else sendPennant c.kind c.arg c.seq c.due c.newEpoch s
    | none => match s.cyc.pendingReq with
      | some r => if r.byPair && s.sys.role == .standby then sendPennant 1 (r.code % 256) s.pair.cmdSeq 0 0 s
                  else sendPennant 0 0 s.pair.cmdSeq 0 0 s
      | none => sendPennant 0 0 s.pair.cmdSeq 0 0 s
  else s

/-- PENNANT_SEND (R232): every 500 µs in RUN or STOP. -/
def execPennantSend (s : State) : Out := answer (pennantSend s)

/-- The bytes of a pennant read. -/
def readPennant (l : List Byte) : Pennant :=
  { pairId := fld l 4 8, side := fld l 12 1, role := fld l 13 1, mode := fld l 14 1, flags := fld l 15 1, seq := fld l 16 8
    epoch := fld l 24 4, gen := fld l 28 2, set := fld l 30 1, level := fld l 31 1, digest := fld l 32 32
    mono := fld l 64 8, nextT0 := fld l 72 8, command := fld l 80 1, arg := fld l 81 1, cmdSeq := fld l 82 2
    cmdAt := fld l 84 8, newEpoch := fld l 92 4, lastHoist := fld l 96 8 }

/-- A pennant is discarded and counted (R255). -/
def pennantBad (s : State) : State := onPair (fun p => { p with bad := satInc 32 p.bad }) s

/-- A pennant of another pair (R233): recorded once in a start. -/
def pennantForeign (s : State) : State :=
  let s := pennantBad (onPair (fun p => { p with flags := flag 8 p.flags }) s)
  if s.pair.foreign then s
  else raise .pairForeign .fault 0xFF 0 0 0 (onPair (fun p => { p with foreign := true }) s)

/-- A pennant of the receiver's own side (R233): recorded once in a start. -/
def pennantClash (s : State) : State :=
  let s := pennantBad (onPair (fun p => { p with flags := flag 7 p.flags }) s)
  if s.pair.clash then s
  else raise .pairSideClash .fault 0xFF 0 0 0 (onPair (fun p => { p with clash := true }) s)

/-- A difference of release instants brought within half a period. -/
def withinHalf (period : Nat) (d : Int) : Int :=
  let p : Int := max period 1
  let r := d % p
  if p < 2 * r then r - p else r

/-- A standby's release epoch moves by some ns. -/
def shiftEpoch (d : Int) (s : State) : State :=
  onCyc (fun c => { c with epoch := c.epoch.map (· + d) }) s

/-- The active's release epoch by one of its pennants (R125, R248): it tells the active's next T0 release instant but not how many there were
since its epoch, which is a free value. DESIGN CHOICE (assumption 241). -/
def epochTold (p : Pennant) (s : State) : Int × State :=
  let (k, s) := freed Config.freeNat s
  (p.nextT0 + pairOffset s - ((taskAt s 0).offset + k * (taskAt s 0).period : Nat) * 1000000, s)

/-- A standby that runs on an epoch of its own takes the active's (R248). -/
def takeEpoch (p : Pennant) (s : State) : State :=
  if s.pair.aligned || s.cyc.epoch.isNone then s
  else
    let (e, s) := epochTold p s
    onPair (fun x => { x with aligned := true })
      (onCyc (fun c => { c with epoch := some e, tasks := c.tasks.map (·.underEpoch e s.mono) }) s)

/-- The mapping of the active's base onto this side's (R248): the filter over 16 pennants with 1.2 µs for the link, and the release
difference in 100 ns of a standby. Each pennant of the active brings a standby's T0 release instants onto the active's by the mapping.
DESIGN CHOICE (assumption 240). -/
def mapBase (p : Pennant) (s : State) : State :=
  let s := onPair (fun x => { x with offsets := (((s.mono : Int) - p.mono - 1200) :: x.offsets).take 16 }) s
  if s.sys.role == .standby && p.nextT0 != 0 then
    let s := takeEpoch p s
    let period := if taskRuns s 0 then (taskAt s 0).period * 1000000 else 1000000
    let d := withinHalf period ((nextT0 s : Int) - (p.nextT0 + pairOffset s))
    shiftEpoch (-d) (onPair (fun x => { x with skew := d / 100 }) s)
  else s

/-- An instant of the partner's base on this side's. -/
def ownBase (s : State) (t : Nat) : Nat := ((t : Int) + pairOffset s).toNat

/-! ### Commands between the sides (R245, R246) -/

/-- A notify leaves (R241). -/
def notifySend (s : State) : State :=
  if pairRuns s then
    let n := s.pair.client.notifyNo + 1
    let f : JackFrame := { typ := 0x45, pairId := (hdr s).pairId, side := s.pair.side, arg := s.sys.role.code, num := n.toNat
                           epoch := s.pair.epoch }
    onPair (fun p => { p with client := { p.client with notifyNo := n, notifyWait := true, notifyAt := some s.mono } })
      (jackSend .jackNotify s.pair.jackMac n.toNat s.pair.jackMac (jackBytes f) s)
  else s

/-- A standby takes a command with a new number, which waits for COMMAND_AT: a switch only once its own change is prepared (R168, R173), and a
change to RUN or STOP, which ends a change before its switch (R18, R176). -/
def acceptNew (p : Pennant) (s : State) : State :=
  if (p.command = 2 ∧ s.olc.phase ≠ .prepared) ∨ (p.command = 1 ∧ p.arg ≠ 1 ∧ p.arg ≠ 2) then s
  else
    let s := if p.command = 1 then olcAbandon olcAbandoned s else s
    let s := if p.command = 2 then onOlc (fun o => { o with phase := .announced }) s else s
    onPair (fun x =>
      { x with
        cmdSeq := p.cmdSeq
        accepted := some { kind := p.command, arg := p.arg, seq := p.cmdSeq, due := ownBase s p.cmdAt, newEpoch := p.newEpoch
                           acked := true, asked := s.mono } }) s

/-- A standby takes a command of the active: HANDOVER_NOW acts at once (R235, R246), the others wait for COMMAND_AT. A moved COMMAND_AT is followed, and a
switch that the active no longer announces before its instant is dropped (assumption 242). A side that a grant has made owner takes the
higher epoch (R242, R247). DESIGN CHOICE (assumption 242). -/
def acceptCommand (p : Pennant) (s : State) : State :=
  let can := s.sys.role == .standby && !s.pair.mismatch
  if p.command = 4 then
    if p.cmdSeq = s.pair.cmdSeq ∨ p.role ≠ 2 then s
    else if can && s.pair.st == .standby then notifySend (enterTaking 2 p.newEpoch (onPair (fun x => { x with cmdSeq := p.cmdSeq }) s))
    else if s.pair.st == .taking || s.pair.st == .active then
      storeEpoch (max s.pair.epoch p.newEpoch) (onPair (fun x => { x with cmdSeq := p.cmdSeq }) s)
    else s
  else if p.command = 1 ∨ p.command = 2 ∨ p.command = 3 then
    if can && s.pair.st == .standby && p.role == 2 then
      if p.cmdSeq = s.pair.cmdSeq then
        onPair (fun x => { x with accepted := x.accepted.map fun c => { c with due := ownBase s p.cmdAt } }) s
      else acceptNew p s
    else s
  else if p.role = 2 ∧ s.pair.accepted.any fun c => c.kind == 2 && decide (s.mono < c.due) then olcAbandon olcAbandoned s
  else s

/-- A command of the active is put into its pennants (R245): its number, and the first T0 release at least 2 ms ahead. -/
def startCommand (kind arg newEpoch ahead : Nat) (s : State) : State :=
  let n := (s.pair.cmdSeq + 1) % 65536
  onPair (fun p =>
    { p with
      cmdSeq := n
      cmd := some { kind := kind, arg := arg, seq := n, due := t0Ahead s ahead, newEpoch := newEpoch, acked := false
                    asked := s.mono } }) s

/-- The first instant that may be B, at least 2 ms ahead (R171): a T0 release, or a whole millisecond in STOP and where T0 is disabled. -/
def olcInstant (s : State) : Nat :=
  if s.sys.mode = .stop then (s.mono + 2999999) / 1000000 * 1000000 else t0Ahead s 2000000

/-- Whether some task will have a cycle across an instant, by the response time of its last cycle. -/
def crossesAt (s : State) (b : Nat) : Bool :=
  (List.range 8).any fun n =>
    let t := taskAt s n
    let k := t.firstIndex (epochOf s) b
    taskRuns s n && k != 0 && decide (b < releaseAt s n (k - 1) + t.runLast * 1000)

/-- The first of `k` instants, `step` ns apart from one on, that no cycle will lie across; the one after them where there is none. -/
def freeInstant (s : State) (step : Nat) : Nat → Nat → Nat
  | 0, b => b
  | k + 1, b => if crossesAt s b then freeInstant s step k (b + step) else b

/-- The B that an active announces to its standby (R171, R173): of the instants within 60 s, the first that no cycle will lie across.
DESIGN CHOICE (assumption 269). -/
def olcPairInstant (s : State) : Nat :=
  if s.sys.mode = .stop then olcInstant s
  else
    let step := if taskRuns s 0 then max (taskAt s 0).period 1 * 1000000 else 1000000
    freeInstant s step (60 * nsPerSec / step) (olcInstant s)

/-- A prepared change announces B (R171, R173): a SOLO side, or one that changes alone, takes it; an ACTIVE side puts it into its pennants
once its standby reports PREPARED. DEDUCED (assumption 94). -/
def olcAnnounce (s : State) : State :=
  let alone := s.sys.role == .solo || (s.sys.role == .active && s.olc.singleNow && (s.pair.silent || s.pair.partner.isNone))
  if s.olc.phase = .prepared then
    let b := olcInstant s
    if alone then onOlc (fun o => { o with phase := .announced, switchAt := some b }) s
    else if s.sys.role == .active && s.olc.partnerReady && s.pair.cmd.isNone then
      onOlc (fun o => { o with phase := .announced })
        (onPair (fun p => { p with cmd := p.cmd.map fun c => { c with due := olcPairInstant s } }) (startCommand 2 0 0 2000000 s))
    else s
  else s

/-- Whether the change's instants are the side's own and no pennant's. -/
def olcAlone (s : State) : Bool := s.pair.cmd.isNone

/-- B is moved to a later instant, not beyond 60 s after preparation ended (R171, R173): the next one that may serve, and one that leaves time
for an acknowledgement where a pennant carries it. -/
def olcMove (s : State) : State :=
  let b :=
    if !olcAlone s then olcPairInstant s
    else if s.sys.mode == .stop then nextMs s.mono
    else t0Ahead s 1
  if s.sys.role == .standby || s.olc.preparedAt + 60 * nsPerSec < b then s
  else if olcAlone s then onOlc (fun o => { o with switchAt := some b }) s
  else onPair (fun p => { p with cmd := p.cmd.map fun c => { c with due := b, acked := false } }) s

/-- The active changes alone once its partner is lost before it agreed, where SINGLE allows it; else the change ends (R173, R176). -/
def olcPartnerGone (s : State) : State :=
  if !s.olc.singleNow then olcAbandon olcPartnerLost s
  else if s.sys.role == .active && olcPrepared s then
    olcAnnounce (onOlc (fun o => { o with phase := .prepared })
      (onPair (fun p => { p with cmd := p.cmd.filter fun c => c.kind != 2 }) s))
  else s

/-- The announced B as it stands, and whether it is agreed: the active's command, the standby's accepted one, or a side's own (R171, R173). -/
def olcDue (s : State) : Option (Nat × Bool) :=
  match s.pair.cmd, s.pair.accepted with
  | some c, _ => if c.kind = 2 then some (c.due, c.acked) else none
  | none, some c => if c.kind = 2 then some (c.due, true) else none
  | none, none => s.olc.switchAt.map fun b => (b, true)

/-- Whether the start of a task waits for the switch: B has come and the switch has not, or its delay runs (R172). -/
def switchHolds (s : State) : Bool :=
  decide (s.mono < s.olc.startAfter) || (s.olc.phase == .announced && (olcDue s).any fun b => decide (b.1 ≤ s.mono))

/-- Whether a switch is agreed between the sides, so that it comes even if pennants stop (R173). -/
def olcBound (s : State) : Bool :=
  (s.pair.cmd.any fun c => c.kind == 2 && c.acked) || s.pair.accepted.any fun c => c.kind == 2

/-- The standby's acknowledgement arrives (R245): less than 1 ms before COMMAND_AT it moves COMMAND_AT one T0 release on, and B to an instant
that leaves time to acknowledge it (R173).
DEDUCED (assumption 122). -/
def commandAcked (p : Pennant) (s : State) : State :=
  match s.pair.cmd with
  | none => s
  | some c =>
    if p.flags.testBit 2 && p.cmdSeq == c.seq && !c.acked && !c.void then
      let late := decide (c.due < s.mono + 1000000)
      if late && c.kind == 2 then olcMove s
      else
        let step := if taskRuns s 0 then max (taskAt s 0).period 1 * 1000000 else 1000000
        let due := if late then max (c.due + step) (t0Ahead s 0) else c.due
        onPair (fun x => { x with cmd := some { c with acked := true, due := due } }) s
    else s

/-- A standby's request for a mode reaches the active (R138): it announces the change as its own.
DEDUCED (assumption 72). -/
def partnerAsks (p : Pennant) (s : State) : State :=
  if s.sys.role == .active && p.role == 3 && p.command == 1 && s.pair.cmd.all (·.kind == 2) && p.arg != s.sys.mode.code
      && (p.arg == 1 || p.arg == 2) then
    startCommand 1 p.arg 0 2000000
      (olcAbandon olcAbandoned
        (onCyc (fun c => { c with pendingReq := some { code := p.arg, sdk := false, byPair := true } }) s))
  else s

/-- What an accepted pennant does (R233, R236, R242). -/
def pennantAccepted (p : Pennant) (s : State) : State :=
  let was := s.pair.silent
  let s := onPair (fun x =>
    { x with
      rx := satInc 32 x.rx, partner := some p, partnerAt := s.mono, silent := false, linkDown := false
      client := { x.client with linkRec := false } }) s
  let s := if was then raise .partnerReturned .notice 0xFF 0 0 0 s else s
  let s := if p.role = 2 ∧ p.mode = 1 then s else onHoist (fun h => { h with heardAt := s.mono }) s
  let s := mapBase p s
  let tie := s.sys.role == .active && p.role == 2 && p.epoch == s.pair.epoch && s.pair.side == 2
  let s := if tie then supersede p.epoch s else seeEpoch p.epoch s
  let s := if s.pair.st == .noActive && p.role == 2 then
      becomeStale 6 (onPair (fun x => { x with st := .standby }) s)
    else s
  let s := olcAnnounce (onOlc (fun o => { o with partnerReady := p.flags.testBit 1 }) s)
  partnerAsks p (commandAcked p (acceptCommand p s))

/-- A pennant accepted in role discovery: listened to, or while the Jack is queried noted (R57, R233, R242). -/
def pennantHeard (p : Pennant) (s : State) : State :=
  let s := if s.start.phase == .listening then onStart (fun t => { t with heard := t.heard ++ [p] }) s else s
  mapBase p (onPair (fun x => { x with rx := satInc 32 x.rx, partner := some p, partnerAt := s.mono }) s)

/-- Whether a start is in role discovery. -/
def discovers (s : State) : Bool := s.start.phase == .listening || s.start.phase == .querying

/-- A pennant arrives on P3: heard in role discovery, else accepted or discarded (R57, R229, R233). -/
def pennantReceived (l : List Byte) (s : State) : State :=
  let p := readPennant l
  if discovers s || pairRuns s then
    if !frameOk 0x40 l || fld l 2 2 != 108 then pennantBad s
    else if p.pairId ≠ (hdr s).pairId then pennantForeign s
    else if p.side = s.pair.side then
      let s := pennantClash s
      if s.start.phase == .listening then onStart (fun t => { t with heard := t.heard ++ [p] }) s else s
    else if p.side ≠ 3 - s.pair.side then pennantBad s
    else
      let fresh := s.pair.silent || match s.pair.partner with
        | none => true
        | some q => decide (q.seq < p.seq)
      if !fresh then pennantBad s
      else if discovers s then pennantHeard p s
      else pennantAccepted p s
  else s

/-- PENNANT_RECEIVED (R233). -/
def execPennantReceived (body : List Byte) (s : State) : Out := answer (settle s (pennantReceived body s))

/-! ### The Jack's client (R241) -/

/-- A query leaves (R238): counted as an attempt unless it follows BUSY. -/
def sendQuery (counted : Bool) (s : State) : State :=
  let n := s.pair.client.queryNo + 1
  let f : JackFrame := { typ := 0x41, pairId := (hdr s).pairId, side := s.pair.side, arg := s.pair.client.reason, num := n.toNat
                         epoch := s.pair.epoch }
  onPair (fun p =>
    { p with
      queries := satInc 32 p.queries
      client := { p.client with queryNo := n, waiting := true, attempts := if counted then p.client.attempts + 1 else p.client.attempts } })
    (jackSend .jackQuery s.pair.jackMac n.toNat s.pair.jackMac (jackBytes f) s)

/-- The side enters QUERY (R242): reason 1 START, 2 SILENT, 3 RETRY. -/
def enterQuery (reason : Nat) (s : State) : State :=
  sendQuery true (onPair (fun p => { p with st := .query, client := { p.client with reason := reason, attempts := 0 } }) s)

/-- An attempt has no answer: another one, or NO_ACTIVE after three (R241, R242). At a start the side becomes STANDBY (STALE)
without an active (R57). -/
def queryFails (s : State) : State :=
  let s := onPair (fun p => { p with noAnswer := satInc 32 p.noAnswer, client := { p.client with waiting := false } }) s
  if s.pair.client.attempts < 3 then sendQuery true s
  else
    let told := s.pair.client.absentRec
    let s := onPair (fun p => { p with st := .noActive, flags := flag 2 p.flags, client := { p.client with absentRec := true } }) s
    let s := if told then s else raise .jackAbsent .fault 0xFF 0 0 0 s
    if s.start.phase == .querying then becomeStale 1 (startOk .standby none s) else s

/-- JACK_QUERY_TIMEOUT (R241): 1 ms without an answer. -/
def execJackQueryTimeout (s : State) : Out :=
  answer (if s.pair.st == .query && s.pair.client.waiting then settle s (queryFails s) else s)

/-- JACK_BUSY_RETRY (R241): 500 µs after BUSY. -/
def execJackBusyRetry (s : State) : Out :=
  answer (if s.pair.st == .query && !s.pair.client.waiting then sendQuery false s else s)

/-- The Jack's word has come: reachable, and an absence ends. -/
def jackHeard (s : State) : State :=
  onPair (fun p => { p with client := { p.client with lastAnswer := s.mono, reachable := true, absentRec := false } }) s

/-- GRANT (R241, R242): the side takes over with the epoch granted; one that owns already takes the higher epoch.
DEDUCED (assumption 121). -/
def jackGrant (e : Nat) (s : State) : State :=
  if s.start.phase == .querying then
    let s := enterTaking 4 e (becomeStale 1 s)
    startOk .standby none s
  else match s.pair.st with
    | .standby | .query | .noActive =>
      if s.pair.mismatch then s
      else enterTaking (if s.pair.client.reason = 1 then 4 else if s.pair.client.reason = 2 then 3 else 5) e s
    | .taking | .active | .releasing => storeEpoch (max s.pair.epoch e) s
    | _ => s

/-- The time without an accepted pennant after which the partner is silent, in ns (R234). -/
def silentNs : Nat := 1600000

/-- The release epoch of a side that starts as standby on the Jack's word (R125, R248): none where no pennant of an ACTIVE partner was heard.
DESIGN CHOICE (assumption 241). -/
def epochHeard (s : State) : Option Int × State :=
  match s.pair.partner with
  | none => (none, s)
  | some p =>
    if p.role = 2 ∧ p.nextT0 ≠ 0 then
      let (e, s) := epochTold p (onPair (fun x => { x with aligned := true }) s)
      (some e, s)
    else (none, s)

/-- PARTNER_ACTIVE (R57, R242): STANDBY, STALE after the silence (R273); with the partner silent still, or never heard, PAIR_LINK_DOWN, recorded
once per link failure. -/
def jackPartnerActive (e : Nat) (s : State) : State :=
  let starting := s.start.phase == .querying
  let silent := s.pair.silent || s.pair.partner.isNone || (starting && decide (s.pair.partnerAt + silentNs ≤ s.mono))
  let s := if s.pair.epoch < e then storeEpoch e s else s
  let s := onPair (fun p => { p with st := .standby }) s
  let s := if starting then
      let (e, s) := if silent then (none, s) else epochHeard s
      becomeStale 1 (startOk .standby e s)
    else becomeStale 6 s
  if silent then
    let told := s.pair.client.linkRec
    let s := onPair (fun p => { p with linkDown := true, flags := flag 1 p.flags, client := { p.client with linkRec := true } }) s
    if told then s else raise .pairLinkDown .fault 0xFF 0 0 0 s
  else s

/-- REFUSED (R241): as no answer, and recorded once. -/
def jackRefusal (s : State) : State :=
  let told := s.pair.client.refusedRec
  let s := onPair (fun p => { p with flags := flag 10 p.flags, client := { p.client with refusedRec := true } }) s
  queryFails (if told then s else raise .jackRefused .fault 0xFF 0 0 0 s)

/-- The fields of a Jack frame read (R238). -/
def readJack (l : List Byte) : JackFrame :=
  { typ := fld l 0 1, pairId := fld l 4 8, side := fld l 12 1, arg := fld l 13 1, num := fld l 14 2, epoch := fld l 16 4 }

/-- Whether a Jack frame of a type passes R229 and is addressed to this side. -/
def jackForMe (typ : Nat) (l : List Byte) (s : State) : Bool :=
  frameOk typ l && fld l 2 2 == 24 && isPairSide s && (readJack l).pairId == (hdr s).pairId && (readJack l).side == s.pair.side

/-- An answer of the Jack acts (R241, R242). -/
def jackAnswer (l : List Byte) (s : State) : State :=
  if jackForMe 0x42 l s then
    let f := readJack l
    let s := onPair (fun p => { p with client := { p.client with answerAt := s.mono } }) (jackHeard s)
    if f.arg = 1 then jackGrant f.epoch (onPair (fun p => { p with client := { p.client with waiting := false } }) s)
    else if f.arg = 2 ∧ s.sys.role = .active then seeEpoch f.epoch s
    else if s.pair.st == .query && s.pair.client.waiting && f.num == s.pair.client.queryNo.toNat then
      let t := onPair (fun p => { p with client := { p.client with waiting := false } }) s
      if f.arg = 2 then jackPartnerActive f.epoch t
      else if f.arg = 3 then t
      else if f.arg = 4 then jackRefusal t
      else s
    else s
  else s

/-- Whether a Jack frame of a type passes R229 and has the length of R238. -/
def jackFrameOk (typ : Nat) (l : List Byte) : Bool := frameOk typ l && fld l 2 2 == 24

/-- A Jack frame for this module comes in: on P4, or on the ring through the duplicate discard (R226, R280, R303). -/
def jackTakes (x : Rx) (forMe : Bool) (f : State → State) (s : State) : State :=
  if !forMe then s
  else if x.port = 4 then f s
  else if ringReceives s x.port then ringTakes x f s
  else s

/-- JACK_ANSWER (R242). -/
def execJackAnswer (x : Rx) (body : List Byte) (s : State) : Out :=
  answer (settle s (jackTakes x (jackForMe 0x42 body s) (jackAnswer body) s))

/-- Whether a side answers the Jack's probes: not in HALTED or in harbour watch, nor without a key (R52, R241). -/
def answersProbes (s : State) : Bool :=
  railsOn s && s.sys.mode != .halted && s.sys.mode != .harbour && !s.cyc.configError

/-- A probe is answered (R241): a side in TAKING or RELEASING as ACTIVE; a higher RECORD_EPOCH acts under R236. -/
def jackProbe (replyTo : Nat) (l : List Byte) (s : State) : State :=
  if jackForMe 0x43 l s && answersProbes s then
    let f := readJack l
    let s := seeEpoch f.epoch s
    let role := if s.pair.st == .taking || s.pair.st == .releasing then Role.active.code else s.sys.role.code
    let r : JackFrame := { typ := 0x44, pairId := f.pairId, side := s.pair.side, arg := role, num := f.num, epoch := s.pair.epoch }
    jackSend .jackProbeReply replyTo f.num replyTo (jackBytes r) s
  else s

/-- JACK_PROBE (R241): the frame and its source address. -/
def execJackProbe (x : Rx) (body : List Byte) (s : State) : Out :=
  answer (settle s (jackTakes x (jackForMe 0x43 body s) (jackProbe x.src body) s))

/-- The time between two notifies: 10 ms after a hand-over until one is acknowledged, else 1 s (R241). -/
def notifyNs (s : State) : Nat := if s.pair.client.fastNotify then 10 * nsPerMs else nsPerSec

/-- The next notify leaves (R241). -/
def jackNotifySend (s : State) : State := if longAgo s.pair.client.notifyAt (notifyNs s) s.mono then notifySend s else s

/-- JACK_NOTIFY_SEND (R241). -/
def execJackNotifySend (s : State) : Out := answer (jackNotifySend s)

/-- An acknowledgement of the last notify (R241). -/
def jackNotifyAck (l : List Byte) (s : State) : State :=
  if jackForMe 0x46 l s && (readJack l).num == s.pair.client.notifyNo.toNat then
    onPair (fun p => { p with client := { p.client with notifyWait := false, fastNotify := false } }) (jackHeard s)
  else s

/-- JACK_NOTIFY_ACK (R241). -/
def execJackNotifyAck (x : Rx) (body : List Byte) (s : State) : Out :=
  answer (jackTakes x (jackForMe 0x46 body s) (jackNotifyAck body) s)

/-! ### The Jack (R239, R240) -/

/-- The Jack's record of a pair, by its place in the served list. -/
def jackIndex (s : State) (pairId : Nat) : Option Nat := s.pair.jack.findIdx? fun r => r.pairId == pairId

def jackAt (s : State) (i : Nat) : JackRec := s.pair.jack.getD i { pairId := 0 }

def onJack (i : Nat) (f : JackRec → JackRec) (s : State) : State := onPair (fun p => { p with jack := p.jack.modify i f }) s

/-- Whether the module acts as a Jack: in the JACK role and RUN (R19, R227). -/
def jackServes (s : State) : Bool := s.sys.role == .jack && s.sys.mode == .run

/-- The other side. -/
def otherSide (side : Nat) : Nat := 3 - side

/-- An answer leaves to the address it answers (R230, R238). -/
def sendAnswer (replyTo pairId side verdict num e : Nat) (s : State) : State :=
  let f : JackFrame := { typ := 0x42, pairId := pairId, side := side, arg := verdict, num := num, epoch := e }
  jackSend .jackAnswer replyTo num replyTo (jackBytes f) s

/-- A query at the Jack (R239). -/
def jackQuery (replyTo : Nat) (l : List Byte) (s : State) : State :=
  let f := readJack l
  if jackServes s && jackFrameOk 0x41 l && (f.side == 1 || f.side == 2) then
    match jackIndex s f.pairId with
    | none => sendAnswer replyTo f.pairId f.side 4 f.num 0 s
    | some i =>
      let r := jackAt s i
      if 0xFFFFFFFE ≤ r.epoch then sendAnswer replyTo f.pairId f.side 4 f.num 0 s
      else if r.busy then sendAnswer replyTo f.pairId f.side 3 f.num 0 s
      else if r.owner == otherSide f.side && r.granted.any fun t => decide (s.mono < t + 10000000) then
        sendAnswer replyTo f.pairId f.side 2 f.num r.epoch s
      else
        let n := (r.probeNo + 1) % 65536
        let p : JackFrame := { typ := 0x43, pairId := f.pairId, side := otherSide f.side, arg := 0, num := n, epoch := r.epoch }
        onJack i (fun r => { r with busy := true, querier := f.side, queryNo := f.num, known := f.epoch, probeNo := n
                                    replyTo := replyTo })
          (jackSend .jackProbe 0 n 0x01524D000011 (jackBytes p) s)
  else s

/-- JACK_QUERY (R239): the frame and its source address. -/
def execJackQuery (x : Rx) (body : List Byte) (s : State) : Out :=
  answer (jackTakes x (jackFrameOk 0x41 body) (jackQuery x.src body) s)

/-- The Jack grants: an epoch above its record, the querier's and the replier's (R239). -/
def jackGrants (i replied : Nat) (s : State) : State :=
  let r := jackAt s i
  let e := max (max r.epoch r.known) replied + 1
  sendAnswer r.replyTo r.pairId r.querier 1 r.queryNo e
    (onJack i (fun r => { r with epoch := e, owner := r.querier, granted := some s.mono, busy := false, grants := satInc 16 r.grants }) s)

/-- The other side's reply to the Jack's probe (R239). -/
def jackProbeReply (l : List Byte) (s : State) : State :=
  let f := readJack l
  if jackServes s && jackFrameOk 0x44 l then
    match jackIndex s f.pairId with
    | none => s
    | some i =>
      let r := jackAt s i
      if r.busy && f.side == otherSide r.querier && f.num == r.probeNo then
        if f.arg = Role.active.code ∧ r.epoch ≤ f.epoch then
          sendAnswer r.replyTo r.pairId r.querier 2 r.queryNo f.epoch
            (onJack i (fun r => { r with epoch := f.epoch, owner := f.side, busy := false }) s)
        else jackGrants i f.epoch s
      else s
  else s

/-- JACK_PROBE_REPLY (R239). -/
def execJackProbeReply (x : Rx) (body : List Byte) (s : State) : Out :=
  answer (jackTakes x (jackFrameOk 0x44 body) (jackProbeReply body) s)

/-- JACK_PROBE_TIMEOUT (R239): no reply within 500 µs for the served pair `i`. -/
def execJackProbeTimeout (i : Nat) (s : State) : Out :=
  answer (if jackServes s && (jackAt s i).busy then jackGrants i 0 s else s)

/-- A notify at the Jack (R239). -/
def jackNotify (replyTo : Nat) (l : List Byte) (s : State) : State :=
  let f := readJack l
  if jackServes s && jackFrameOk 0x45 l && (f.side == 1 || f.side == 2) then
    match jackIndex s f.pairId with
    | none => s
    | some i =>
      let s := onJack i (fun r =>
        let r := if f.arg = Role.active.code ∧ r.epoch ≤ f.epoch then { r with epoch := f.epoch, owner := f.side } else r
        if f.side = 1 then { r with seenA := true } else { r with seenB := true }) s
      let a : JackFrame := { typ := 0x46, pairId := f.pairId, side := f.side, arg := 0, num := f.num, epoch := (jackAt s i).epoch }
      jackSend .jackAck replyTo f.num replyTo (jackBytes a) s
  else s

/-- JACK_NOTIFY (R239): the frame and its source address. -/
def execJackNotify (x : Rx) (body : List Byte) (s : State) : Out :=
  answer (jackTakes x (jackFrameOk 0x45 body) (jackNotify x.src body) s)

/-- JACK_REACHABLE_EXPIRY (R241, R260): 1.5 s without a word of the Jack, or on a Jack without a notify of a side of a served
pair. -/
def execJackReachableExpiry (of : Option (Nat × Nat)) (s : State) : Out :=
  answer (match of with
    | none =>
      if s.pair.client.lastAnswer + 1500000000 ≤ s.mono then onPair (fun p => { p with client := { p.client with reachable := false } }) s
      else s
    | some (i, side) => onJack i (fun r => if side = 1 then { r with seenA := false } else { r with seenB := false }) s)

/-! ### The state table (R242) -/

/-- PARTNER_LOST (R242). -/
def partnerLost (s : State) : State := raise .partnerLost .fault 0xFF 0 0 0 (onPair (fun p => { p with flags := flag 0 p.flags }) s)

/-- A standby whose partner is silent (R242, R247): it queries, unless a HANDOVER it acknowledged is due. -/
def standbySilent (s : State) : State :=
  if s.pair.mismatch then s
  else if s.pair.accepted.any fun c => c.kind == 3 then partnerLost s
  else enterQuery 2 (partnerLost s)

/-- The partner is declared silent (R234, R242, R247): hoists stop; a standby queries; a hand-over not acknowledged is void. A side that has
become STANDBY with its partner silent already queries too. -/
def partnerSilent (s : State) : State :=
  if !pairRuns s then s
  else if s.pair.silent then
    if s.pair.st == .standby && !s.pair.linkDown && s.pair.accepted.isNone then standbySilent s else s
  else
    let s := onPair (fun p => { p with silent := true, silences := satInc 32 p.silences }) s
    let s := if olcBound s then s else olcPartnerGone s
    match s.pair.st with
    | .active => partnerLost s
    | .releasing => partnerLost (onPair (fun p => { p with cmd := p.cmd.map fun c => { c with void := c.void || !c.acked } }) s)
    | .standby => standbySilent s
    | _ => s

/-- PARTNER_SILENT (R234): 1,600 µs without an accepted pennant. -/
def execPartnerSilent (s : State) : Out :=
  answer (if s.pair.partnerAt + silentNs ≤ s.mono then settle s (partnerSilent s) else s)

/-- NO_ACTIVE_RETRY (R242): 100 ms in NO_ACTIVE. -/
def execNoActiveRetry (s : State) : Out := answer (if s.pair.st == .noActive && pairRuns s then enterQuery 3 s else s)

/-- LINK_DOWN_RETRY (R242): 10 ms since the last answer while PAIR_LINK_DOWN stands. -/
def execLinkDownRetry (s : State) : Out :=
  answer (if s.pair.st == .standby && s.pair.linkDown && pairRuns s && !s.pair.mismatch
      && decide (s.pair.client.answerAt + 10 * nsPerMs ≤ s.mono) then enterQuery 3 s else s)

/-- Whether the active accepts a hand-over (R245). -/
def handoverAllowed (s : State) : Bool :=
  s.pair.st == .active && (s.sys.mode == .run || s.sys.mode == .stop) && s.pair.cmd.isNone && s.cyc.pendingReq.isNone
  && !s.pair.silent && s.pair.partner.any fun p =>
    p.role == 3 && p.mode == s.sys.mode.code && !p.flags.testBit 0 && p.gen == s.olc.gen

/-- A hand-over is requested (R245). -/
def handoverRequest (s : State) : State :=
  if !isPairSide s then s
  else if handoverAllowed s then
    startCommand 3 0 (s.pair.epoch + 1) 2000000 (onPair (fun p => { p with st := .releasing, handoverFailed := false }) s)
  else
    raise .handoverRefused .notice 0xFF 0 0 0
      (onPair (fun p => { p with flags := flag 6 p.flags, handoverFailed := true }) s)

/-- HANDOVER_REQUEST (R245, R258). -/
def execHandoverRequest (s : State) : Out := answer (handoverRequest s)

/-- No acknowledgement came (R242): RELEASING goes back to ACTIVE. -/
def handoverTimeout (s : State) : State :=
  if s.pair.st == .releasing && s.pair.cmd.any fun c => c.kind == 3 && !c.acked && decide (c.asked + 100 * nsPerMs ≤ s.mono) then
    raise .handoverFailed .notice 0xFF 0 0 0
      (onPair (fun p => { p with st := .active, cmd := none, flags := flag 5 p.flags, handoverFailed := true }) s)
  else s

/-- HANDOVER_TIMEOUT (R242): 100 ms after the request. -/
def execHandoverTimeout (s : State) : Out := answer (handoverTimeout s)

/-- What is due in the pair at a release instant of T0 (R242, R245): a side in TAKING becomes ACTIVE, and a hand-over acts at its
COMMAND_AT, on a standby at its release instant nearest to that of the active (R248). -/
def pairAtT0 (s : State) : State :=
  if s.pair.st == .taking then ownRequests true (enterActive s)
  else
    let due := fun (c : PairCommand) => c.kind == 3 && decide (c.due ≤ s.mono)
    match s.pair.accepted, s.pair.cmd with
    | some c, _ => if due { c with due := c.due - trackNs } then notifySend (activeByHandover c.newEpoch s) else s
    | none, some c => if due c && c.acked && !c.void && s.pair.st == .releasing then standbyByHandover s else s
    | none, none => s

end Sys2Proof.Machine
end

