-- ==== Sys2Proof/Machine/Plant.lean ====
section
/-! DEFINITION. The plant port: ARP and ICMP, sessions, the services that touch no register, enrolment, the device identity and messages
(19_plant_port_and_access.md R475 to R485, R488). -/

namespace Sys2Proof.Machine

/-! ### The port (R475) -/

/-- Whether P4 carries the plant service: a link, logic power, and PLANT_ENABLE or no accepted key.
DEDUCED (assumption 201). -/
def plantUp (s : State) : Bool :=
  railsOn s && s.sys.mode != .harbour && s.sys.linkP4 && (s.plant.enabled || !s.start.accepted)

/-- Whether a frame's VID is taken: none, 0 or the section's. -/
def vidTaken (s : State) (vid : Nat) : Bool := vid == 0 || vid == s.plant.vid

/-- The tag of the module's own frames: none, or the section's VID with priority 5. -/
def plantTag (s : State) : Nat := if s.plant.vid = 0 then 0 else 5 * 8192 + s.plant.vid

/-- The head of the module's own IPv4 frames on P4 (R475). -/
def plantEth (s : State) (dest : Nat) : Eth :=
  { ports := [4], dest := dest, tag := if s.plant.vid = 0 then none else some 5, vid := s.plant.vid, typ := 0x0800 }

/-- An ARP request for the module's address is answered. -/
def arpRequest (vid mac ip target : Nat) (s : State) : State :=
  if plantUp s && vidTaken s vid && target == s.plant.ipv4 then
    sendFrame .arp 4 (plantTag s) { ports := [4], dest := mac, tag := if s.plant.vid = 0 then none else some 5, vid := s.plant.vid, typ := 0x0806 }
      (beBytes 2 1 ++ beBytes 2 0x0800 ++ [6, 4] ++ beBytes 2 2 ++ beBytes 6 Config.moduleMac ++ beBytes 4 s.plant.ipv4 ++ beBytes 6 mac
        ++ beBytes 4 ip) s
  else s

/-- ARP_REQUEST (R475). -/
def execArpRequest (vid mac ip target : Nat) (s : State) : Out := answer (arpRequest vid mac ip target s)

/-- An ICMP echo to the module's address is answered with its identifier, sequence number and data. -/
def icmpEcho (vid target : Nat) (body : List Byte) (s : State) : State :=
  if plantUp s && vidTaken s vid && target == s.plant.ipv4 then send .icmp 4 (plantTag s) body s else s

/-- ICMP_ECHO (R475). -/
def execIcmpEcho (vid target : Nat) (body : List Byte) (s : State) : Out := answer (icmpEcho vid target body s)

/-! ### Sessions (R476 to R478) -/

def sessionAt (s : State) (k : Nat) : Session := s.plant.sessions.getD k {}

def onSession (k : Nat) (f : Session → Session) (s : State) : State :=
  onPlant (fun p => { p with sessions := p.sessions.modify k f }) s

/-- Bytes go to a session's client (R475, R479). -/
def sessionSend (kind : SentKind) (k num : Nat) (body : List Byte) (s : State) : State :=
  { s with sent := { kind := kind, unit := k, num := num, body := body, eth := some (plantEth s (sessionAt s k).mac) } :: s.sent }

/-- Something is refused: PLANT_REFUSED and a flag. -/
def plantRefuse (bit : Nat) (s : State) : State :=
  onPlant (fun p => { p with refused := satInc 32 p.refused, flags := flag bit p.flags }) s

/-- The lowest closed session. -/
def freeSession (s : State) : Option Nat := (List.range 4).find? fun k => (sessionAt s k).st == 0

/-- A TCP connection, in frames whose VID the module takes: a session in its handshake, or refused as a fifth (R475, R478). -/
def plantConnect (p : PlantPeer) (s : State) : State :=
  if plantUp s && vidTaken s p.vid then
    match freeSession s with
    | some k => onSession k (fun _ => { st := 1, ip := p.ip, mac := p.mac, heardAt := s.mono }) s
    | none => plantRefuse 1 s
  else s

/-- PLANT_CONNECT (R478). -/
def execPlantConnect (p : PlantPeer) (s : State) : Out := answer (plantConnect p s)

/-- Whether a certificate's signature verifies under a key. -/
def certVerifies (c : ClientCert) (x y : Nat) : Bool := Config.ecdsaVerifies c.signed x y c.sigR c.sigS

/-- The lowest anchor that signed a certificate (R477). -/
def anchorOf (s : State) (c : ClientCert) : Option Nat :=
  (List.range s.plant.anchors.length).find? fun i =>
    let a := s.plant.anchors.getD i { perms := 0, keyX := 0, keyY := 0 }
    certVerifies c a.keyX a.keyY

/-- The cipher suites, version, group and signature scheme of R476, by their code points in RFC 8446. -/
def tlsSuites : List Nat := [0x1301, 0x1302]
def tlsVersion : Nat := 0x0304
def tlsGroup : Nat := 0x0017
def tlsScheme : Nat := 0x0403

/-- The suite that a handshake agrees on (R476): the first of the module's that the client offers, with the one version, group and scheme, and with
an identity key to sign with. An offer of PSK, resumption or early data is not taken up. -/
def tlsAgrees (s : State) (c : ClientCert) : Option Nat :=
  if s.sec.hasKey && c.versions.contains tlsVersion && c.groups.contains tlsGroup && c.schemes.contains tlsScheme then
    tlsSuites.find? c.suites.contains
  else none

/-- The subject common name of the device certificate (R483): "WLG-7200" and the module serial. -/
def deviceName (s : State) : List Byte := [0x57, 0x4C, 0x47, 0x2D, 0x37, 0x32, 0x30, 0x30] ++ Config.serialText s.sec.serial

/-- The bytes of the device certificate (R483). -/
def deviceCert (s : State) : List Byte :=
  match s.sec.cert with
  | .factory => Config.factoryCert (deviceName s) s.sec.idX s.sec.idY
  | .installed l => l
  | .selfSigned => Config.selfCert (deviceName s) s.sec.idX s.sec.idY

/-- What a session takes from a certificate: permissions and anchor, or nothing where it is refused (R477). -/
def admits (s : State) (c : ClientCert) : Option (Nat × Nat) :=
  if (tlsAgrees s c).isNone || !c.tls || (s.rtc.valid && !c.inTime) then none
  else if !s.start.accepted then (if certVerifies c c.keyX c.keyY then some (0, 0xF) else none)
  else (anchorOf s c).map fun i => ((s.plant.anchors.getD i { perms := 0, keyX := 0, keyY := 0 }).perms, i)

/-- A handshake that fails: counted, and recorded at most once in 60 s. -/
def authFails (k : Nat) (s : State) : State :=
  let s := onSession k (fun _ => {}) s
  let s := onPlant (fun p => { p with authFails := satInc 32 p.authFails, flags := flag 0 p.flags }) s
  if longAgo s.plant.authRecAt (60 * nsPerSec) s.mono then
    raise .plantAuthFail .notice 0xFF 0 0 0 (onPlant (fun p => { p with authRecAt := some s.mono }) s)
  else s

/-- The module presents its device certificate once a handshake has agreed on a suite (R476). -/
def presents (k : Nat) (c : ClientCert) (s : State) : State :=
  match tlsAgrees s c with
  | some suite => sessionSend .deviceCert k suite (deviceCert s) s
  | none => s

/-- A TLS handshake: the module presents its certificate, and the session opens with its permissions, or fails. -/
def plantHandshake (k : Nat) (c : ClientCert) (s : State) : State :=
  if (sessionAt s k).st = 1 then
    let s := if s.rtc.valid then s else onSec (fun x => { x with flags := flag 7 x.flags }) s
    let s := presents k c s
    match admits s c with
    | none => authFails k s
    | some (perms, anchor) =>
      onPlant (fun p => { p with handshakes := satInc 32 p.handshakes })
        (onSession k (fun x => { x with st := 2, perms := perms, anchor := anchor, noKey := !s.start.accepted, heardAt := s.mono }) s)
  else s

/-- PLANT_HANDSHAKE (R476, R477). -/
def execPlantHandshake (k : Nat) (c : ClientCert) (s : State) : Out := answer (plantHandshake k c s)

/-- PLANT_IDLE_TIMEOUT (R478): a session that has carried no record for 120 s is closed. -/
def execPlantIdleTimeout (k : Nat) (s : State) : Out :=
  answer (if (sessionAt s k).heardAt + 120 * nsPerSec ≤ s.mono then onSession k (fun _ => {}) s else s)

/-- PLANT_SESSION_CLOSE (R478): the client closes its connection. -/
def execPlantSessionClose (k : Nat) (s : State) : Out := answer (onSession k (fun _ => {}) s)

/-! ### Requests and responses (R479, R480) -/

/-- STATUS of a response. -/
inductive PStatus where
  | ok
  | denied
  | locked
  | noKey
  | accessError
  | busy
  | badRequest
  | refused
  | standby
  deriving DecidableEq, Repr

def PStatus.code : PStatus → Nat
  | .ok => 0
  | .denied => 1
  | .locked => 2
  | .noKey => 3
  | .accessError => 4
  | .busy => 5
  | .badRequest => 6
  | .refused => 7
  | .standby => 8

/-- What R480 asks of a request for a service: a permission bit (none: any session), whether a session without a key gets it, and whether it is
refused when LOCKED. -/
structure Service where
  code   : Nat
  perm   : Option Nat
  noKey  : Bool
  locked : Bool
  deriving DecidableEq, Repr

def svcIdentify : Service := { code := 1, perm := none, noKey := true, locked := false }
def svcRegRead : Service := { code := 2, perm := some 0, noKey := true, locked := false }
def svcRegWrite : Service := { code := 3, perm := none, noKey := true, locked := true }
def svcLogBulk : Service := { code := 4, perm := some 0, noKey := true, locked := false }
def svcDictionary : Service := { code := 5, perm := some 0, noKey := true, locked := false }
def svcKeyRead : Service := { code := 6, perm := some 2, noKey := false, locked := false }
def svcOlcPiece : Service := { code := 7, perm := some 2, noKey := false, locked := true }
def svcEnrol : Service := { code := 8, perm := some 2, noKey := true, locked := true }
def svcIdentity : Service := { code := 9, perm := some 2, noKey := false, locked := true }
def svcReauthorise : Service := { code := 10, perm := some 3, noKey := false, locked := false }
def svcMessage : Service := { code := 11, perm := some 1, noKey := false, locked := false }

/-- A MESSAGE send, which LOCKED refuses. -/
def svcMessageSend : Service := { svcMessage with locked := true }

/-- The status that a service's conditions give a request: the key, then the permission, then LOCKED, then the form of the body.
DEDUCED (assumption 200). -/
def serviceCheck (s : State) (x : Service) (r : PlantReq) : PStatus :=
  let t := sessionAt s r.session
  if t.noKey && !x.noKey then .noKey
  else if !t.noKey && !(match x.perm with | none => true | some b => t.perms.testBit b) then .denied
  else if x.locked && s.sec.locked then .locked
  else if !r.formed then .badRequest
  else .ok

/-- The head of a response (R479): RESPONSE, and MORE where further responses follow. -/
def responseHead (service number len status : Nat) (more : Bool := false) : List Byte :=
  leBytes 1 service ++ [if more then 3 else 1] ++ leBytes 2 number ++ leBytes 4 len ++ leBytes 2 status ++ List.replicate 6 0

/-- The longest body of a response (R479). -/
def bodyMax : Nat := 65536

/-- A body goes out in responses of up to 65,536 bytes, MORE set on all but the last (R479). -/
def responses (service : Nat) (r : PlantReq) (status : Nat) (body : List Byte) (s : State) : State :=
  let last := (body.length - 1) / bodyMax
  forAll (List.range (last + 1)) (fun i t =>
    let part := slice body (bodyMax * i) (min bodyMax (body.length - bodyMax * i))
    sessionSend .plant r.session r.number (responseHead service r.number part.length status (i < last) ++ part) t) s

/-- A request is answered: the response, the request served, its time, and a status other than OK counted. A session that the request itself
has ended, as an ERASE does, gets none (R489). -/
def respondPlant (service : Nat) (r : PlantReq) (st : PStatus) (body : List Byte) (s : State) : State :=
  if (sessionAt s r.session).st ≠ 2 then s
  else
    let s := responses service r st.code body s
    let s := onSession r.session (fun x => { x with served := satInc 32 x.served, heardAt := s.mono }) s
    let s := onPlant (fun p => { p with respMax := max p.respMax (min r.us (satMax 32)) }) s
    if st = .ok then s else plantRefuse 2 s

/-- Whether a request reaches an open session: in frames whose VID the module takes (R475, R478). -/
def sessionReads (s : State) (r : PlantReq) : Bool := (sessionAt s r.session).st == 2 && vidTaken s r.vid

/-- A request of a service on an open session: refused by its conditions, or done; `act` gives the status, the body and the state. -/
def serve (x : Service) (r : PlantReq) (act : State → PStatus × List Byte × State) (s : State) : State :=
  if sessionReads s r then
    match serviceCheck s x r with
    | .ok => let (st, body, t) := act s; respondPlant x.code r st body t
    | st => respondPlant x.code r st [] s
  else s

/-- A service that only answers bytes. -/
def answers (body : State → List Byte) (s : State) : PStatus × List Byte × State := (.ok, body s, s)

/-- PLANT_UNKNOWN_SERVICE (R480). -/
def execPlantUnknownService (code : Nat) (r : PlantReq) (s : State) : Out :=
  answer (if sessionReads s r then respondPlant code r .badRequest [] s else s)

/-- Whether the key of a running module can be read and written (R55). -/
def keyThere (s : State) : Bool := s.key.present && s.key.answers && !s.start.keyOut

/-! ### LOG_BULK, DICTIONARY, KEY_READ -/

/-- The 32 bytes of a slot: the record, an interrupted write, or an empty slot (R467, R471). -/
def slotBytes (s : State) (n : Nat) : List Byte :=
  match look n s.log.slots with
  | some r => recBytes r
  | none => if s.log.writing.contains n then List.replicate 6 0xFF ++ List.replicate 26 0 else List.replicate 32 0

/-- Copies of slots. -/
def logBulk (first count : Nat) (s : State) : PStatus × List Byte × State :=
  if 1 ≤ count ∧ count ≤ 512 ∧ first + count ≤ slotTotal then
    (.ok, (List.range count).flatMap fun i => slotBytes s (first + i), s)
  else (.badRequest, [], s)

/-- LOG_BULK (R471, R480). -/
def execLogBulk (r : PlantReq) (first count : Nat) (s : State) : Out := answer (serve svcLogBulk r (logBulk first count) s)

/-- DICTIONARY (R463, R480). -/
def execDictionary (r : PlantReq) (first count : Nat) (s : State) : Out :=
  answer (serve svcDictionary r (answers fun t => (List.range count).flatMap fun i => Config.dictionaryEntry t.sys.level (first + i)) s)

/-- Bytes of a set of the key, which runs on the peripheral clock (R30, R31). DEDUCED (assumption 204). -/
def keyRead (set off len : Nat) (s : State) : PStatus × List Byte × State :=
  if 1 < set ∨ 65536 < len ∨ setBytes < off + len then (.badRequest, [], s)
  else if keyThere s then (.ok, keyBytes s (setBase set + off) len, startClock .peripheral s)
  else (.refused, [], s)

/-- KEY_READ (R480). -/
def execKeyRead (r : PlantReq) (set off len : Nat) (s : State) : Out := answer (serve svcKeyRead r (keyRead set off len) s)

/-! ### Enrolment (R484, R485) -/

/-- Whether a signer certificate of 160 bytes keeps R484, its signature under the root it names included. -/
def signerCertOk (s : State) (l : List Byte) : Bool :=
  let root := s.sec.signers.getD (fld l 6 1) {}
  decide (l.length = 160) && hasMagic 0x56 l && fld l 4 2 == 1 && decide (fld l 6 1 ≤ 1) && decide (fld l 7 1 ≤ 1)
    && decide (2 < fld l 8 8) && decide (1 ≤ fld l 16 2) && allZero (slice l 18 14) && root.st == .root
    && Config.ecdsaVerifies (l.take 96) root.keyX root.keyY (beNat (slice l 96 32)) (beNat (slice l 128 32))

/-- The slot that holds a signer, revoked ones included. -/
def enrolledSlot (s : State) (id : Nat) : Option Nat :=
  (List.range 16).find? fun i => let k := s.sec.signers.getD i {}; (k.st == .enrolled || k.st == .revoked) && k.id == id

/-- The lowest empty slot. -/
def emptySigner (s : State) : Option Nat := (List.range 16).find? fun i => (s.sec.signers.getD i {}).st == .empty

/-- A slot of the signer store takes what a certificate says; a revoked one stays revoked, since it verifies nothing from then on (R485).
DEDUCED (assumption 203). -/
def storeSigner (i : Nat) (l : List Byte) (s : State) : State :=
  let revoke := (BitVec.ofNat 8 (fld l 7 1)).getLsbD 0
  let x := beNat (slice l 32 32)
  let y := beNat (slice l 64 32)
  let k : Signer := { st := if revoke then .revoked else .enrolled, id := fld l 8 8, serial := fld l 16 2, keyX := x, keyY := y }
  let s := onSec (fun e =>
    { e with
      signers := e.signers.modify i fun old =>
        if revoke then { k with keyX := old.keyX, keyY := old.keyY } else { k with st := if old.st = .revoked then .revoked else .enrolled }
      flags := if revoke && e.signerSlot == i then flag 5 e.flags else e.flags }) s
  raise (if revoke then .signerRevoked else .signerEnrolled) .notice 0xFF 0 0 0 s

/-- An ENROL: refused, or applied (R485). DEDUCED (assumption 203). -/
def enrol (l : List Byte) (s : State) : PStatus × List Byte × State :=
  let refused := (PStatus.refused, ([] : List Byte), onSec (fun e => { e with flags := flag 4 e.flags }) s)
  if signerCertOk s l then
    match enrolledSlot s (fld l 8 8) with
    | some i => if (s.sec.signers.getD i {}).serial < fld l 16 2 then (.ok, [], storeSigner i l s) else refused
    | none =>
      match emptySigner s with
      | some i => (.ok, [], storeSigner i l s)
      | none => refused
  else refused

/-- ENROL (R480, R485). -/
def execEnrol (r : PlantReq) (cert : List Byte) (s : State) : Out := answer (serve svcEnrol r (enrol cert) s)

/-! ### The device identity (R483) -/

/-- A PKCS#10 request for the identity key. -/
def identityRequest (s : State) : PStatus × List Byte × State :=
  if s.sec.hasKey then
    let (n, t) := freed id s
    (.ok, Config.pkcs10 s.sec.serial s.sec.idX s.sec.idY n, t)
  else (.refused, [], s)

/-- IDENTITY_GET_REQUEST (R480, R483). -/
def execIdentityGetRequest (r : PlantReq) (s : State) : Out := answer (serve svcIdentity r identityRequest s)

/-- A device certificate is installed where its public key matches the identity key. -/
def identityInstall (cert : List Byte) (key : Nat × Nat) (s : State) : PStatus × List Byte × State :=
  if s.sec.hasKey && key == (s.sec.idX, s.sec.idY) then
    (.ok, [], onSec (fun k => { k with identity := .enrolled, cert := .installed cert }) s)
  else (.refused, [], s)

/-- IDENTITY_INSTALL (R480, R483). -/
def execIdentityInstall (r : PlantReq) (cert : List Byte) (key : Nat × Nat) (s : State) : Out :=
  answer (serve svcIdentity r (identityInstall cert key) s)

/-! ### REAUTHORISE (R488) -/

/-- Whether a source whose response is LOCK or ERASE stands. -/
def lockStands (s : State) : Bool :=
  (List.range 5).any fun i => s.sec.standing.getD i false && s.sec.responses.getD i .alert != .alert

/-- LOCKED is cleared, or the request refused. -/
def reauthorise (s : State) : PStatus × List Byte × State :=
  if lockStands s then (.refused, [], onSec (fun k => { k with flags := flag 3 k.flags }) s)
  else (.ok, [], raise .secReauthorised .notice 0xFF 0 0 0 (onSec (fun k => { k with locked := false }) s))

/-- REAUTHORISE (R488). -/
def execReauthorise (r : PlantReq) (s : State) : Out := answer (serve svcReauthorise r reauthorise s)

/-! ### Messages (R482) -/

/-- A session opens or closes a channel. -/
def messageChannel (k c : Nat) (open_ : Bool) (s : State) : PStatus × List Byte × State :=
  if c < 4 then
    (.ok, [], onSession k (fun x => { x with chans := if open_ then (x.chans.filter (· != c)) ++ [c] else x.chans.filter (· != c) }) s)
  else (.badRequest, [], s)

/-- MESSAGE_OPEN (R482). -/
def execMessageOpen (r : PlantReq) (c : Nat) (s : State) : Out := answer (serve svcMessage r (messageChannel r.session c true) s)

/-- MESSAGE_CLOSE (R482). -/
def execMessageClose (r : PlantReq) (c : Nat) (s : State) : Out := answer (serve svcMessage r (messageChannel r.session c false) s)

/-- A client's message becomes a FILLED entry of the channel's receive queue. DEDUCED (assumption 205). -/
def messageSend (c tag : Nat) (data : List Byte) (s : State) : PStatus × List Byte × State :=
  if 4 ≤ c ∨ 1024 < data.length then (.badRequest, [], s)
  else if s.sys.role = .standby then (.standby, [], s)
  else match queueOf s userPlant c 1 with
    | none => (.refused, [], s)
    | some q =>
      let f : CanFrame := { format := 0, id := tag % 2 ^ 16, length := data.length, data := data, sdt := 0, vcid := 0, sec := 0, af := 0 }
      (.ok, [], fill q f 0 s.mono none s)

/-- MESSAGE_SEND (R482). -/
def execMessageSend (r : PlantReq) (c tag : Nat) (data : List Byte) (s : State) : Out :=
  answer (serve svcMessageSend r (messageSend c tag data) s)

/-- The sessions that have a channel open. -/
def channelHolders (s : State) (c : Nat) : List Nat :=
  (List.range 4).filter fun k => (sessionAt s k).st == 2 && (sessionAt s k).chans.contains c

/-- The attempt of the oldest waiting entry of a channel: expired, handed to TLS for every session that holds the channel, or with none of
them PORT_OFF. -/
def messageDeliver (c : Nat) (s : State) : State :=
  match queueOf s userPlant c 0 with
  | none => s
  | some q =>
    match s.que.held.find? fun d => d.queue == q && d.st == .pending with
    | none => s
    | some d =>
      if (match d.expiry with | none => false | some t => decide (t ≤ s.mono)) then retire d.handle retExpired none s
      else
        let l := channelHolders s c
        if l.isEmpty then retire d.handle retPortOff none s
        else retire d.handle retSent none (forAll l (fun k t =>
          onSession k (fun x => { x with heardAt := s.mono }) (sessionSend .message k (d.frame.id % 2 ^ 16) d.frame.data t)) s)

/-- MESSAGE_DELIVER (R482). -/
def execMessageDeliver (c : Nat) (s : State) : Out := answer (messageDeliver c s)

end Sys2Proof.Machine
end

