-- ==== Sys2Proof/Machine/Olc.lean ====
section
/-! DEFINITION. The commands of online change (06_online_change.md R163 to R180). -/

namespace Sys2Proof.Machine

/-! ### Refusals (R165, R177) -/

/-- Result codes of CYC_OLC_STATUS (R179). -/
def olcRefused : Nat := 4
def olcBusy : Nat := 5
def olcScope : Nat := 6
def olcGeneration : Nat := 7
def olcNoRoom : Nat := 8
def olcKeyBad : Nat := 9
def olcMigration : Nat := 10
def olcMigrationBad : Nat := 11
def olcNoBoundary : Nat := 12

/-- A request is refused: RESULT and the record; a change that stands goes on. DEDUCED (assumption 90). -/
def olcRefuse (code p2 : Nat) (s : State) : State :=
  raise .olcResult .notice 0xFF code p2 0 (onOlc (fun o => { o with result := code }) s)

/-- Whether a standby can take part (R165). -/
def olcPartnerFit (s : State) : Bool :=
  !s.pair.silent && s.pair.partner.any fun p => p.role == 3 && (p.mode == 1 || p.mode == 2) && !p.flags.testBit 0

/-- Whether the role takes downloads: a standby and a JACK never do (R165). -/
def olcRole (s : State) : Bool := s.sys.role == .solo || s.sys.role == .active

/-- The first condition of R165, in its order from 1, that a download breaches. -/
def olcCondition (s : State) : Option Nat :=
  if s.sys.mode != .run && s.sys.mode != .stop then some 1
  else if !olcRole s then some 2
  else if s.pwr.hbr != .none || s.pwr.powerDown || keyRepairs s then some 3
  else if !keyWritable s then some 4
  else if s.sec.locked then some 5
  else if s.sys.role == .active && !s.olc.single && !olcPartnerFit s then some 6
  else none

/-! ### Writing pieces (R166) -/

/-- The inactive set. -/
def inactiveSet (s : State) : Nat := 1 - s.olc.set

/-- A sector of the inactive set is erased at the first piece that reaches it. -/
def eraseOnce (sector : Nat) (s : State) : State :=
  if s.olc.erased.contains sector then s
  else onOlc (fun o => { o with erased := sector :: o.erased }) (eraseSector sector s)

/-- A part is written. -/
def olcWrite (p : OlcPart) (s : State) : State :=
  match p with
  | .h1 l => onOlc (fun o => { o with h1 := l }) s
  | .h2 l => onOlc (fun o => { o with h2 := l }) s
  | .data off l =>
    if l.isEmpty then s
    else
      let at_ := setBase (inactiveSet s) + off
      let first := at_ / sectorBytes
      let last := (at_ + l.length - 1) / sectorBytes
      programKey at_ l (forAll (List.range (last + 1 - first)) (fun i t => eraseOnce (first + i) t) s)

/-- Whether a part lies within a set or is a header of 256 bytes. -/
def partFits : OlcPart → Bool
  | .data off l => decide (off + l.length ≤ setBytes)
  | .h1 l | .h2 l => decide (l.length = 256)

/-! ### Verification (R163, R164, R167) -/

/-- A header with the fields that H1 and H2 may set put equal to another's: HEADER_SEQ, START_SET, and digest and generation of a set. -/
def Header.likeIn (h r : Header) (n : Nat) : Header :=
  { h with
    seq := r.seq, startSet := r.startSet
    digest0 := if n = 0 then r.digest0 else h.digest0, gen0 := if n = 0 then r.gen0 else h.gen0
    digest1 := if n = 1 then r.digest1 else h.digest1, gen1 := if n = 1 then r.gen1 else h.gen1 }

/-- Whether H1 and H2 keep R166 beside the running header. -/
def olcHeadersOk (s : State) : Bool :=
  let n := inactiveSet s
  let a := readHeader s.olc.h1
  let b := readHeader s.olc.h2
  let r := hdr s
  headerVerdict s s.olc.h1 == .valid && headerVerdict s s.olc.h2 == .valid
    && a.likeIn r n == r && b.likeIn r n == r && a.digest n == b.digest n && a.gen n == b.gen n
    && a.seq == (r.seq + 1) % 2 ^ 32 && b.seq == (r.seq + 2) % 2 ^ 32 && a.startSet == s.olc.set && b.startSet == n

/-- The types that an online change may alter (R163). -/
def olcMayAlter (t : Nat) : Bool := t == 4 || t == 5 || t == 6 || t == 7 || t == 9

/-- The entries of a directory that must stay, by type, instance and digest. -/
def dirFixed (d : List DirEntry) : List (Nat × Nat × List Byte) :=
  (d.filter fun e => !olcMayAlter e.typ).map fun e => (e.typ, e.inst, e.digest)

/-- The SIGNALS section of the running set as the key holds it. -/
def runningSignals (s : State) (fails : List Nat) : Option (List Byte) :=
  match s.start.dir.find? fun e => e.typ == 7 with
  | none => none
  | some e =>
    let base := setBase s.olc.set
    match sectionCopy s fails (base + e.offsetA) e with
    | some l => some l
    | none => sectionCopy s fails (base + e.offsetB) e

/-- Whether a new SIGNALS section only adds entries to an old one (R163): each old record and the old sink records stay. -/
def signalsAdd (old new : List Byte) : Bool :=
  let recs := fun l => recsOf l 16 32 (fld l 4 2)
  let sinks := fun l => slice l (16 + 32 * fld l 4 2) (8 * fld l 6 2)
  ((recs old).all fun r => (recs new).contains r) && (sinks old).isPrefixOf (sinks new)

/-- Whether a new set differs from the running one only as R163 allows. DEDUCED (assumption 91). -/
def olcInScope (s : State) (fails : List Nat) (k : KeySet) : Bool :=
  let a := dirFixed s.start.dir
  let b := dirFixed k.dir
  a.all (fun e => b.contains e) && b.all (fun e => a.contains e) && k.check.isNone
    && (match runningSignals s fails with
      | some old => signalsAdd old k.sigSec
      | none => false)

/-- Bytes of the banks that the CPU owns for a use at present. DEDUCED (assumption 92). -/
def roomFor (s : State) (u : BankUse) : Nat :=
  ((s.mem.banks.take 16).filter fun b => b.owner == .cpu && b.use == u).length * bankBytes

/-- Whether both images fit (R164): code in the code banks, instance data and stacks in the data banks. -/
def olcFits (s : State) (k : KeySet) : Bool :=
  decide (s.cyc.codeLen + fld k.code 28 4 ≤ roomFor s .code) && decide (s.cyc.dataLen + k.dataNeed ≤ roomFor s .data)

/-- The new set as the key holds it. -/
def newSet (s : State) (fails : List Nat) : Option KeySet :=
  match readSet s fails (readHeader s.olc.h1) (inactiveSet s) with
  | .ok k => some k
  | .error _ => none

/-- An ending on a bad key is a FAULT, any other a NOTICE (R177). -/
def olcFails (code : Nat) (s : State) : State := olcEnd code (if code = olcKeyBad then .fault else .notice) s

/-- H1 is written into both header copies, and the change is staged; or its write fails. -/
def olcStage (ok : Bool) (s : State) : State :=
  if ok then
    let s := writeHeader s.olc.h1 s
    onOlc (fun o => { o with phase := .staged }) (onStart (fun t => { t with header := some (readHeader s.olc.h1) }) s)
  else olcFails olcKeyBad (eraseSector 0 s)

/-- The new set is read back and checked, and H1 is written (R163, R164, R167). -/
def olcVerify (fails : List Nat) (keyOk : Bool) (s : State) : State :=
  let s := onOlc (fun o => { o with phase := .verifying }) s
  if !olcHeadersOk s then olcFails olcKeyBad s
  else
    match readSet s fails (readHeader s.olc.h1) (inactiveSet s) with
    | .error (_, bad) => olcFails olcKeyBad (tellBad bad s)
    | .ok k =>
      let s := tellBad k.bad s
      if k.header.gen (inactiveSet s) ≠ (s.olc.gen + 1) % 65536 then olcFails olcGeneration s
      else if !olcInScope s fails k then olcFails olcScope s
      else if !olcFits s k then olcFails olcNoRoom s
      else olcStage keyOk s

/-- A piece is written, and the last one brings the verification (R166, R167). -/
def olcTake (p : OlcPiece) (s : State) : State :=
  let s := olcWrite p.part s
  if p.last then olcVerify p.fails p.keyOk s else s

/-- A download begins: SINGLE is read (R180). -/
def olcBegin (s : State) : State :=
  onOlc (fun o => { o with phase := .receiving, singleNow := o.single, h1 := [], h2 := [], erased := [], retries := 0,
                           partnerReady := false, switchAt := none }) s

/-- The active forwards a piece over P3 (R166). DESIGN CHOICE (assumption 93). -/
def olcForward (p : OlcPart) (s : State) : State :=
  if s.sys.role == .active && !s.pair.silent && s.pair.partner.isSome then
    match p with
    | .data off l => send .olcPiece 3 off l s
    | .h1 l | .h2 l => send .olcPiece 3 setBytes l s
  else s

/-- A piece from a session of the plant port (R165, R166): another session's is another download. DEDUCED (assumption 90). One that reaches a module whose role takes no download is refused, though the active forwards to
it. -/
def olcPiece (k : Nat) (p : OlcPiece) (s : State) : PStatus × List Byte × State :=
  let answer := fun (st : PStatus) (t : State) => (st, leBytes 1 t.olc.result, t)
  let take := fun (t : State) => let t := olcTake p (olcForward p.part t); answer .ok t
  if !partFits p.part then (.badRequest, [], s)
  else match s.olc.phase with
    | .receiving =>
      if s.olc.session ≠ some k then answer .busy (olcRefuse olcBusy 0 s)
      else if olcRole s then take s else answer .refused (olcRefuse olcRefused 2 s)
    | .idle =>
      match olcCondition s with
      | some n => answer .refused (olcRefuse olcRefused n s)
      | none => take (onOlc (fun o => { o with session := some k }) (olcBegin s))
    | _ => answer .busy (olcRefuse olcBusy 0 s)

/-- OLC_PIECE (R166, R480). -/
def execOlcPiece (r : PlantReq) (p : OlcPiece) (s : State) : Out := answer (serve svcOlcPiece r (olcPiece r.session p) s)

/-- A piece that the active forwards reaches the standby, which writes it into its own key (R166). -/
def olcForwarded (p : OlcPiece) (s : State) : State :=
  if s.sys.role == .standby && partFits p.part && keyWritable s then
    match s.olc.phase with
    | .receiving => olcTake p s
    | .idle => olcTake p (olcBegin s)
    | _ => s
  else s

/-- OLC_PIECE_FORWARD (R166). -/
def execOlcPieceForward (p : OlcPiece) (s : State) : Out := answer (olcForwarded p s)

/-! ### ACTIVATE and ABORT (R164, R168, R180) -/

/-- ACTIVATE: preparation starts from STAGED, where both images fit; or it is refused. -/
def olcActivate (s : State) : State :=
  if s.olc.phase = .staged then
    match newSet s [] with
    | none => olcFails olcKeyBad s
    | some k =>
      if olcFits s k then
        onMem (fun m => { m with olcWriting := true }) (onOlc (fun o => { o with phase := .preparing }) s)
      else olcFails olcNoRoom s
  else olcRefuse olcRefused 0 s

/-- OLC_ACTIVATE (R168, R180). -/
def execOlcActivate (s : State) : Out := answer (olcActivate s)

/-- OLC_ABORT (R176, R180). -/
def execOlcAbort (s : State) : Out := answer (olcAbandon olcAborted s)

/-! ### Preparation (R168 to R171) -/

/-- INSTANCE_SIZE of a type and version; 0 where the set has none, so that no operation of its map lies within it.
DESIGN CHOICE (assumption 243). -/
def sizeOf (l : List BlockType) (id version : Nat) : Nat :=
  ((l.find? fun t => t.id == id && t.version == version).map (·.size)).getD 0

/-- Whether KIND and the lengths of an operation keep R170. -/
def MigOp.formed (o : MigOp) : Bool :=
  if o.kind = 0 then o.dstLen == o.srcLen
  else decide (o.kind ≤ 2) && [1, 2, 4].contains o.srcLen && [2, 4, 8].contains o.dstLen && decide (o.srcLen < o.dstLen)

/-- Whether a map keeps R170 within the sizes of its old and new type. -/
def MigMap.ok (m : MigMap) (oldSize newSize : Nat) : Bool :=
  m.ops.all (fun o => o.formed && decide (o.src + o.srcLen ≤ oldSize) && decide (o.dst + o.dstLen ≤ newSize))
    && !spansMeet ((m.ops.filter fun o => o.dstLen != 0).map fun o => (o.dst, o.dstLen))

/-- The types a map names. -/
def MigMap.pair (m : MigMap) : Nat × Nat × Nat × Nat := (m.oldTyp, m.oldVer, m.newTyp, m.newVer)

/-- Whether a MIGRATION section keeps R169 and R170. -/
def migrationGood (s : State) (k : KeySet) : Bool :=
  let l := k.bytes 6 0
  let maps := migMaps l
  !hasTwice (maps.map MigMap.pair)
    && (recsOf l 16 24 (fld l 4 4)).all (fun r => decide (fld r 12 4 + fld r 16 2 ≤ fld l 8 4))
    && maps.all fun m => m.ok (sizeOf s.cyc.types m.oldTyp m.oldVer) (sizeOf k.types m.newTyp m.newVer)

/-- How a new instance comes by its data (R168). -/
inductive Match where
  | carried (old : Instance)
  | migrated (old : Instance) (m : MigMap)
  | missing
  | new

/-- The match of a new instance against the running set. -/
def matchInstance (s : State) (maps : List MigMap) (i : Instance) : Match :=
  match s.cyc.instances.find? fun o => o.id == i.id with
  | none => .new
  | some o =>
    if o.typ = i.typ ∧ o.version = i.version then .carried o
    else match maps.find? fun m => m.pair == (o.typ, o.version, i.typ, i.version) with
      | some m => .migrated o m
      | none => .missing

/-- Whether an instance finds no map. -/
def Match.lacksMap : Match → Bool
  | .missing => true
  | _ => false

/-- Where the new image's code and data start: at the byte after the running image's, in banks taken as a ring (R164, R168).
DESIGN CHOICE (assumption 253). -/
def newCodeBase (s : State) : Nat := (s.cyc.codeBase + s.cyc.codeLen) % max 1 ((useBanks s .code).length * bankBytes)
def newDataBase (s : State) : Nat := (s.cyc.dataBase + s.cyc.dataLen) % max 1 ((useBanks s .data).length * bankBytes)

/-- The new code is loaded into free code-bank space and the new instance data into free data-bank space (R168). -/
def olcLoad (k : KeySet) (s : State) : State :=
  loadImage (useBanks s .data) (newDataBase s) k.dataImage (loadImage (useBanks s .code) (newCodeBase s) k.codeBytes s)

/-- Preparation and matching end: an ending, or PREPARED, and B is announced (R168 to R171, R173). -/
def olcPrepareEnd (s : State) : State :=
  if s.olc.phase = .preparing then
    match newSet s [] with
    | none => olcFails olcKeyBad s
    | some k =>
      if !migrationGood s k then olcFails olcMigrationBad s
      else if k.instances.any fun i => (matchInstance s (migMaps (k.bytes 6 0)) i).lacksMap then olcFails olcMigration s
      else
        olcAnnounce (onMem (fun m => { m with olcWriting := false })
          (onOlc (fun o => { o with phase := .prepared, preparedAt := s.mono }) (olcLoad k s)))
  else s

/-- OLC_PREPARED (R168, R171). -/
def execOlcPrepared (s : State) : Out := answer (olcPrepareEnd s)

/-! ### The switch (R172, R174) -/

/-- An operation applied (R170). -/
def MigOp.apply (o : MigOp) (old new : List Byte) : List Byte :=
  let v := fld old o.src o.srcLen
  overlay new o.dst
    (if o.kind = 0 then slice old o.src o.srcLen
     else if o.kind = 1 then leBytes o.dstLen (lowBits (8 * o.dstLen) (signedOf (8 * o.srcLen) v))
     else leBytes o.dstLen v)

/-- A new instance with its data at the switch, and the bytes carried over or migrated for it. One that is new shows its first run, with
EDGE_INIT_ZERO (R174). -/
def Match.data (m : Match) (edgeZero : Bool) (i : Instance) : Instance × Nat :=
  match m with
  | .carried o => ({ i with data := o.data, task := o.task, first := o.first, edgeZero := o.edgeZero }, o.data.length)
  | .migrated o x =>
    ({ i with data := x.ops.foldl (fun d p => p.apply o.data d) i.data, task := o.task }, (x.ops.map (·.dstLen)).sum)
  | .missing | .new => ({ i with first := true, edgeZero := edgeZero }, 0)

/-- The slots of a task's output image after the switch (R128): a new one takes what was last posted to its entry, or INITIAL with GOOD. -/
def slotsAfter (k : KeySet) (posted : List (Nat × (Datum × Byte))) (t n : Task) : List (Nat × (Datum × Byte)) :=
  (k.slotsOf posted n.writes).map fun x => (x.1, (look x.1 t.slots).getD x.2)

/-- A task after the switch: its entry and sets are the new image's, and its first cycle is to come. -/
def Task.after (t n : Task) (slots : List (Nat × (Datum × Byte))) : Task :=
  { t with entry := n.entry, reads := n.reads, writes := n.writes, slots := slots, sinceB := !t.enabled }

/-- The tasks released at B take the latched values of their new read sets. -/
def latchAfter (s : State) : State :=
  onCyc (fun c => { c with tasks := c.tasks.mapIdx fun n t =>
    if t.cycleAt.isSome && !t.started then { t with latched := localValues s n } else t }) s

/-- What the banks hold where the running image's instances lie, once these are another's: their last data. -/
def oldDataStays (s : State) : State :=
  let banks := useBanks s .data
  onMem (fun m => { m with cells := s.cyc.instances.foldl (fun l i => layBytes banks (s.cyc.dataBase + i.off) i.data l) m.cells }) s

/-- The HOIST section of the new set in force (R172): where it differs, every selected item counts as written, to be coded afresh. -/
def hoistAfter (k : KeySet) (s : State) : State :=
  let old := s.hoist
  let s := onHoist k.loadHoist s
  if s.hoist.mirror = old.mirror ∧ s.hoist.ranges = old.ranges then s
  else onHoist (fun h =>
    { h with
      written := (rotation s).filter fun i => match i with
        | .granule _ _ | .element _ _ => true
        | _ => false
      coded := [], forcesNew := true, carried := [], gathers := [], rotPos := 0 }) s

/-- The entries that the new set adds, and its sink list, are stored in the signal table (R172, R181). -/
def addEntries (k : KeySet) (s : State) : State :=
  let old := s.sig
  let added := (k.entries.map (·.1)).filter fun i => (look i old.entries).isNone
  let sinks := (List.range k.sinks.length).filter fun i => k.sinks[i]? != old.sinks[i]?
  let s := onSig (fun g =>
    { g with entries := k.entries.foldl (fun t p => if (look p.1 t).isSome then t else put p.1 p.2 t) g.entries, sinks := k.sinks }) s
  forAll sinks (fun i t => recode (sinkListAt + 8 * i) true t) (forAll added (fun i t => touchRecord i (touchEntry i t)) s)

/-- The delay of a switch in ns, by the bytes carried over and migrated (R172). -/
def switchDelay (bytes : Nat) : Nat := 5000 + bytes * 4 / 10

/-- The steps of R172 at B; its delay in whole µs, what is left over dropped, is parameter 2 of the record (R177).
DEDUCED (assumption 95). DESIGN CHOICE (assumption 244). -/
def olcSwitch (k : KeySet) (s : State) : State :=
  let maps := migMaps (k.bytes 6 0)
  let made := k.instances.map fun i => (matchInstance s maps i).data (bitAt (k.bytes 6 0) 12 0) i
  let delay := switchDelay (made.map (·.2)).sum
  let n := inactiveSet s
  let s := onCyc (fun c =>
    { c with
      imageId := fld k.code 8 8, codeBase := newCodeBase s, codeLen := fld k.code 28 4
      dataBase := newDataBase s, dataLen := fld k.instSec 8 4
      types := k.types, natives := k.natives, instances := made.map (·.1)
      tasks := c.tasks.mapIdx fun i t => t.after (k.task i) (slotsAfter k c.posted t (k.task i)) }) (oldDataStays s)
  let s := addEntries k s
  let s := latchAfter (hoistAfter k s)
  let s := onOlc (fun o =>
    { o with
      phase := .switched, gen := k.header.gen n, set := n, digest := leNat (k.header.digest n), switchAt := none
      startAfter := s.mono + delay }) s
  let s := onStart (fun t => { t with dir := k.dir, secs := k.secs, bad := k.bad }) s
  raise .olcSwitched .notice 0xFF s.olc.gen (delay / 1000) 0 s

/-- Whether a task has a cycle from before an instant between release and write point (R171). -/
def cycleAcross (s : State) (b : Nat) : Bool := s.cyc.tasks.any fun t => t.enabled && t.cycleAt.any fun r => decide (r < b)

/-- Whether B is this side's alone: no pennant carries it (R173). -/
def olcOwn (s : State) : Bool := s.pair.cmd.isNone && s.pair.accepted.isNone

/-- At B the change takes place; an instant that does not serve moves B (R171 to R173). One that the sides have agreed stands.
What the hoists brought for instances is written first (R272), and a word of theirs that traps the cores ends the change.
DESIGN CHOICE (assumption 269). -/
def olcAtB (s : State) : State :=
  match olcDue s with
  | none => s
  | some (b, agreed) =>
    if s.mono < b ∨ s.olc.phase ≠ .announced then s
    else if !agreed || (cycleAcross s b && olcOwn s) then olcMove s
    else match newSet s [] with
      | none => s
      | some k =>
        let s := forAll (List.range 8) applyMemDue s
        if s.sys.mode = .halted then s else olcSwitch k (dropSwitch s)

/-- OLC_SWITCH (R172): after the release instants of B and before any task starts. -/
def execOlcSwitch (s : State) : Out := answer (settle s (olcAtB s))

/-- 60 s after preparation ended no instant has served. -/
def olcNoInstant (s : State) : State :=
  if (s.olc.phase == .prepared || s.olc.phase == .announced) && decide (s.olc.preparedAt + 60 * nsPerSec ≤ s.mono) then
    olcFails olcNoBoundary s
  else s

/-- OLC_NO_BOUNDARY (R171). -/
def execOlcNoBoundary (s : State) : Out := answer (olcNoInstant s)

/-- OLC_CONFIRM_RETRY (R175): 10 s after a header write failed. -/
def execOlcConfirmRetry (ok : Bool) (s : State) : Out :=
  answer (if s.olc.phase = .confirming then olcConfirm ok s else s)

/-! ### Registers (R179, R180) -/

/-- PHASE of CYC_OLC_CTRL. -/
def OlcPhase.code : OlcPhase → Nat
  | .idle => 0
  | .receiving => 1
  | .verifying => 2
  | .preparing => 3
  | .prepared => 4
  | .announced => 5
  | .switched => 6
  | .confirming => 7
  | .staged => 8

/-- FIRST_CYCLE: the tasks that run their first cycle after B. -/
def firstCycles (s : State) : Nat := ((s.cyc.tasks.mapIdx fun n t => if t.started && !t.sinceB then 2 ^ n else 0)).sum

/-- CYC_OLC_STATUS. -/
def olcStatusWord (s : State) : Word := packFields [(16, 16, s.olc.gen), (8, 4, s.olc.result), (0, 8, firstCycles s)]

/-- CYC_OLC_CTRL. -/
def olcCtrlWord (s : State) : Word := packFields [(28, 4, s.olc.phase.code), (2, 1, bit s.olc.single)]

/-- A write of CYC_OLC_CTRL: SINGLE, then ABORT, then ACTIVATE. -/
def writeOlcCtrl (v : Word) (s : State) : State :=
  let s := onOlc (fun o => { o with single := v.getLsbD 2 }) s
  let s := if v.getLsbD 1 then olcAbandon olcAborted s else s
  if v.getLsbD 0 then olcActivate s else s

end Sys2Proof.Machine
end

