-- ==== Sys2Proof/Machine/Serial.lean ====
section
/-! DEFINITION. The serial lines as Modbus master and slave (19_plant_port_and_access.md R490 to R495, R501). -/

namespace Sys2Proof.Machine

/-- Line S1 or S2 by its number 1 or 2. -/
def serLine (s : State) (n : Nat) : SerLine := s.ser.lines.getD (n - 1) {}

def onLine (n : Nat) (f : SerLine → SerLine) (s : State) : State :=
  onSer (fun x => { x with lines := x.lines.modify (n - 1) f }) s

/-- Whether the module transmits on its lines (R495). -/
def serTxAllowed (s : State) : Bool :=
  takesCommands s && (s.sys.mode == .run || s.sys.mode == .stop || s.sys.mode == .hold)

/-- The queues of a line (R495). -/
def serTxQueue (s : State) (n : Nat) : Option Nat := queueOf s userSerial n 0
def serRxQueue (s : State) (n : Nat) : Option Nat := queueOf s userSerial n 1

/-! ### Values in an item's data (R493) -/

/-- The W bytes of a value in Modbus order: big-endian, with WSWAP the least significant register first. -/
def modbusBytes (w v : Nat) (wswap : Bool) : List Byte :=
  if wswap && (w == 4 || w == 8) then ((List.range (w / 2)).flatMap fun i => beBytes 2 (v / 65536 ^ i)) else beBytes w v

/-- The value of W bytes in Modbus order. -/
def modbusValue (l : List Byte) (wswap : Bool) : Nat :=
  if wswap && (l.length == 4 || l.length == 8) then
    ((List.range (l.length / 2)).map fun i => beNat (slice l (2 * i) 2) * 65536 ^ i).sum
  else beNat l

/-- Whether a SERIAL reference names an item of a line. -/
def serRef (n item : Nat) (ref : Word) : Bool := ref.getLsbD 31 == (n == 2) && field ref 25 6 == item

/-- The data of an item built from the entries whose sinks name it; other bytes are 0. -/
def serBuild (s : State) (n item len : Nat) : List Byte :=
  s.sig.entries.foldl (fun data p =>
    (sinksOf s p.2).foldl (fun data k =>
      if k.kind = 5 ∧ serRef n item k.ref then
        let b := field k.ref 17 8
        if p.2.typ = 0x01 then overlayBit data b (field k.ref 14 3) (p.2.value.getLsbD 0)
        else overlay data b (modbusBytes (typeWidth p.2.typ) p.2.value.toNat (k.ref.getLsbD 13))
      else data) data) (List.replicate len 0)

/-- The value a source entry takes from an item's data. -/
def serTake (e : SigEntry) (data : List Byte) : Datum :=
  let b := field e.ref 17 8
  if e.typ = 0x01 then BitVec.ofNat 64 (bit ((data.getD b 0).getLsbD (field e.ref 14 3)))
  else valueOfRaw e.typ (modbusValue (slice data b (typeWidth e.typ)) (e.ref.getLsbD 13))

/-- Whether an entry is a source of an item. -/
def isSerEntry (n item : Nat) (e : SigEntry) : Bool := e.kind == 6 && serRef n item e.ref

/-! ### Absence (R494) -/

/-- An item is declared absent. -/
def serAbsent (n item : Nat) (s : State) : State :=
  if (serLine s n).failed.getLsbD item then s
  else
    let s := onLine n (fun l => { l with failed := setBit l.failed item true, flags := flag 3 l.flags }) s
    let s := if longAgo (serLine s n).recAt (60 * nsPerSec) s.mono then
        raise .serialAbsent .notice n 0 item 0 (onLine n (fun l => { l with recAt := some s.mono }) s)
      else s
    declareAbsent (isSerEntry n item) s

/-- Data of an item arrives: its entries take it with GOOD, and an absence ends. -/
def serArrives (n item : Nat) (data : List Byte) (s : State) : State :=
  let s := onLine n (fun l => { l with failed := setBit l.failed item false, failRun := del item l.failRun }) s
  updateWhere (isSerEntry n item) (fun e => some (serTake e data, qGood)) s

/-! ### The master (R491, R495) -/

/-- The write data of a transaction as the signal table stands. -/
def transData (s : State) (n : Nat) (t : SerTrans) : List Byte :=
  if serWrites t.function then serBuild s n t.item t.writeLen else []

/-- Whether a transaction is due: its data has changed, or its period has passed; in STOP reads only. -/
def transDue (s : State) (n : Nat) (t : SerTrans) : Bool :=
  let l := serLine s n
  (s.sys.mode != .stop || !serWrites t.function)
  && (if t.onChange then look t.item l.sentData != some (transData s n t)
      else t.periodMs == 0 || (match look t.item l.lastSent with
        | none => true
        | some at_ => decide (at_ + t.periodMs * 1000000 ≤ s.mono)))

/-- The transactions in ITEM order. -/
def SerLine.inOrder (l : SerLine) : List SerTrans :=
  (List.range 64).filterMap fun i => l.trans.find? fun t => t.item == i

/-- The next transaction that is due after the one last sent, going round; the first round begins with the first. -/
def nextDue (s : State) (n : Nat) : Option SerTrans :=
  let l := serLine s n
  let after := fun (t : SerTrans) => l.round.all fun i => decide (i < t.item)
  (l.inOrder.filter after ++ l.inOrder.filter fun t => !after t).find? (transDue s n)

/-- The PDU of a transaction. -/
def transPdu (t : SerTrans) (data : List Byte) : List Byte :=
  let head := leBytes 1 t.function ++ beBytes 2 t.address
  if t.function = 5 ∨ t.function = 6 then head ++ data
  else if t.function = 15 ∨ t.function = 16 then head ++ beBytes 2 t.count ++ leBytes 1 data.length ++ data
  else if t.function = 23 then
    head ++ beBytes 2 t.count ++ beBytes 2 t.waddress ++ beBytes 2 t.wcount ++ leBytes 1 data.length ++ data
  else head ++ beBytes 2 t.count

/-- The frame of the attempt in progress leaves: address and PDU. DEDUCED (assumption 210). -/
def serSend (n item slave : Nat) (pdu : List Byte) (s : State) : State := send .serial n item (BitVec.ofNat 8 slave :: pdu) s

/-- A transaction is sent. A broadcast awaits no reply. -/
def transSend (n : Nat) (t : SerTrans) (s : State) : State :=
  let data := transData s n t
  let s := onLine n (fun l =>
    { l with
      item := t.item, round := some t.item, sentData := put t.item data l.sentData, lastSent := put t.item s.mono l.lastSent, afterQueue := true
      tx := if t.slave = 0 then none
            else some { item := t.item, handle := none, slave := t.slave, function := t.function, attempt := 1, at_ := s.mono } }) s
  serSend n t.item t.slave (transPdu t data) s

/-- A waiting queue entry is sent; one to address 0 awaits no reply. DEDUCED (assumption 213). -/
def entrySend (n : Nat) (d : Desc) (s : State) : State :=
  let slave := d.frame.id % 256
  let s := serSend n (serLine s n).item slave d.frame.data s
  if slave = 0 then retire d.handle retSent none s
  else
    onDesc d.handle (fun d => { d with st := .attempt })
      (onLine n (fun l =>
        { l with tx := some { item := l.item, handle := some d.handle, slave := slave
                              function := (d.frame.data.headD 0).toNat, attempt := 1, at_ := s.mono } }) s)

/-- The oldest waiting entry of a line's transmit queue. -/
def waitingEntry (s : State) (n : Nat) : Option Desc :=
  (serTxQueue s n).bind fun q => s.que.held.find? fun d => d.queue == q && d.st == .pending

/-- An idle master line goes on: after a transaction one queue entry, else the next transaction that is due, else a queue entry. -/
def serTransaction (n : Nat) (s : State) : State :=
  let l := serLine s n
  if l.role ≠ 1 ∨ l.tx.isSome ∨ !serTxAllowed s then s
  else
    let s := onLine n (fun l => { l with afterQueue := false }) s
    match waitingEntry s n, nextDue s n with
    | some d, some t => if l.afterQueue then entrySend n d s else transSend n t s
    | some d, none => entrySend n d s
    | none, some t => transSend n t s
    | none, none => s

/-- SERIAL_TRANSACTION (R491). -/
def execSerialTransaction (n : Nat) (s : State) : Out := answer (serTransaction n s)

/-- Whether an attempt of a transaction may be sent again: in STOP a write is not (R495). -/
def mayRepeat (s : State) (t : SerTrans) : Bool := serTxAllowed s && (s.sys.mode != .stop || !serWrites t.function)

/-- An attempt has failed (R491, R494, R495): sent again up to RETRIES times; an item's failures count towards its absence.
DEDUCED (assumption 211). -/
def serFails (n : Nat) (x : SerTx) (reply : Option (List Byte)) (s : State) : State :=
  let l := serLine s n
  let last := decide (l.force.retries < x.attempt)
  let again := onLine n (fun l => { l with tx := some { x with attempt := x.attempt + 1, at_ := s.mono } })
  let ends := onLine n (fun l => { l with tx := none })
  match x.handle with
  | some h =>
    match descOf s h with
    | none => ends s
    | some d =>
      match attemptFails s d last with
      | some r => retire h r reply (ends s)
      | none => serSend n x.item x.slave d.frame.data (again s)
  | none =>
    match l.trans.find? fun t => t.item == x.item with
    | none => ends s
    | some t =>
      let runs := ((look t.item l.failRun).getD 0) + 1
      let s := onLine n (fun l => { l with failRun := put t.item runs l.failRun }) s
      let s := if serReads t.function && decide (l.failLimit ≤ runs) then serAbsent n t.item s else s
      if last || !mayRepeat s t then ends s
      else serSend n t.item t.slave (transPdu t ((look t.item l.sentData).getD [])) (again s)

/-- TIMEOUT_MS of an attempt (R497): that of its transaction; the spec states none for a queue entry. DEDUCED (assumption 211). -/
def SerLine.timeoutNs (l : SerLine) (x : SerTx) : Nat :=
  if x.handle.isSome then 0 else ((l.trans.find? fun t => t.item == x.item).map (·.timeoutMs * 1000000)).getD 0

/-- An attempt ends without a valid reply: counted, and it has failed (R491, R501). -/
def serUnanswered (n : Nat) (x : SerTx) (s : State) : State :=
  serFails n x none (onLine n (fun l => { l with timeouts := satInc 32 l.timeouts, flags := flag 1 l.flags }) s)

/-- No valid reply within TIMEOUT_MS. -/
def serTimeout (n : Nat) (s : State) : State :=
  match (serLine s n).tx with
  | none => s
  | some x => if s.mono < x.at_ + (serLine s n).timeoutNs x then s else serUnanswered n x s

/-- SERIAL_TIMEOUT (R491). -/
def execSerialTimeout (n : Nat) (s : State) : Out := answer (settle s (serTimeout n s))

/-- A frame with a bad CRC is discarded and counted (R490). -/
def serCrcError (n : Nat) (s : State) : State :=
  onLine n (fun l => { l with crcErrors := satInc 32 l.crcErrors, flags := flag 0 l.flags }) s

/-- A frame goes to the receive queue of its line. -/
def serToQueue (n : Nat) (f : SerFrame) (s : State) : State :=
  match serRxQueue s n with
  | none => s
  | some q => fill q { format := 0, id := f.addr, length := f.pdu.length, data := f.pdu } 0 s.mono none s

/-- A frame outside a transaction (R495). -/
def serForeign (n : Nat) (f : SerFrame) (s : State) : State :=
  serToQueue n f (onLine n (fun l => { l with foreign := satInc 32 l.foreign, flags := flag 4 l.flags }) s)

/-- An exception: counted, and its code kept. -/
def serException (n item code : Nat) (s : State) : State :=
  onLine n (fun l => { l with exceptions := satInc 32 l.exceptions, flags := flag 2 l.flags, lastExc := item % 256 * 256 + code % 256 }) s

/-- The data bytes of a reply to a read. -/
def replyData (pdu : List Byte) : List Byte := pdu.drop 2

/-- Whether a reply to a transaction has the form of its function. -/
def replyFits (t : SerTrans) (pdu : List Byte) : Bool :=
  if serReads t.function then pdu.length == 2 + t.readLen && fld pdu 1 1 == t.readLen else pdu.length == 5

/-- A reply to the attempt in progress (R491). One from its address, with its function and of another form than that function's is no valid reply,
and no failure of its own: the attempt waits on for TIMEOUT_MS. -/
def serAnswered (n : Nat) (x : SerTx) (f : SerFrame) (s : State) : State :=
  let fn := fld f.pdu 0 1
  if f.addr = x.slave ∧ fn = x.function + 128 then
    serFails n x (some f.pdu) (serException n x.item (fld f.pdu 1 1) s)
  else if f.addr ≠ x.slave ∨ fn ≠ x.function then serUnanswered n x s
  else match x.handle with
    | some h => retire h retSent (some f.pdu) (onLine n (fun l => { l with tx := none }) s)
    | none =>
      match (serLine s n).trans.find? fun t => t.item == x.item with
      | none => onLine n (fun l => { l with tx := none }) s
      | some t =>
        if replyFits t f.pdu then
          let s := onLine n (fun l => { l with tx := none, failRun := del t.item l.failRun }) s
          if serReads t.function then serArrives n t.item (replyData f.pdu) s else s
        else s

/-- The read item of a standby master that a heard request matches. -/
def heardItem (l : SerLine) (addr : Nat) (pdu : List Byte) : Option SerTrans :=
  l.trans.find? fun t => serReads t.function && t.slave == addr && t.function == fld pdu 0 1 && t.address == beNat (slice pdu 1 2)
    && t.count == beNat (slice pdu 3 2)

/-- A reply that a standby master hears: unpacked where its request matches a read item of its own (R495).
DEDUCED (assumption 214). -/
def serHeard (n : Nat) (addr : Nat) (request : List Byte) (f : SerFrame) (s : State) : State :=
  let l := serLine s n
  let s := onLine n (fun l => { l with heard := none }) s
  match heardItem l addr request with
  | none => s
  | some t => if f.addr = addr ∧ fld f.pdu 0 1 = t.function ∧ replyFits t f.pdu then serArrives n t.item (replyData f.pdu) s else s

/-- A valid frame is counted. -/
def serFrame (n : Nat) (s : State) : State := onLine n (fun l => { l with frames := satInc 32 l.frames }) s

/-- A frame that a master line receives as a reply. -/
def serReply (n : Nat) (f : SerFrame) (s : State) : State :=
  let l := serLine s n
  if l.role ≠ 1 then s
  else if !f.crcOk then serCrcError n s
  else
    let s := serFrame n s
    match l.tx, l.heard with
    | some x, _ => serAnswered n x f s
    | none, some (a, p) => serHeard n a p f s
    | none, none => serForeign n f s

/-- SERIAL_REPLY (R491). -/
def execSerialReply (n : Nat) (f : SerFrame) (s : State) : Out := answer (settle s (serReply n f s))

/-! ### The slave (R492) -/

/-- The table that a function reads or writes; none for a function that is not supported. -/
def tableOf (fn : Nat) : Option Nat :=
  if fn = 1 ∨ fn = 5 ∨ fn = 15 then some 0 else if fn = 2 then some 1 else if fn = 4 then some 2
  else if fn = 3 ∨ fn = 6 ∨ fn = 16 ∨ fn = 23 then some 3 else none

/-- Whether an item covers a range. -/
def SerMap.covers (m : SerMap) (address count : Nat) : Bool :=
  decide (1 ≤ count) && decide (m.address ≤ address) && decide (address + count ≤ m.address + m.count)

/-- The data of an item as a read finds it: as last written, or built from the signal table. -/
def mapData (s : State) (n : Nat) (m : SerMap) : List Byte :=
  if m.writable then (look m.item (serLine s n).data).getD (List.replicate m.len 0) else serBuild s n m.item m.len

/-- Bit `i` of packed bits. -/
def bitOf (l : List Byte) (i : Nat) : Bool := (l.getD (i / 8) 0).getLsbD (i % 8)

/-- `count` bits from bit `first`, packed. -/
def takeBits (l : List Byte) (first count : Nat) : List Byte :=
  (List.range count).foldl (fun d i => overlayBit d (i / 8) (i % 8) (bitOf l (first + i))) (List.replicate (bitBytes count) 0)

/-- Bits laid over others from bit `first`. -/
def putBits (dst : List Byte) (first count : Nat) (src : List Byte) : List Byte :=
  (List.range count).foldl (fun d i => overlayBit d ((first + i) / 8) ((first + i) % 8) (bitOf src i)) dst

/-- What a read of a covered range answers. -/
def mapRead (s : State) (n : Nat) (m : SerMap) (address count : Nat) : List Byte :=
  let d := mapData s n m
  if m.table < 2 then takeBits d (address - m.address) count else slice d (2 * (address - m.address)) (2 * count)

/-- A write into a covered range. -/
def mapWrite (n : Nat) (m : SerMap) (address count : Nat) (data : List Byte) (s : State) : State :=
  let d := mapData s n m
  let d := if m.table < 2 then putBits d (address - m.address) count data else overlay d (2 * (address - m.address)) data
  let s := onLine n (fun l => { l with item := m.item, data := put m.item d l.data, lastSent := put m.item s.mono l.lastSent }) s
  serArrives n m.item d s

/-- The write part of a request: address, count and data. -/
def writePart (pdu : List Byte) : Option (Nat × Nat × List Byte) :=
  let a := beNat (slice pdu 1 2)
  match fld pdu 0 1 with
  | 5 => some (a, 1, [if beNat (slice pdu 3 2) = 0xFF00 then 1 else 0])
  | 6 => some (a, 1, slice pdu 3 2)
  | 15 | 16 => some (a, beNat (slice pdu 3 2), pdu.drop 6)
  | 23 => some (beNat (slice pdu 5 2), beNat (slice pdu 7 2), pdu.drop 10)
  | _ => none

/-- The read part of a request: address and count. -/
def readPart (pdu : List Byte) : Option (Nat × Nat) :=
  if serReads (fld pdu 0 1) then some (beNat (slice pdu 1 2), beNat (slice pdu 3 2)) else none

/-- Whether a request is answered: a side that may transmit, and no broadcast. -/
def slaveAnswers (f : SerFrame) (s : State) : Bool := f.addr != 0 && serTxAllowed s

/-- The answer leaves the line. -/
def slaveSend (n : Nat) (f : SerFrame) (pdu : List Byte) (s : State) : State :=
  if slaveAnswers f s then serSend n (serLine s n).item f.addr pdu s else s

/-- A request is refused with an exception, which counts where it is sent; its copy goes to the receive queue. -/
def slaveRefuse (n item code : Nat) (f : SerFrame) (s : State) : State :=
  let s := serToQueue n f (if slaveAnswers f s then serException n item code s else s)
  slaveSend n f [BitVec.ofNat 8 (fld f.pdu 0 1 + 128), BitVec.ofNat 8 code] s

/-- The one item of a table within which a request falls entirely, its write part and its read part, and that allows it (R492). -/
def slaveItem (l : SerLine) (table : Nat) (pdu : List Byte) : Option SerMap :=
  l.maps.find? fun m => m.table == table
    && ((writePart pdu).all fun p => m.writable && m.covers p.1 p.2.1) && (readPart pdu).all fun p => m.covers p.1 p.2

/-- A request to a slave line: applied and answered, or refused (R492). DEDUCED (assumption 212). -/
def slaveRequest (n : Nat) (f : SerFrame) (s : State) : State :=
  let fn := fld f.pdu 0 1
  match tableOf fn with
  | none => slaveRefuse n 0 1 f s
  | some table =>
    match slaveItem (serLine s n) table f.pdu with
    | none => slaveRefuse n 0 2 f s
    | some m =>
      let s := match writePart f.pdu with
        | some (a, c, d) => mapWrite n m a c d s
        | none => s
      match readPart f.pdu with
      | some (a, c) =>
        let d := mapRead s n m a c
        slaveSend n f (BitVec.ofNat 8 fn :: BitVec.ofNat 8 d.length :: d) (onLine n (fun l => { l with item := m.item }) s)
      | none => slaveSend n f (f.pdu.take 5) s

/-- A request on a line (R492, R495): a slave serves one to its address or to all; a standby master keeps the active's in mind; to any other
master it is foreign. -/
def serRequest (n : Nat) (f : SerFrame) (s : State) : State :=
  let l := serLine s n
  if l.role = 0 then s
  else if !f.crcOk then serCrcError n s
  else
    let s := serFrame n s
    if l.role = 2 then (if f.addr = l.slaveAddr ∨ f.addr = 0 then slaveRequest n f s else s)
    else if s.sys.role = .standby then onLine n (fun l => { l with heard := some (f.addr, f.pdu) }) s
    else serForeign n f s

/-- SERIAL_REQUEST (R492). -/
def execSerialRequest (n : Nat) (f : SerFrame) (s : State) : Out := answer (settle s (serRequest n f s))

/-- No accepted write has reached a writable item for WRITE_TIMEOUT_MS. -/
def serWriteTimeout (n item : Nat) (s : State) : State :=
  let l := serLine s n
  let last := (look item l.lastSent).getD 0
  if l.role = 2 ∧ l.writeTimeoutMs ≠ 0 ∧ last + l.writeTimeoutMs * 1000000 ≤ s.mono ∧ l.maps.any fun m => m.item == item && m.writable then
    serAbsent n item s else s

/-- SERIAL_WRITE_TIMEOUT (R494). -/
def execSerialWriteTimeout (n item : Nat) (s : State) : Out := answer (settle s (serWriteTimeout n item s))

/-! ### The set in force (R501) -/

/-- Whether a committed set keeps R497. -/
def SerCfg.ok (c : SerCfg) : Bool :=
  decide (c.baud < 9) && decide (c.parity < 3) && (!c.stop2 || c.parity == 0) && decide (c.retries ≤ 5)

/-- The boundary of SERl_COMMIT: the line is idle. -/
def serBoundary (n : Nat) (s : State) : State :=
  let l := serLine s n
  if l.commit.pending && l.tx.isNone then
    onLine n (fun l =>
      let l := { l with commit := { l.commit with pending := false } }
      if l.copied.ok then { l with force := l.copied } else { l with flags := flag 5 l.flags }) s
  else s

end Sys2Proof.Machine
end

