-- ==== Sys2Proof/Machine/Cycle.lean ====
section
/-! DEFINITION. The program cycle (05_program_cycle.md R124 to R162): release, freeze, write point, overruns, modes, forcing and the
calls of native blocks. -/

namespace Sys2Proof.Machine

def onTask (n : Nat) (f : Task → Task) (s : State) : State := onCyc (fun c => { c with tasks := c.tasks.modify n f }) s

/-! ### A change of mode takes effect (R135, R137, R138) -/

/-- Whether HOLD may be entered: SOLO with COMMISSIONING (R18, R135). -/
def holdAllowed (s : State) : Bool := s.sys.role == .solo && (hdr s).flags.testBit 1

/-- The module enters the mode a request named (R18, R135, R137). -/
def applyMode (code : Nat) (epoch : Int) (s : State) : State :=
  let s := onCyc (fun c => { c with pendingReq := none }) s
  match code, s.sys.mode with
  | 1, .stop | 1, .hold => enterRun epoch s
  | 2, .run => leaveRun .stop s
  | 2, .hold => setMode .stop s
  | 3, .run => if holdAllowed s then leaveRun .hold s else s
  | 3, .stop => if holdAllowed s then setMode .hold s else s
  | _, _ => s

/-- The release epoch of a standby whose change acts at an instant: the active's, on this side's base (R125, R248). -/
def epochOfActive (due : Nat) (s : State) : Int := epochAfter ((due : Int) - pairOffset s).toNat + pairOffset s

/-- A mode change due at an instant takes effect: a pair's at its COMMAND_AT, once acknowledged or with the partner silent; any other at the
instant its request waits for. -/
def modeChange (at_ : Nat) (s : State) : State :=
  match s.pair.cmd, s.pair.accepted, s.cyc.pendingReq with
  | some c, _, _ =>
    if c.kind = 1 ∧ c.due ≤ at_ ∧ (c.acked || s.pair.silent) then
      applyMode c.arg (epochAfter s.mono) (onPair (fun p => { p with cmd := none }) s)
    else s
  | none, some c, _ =>
    if c.kind = 1 ∧ c.due ≤ at_ + trackNs then
      applyMode c.arg (epochOfActive c.due s) (onPair (fun p => { p with accepted := none }) s)
    else s
  | none, none, some r =>
    if (r.byPair && !s.pair.silent) || decide (at_ < r.due) then s else applyMode r.code (epochAfter s.mono) s
  | none, none, none => s

/-! ### Release (R125, R127, R145, R148) -/

/-- Task `n` is released at an instant with release index `m`. -/
def taskRelease (n m at_ : Nat) (s : State) : State :=
  let l := localValues s n
  onTask n (fun t => { t with cycleAt := some at_, cycleM := m, started := false, skipped := 0, latched := l }) s

/-- A release that falls while the previous cycle runs: skipped, or at level 1 held or lost.
DEDUCED (assumption 73). -/
def taskOverrun (n m : Nat) (s : State) : State :=
  let s := onCyc (fun c => { c with flags := flag 0 c.flags }) s
  if s.sys.level = 1 then
    onTask n (fun t => match t.held with
      | none => { t with held := some m }
      | some _ => { t with overruns := satInc 32 t.overruns }) s
  else
    let s := onTask n (fun t =>
      { t with overruns := satInc 32 t.overruns, skipped := t.skipped + 1
               firstSkip := if t.skipped = 0 then m else t.firstSkip }) s
    if !(taskAt s n).mirrored then s
    else if s.sys.role == .active then hoistSkip n m s
    else if s.sys.role == .standby then onHoist (fun h => { h with ownSkips := h.ownSkips ++ [(n, m)] }) s
    else s

/-- The release of an instant: skipped with the active (R274), an overrun, or a release. -/
def instantReleases (n m at_ : Nat) (s : State) : State :=
  if s.hoist.skipNext.contains (n, m) then
    onHoist (fun h => { h with skipNext := h.skipNext.filter (· != (n, m)) }) s
  else if (taskAt s n).cycleAt.isSome then taskOverrun n m s
  else taskRelease n m at_ s

/-- The boundary of CYC_COMMIT (R153): the committed limits apply to every task. -/
def cycBoundary (s : State) : State :=
  if s.cyc.commit.pending then
    onCyc (fun c =>
      { c with
        commit := { c.commit with pending := false }
        tasks := c.tasks.mapIdx fun n t => { t with escalate := c.escCopied.getD n 0 } }) s
  else s

/-- What a release instant of T0 brings about by itself: commits, a network-time step, and what is due in the pair. -/
def instantOfT0 (s : State) : State := pairAtT0 (timeStep (sigBoundary (cycBoundary s)))

/-- The entries in the stale phase. -/
def staleList (s : State) : List Nat := (s.sig.entries.filter fun p => p.2.stale).map (·.1)

/-- The checks of the sources that a task paces, and the stale steps of entries that were absent before (R192, R297, R316, R343). -/
def sourceInstant (n : Nat) (s : State) : State :=
  let before := staleList s
  let s := canTimeouts n (stationChecks n s)
  let fresh := (staleList s).filter fun i => !before.contains i
  writeTimeEntries n (staleTick n fresh s)

/-- The boundary of RING_COMMIT is a release instant of the selected station's task (R304). -/
def ringAtInstant (n : Nat) (s : State) : State :=
  if (stationOf s s.ring.copied.station).any fun x => x.task == n then ringBoundary s else s

/-- The next release instant of a task (R125). -/
def nextRelease (s : State) (n : Nat) : Nat := releaseAt s n (taskAt s n).nextM

/-- Whether a task has release instants in the present mode: RUN, STOP or HOLD, on a module that runs a process program (R19, R125). -/
def hasInstants (s : State) (n : Nat) : Bool :=
  taskRuns s n && (s.sys.mode == .run || s.sys.mode == .stop || s.sys.mode == .hold) && s.pwr.hbr == .none

/-- Whether the release instant of task `k` comes before that of task `n`: at an earlier instant, or at the same one with a higher priority
(R126). -/
def comesFirst (s : State) (k n : Nat) : Bool :=
  decide (nextRelease s k < nextRelease s n) || (nextRelease s k == nextRelease s n && decide (k < n))

/-- Whether the next release instant of a task has arrived and is the first of those that have (R125, R126). -/
def instantArrives (s : State) (n : Nat) : Bool :=
  hasInstants s n && decide (nextRelease s n ≤ s.mono)
    && (List.range 8).all fun k => !(hasInstants s k && comesFirst s k n)

/-- What a release instant of a task brings about, in RUN, STOP or HOLD. DEDUCED (assumption 74). -/
def releaseActs (n at_ : Nat) (s : State) : State :=
  let m := (taskAt s n).nextM
  let s := onTask n (fun t => { t with nextM := m + 1 }) s
  let s := if n = 0 then instantOfT0 s else s
  let s := if n = s.hoist.pacing then hoistWindow s else s
  let s := sourceInstant n (ringAtInstant n (gatherCheck n s))
  let s := if s.sys.mode == .run then instantReleases n m at_ s else s
  let s := outputsAtRelease n m s
  if s.sys.mode == .hold then canHoldInstant n m s else s

/-- A release instant arrives: a mode change due at it comes first (R137); where it sets a new epoch, the instant is none any more.
DEDUCED (assumption 74). -/
def releaseInstant (n : Nat) (s : State) : State :=
  if instantArrives s n then
    let at_ := nextRelease s n
    let s := modeChange at_ s
    if hasInstants s n && nextRelease s n == at_ then releaseActs n at_ s else s
  else s

/-- RELEASE_INSTANT (R125). -/
def execReleaseInstant (n : Nat) (s : State) : Out := answer (settle s (releaseInstant n s))

/-- CORE_WAKE (R32): the cycle timer wakes the execution domain ahead of a release. -/
def execCoreWake (s : State) : Out :=
  answer (if railsOn s then settle s (onSys (fun y => { y with coreAwake := true }) s) else s)

/-- CLOCK_GATE (R31): 10 µs after the last release of a clock. -/
def execClockGate (c : Clock) (s : State) : Out := answer (gateClock c s)

/-- SYS_CLKHOLD_WRITE (R29): by a reader that has passed the check of R27 or R481. -/
def execSysClkholdWrite (v : Word) (s : State) : Out := answer (writeClkHold v s)

/-! ### Start and freeze (R127, R263) -/

/-- What a task freezes for an entry, words 0 and 1 (R190): the forced value (R143), the mirror image in a pair, its latched channel value, else the live
entry. -/
def frozen (s : State) (n i : Nat) : Datum × Datum :=
  let e := sigEntry s i
  let live := e.copied (e.value, e.quality)
  let pair := s.sys.role == .active || s.sys.role == .standby
  if e.forced then live
  else if pair && s.hoist.mirror.contains i then (look i s.hoist.image).getD live
  else (look i (taskAt s n).latched).getD live

/-- Whether a higher task keeps task `n` from running: it has a cycle in progress, or a release that has come (R126). -/
def heldBack (s : State) (n : Nat) : Bool :=
  (List.range n).any fun k => (taskAt s k).cycleAt.isSome
    || (s.sys.mode == .run && hasInstants s k && decide (nextRelease s k ≤ s.mono))

/-- Where the words lie from which a task freezes an entry: the mirror image, none for a latched channel value, else the live entry (R181,
R263). -/
def freezesFrom (s : State) (n i : Nat) : Option Nat :=
  let pair := s.sys.role == .active || s.sys.role == .standby
  if (sigEntry s i).forced then some (sigTableAt + 32 * i)
  else if pair && s.hoist.mirror.contains i && (look i s.hoist.image).isSome then
    some (snapshotAt + 16 * (snapshotsBefore s 8 + s.hoist.mirror.idxOf i))
  else if (look i (taskAt s n).latched).isSome then none
  else some (sigTableAt + 32 * i)

/-- The words of a freeze that are in error or were found uncorrectable (R106). -/
def freezeErrors (s : State) (n : Nat) : List Place :=
  (((taskAt s n).reads.filterMap (freezesFrom s n)).flatMap fun a => [placeOf s a, placeOf s (a + 8)]).filter fun p =>
    s.mem.found.contains p || !(errAt s p).isEmpty

/-- The words of a task's snapshot are stored. -/
def touchSnapshot (n : Nat) (s : State) : State :=
  forAll (List.range (2 * (taskAt s n).reads.length)) (fun k t => recode (snapshotAt + 16 * snapshotsBefore t n + 8 * k) true t) s

/-- A released task starts, once no higher task and no switch holds it back (R126, R127, R172): what the hoists brought for its instances is
written, after a takeover too (R272), and its snapshot is frozen (R190). An
uncorrectable word that the copy reads traps the cores (R106). -/
def taskStart (n : Nat) (s : State) : State :=
  match (taskAt s n).cycleAt with
  | none => s
  | some t0 =>
    if (taskAt s n).started || heldBack s n || switchHolds s then s
    else
      let s := applyMemDue n s
      if s.sys.mode = .halted then s
      else match blockRead .cpu (freezeErrors s n) s with
      | (some p, s) => coresHalt 1 n (ueFound .cpu p s)
      | (none, s) =>
        let snap := (taskAt s n).reads.map fun i => (i, frozen s n i)
        let s := onTask n (fun t =>
          { t with
            started := true
            snapshot := snap
            startLate := max t.startLate ((s.mono - t0) / 1000)
            runGen := s.olc.gen
            wasStale := s.sys.stale || t.firstCycle
            firstCycle := false }) (touchSnapshot n s)
        unpackHeld n s

/-- TASK_START (R127). -/
def execTaskStart (n : Nat) (s : State) : Out := answer (settle s (taskStart n s))

/-! ### Write point (R128, R145, R146, R250) -/

/-- The bytes an output digest covers (R250): each posted value and its quality. DEDUCED (assumption 77). -/
def digestBytes (l : List (Nat × (Datum × Byte))) : List Byte := l.flatMap fun x => leBytes 8 x.2.1.toNat ++ [x.2.2]

/-- One entry of the write set is posted (R128, R186). -/
def postEntry (x : Nat × (Datum × Byte)) (s : State) : State :=
  let (q, s) := admitQuality x.2.2 s
  writeEntry x.1 x.2.1 q s

/-- What the hoist takes from a write point (R264, R265, R250): the active hands over and its pacing task closes the hoist; the
standby keeps its digest for the comparison. -/
def hoistAtWritePoint (n m digest : Nat) (items : List HItem) (s : State) : State :=
  let t := taskAt s n
  let s :=
    if t.mirrored && s.sys.role == .active then
      hoistGather n items (releaseAt s n t.nextM) (hoistCycle n m digest s)
    else if t.mirrored && s.sys.role == .standby then
      compareCycles (onHoist (fun h =>
        { h with ran := (h.ran.filter fun r => r.task != n || decide (m < r.m + 8))
            ++ [{ task := n, m := m, gen := t.runGen, fit := !t.wasStale, digest := digest }] }) s)
    else s
  if n = s.hoist.pacing then hoistClose s else s

/-- The cycle's figures (R145, R146, R160): response time, overrun record and consecutive count. -/
def cycleEnds (n t0 : Nat) (s : State) : State :=
  let us := min ((s.mono - t0) / 1000) (satMax 32)
  let k := (taskAt s n).skipped
  let s := onTask n (fun t =>
    { t with
      cycleAt := none, started := false, skipped := 0
      cycles := satInc 32 t.cycles
      runLast := us
      runMax := max t.runMax us
      consec := if k = 0 then 0 else min (t.consec + 1) 255
      sinceB := t.sinceB || (s.olc.phase == .switched && t.runGen == s.olc.gen) }) s
  if k = 0 then s else raise .taskOverrun .notice n n k us s

/-- A release held at level 1 takes place as soon as the cycle has ended (R148). -/
def releaseHeld (n : Nat) (s : State) : State :=
  match (taskAt s n).held with
  | none => s
  | some m => if s.sys.mode == .run then taskRelease n m s.mono (onTask n (fun t => { t with held := none }) s)
              else onTask n (fun t => { t with held := none }) s

/-- Between cycles the execution domain of the cores is gated (R32). -/
def coresIdle (s : State) : State :=
  if s.cyc.tasks.any fun t => t.cycleAt.isSome then s else onSys (fun y => { y with coreAwake := false }) s

/-- The longest response time at behaviour level 2, in ns (R147). -/
def Task.backstop (t : Task) : Nat := min (10 * t.period * 1000000) (2 * nsPerSec)

/-- Whether a task's cycle has passed the backstop (R147), or at level 1 has come to the limit of the cycle watchdog (R148). -/
def cycleExpired (s : State) (n : Nat) : Bool :=
  let t := taskAt s n
  t.cycleAt.any fun r =>
    if s.sys.level = 1 then decide (r + (t.period + t.wdMargin) * 1000000 ≤ s.mono) else decide (r + t.backstop < s.mono)

/-- Whether a release instant lies behind that has not been acted on: no cycle reaches its write point before it. -/
def instantMissed (s : State) : Bool := (List.range 8).any fun k => hasInstants s k && decide (nextRelease s k < s.mono)

/-- The slots of a task's image with what its blocks assigned in the cycle (R128). -/
def assign (assigned slots : List (Nat × (Datum × Byte))) : List (Nat × (Datum × Byte)) :=
  slots.map fun x => (x.1, (assigned.findSome? fun y => if y.1 = x.1 then some y.2 else none).getD x.2)

/-- A block's store into its instance in a cycle of task `n`: from then on the instance is the task's, and its first run is over
(R174, R272). DESIGN CHOICE (assumption 252). -/
def storeInstance (n : Nat) (x : Nat × Nat × List Byte) (s : State) : State :=
  onCyc (fun c => { c with instances := c.instances.map fun i =>
    if i.id = x.1 then { i with task := some n, first := false, edgeZero := false } else i }) (putInstance n x.1 x.2.1 x.2.2 s)

/-- A task's write set is posted, and what depends on it follows. A consecutive count at the limit halts, and so does one that stood at or above
a limit lowered since (R146, R153). -/
def taskPosts (n m t0 before : Nat) (posts : List (Nat × (Datum × Byte))) (items : List HItem) (keyOk : Bool) (s : State) : State :=
  let digest := crc32c (digestBytes posts)
  let s := onTask n (fun t => { t with slots := posts }) s
  let s := onCyc (fun c => { c with posted := posts.foldl (fun l x => put x.1 x.2 l) c.posted }) s
  let s := forAll posts postEntry s
  let s := onPair (fun p => { p with tasks := p.tasks.modify n fun x => { x with digest := digest } }) s
  let s := canWritePoint n m (outputsAtWritePoint n m s)
  let s := cycleEnds n t0 s
  let s := hoistAtWritePoint n m digest items s
  let s := if s.olc.phase == .switched && olcProved s then olcConfirm keyOk s else s
  let t := taskAt s n
  if s.sys.level ≠ 1 ∧ t.escalate ≠ 0 ∧ t.escalate ≤ max before t.consec then haltNow 6 n s
  else coresIdle (releaseHeld n s)

/-- A task reaches its write point: what its blocks stored goes into its instances, which a word that traps the cores ends (R106), and its write
set is posted. A preempted task, and one whose cycle has passed its limit,
reaches none (R126, R147, R148). DESIGN CHOICE (assumption 78). -/
def taskWritePoint (w : WritePoint) (s : State) : State :=
  let n := w.task
  let t := taskAt s n
  match t.cycleAt with
  | none => s
  | some t0 =>
    if !t.started || heldBack s n || instantMissed s || cycleExpired s n then s
    else
      let m := t.cycleM
      let posts := assign w.slots t.slots
      let items := (w.stores.flatMap fun x => touched s x.1 x.2.1 x.2.2.length).eraseDups
      let s := forAll w.stores (storeInstance n) s
      if s.sys.mode = .halted then s else taskPosts n m t0 t.consec posts items w.keyOk s

/-- TASK_WRITE_POINT (R128). -/
def execTaskWritePoint (w : WritePoint) (s : State) : Out := answer (settle s (taskWritePoint w s))

/-! ### Halts of a cycle (R139, R147, R148) -/

/-- LOCKSTEP (R139). -/
def execLockstep (s : State) : Out := answer (settle s (coresHalt 3 0xFF s))

/-- TRAP (R139): in block code of a task, or 0xFF. -/
def execTrap (task : Nat) (s : State) : Out := answer (settle s (coresHalt 4 task s))

/-- BACKSTOP (R147): a cycle runs past 10 × PERIOD or 2 s; not at level 1. -/
def execBackstop (n : Nat) (s : State) : Out :=
  answer (if cycleExpired s n ∧ s.sys.level ≠ 1 then settle s (coresHalt 5 n s) else s)

/-- WATCHDOG (R148): at level 1 a cycle misses PERIOD + WD_MARGIN. -/
def execWatchdog (n : Nat) (s : State) : Out :=
  answer (if cycleExpired s n ∧ s.sys.level = 1 then settle s (coresHalt 7 n s) else s)

/-! ### Mode requests (R135, R136, R138) -/

/-- A requester as MODE_REFUSED carries it (R136). -/
def requesterCode : Reader → Nat
  | .sdk => 1
  | .plant => 2

/-- A refused request: flag and record (R136). -/
def modeRefuse (code cause : Nat) (r : Reader) (s : State) : State :=
  raise .modeRefused .notice 0xFF code s.sys.mode.code (requesterCode r + 256 * cause)
    (onCyc (fun c => { c with flags := flag (if cause = 3 then 2 else 1) c.flags }) s)

/-- The cause of refusal of a request code, or 0. -/
def modeCause (code : Nat) (s : State) : Nat :=
  let m := s.sys.mode
  if s.cyc.pendingReq.isSome || (s.pair.cmd.any (·.kind != 2) && (code == 1 || code == 2)) then 3
  else match code with
    | 1 => if m != .stop && m != .hold then 1 else if s.cyc.configError then 2 else 0
    | 2 => if m == .run || m == .hold then 0 else 1
    | 3 => if m != .stop && m != .run then 1 else if s.cyc.configError then 2 else if holdAllowed s then 0 else 1
    | 4 => if m == .stop || m == .halted then 0 else 1
    | _ => 4

/-- An accepted request is pending; in a pair with pennants it is announced (R138). STOP and HOLD wait for the next release instant of T0,
RUN for none (R137). A change before its switch ends (R176). -/
def modeAccept (code : Nat) (r : Reader) (s : State) : State :=
  let both := (code == 1 || code == 2) && (s.sys.role == .active || s.sys.role == .standby) && !s.pair.silent
    && s.pair.partner.isSome
  let s := olcAbandon olcAbandoned s
  let due := if code = 1 then s.mono else nextT0 s
  let s := onCyc (fun c => { c with pendingReq := some { code := code, sdk := r == .sdk, byPair := both, due := due } }) s
  if both && s.sys.role == .active then startCommand 1 code 0 2000000 s else s

/-- A request for RUN, STOP or HOLD. DEDUCED (assumption 71). -/
def modeRequest (code : Nat) (r : Reader) (s : State) : State :=
  match modeCause code s with
  | 0 => modeAccept code r s
  | cause => modeRefuse code cause r s

/-- MODE_REQ_RUN (R135). -/
def execModeReqRun (r : Reader) (s : State) : Out := answer (modeRequest 1 r s)

/-- MODE_REQ_STOP (R135). -/
def execModeReqStop (r : Reader) (s : State) : Out := answer (modeRequest 2 r s)

/-- MODE_REQ_HOLD (R135). -/
def execModeReqHold (r : Reader) (s : State) : Out := answer (modeRequest 3 r s)

/-- MODE_REQ_UNDEFINED (R156): code 0 or 5 to 15. -/
def execModeReqUndefined (code : Nat) (r : Reader) (s : State) : Out :=
  answer (if code = 0 ∨ 5 ≤ code then modeRefuse code (if s.cyc.pendingReq.isSome then 3 else 4) r s else s)

/-- MODE_CHANGE (R137). -/
def execModeChange (s : State) : Out := answer (settle s (modeChange s.mono s))

/-- MODE_DRAIN_COMPLETE (R137): every task has reached its write point. -/
def execModeDrainComplete (s : State) : Out :=
  answer (if cyclesRun s then s else settle s (onCyc (fun c => { c with draining := false }) s))

/-! ### Forcing (R142 to R144, R159) -/

/-- Whether forcing is permitted in the present role (R142). -/
def forcePermitted (s : State) : Bool :=
  match s.sys.role with
  | .solo => (hdr s).flags.testBit 2
  | .active | .standby => (hdr s).flags.testBit 3
  | _ => false

/-- SET: the selected entry is to be forced at the next boundary, or the force is refused. -/
def forceSet (s : State) : State :=
  let i := s.cyc.forceSel
  let known := (look i s.cyc.forces).isSome
  if forcePermitted s && i != 0 && sigDefined s i && (known || decide (s.cyc.forces.length < 256)) then
    forceWaits (.put i s.cyc.forceVal) s
  else onCyc (fun c => { c with flags := flag 3 c.flags }) s

/-- FORCE_SET (R142, R159). -/
def execForceSet (s : State) : Out := answer (forceSet s)

/-- FORCE_RELEASE (R159). -/
def execForceRelease (s : State) : Out :=
  answer (forceWaits (.release s.cyc.forceSel) s)

/-- FORCE_RELEASE_ALL (R159). -/
def execForceReleaseAll (s : State) : Out := answer (forceWaits .releaseAll s)

/-- A force takes effect, or the value of one changes (R143, R144). DEDUCED (assumption 75). -/
def forcePut (i : Nat) (v : Datum) (s : State) : State :=
  match look i s.cyc.forces with
  | some f =>
    if f.value = v then s
    else
      let s := onCyc (fun c => { c with forces := change i (fun f => { f with value := v }) c.forces }) s
      raise .forceSet .notice 0xFF i (v.toNat % 2 ^ 32) 0 (deliver i (onEntry i (fun e => { e with value := v }) (touchEntry i s)))
  | none =>
    if !sigDefined s i then s
    else if 256 ≤ s.cyc.forces.length then onCyc (fun c => { c with flags := flag 3 c.flags }) s
    else
      let e := sigEntry s i
      let s := onCyc (fun c => { c with forces := put i { value := v, aside := (e.value, e.quality) } c.forces }) s
      raise .forceSet .notice 0xFF i (v.toNat % 2 ^ 32) 0
        (deliver i (onEntry i (fun e => { e with value := v, quality := qForced, forced := true }) (touchEntry i s)))

/-- A release takes effect: the entry takes what was set aside (R143). -/
def forceFree (i : Nat) (s : State) : State :=
  match look i s.cyc.forces with
  | none => s
  | some f =>
    let s := onCyc (fun c => { c with forces := del i c.forces }) s
    let s := onEntry i (fun e =>
      let e := { e with forced := false }
      { e with value := f.aside.1, quality := storedQuality e f.aside.2 }) (touchEntry i s)
    raise .forceReleased .notice 0xFF i (f.value.toNat % 2 ^ 32) 0 (deliver i s)

/-- One waiting force or release at the boundary. -/
def forceOp (o : ForceOp) (s : State) : State :=
  match o with
  | .put i v => forcePut i v s
  | .release i => forceFree i s
  | .releaseAll => forAll (s.cyc.forces.map (·.1)) forceFree s
  | .only keep => forAll ((s.cyc.forces.map (·.1)).filter fun i => !keep.contains i) forceFree s

/-- A 100 µs boundary: what waits for it takes effect in its order; what was written after it waits for the next (R143). -/
def forceEffect (s : State) : State :=
  let due := fun (o : Nat × ForceOp) => decide (o.1 ≤ s.mono)
  let ops := (s.cyc.forceOps.filter due).map (·.2)
  let old := s.cyc.forces
  let s := forAll ops forceOp (onCyc (fun c => { c with forceOps := c.forceOps.filter fun o => !due o }) s)
  if s.cyc.forces = old then s else onHoist (fun h => { h with forcesNew := true }) s

/-- FORCE_EFFECT (R143). -/
def execForceEffect (s : State) : Out := answer (settle s (forceEffect s))

/-! ### Calls of native blocks (R136, R151) -/

/-- What a call returns: 0 OK, 1 ACCESS_ALIGN, 2 ACCESS_OWNER, 3 MODE_REFUSED, 4 MODE_BUSY. -/
def sdkReturns (native code : Nat) (l : List Byte) (s : State) : State := send .sdk native code l s

/-- ACCESS_OWNER: counted and flagged (R151). -/
def sdkRefused (native : Nat) (s : State) : State :=
  sdkReturns native 2 [] (onCyc (fun c => { c with refusals := satInc 32 c.refusals, flags := flag 4 c.flags }) s)

/-- The native entry of an index. -/
def nativeAt (s : State) (n : Nat) : Native := s.cyc.natives.getD n { typ := 0, windows := 0, write := 0, banks := 0 }

/-- Access to rows of a bank that the block owns; rows of B10 are refused (R199), and so are rows beyond the last of the bank. A call for no
rows is granted. DESIGN CHOICE (assumption 245). -/
def sdkBufMap (native bank row count : Nat) (s : State) : State :=
  if (nativeAt s native).banks.testBit bank && bank != 10 && (bankAt s bank).owner == .cpu && decide (row + count ≤ 1024) then
    sdkReturns native 0 []
      (onCyc (fun c => { c with maps := c.maps ++ [{ native := native, bank := bank, row := row, count := count }] }) s)
  else sdkRefused native s

/-- SDK_BUF_MAP (R151). -/
def execSdkBufMap (native bank row count : Nat) (s : State) : Out := answer (sdkBufMap native bank row count s)

/-- A block requests STOP: OK, MODE_REFUSED or MODE_BUSY. -/
def sdkRequestStop (native : Nat) (s : State) : State :=
  let code := match modeCause 2 s with
    | 0 => 0
    | 3 => 4
    | _ => 3
  sdkReturns native code [] (modeRequest 2 .sdk s)

/-- SDK_REQUEST_STOP (R136, R151). -/
def execSdkRequestStop (native : Nat) (s : State) : Out := answer (sdkRequestStop native s)

/-- SDK_MONO (R151): the 64-bit value whole. -/
def execSdkMono (native : Nat) (s : State) : Out := answer (sdkReturns native 0 (leBytes 8 s.mono) s)

end Sys2Proof.Machine
end

