-- ==== Sys2Proof/Machine/Fold.lean ====
section
/-! DEFINITION. Folding weak rows and banks at a start (02_burgee_and_start.md R49; 04_memory.md R108 to R111). -/

namespace Sys2Proof.Machine

/-- The folding of a start: banks by physical number, the bank that B16 replaces, whether spares are exhausted, and the entries that
the pattern test adds to the weak-row record. -/
structure Folding where
  banks  : List Bank
  folded : Option Nat := none
  full   : Bool := false
  added  : List WeakEntry := []

/-- The lowest spare row of a bank that is neither in use nor marked. -/
def freeSpare (b : Bank) : Option Nat :=
  (List.range 64).find? fun i => !(b.marked.contains i) && !(b.folds.any fun f => f.2 == i)

/-- The whole of a bank is folded into B16, where B16 is free and is not the bank itself (R111). -/
def foldBank (n : Nat) (x : Folding) : Folding :=
  if n = 16 then { x with full := true }
  else if x.folded = some n then x
  else if x.folded.isSome then { x with full := true }
  else { x with folded := some n }

/-- A row takes the next free spare of its bank, or its bank is folded (R110). -/
def takeSpare (n row : Nat) (x : Folding) : Folding :=
  match freeSpare (x.banks.getD n {}) with
  | some i => { x with banks := x.banks.modify n fun b => { b with folds := put row i b.folds } }
  | none => foldBank n x

/-- A row of the record, or one that failed the pattern test, is folded. -/
def foldRow (n row : Nat) (x : Folding) : Folding :=
  if ((x.banks.getD n {}).folds.any fun f => f.1 == row) then x else takeSpare n row x

/-- A spare row is marked; the row it replaces takes the next free one (R110). -/
def markSpare (n i : Nat) (x : Folding) : Folding :=
  let rows := ((x.banks.getD n {}).folds.filter fun f => f.2 == i).map (·.1)
  let x := { x with banks := x.banks.modify n fun b =>
    { b with marked := i :: b.marked.filter (· != i), folds := b.folds.filter fun f => f.2 != i } }
  rows.foldl (fun y r => takeSpare n r y) x

/-- One place of a bank is taken out of use: a row, or a spare row s given as 1,024 + s. -/
def foldPlace (n row : Nat) (x : Folding) : Folding :=
  if row < 1024 then foldRow n row x else markSpare n (row - 1024) x

/-- A place that fails the pattern test: it is added to the record, a spare row only where it is in use (R108, R110). -/
def foldFailed (power : Nat) (x : Folding) (p : Nat × Nat) : Folding :=
  let used := p.2 < 1024 || ((x.banks.getD p.1 {}).folds.any fun f => f.2 + 1024 == p.2)
  let w : WeakEntry := { bank := p.1, row := p.2, trigger := if p.2 < 1024 then 4 else 5, power := power, fold := 0xFF }
  foldPlace p.1 p.2 (if used then { x with added := x.added ++ [w] } else x)

/-- The record's entries in their order, then the failures of the pattern test (R110). DEDUCED (assumption 40). -/
def foldAll (weak : List WeakEntry) (power : Nat) (fails : List (Nat × Nat)) : Folding :=
  let x : Folding := { banks := List.replicate 17 {} }
  fails.foldl (foldFailed power) (weak.foldl (fun y w => foldPlace w.bank w.row y) x)

/-- FOLD of an entry (R109). -/
def foldByte (x : Folding) (w : WeakEntry) : WeakEntry :=
  if x.folded = some w.bank then { w with fold := 0x40 }
  else
    match look w.row (x.banks.getD w.bank {}).folds with
    | some i => { w with fold := i }
    | none => w

/-- The folds in force as BANK_FOLDED carries them: bank, row and spare, or the whole of a bank (R110). -/
def foldsOf (x : Folding) : List (Nat × Nat × Nat) :=
  ((List.range 17).flatMap fun n =>
    if x.folded = some n then [] else (x.banks.getD n {}).folds.map fun f => (n, f.1, f.2))
  ++ (match x.folded with
    | some n => [(n, 0xFFFFFFFF, 16)]
    | none => [])

/-- Spare rows of a bank that are in use. -/
def sparesUsed (b : Bank) : Nat := b.folds.length

/-- SPARE_LOW of the banks with 48 or more spare rows in use, the bank that B16 replaces among them (R110). -/
def tellSpares (s : State) : State :=
  forAll ((List.range 17).filter fun n => decide (48 ≤ sparesUsed (bankAt s n))) (fun n t =>
    raise .spareLow .notice n n (sparesUsed (bankAt t n)) 0 (onMem (fun m => { m with flags := flag 4 m.flags }) t)) s

/-- The folds are put in force; the replaced bank is powered off, and every bank reads zero after the test (R49, R110, R111). -/
def applyFolding (x : Folding) (s : State) : State :=
  let news := (foldsOf x).filter fun f => !s.mem.prevFolds.contains f
  let s := onMem (fun m =>
    { m with
      banks := x.banks.mapIdx fun n b => { b with owner := .test, powered := x.folded != some n }
      folded := x.folded, prevFolds := foldsOf x, cells := [], errs := [], backs := [], found := []
      weak := (weakAdd m.weak x.added).map (foldByte x), weakNew := m.weakNew + x.added.length }) s
  tellSpares (forAll news (fun f t => raise .bankFolded .notice f.1 f.1 f.2.1 f.2.2 t) s)

end Sys2Proof.Machine
end

