-- ==== Sys2Proof/Machine/Safety.lean ====
section
/-! DEFINITION. The safety function: inputs, test pulses, resets, brake functions and the brake test (16_safety.md R413 to
R440). Both paths are evaluated at one tick, each by itself: its own filtered states, checks, pairs, edges and function states. What the module
records and counts, and what the SAFE window shows, is the chip path's. DEDUCED (assumption 180). -/

namespace Sys2Proof.Machine

/-! ### Access -/

def siAt (s : State) (n : Nat) : SiCh := s.safe.ch.getD n {}
def sPair (s : State) (p : Nat) : SiPair := s.safe.pairs.getD p {}
def sFunc (s : State) (f : Nat) : SafeFunc := s.safe.funcs.getD f {}

def onSi (n : Nat) (f : SiCh → SiCh) (s : State) : State := onSafe (fun x => { x with ch := x.ch.modify n f }) s
def onSPair (p : Nat) (f : SiPair → SiPair) (s : State) : State := onSafe (fun x => { x with pairs := x.pairs.modify p f }) s
def onSFunc (n : Nat) (f : SafeFunc → SafeFunc) (s : State) : State := onSafe (fun x => { x with funcs := x.funcs.modify n f }) s

/-- Whether a function names a pair (R434). -/
def SafeFunc.names (f : SafeFunc) (p : Nat) : Bool := f.pairs.testBit p

/-- Whether an SI pair has two channels that are compared (R416). -/
def SiPair.two (p : SiPair) : Bool := p.mode == .equivalent || p.mode == .antivalent

/-- A channel as one path sees it (R413). -/
def SiCh.on (c : SiCh) : SafePath → SiSeen
  | .chip => c.chip
  | .supervisor => c.sup

def SiCh.upd (q : SafePath) (f : SiSeen → SiSeen) (c : SiCh) : SiCh :=
  match q with
  | .chip => { c with chip := f c.chip }
  | .supervisor => { c with sup := f c.sup }

def SiPair.upd (q : SafePath) (f : PairSeen → PairSeen) (p : SiPair) : SiPair :=
  match q with
  | .chip => { p with chip := f p.chip }
  | .supervisor => { p with sup := f p.sup }

/-- The state of a function on one path. -/
def SafeFunc.on (f : SafeFunc) : SafePath → FuncState
  | .chip => f.st
  | .supervisor => f.supSt

/-- The two paths, the chip path first. -/
def bothPaths : List SafePath := [.chip, .supervisor]

/-! ### Pairs (R416, R417) -/

/-- Whether two filtered channels disagree. DEDUCED (assumption 181). -/
def disagree (m : PairMode) (a b : Bool) : Bool :=
  match m with
  | .equivalent => a != b
  | .antivalent => a == b
  | _ => false

/-- The combined state of two filtered channels. -/
def combine (m : PairMode) (a b : Bool) : Bool :=
  match m with
  | .equivalent => a && b
  | .antivalent => a && !b
  | _ => false

/-- The combined state that a path finds; a standing DISCREPANCY forces 0. -/
def pairCombined (s : State) (q : SafePath) (p : Nat) : Bool :=
  let x := sPair s p
  !(x.on q).faults.discrepancy && combine x.mode ((siAt s (2 * p)).on q).filt ((siAt s (2 * p + 1)).on q).filt

/-- The faults of one set and of another. -/
def PairFaults.join (a b : PairFaults) : PairFaults :=
  { discrepancy := a.discrepancy || b.discrepancy, tpFault := a.tpFault || b.tpFault, cross := a.cross || b.cross
    over0 := a.over0 || b.over0, over1 := a.over1 || b.over1 }

/-- Faults latch on a path; SEEN_BOTH_0 counts from them, and a DISCREPANCY that the chip path latches is counted (R436). -/
def latchPair (q : SafePath) (p : Nat) (new : PairFaults) (s : State) : State :=
  let x := (sPair s p).on q
  let all := x.faults.join new
  if all = x.faults then s
  else
    let s := if q = .chip && new.discrepancy && !x.faults.discrepancy then onSafe (fun y => { y with discs := satInc 32 y.discs }) s else s
    onSPair p (SiPair.upd q fun x => { x with faults := all, news := x.news.join new, seenBoth0 := false }) s

/-- A pair at a path's tick: the count, DISCREPANCY and SEEN_BOTH_0. -/
def pathPairTick (q : SafePath) (p : Nat) (s : State) : State :=
  let x := sPair s p
  let a := ((siAt s (2 * p)).on q).filt
  let b := ((siAt s (2 * p + 1)).on q).filt
  let n := if s.safe.resumed && !fDead s && x.two && disagree x.mode a b then min ((x.on q).count + 1) 4095 else 0
  let s := onSPair p (SiPair.upd q fun y => { y with count := n }) s
  let s := if n ≠ 0 ∧ x.disc ≤ n then latchPair q p { discrepancy := true } s else s
  onSPair p (SiPair.upd q fun y => { y with seenBoth0 := y.faults.any && (y.seenBoth0 || (!a && !b)) }) s

/-- A pair at a tick of both paths. -/
def pairTick (p : Nat) (s : State) : State := forAll bothPaths (fun q t => pathPairTick q p t) s

/-- The combined state of a pair is taken on both paths. -/
def pairCombines (p : Nat) (s : State) : State :=
  forAll bothPaths (fun q t => onSPair p (SiPair.upd q fun y => { y with combined := pairCombined t q p }) t) s

/-! ### Functions: causes and faults (R420, R427) -/

/-- Whether a named pair is at 0 (R439). -/
def namedLow (s : State) (f : SafeFunc) : Bool := (List.range 4).any fun p => f.names p && !(sPair s p).chip.combined

/-- A named pair at 0, other than the 0 that a standing DISCREPANCY forces, as a path evaluates it. -/
def pairDemand (s : State) (f : SafeFunc) (q : SafePath := .chip) : Bool :=
  (List.range 4).any fun p => f.names p && !((sPair s p).on q).faults.discrepancy && !((sPair s p).on q).combined

/-- The faults that reach a function on a path, one bit each: for pair p and code c from 1 to 4 bit 4 × p + c − 1, for code c from 5 to 9 bit
11 + c. -/
def faultBits (s : State) (f : SafeFunc) (q : SafePath := .chip) : Nat :=
  let ofPair := fun p =>
    let x := ((sPair s p).on q).faults
    if f.names p then
      2 ^ (4 * p) * (bit x.discrepancy + 2 * bit x.tpFault + 4 * bit x.cross + 8 * bit x.overload)
    else 0
  ((List.range 4).map ofPair).sum
    + 2 ^ 16 * (bit f.openLoad + 2 * bit f.overNow + 4 * bit f.stuck + 8 * bit s.safe.path + 16 * bit f.btFailed)

/-- The code of a fault bit (R427). -/
def faultCode (k : Nat) : Nat := if k < 16 then k % 4 + 1 else k - 11

/-- Fault bits but BRAKE_TEST_FAILED. -/
def otherFaults (w : Nat) : Nat := w % 2 ^ 20

/-- The set bits of a number below 21, ascending. -/
def bitsOf (w : Nat) : List Nat := (List.range 21).filter fun k => w.testBit k

/-- Records of the faults with codes 1 to 7 that are new to a function. -/
def tellFaults (n : Nat) (s : State) : State :=
  let f := sFunc s n
  let now := faultBits s f
  let s := forAll ((bitsOf now).filter fun k => !f.told.testBit k && decide (faultCode k ≤ 7))
    (fun k t => raise .safetyFault .fault n (faultCode k) 0 0 t) s
  onSFunc n (fun f => { f with told := now }) s

/-! ### Functions: transitions (R420, R422) -/

/-- Both switches open. -/
def SafeFunc.off (f : SafeFunc) : SafeFunc :=
  { f with hsOn := false, lsOn := false, holdPhase := false, torque := false, darkHs := 0, darkLs := 0, duty := 0 }

/-- Whether a state is one that a demand leaves (R422). -/
def FuncState.live : FuncState → Bool
  | .ready | .check | .released | .testing => true
  | _ => false

/-- The HOLD channels linked to a function. -/
def linked (n : Nat) (c : DioCh) : Bool := if n = 0 then c.link0 else c.link1

/-- A demand under R377: entry into DEMAND or FAULT from a live state. -/
def demandRelease (n : Nat) (s : State) : State :=
  releaseHolds (fun _ c => linked n c) (fun c => if n = 0 then { c with relDemand0 := true } else { c with relDemand1 := true }) s

/-- A function enters a state at an instant, with its output off. -/
def SafeFunc.enter (st : FuncState) (now : Nat) (f : SafeFunc) : SafeFunc := { f.off with st := st, since := now }

/-- A function enters DEMAND. -/
def toDemand (n : Nat) (s : State) : State :=
  let was := (sFunc s n).st
  let s := onSFunc n (fun f => { f.enter .demand s.mono with demands := satInc 32 f.demands }) s
  if was.live then demandRelease n (raise .safetyDemand .notice n 0 0 0 s) else s

/-- A function enters FAULT. -/
def toFault (n : Nat) (s : State) : State :=
  let was := (sFunc s n).st
  let s := onSFunc n (fun f => f.enter .fault s.mono) s
  if was.live then demandRelease n s else s

/-- A function enters READY: a reset under R377, after which linked channels wait for their next command. -/
def toReady (n : Nat) (s : State) : State :=
  let s := onSFunc n (fun f => f.enter .ready s.mono) s
  onDio (fun d => { d with ch := d.ch.map fun c =>
    if n = 0 then (if c.relDemand0 then { c with relDemand0 := false, posted := false } else c)
    else (if c.relDemand1 then { c with relDemand1 := false, posted := false } else c) }) s

/-- An edge is rejected by a function (R419). -/
def rejectEdge (n cause ms : Nat) (s : State) : State :=
  let si := (sFunc s n).resetSi
  raise .safetyResetRejected .notice si si cause (min ms 65535 * 65536 + n)
    (onSafe (fun x => { x with rejected := satInc 32 x.rejected }) s)

/-- Whether the clear condition of a fault bit is met at a reset edge of a path (R427). -/
def clearable (s : State) (k : Nat) (q : SafePath := .chip) : Bool :=
  if k < 16 then
    let x := (sPair s (k / 4)).on q
    let a := (siAt s (2 * (k / 4))).on q
    let b := (siAt s (2 * (k / 4) + 1)).on q
    x.seenBoth0 && (match k % 4 with
      | 0 => true
      | 2 => decide (2 ≤ a.crossClear) && decide (2 ≤ b.crossClear)
      | _ => decide (2 ≤ a.tpClear) && decide (2 ≤ b.tpClear))
  else k == 16 || k == 17

/-- The faults of a pair clear on a path, and its combined state is taken again at the same tick (R417). -/
def clearPair (q : SafePath) (p : Nat) (s : State) : State :=
  let s := onSPair p (SiPair.upd q fun x => { x with faults := {}, news := {}, seenBoth0 := false }) s
  onSPair p (SiPair.upd q fun x => { x with combined := pairCombined s q p }) s

/-- The faults of a function and of its pairs clear at an edge of a path. -/
def clearFaults (n : Nat) (s : State) (q : SafePath := .chip) : State :=
  let f := sFunc s n
  let s := forAll (List.range 4) (fun p t => if f.names p then clearPair q p t else t) s
  onSFunc n (fun f => { f with openLoad := false, overNow := false, told := if q = .chip then 0 else f.told }) s

/-- The first cause for which an edge is rejected in DEMAND or FAULT, with a fault's code in bits 15:8 (R419).
DEDUCED (assumption 182). -/
def edgeCause (s : State) (f : SafeFunc) (q : SafePath := .chip) : Option Nat :=
  if pairDemand s f q then some 4
  else if fDead s then some 5
  else match (bitsOf (faultBits s f q)).find? fun k => !clearable s k q with
    | some k => some (6 + 256 * faultCode k)
    | none => none

/-- A reset edge reaches a function in DEMAND or FAULT (R417, R420). -/
def takeEdge (n ms : Nat) (s : State) : State :=
  match edgeCause s (sFunc s n) with
  | some c => rejectEdge n c ms s
  | none =>
    let s := clearFaults n s
    if pairDemand s (sFunc s n) then toDemand n (rejectEdge n 4 ms s)
    else toReady n (raise .safetyReset .notice n 0 0 0 s)

/-- The effective request (R421) and whether it comes from the hoist. -/
def effectiveRequest (s : State) (f : SafeFunc) : Bool × Bool :=
  let runs := s.sys.mode == .run || s.sys.mode == .hold
  let e := sigEntry s f.reqEntry
  let own := e.value.getLsbD 0 && qClass e.quality != 0
  match s.sys.role with
  | .solo => (runs && own, false)
  | .active => if f.ownReq then (runs && own, false) else (runs && f.hoistBit, true)
  | .standby =>
    if s.sys.mode == .run && s.pair.sbcSeries && (s.pair.st == .standby || s.pair.st == .query || s.pair.st == .taking) then
      (f.hoistBit, true)
    else (false, false)
  | _ => (false, false)

/-- A brake test ends: LAST of R440 and, for an aborted or timed-out one, the record. -/
def testEnds (n last : Nat) (s : State) : State :=
  let s := onSFunc n (fun f => { f with last := last, torque := false }) s
  if last = 3 ∨ last = 4 then raise .brakeTestAborted .notice n 0 0 0 s else s

/-- TESTING meets a demand cause or a fault (R420, R430). -/
def testingStops (n : Nat) (demand : Bool) (s : State) : State :=
  let s := testEnds n 3 s
  if faultBits s (sFunc s n) = 0 then toDemand n s
  else if demand && otherFaults (faultBits s (sFunc s n)) == 0 then toFault n (raise .safetyDemand .notice n 0 0 0 s)
  else toFault n s

/-- An edge at the tick at which a fault arises: FAULT, and the edge is rejected, also where that fault would clear at an edge
(R422). DEDUCED (assumption 182). -/
def rejectFresh (n ms : Nat) (s : State) : State :=
  let f := sFunc s n
  rejectEdge n ((edgeCause s f).getD (6 + 256 * ((bitsOf (faultBits s f)).head?.map faultCode).getD 0)) ms s

/-- Where a state goes at a tick without an edge (R420, R422, R430). -/
def FuncState.next (st : FuncState) (demand : Bool) (faults : Nat) (req : Bool) : FuncState :=
  match st with
  | .testing => if demand || otherFaults faults != 0 then (if faults = 0 then .demand else .fault) else .testing
  | .ready => if faults ≠ 0 then .fault else if demand then .demand else if req then .check else .ready
  | .check => if faults ≠ 0 then .fault else if demand then .demand else if req then .check else .ready
  | .released => if faults ≠ 0 then .fault else if demand then .demand else if req then .released else .ready
  | .demand => if faults ≠ 0 then .fault else .demand
  | st => st

/-- One function at a tick of the supervisor path, by its own pairs and edge (R413, R420, R422). -/
def supTick (n : Nat) (s : State) : State :=
  let f := sFunc s n
  if f.st == .disabled then s
  else
    let st := f.supSt.next (pairDemand s f .supervisor || fDead s) (faultBits s f .supervisor) (effectiveRequest s f).1
    let s := onSFunc n (fun f => { f with supSt := st, supEdge := false }) s
    if f.supEdge && (st == .demand || (st == .fault && f.supSt == .fault)) && (edgeCause s f .supervisor).isNone then
      let s := clearFaults n s .supervisor
      onSFunc n (fun f => { f with supSt := if pairDemand s f .supervisor then .demand else .ready }) s
    else s

/-- One function at a tick of the chip path (R420 to R422). -/
def funcTick (n : Nat) (s : State) : State :=
  let f0 := sFunc s n
  if f0.st == .disabled then s
  else
    let s := tellFaults n (onSFunc n (fun f => { f with edge := none }) s)
    let (req, hoist) := effectiveRequest s f0
    let s := onSFunc n (fun f => { f with request := req, fromHoist := hoist }) s
    let f := sFunc s n
    let demand := pairDemand s f || fDead s
    let faults := faultBits s f
    let s :=
      match f0.st with
      | .testing => if demand || otherFaults faults != 0 then testingStops n demand s else s
      | .ready | .check | .released =>
        if faults != 0 then toFault n s
        else if demand then toDemand n s
        else if f0.st == .ready && req then onSFunc n (fun f => { f with st := .check, since := s.mono }) s
        else if f0.st != .ready && !req then toReady n s
        else s
      | .demand => if faults != 0 then toFault n s else s
      | _ => s
    match f0.edge with
    | none => s
    | some ms =>
      let st := (sFunc s n).st
      if st == .fault && f0.st != .fault then rejectFresh n ms s
      else if st == .demand || st == .fault then takeEdge n ms s else s

/-- Each path switches its side of every brake output: the chip path the high sides, the supervisor path the low sides, which are open while an
exchange is missed (R413, R414). DEDUCED (assumption 184). -/
def sidesFollow (missed : Bool) (s : State) : State :=
  onSafe (fun x => { x with funcs := x.funcs.map fun f =>
    { f with hsOn := f.st == .released, lsOn := !missed && f.supSt == .released } }) s

/-- PATH (R414, R427): latched for both functions; causes 1 and 2 are recorded at once, 3 at the next start. -/
def pathFault (cause : Nat) (s : State) : State :=
  if s.safe.path then s
  else
    let s := onSafe (fun x => { x with path := true, pathMissed := cause == 3 }) s
    if cause = 3 then s else raise .safetyPathFault .critical 0xFF cause 0 0 s

/-- A count of the ticks for which two compared items have differed. -/
def differTicks (differs : Bool) (n : Nat) : Nat := if differs then min (n + 1) 1000 else 0

/-- The faults that each path has latched since the last exchange reach the other (R414). -/
def swapNews (p : Nat) (s : State) : State :=
  let x := sPair s p
  let s := latchPair .supervisor p x.chip.news (latchPair .chip p x.sup.news s)
  onSPair p (fun x => { x with chip := { x.chip with news := {} }, sup := { x.sup with news := {} } }) s

/-- The items of an exchange are compared: filtered channels, combined states, latched faults and function states (R414). -/
def compareItems (s : State) : State :=
  onSafe (fun x =>
    { x with
      ch := x.ch.map fun c => { c with differ := differTicks (c.chip.filt != c.sup.filt) c.differ }
      pairs := x.pairs.map fun p =>
        { p with differ := differTicks (p.chip.combined != p.sup.combined) p.differ
                 differF := differTicks (p.chip.faults != p.sup.faults) p.differF }
      funcs := x.funcs.map fun f => { f with differ := differTicks (f.st != f.supSt) f.differ } }) s

/-- FILTER + 2 ms of a pair, in ticks (R414). -/
def SiPair.patience (p : SiPair) : Nat := p.filter + 4

/-- FILTER + 2 ms for the state of a function, in ticks: of its named pair with the longest FILTER. DEDUCED (assumption 184). -/
def funcPatience (s : State) (f : SafeFunc) : Nat :=
  ((List.range 4).map fun p => if f.names p then (sPair s p).filter else 0).foldl max 0 + 4

/-- Whether a compared item differs for longer than FILTER + 2 ms (R414). -/
def itemsDiffer (s : State) : Bool :=
  (List.range 8).any (fun n => decide ((sPair s (n / 2)).patience < (siAt s n).differ))
    || s.safe.pairs.any (fun p => decide (p.patience < p.differ) || decide (p.patience < p.differF))
    || s.safe.funcs.any fun f => decide (funcPatience s f < f.differ)

/-- The exchange of a tick (R414). -/
def exchange (t : SafeTick) (s : State) : State :=
  let s := onSafe (fun x =>
    { x with missed := if t.missed then satInc 16 x.missed else x.missed
             missRun := if t.missed then min (x.missRun + 1) 4 else 0 }) s
  let s := if t.missed then s else forAll [0, 1, 2, 3] swapNews s
  let s := forAll [0, 1, 2, 3] pairCombines s
  let s := if t.missed then s else compareItems s
  if itemsDiffer s then pathFault 1 s else if t.clocks then pathFault 2 s else if 4 ≤ s.safe.missRun then pathFault 3 s else s

/-- Whether the test pulse that feeds a channel is off (R418, R426): the channel then reads 0. -/
def fedOff (s : State) (n : Nat) : Bool :=
  (sPair s (n / 2)).test && (fDead s || (if n % 2 = 0 then s.safe.tpOver0 else s.safe.tpOver1))

/-- The mean voltage of a brake output in per cent of L+F: full in the release phase and while group F is LOW, else HOLD_PCT (R424, R426). -/
def SafeFunc.drive (low : Bool) (f : SafeFunc) : SafeFunc :=
  { f with duty := if f.sbcOn then (if f.holdPhase && !low then f.holdPct else 100) else 0 }

/-- Every brake output is driven. -/
def outputsDrive (s : State) : State :=
  onSafe (fun x => { x with funcs := x.funcs.map (SafeFunc.drive ((fieldGroup s 4).st == .low)) }) s

/-- What is measured of a brake output at a tick, and for how long it has been out of its range (R423 to R425, R436). -/
def SafeFunc.measured (ma mv minus : Nat) (f : SafeFunc) : SafeFunc :=
  { f with
    measMa := ma, measMv := mv, measMinus := minus
    lowTicks := if f.st == .released && decide (ma < f.minMa) then min (f.lowTicks + 1) 200 else 0
    overTicks := if f.st == .released && decide (3000 < ma) then min (f.overTicks + 1) 20 else 0
    offTicks := if !f.sbcOn && decide (200 ≤ mv) && decide (200 ≤ minus) then min (f.offTicks + 1) 20 else 0 }

/-- A tick of the safety paths, every 0.5 ms, with or without a SAFETY section (R413, R420). DEDUCED (assumption 180). -/
def safetyTick (t : SafeTick) (s : State) : State :=
  if !railsOn s || !longAgo s.safe.tickAt 500000 s.mono then s
  else
    let s := onSafe (fun x =>
      { x with tickAt := some s.mono
               ch := x.ch.mapIdx fun n c => { c with raw := t.raw.getLsbD n && !fedOff s n }
               funcs := x.funcs.mapIdx fun n f =>
                 if n = 0 then f.measured t.ma0 t.mv0 t.minus0 else f.measured t.ma1 t.mv1 t.minus1 }) s
    let s := forAll [0, 1, 2, 3] pairTick s
    outputsDrive (sidesFollow t.missed (forAll [0, 1] supTick (forAll [0, 1] funcTick (exchange t s))))

/-- SAFETY_TICK (R413, R414, R416, R417, R419 to R422). -/
def execSafetyTick (t : SafeTick) (s : State) : Out := answer (settle s (safetyTick t s))

/-! ### Inputs and resets (R415, R419) -/

/-- The latched faults of pairs that no enabled function names clear at a reset edge that meets their clear conditions (R427).
DEDUCED (assumption 250). -/
def clearUnnamed (q : SafePath) (s : State) : State :=
  forAll (List.range 4) (fun p t =>
    if ((sPair t p).on q).faults.any && !t.safe.funcs.any (fun f => f.enabled && f.names p)
        && [0, 1, 2, 3].all (fun c => !(faultBits t { pairs := 2 ^ p } q).testBit (4 * p + c) || clearable t (4 * p + c) q) then
      clearPair q p t
    else t) s

/-- A pulse of a reset input falls, as a path sees it: rejected by the channel, or an edge for each function that names it (R413, R419). -/
def resetPulse (q : SafePath) (n : Nat) (s : State) : State :=
  let c := (siAt s n).on q
  let ns := s.mono - c.rose
  let ms := min (ns / 1000000) 65535
  let cause := if ns < 100000000 then 1 else if 5 * nsPerSec < ns then 2 else if c.resetFault then 3 else 0
  if cause = 0 then
    clearUnnamed q (onSafe (fun x =>
      { x with funcs := x.funcs.map fun f =>
          if f.enabled && f.resetSi == n then (match q with
            | .chip => { f with edge := some ms }
            | .supervisor => { f with supEdge := true })
          else f }) s)
  else if q = .supervisor then s
  else
    raise .safetyResetRejected .notice n n cause (ms * 65536 + 0xFF)
      (onSafe (fun x => { x with rejected := satInc 32 x.rejected }) s)

/-- A path's filtered state of a channel takes a new level. -/
def siFilter (q : SafePath) (n : Nat) (level : Bool) (s : State) : State :=
  let was := ((siAt s n).on q).filt
  let s' := onSi n (SiCh.upd q fun c => { c with filt := level, rose := if level && !was then s.mono else c.rose }) s
  if was && !level && (sPair s (n / 2)).mode == .reset then resetPulse q n s' else s'

/-- SI_FILTER (R415, R419). -/
def execSiFilter (p : SafePath) (n : Nat) (level : Bool) (s : State) : Out :=
  answer (if railsOn s && !(level && fedOff s n) then settle s (siFilter p n level s) else s)

/-! ### Test pulses (R418) -/

/-- The check of one channel in a drop by a path: of its own test pulse, or of the other. On a RESET pair TP_FAULT sets RESET_FAULT as well
(R418, R419). -/
def dropCheck (q : SafePath) (tp n : Nat) (level : Bool) (s : State) : State :=
  let p := n / 2
  let reset := (sPair s p).mode == .reset
  if n % 2 = tp then
    let hit := level && !((siAt s n).on q).otherLow
    let s := onSi n (SiCh.upd q fun c =>
      let run := if hit then min (c.tpRun + 1) 2 else 0
      let clr := if hit then 0 else min (c.tpClear + 1) 2
      { c with tpRun := run, tpClear := clr
               resetFault := reset && (if run = 2 then true else if clr = 2 then false else c.resetFault) }) s
    if ((siAt s n).on q).tpRun = 2 then latchPair q p { tpFault := true } s else s
  else
    let hit := !level && ((siAt s n).on q).filt
    let s := onSi n (SiCh.upd q fun c =>
      { c with otherLow := !level, crossRun := if hit then min (c.crossRun + 1) 2 else 0
               crossClear := if hit then 0 else min (c.crossClear + 1) 2 }) s
    if ((siAt s n).on q).crossRun = 2 then latchPair q p { cross := true } s else s

/-- Whether a test pulse drops next (R418): a period after its last drop, and half a period after the other's. -/
def dropDue (tp : Nat) (s : State) : Bool :=
  let x := s.safe
  let own := if tp = 0 then x.dropAt0 else x.dropAt1
  let other := if tp = 0 then x.dropAt1 else x.dropAt0
  longAgo own (x.tpPeriod * 1000000) s.mono && longAgo other (x.tpPeriod * 500000) s.mono

/-- The level of a channel in the middle of a dark window, by a path's comparator. -/
def dropLevel (l : DropLevels) (q : SafePath) (n : Nat) : Bool :=
  match q with
  | .chip => l.chip.getLsbD n
  | .supervisor => l.sup.getLsbD n

/-- A test pulse drops, and each path checks every channel in the middle of the dark window. -/
def pulseDrop (tp : Nat) (levels : DropLevels) (s : State) : State :=
  let en := if tp = 0 then s.safe.tpEn0 && !s.safe.tpOver0 else s.safe.tpEn1 && !s.safe.tpOver1
  if s.safe.present && en && s.safe.resumed && !fDead s && dropDue tp s then
    let s := onSafe (fun x => if tp = 0 then { x with dropAt0 := some s.mono } else { x with dropAt1 := some s.mono }) s
    forAll (List.range 8) (fun n t =>
      if (sPair t (n / 2)).test && (sPair t (n / 2)).mode != .unused then
        forAll bothPaths (fun q u => dropCheck q tp n (dropLevel levels q n) u) t
      else t) s
  else s

/-- TEST_PULSE_DROP (R418). -/
def execTestPulseDrop (tp : Nat) (levels : DropLevels) (s : State) : Out := answer (settle s (pulseDrop tp levels s))

/-- A test pulse output is overloaded: off for 1 s, and the fault of every pair with TEST, latched by the path that switches it (R413, R418). -/
def pulseOverload (tp : Nat) (s : State) : State :=
  if s.safe.present && (if tp = 0 then s.safe.tpEn0 else s.safe.tpEn1) && !fDead s then
    let s := onSafe (fun x =>
      if tp = 0 then { x with tpOver0 := true, tpOffAt0 := s.mono } else { x with tpOver1 := true, tpOffAt1 := s.mono }) s
    let s := forAll [0, 1, 2, 3] (fun p t =>
      if (sPair t p).test then latchPair .chip p (if tp = 0 then { over0 := true } else { over1 := true }) t else t) s
    onSafe (fun x => { x with ch := x.ch.mapIdx fun n c =>
      if n % 2 = tp then { c with chip := { c.chip with tpClear := 0 }, sup := { c.sup with tpClear := 0 } } else c }) s
  else s

/-- TP_OVERLOAD (R418). -/
def execTpOverload (tp : Nat) (s : State) : Out := answer (settle s (pulseOverload tp s))

/-- An overloaded test pulse output tries again, 1 s after it went off (R418). -/
def pulseRetry (tp : Nat) (s : State) : State :=
  if s.mono < (if tp = 0 then s.safe.tpOffAt0 else s.safe.tpOffAt1) + nsPerSec then s
  else onSafe (fun x => if tp = 0 then { x with tpOver0 := false } else { x with tpOver1 := false }) s

/-- TP_OVERLOAD_RETRY (R418). -/
def execTpOverloadRetry (tp : Nat) (s : State) : Out := answer (settle s (pulseRetry tp s))

/-- GROUP_F_RESUME (R426): checks and counting resume, 100 ms after group F entered NORMAL. -/
def execGroupFResume (s : State) : Out :=
  answer (onSafe (fun x => { x with resumed := !fDead s && (x.resumed || decide (x.normalAt + 100000000 ≤ s.mono)) }) s)

/-! ### Safe brake outputs (R423 to R425) -/

/-- Whether a function has stood in its state for a time in ms. -/
def SafeFunc.stood (f : SafeFunc) (ms : Nat) (s : State) : Bool := decide (f.since + ms * 1000000 ≤ s.mono)

/-- What the readback of a static test says, in 10 mV (R425): with the high side alone both pins within 1 V of L+F, with the low side alone
both below 2 V; a wrong SBCn+ is SWITCH_STUCK, an SBCn− that does not follow it OPEN_LOAD. -/
def staticResult (b : StaticBack) : StaticEnd :=
  let near := fun x => decide (x ≤ b.supply + 100) && decide (b.supply ≤ x + 100)
  if !near b.highPlus || decide (200 ≤ b.lowPlus) then .stuck
  else if !near b.highMinus || decide (200 ≤ b.lowMinus) then .openLoad
  else .pass

/-- Whether the static test closes the high side alone, in its first 2 ms, or the low side alone, in the next (R425). -/
def SafeFunc.testsHigh (f : SafeFunc) (now : Nat) : Bool := (f.st == .check || f.st == .testing) && decide (now < f.since + 2000000)
def SafeFunc.testsLow (f : SafeFunc) (now : Nat) : Bool :=
  (f.st == .check || f.st == .testing) && decide (f.since + 2000000 ≤ now) && decide (now < f.since + 4000000)

/-- A transition that a command takes is taken by both paths, the supervisor path from the same state (R413, R420). -/
def inStep (n : Nat) (g : State → State) (s : State) : State :=
  let t := g s
  if (sFunc s n).supSt = (sFunc s n).st then onSFunc n (fun f => { f with supSt := f.st }) t else t

/-- The static test of CHECK has passed, and the function is judged as at a tick: a fault, a demand cause or a request of 0 goes before the
release (R420, R422). DEDUCED (assumption 282). -/
def checkPasses (n : Nat) (s : State) : State :=
  let f := sFunc s n
  match FuncState.check.next (pairDemand s f || fDead s) (faultBits s f) (effectiveRequest s f).1 with
  | .check =>
    let s := inStep n (onSFunc n fun f => f.enter .released s.mono) s
    outputsDrive (onSFunc n (fun f => { f with hsOn := true, lsOn := f.supSt == .released }) s)
  | .fault => toFault n (tellFaults n s)
  | .demand => toDemand n s
  | _ => toReady n s

/-- The static switch test ends: in CHECK it releases the brake or latches its fault, in TESTING a failure ends the
test; both halves take 4 ms (R420, R425). -/
def staticTest (n : Nat) (b : StaticBack) (s : State) : State :=
  let st := (sFunc s n).st
  if (st == .check || st == .testing) && (sFunc s n).stood 4 s then
    match staticResult b with
    | .pass => if st == .check then checkPasses n s else s
    | e =>
      let s := onSFunc n (fun f => if e = .stuck then { f with stuck := true } else { f with openLoad := true }) s
      if st == .testing then inStep n (fun t => toFault n (tellFaults n (testEnds n 5 t))) s else s
  else s

/-- SBC_STATIC_TEST (R420, R425, R430). -/
def execSbcStaticTest (f : Nat) (b : StaticBack) (s : State) : Out := answer (settle s (staticTest f b s))

/-- An update of a function that is RELEASED. -/
def whileReleased (n : Nat) (f : SafeFunc → SafeFunc) (s : State) : State :=
  if (sFunc s n).st == .released then onSFunc n f s else s

/-- The hold phase begins, RELEASE_MS after the release (R424). -/
def holdBegins (n : Nat) (s : State) : State :=
  if (sFunc s n).stood (sFunc s n).releaseMs s then outputsDrive (whileReleased n (fun x => { x with holdPhase := true }) s) else s

/-- SBC_HOLD_PHASE (R424). -/
def execSbcHoldPhase (f : Nat) (s : State) : Out := answer (holdBegins f s)

/-- SBC_OPEN_LOAD (R424): the coil current has been below MIN_MA for 100 ms. -/
def execSbcOpenLoad (f : Nat) (s : State) : Out :=
  answer (whileReleased f (fun x => { x with openLoad := x.openLoad || decide (200 ≤ x.lowTicks) }) s)

/-- A dark test of a switch ends; two failures in a row latch SWITCH_STUCK. -/
def darkTest (high ok : Bool) (f : SafeFunc) : SafeFunc :=
  let run := if ok then 0 else (if high then f.darkHs else f.darkLs) + 1
  let f := if high then { f with darkHs := min run 2 } else { f with darkLs := min run 2 }
  { f with stuck := f.stuck || decide (2 ≤ run) }

/-- SBC_DARK_TEST (R425). -/
def execSbcDarkTest (f : Nat) (high ok : Bool) (s : State) : Out := answer (whileReleased f (darkTest high ok) s)

/-- SBC_OVERLOAD (R423): the coil current has been above 3.0 A for 10 ms. -/
def execSbcOverload (f : Nat) (s : State) : Out :=
  answer (whileReleased f (fun x => { x with overNow := x.overNow || decide (20 ≤ x.overTicks) }) s)

/-- SBC_OFF_CHECK (R425): both pins of an output that is off, also of a function that is disabled, have been at 2 V or above for 10 ms.
DEDUCED (assumption 283). -/
def execSbcOffCheck (f : Nat) (s : State) : Out :=
  answer (if !(sFunc s f).sbcOn && decide (20 ≤ (sFunc s f).offTicks) then onSFunc f (fun x => { x with stuck := true }) s else s)

/-! ### The brake test (R430, R440) -/

/-- Whether START is accepted. DEDUCED (assumption 183). -/
def testMayStart (s : State) (n : Nat) : Bool :=
  (s.sys.mode == .run || s.sys.mode == .hold)
  && ((sFunc s n).st == .ready || ((sFunc s n).st == .fault && faultBits s (sFunc s n) == 2 ^ 20))

/-- An aborted or timed-out test returns to the state before it (R430). -/
def testReturns (n last : Nat) (s : State) : State :=
  let s := testEnds n last s
  if (sFunc s n).btFailed then toFault n s else toReady n s

/-- A test ends by a command, judged as at a tick: a demand cause or another fault that stands then goes first (R420, R422, R430).
DEDUCED (assumption 282). -/
def testFinishes (n : Nat) (g : State → State) (s : State) : State :=
  let f := sFunc s n
  let demand := pairDemand s f || fDead s
  inStep n (if demand || otherFaults (faultBits s f) != 0 then testingStops n demand else g) s

/-- A write of SAFE_TEST_REQ. -/
def writeTestReq (v : Word) (s : State) : State :=
  let n := field v 24 1
  let s := onSafe (fun x => { x with reqFunc := n }) s
  if v.getLsbD 30 then
    if (sFunc s n).st == .testing then testFinishes n (testReturns n 3) s else s
  else if v.getLsbD 31 then
    if testMayStart s n then
      inStep n (onSFunc n fun f => f.enter .testing s.mono) (onSafe (fun x => { x with reqRefused := false }) s)
    else raise .safetyTestRefused .notice n 0 0 0 (onSafe (fun x => { x with reqRefused := true }) s)
  else s

/-- BRAKE_TEST_START (R430): START for a function. -/
def execBrakeTestStart (f : Nat) (s : State) : Out :=
  answer (settle s (writeTestReq (packFields [(31, 1, 1), (24, 1, f)]) s))

/-- BRAKE_TEST_ABORT (R440): ABORT for a function. -/
def execBrakeTestAbort (f : Nat) (s : State) : Out :=
  answer (settle s (writeTestReq (packFields [(30, 1, 1), (24, 1, f)]) s))

/-- TORQUE_ALLOWED (R430): 4 ms after the start of the test. -/
def execTorqueAllowed (f : Nat) (s : State) : Out :=
  answer (settle s (if (sFunc s f).st == .testing && (sFunc s f).stood 4 s then onSFunc f (fun x => { x with torque := true }) s else s))

/-- A test passes. -/
def testPasses (n : Nat) (s : State) : State :=
  let s := onSFunc n (fun f =>
    { f with last := 1, hours := 0, hourSecs := 0, due := false, failStands := false, btFailed := false, told := 0 }) s
  toReady n (raise .brakeTestPassed .notice n 0 0 0 s)

/-- A test fails. -/
def testFails (n : Nat) (s : State) : State :=
  let s := onSFunc n (fun f => { f with last := 2, failStands := true, btFailed := true }) s
  toFault n (raise .brakeTestFailed .critical n 0 0 0 s)

/-- A write of SAFE_TEST_RESULT: with GO the verdict is delivered. -/
def writeTestResult (v : Word) (s : State) : State :=
  let res := field v 0 2
  let n := s.safe.reqFunc
  let s := onSafe (fun x => { x with result := res }) s
  if v.getLsbD 31 then
    if (sFunc s n).st == .testing && (sFunc s n).torque && (res == 1 || res == 2) then
      let s := onSafe (fun x => { x with resRefused := false }) s
      testFinishes n (fun s => if res = 1 then testPasses n s else testFails n s) s
    else onSafe (fun x => { x with resRefused := true }) s
  else s

/-- BRAKE_TEST_PASS (R430, R440). -/
def execBrakeTestPass (s : State) : Out := answer (settle s (writeTestResult 0x80000001 s))

/-- BRAKE_TEST_FAIL (R430, R440). -/
def execBrakeTestFail (s : State) : Out := answer (settle s (writeTestResult 0x80000002 s))

/-- A test times out, TEST_TIMEOUT_S after its start: the state before it. -/
def testTimesOut (n : Nat) (s : State) : State :=
  if (sFunc s n).st == .testing && (sFunc s n).stood (1000 * (sFunc s n).timeoutS) s then testFinishes n (testReturns n 4) s else s

/-- BRAKE_TEST_TIMEOUT (R430). -/
def execBrakeTestTimeout (f : Nat) (s : State) : Out := answer (settle s (testTimesOut f s))

/-- DUE (R430). -/
def testDue (n : Nat) (s : State) : State :=
  let f := sFunc s n
  if f.enabled && f.intervalH != 0 && decide (f.intervalH ≤ f.hours) && !f.due then
    raise .brakeTestDue .notice n 0 0 0 (onSFunc n (fun f => { f with due := true }) s)
  else s

/-- BRAKE_TEST_DUE (R430). -/
def execBrakeTestDue (f : Nat) (s : State) : Out := answer (settle s (testDue f s))

end Sys2Proof.Machine
end

