-- ==== Sys2Proof/Machine/Supplies.lean ====
section
/-! DEFINITION. Supplies, the hold-up store, power-down, the field-supply groups and harbour watch but its wake
(03_supplies_and_harbour_watch.md R59 to R93). -/

namespace Sys2Proof.Machine

/-- A sticky flag of PWR_FLAGS. -/
def pwrFlag (n : Nat) (s : State) : State := onPwr (fun p => { p with flags := flag n p.flags }) s

/-- A sticky flag whose condition stands: it sets again at each sample (R86). -/
def pwrStands (n : Nat) (s : State) : State :=
  onPwr (fun p => { p with flags := flag n p.flags, standing := flag n p.standing }) s

/-- A record, while the logic has power, in a watch round too. -/
def supplyRecord (e : Ev) (sev : Severity) (s : State) : State :=
  if railsOn s then raise e sev 0xFF 0 0 0 s else s

/-- A record of the hold-up store (R534): the ESR, the factory ESR in mΩ and the guaranteed hold-up time in ms. -/
def holdupRecord (e : Ev) (sev : Severity) (s : State) : State :=
  if railsOn s then raise e sev 0xFF s.pwr.esr s.pwr.esrFactory s.pwr.holdupMs s else s

/-! ### Inputs (R60 to R63) -/

/-- Whether X2 can feed the bus. -/
def x2Feeds (s : State) : Bool := s.pwr.x2 && !s.pwr.x2Cut

/-- X1 becomes present. -/
def x1Present (dc : Bool) (s : State) : State :=
  let was := s.pwr.source
  let s := onPwr (fun p => { p with x1 := true, x1Dc := dc, source := .mains }) s
  let s := if was = .backup then supplyRecord .supplyOnMains .notice s else s
  if inHarbour s then wakeBy .x1Return s else s

/-- X1_PRESENT (R60, R62, R80). -/
def execX1Present (dc : Bool) (s : State) : Out := answer (x1Present dc s)

/-- X1, present or feeding the bus, is lost: with X2 present the backup converter takes the bus. -/
def x1Lost (s : State) : State :=
  let fed := s.pwr.x1 || s.pwr.source == .mains
  let s := onPwr (fun p => { p with x1 := false }) s
  if fed && x2Feeds s then supplyRecord .supplyOnBackup .notice (onPwr (fun p => { p with source := .backup }) s) else s

/-- X1_LOST (R60, R62). -/
def execX1Lost (s : State) : Out := answer (x1Lost s)

/-- With X2 present and connected, X1 absent and no ride-through or power-down, the backup converter feeds the bus (R61). -/
def Pwr.backupFeeds (p : Pwr) : Pwr :=
  if p.source = .holdup ∧ p.x2 ∧ !p.x1 ∧ !p.x2Cut ∧ p.rideAt.isNone ∧ !p.powerDown then { p with source := .backup } else p

/-- X2 becomes present. -/
def x2Present (s : State) : State := onPwr (fun p => { p with x2 := true }.backupFeeds) s

/-- X2_PRESENT (R60, R61). -/
def execX2Present (s : State) : Out := answer (x2Present s)

/-- Every bank loses its content: retention has ended. DEDUCED (assumption 53). -/
def dropRetention (s : State) : State :=
  let s := onPwr (fun p => { p with retentionLost := true, railsOff := p.railsOff || !p.x1 }) s
  onMem (fun m =>
    { m with cells := [], errs := [], backs := [], found := [], banks := m.banks.map fun b => { b with powered := false, retained := false } }) s

/-- X2 is lost; in harbour watch retention ends (R83). -/
def x2Lost (s : State) : State :=
  let s := onPwr (fun p => { p with x2 := false }) s
  if s.sys.mode = .harbour then dropRetention s else s

/-- X2_LOST (R60, R83). -/
def execX2Lost (s : State) : Out := answer (x2Lost s)

/-- X2_OVER (R60). -/
def execX2Over (s : State) : Out := answer (pwrStands 21 (onPwr (fun p => { p with x2Cut := true }) s))

/-- X2_RECONNECT (R60, R61). -/
def execX2Reconnect (s : State) : Out :=
  answer (onPwr (fun p => { p with x2Cut := false, standing := setBit p.standing 21 false }.backupFeeds) s)

/-- X2_LOW (R60): X2 feeds the bus below 21.0 V. -/
def execX2Low (s : State) : Out :=
  answer (if s.pwr.source = .backup then supplyRecord .x2Low .notice (pwrStands 1 s) else s)

/-- LOGIC_HIGH (R63). -/
def execLogicHigh (s : State) : Out := answer (supplyRecord .logicHigh .fault (pwrStands 22 s))

/-! ### The hold-up store (R64 to R66) -/

/-- The store is measured: ESR in mΩ, capacitance in 10 µF. Hold-up in ms is 0.432 × capacitance.
DEDUCED (assumption 51). -/
def holdupMeasure (esr cap : Nat) (s : State) : State :=
  let wear := decide (cap * 432 < 40000) || decide (2 * s.pwr.esrFactory < esr)
  let low := decide (cap * 432 < 30000)
  let s := onPwr (fun p =>
    { p with esr := esr, cap := cap, holdupMs := (divEven (cap * 432 : Nat) 1000).toNat
             standing := setBit (setBit p.standing 2 wear) 3 low }) s
  let s := if wear then holdupRecord .holdupWear .notice (pwrFlag 2 s) else s
  if low then holdupRecord .holdupLow .fault (pwrFlag 3 s) else s

/-- HOLDUP_MEASURE (R64, R65). -/
def execHoldupMeasure (esr cap : Nat) (s : State) : Out := answer (holdupMeasure esr cap s)

/-- The present energy at a store voltage in mV, in whole mJ (DEDUCED from the worked example of 22_wear_and_replacement.md: 1.0195 J reads
1,019), and HOLDUP_READY from 0.6 J. DEDUCED (assumption 50). -/
def holdupEnergy (mV : Nat) (s : State) : State :=
  let c := if s.pwr.cap = 0 then 150 else s.pwr.cap
  let e := c * (mV * mV - 576000000)
  onPwr (fun p => { p with energy := e / 200000000, holdupReady := decide (120000000000 ≤ e) }) s

/-- HOLDUP_ENERGY_UPDATE (R64, R66). -/
def execHoldupEnergyUpdate (mV : Nat) (s : State) : Out := answer (holdupEnergy mV s)

/-! ### Power-down (R67 to R70) -/

/-- Staged records are written to MRAM, at most `n`. -/
def storeStaged : Nat → State → State
  | 0, s => s
  | n + 1, s => if s.log.staged.isEmpty then s else storeStaged n (recordStore .stored s)

/-- Every output stage is commanded to its policy or off, so that the silence that follows is no timeout (R376, R398). -/
def stagesCommanded (s : State) : State :=
  { s with dio := { s.dio with ch := s.dio.ch.map fun c => { c with commanded := true } }
           ana := { s.ana with ch := s.ana.ch.map fun c => { c with commanded := true } } }

/-- The weak-row record and the operating seconds are written (R67, R109). -/
def storeBackup (s : State) : State :=
  onMem (fun m => { m with weak := weakAdd m.weak m.weakDue, weakNew := m.weakNew + m.weakDue.length, weakDue := [] })
    (onLog (fun l => { l with opsecKept := l.opsec }) s)

/-- The logic rails go off: no clock runs, no role is held. -/
def railsGoOff (s : State) : State :=
  let s := onPwr (fun p => { p with railsOff := true, rideAt := none }) s
  onSys (fun y => { y with run := [], refClock := false, pll := false, coreAwake := false, phy := [false, false, false, false] })
    (onSafe (fun x => { x with funcs := x.funcs.map SafeFunc.off }) s)

/-- Power-down in its order (R67, R68). After a ride-through, or from 0.25 J, every row completes; else `rows` says how many records a store
below that still completes, and whether after all of them the backup-domain row (R69).
DEDUCED (assumption 52). -/
def powerDown (rows : PowerRows) (s : State) : State :=
  if s.pwr.railsOff || s.pwr.powerDown then s
  else
    let full := s.pwr.rideAt.isSome || decide (250 ≤ s.pwr.energy)
    let starting := s.sys.mode == .starting
    let s := if s.sys.role = .active then handoverNow s else s
    let s := if s.sys.role = .solo then ringSafeOnce s else s
    let s := stopTasks s
    let s := onSec (fun x => { x with armed := false }) s
    let s := stagesCommanded (onPwr (fun p => { p with powerDown := true, rideAt := none }) s)
    let s := busesStop (dropRole s)
    let s := onStart (fun t => { t with phase := .idle }) (onCyc (fun c => { c with pendingReq := none }) s)
    let s := raise .powerDown .notice 0xFF 0 0 0 s
    let s := if s.log.accepting then storeStaged (if full then s.log.staged.length else rows.records) s else s
    let s := if s.log.accepting && s.log.staged.isEmpty && (full || rows.backup) then storeBackup s else s
    railsGoOff (if starting then s else setMode .starting s)

/-- Whether the 10 ms of the ride-through have passed (R67). DESIGN CHOICE (assumption 14). -/
def rideOver (s : State) : Bool := s.pwr.rideAt.any fun t => decide (t + 10000000 ≤ (s.mono : Int))

/-- POWER_DOWN (R67): the ride-through ends with the inputs still lost. -/
def execPowerDown (rows : PowerRows) (s : State) : Out :=
  answer (if rideOver s then settle s (powerDown rows s) else s)

/-- RIDE_THROUGH_ENERGY_LOW (R69). -/
def execRideThroughEnergyLow (rows : PowerRows) (s : State) : Out :=
  answer (if s.pwr.rideAt.isSome then settle s (powerDown rows s) else s)

/-- The bus falls below 23.0 V with no input feeding it (R67, R69): ride-through, or power-down at once, in harbour watch too.
DESIGN CHOICE (assumption 265). -/
def busLost (rows : PowerRows) (s : State) : State :=
  if s.pwr.railsOff || s.pwr.powerDown then s
  else
    let s := onPwr (fun p => { p with source := .holdup }) s
    if s.pwr.holdupReady then onPwr (fun p => { p with rideAt := some s.mono }) s else powerDown rows s

/-- BUS_LOST (R67, R69). -/
def execBusLost (rows : PowerRows) (s : State) : Out := answer (settle s (busLost rows s))

/-- An input returns during the ride-through (R70). -/
def powerDip (x1 : Bool) (s : State) : State :=
  match s.pwr.rideAt with
  | none => s
  | some t =>
    raise .powerDip .notice 0xFF (((s.mono : Int) - t).toNat / 1000) 0 0
      (onPwr (fun p => { p with rideAt := none, dips := satInc 32 p.dips, flags := flag 0 p.flags
                                source := if x1 then .mains else .backup }) s)

/-- POWER_DIP (R70). -/
def execPowerDip (x1 : Bool) (s : State) : Out := answer (powerDip x1 s)

/-! ### Field-supply groups (R71 to R76) -/

/-- Whether the module supervises a group: with the logic running; in a round, the groups that the round names (R93). -/
def supervises (s : State) (g : Nat) : Bool :=
  railsOn s &&
    (s.sys.mode != .harbour
    || (s.pwr.hbr == .reading && decide (g < 4)
      && ((BitVec.ofNat 4 s.pwr.force.digital).getLsbD g || decide (s.pwr.force.analogue / 2 ^ (4 * g) % 16 ≠ 0))))

/-- Bits of PWR_FLAGS for a group: LOW, LOST and over-voltage. -/
def lowBit (g : Nat) : Nat := if g = 4 then 16 else 4 + g
def lostBit (g : Nat) : Nat := if g = 4 then 17 else 8 + g
def overBit (g : Nat) : Nat := if g = 4 then 23 else 12 + g

/-- L+ falls below 19.2 V. -/
def supplyLow (g : Nat) (s : State) : State :=
  if (fieldGroup s g).st = .normal then
    raise .fieldSupplyLow .notice g 0 0 0 (pwrFlag (lowBit g) (onGroup g (fun x => { x with st := .low }) s))
  else s

/-- FIELD_SUPPLY_LOW (R71, R76). -/
def execFieldSupplyLow (g : Nat) (s : State) : Out :=
  answer (if supervises s g then settle s (supplyLow g s) else s)

/-- The inputs of a group read BAD_FIELD_SUPPLY, and HOLD channels are released (R72). -/
def groupHeld (g : Nat) (s : State) : State :=
  if g = 4 then onSafe (fun x => { x with resumed := false }) s
  else
    let s := releaseHolds (fun n _ => n / 8 == g) (fun c => { c with relOther := true }) s
    let s := onDio (fun d => { d with ch := d.ch.mapIdx fun n c => if n / 8 = g then { c with valid := false } else c }) s
    let s := onAna (fun a => { a with ch := a.ch.mapIdx fun n c => if n / 4 = g then { c with valid := false } else c }) s
    forAll ((List.range 16).filter fun n => n / 4 == g && (anaCh s n).mode.isInput) writeAnaValue s

/-- L+ falls below 15.0 V: LOST, in the start-up LOST and the QUALIFYING that follows it as well, where it is the LOST by
trigger of R71; a group that is LOST already stays as it is. DEDUCED (assumption 53). -/
def supplyLost (g : Nat) (s : State) : State :=
  if (fieldGroup s g).st.dead && !(fieldGroup s g).startup then s
  else
    let s := if (fieldGroup s g).st.dead then s else hartLost g s
    let s := pwrFlag (lostBit g) (onGroup g (fun x => { x with st := .lost, startup := false }) s)
    groupHeld g (raise .fieldSupplyLost .fault g 0 0 0 s)

/-- FIELD_SUPPLY_LOST (R71, R72, R76). -/
def execFieldSupplyLost (g : Nat) (s : State) : Out :=
  answer (if supervises s g then settle s (supplyLost g s) else s)

/-- FIELD_SUPPLY_NORMAL (R71): LOW ends. -/
def execFieldSupplyNormal (g : Nat) (s : State) : Out :=
  answer (if supervises s g && (fieldGroup s g).st == .low then
    settle s (raise .fieldSupplyNormal .info g 0 0 0 (onGroup g (fun x => { x with st := .normal }) s)) else s)

/-- FIELD_SUPPLY_QUALIFYING (R71). -/
def execFieldSupplyQualifying (g : Nat) (s : State) : Out :=
  answer (if supervises s g && (fieldGroup s g).st == .lost then settle s (onGroup g (fun x => { x with st := .qualifying }) s) else s)

/-- QUALIFYING_RESTART (R71). -/
def execQualifyingRestart (g : Nat) (s : State) : Out :=
  answer (if supervises s g && (fieldGroup s g).st == .qualifying then settle s (onGroup g (fun x => { x with st := .lost }) s) else s)

/-- A group has qualified (R71, R73, R74, R76). -/
def supplyReturned (g : Nat) (s : State) : State :=
  if (fieldGroup s g).st = .qualifying then
    let auto := g == 4 || (fieldGroup s g).first || s.pwr.force.policy.testBit g
    let s := onGroup g (fun x => { x with st := if auto then .normal else .awaitAck, startup := false, first := false }) s
    let s := if g = 4 then onSafe (fun x => { x with normalAt := s.mono }) s
      else onAna (fun a => { a with ch := a.ch.mapIdx fun n c => if n / 4 = g then { c with discard := 3 } else c }) s
    let s := hartReturns g (if auto && g != 4 then outputsReturn g s else s)
    raise .fieldSupplyReturned .notice g 0 0 0 s
  else s

/-- FIELD_SUPPLY_RETURNED (R71). -/
def execFieldSupplyReturned (g : Nat) (s : State) : Out :=
  answer (if supervises s g then settle s (supplyReturned g s) else s)

/-- FIELD_SUPPLY_OVER (R71, R76). -/
def execFieldSupplyOver (g : Nat) (s : State) : Out :=
  answer (if supervises s g then pwrFlag (overBit g) (onGroup g (fun x => { x with overNow := true }) s) else s)

/-- A write of PWR_FGRP_RESTORE (R75, R86). -/
def restoreMask (v : Word) (s : State) : State :=
  forAll [0, 1, 2, 3] (fun g t => if v.getLsbD g then restoreGroup g t else t) s

/-- FIELD_SUPPLY_RESTORE (R75). -/
def execFieldSupplyRestore (v : Word) (s : State) : Out := answer (settle s (restoreMask v s))

/-- The flags whose conditions stand at a sample: of groups, those that are supervised (R86, R93). DEDUCED (assumption 15). -/
def standingFlags (s : State) : Word :=
  ((List.range 5).filter (supervises s)).foldl (fun w g =>
    let x := fieldGroup s g
    let w := if x.st = .low then flag (lowBit g) w else w
    let w := if x.st = .lost ∧ !x.startup then flag (lostBit g) w else w
    if x.overNow then flag (overBit g) w else w) s.pwr.standing

/-- The boundary of PWR_COMMIT (R87). -/
def pwrBoundary (s : State) : State :=
  if s.pwr.commit.pending then
    onPwr (fun p => { p with force := p.copied, commit := { p.commit with pending := false } }) s
  else s

/-- A sample of the supplies (R71, R86, R87). -/
def supplySample (x : SupplySample) (s : State) : State :=
  let s := pwrBoundary s
  let s := onPwr (fun p =>
    { p with
      x1V := x.x1V, x2mV := x.x2mV, busmV := x.busmV, power10mW := x.power
      groups := p.groups.mapIdx fun g y =>
        { y with lplus := x.lplus.getD g 0, overNow := y.overNow && decide (3000 < x.lplus.getD g 0) }
      standing := setBit (setBit p.standing 1 (p.standing.getLsbD 1 && p.source == .backup && decide (x.x2mV < 21000)))
        22 (p.standing.getLsbD 22 && decide (1800 < x.power)) }) s
  onPwr (fun p => { p with flags := p.flags ||| standingFlags s }) s

/-- FIELD_SUPPLY_SAMPLE (R71). -/
def execFieldSupplySample (x : SupplySample) (s : State) : Out :=
  answer (if railsOn s then settle s (supplySample x s) else s)

/-! ### Harbour watch: entry (R78, R79) -/

/-- Whether a request for harbour watch is accepted. -/
def harbourAllowed (s : State) : Bool :=
  s.pwr.harbourEnabled && (s.sys.mode == .run || s.sys.mode == .stop) && !s.pwr.powerDown
  && (s.olc.phase == .idle || s.olc.phase == .staged)

/-- A request: entry begins, which cuts a panel update in progress and leaves its flag set (R504, R509), or it is refused.
DEDUCED (assumption 285). -/
def harbourRequest (s : State) : State :=
  if s.pwr.hbr = .entering then s
  else if harbourAllowed s then
    let s := olcAbandon olcAbandoned s
    onCyc (fun c => { c with tasks := c.tasks.map fun t => { t with held := none } })
      (onPanel (fun p => { p with update := none, frame := 0 }) (onPwr (fun p => { p with hbr := .entering, wakeWait := [] }) s))
  else raise .harbourRefused .notice 0xFF 0 0 0 (pwrFlag 19 s)

/-- HARBOUR_ENTER_REQUEST (R78): ENTER is written. -/
def execHarbourEnterRequest (s : State) : Out := answer (harbourRequest s)

/-- HARBOUR_AUTO_ENTER (R78): X1 has been lost for AUTO_ENTER. -/
def execHarbourAutoEnter (s : State) : Out :=
  answer (if s.pwr.force.autoEnter ≠ 0 ∧ !s.pwr.x1 then harbourRequest s else s)

/-- Whether every cycle in progress has ended. -/
def cyclesEnded (s : State) : Bool := s.cyc.tasks.all fun t => t.cycleAt.isNone

/-- Whether an ACTIVE side has a standby to hand over to on entry: in RUN and not STALE (R79). -/
def standbyReady (s : State) : Bool :=
  !s.pair.silent && s.pair.partner.any fun p => p.role == 3 && p.mode == 1 && p.flags % 2 == 0

/-- What the module gives up on entry: the hand-over of an ACTIVE, the SAFE frames of a SOLO (R79, R299).
DEDUCED (assumption 54). -/
def harbourHandover (s : State) : State :=
  if s.sys.role = .active then
    if standbyReady s then
      sendPennant 3 0 (s.pair.cmdSeq + 1) s.mono (s.pair.epoch + 1) (onPair (fun p => { p with cmdSeq := p.cmdSeq + 1 }) s)
    else s
  else if s.sys.role = .solo then ringSafeOnce s
  else s

/-- Whether the retention set keeps a physical bank (R58). -/
def bankRetained (s : State) (n : Nat) : Bool :=
  if n = 16 then s.pwr.force.retain.testBit (s.mem.folded.getD 16)
  else s.mem.folded != some n && s.pwr.force.retain.testBit n

/-- Banks go into retention or off by the retention set (R79, R112). -/
def retainBanks (s : State) : State :=
  onMem (fun m =>
    { m with
      banks := m.banks.mapIdx fun n b => { b with retained := bankRetained s n, powered := bankRetained s n }
      cells := m.cells.filter fun c => s.pwr.force.retain.testBit (c.1 / bankBytes)
      errs := m.errs.filter fun e => bankRetained s e.1.bank
      found := m.found.filter fun p => bankRetained s p.bank
      backs := [] }) s

/-- The front ends, PHYs and links go off. -/
def linksOff (s : State) : State :=
  { s with
    sys := { s.sys with linkP4 := false, phy := [false, false, false, false] }
    ring := { s.ring with link1 := false, link2 := false, blocked1 := false, blocked2 := false }
    pair := { s.pair with linkP3 := false }
    plant := { s.plant with speed := 0, sessions := s.plant.sessions.map fun _ => {} } }

/-- The entry (R79), after the last task cycle has ended. -/
def harbourEntry (s : State) : State :=
  if s.pwr.hbr = .entering ∧ cyclesEnded s then
    let s := harbourHandover s
    let s := stagesCommanded (releaseAllHolds s)
    let s := busesStop (dropRole (setMode .harbour s))
    let s := onSafe (fun x => { x with funcs := x.funcs.map SafeFunc.off }) s
    let s := raise .harbourEnter .notice 0xFF 0 0 0 s
    let s := storeStaged s.log.staged.length s
    let s := clocksAsleep (linksOff (retainBanks s))
    onCyc (fun c => { c with epoch := none, pendingReq := none })
      (onPwr (fun p => { p with hbr := .asleep, pwrOnState := false }) s)
  else s

/-- HARBOUR_ENTRY (R79). -/
def execHarbourEntry (s : State) : Out := answer (settle s (harbourEntry s))

/-! ### Watch rounds (R81, R84, R93) -/

/-- The settle time of a round in 10 ms (R93). -/
def settleTime (p : PwrSet) : Nat := max 1 (min p.settle 1000)

/-- The instant at which the settle time of the round in progress ends, in ns (R81, R93). -/
def settleEnd (s : State) : Nat := s.pwr.roundAt + settleTime s.pwr.force * 10000000

/-- The settle time ends: the named groups are supervised afresh, and their channels powered (R81, R93, R387). -/
def roundSettled (s : State) : State :=
  if s.pwr.hbr = .settling ∧ settleEnd s ≤ s.mono then
    let s := onPwr (fun p => { p with hbr := .reading }) s
    let named := (List.range 5).filter (supervises s)
    onAna (fun a => { a with ch := a.ch.map fun c => { c with discard := 3, valid := false, round := [] } })
      (onPwr (fun p => { p with groups := p.groups.mapIdx fun g x => if named.contains g then {} else x }) s)
  else s

/-- WATCH_ROUND_SETTLE_END (R81). -/
def execWatchRoundSettleEnd (s : State) : Out := answer (settle s (roundSettled s))

/-- Whether a group has qualified. -/
def qualified (s : State) (g : Nat) : Bool := !(fieldGroup s g).st.dead

/-- The conversions of a reading (R81). -/
def readingConversions : Nat := 8

/-- The mean of the conversions a channel took in the round; none where it took none. The spec gives the mean no rounding.
DESIGN CHOICE (assumption 226). -/
def roundMean (c : AnaCh) : Option Int :=
  match c.round with
  | [] => none
  | l => some (divEven l.sum l.length)

/-- Whether the round waits no longer for a group, and for a channel of it (R81, R93): it has its reading, or its time has passed: the
settle time plus 1 s for a group that does not qualify, and 300 ms more for the conversions. DESIGN CHOICE (assumption 226). -/
def groupRead (s : State) (g : Nat) : Bool := qualified s g || decide (settleEnd s + 1000000000 ≤ s.mono)
def channelRead (s : State) (n : Nat) : Bool :=
  groupRead s (n / 4)
    && (!qualified s (n / 4) || decide (readingConversions ≤ (anaCh s n).round.length) || decide (settleEnd s + 1300000000 ≤ s.mono))

/-- Whether every reading that the round names has been taken, or given up. -/
def roundComplete (s : State) : Bool :=
  (List.range 16).all (fun n => !s.pwr.force.analogue.testBit n || channelRead s n)
  && (List.range 4).all fun g => !s.pwr.force.digital.testBit g || groupRead s g

/-- One WATCH_READING; the value of a channel that did not qualify is open. DEDUCED (assumption 55). A channel of a qualified group that took
no conversion is recorded in the same way, with BAD_FIELD_SUPPLY. DESIGN CHOICE (assumption 264). -/
def watchReading (unit : Nat) (ok : Bool) (value : Nat) (q : Byte) (s : State) : State :=
  if ok then raise .watchReading .info 0xFF unit value q.toNat s
  else
    let (v, s) := freed Config.freeNat s
    raise .watchReading .info 0xFF unit (v % 2 ^ 32) qSupply.toNat s

/-- The bitmap of a group's eight inputs. -/
def groupBitmap (s : State) (g : Nat) : Nat :=
  ((List.range 8).map fun i => 2 ^ i * bit (dioCh s (8 * g + i)).level).sum

/-- The readings are recorded and the module sleeps again (R81, R93). A digital group's reading has the quality GOOD as soon as the group has
qualified, whether its inputs have completed their debounce or not. DESIGN CHOICE (assumption 263). -/
def readingsDone (s : State) : State :=
  if s.pwr.hbr = .reading ∧ roundComplete s then
    let s := forAll ((List.range 16).filter fun n => s.pwr.force.analogue.testBit n) (fun n t =>
      watchReading n (qualified t (n / 4) && (roundMean (anaCh t n)).isSome) (signed32 ((roundMean (anaCh t n)).getD 0))
        (anaQuality t n) t) s
    let s := forAll ((List.range 4).filter fun g => s.pwr.force.digital.testBit g) (fun g t =>
      watchReading g (qualified t g) (groupBitmap t g) qGood t) s
    clocksAsleep
      (onPwr (fun p => { p with hbr := .asleep, pwrOnState := false, rounds := satInc 32 p.rounds }) s)
  else s

/-- WATCH_READINGS_DONE (R81). -/
def execWatchReadingsDone (s : State) : Out := answer (settle s (readingsDone s))

/-- PWRON_FAULT (R84). -/
def execPwronFault (s : State) : Out :=
  answer (if s.pwr.pwrOnState then pwrFlag 20 (onPwr (fun p => { p with pwrOnState := false }) s) else s)

/-- A write of PWR_PWRON (R84, R86): outside harbour watch PWRON follows ON. DEDUCED (assumption 56). -/
def writePwrOn (v : Word) (s : State) : State :=
  onPwr (fun p =>
    { p with pwrOn := v.getLsbD 0
             pwrOnState := if s.sys.mode = .harbour then p.pwrOnState else v.getLsbD 0 }) s

end Sys2Proof.Machine
end

