-- ==== Sys2Proof/Machine/Begin.lean ====
section
/-! DEFINITION. What outlives a start and what it makes afresh, and the steps of a start up to the code test (02_burgee_and_start.md R47,
R52 to R58; 17_calendar_clock.md R442, R443, R452; 18_event_recorder.md R461, R462, R467, R468; 20_status_panel.md R505, R510;
22_wear_and_replacement.md R537). -/

namespace Sys2Proof.Machine

/-! ### What outlives a start -/

/-- A brake function with what MRAM keeps of it (R430, R436). DEDUCED (assumption 39). -/
def SafeFunc.kept (f : SafeFunc) : SafeFunc :=
  { last := f.last, due := f.due, failStands := f.failStands, hours := f.hours, hourSecs := f.hourSecs }

/-- A digital channel at a start: its stage and last command, its switch-on count, and a silence that is still to be recorded (R376,
R378). A release by a halt ends (R377). -/
def DioCh.kept (c : DioCh) : DioCh :=
  { held := c.held, stage := c.stage, switches := c.switches, relDemand0 := c.relDemand0, relDemand1 := c.relDemand1
    silentRec := c.silentRec, diag := if c.silentRec then 0x20 else 0 }

/-- An analogue channel at a start: a silence that is still to be recorded. -/
def AnaCh.kept (c : AnaCh) : AnaCh := { silentRec := c.silentRec, diag := if c.silentRec then 0x0800 else 0 }

/-- The settings that the backup domain keeps: those of harbour watch (R442). -/
def PwrSet.kept (p : PwrSet) : PwrSet := { p with policy := 0 }

/-- The PWR window at a start: measured values as after reset, every group in the start-up LOST, the harbour settings of the backup domain
in force (R64, R71, R86, R88, R90, R442). The energy of the store is as it stands. DEDUCED (assumption 225). Without an accepted key the shadows show the settings that the backup
domain keeps. DESIGN CHOICE (assumption 266). -/
def Pwr.kept (p : Pwr) : Pwr :=
  { p with
    railsOff := false, powerDown := false, flags := 0, hbr := .none, retentionLost := false, wakeWait := [], pwrOn := false
    pwrOnState := false, force := p.force.kept, shadow := p.force.kept, copied := p.force.kept, commit := {}
    x1V := 0, x2mV := 0, busmV := 0, power10mW := 0, esr := 0, cap := 0, holdupMs := 0
    standing := p.standing &&& ~~~(0xC : Word), harbourEnabled := false, lossNoted := p.lossNoted || p.retentionLost
    source := if p.x1 then .mains else if p.x2 && !p.x2Cut then .backup else p.source
    groups := List.replicate 5 {} }

/-- The pair side at a start: the larger of the two stored epochs (R235), the link of P3, and a Jack's records. -/
def Pair.kept (p : Pair) : Pair :=
  { linkP3 := p.linkP3, epoch := max p.epoch p.epochCopy, epochCopy := max p.epoch p.epochCopy, jack := p.jack }

/-- The ring at a start: the state of its ports. -/
def Ring.kept (r : Ring) : Ring :=
  { link1 := r.link1, link2 := r.link2, blocked1 := r.blocked1, blocked2 := r.blocked2, hsrSeq := r.hsrSeq }

/-- The recorder at a start: MRAM, the counts and the staged records (R461, R466, R468). -/
def Log.kept (l : Log) : Log :=
  { l with maxStaged := l.staged.length, flags := 0, sdk := {}, plant := {}, refusedAt := [], rebuilding := false, userEnable := true
           userMaxSev := 1 }

/-- The backup domain's clock at a start (R456). DEDUCED (assumption 36). -/
def Rtc.kept (r : Rtc) : Rtc :=
  { r with shadow := { time := r.now, weekday := r.weekday, alarms := r.alarms, filter := r.filter }, commit := {}
           discipline := none, sdk := {}, plant := {} }

/-- The plant port at a start: the address of the last accepted key; no session stays open (R475). -/
def Plant.kept (p : Plant) : Plant := { speed := p.speed, ipv4 := p.ipv4, netmask := p.netmask, gateway := p.gateway }

/-- The module as a start finds it: what the backup domain, MRAM, the panel and the field side keep, and everything else as after reset.
The reference clock runs; instants that stay are counted from `back`, where the monotonic base of the start has its 0 (R150).
DEDUCED (assumption 6). -/
def freshAt (back : Nat) (s : State) : State :=
  { sys := { clkHold := 0, refClock := true, hwRev := s.sys.hwRev, phy := s.sys.phy, linkP4 := s.sys.linkP4 }
    key := s.key
    start := { phase := .early, last := s.start.last }
    pwr := { s.pwr.kept with rideAt := s.pwr.rideAt.map (· - back) }
    mem := { weak := weakAdd s.mem.weak s.mem.weakDue, prevFolds := s.mem.prevFolds }
    cyc := { haltCause := s.cyc.haltCause, haltPower := s.cyc.haltPower, startResult := s.cyc.startResult }
    pair := s.pair.kept, ring := s.ring.kept
    dio := { ch := s.dio.ch.map DioCh.kept }, ana := { ch := s.ana.ch.map AnaCh.kept }
    safe := { pathMissed := s.safe.pathMissed, fw := s.safe.fw, funcs := s.safe.funcs.map SafeFunc.kept }
    rtc := { s.rtc.kept with tickAt := s.rtc.tickAt - back }
    log := { s.log.kept with secBase := s.log.secBase - back }
    sec := { s.sec with signerSlot := 0x1F
                        standing := s.sec.standing.mapIdx fun i b => b && (i == 0 || i == 4) }
    plant := s.plant.kept
    panel := { s.panel with enabled := true, includeFault := false, minInterval := 10, location := [], startedAt := s.panel.startedAt.map (· - back)
                            flags := 0, disabled := false, driveRun := 0, deferred := 0 }
    free := s.free, sent := s.sent, pending := s.pending }

/-- A start that begins the monotonic base at 0: every one but the short path (R150). DEDUCED (assumption 6). -/
def fresh (s : State) : State := freshAt s.mono s

/-- The links of a module that had no logic power, and what its volatile memory held, are gone (R47). -/
def powerCycled (s : State) : State :=
  { s with
    sys := { s.sys with linkP4 := false }
    ring := {}
    pair := { s.pair with linkP3 := false }
    plant := { s.plant with speed := 0 }
    pwr := { s.pwr with rideAt := none, lastAction := 0, lastSource := 0, energy := 0, holdupReady := false
                        standing := s.pwr.standing &&& BitVec.twoPow 32 21 }
    mem := { s.mem with weakDue := [] }
    log := { s.log with staged := [], accepting := false, secBase := s.mono, nextSeq := s.log.index.next }
    panel := { s.panel with update := none, frame := 0, pending := false, correctiveDue := false } }

/-! ### The rows up to the code test -/

/-- The backup domain's stores at its first power-up (R442, R443). -/
def domainFirst (s : State) : State :=
  { s with
    rtc := { flags := flag 4 0, tickAt := s.rtc.tickAt, curve := s.rtc.curve, curveOk := s.rtc.curveOk }
    pair := { s.pair with epoch := s.pair.epochCopy }
    cyc := { s.cyc with haltCause := 0, haltPower := 0 }
    pwr := { s.pwr with force := {}, shadow := {}, copied := {}, harbourEnabled := false, rounds := 0, dips := 0, lossNoted := false }
    log := { s.log with opsecKept := 0, power := 0 }
    sec := { s.sec with identity := .generating, hasKey := false, idX := 0, idY := 0, locked := true, flags := 0
                        counts := [0, 0, 0, 0, 0], responses := List.replicate 5 .alert, everKey := false, deferred := [] }
    panel := { s.panel with shown := .white, inProgress := false, unknown := true } }

/-- A broken integrity word: first-power-up values, DOMAIN_LOST and its record (R443, R483).
DEDUCED (assumption 37). -/
def domainLost (s : State) : State := raise .rtcDomainLost .fault 0xFF 0 0 0 (domainFirst s)

/-- The index is rebuilt by a scan of every slot (R468), which goes on while records raised meanwhile are staged.
DESIGN CHOICE (assumption 259). -/
def rebuildIndex (s : State) : State :=
  let n := match newestSlot s.log with
    | none => s.log.nextSeq
    | some p => max s.log.nextSeq (p.2.seq + 1)
  raise .logIndexRebuilt .notice 0xFF slotTotal s.log.writing.length 0
    (onLog (fun l => ({ l with nextSeq := n, indexBad := false, rebuilding := true, rebuildAt := s.mono, flags := flag 3 l.flags }).indexed) s)

/-- The instant at which the operating second in progress began, where FRACTION would else fall below that of the newest record: so the triple
of R461 never decreases. DEDUCED (assumption 260). -/
def resumedSecond (s : State) (opsec : Nat) : Int :=
  match newestSlot s.log with
  | some p =>
    if p.2.power = s.log.power ∧ p.2.opsec = opsec ∧ opFraction s < p.2.frac then
      (s.mono : Int) - ((p.2.frac * nsPerSec + 65535) / 65536 : Nat)
    else s.log.secBase
  | none => s.log.secBase

/-- The recorder accepts records (R47, R461, R462, R467): operating seconds resume, records raised before take the counts in force, and slots
that a power loss interrupted are empty. -/
def recorderAccepts (s : State) : State :=
  let opsec := max s.log.opsecKept (((newestSlot s.log).map (·.2.opsec)).getD 0)
  let s := onLog (fun l => { l with secBase := resumedSecond s opsec }) s
  onLog (fun l =>
    { l with
      opsec := opsec, opsecKept := opsec, accepting := true
      staged := l.staged.map fun r => if r.flags.testBit 0 then { r with opsec := opsec, frac := opFraction s, power := l.power } else r
      flags := if l.writing.isEmpty then l.flags else flag 5 l.flags, writing := [] }) s

/-- The panel's flash and its flag (R505, R510): a flag whose update runs on over the start marks no cut (R512).
DEDUCED (assumption 221). -/
def panelChecks (x : StartIn) (s : State) : State :=
  let s := onPanel (fun p =>
    { p with
      flash := x.panel, noUpdate := !(x.panel.waveOk && x.panel.driveOk), unknown := p.unknown || (p.inProgress && p.update.isNone)
      flags := if x.panel.trimOk then p.flags else flag 4 p.flags }) s
  if x.panel.waveOk && x.panel.driveOk then s else raise .panelTableBad .fault 0xFF 0 0 0 (onPanel (fun p => { p with flags := flag 3 p.flags }) s)

/-- The silences that the output stages met are recorded (R376, R398). -/
def tellSilences (s : State) : State :=
  let d := (List.range 32).filter fun n => (dioCh s n).silentRec
  let a := (List.range 16).filter fun n => (anaCh s n).silentRec
  let s := forAll d (fun n t => raise .dioLogicSilent .fault n 0 0 0
    (onDio (fun x => { x with flags := flag 4 x.flags }) (onDioCh n (fun c => { c with silentRec := false }) t))) s
  forAll a (fun n t => raise .anaLogicSilent .fault n 0 0 0
    (onAna (fun x => { x with flags := flag 5 x.flags }) (onAnaCh n (fun c => { c with silentRec := false }) t))) s

/-- A record of an event that happened without logic power (R462): DEFERRED. -/
def raiseDeferred (e : Ev) (sev : Severity) (p1 p2 : Nat) (s : State) : State :=
  raiseRecord (.mod e) sev 2 e.subsystem 0xFF p1 p2 0 s

/-- Alarms that fired in harbour watch are recorded, and what happened without power (R452, R462): where an alarm fired then, each alarm whose
FIRED flag is set. DEDUCED (assumption 258). -/
def tellAlarms (s : State) : State :=
  let s := forAll s.rtc.untold (fun a t => raise .rtcAlarm .info 0xFF a.1 (bit a.2) 0 t) s
  let s := forAll s.rtc.unraised (fun x t => raiseDeferred x.1 x.2.1 x.2.2 0 t) s
  let s := forAll ([0, 1].filter fun a => !s.rtc.deferred.isEmpty && s.rtc.flags.getLsbD a) (fun a t =>
    raiseDeferred .rtcAlarm .info a 2 t) s
  onRtc (fun r => { r with untold := [], deferred := [], unraised := [] }) s

/-- The curve of the crystal and the state of the calendar (R443, R444). -/
def rtcChecks (x : StartIn) (s : State) : State :=
  let s := match x.curve with
    | some c => onRtc (fun r => { r with curveOk := true, curve := c }) s
    | none => raise .rtcCurveBad .fault 0xFF 0 0 0 (onRtc (fun r => { r with curveOk := false, flags := flag 6 r.flags }) s)
  if s.rtc.valid then s else raise .rtcNotSet .notice 0xFF 0 0 0 s

/-- What every start records and checks once the recorder accepts (R414, R452, R468, R487, R537), and network time from the
calendar (R308). -/
def startChecks (x : StartIn) (s : State) : State :=
  let s := if x.indexBad || s.log.indexBad then rebuildIndex s else s
  let s := recorderAccepts s
  let s := if 656 ≤ s.log.retired.length then raise .logWear .notice 0xFF s.log.retired.length 0 0 s else s
  let s := tellAlarms (rtcChecks x s)
  let s := tellSilences (tamperDeferred s)
  let s := if s.safe.pathMissed then raise .safetyPathFault .critical 0xFF 3 0 0 (onSafe (fun y => { y with pathMissed := false }) s)
    else s
  onTime (fun t => { t with ns := timeFromCalendar s t.utcOffset }) (panelChecks x s)

end Sys2Proof.Machine
end

