-- ==== Sys2Proof/Machine/Start.lean ====
section
/-! DEFINITION. The start sequence, its waits, the key in service and the return from harbour watch (02_burgee_and_start.md R34, R41, R44,
R46 to R58; 03_supplies_and_harbour_watch.md R80 to R83; 05_program_cycle.md R135; 22_wear_and_replacement.md R535). -/

namespace Sys2Proof.Machine

/-! ### From the code test to the accepted key -/

/-- The wear record is judged (R535): 80,000 erases, and 100,000. -/
def tellWear (s : State) : State :=
  let worn := (List.range 1024).filter fun i => decide (80000 ≤ wearCount s i)
  forAll worn (fun i t =>
    let n := wearCount t i
    let t := raise .keyWear .notice 0xFF i n 0 t
    if 100000 ≤ n then raise .keyWorn .fault 0xFF i n 0 t else t) s

/-- Whether an entry shows a digital or an analogue input of a group in LOST or QUALIFYING (R72). -/
def showsDeadInput (s : State) (e : SigEntry) : Bool :=
  (e.kind == 2 && field e.ref 8 2 == 0 && (dioCh s (field e.ref 0 5)).mode.isInput && (fieldGroup s (field e.ref 0 5 / 8)).st.dead)
  || (e.kind == 3 && field e.ref 8 2 == 0 && (anaCh s (field e.ref 0 4)).mode.isInput && (fieldGroup s (field e.ref 0 4 / 4)).st.dead)

/-- From the start on, the inputs of a group in the start-up LOST read BAD_FIELD_SUPPLY; every other entry keeps what R193 gives it until its
source writes it (R72, R193). DEDUCED (assumption 174). -/
def entriesShow (s : State) : State :=
  let shown := fun (p : Nat × SigEntry) => if showsDeadInput s p.2 then (p.1, { p.2 with quality := qSupply }) else p
  onSig (fun g => { g with entries := g.entries.map shown }) s

/-- What follows a command that starts the module: the items that the start itself sets are no changes of them (R193). -/
def startSettle (t : State) : State := settle t t

/-- Ports that the set leaves unused are powered off and have no link (R47, R283, R475). DEDUCED (assumption 38). -/
def portsOff (s : State) : State :=
  let on := fun n => s.sys.ports.getD n false
  { s with
    sys := { s.sys with phy := s.sys.ports, linkP4 := s.sys.linkP4 && on 3 }
    ring := { s.ring with link1 := s.ring.link1 && on 0, link2 := s.ring.link2 && on 1 }
    pair := { s.pair with linkP3 := s.pair.linkP3 && on 2 }
    plant := { s.plant with speed := if on 3 then s.plant.speed else 0 } }

/-! ### The ends of the waits (R47, R57) -/

/-- A pair side listens for pennants (R57). -/
def listens (s : State) : State :=
  onPair (fun p => { p with st := .listen }) (onStart (fun t => { t with phase := .listening, heard := [] }) s)

/-- The link wait ends: a SOLO module or a Jack takes its role, a pair side listens (R57). -/
def linkWaitEnd (s : State) : State :=
  if s.start.phase = .linkWait then
    match (hdr s).kind with
    | 0 => startOk .solo none s
    | 3 => startOk .jack none s
    | _ => listens s
  else s

/-- LINK_WAIT_END (R47). -/
def execLinkWaitEnd (s : State) : Out := answer (settle s (linkWaitEnd s))

/-- Whether port `n`, counted from 0, has link. -/
def portLink (s : State) (n : Nat) : Bool :=
  [s.ring.link1, s.ring.link2, s.pair.linkP3, s.sys.linkP4].getD n false

/-- Whether the links that the start waits for are there (R47, R57): of a SOLO module those of every port in use, of a Jack those of its
STATION section, of a pair side that of P3. -/
def linksMet (s : State) : Bool :=
  match (hdr s).kind with
  | 0 => (List.range 4).all fun n => !(s.sys.ports.getD n false) || portLink s n
  | 3 => (!s.pair.jackRing || (portLink s 0 && portLink s 1)) && (!s.pair.jackP4 || portLink s 3)
  | _ => portLink s 2

/-- Whether the start's sampling row is done (R47): every input channel in use has its first valid sample, or the row's worst case has passed.
DEDUCED (assumption 268). -/
def sampled (s : State) : Bool :=
  (s.dio.ch.all (fun c => !c.mode.isInput || c.valid) && s.ana.ch.all fun c => !c.mode.isInput || c.valid)
    || decide (1300000000 ≤ s.mono)

/-- The wait ends as soon as its links are there and the channels are sampled. -/
def linksEnd (s : State) : State := if sampled s && linksMet s then linkWaitEnd s else s

/-- A port gains link, which may end a start's wait (R47, R57, R280). -/
def linkGained (port speed : Nat) (s : State) : State := linksEnd (linkUp port speed s)

/-- LINK_UP (R57, R280). -/
def execLinkUp (port speed : Nat) (s : State) : Out := answer (settle s (linkGained port speed s))

/-- A set that has passed its checks is put in force, and the link wait runs (R46, R47, R51, R58). -/
def acceptSet (k : KeySet) (s : State) : State :=
  let h := k.header
  let s := onStart (fun t => { t with phase := .linkWait, bad := k.bad, last := some (h.keyId, h.seq, h.startSet) }) (portsIntegrate (k.apply s))
  linksEnd (entriesShow (portsOff (k.tellAllowance s)))

/-- The key is read and checked (R34, R41 to R43, R46, R50, R51, R543). A key that leaves meanwhile ends the start (R54); what of it had
been read by then is open, and the model takes none. DESIGN CHOICE (assumption 227). -/
def readKey (x : StartIn) (s : State) : State :=
  let s := onStart (fun t => { t with keyRead := true }) s
  if !s.key.present then startFails keyAbsent 0 0 s
  else if x.removed then startFails keyRemoved 0 0 (onKey (fun k => { k with present := false }) s)
  else if s.key.capacityMB ≠ 64 ∨ !s.key.answers then startFails keyUnreadable 0 0 s
  else
    match selectHeader s x.readFails with
    | .error e => startFails e 0 0 s
    | .ok h =>
      let s := tellWear s
      if !levelImplemented h.level then startFails keyLevel 0 0 s
      else
        match readSet s x.readFails h h.startSet with
        | .error (e, bad) => startFails e 0 0 (tellBad bad s)
        | .ok k =>
          let s := tellBad k.bad s
          match k.check with
          | some (e, p2, p3) => startFails e p2 p3 s
          | none => acceptSet k s

/-- The start from the code test onward (R47 to R49, R110). The errors that the code test injects leave no trace in the MEM window, nor in
the weak-row record. DESIGN CHOICE (assumption 228). -/
def fromCodeTest (x : StartIn) (s : State) : State :=
  if !x.coder then startHalts memCoderFail s
  else
    let f := foldAll s.mem.weak s.log.power x.rowFails
    let s := applyFolding f s
    if f.full then startHalts memSpareExhausted s else readKey x s

/-- The carrier in socket K as the start finds it. -/
def insertKey (x : StartIn) (s : State) : State :=
  match x.key with
  | some k => onKey (fun _ => k) s
  | none => s

/-- The clocks lock: the fast clocks run, and the glitch sensors are armed (R29, R47, R486). -/
def clocksLock (s : State) : State := onSec (fun k => { k with armed := true }) (clocksRun s)

/-- A cold start (R47). -/
def coldStart (x : StartIn) (s : State) : State :=
  let s := fresh (powerCycled (insertKey x s))
  if !x.locked then startHalts clockFail s
  else
    let s := clocksLock s
    let s := if x.domainLost then domainLost s else s
    let s := onLog (fun l => { l with power := satInc 24 l.power }) s
    let s := onSys (fun y => { y with phy := [true, true, true, true] }) (startChecks x s)
    fromCodeTest x s

/-- Whether logic power was absent: before the first start, after a power-down, or after retention ended (R47, R83). -/
def coldStartDue (s : State) : Bool :=
  s.pwr.railsOff || (s.sys.mode == .starting && s.start.phase == .idle) || (s.sys.mode == .harbour && s.pwr.retentionLost)

/-- COLD_START (R47): the bus enters its range after logic power was absent. -/
def execColdStart (x : StartIn) (s : State) : Out := answer (if coldStartDue s then startSettle (coldStart x s) else s)

/-- Forces are released at every start (R144). DEDUCED (assumption 42). -/
def releaseForces (s : State) : State := forAll (s.cyc.forces.map (·.1)) forceFree s

/-- A start from the code test onward, the module never having been without logic power (R135, R58). -/
def warmStart (x : StartIn) (s : State) : State :=
  let s := fresh (insertKey x (releaseForces (setMode .starting s)))
  if !x.locked then startHalts clockFail s
  else fromCodeTest x (startChecks x (onSys (fun y => { y with phy := [true, true, true, true] }) (clocksLock s)))

/-- A RESTART request (R135 to R138): refused by a cause, else a start from the code test. -/
def modeRestart (r : Reader) (x : StartIn) (s : State) : State :=
  match modeCause 4 s with
  | 0 => warmStart x (busesStop (dropRole (stopTasks (olcAbandon olcAbandoned s))))
  | cause => modeRefuse 4 cause r s

/-- MODE_REQ_RESTART (R135). -/
def execModeReqRestart (r : Reader) (x : StartIn) (s : State) : Out := answer (startSettle (modeRestart r x s))

/-! ### The end of listening (R57) -/

/-- Whether a pennant shows the set this module starts from. -/
def sameSet (s : State) (p : Pennant) : Bool := p.digest == s.olc.digest && p.gen == s.olc.gen

/-- A side joins as STANDBY (STALE) with the active's release epoch (R57, R125). -/
def joinStandby (p : Pennant) (s : State) : State :=
  let s := onPair (fun x => { x with st := .standby, partner := some p, partnerAt := s.mono, silent := false }) s
  let s := if s.pair.epoch < p.epoch then storeEpoch p.epoch s else s
  let (e, s) := epochHeard s
  becomeStale 1 (startOk .standby e s)

/-- The 5 ms of listening end (R57): what was heard decides. DEDUCED (assumption 44). -/
def listenEnd (s : State) : State :=
  if s.start.phase = .listening then
    let active := s.start.heard.filter fun p => p.role == 2
    if active.any fun p => p.side == s.pair.side || !sameSet s p then startMismatch s
    else
      match active.getLast? with
      | some p => joinStandby p s
      | none => enterQuery 1 (onStart (fun t => { t with phase := .querying }) s)
  else s

/-- ROLE_DISCOVERY_LISTEN_END (R57). -/
def execRoleDiscoveryListenEnd (s : State) : Out := answer (settle s (listenEnd s))

/-! ### The key in service (R44, R54, R55) -/

/-- Whether a start is in progress: from its first key read to its result. -/
def startRuns (s : State) : Bool := s.start.phase != .idle && s.start.keyRead

/-- The configuration of a start that fails is given up: every block takes its defaults (R52). -/
def unload (s : State) : State :=
  let t := freshAt 0 s
  { s with
    start := { s.start with header := none, accepted := false, dir := [], secs := [], bad := [], heard := [] }
    mem := { s.mem with cells := [], banks := s.mem.banks.map fun b => { b with owner := .test, use := .general, grants := [] } }
    pwr := { s.pwr with force := s.pwr.force.kept, shadow := s.pwr.force.kept, copied := s.pwr.force.kept, harbourEnabled := false }
    cyc := t.cyc, olc := {}, sig := {}, eng := {}, hoist := {}, pair := s.pair.kept
    ring := s.ring.kept
    time := { ns := s.time.ns }, can := List.replicate 4 {}, que := {}
    dio := t.dio, ana := t.ana, safe := t.safe, ser := {}, plant := t.plant, sec := { s.sec with signerSlot := 0x1F }
    log := { s.log with userEnable := true, userMaxSev := 1 }
    panel := { s.panel with enabled := true, includeFault := false, minInterval := 10, location := [] } }

/-- The key leaves socket K during a start (R54). -/
def keyRemovedAtStart (s : State) : State := startFails keyRemoved 0 0 (unload s)

/-- KEY_REMOVED (R54). -/
def execKeyRemoved (s : State) : Out :=
  answer (if startRuns s then startSettle (keyRemovedAtStart (onKey (fun k => { k with present := false }) s))
    else onKey (fun k => { k with present := false }) s)

/-- The key leaves socket K outside a start (R55, R176, R486, R489): an online change ends, whose record has the lower SOURCE (R464);
KEY_OUT once, no further write, tamper source 1 in RUN. Elsewhere the events of one command take their SEQUENCE in the order in which it
raises them. DESIGN CHOICE (assumption 261). -/
def keyOut (s : State) : State :=
  let s := olcAbandon olcAbandoned (onKey (fun k => { k with present := false }) s)
  let s := if s.start.keyOut then s
    else
      raise .keyOut .notice 0xFF s.sys.mode.code 0 0
        (onSec (fun k => { k with flags := flag 8 k.flags }) (onStart (fun t => { t with keyOut := true }) s))
  if s.sys.mode = .run then tamperEnter 1 s else s

/-- Whether socket K is sensed: outside a start, with the logic awake (R55). -/
def keySensed (s : State) : Bool := !s.pwr.railsOff && s.pwr.hbr != .asleep && s.sys.mode != .starting

/-- KEY_OUT (R55). -/
def execKeyOut (s : State) : Out := answer (if keySensed s then settle s (keyOut s) else s)

/-- The offset and the bytes of a bad copy's good twin: a directory's with its CRC, or a section's (R36, R42).
DEDUCED (assumption 46). -/
def repairOf (s : State) (b : BadCopy) : Option (Nat × List Byte) :=
  let base := setBase (startSetOf s)
  if b.typ = 0 then
    let n := 64 + 64 * s.start.dir.length + 4
    some (base + sectorBytes * b.copy, keyBytes s (base + sectorBytes * (1 - b.copy)) n)
  else
    (s.start.dir.find? fun e => e.typ == b.typ && e.inst == b.inst).map fun e =>
      let dest := if b.copy = 0 then e.offsetA else e.offsetB
      let from_ := if b.copy = 0 then e.offsetB else e.offsetA
      (base + dest, keyBytes s (base + from_) e.length)

/-- What flash holds where a read-back failed: bytes that nothing states. DESIGN CHOICE (assumption 229). -/
def programOpen (off n : Nat) (s : State) : State :=
  let (k, s) := freed Config.freeNat s
  programKey off (leBytes n k) s

/-- One bad copy is rewritten from the good one and read back (R44). A copy whose repair fails holds bytes that nothing states and is not
tried again until the next start. The records carry no parameter (R460). -/
def keyCopyRepair (ok : Bool) (s : State) : State :=
  if s.sys.mode = .run ∧ s.olc.phase = .idle ∧ keyWritable s then
    match s.start.bad with
    | [] => s
    | b :: rest =>
      match repairOf s b with
      | none => s
      | some (off, l) =>
        let s := rewriteKey off l (onStart (fun t => { t with bad := rest }) (startClock .peripheral s))
        if ok then raise .keyCopyRepaired .notice 0xFF 0 0 0 s
        else
          raise .keyCopyRepairFailed .fault 0xFF 0 0 0
            (onStart (fun t => { t with failed := t.failed ++ [b] }) (programOpen off l.length s))
  else s

/-- KEY_COPY_REPAIR (R44). -/
def execKeyCopyRepair (ok : Bool) (s : State) : Out := answer (keyCopyRepair ok s)

/-! ### Leaving harbour watch (R58, R80 to R83) -/

/-- The action of a wake source: 1 ROUND, 2 RUN, 0 none; 3 acts as 0 (R92). -/
def wakeAction (s : State) (w : WakeSource) : Nat :=
  let i := match w with
    | .alarm0 => 0
    | .alarm1 => 1
    | .wakeInput => 2
    | .x1Return => 3
  let a := s.pwr.force.wake / 4 ^ i % 4
  if a = 3 then 0 else a

/-- SOURCE of PWR_HBR_LAST (R86). -/
def WakeSource.code : WakeSource → Nat
  | .alarm0 => 1
  | .alarm1 => 2
  | .wakeInput => 3
  | .x1Return => 4

/-- Whether every bank that holds loaded content was retained (R58). -/
def allRetained (s : State) : Bool :=
  s.start.accepted && (List.range 16).all fun n => !holdsLoaded s n || (bankAt s (answering s n)).retained

/-- The header that would be selected is the one accepted at the last start, of a level that the build implements (R2, R46, R58). -/
def sameHeader (x : StartIn) (s : State) : Option Header :=
  if s.key.present && s.key.answers && s.key.capacityMB == 64 && !x.removed then
    match selectHeader s x.readFails with
    | .ok h => if s.start.last = some (h.keyId, h.seq, h.startSet) ∧ levelImplemented h.level then some h else none
    | .error _ => none
  else none

/-- The set in force, as the module holds it. -/
def heldSet (s : State) : KeySet := { header := hdr s, dir := s.start.dir, secs := s.start.secs, bad := s.start.bad ++ s.start.failed }

/-- The banks on the short path: what was retained with its errors and folds; counts and the scrubber's place are afresh (R58, R112). -/
def Mem.again (m t : Mem) (now : Nat) : Mem :=
  { t with
    banks := m.banks.mapIdx fun n b =>
      { b with ce := 0, ue := 0, clearing := false, powered := m.folded != some n }
    cells := m.cells, errs := m.errs, found := m.found, folded := m.folded, firstFast := true, sweepAt := now }

/-- The short path (R58): retained content stays and the monotonic base runs on; otherwise it is a start, and every block loads the set
that the module holds (R87, R144, R150). DEDUCED (assumption 43). -/
def awakened (s : State) : State :=
  let k := heldSet s
  let t := { freshAt 0 s with mono := s.mono, monoFrac := s.monoFrac, mem := s.mem.again (freshAt 0 s).mem s.mono }
  let t := k.apply t
  { t with
    sys := { t.sys with phy := t.sys.ports }
    start := { t.start with phase := .linkWait, keyRead := true, secs := k.secs, bad := k.bad }
    mem := { t.mem with cells := s.mem.cells }
    dio := { t.dio with refreshAt := s.mono }
    cyc := { t.cyc with instances := s.cyc.instances, codeBase := s.cyc.codeBase, dataBase := s.cyc.dataBase }
    olc := { gen := s.olc.gen, set := s.olc.set, digest := s.olc.digest } }

/-- The short path with its clocks locked and its code test passed: a SOLO module takes its role at once, the others wait for their links
(R58, R82, R535). DEDUCED (assumption 43). -/
def shortPath (x : StartIn) (s : State) : State :=
  let s := entriesShow (tellWear (tellSpares (startChecks x (clocksLock (portsIntegrate (awakened s))))))
  if (hdr s).kind = 0 then linkWaitEnd s else s

/-- A RUN wake (R58, R82). -/
def wakeRun (x : StartIn) (s : State) : State :=
  if s.pwr.retentionLost then coldStart x s
  else if x.locked && x.coder && allRetained s && (sameHeader x (insertKey x s)).isSome then
    shortPath x (setMode .starting (releaseForces (insertKey x s)))
  else warmStart x s

/-- A ROUND wake (R81): PWRON on, and the settle time runs. -/
def wakeRound (w : WakeSource) (s : State) : State :=
  let s := onSys (fun y => { y with refClock := true, coreAwake := true }) s
  raise .watchRound .info 0xFF w.code 0 0 (tellAlarms (scrubAfresh (onPwr (fun p => { p with hbr := .settling, pwrOnState := true, roundAt := s.mono }) s)))

/-- The wake sources that wait take their actions (R80): RUN beats ROUND, and a ROUND that comes during a round is dropped. Of several sources
of one action PWR_HBR_LAST names the one that came first; a source whose action is none leaves it as it is.
DESIGN CHOICE (assumption 230). -/
def harbourWake (x : StartIn) (s : State) : State :=
  if s.sys.mode = .harbour then
    let l := s.pwr.wakeWait
    let s := onPwr (fun p => { p with wakeWait := [] }) s
    match l.find? (wakeAction s · == 2), l.find? (wakeAction s · == 1) with
    | some w, _ => wakeRun x (onPwr (fun p => { p with lastAction := 2, lastSource := w.code }) s)
    | none, some w =>
      if s.pwr.retentionLost then coldStart x s
      else if s.pwr.hbr = .asleep then wakeRound w (onPwr (fun p => { p with lastAction := 1, lastSource := w.code }) s)
      else s
    | none, none => s
  else s

/-- HARBOUR_WAKE (R80). -/
def execHarbourWake (x : StartIn) (s : State) : Out := answer (startSettle (harbourWake x s))

end Sys2Proof.Machine
end

