-- ==== Sys2Proof/Machine/Commit.lean ====
section
/-! DEFINITION. The commit registers (00_scope.md R9, R10): a write is accepted or refused, and the copied set takes effect at the
block's own boundary (R87, R115, R153, R198, R220, R304, R323, R331, R336, R456, R501). -/

namespace Sys2Proof.Machine

/-- Whether a commit register accepts a value (R10): GENERATION plus 1 modulo 65,536, and no set is pending.
DEDUCED (assumption 21). -/
def Commit.accepts (c : Commit) (v : Word) : Bool := !c.pending && v.setWidth 16 == c.gen + 1

/-- A commit register after a write at an instant (R10). -/
def Commit.write (c : Commit) (v : Word) (now : Nat) : Commit :=
  if c.accepts v then { gen := c.gen + 1, pending := true, err := false, at_ := now } else { c with err := true }

/-- What a commit register reads (R9). -/
def Commit.word (c : Commit) : Word := packFields [(31, 1, bit c.err), (30, 1, bit c.pending), (0, 16, c.gen.toNat)]

/-- The commit register of a block. -/
def commitOf (s : State) : Block → Commit
  | .pwr => s.pwr.commit
  | .mem => s.mem.commit
  | .cyc => s.cyc.commit
  | .sig => s.sig.commit
  | .loop => s.eng.commit
  | .ring => s.ring.commit
  | .time => s.time.commit
  | .can p => (canPort s p).commit
  | .que => s.que.commit
  | .rtc => s.rtc.commit
  | .ser n => (serLine s n).commit

/-- An update of a block's commit register. -/
def onCommit (f : Commit → Commit) (s : State) : Block → State
  | .pwr => onPwr (fun p => { p with commit := f p.commit }) s
  | .mem => onMem (fun p => { p with commit := f p.commit }) s
  | .cyc => onCyc (fun p => { p with commit := f p.commit }) s
  | .sig => onSig (fun p => { p with commit := f p.commit }) s
  | .loop => onEng (fun p => { p with commit := f p.commit }) s
  | .ring => onRing (fun p => { p with commit := f p.commit }) s
  | .time => onTime (fun p => { p with commit := f p.commit }) s
  | .can n => onCan n (fun p => { p with commit := f p.commit }) s
  | .que => onQue (fun p => { p with commit := f p.commit }) s
  | .rtc => onRtc (fun p => { p with commit := f p.commit }) s
  | .ser n => onLine n (fun p => { p with commit := f p.commit }) s

/-- The copy of a block's shadows that an accepted write takes. Of the loops, those written since the last accepted commit (R220). -/
def copyShadows (s : State) : Block → State
  | .pwr => onPwr (fun p => { p with copied := p.shadow }) s
  | .mem => onMem (fun p => { p with copied := p.shadow }) s
  | .cyc => onCyc (fun p => { p with escCopied := p.escShadow }) s
  | .sig => onSig (fun p => { p with copied := p.shadow }) s
  | .loop =>
    onEng (fun e => { e with loops := e.loops.map fun p =>
      (p.1, if p.2.dirty then { p.2 with copied := some p.2.shadow, dirty := false } else p.2) }) s
  | .ring => onRing (fun p => { p with copied := p.shadow }) s
  | .time => onTime (fun t => { t with pulses := t.pulses.map fun p => { p with copied := p.shadow } }) s
  | .can n => onCan n (fun p => { p with copied := p.shadow }) s
  | .que => onQue (fun p => { p with copied := p.shadow }) s
  | .rtc => onRtc (fun p => { p with copied := p.shadow }) s
  | .ser n => onLine n (fun p => { p with copied := p.shadow }) s

/-- Loops take their accepted sets; PENDING clears with the last (R220). -/
def loopsTake (which : Loop → Bool) (s : State) : State :=
  loopCommitEnd (forAll ((s.eng.loops.filter fun p => which p.2).map (·.1)) loopTakeSet s)

/-- Whether a port's boundary is acceptance: it is OFF, bus-off or integrating (R331). -/
def CanState.silent : CanState → Bool
  | .errorActive | .errorPassive => false
  | _ => true

/-- A boundary that the acceptance itself is: loops that do not compute (R220), a port that is not on the bus (R331), an assignment of a
queue that holds nothing (R336). DEDUCED (assumption 22). -/
def boundaryAtOnce (s : State) : Block → State
  | .loop => loopsTake (fun l => !(l.enabled && loopsMode s)) s
  | .can p => if (canPort s p).st.silent then canBoundary p s else s
  | .que => queBoundary s
  | _ => s

/-- A write of a block's commit register: accepted, the shadows copied, or refused with no other effect. -/
def commitWrite (b : Block) (v : Word) (s : State) : State :=
  if (commitOf s b).accepts v then boundaryAtOnce (onCommit (·.write v s.mono) (copyShadows s b) b) b
  else onCommit (·.write v s.mono) s b

/-- COMMIT_WRITE (R10): a write that has passed the check of its reader. -/
def execCommitWrite (b : Block) (v : Word) (s : State) : Out := answer (settle s (commitWrite b v s))

/-- Whether the next release instant of a task has come, or where it has none the next whole millisecond after an acceptance
(R153, R198, R304). A task that is enabled but has no release instants in the present mode or role counts as one that has none.
DESIGN CHOICE (assumption 274). -/
def instantDue (s : State) (n accepted : Nat) : Bool :=
  if hasInstants s n then decide (nextRelease s n ≤ s.mono) else decide (nextMs accepted ≤ s.mono)

/-- Whether a tick of a loop's group has come (R220). -/
def tickDue (s : State) (l : Loop) : Bool := decide ((s.eng.groups.getD l.group {}).nextTick ≤ s.mono)

/-- A block's own boundary: the copied set takes effect whole and PENDING clears. An instant that the state tells must have come; the others
are the command's. The boundary of RTC_COMMIT is a second tick (R456), which SECOND_TICK makes. -/
def blockBoundary (s : State) : Block → State
  | .pwr => pwrBoundary s
  | .mem => memBoundary s
  | .cyc => if instantDue s 0 s.cyc.commit.at_ then cycBoundary s else s
  | .sig => if instantDue s 0 s.sig.commit.at_ then sigBoundary s else s
  | .loop => if s.eng.commit.pending then loopsTake (tickDue s) s else s
  | .ring =>
    match stationOf s s.ring.copied.station with
    | some x => if hasInstants s x.task && decide (nextRelease s x.task ≤ s.mono) then ringBoundary s else s
    | none => if nextMs s.ring.commit.at_ ≤ s.mono then ringBoundary s else s
  | .time => timeBoundary s
  | .can p => if (canPort s p).onBus.isNone then canBoundary p s else s
  | .que => queBoundary s
  | .rtc => s
  | .ser n => serBoundary n s

/-- COMMIT_BOUNDARY (R10). -/
def execCommitBoundary (b : Block) (s : State) : Out := answer (settle s (blockBoundary s b))

end Sys2Proof.Machine
end

