-- ==== Sys2Proof/Machine/RegsCore.lean ====
section
/-! DEFINITION. The windows SYS, PWR, MEM, CYC and SIG of the system register space: what each register reads and what a write does
(R24, R28, R29, R86 to R93, R114 to R123, R152 to R162, R178 to R180, R196 to R199). A reserved address reads 0 and takes no write
(R8, R25). -/

namespace Sys2Proof.Machine

/-- A count as a register word. -/
def nw (n : Nat) : Word := BitVec.ofNat 32 n

/-- Bits 31:0 and 63:32 of a datum. -/
def lowWord (d : Datum) : Word := d.extractLsb' 0 32
def highWord (d : Datum) : Word := d.extractLsb' 32 32

/-- A datum with its low or high half replaced. -/
def withLow (d : Datum) (v : Word) : Datum := highWord d ++ v
def withHigh (d : Datum) (v : Word) : Datum := v ++ lowWord d

/-- A 64-bit count with its low or high half replaced. -/
def natLow (n : Nat) (v : Word) : Nat := n / 2 ^ 32 * 2 ^ 32 + v.toNat
def natHigh (n : Nat) (v : Word) : Nat := v.toNat * 2 ^ 32 + n % 2 ^ 32

/-- A bit per element of a list that a test names, the first in bit 0. -/
def mapBits {α : Type} (l : List α) (p : α → Bool) : Nat :=
  l.foldr (fun a n => bit (p a) + 2 * n) 0

/-! ### SYS (R24, R28, R29) -/

/-- What the SYS window reads. -/
def sysRead (a : Nat) (s : State) : Word :=
  match a with
  | 0x0000 => 0x7200524D
  | 0x0004 => nw s.sys.hwRev
  | 0x0008 => 0x00000006
  | 0x000C => sysState s
  | 0x0010 => s.sys.clkHold ||| 1
  | 0x0014 => clkStat s
  | _ => 0

/-- A write in the SYS window. -/
def sysWrite (a : Nat) (v : Word) (s : State) : State :=
  match a with
  | 0x0010 => writeClkHold v s
  | _ => s

/-! ### PWR (R86 to R93) -/

/-- SOURCE of PWR_STATUS (R88). -/
def Source.code : Source → Nat
  | .mains => 0
  | .backup => 1
  | .holdup => 2

/-- PWR_STATUS (R88). -/
def pwrStatus (p : Pwr) : Word :=
  packFields
    [(8, 1, bit p.harbourEnabled), (7, 1, bit p.powerDown), (6, 1, bit p.holdupReady), (4, 2, p.source.code), (2, 1, bit p.x2),
     (1, 1, bit p.x1Dc), (0, 1, bit p.x1)]

/-- PWR_FGRP_A to PWR_FGRP_F (R90), groups 0 to 4. -/
def fgrpWord (s : State) (g : Nat) : Word :=
  packFields
    [(16, 16, (fieldGroup s g).lplus), (3, 1, bit (g != 4 && s.pwr.force.policy.testBit g)), (0, 3, (fieldGroup s g).st.code)]

/-- What the PWR window reads. -/
def pwrRead (a : Nat) (s : State) : Word :=
  let p := s.pwr
  match a with
  | 0x0800 => pwrStatus p
  | 0x0804 => p.flags
  | 0x0808 => packFields [(22, 10, p.x1V), (0, 16, p.x2mV)]
  | 0x080C => packFields [(16, 16, p.busmV), (0, 16, p.power10mW)]
  | 0x0810 => packFields [(16, 16, p.esr), (0, 16, p.cap)]
  | 0x0814 => packFields [(16, 16, p.energy), (0, 16, p.holdupMs)]
  | 0x0818 => fgrpWord s 0
  | 0x081C => fgrpWord s 1
  | 0x0820 => fgrpWord s 2
  | 0x0824 => fgrpWord s 3
  | 0x0828 => fgrpWord s 4
  | 0x0830 => nw p.shadow.policy
  | 0x0834 => packFields [(16, 16, p.shadow.autoEnter)]
  | 0x0838 => nw p.shadow.retain
  | 0x083C => nw p.shadow.wake
  | 0x0840 => packFields [(20, 12, p.shadow.settle), (16, 4, p.shadow.digital), (0, 16, p.shadow.analogue)]
  | 0x0844 => packFields [(4, 2, p.lastAction), (0, 3, p.lastSource)]
  | 0x0848 => nw p.rounds
  | 0x084C => packFields [(1, 1, bit p.pwrOnState), (0, 1, bit p.pwrOn)]
  | 0x0850 => nw p.dips
  | 0x0854 => p.commit.word
  | _ => 0

/-- An update of the PWR shadows. -/
def onPwrShadow (f : PwrSet → PwrSet) (s : State) : State := onPwr (fun p => { p with shadow := f p.shadow }) s

/-- A write in the PWR window. -/
def pwrWrite (a : Nat) (v : Word) (s : State) : State :=
  match a with
  | 0x0804 => onPwr (fun p => { p with flags := w1c p.flags v }) s
  | 0x082C => restoreMask v s
  | 0x0830 => onPwrShadow (fun x => { x with policy := field v 0 4 }) s
  | 0x0834 =>
    let s := onPwrShadow (fun x => { x with autoEnter := field v 16 16 }) s
    if v.getLsbD 0 then harbourRequest s else s
  | 0x0838 => onPwrShadow (fun x => { x with retain := field v 0 17 }) s
  | 0x083C => onPwrShadow (fun x => { x with wake := field v 0 8 }) s
  | 0x0840 => onPwrShadow (fun x => { x with settle := field v 20 12, digital := field v 16 4, analogue := field v 0 16 }) s
  | 0x084C => writePwrOn v s
  | 0x0854 => commitWrite .pwr v s
  | _ => s

/-! ### MEM (R114 to R123) -/

/-- MEM_LAST_CE_LOC and MEM_LAST_UE_LOC (R119). -/
def locWord (l : Loc) : Word :=
  packFields [(27, 5, l.bank), (17, 10, l.row), (11, 6, l.word), (10, 1, bit l.spare), (4, 4, l.source)]

/-- USE of a bank (R121). -/
def useCode : BankUse → Nat
  | .general => 0
  | .code => 1
  | .data => 2

/-- The bank whose owner and use a MEM_BANK register shows: B16 shows those of the bank it replaces (R121). -/
def shownBank (s : State) (n : Nat) : Bank :=
  if n = 16 then
    match s.mem.folded with
    | some m => bankAt s m
    | none => { owner := .test }
  else bankAt s n

/-- MEM_BANKn (R121). -/
def bankWord (s : State) (n : Nat) : Word :=
  let b := bankAt s n
  let o := shownBank s n
  packFields
    [(24, 1, bit (decide (48 ≤ b.folds.length))), (23, 1, bit (if n = 16 then s.mem.folded.isSome else s.mem.folded == some n)),
     (16, 7, b.folds.length), (12, 2, if o.owner = .cpu then useCode o.use else 0), (8, 3, o.owner.code), (0, 1, bit b.retained)]

/-- MEM_GRANT of grant `g` of bank `n` (R122). -/
def grantWord (s : State) (n g : Nat) : Word :=
  match (bankAt s n).grants[g]? with
  | none => 0
  | some x => packFields [(31, 1, 1), (28, 3, x.owner.code), (16, 10, x.first), (0, 10, x.last)]

/-- MEM_INJECT (R123). -/
def Inject.word (i : Inject) : Word :=
  packFields [(31, 1, bit i.armed), (24, 5, i.bank), (16, 7, i.posC), (8, 7, i.posB), (0, 7, i.posA)]

/-- MEM_HANDOVER (R118). -/
def Handover.word (h : Handover) : Word :=
  packFields [(31, 1, bit h.busy), (30, 1, bit h.refused), (16, 5, h.bank), (8, 3, h.owner), (1, 1, bit h.clear)]

/-- What the MEM window reads. -/
def memRead (a : Nat) (s : State) : Word :=
  let m := s.mem
  match a with
  | 0x1000 => packFields [(16, 5, m.folded.getD 0x1F), (1, 1, bit m.inject.armed), (0, 1, bit m.sweepDone)]
  | 0x1004 => m.flags
  | 0x1008 => m.handover.word
  | 0x100C => nw m.shadow
  | 0x1010 => nw m.sweeps
  | 0x1014 => packFields [(27, 5, m.posBank), (0, 17, m.posWord)]
  | 0x1018 => locWord m.lastCe
  | 0x101C => packFields [(16, 2, m.ceClass), (8, 7, m.cePosB), (0, 7, m.cePosA)]
  | 0x1020 => locWord m.lastUe
  | 0x1024 => nw m.ownerFaults
  | 0x1028 => packFields [(16, 16, m.weak.length), (0, 16, m.weakNew)]
  | 0x102C => m.inject.word
  | 0x1030 => m.commit.word
  | _ =>
    if 0x1040 ≤ a ∧ a ≤ 0x1080 then bankWord s ((a - 0x1040) / 4)
    else if 0x1100 ≤ a ∧ a ≤ 0x117C then grantWord s ((a - 0x1100) / 8) ((a - 0x1100) / 4 % 2)
    else if 0x1180 ≤ a ∧ a ≤ 0x11C0 then nw (bankAt s ((a - 0x1180) / 4)).ce
    else if 0x1200 ≤ a ∧ a ≤ 0x1240 then nw (bankAt s ((a - 0x1200) / 4)).ue
    else 0

/-- A write in the MEM window. -/
def memWrite (r : Reader) (a : Nat) (v : Word) (s : State) : State :=
  match a with
  | 0x1004 => onMem (fun m => { m with flags := w1c m.flags v }) s
  | 0x1008 => writeHandover r v s
  | 0x100C => onMem (fun m => { m with shadow := field v 0 17 }) s
  | 0x102C => writeInject v s
  | 0x1030 => commitWrite .mem v s
  | _ => s

/-! ### CYC (R152 to R162, R178 to R180) -/

/-- CYC_STATUS (R154). -/
def cycStatus (s : State) : Word :=
  packFields
    [(24, 8, s.cyc.startResult), (16, 1, bit s.cyc.configError), (8, 4, (s.cyc.pendingReq.map (·.code)).getD 0),
     (0, 8, mapBits s.cyc.tasks (·.enabled))]

/-- STATE of a task (R126, R162): of the started ones the first runs and the others are preempted.
DEDUCED (assumption 70). -/
def taskState (s : State) (n : Nat) : Nat :=
  let t := taskAt s n
  if t.cycleAt.isSome then
    if t.started && (s.cyc.tasks.take n).all fun u => u.cycleAt.isNone then 2 else 1
  else if taskRuns s n && s.sys.mode == .run then 0 else 3

/-- CYC_TASKn_CONFIG (R161): a disabled task reads 0 in PERIOD and OFFSET. -/
def taskConfig (t : Task) : Word :=
  packFields
    [(16, 16, if t.enabled then t.period else 0), (2, 14, if t.enabled then t.offset else 0), (1, 1, bit t.mirrored),
     (0, 1, bit t.enabled)]

/-- A register of a CYC_TASKn block (R160). -/
def taskRead (s : State) (n off : Nat) : Word :=
  let t := taskAt s n
  match off with
  | 0x00 => taskConfig t
  | 0x04 => packFields [(24, 8, t.consec), (0, 2, taskState s n)]
  | 0x08 => nw t.overruns
  | 0x0C => nw t.cycles
  | 0x10 => nw t.runLast
  | 0x14 => nw t.runMax
  | 0x18 => nw t.startLate
  | _ => 0

/-- Four ESCALATE values from a task on as one word (R158). -/
def escWord (l : List Nat) (n : Nat) : Word :=
  packFields [(24, 8, l.getD (n + 3) 0), (16, 8, l.getD (n + 2) 0), (8, 8, l.getD (n + 1) 0), (0, 8, l.getD n 0)]

/-- The four ESCALATE values of a word. -/
def escOf (v : Word) : List Nat := [field v 0 8, field v 8 8, field v 16 8, field v 24 8]

/-- The seconds half of the monotonic base as a reader latched it. -/
def monoHi (s : State) : Reader → Nat
  | .sdk => s.cyc.monoSdk
  | .plant => s.cyc.monoPlant

/-- What the CYC window reads. -/
def cycRead (r : Reader) (a : Nat) (s : State) : Word :=
  let c := s.cyc
  match a with
  | 0x1800 => cycStatus s
  | 0x1804 => c.flags
  | 0x180C => packFields [(24, 8, c.haltCause), (0, 24, c.haltPower)]
  | 0x1810 => nw s.mono
  | 0x1814 => nw (monoHi s r)
  | 0x1818 => nw c.refusals
  | 0x181C => escWord c.escShadow 0
  | 0x1820 => escWord c.escShadow 4
  | 0x1824 => c.commit.word
  | 0x1828 => nw c.forceSel
  | 0x182C => lowWord c.forceVal
  | 0x1830 => highWord c.forceVal
  | 0x1834 => packFields [(31, 1, bit (look c.forceSel c.forces).isSome)]
  | 0x1838 => nw c.forces.length
  | 0x1940 => olcStatusWord s
  | 0x1944 => olcCtrlWord s
  | _ => if 0x1840 ≤ a ∧ a ≤ 0x193C then taskRead s ((a - 0x1840) / 32) ((a - 0x1840) % 32) else 0

/-- A read of CYC_MONO_LO latches bits 63:32 for the same reader (R152). -/
def latchMono (r : Reader) (s : State) : State :=
  onCyc (fun c => match r with
    | .sdk => { c with monoSdk := s.mono / 2 ^ 32 }
    | .plant => { c with monoPlant := s.mono / 2 ^ 32 }) s

/-- A write of CYC_MODE_REQ (R136, R156): RESTART starts the module with the outside as `x` gives it. -/
def writeModeReq (x : StartIn) (r : Reader) (v : Word) (s : State) : State :=
  match field v 0 4 with
  | 1 => modeRequest 1 r s
  | 2 => modeRequest 2 r s
  | 3 => modeRequest 3 r s
  | 4 => modeRestart r x s
  | code => modeRefuse code (if s.cyc.pendingReq.isSome then 3 else 4) r s

/-- A write of CYC_FORCE_CTRL (R159): RELEASE_ALL acts alone, then RELEASE alone, then SET. -/
def writeForceCtrl (v : Word) (s : State) : State :=
  if v.getLsbD 2 then forceWaits .releaseAll s
  else if v.getLsbD 1 then forceWaits (.release s.cyc.forceSel) s
  else if v.getLsbD 0 then forceSet s
  else s

/-- A write in the CYC window. -/
def cycWrite (x : StartIn) (r : Reader) (a : Nat) (v : Word) (s : State) : State :=
  match a with
  | 0x1804 => onCyc (fun c => { c with flags := w1c c.flags v }) s
  | 0x1808 => writeModeReq x r v s
  | 0x181C => onCyc (fun c => { c with escShadow := escOf v ++ c.escShadow.drop 4 }) s
  | 0x1820 => onCyc (fun c => { c with escShadow := c.escShadow.take 4 ++ escOf v }) s
  | 0x1824 => commitWrite .cyc v s
  | 0x1828 => onCyc (fun c => { c with forceSel := field v 0 12 }) s
  | 0x182C => onCyc (fun c => { c with forceVal := withLow c.forceVal v }) s
  | 0x1830 => onCyc (fun c => { c with forceVal := withHigh c.forceVal v }) s
  | 0x1834 => writeForceCtrl v s
  | 0x1944 => writeOlcCtrl v s
  | _ =>
    if 0x1840 ≤ a ∧ a ≤ 0x193C ∧ (a - 0x1840) % 32 = 0x14 then onTask ((a - 0x1840) / 32) (fun t => { t with runMax := v.toNat }) s
    else s

/-! ### SIG (R196 to R199) -/

/-- The banked registers of a requester. -/
def sigBank (s : State) : Reader → SigBank
  | .sdk => s.sig.sdk
  | .plant => s.sig.plant

def onSigBank (r : Reader) (f : SigBank → SigBank) (s : State) : State :=
  onSig (fun g => match r with
    | .sdk => { g with sdk := f g.sdk }
    | .plant => { g with plant := f g.plant }) s

/-- SIG_RD_INFO of an entry (R199). -/
def sigInfo (s : State) (i : Nat) : Word :=
  let e := sigEntry s i
  packFields
    [(31, 1, bit (sigDefined s i)), (27, 1, bit e.stale), (26, 1, bit e.cond.isSome), (25, 1, bit e.substituted),
     (24, 1, bit e.forced), (16, 8, e.staleCount), (8, 8, e.typ), (0, 8, e.quality.toNat)]

/-- A write of SIG_RD_SEL: INDEX, and with LATCH the copy of that entry's dynamic part (R199). -/
def writeSigSel (r : Reader) (v : Word) (s : State) : State :=
  let i := field v 0 12
  onSigBank r (fun b =>
    if v.getLsbD 31 then { b with rdIndex := i, latch := { value := (sigEntry s i).value, info := sigInfo s i } }
    else { b with rdIndex := i }) s

/-- SIG_RD_LATCH (R199). -/
def execSigRdLatch (r : Reader) (v : Word) (s : State) : Out := answer (writeSigSel r v s)

/-- The window SIG in WRITE_WINDOWS and WRITE. -/
def winSig : Nat := 4

/-- Whether a GO is refused (R199): index 0 or undefined, an entry that is not of kind HOST, a requester that may not write SIG. -/
def sigWriteRefused (s : State) (r : Reader) (i : Nat) : Bool :=
  i == 0 || !sigDefined s i || (sigEntry s i).kind != 12 || !mayWrite s r winSig

/-- The mark of a refused GO: REFUSED and WRITE_REFUSED (R199). -/
def sigRefuse (r : Reader) (s : State) : State :=
  onSig (fun g => { g with flags := flag 2 g.flags }) (onSigBank r (fun b => { b with refused := true }) s)

/-- A write of SIG_WR_CTRL: INDEX and QUALITY, and with GO the write of the entry (R199). -/
def writeSigCtrl (r : Reader) (v : Word) (s : State) : State :=
  let i := field v 16 12
  let q : Byte := v.setWidth 8
  let s := onSigBank r (fun b => { b with wrIndex := i, wrQual := q }) s
  if v.getLsbD 31 then
    if sigWriteRefused s r i then
      let s := sigRefuse r s
      if r = .sdk then onCyc (fun c => { c with refusals := satInc 32 c.refusals }) s else s
    else
      let s := onSigBank r (fun b => { b with refused := false }) s
      let (q, s) := admitQuality q s
      writeEntry i (sigBank s r).wrValue q s
  else s

/-- SIG_WR_GO (R199). -/
def execSigWrGo (r : Reader) (v : Word) (s : State) : Out := answer (settle s (writeSigCtrl r v s))

/-- SIG_CLASS_COUNTS (R197). -/
def classCounts (s : State) : Word :=
  let n c := (s.sig.entries.filter fun p => qClass p.2.quality == c).length
  packFields [(16, 13, n 1), (0, 13, n 0)]

/-- What the SIG window reads. -/
def sigRead (r : Reader) (a : Nat) (s : State) : Word :=
  let b := sigBank s r
  match a with
  | 0x2000 => nw s.sig.entries.length
  | 0x2004 => classCounts s
  | 0x2008 => s.sig.flags
  | 0x200C => nw s.sig.qualInvalid
  | 0x2010 => nw b.rdIndex
  | 0x2014 => lowWord b.latch.value
  | 0x2018 => highWord b.latch.value
  | 0x201C => b.latch.info
  | 0x2020 => lowWord b.wrValue
  | 0x2024 => highWord b.wrValue
  | 0x2028 => packFields [(30, 1, bit b.refused), (16, 12, b.wrIndex), (0, 8, b.wrQual.toNat)]
  | 0x202C => nw s.sig.shadow.sel
  | 0x2030 => lowWord s.sig.shadow.subst
  | 0x2034 => highWord s.sig.shadow.subst
  | 0x2038 => packFields [(8, 1, bit s.sig.shadow.substEn), (0, 8, s.sig.shadow.staleCycles)]
  | 0x203C => s.sig.commit.word
  | _ => 0

/-- An update of the SIG shadows. -/
def onSigShadow (f : SigCfg → SigCfg) (s : State) : State := onSig (fun g => { g with shadow := f g.shadow }) s

/-- A write in the SIG window. -/
def sigWrite (r : Reader) (a : Nat) (v : Word) (s : State) : State :=
  match a with
  | 0x2008 => onSig (fun g => { g with flags := w1c g.flags v }) s
  | 0x2010 => writeSigSel r v s
  | 0x2020 => onSigBank r (fun b => { b with wrValue := withLow b.wrValue v }) s
  | 0x2024 => onSigBank r (fun b => { b with wrValue := withHigh b.wrValue v }) s
  | 0x2028 => writeSigCtrl r v s
  | 0x202C => onSigShadow (fun c => { c with sel := field v 0 12 }) s
  | 0x2030 => onSigShadow (fun c => { c with subst := withLow c.subst v }) s
  | 0x2034 => onSigShadow (fun c => { c with subst := withHigh c.subst v }) s
  | 0x2038 => onSigShadow (fun c => { c with substEn := v.getLsbD 8, staleCycles := field v 0 8 }) s
  | 0x203C => commitWrite .sig v s
  | _ => s

end Sys2Proof.Machine
end

