-- ==== Sys2Proof/Machine/RegsNet.lean ====
section
/-! DEFINITION. The windows LOOP, PAIR, RING and TIME of the system register space (R223 to R225, R255 to R260, R277 to R279, R303 to
R307, R322 to R325). -/

namespace Sys2Proof.Machine

/-! ### LOOP (R223 to R225) -/

/-- LOOP_STATUS (R224). -/
def loopStatusWord (s : State) : Word :=
  let on := (s.eng.loops.filter fun p => p.2.enabled).map fun p => p.2.group
  packFields [(24, 7, on.length), (8, 8, mapBits s.eng.groups (·.missed)), (0, 8, mapBits (List.range 8) on.contains)]

/-- Bits of LOOP_ENABLE from a loop on (R218, R223): a bit that waits for its tick reads as written.
DEDUCED (assumption 114). -/
def enableWord (s : State) (first : Nat) : Word :=
  nw (mapBits (List.range 32) fun i => let l := loopAt s (first + i); l.armed.getD l.enabled)

/-- A binding as the LOOPS record has it. -/
def Binding.word (b : Binding) : Word := packFields [(12, 4, b.kind), (0, 12, b.ref)]

/-- A gain in the layout of LOOP_X_K_IN (R225). -/
def gainWord (g : Gain) : Word := packFields [(8, 24, lowBits 24 g.m), (0, 6, lowBits 6 g.e)]

/-- LOOP_X_CFG (R225). -/
def loopCfg (l : Loop) : Word :=
  packFields
    [(29, 3, l.group), (24, 4, l.typeBits), (20, 2, l.types.length - 1), (7, 1, bit l.defined), (0, 6, l.flags)]

/-- The registers of section shadows: LOOP_X_Ss_EXP, then B0 to B3 and A1 to A3. -/
def secRead (c : SecCfg) (k : Nat) : Word :=
  if k = 0 then packFields [(8, 8, lowBits 8 c.ceil), (0, 6, lowBits 6 c.ec)]
  else packFields [(0, 24, lowBits 24 ((c.b ++ c.a).getD (k - 1) 0))]

/-- A section's shadow after a write. -/
def secWrite (c : SecCfg) (k : Nat) (v : Word) : SecCfg :=
  let m := signedOf 24 (field v 0 24)
  if k = 0 then { c with ceil := signedOf 8 (field v 8 8), ec := signedOf 6 (field v 0 6) }
  else if k ≤ 4 then { c with b := c.b.set (k - 1) m }
  else { c with a := c.a.set (k - 5) m }

/-- The registers of latched states: LOOP_X_Ss_SEXP, then X1 to X3 and Y1 to Y3. -/
def stateRead (x : SecState) (k : Nat) : Word :=
  if k = 0 then packFields [(8, 8, lowBits 8 x.peak), (0, 8, lowBits 8 x.es)]
  else if k ≤ 6 then BitVec.ofInt 32 ((x.xs ++ x.ys).getD (k - 1) 0)
  else 0

/-- The selected-loop configuration (R225). -/
def loopXRead (l : Loop) (a : Nat) : Word :=
  let c := l.shadow
  let par i := l.pars.getD i 0
  match a with
  | 0x2C00 => loopCfg l
  | 0x2C04 => l.inA.word
  | 0x2C08 => l.sp.word
  | 0x2C0C => l.inB.word
  | 0x2C10 => packFields [(16, 12, l.statEntry), (0, 12, l.outEntry)]
  | 0x2C14 => packFields [(12, 4, l.chan.kind), (0, 6, l.chan.ref)]
  | 0x2C18 => packFields [(16, 12, par 1), (0, 12, par 0)]
  | 0x2C1C => packFields [(16, 12, par 3), (0, 12, par 2)]
  | 0x2C20 => gainWord c.kIn
  | 0x2C24 => gainWord c.kFf
  | 0x2C28 => c.outMin
  | 0x2C2C => c.outMax
  | 0x2C30 => c.safe
  | 0x2C34 => c.digOn
  | 0x2C38 => c.digOff
  | _ => if 0x2C40 ≤ a ∧ a ≤ 0x2CBC then secRead (c.secs.getD ((a - 0x2C40) / 32) {}) ((a - 0x2C40) / 4 % 8) else 0

/-- The loop's shadows after a write of the selected-loop window. -/
def loopXWrite (c : LoopSet) (a : Nat) (v : Word) : Option LoopSet :=
  match a with
  | 0x2C20 => some { c with kIn := gainOf v }
  | 0x2C24 => some { c with kFf := gainOf v }
  | 0x2C28 => some { c with outMin := v }
  | 0x2C2C => some { c with outMax := v }
  | 0x2C30 => some { c with safe := v }
  | 0x2C34 => some { c with digOn := v }
  | 0x2C38 => some { c with digOff := v }
  | _ =>
    if 0x2C40 ≤ a ∧ a ≤ 0x2CBC then
      some { c with secs := c.secs.modify ((a - 0x2C40) / 32) fun x => secWrite x ((a - 0x2C40) / 4 % 8) v }
    else none

/-- What the LOOP window reads. -/
def loopRead (r : Reader) (a : Nat) (s : State) : Word :=
  let e := s.eng
  let b := loopBank s r
  match a with
  | 0x2800 => loopStatusWord s
  | 0x2804 => e.flags
  | 0x2808 => enableWord s 0
  | 0x280C => enableWord s 32
  | 0x2810 => packFields [(30, 1, bit b.latched), (0, 6, b.sel)]
  | 0x2814 => packFields [(16, 16, e.peak), (0, 16, e.worst)]
  | 0x2818 => e.commit.word
  | _ =>
    if 0x2840 ≤ a ∧ a ≤ 0x285C then nw (e.groups.getD ((a - 0x2840) / 4) {}).misses
    else if 0x2860 ≤ a ∧ a ≤ 0x287C then
      let g := e.groups.getD ((a - 0x2860) / 4) {}
      packFields [(16, 16, g.longest), (0, 16, g.last)]
    else if 0x2900 ≤ a ∧ a ≤ 0x29FC then loopStatus s (loopAt s ((a - 0x2900) / 4))
    else if 0x2A00 ≤ a ∧ a ≤ 0x2AFC then
      let x := (loopAt s ((a - 0x2A00) / 4)).out
      nw (wordOf f32 x.m (x.e - 31))
    else if 0x2B00 ≤ a ∧ a ≤ 0x2BFC then
      let x := (loopAt s ((a - 0x2B00) / 4)).u
      nw (wordOf f32 x.m (x.e - 31))
    else if 0x2C00 ≤ a ∧ a ≤ 0x2CBC then
      let l := loopAt s b.sel
      if l.defined then loopXRead l a else 0
    else if 0x2D00 ≤ a ∧ a ≤ 0x2D7C ∧ (loopAt s b.sel).defined then
      match b.secs[(a - 0x2D00) / 32]? with
      | none => 0
      | some x => stateRead x ((a - 0x2D00) / 4 % 8)
    else 0

/-- A write in the LOOP window. -/
def loopWrite (r : Reader) (a : Nat) (v : Word) (s : State) : State :=
  match a with
  | 0x2804 => onEng (fun e => { e with flags := w1c e.flags v }) s
  | 0x2808 => loopEnableWrite false v s
  | 0x280C => loopEnableWrite true v s
  | 0x2810 => writeLoopSel r v s
  | 0x2818 => commitWrite .loop v s
  | _ =>
    if 0x2900 ≤ a ∧ a ≤ 0x29FC then
      onLoop ((a - 0x2900) / 4) (fun l => { l with sticky := (w1c (nw l.sticky) v).toNat }) s
    else
      let l := loopAt s (loopBank s r).sel
      match l.defined, loopXWrite l.shadow a v with
      | true, some c => onLoop (loopBank s r).sel (fun l => { l with shadow := c, dirty := true }) s
      | _, _ => s

/-! ### PAIR (R255 to R260, R277 to R279) -/

/-- STATE of PAIR_STATUS (R256). -/
def PairState.code : PairState → Nat
  | .none => 0
  | .listen => 1
  | .standby => 2
  | .query => 3
  | .noActive => 4
  | .taking => 5
  | .active => 6
  | .releasing => 7

/-- PAIR_STATUS (R256). -/
def pairStatus (p : Pair) : Word :=
  packFields
    [(28, 4, p.st.code), (24, 4, (p.partner.map (·.role)).getD 0xF), (20, 4, (p.partner.map (·.mode)).getD 0xF),
     (11, 1, bit p.client.reachable), (10, 1, bit p.linkP3), (9, 1, bit p.silent),
     (8, 1, bit (p.partner.any fun x => x.flags.testBit 0)), (0, 2, p.side)]

/-- Register k of the block of a served pair (R260). -/
def jackRead (j : JackRec) (k : Nat) : Word :=
  match k with
  | 0 => nw j.pairId
  | 1 => nw (j.pairId / 2 ^ 32)
  | 2 => nw j.epoch
  | _ => packFields [(30, 2, j.owner), (29, 1, bit j.seenA), (28, 1, bit j.seenB), (27, 1, bit j.busy), (0, 16, j.grants)]

/-- Register k of the PAIR_TASKn block (R259). -/
def pairTaskRead (t : PairTask) (k : Nat) : Word :=
  match k with
  | 0 => nw t.compared
  | 1 => nw t.mismatch
  | 2 => nw t.lastMm
  | _ => nw t.digest

/-- Bits 63:32 of the SEQ as a reader latched them. -/
def hoistHi (s : State) : Reader → Nat
  | .sdk => s.hoist.hiSdk
  | .plant => s.hoist.hiPlant

/-- Progress of the catch-up in 0.1 % (R277). DEDUCED (assumption 136). -/
def catchProgress (s : State) : Nat :=
  if s.hoist.catching then 1000 * s.hoist.catchDone / max 1 (rotation s).length else 0

/-- The hoist registers (R277 to R279). -/
def hoistRead (r : Reader) (a : Nat) (s : State) : Word :=
  let h := s.hoist
  match a with
  | 0x3A00 =>
    packFields
      [(31, 1, bit (imageWhole s)), (30, 1, bit h.catching), (29, 1, bit (hoistSends s)), (16, 8, h.pacing), (0, 16, h.gen)]
  | 0x3A04 => h.flags
  | 0x3A08 => nw (h.seq.getD 0)
  | 0x3A0C => nw (hoistHi s r)
  | 0x3A10 => nw h.sent
  | 0x3A14 => nw h.applied
  | 0x3A18 => nw h.lost
  | 0x3A1C => nw h.overflows
  | 0x3A20 => nw h.unpaired
  | 0x3A24 => packFields [(16, 16, h.largest / 8), (0, 16, h.last / 8)]
  | 0x3A28 => packFields [(0, 19, h.allowance)]
  | 0x3A2C => packFields [(16, 16, h.rotations), (0, 10, catchProgress s)]
  | 0x3A30 => packFields [(0, 16, min h.catchMs 65535)]
  | _ => 0

/-- What the PAIR window reads: 0 on a SOLO module, and the Jack table only in the JACK role (R255).
DEDUCED (assumption 124). -/
def pairRead (r : Reader) (a : Nat) (s : State) : Word :=
  if s.sys.role = .solo then 0
  else
    let p := s.pair
    match a with
    | 0x3800 => pairStatus p
    | 0x3804 => p.flags
    | 0x3808 => nw p.epoch
    | 0x380C => nw (hdr s).pairId
    | 0x3810 => nw ((hdr s).pairId / 2 ^ 32)
    | 0x3814 => packFields [(31, 1, bit (p.cmd.any fun c => c.kind == 3)), (30, 1, bit p.handoverFailed)]
    | 0x3818 => nw p.rx
    | 0x381C => nw p.bad
    | 0x3820 => nw p.silences
    | 0x3824 => nw p.takeovers
    | 0x3828 => nw p.queries
    | 0x382C => nw p.noAnswer
    | 0x3830 => packFields [(28, 4, p.lastCause), (27, 1, bit p.lastStale), (0, 16, p.decision)]
    | 0x3834 => if s.sys.role = .standby then packFields [(0, 16, lowBits 16 (clamp (-32768) 32767 p.skew))] else 0
    | _ =>
      if 0x3900 ≤ a ∧ a ≤ 0x397C then pairTaskRead (p.tasks.getD ((a - 0x3900) / 16) {}) ((a - 0x3900) / 4 % 4)
      else if 0x3C00 ≤ a ∧ a ≤ 0x3DFC then
        match s.sys.role, p.jack[(a - 0x3C00) / 16]? with
        | .jack, some j => jackRead j ((a - 0x3C00) / 4 % 4)
        | _, _ => 0
      else hoistRead r a s

/-- A write in the PAIR window. -/
def pairWrite (a : Nat) (v : Word) (s : State) : State :=
  match a with
  | 0x3804 => onPair (fun p => { p with flags := w1c p.flags v }) s
  | 0x3814 => if v.getLsbD 0 then handoverRequest s else s
  | 0x3A04 => onHoist (fun h => { h with flags := w1c h.flags v }) s
  | _ => s

/-! ### RING (R303 to R307) -/

/-- RING_STATUS (R305). -/
def ringStatus (g : Ring) : Word :=
  packFields
    [(8, 1, bit (g.blocked1 || g.blocked2)), (7, 1, bit g.txHalt2), (6, 1, bit g.txHalt1), (5, 1, bit g.rxHalt2),
     (4, 1, bit g.rxHalt1), (3, 1, bit g.dir21), (2, 1, bit g.dir12), (1, 1, bit g.link2), (0, 1, bit g.link1)]

/-- RING_COUNTS (R303). -/
def ringCountsWord (g : Ring) : Word :=
  let n p := (g.stations.filter fun x => p x.st).length
  packFields [(16, 7, n (· == .lost)), (8, 7, n (· == .live)), (0, 7, g.stations.length)]

/-- RING_STATEMAPw (R303): the STATE of 16 stations. -/
def stateMap (s : State) (w : Nat) : Word :=
  packFields ((List.range 16).map fun j => (2 * j, 2, ((stationOf s (16 * w + j)).map (·.st.code)).getD 0))

/-- What the RING window reads. -/
def ringRead (r : Reader) (a : Nat) (s : State) : Word :=
  let g := s.ring
  let b := ringBank s r
  match a with
  | 0x4000 => ringStatus g
  | 0x4004 => g.flags
  | 0x4008 => packFields [(0, 16, g.load)]
  | 0x400C => ringCountsWord g
  | 0x4010 => nw g.counts.p1Rx
  | 0x4014 => nw g.counts.p2Rx
  | 0x4018 => nw g.counts.duplicates
  | 0x401C => nw g.counts.bad
  | 0x4020 => nw g.counts.outDiscarded
  | 0x4024 => nw g.counts.joinsRefused
  | 0x4028 => nw g.counts.openings
  | 0x402C => packFields [(16, 7, g.shadow.station), (0, 8, g.shadow.lostCycles)]
  | 0x4030 => g.commit.word
  | 0x4034 => packFields [(30, 1, bit b.latched), (0, 7, b.sel)]
  | 0x4040 => b.state
  | 0x4044 => b.inputs
  | 0x4048 => b.misses
  | 0x404C => b.losses
  | _ => if 0x4080 ≤ a ∧ a ≤ 0x409C then stateMap s ((a - 0x4080) / 4) else 0

/-- A write in the RING window. -/
def ringWrite (r : Reader) (a : Nat) (v : Word) (s : State) : State :=
  match a with
  | 0x4004 => onRing (fun g => { g with flags := w1c g.flags v }) s
  | 0x402C => onRing (fun g => { g with shadow := { station := field v 16 7, lostCycles := field v 0 8 } }) s
  | 0x4030 => commitWrite .ring v s
  | 0x4034 => writeRingSel r v s
  | _ => s

/-! ### TIME (R322 to R325) -/

/-- TIME_STATUS (R324). DEDUCED (assumption 153). -/
def timeStatus (s : State) : Word :=
  let t := s.time
  packFields
    [(16, 16, if t.st = .holdover then min ((s.mono - t.holdSince) / nsPerSec) 65535 else 0), (11, 1, bit t.ringDir),
     (10, 1, bit t.stepPending.isSome), (9, 1, bit (s.start.accepted && timeUncertain s)), (8, 1, bit t.utcValid), (4, 4, t.portState),
     (0, 4, t.st.code)]

/-- The latched seconds of a reader. -/
def timeSec (s : State) : Reader → Nat
  | .sdk => s.time.secSdk
  | .plant => s.time.secPlant

/-- Register k of a TIME_PULSEn block (R325). -/
def pulseRead (on : Bool) (p : Pulse) (k : Nat) : Word :=
  match k with
  | 0 => packFields [(31, 1, bit p.next.isSome), (30, 1, bit on), (0, 2, p.shadow.mode)]
  | 1 => nw p.shadow.atSec
  | 2 => nw (p.shadow.atSec / 2 ^ 32)
  | 3 => nw p.shadow.atUs
  | 4 => nw p.shadow.width
  | 5 => nw p.shadow.period
  | 6 => packFields [(16, 16, p.fired), (8, 8, p.late), (0, 8, p.missed)]
  | _ => 0

/-- A pulse block's shadows after a write of register k (R325). -/
def pulseWrite (x : PulseSet) (k : Nat) (v : Word) : PulseSet :=
  match k with
  | 0 => { x with mode := field v 0 2 }
  | 1 => { x with atSec := natLow x.atSec v }
  | 2 => { x with atSec := natHigh x.atSec v }
  | 3 => { x with atUs := field v 0 20 }
  | 4 => { x with width := field v 0 20 }
  | 5 => { x with period := v.toNat }
  | _ => x

/-- LAUNCH of a task (R321). -/
def Launch.word (l : Launch) : Word := packFields [(31, 1, bit l.timed), (0, 24, l.phase)]

/-- What the TIME window reads. -/
def timeRead (r : Reader) (a : Nat) (s : State) : Word :=
  let t := s.time
  match a with
  | 0x4800 => timeStatus s
  | 0x4804 => t.flags
  | 0x4808 => nw (t.ns % nsPerSec)
  | 0x480C => nw (timeSec s r)
  | 0x4810 => nw (timeSec s r / 2 ^ 32)
  | 0x4814 => BitVec.ofInt 32 (sat32 t.offset)
  | 0x4818 => BitVec.ofInt 32 t.freq
  | 0x481C => nw (meanDelay s)
  | 0x4820 => nw t.master
  | 0x4824 => nw (t.master / 2 ^ 32)
  | 0x4828 => nw t.steps
  | 0x482C => nw t.late
  | 0x4830 => packFields [(0, 16, lowBits 16 t.utcOffset)]
  | 0x4834 => t.commit.word
  | _ =>
    if 0x4840 ≤ a ∧ a ≤ 0x48BC then pulseRead (dioCh s (28 + (a - 0x4840) / 32)).stage (pulseAt s ((a - 0x4840) / 32)) ((a - 0x4840) / 4 % 8)
    else if 0x4900 ≤ a ∧ a ≤ 0x491C then (t.cfg.launch.getD ((a - 0x4900) / 4) {}).word
    else 0

/-- A write in the TIME window. -/
def timeWrite (a : Nat) (v : Word) (s : State) : State :=
  match a with
  | 0x4804 => onTime (fun t => { t with flags := w1c t.flags v }) s
  | 0x4834 => commitWrite .time v s
  | _ =>
    if 0x4840 ≤ a ∧ a ≤ 0x48BC then
      onPulse ((a - 0x4840) / 32) (fun p => { p with shadow := pulseWrite p.shadow ((a - 0x4840) / 4 % 8) v }) s
    else s

end Sys2Proof.Machine
end

