-- ==== Sys2Proof/Machine/RegsField.lean ====
section
/-! DEFINITION. The windows CAN, QUE, DIO, ANA and SAFE of the system register space (R354 to R360, R378 to R381, R409 to R412, R436 to
R440). -/

namespace Sys2Proof.Machine

/-! ### CAN (R354 to R357) -/

/-- CANn_STATUS (R355). -/
def canStatus (s : State) (c : CanPort) : Word :=
  packFields
    [(8, 1, bit c.term), (7, 1, bit c.xlEn), (6, 1, bit c.fdEn), (5, 1, bit c.listen), (4, 1, bit (canTxAllowed s)),
     (3, 1, bit (c.waitRecover && c.st == .busOff)), (0, 3, c.st.code)]

/-- What the block of a port reads, by offset (R354). -/
def canPortRead (s : State) (c : CanPort) (off : Nat) : Word :=
  match off with
  | 0x000 => canStatus s c
  | 0x004 => c.flags
  | 0x008 => c.shadow.cfg
  | 0x00C => c.shadow.nbt
  | 0x010 => c.shadow.dbt
  | 0x014 => c.shadow.xbt
  | 0x018 => c.shadow.fdtdc ||| packFields [(0, 8, c.measFd)]
  | 0x01C => c.shadow.xltdc ||| packFields [(0, 8, c.measXl)]
  | 0x020 => c.commit.word
  | 0x024 =>
    packFields [(19, 1, bit c.lastData), (16, 3, c.lastErr), (8, 8, min c.rxec 255), (0, 8, min c.tec 255)]
  | 0x02C =>
    packFields
      [(31, 1, bit c.book.current), (30, 1, bit c.book.synced), (29, 1, bit c.book.enabled), (8, 6, c.book.cycle),
       (0, 5, c.book.window)]
  | 0x030 => nw c.counts.txOk
  | 0x034 => nw c.counts.rxOk
  | 0x038 => nw c.counts.unmatched
  | 0x03C => nw c.counts.rxBad
  | 0x040 => nw c.counts.errFrames
  | 0x044 => nw c.counts.busOffs
  | 0x048 => nw c.counts.replaced
  | 0x04C => nw c.counts.winMissed
  | 0x050 => nw c.counts.refLost
  | _ => if 0x200 ≤ off ∧ off ≤ 0x2FC then (look ((off - 0x200) / 4) c.book.missed).getD 0 else 0

/-- The port of an address in the CAN window. -/
def canOf (a : Nat) : Nat := (a - 0x5000) / 0x400 + 1

/-- What the CAN window reads. -/
def canRead (a : Nat) (s : State) : Word := canPortRead s (canPort s (canOf a)) ((a - 0x5000) % 0x400)

/-- An update of a port's shadows. -/
def onCanShadow (p : Nat) (f : CanSet → CanSet) (s : State) : State := onCan p (fun c => { c with shadow := f c.shadow }) s

/-- A write in the CAN window. -/
def canWrite (a : Nat) (v : Word) (s : State) : State :=
  let p := canOf a
  let off := (a - 0x5000) % 0x400
  match off with
  | 0x004 => onCan p (fun c => { c with flags := w1c c.flags v }) s
  | 0x008 => onCanShadow p (fun x => { x with cfg := v &&& 0x3F }) s
  | 0x00C => onCanShadow p (fun x => { x with nbt := v &&& 0x7FFFFFFF }) s
  | 0x010 => onCanShadow p (fun x => { x with dbt := v &&& 0x1F3F1F1F }) s
  | 0x014 => onCanShadow p (fun x => { x with xbt := v &&& 0x1F3F1F1F }) s
  | 0x018 => onCanShadow p (fun x => { x with fdtdc := v &&& 0x80FF0000 }) s
  | 0x01C => onCanShadow p (fun x => { x with xltdc := v &&& 0x80FF0000 }) s
  | 0x020 => commitWrite (.can p) v s
  | 0x028 => if v.getLsbD 0 then recoverPort p s else s
  | _ =>
    if 0x200 ≤ off ∧ off ≤ 0x2FC then
      onBook p (fun b => { b with missed := change ((off - 0x200) / 4) (fun w => w1c w v) b.missed }) s
    else s

/-! ### QUE (R358 to R360) -/

/-- The entry that QUE_TAKE latched, where VALID. -/
def takenOf (b : QueBank) : Option Desc := if b.takeValid then b.taken else none

/-- What the registers of a latched entry read (R358, R359). -/
def takeRead (b : QueBank) (a : Nat) : Word :=
  match takenOf b with
  | none => 0
  | some d =>
    match a with
    | 0x6038 => packFields [(28, 4, d.result), (24, 4, d.flags), (12, 11, d.handle), (0, 12, d.frame.length)]
    | 0x603C => packFields [(0, 29, d.frame.id)]
    | 0x6040 => packFields [(24, 8, d.frame.sdt), (16, 8, d.frame.vcid), (8, 1, d.frame.sec), (0, 5, d.frame.format)]
    | 0x6044 => nw d.frame.af
    | 0x6048 => nw d.ts
    | _ => nw (d.ts / 2 ^ 32)

/-- The QUE_Qq block (R360). -/
def queueRead (s : State) (q k : Nat) : Word :=
  let x := queueAt s q
  match k with
  | 0 =>
    packFields
      [(31, 1, bit x.disabled), (30, 1, bit (assignWaits s q)), (20, 3, x.user), (16, 4, x.unit), (12, 3, x.role), (0, 12, x.depth)]
  | 1 =>
    let waits := s.que.held.filter fun d => d.queue == q && (d.st == .pending || (d.st == .filled && !d.taken))
    packFields [(16, 12, heldBy s q), (0, 12, waits.length)]
  | 2 => nw x.overflows
  | _ => nw x.full

/-- What the QUE window reads. -/
def queRead (r : Reader) (a : Nat) (s : State) : Word :=
  let b := queBank s r
  let c := s.que.shadow
  match a with
  | 0x6000 => packFields [(16, 12, if s.start.accepted then sharedFree s else 0), (0, 12, s.que.held.length)]
  | 0x6004 => s.que.flags
  | 0x6008 => packFields [(24, 6, c.queue), (20, 3, c.user), (16, 4, c.unit), (12, 3, c.role), (0, 12, c.depth)]
  | 0x600C => s.que.commit.word
  | 0x6010 => b.head
  | 0x6014 => nw b.id
  | 0x6018 => b.xl
  | 0x601C => b.af
  | 0x6020 => nw b.expiry
  | 0x6024 => nw (b.expiry / 2 ^ 32)
  | 0x602C => packFields [(30, 1, bit b.oneShot), (24, 3, b.result), (0, 11, b.handle)]
  | 0x6030 => packFields [(30, 1, bit b.cancelRefused), (0, 11, b.cancel)]
  | 0x6034 => packFields [(30, 1, bit b.takeValid), (0, 6, b.takeSel)]
  | 0x6050 => (readTakeData r s).1
  | 0x6054 => packFields [(30, 1, bit b.ackRefused), (0, 11, b.ack)]
  | _ =>
    if 0x6038 ≤ a ∧ a ≤ 0x604C then takeRead b a
    else if 0x6400 ≤ a then queueRead s ((a - 0x6400) / 16) ((a - 0x6400) / 4 % 4)
    else 0

/-- A write in the QUE window. -/
def queWrite (r : Reader) (a : Nat) (v : Word) (s : State) : State :=
  match a with
  | 0x6004 => onQue (fun e => { e with flags := w1c e.flags v }) s
  | 0x6008 =>
    onQue (fun e => { e with shadow :=
      { queue := field v 24 6, user := field v 20 3, unit := field v 16 4, role := field v 12 3, depth := field v 0 12 } }) s
  | 0x600C => commitWrite .que v s
  | 0x6010 => writeTxHead r v s
  | 0x6014 => onQueBank r (fun b => { b with id := field v 0 29 }) s
  | 0x6018 => onQueBank r (fun b => { b with xl := v &&& 0xFFFF0001 }) s
  | 0x601C => onQueBank r (fun b => { b with af := v }) s
  | 0x6020 => onQueBank r (fun b => { b with expiry := natLow b.expiry v }) s
  | 0x6024 => onQueBank r (fun b => { b with expiry := natHigh b.expiry v }) s
  | 0x6028 => writeTxData r v s
  | 0x602C => writeTxCtrl r v s
  | 0x6030 => writeCancel r v s
  | 0x6034 => writeTakeSel r v s
  | 0x6054 => writeAck r v s
  | _ => s

/-! ### DIO (R378 to R381) -/

/-- OSTATE (R380). -/
def OState.code : OState → Nat
  | .normal => 0
  | .shortWait => 1
  | .retry => 2
  | .latched => 3

/-- MODE and POLICY of DIO_CHn_CFG (R381). -/
def DioMode.code : DioMode → Nat
  | .off => 0
  | .inputType1 => 1
  | .inputType3 => 2
  | .output => 3
  | .pairWired => 4
  | .timedPulse => 5

def DioPolicy.code : DioPolicy → Nat
  | .safeOff => 0
  | .safeOn => 1
  | .hold => 2

/-- DIO_GRPg_STATUS (R379). -/
def dioGroupWord (s : State) (g : Nat) : Word :=
  let x := s.dio.groups.getD g {}
  packFields [(16, 10, x.refreshMs), (8, 3, (fieldGroup s g).st.code), (0, 1, bit x.common)]

/-- DIO_CHn_DIAG (R380). -/
def dioDiagWord (s : State) (n : Nat) : Word :=
  let c := dioCh s n
  packFields [(28, 4, c.ostate.code), (24, 4, c.retries), (0, 8, (dioDiag s n).toNat)]

/-- DIO_CHn_CFG (R381). -/
def dioCfgWord (c : DioCh) : Word :=
  packFields
    [(16, 16, c.debounce), (11, 1, bit c.link1), (10, 1, bit c.link0), (8, 2, c.policy.code), (0, 3, c.mode.code)]

/-- What the DIO window reads. -/
def dioRead (a : Nat) (s : State) : Word :=
  let ch := s.dio.ch
  match a with
  | 0x6800 => nw (mapBits ch fun c => if c.mode.isInput then c.level else c.mode.hasStage && c.readback)
  | 0x6804 => nw (mapBits ch fun c => if c.mode == .timedPulse then c.pulse else c.mode.isOutput && c.command)
  | 0x6808 => nw (mapBits ch (·.stage))
  | 0x680C => nw (mapBits (List.range 32) fun n => (dioDiag s n).getLsbD 0)
  | 0x6810 => s.dio.flags
  | _ =>
    if 0x6820 ≤ a ∧ a ≤ 0x682C then dioGroupWord s ((a - 0x6820) / 4)
    else if 0x6840 ≤ a ∧ a ≤ 0x68BC then dioDiagWord s ((a - 0x6840) / 4)
    else if 0x68C0 ≤ a ∧ a ≤ 0x693C then dioCfgWord (dioCh s ((a - 0x68C0) / 4))
    else if 0x6940 ≤ a ∧ a ≤ 0x69BC then nw (dioCh s ((a - 0x6940) / 4)).switches
    else 0

/-- A write in the DIO window. -/
def dioWrite (a : Nat) (v : Word) (s : State) : State :=
  match a with
  | 0x6810 => onDio (fun d => { d with flags := w1c d.flags v }) s
  | 0x6814 => dioClearMask v s
  | _ =>
    if 0x6820 ≤ a ∧ a ≤ 0x682C then
      if v.getLsbD 0 then onDio (fun d => { d with groups := d.groups.modify ((a - 0x6820) / 4) fun x => { x with common := false } }) s
      else s
    else if 0x6840 ≤ a ∧ a ≤ 0x68BC then
      onDioCh ((a - 0x6840) / 4) (fun c => { c with diag := c.diag &&& ~~~(v.setWidth 8 &&& 0xFC) }) s
    else s

/-! ### ANA (R409 to R412) -/

/-- MODE of ANA_CHn_CFG (R412). -/
def AnaMode.code : AnaMode → Nat
  | .off => 0
  | .voltageIn => 1
  | .currentPassive => 2
  | .currentPowered => 3
  | .currentPair => 4
  | .rtd => 5
  | .resistance => 6
  | .thermocouple => 7
  | .voltageOut => 8
  | .currentOut => 9
  | .hartMultidrop => 10

/-- ANA_GRPg_STATUS (R410). -/
def anaGroupWord (s : State) (g : Nat) : Word :=
  let x := s.ana.groups.getD g {}
  packFields [(16, 16, lowBits 16 x.cjc), (8, 8, x.loopSupply), (0, 3, (fieldGroup s g).st.code)]

/-- ANA_CHn_CFG (R412). -/
def anaCfgWord (c : AnaCh) : Word :=
  packFields
    [(24, 4, c.tcType), (20, 4, c.rate), (18, 2, c.wiring), (17, 1, bit c.pt1000), (16, 1, bit c.range420), (9, 1, bit c.hartEn),
     (8, 1, bit c.safeValue), (0, 4, c.mode.code)]

/-- ANA_CHn_HART (R409). -/
def anaHartWord (s : State) (n : Nat) : Word :=
  packFields
    [(16, 16, (anaCh s n).hartCount), (0, 15, mapBits (List.range 15) fun k => s.ana.devs.any fun d => d.channel == n && d.slot == k && !d.absent)]

/-- What the ANA window reads. -/
def anaRead (a : Nat) (s : State) : Word :=
  let ch := s.ana.ch
  match a with
  | 0x7000 => packFields [(16, 16, mapBits ch (·.hartEn)), (0, 16, mapBits ch fun c => c.mode != .off)]
  | 0x7004 => s.ana.flags
  | 0x7008 => nw s.ana.suspend.toNat
  | _ =>
    if 0x7010 ≤ a ∧ a ≤ 0x701C then anaGroupWord s ((a - 0x7010) / 4)
    else if 0x7040 ≤ a ∧ a ≤ 0x707C then
      let c := anaCh s ((a - 0x7040) / 4)
      BitVec.ofInt 32 (if c.mode.isOutput then c.command else c.value)
    else if 0x7080 ≤ a ∧ a ≤ 0x70BC then BitVec.ofInt 32 (anaCh s ((a - 0x7080) / 4)).readback
    else if 0x70C0 ≤ a ∧ a ≤ 0x70FC then nw (anaDiag s ((a - 0x70C0) / 4)).toNat
    else if 0x7100 ≤ a ∧ a ≤ 0x713C then anaCfgWord (anaCh s ((a - 0x7100) / 4))
    else if 0x7140 ≤ a ∧ a ≤ 0x717C then anaHartWord s ((a - 0x7140) / 4)
    else 0

/-- A write in the ANA window. -/
def anaWrite (a : Nat) (v : Word) (s : State) : State :=
  match a with
  | 0x7004 => onAna (fun x => { x with flags := w1c x.flags v }) s
  | 0x7008 => onAna (fun x => { x with suspend := v.setWidth 16 }) s
  | _ =>
    if 0x70C0 ≤ a ∧ a ≤ 0x70FC then onAnaCh ((a - 0x70C0) / 4) (fun c => { c with diag := c.diag &&& ~~~(v.setWidth 16 &&& 0x1FFC) }) s
    else s

/-! ### SAFE (R436 to R440) -/

/-- MODE of SAFE_PAIRn (R438). -/
def PairMode.code : PairMode → Nat
  | .unused => 0
  | .equivalent => 1
  | .antivalent => 2
  | .reset => 3

/-- SAFE_PAIRn (R438). -/
def safePairWord (s : State) (n : Nat) : Word :=
  let p := sPair s n
  let a := siAt s (2 * n)
  let b := siAt s (2 * n + 1)
  packFields
    [(30, 2, p.mode.code), (29, 1, bit p.test), (16, 12, p.chip.count), (10, 1, bit b.raw), (9, 1, bit a.raw), (8, 1, bit p.chip.seenBoth0),
     (7, 1, bit p.chip.faults.cross), (6, 1, bit p.chip.faults.tpFault), (5, 1, bit p.chip.faults.discrepancy),
     (4, 1, bit (a.chip.resetFault || b.chip.resetFault)), (3, 1, bit p.chip.combined), (2, 1, bit b.chip.filt), (1, 1, bit a.chip.filt)]

/-- SAFE_FUNCf (R439). -/
def safeFuncWord (s : State) (n : Nat) : Word :=
  let f := sFunc s n
  let w := faultBits s f
  let low := f.enabled && namedLow s f
  let demand := low && pairDemand s f
  let supply := f.enabled && fDead s
  packFields
    [(28, 4, f.st.code), (27, 1, bit f.request), (26, 1, bit f.fromHoist), (25, 1, bit f.holdPhase), (24, 1, bit (f.hsOn || f.testsHigh s.mono)),
     (23, 1, bit (f.lsOn || f.testsLow s.mono)), (22, 1, bit f.torque), (10, 1, bit (f.st == .demand && !demand && !supply)), (9, 1, bit supply),
     (8, 1, bit low), (1, 5, w / 65536), (0, 1, bit (w % 65536 != 0))]

/-- SAFE_TESTf (R440). -/
def safeTestWord (f : SafeFunc) : Word :=
  packFields [(28, 4, f.last), (27, 1, bit f.due), (26, 1, bit f.failStands), (0, 16, f.hours)]

/-- What the SAFE window reads. -/
def safeRead (a : Nat) (s : State) : Word :=
  let x := s.safe
  match a with
  | 0x7800 => safeStatus s
  | 0x7804 => x.crc
  | 0x7808 => packFields [(16, 16, x.fw), (0, 16, x.missed)]
  | 0x7820 => safeFuncWord s 0
  | 0x7824 => safeFuncWord s 1
  | 0x7828 => packFields [(16, 16, (sFunc s 0).measMa), (0, 16, (sFunc s 0).measMv)]
  | 0x782C => packFields [(16, 16, (sFunc s 1).measMa), (0, 16, (sFunc s 1).measMv)]
  | 0x7830 =>
    packFields [(29, 1, bit (x.funcs.any fun f => f.st == .testing)), (28, 1, bit x.reqRefused), (24, 1, x.reqFunc)]
  | 0x7834 => packFields [(30, 1, bit x.resRefused), (0, 2, x.result)]
  | 0x7840 => safeTestWord (sFunc s 0)
  | 0x7844 => safeTestWord (sFunc s 1)
  | 0x7850 => nw (sFunc s 0).demands
  | 0x7854 => nw (sFunc s 1).demands
  | 0x7858 => nw x.rejected
  | 0x785C => nw x.discs
  | _ => if 0x7810 ≤ a ∧ a ≤ 0x781C then safePairWord s ((a - 0x7810) / 4) else 0

/-- A write in the SAFE window: only the test-request registers accept one (R27, R436). -/
def safeWrite (a : Nat) (v : Word) (s : State) : State :=
  match a with
  | 0x7830 => writeTestReq v s
  | 0x7834 => writeTestResult v s
  | _ => s

end Sys2Proof.Machine
end

