-- ==== Sys2Proof/Machine/RegsService.lean ====
section
/-! DEFINITION. The windows RTC, LOG, SEC, PANEL, SER and PLANT of the system register space (R455 to R459, R472 to R474, R498 to R501,
R514, R515). -/

namespace Sys2Proof.Machine

/-! ### RTC (R455 to R459) -/

/-- What a reader's read of RTC_NOW_TIME latched. -/
def rtcLatch (s : State) : Reader → RtcLatch
  | .sdk => s.rtc.sdk
  | .plant => s.rtc.plant

/-- Alarm `n` of a set. -/
def alarmAt (l : List Alarm) (n : Nat) : Alarm := l.getD n {}

/-- What the RTC window reads. -/
def rtcRead (r : Reader) (a : Nat) (s : State) : Word :=
  let x := s.rtc
  let sh := x.shadow
  match a with
  | 0x8000 =>
    packFields
      [(31, 1, bit x.valid), (30, 1, bit x.curveOk), (29, 1, bit x.wakeLevel), (0, 2, mapBits x.alarms (·.enable))]
  | 0x8004 => x.flags
  | 0x8008 => timeWord x.now x.weekday
  | 0x800C => dateWord (rtcLatch s r).date
  | 0x8010 => packFields [(0, 16, (rtcLatch s r).sub)]
  | 0x8014 => timeWord sh.time sh.weekday
  | 0x8018 => dateWord sh.time
  | 0x801C => packFields [(1, 1, bit sh.setWeekday), (0, 1, bit sh.setCalendar)]
  | 0x8020 => timeWord (alarmAt sh.alarms 0).time (alarmAt sh.alarms 0).weekday
  | 0x8024 => dateWord (alarmAt sh.alarms 0).time
  | 0x8028 => alarmWord (alarmAt sh.alarms 0)
  | 0x8030 => timeWord (alarmAt sh.alarms 1).time (alarmAt sh.alarms 1).weekday
  | 0x8034 => dateWord (alarmAt sh.alarms 1).time
  | 0x8038 => alarmWord (alarmAt sh.alarms 1)
  | 0x8040 => packFields [(31, 1, bit x.wakeLevel), (0, 8, sh.filter)]
  | 0x8044 => packFields [(16, 16, lowBits 16 x.temp), (0, 16, lowBits 16 x.corr)]
  | 0x8048 => packFields [(16, 16, x.capMv), (0, 16, x.cellMv)]
  | 0x804C => packFields [(16, 16, x.counts.getD 1 0), (0, 16, x.counts.getD 0 0)]
  | 0x8050 => x.commit.word
  | _ => 0

/-- An update of the RTC shadows. -/
def onRtcShadow (f : RtcSet → RtcSet) (s : State) : State := onRtc (fun r => { r with shadow := f r.shadow }) s

/-- An update of an alarm's shadows. -/
def onAlarm (n : Nat) (f : Alarm → Alarm) (s : State) : State := onRtcShadow (fun x => { x with alarms := x.alarms.modify n f }) s

/-- A write in the RTC window. -/
def rtcWrite (a : Nat) (v : Word) (s : State) : State :=
  let time := fun (x : Alarm) => { x with time := x.time.withTime v, weekday := field v 29 3 }
  let date := fun (x : Alarm) => { x with time := x.time.withDate v }
  match a with
  | 0x8004 => onRtc (fun x => { x with flags := w1c x.flags v }) s
  | 0x8014 => onRtcShadow (fun x => { x with time := x.time.withTime v, weekday := field v 29 3 }) s
  | 0x8018 => onRtcShadow (fun x => { x with time := x.time.withDate v }) s
  | 0x801C => onRtcShadow (fun x => { x with setWeekday := v.getLsbD 1, setCalendar := v.getLsbD 0 }) s
  | 0x8020 => onAlarm 0 time s
  | 0x8024 => onAlarm 0 date s
  | 0x8028 => onAlarm 0 (·.withCtrl v) s
  | 0x8030 => onAlarm 1 time s
  | 0x8034 => onAlarm 1 date s
  | 0x8038 => onAlarm 1 (·.withCtrl v) s
  | 0x8040 => onRtcShadow (fun x => { x with filter := field v 0 8 }) s
  | 0x8050 => commitWrite .rtc v s
  | _ => s

/-! ### LOG (R472 to R474) -/

/-- What the LOG window reads. -/
def logRead (r : Reader) (a : Nat) (s : State) : Word :=
  let l := s.log
  let b := logBank s r
  match a with
  | 0x8800 => logStatus s
  | 0x8804 => l.flags
  | 0x8808 => nw l.nextSeq
  | 0x880C => packFields [(0, 16, b.seqHi)]
  | 0x8810 => nw l.opsec
  | 0x8814 => packFields [(0, 16, b.frac)]
  | 0x8818 => packFields [(0, 24, b.power)]
  | 0x881C => packFields [(16, 13, l.maxStaged), (0, 13, l.staged.length)]
  | 0x8840 => packFields [(30, 1, bit b.latched), (0, 16, b.sel)]
  | 0x8880 => b.code.setWidth 32
  | 0x8884 => b.p1
  | 0x8888 => b.p2
  | 0x888C => b.p3
  | 0x8890 => packFields [(30, 1, bit b.refused), (0, 2, b.sev)]
  | 0x8898 => packFields [(0, 17, l.retired.length)]
  | _ =>
    if 0x8820 ≤ a ∧ a ≤ 0x882C then packFields [(0, 17, storedCount ((a - 0x8820) / 4) s)]
    else if 0x8830 ≤ a ∧ a ≤ 0x883C then nw (l.dropped.getD ((a - 0x8830) / 4) 0)
    else if 0x8860 ≤ a ∧ a ≤ 0x887C then latchedWord b ((a - 0x8860) / 4)
    else 0

/-- A write in the LOG window. -/
def logWrite (r : Reader) (a : Nat) (v : Word) (s : State) : State :=
  match a with
  | 0x8804 => onLog (fun l => { l with flags := w1c l.flags v }) s
  | 0x8840 => writeLogSel r v s
  | 0x8880 => onLogBank r (fun b => { b with code := v.setWidth 16 }) s
  | 0x8884 => onLogBank r (fun b => { b with p1 := v }) s
  | 0x8888 => onLogBank r (fun b => { b with p2 := v }) s
  | 0x888C => onLogBank r (fun b => { b with p3 := v }) s
  | 0x8890 => writeLogUser r v s
  | _ => s

/-! ### SEC (R498, R499) -/

/-- IDENTITY of SEC_STATUS (R499). -/
def Identity.code : Identity → Nat
  | .factory => 0
  | .enrolled => 1
  | .self => 2
  | .generating => 3

/-- STATE of a signer slot (R499). -/
def SignerState.code : SignerState → Nat
  | .empty => 0
  | .root => 1
  | .enrolled => 2
  | .revoked => 3

/-- A response as R496 codes it. -/
def Response.code : Response → Nat
  | .alert => 0
  | .lock => 1
  | .erase => 2

/-- Register k of a SEC_SIGNERn block (R498). -/
def signerRead (x : Signer) (k : Nat) : Word :=
  match k with
  | 0 => nw x.id
  | 1 => nw (x.id / 2 ^ 32)
  | 2 => packFields [(30, 2, x.st.code), (0, 16, x.serial)]
  | _ => 0

/-- What the SEC window reads. -/
def secRegRead (a : Nat) (s : State) : Word :=
  let x := s.sec
  match a with
  | 0x9000 =>
    packFields
      [(30, 2, x.identity.code), (29, 1, bit x.locked), (24, 5, x.signerSlot), (0, 5, mapBits x.standing id)]
  | 0x9004 => x.flags
  | 0x9008 => nw x.serial
  | 0x900C => nw (x.serial / 2 ^ 32)
  | 0x9024 => packFields ((List.range 5).map fun i => (2 * i, 2, (x.responses.getD i .alert).code))
  | 0x9028 => nw x.identityGen
  | _ =>
    if 0x9010 ≤ a ∧ a ≤ 0x9020 then nw (x.counts.getD ((a - 0x9010) / 4) 0)
    else if 0x9100 ≤ a ∧ a ≤ 0x91FC then signerRead (x.signers.getD ((a - 0x9100) / 16) {}) ((a - 0x9100) / 4 % 4)
    else 0

/-- A write in the SEC window. -/
def secRegWrite (a : Nat) (v : Word) (s : State) : State :=
  match a with
  | 0x9004 => onSec (fun x => { x with flags := w1c x.flags v }) s
  | _ => s

/-! ### PANEL (R514, R515) -/

/-- FRAME of PANEL_STATUS (R515): the frame in progress within its pass. -/
def panelFrameNo (p : Panel) : Nat :=
  let first := (p.update.bind fun u => u.lengths.head?).getD 0
  if p.frame < first then p.frame else p.frame - first

/-- What the PANEL window reads. -/
def panelRead (a : Nat) (s : State) : Word :=
  let p := s.panel
  match a with
  | 0x9800 =>
    packFields
      [(31, 1, bit p.enabled), (30, 1, bit p.update.isSome), (29, 1, bit (p.pending || p.correctiveDue)), (28, 1, bit p.disabled),
       (27, 1, bit (decide (p.temp < -2000))), (0, 6, panelFrameNo p)]
  | 0x9804 => p.flags
  | 0x9808 => packFields [(16, 16, lowBits 16 p.temp), (0, 3, p.band)]
  | 0x980C => packFields [(26, 6, min p.lastF 63), (0, 16, p.lastEnergy)]
  | 0x9810 => packFields [(16, 16, p.vsSet), (0, 16, p.vsMeas)]
  | 0x9814 => nw p.updates
  | 0x9818 => nw p.deferred
  | _ => 0

/-- A write in the PANEL window. -/
def panelWrite (a : Nat) (v : Word) (s : State) : State :=
  match a with
  | 0x9804 => onPanel (fun p => { p with flags := w1c p.flags v }) s
  | 0x981C => panelRequest v s
  | _ => s

/-! ### SER (R501) -/

/-- SERl_CFG as a word and back. -/
def SerCfg.word (c : SerCfg) : Word :=
  packFields
    [(28, 4, c.baud), (26, 2, c.parity), (25, 1, bit c.stop2), (24, 1, bit c.term), (23, 1, bit c.bias), (20, 3, c.retries)]

def serCfgOfWord (v : Word) : SerCfg :=
  { baud := field v 28 4, parity := field v 26 2, stop2 := v.getLsbD 25, term := v.getLsbD 24, bias := v.getLsbD 23,
    retries := field v 20 3 }

/-- What the block of a line reads, by offset. -/
def serLineRead (s : State) (l : SerLine) (off : Nat) : Word :=
  match off with
  | 0x00 =>
    packFields [(30, 2, l.role), (29, 1, bit (serTxAllowed s)), (28, 1, bit l.tx.isSome), (0, 6, l.item)]
  | 0x04 => l.flags
  | 0x08 => l.shadow.word
  | 0x0C => l.commit.word
  | 0x10 => nw l.frames
  | 0x14 => nw l.crcErrors
  | 0x18 => nw l.timeouts
  | 0x1C => nw l.exceptions
  | 0x20 => nw l.foreign
  | 0x24 => l.failed.setWidth 32
  | 0x28 => highWord l.failed
  | 0x2C => packFields [(0, 16, l.lastExc)]
  | _ => 0

/-- The line of an address in the SER window: the blocks of R501, and nothing beyond them. -/
def serOf (a : Nat) : Nat := (a - 0xA000) / 0x100 + 1

/-- What the SER window reads. -/
def serRead (a : Nat) (s : State) : Word :=
  if serOf a ≤ 2 then serLineRead s (serLine s (serOf a)) ((a - 0xA000) % 0x100) else 0

/-- A write in the SER window. -/
def serWrite (a : Nat) (v : Word) (s : State) : State :=
  let n := serOf a
  if 2 < n then s
  else match (a - 0xA000) % 0x100 with
    | 0x04 => onLine n (fun l => { l with flags := w1c l.flags v }) s
    | 0x08 => onLine n (fun l => { l with shadow := serCfgOfWord v }) s
    | 0x0C => commitWrite (.ser n) v s
    | _ => s

/-! ### PLANT (R500) -/

/-- Register k of a PLANT_SESSk block. -/
def sessionRead (x : Session) (k : Nat) : Word :=
  match k with
  | 0 => packFields [(30, 2, x.st), (16, 4, x.perms), (12, 4, x.anchor)]
  | 1 => nw x.ip
  | 2 => nw x.served
  | _ => 0

/-- What the PLANT window reads. -/
def plantRead (a : Nat) (s : State) : Word :=
  let p := s.plant
  match a with
  | 0xA800 =>
    packFields [(31, 1, bit p.enabled), (29, 2, p.speed), (0, 3, (p.sessions.filter fun x => x.st == 2).length)]
  | 0xA804 => p.flags
  | 0xA808 => nw p.ipv4
  | 0xA80C => nw p.netmask
  | 0xA810 => nw p.gateway
  | 0xA814 => nw p.handshakes
  | 0xA818 => nw p.authFails
  | 0xA81C => nw p.refused
  | 0xA820 => nw p.respMax
  | _ => if 0xA840 ≤ a ∧ a ≤ 0xA87C then sessionRead (sessionAt s ((a - 0xA840) / 16)) ((a - 0xA840) / 4 % 4) else 0

/-- A write in the PLANT window. -/
def plantWrite (a : Nat) (v : Word) (s : State) : State :=
  match a with
  | 0xA804 => onPlant (fun p => { p with flags := w1c p.flags v }) s
  | 0xA820 => onPlant (fun p => { p with respMax := v.toNat }) s
  | _ => s

end Sys2Proof.Machine
end

