-- ==== Sys2Proof/Machine/Registers.lean ====
section
/-! DEFINITION. The system register space as a whole (01_station_overview.md R24 to R27), the calls of native blocks that reach it (R151) and the
services of the plant port that do (R480, R481). -/

namespace Sys2Proof.Machine

/-! ### Reads and writes (R7, R24, R25) -/

/-- The window of an address in the order of R24; none from 0xB000 upward (R8). -/
def windowOf (a : Nat) : Option Nat :=
  if a < 0x2800 then some (a / 0x800)
  else if a < 0x3800 then some 5
  else if a < 0x5000 then some (a / 0x800 - 1)
  else if a < 0x6000 then some 9
  else if a < 0xB000 then some (a / 0x800 - 2)
  else none

/-- What an aligned word reads for a reader. -/
def readWord (r : Reader) (a : Nat) (s : State) : Word :=
  match windowOf a with
  | some 0 => sysRead a s
  | some 1 => pwrRead a s
  | some 2 => memRead a s
  | some 3 => cycRead r a s
  | some 4 => sigRead r a s
  | some 5 => loopRead r a s
  | some 6 => pairRead r a s
  | some 7 => ringRead r a s
  | some 8 => timeRead r a s
  | some 9 => canRead a s
  | some 10 => queRead r a s
  | some 11 => dioRead a s
  | some 12 => anaRead a s
  | some 13 => safeRead a s
  | some 14 => rtcRead r a s
  | some 15 => logRead r a s
  | some 16 => secRegRead a s
  | some 17 => panelRead a s
  | some 18 => serRead a s
  | some 19 => plantRead a s
  | _ => 0

/-- What a read changes: the latches of the readings that take two words, and the pointer of QUE_TAKE_DATA (R152, R277, R322, R358, R455,
R472). -/
def readEffect (r : Reader) (a : Nat) (s : State) : State :=
  match a with
  | 0x1810 => latchMono r s
  | 0x3A08 => if s.sys.role = .solo then s else hoistSeqRead r s
  | 0x4808 => (readTimeNow r s).2
  | 0x6050 => (readTakeData r s).2
  | 0x8008 => (readRtcNow r s).2
  | 0x8808 => (readNextSeq r s).2
  | 0x8810 => (readOpsec r s).2
  | _ => s

/-- A write of an aligned word by a reader that passed its check: it acts by the register's access code (R7). -/
def writeWord (x : StartIn) (r : Reader) (a : Nat) (v : Word) (s : State) : State :=
  match windowOf a with
  | some 0 => sysWrite a v s
  | some 1 => pwrWrite a v s
  | some 2 => memWrite r a v s
  | some 3 => cycWrite x r a v s
  | some 4 => sigWrite r a v s
  | some 5 => loopWrite r a v s
  | some 6 => pairWrite a v s
  | some 7 => ringWrite r a v s
  | some 8 => timeWrite a v s
  | some 9 => canWrite a v s
  | some 10 => queWrite r a v s
  | some 11 => dioWrite a v s
  | some 12 => anaWrite a v s
  | some 13 => safeWrite a v s
  | some 14 => rtcWrite a v s
  | some 15 => logWrite r a v s
  | some 16 => secRegWrite a v s
  | some 17 => panelWrite a v s
  | some 18 => serWrite a v s
  | some 19 => plantWrite a v s
  | _ => s

/-- Whether an access is one aligned 32-bit word (R26). -/
def aligned (a : RegAt) : Bool := a.word && a.addr % 4 == 0

/-- Whether a write is a RESTART request, which may start the module. -/
def isRestart (a : Nat) (v : Word) : Bool := a == 0x1808 && field v 0 4 == 4

/-- An aligned word written, with what follows it. -/
def writeSettles (x : StartIn) (r : Reader) (a : Nat) (v : Word) (s : State) : State :=
  let t := writeWord x r a v s
  if isRestart a v then startSettle t else settle s t

/-- Whether a write is a GO of SIG_WR_CTRL. -/
def isSigGo (a : Nat) (v : Word) : Bool := a == 0x2028 && v.getLsbD 31

/-- What a write that a reader may not make leaves behind: a GO of SIG_WR_CTRL its two marks (R199). -/
def writeTurned (r : Reader) (a : Nat) (v : Word) (s : State) : State := if isSigGo a v then sigRefuse r s else s

/-- REGISTER_WRITE (R7): by a reader that passed its check; a narrow or unaligned write changes nothing (R26). -/
def execRegisterWrite (r : Reader) (a : RegAt) (v : Word) (x : StartIn) (s : State) : Out :=
  answer (if aligned a then writeSettles x r a.addr v s else s)

/-! ### The calls of a native block (R27, R151) -/

/-- Whether an address lies where no register is: every read is 0 and every write without effect (R8, R25). -/
def reservedFrom : Nat := 0xB000

/-- Whether a native block owns the window of an address for reading, or for writing. -/
def ownsWindow (s : State) (native a : Nat) (write : Bool) : Bool :=
  match windowOf a with
  | none => true
  | some w => if write then (nativeAt s native).write.testBit w else (nativeAt s native).windows.testBit w

/-- Whether an address is one of the test-request registers of SAFE (R27, R436). -/
def isTestRequest (a : Nat) : Bool := a == 0x7830 || a == 0x7834

/-- Whether an address lies in the window SAFE. -/
def inSafe (a : Nat) : Bool := windowOf a == some 13

/-- One register read. -/
def sdkRegRead (native : Nat) (a : RegAt) (s : State) : State :=
  if !aligned a then sdkReturns native 1 [] s
  else if ownsWindow s native a.addr false then
    sdkReturns native 0 (leBytes 4 (readWord .sdk a.addr s).toNat) (readEffect .sdk a.addr s)
  else sdkRefused native s

/-- SDK_REG_READ (R151). -/
def execSdkRegRead (native : Nat) (a : RegAt) (s : State) : Out := answer (sdkRegRead native a s)

/-- One register write; one that is turned away at SIG_WR_CTRL still shows there (R199). DEDUCED (assumption 76). -/
def sdkRegWrite (native : Nat) (a : RegAt) (v : Word) (x : StartIn) (s : State) : State :=
  if !aligned a then sdkReturns native 1 [] s
  else if ownsWindow s native a.addr true && (!inSafe a.addr || isTestRequest a.addr) then
    sdkReturns native 0 [] (writeSettles x .sdk a.addr v s)
  else sdkRefused native (writeTurned .sdk a.addr v s)

/-- SDK_REG_WRITE (R151). -/
def execSdkRegWrite (native : Nat) (a : RegAt) (v : Word) (x : StartIn) (s : State) : Out :=
  answer (sdkRegWrite native a v x s)

/-! ### The services of the plant port (R480, R481) -/

/-- The body of an IDENTIFY response: the four SYS registers, the module serial, KEY_ID and STATION_NAME.
DEDUCED (assumption 202). -/
def identity (s : State) : List Byte :=
  ([0x0000, 0x0004, 0x0008, 0x000C].flatMap fun a => leBytes 4 (readWord .plant a s).toNat)
    ++ leBytes 8 s.sec.serial ++ leBytes 8 (hdr s).keyId ++ ((hdr s).name ++ List.replicate 32 0).take 32

/-- IDENTIFY (R480). -/
def execIdentify (r : PlantReq) (s : State) : Out := answer (serve svcIdentify r (answers identity) s)

/-- Words read one after the other, each with what its read changes. -/
def readWords : Nat → Nat → State → List Byte × State
  | 0, _, s => ([], s)
  | n + 1, a, s =>
    let (rest, t) := readWords n (a + 4) (readEffect .plant a s)
    (leBytes 4 (readWord .plant a s).toNat ++ rest, t)

/-- A read of registers: an access that is not an aligned word is answered ACCESS_ERROR (R26). -/
def regRead (a : RegAt) (count : Nat) (s : State) : PStatus × List Byte × State :=
  if count = 0 ∨ 256 < count then (.badRequest, [], s)
  else if !aligned a then (.accessError, [], s)
  else
    let (l, t) := readWords count a.addr s
    (.ok, l, t)

/-- REG_READ (R480). -/
def execRegRead (r : PlantReq) (a : RegAt) (count : Nat) (s : State) : Out := answer (serve svcRegRead r (regRead a count) s)

/-- The registers with a W1C field (R481): flag words, LOOP_Ln_STATUS, CANn_FLAGS and CANn_MISSED_WINc, DIO_GRPg_STATUS, DIO_CHn_DIAG and
ANA_CHn_DIAG, and the flags of the lines. -/
def isW1c (a : Nat) : Bool :=
  [0x0804, 0x1004, 0x1804, 0x2008, 0x2804, 0x3804, 0x3A04, 0x4004, 0x4804, 0x6004, 0x6810, 0x7004, 0x8004, 0x8804, 0x9004, 0x9804,
   0xA004, 0xA104, 0xA804].contains a
  || (decide (0x2900 ≤ a) && decide (a ≤ 0x29FC))
  || (decide (0x5000 ≤ a) && decide (a < 0x6000)
      && ((a - 0x5000) % 0x400 == 0x004 || (decide (0x200 ≤ (a - 0x5000) % 0x400) && decide ((a - 0x5000) % 0x400 ≤ 0x2FC))))
  || (decide (0x6820 ≤ a) && decide (a ≤ 0x682C)) || (decide (0x6840 ≤ a) && decide (a ≤ 0x68BC))
  || (decide (0x70C0 ≤ a) && decide (a ≤ 0x70FC))

/-- The registers that OPERATE may write (R481). -/
def operateWrites (a : Nat) : Bool :=
  a == 0x1808 || a == 0x3814 || a == 0x082C || a == 0x0834 || isTestRequest a
  || (decide (0x8880 ≤ a) && decide (a ≤ 0x8890)) || isW1c a

/-- Whether a session may write an address. A session without a key may write only a RESTART to CYC_MODE_REQ (R480). -/
def plantMayWrite (s : State) (t : Session) (a : Nat) (v : Word) : Bool :=
  if t.noKey then isRestart a v
  else
    (match windowOf a with | none => true | some w => s.plant.windows.testBit w) && (!inSafe a || isTestRequest a)
    && (t.perms.testBit 2 || (t.perms.testBit 1 && operateWrites a))

/-- One pair of a REG_WRITE request. -/
def regWritePair (x : StartIn) (t : Session) (p : RegPair) (s : State) : PStatus × State :=
  if !aligned p.reg then (.accessError, s)
  else if plantMayWrite s t p.reg.addr p.value then (.ok, writeSettles x .plant p.reg.addr p.value s)
  else (.denied, writeTurned .plant p.reg.addr p.value s)

/-- The pairs in their order, with a status for each; once an ERASE has ended the session, those left are discarded (R489). -/
def regWritePairs (x : StartIn) (k : Nat) (t : Session) : List RegPair → State → List PStatus × State
  | [], s => ([], s)
  | p :: r, s =>
    if (sessionAt s k).st ≠ 2 then ([], s)
    else
      let (st, s) := regWritePair x t p s
      let (l, s) := regWritePairs x k t r s
      (st :: l, s)

/-- The pairs applied; a refused pair counts as a refusal (R479, R480). -/
def regWrite (k : Nat) (pairs : List RegPair) (x : StartIn) (s : State) : PStatus × List Byte × State :=
  if pairs.isEmpty ∨ 64 < pairs.length then (.badRequest, [], s)
  else
    let (l, t) := regWritePairs x k (sessionAt s k) pairs s
    (.ok, l.flatMap fun st => leBytes 2 st.code, if l.all (· == .ok) then t else plantRefuse 2 t)

/-- REG_WRITE (R481). -/
def execRegWrite (r : PlantReq) (pairs : List RegPair) (x : StartIn) (s : State) : Out :=
  answer (serve svcRegWrite r (regWrite r.session pairs x) s)

end Sys2Proof.Machine
end

