-- ==== Sys2Proof/Machine/Dispatch.lean ====
section
/-! DEFINITION. One arm per command: the direct call of its meaning. -/

namespace Sys2Proof.Machine

/-- A command's effect on everything but the queue. -/
def exec (i : Instr) (s : State) : Host.Outcome State Fault Refusal :=
  match i with
  | .commitWrite b v => Sys2Proof.Machine.execCommitWrite b v s
  | .commitBoundary b => Sys2Proof.Machine.execCommitBoundary b s
  | .registerWrite r a v x => Sys2Proof.Machine.execRegisterWrite r a v x s
  | .sdkRegRead native a => Sys2Proof.Machine.execSdkRegRead native a s
  | .sdkRegWrite native a v x => Sys2Proof.Machine.execSdkRegWrite native a v x s
  | .sdkBufMap native bank row count => Sys2Proof.Machine.execSdkBufMap native bank row count s
  | .sdkRequestStop native => Sys2Proof.Machine.execSdkRequestStop native s
  | .sdkMono native => Sys2Proof.Machine.execSdkMono native s
  | .sysClkholdWrite v => Sys2Proof.Machine.execSysClkholdWrite v s
  | .clockGate c => Sys2Proof.Machine.execClockGate c s
  | .coreWake => Sys2Proof.Machine.execCoreWake s
  | .coldStart x => Sys2Proof.Machine.execColdStart x s
  | .linkWaitEnd => Sys2Proof.Machine.execLinkWaitEnd s
  | .roleDiscoveryListenEnd => Sys2Proof.Machine.execRoleDiscoveryListenEnd s
  | .keyRemoved => Sys2Proof.Machine.execKeyRemoved s
  | .keyOut => Sys2Proof.Machine.execKeyOut s
  | .keyCopyRepair ok => Sys2Proof.Machine.execKeyCopyRepair ok s
  | .x1Present dc => Sys2Proof.Machine.execX1Present dc s
  | .x1Lost => Sys2Proof.Machine.execX1Lost s
  | .x2Present => Sys2Proof.Machine.execX2Present s
  | .x2Lost => Sys2Proof.Machine.execX2Lost s
  | .x2Over => Sys2Proof.Machine.execX2Over s
  | .x2Reconnect => Sys2Proof.Machine.execX2Reconnect s
  | .x2Low => Sys2Proof.Machine.execX2Low s
  | .logicHigh => Sys2Proof.Machine.execLogicHigh s
  | .holdupMeasure esr cap => Sys2Proof.Machine.execHoldupMeasure esr cap s
  | .holdupEnergyUpdate mV => Sys2Proof.Machine.execHoldupEnergyUpdate mV s
  | .busLost rows => Sys2Proof.Machine.execBusLost rows s
  | .powerDown rows => Sys2Proof.Machine.execPowerDown rows s
  | .rideThroughEnergyLow rows => Sys2Proof.Machine.execRideThroughEnergyLow rows s
  | .powerDip x1 => Sys2Proof.Machine.execPowerDip x1 s
  | .fieldSupplyLow g => Sys2Proof.Machine.execFieldSupplyLow g s
  | .fieldSupplyLost g => Sys2Proof.Machine.execFieldSupplyLost g s
  | .fieldSupplyNormal g => Sys2Proof.Machine.execFieldSupplyNormal g s
  | .fieldSupplyQualifying g => Sys2Proof.Machine.execFieldSupplyQualifying g s
  | .qualifyingRestart g => Sys2Proof.Machine.execQualifyingRestart g s
  | .fieldSupplyReturned g => Sys2Proof.Machine.execFieldSupplyReturned g s
  | .fieldSupplyOver g => Sys2Proof.Machine.execFieldSupplyOver g s
  | .fieldSupplyRestore v => Sys2Proof.Machine.execFieldSupplyRestore v s
  | .harbourEnterRequest => Sys2Proof.Machine.execHarbourEnterRequest s
  | .harbourAutoEnter => Sys2Proof.Machine.execHarbourAutoEnter s
  | .harbourEntry => Sys2Proof.Machine.execHarbourEntry s
  | .harbourWake x => Sys2Proof.Machine.execHarbourWake x s
  | .watchRoundSettleEnd => Sys2Proof.Machine.execWatchRoundSettleEnd s
  | .watchReadingsDone => Sys2Proof.Machine.execWatchReadingsDone s
  | .pwronFault => Sys2Proof.Machine.execPwronFault s
  | .memoryAccess a => Sys2Proof.Machine.execMemoryAccess a s
  | .weakRowRecordWrite => Sys2Proof.Machine.execWeakRowRecordWrite s
  | .scrubWord flips => Sys2Proof.Machine.execScrubWord flips s
  | .scrubWriteBack p => Sys2Proof.Machine.execScrubWriteBack p s
  | .memHandoverGo r v => Sys2Proof.Machine.execMemHandoverGo r v s
  | .memHandoverComplete => Sys2Proof.Machine.execMemHandoverComplete s
  | .memInjectWrite v => Sys2Proof.Machine.execMemInjectWrite v s
  | .lockstep => Sys2Proof.Machine.execLockstep s
  | .trap task => Sys2Proof.Machine.execTrap task s
  | .releaseInstant n => Sys2Proof.Machine.execReleaseInstant n s
  | .taskStart n => Sys2Proof.Machine.execTaskStart n s
  | .taskWritePoint w => Sys2Proof.Machine.execTaskWritePoint w s
  | .backstop n => Sys2Proof.Machine.execBackstop n s
  | .watchdog n => Sys2Proof.Machine.execWatchdog n s
  | .modeReqRun r => Sys2Proof.Machine.execModeReqRun r s
  | .modeReqStop r => Sys2Proof.Machine.execModeReqStop r s
  | .modeReqHold r => Sys2Proof.Machine.execModeReqHold r s
  | .modeReqRestart r x => Sys2Proof.Machine.execModeReqRestart r x s
  | .modeReqUndefined code r => Sys2Proof.Machine.execModeReqUndefined code r s
  | .modeChange => Sys2Proof.Machine.execModeChange s
  | .modeDrainComplete => Sys2Proof.Machine.execModeDrainComplete s
  | .forceSet => Sys2Proof.Machine.execForceSet s
  | .forceRelease => Sys2Proof.Machine.execForceRelease s
  | .forceReleaseAll => Sys2Proof.Machine.execForceReleaseAll s
  | .forceEffect => Sys2Proof.Machine.execForceEffect s
  | .olcPiece r p => Sys2Proof.Machine.execOlcPiece r p s
  | .olcPieceForward p => Sys2Proof.Machine.execOlcPieceForward p s
  | .olcActivate => Sys2Proof.Machine.execOlcActivate s
  | .olcAbort => Sys2Proof.Machine.execOlcAbort s
  | .olcPrepared => Sys2Proof.Machine.execOlcPrepared s
  | .olcSwitch => Sys2Proof.Machine.execOlcSwitch s
  | .olcNoBoundary => Sys2Proof.Machine.execOlcNoBoundary s
  | .olcConfirmRetry ok => Sys2Proof.Machine.execOlcConfirmRetry ok s
  | .sigRdLatch r v => Sys2Proof.Machine.execSigRdLatch r v s
  | .sigWrGo r v => Sys2Proof.Machine.execSigWrGo r v s
  | .groupTick t => Sys2Proof.Machine.execGroupTick t s
  | .loopEnableWrite hi v => Sys2Proof.Machine.execLoopEnableWrite hi v s
  | .loopLatch r v => Sys2Proof.Machine.execLoopLatch r v s
  | .loopLatchDone r => Sys2Proof.Machine.execLoopLatchDone r s
  | .pennantSend => Sys2Proof.Machine.execPennantSend s
  | .pennantReceived body => Sys2Proof.Machine.execPennantReceived body s
  | .partnerSilent => Sys2Proof.Machine.execPartnerSilent s
  | .jackQueryTimeout => Sys2Proof.Machine.execJackQueryTimeout s
  | .jackBusyRetry => Sys2Proof.Machine.execJackBusyRetry s
  | .jackAnswer x body => Sys2Proof.Machine.execJackAnswer x body s
  | .jackProbe x body => Sys2Proof.Machine.execJackProbe x body s
  | .jackNotifySend => Sys2Proof.Machine.execJackNotifySend s
  | .jackNotifyAck x body => Sys2Proof.Machine.execJackNotifyAck x body s
  | .jackQuery x body => Sys2Proof.Machine.execJackQuery x body s
  | .jackProbeReply x body => Sys2Proof.Machine.execJackProbeReply x body s
  | .jackProbeTimeout idx => Sys2Proof.Machine.execJackProbeTimeout idx s
  | .jackNotify x body => Sys2Proof.Machine.execJackNotify x body s
  | .noActiveRetry => Sys2Proof.Machine.execNoActiveRetry s
  | .linkDownRetry => Sys2Proof.Machine.execLinkDownRetry s
  | .handoverRequest => Sys2Proof.Machine.execHandoverRequest s
  | .handoverTimeout => Sys2Proof.Machine.execHandoverTimeout s
  | .hoistTimer => Sys2Proof.Machine.execHoistTimer s
  | .hoistFragment body bad => Sys2Proof.Machine.execHoistFragment body bad s
  | .hoistSeqRead r => Sys2Proof.Machine.execHoistSeqRead r s
  | .ringForward f => Sys2Proof.Machine.execRingForward f s
  | .supervisionSend => Sys2Proof.Machine.execSupervisionSend s
  | .supervisionReturn p12 => Sys2Proof.Machine.execSupervisionReturn p12 s
  | .supervisionTimeout p12 => Sys2Proof.Machine.execSupervisionTimeout p12 s
  | .linkUp port speed => Sys2Proof.Machine.execLinkUp port speed s
  | .linkLost port => Sys2Proof.Machine.execLinkLost port s
  | .hello x body => Sys2Proof.Machine.execHello x body s
  | .input x body flips => Sys2Proof.Machine.execInput x body flips s
  | .admitTimeout n => Sys2Proof.Machine.execAdmitTimeout n s
  | .admitSeen x dest body => Sys2Proof.Machine.execAdmitSeen x dest body s
  | .outputSeen x body => Sys2Proof.Machine.execOutputSeen x body s
  | .ringSelLatch r v => Sys2Proof.Machine.execRingSelLatch r v s
  | .ptpSync m => Sys2Proof.Machine.execPtpSync m s
  | .ptpFollowUp m => Sys2Proof.Machine.execPtpFollowUp m s
  | .ptpAnnounce m => Sys2Proof.Machine.execPtpAnnounce m s
  | .ptpDelayResp m => Sys2Proof.Machine.execPtpDelayResp m s
  | .ptpPdelayReq port seq => Sys2Proof.Machine.execPtpPdelayReq port seq s
  | .ptpSyncSend => Sys2Proof.Machine.execPtpSyncSend s
  | .ptpMasterLost => Sys2Proof.Machine.execPtpMasterLost s
  | .holdoverExpiry => Sys2Proof.Machine.execHoldoverExpiry s
  | .timeStep => Sys2Proof.Machine.execTimeStep s
  | .pulseInstant n => Sys2Proof.Machine.execPulseInstant n s
  | .pulseEnd n => Sys2Proof.Machine.execPulseEnd n s
  | .timedLaunch task late => Sys2Proof.Machine.execTimedLaunch task late s
  | .calendarDiscipline => Sys2Proof.Machine.execCalendarDiscipline s
  | .timeNowRead r => Sys2Proof.Machine.execTimeNowRead r s
  | .refDrift => Sys2Proof.Machine.execRefDrift s
  | .canFrameReceived p r => Sys2Proof.Machine.execCanFrameReceived p r s
  | .canArbitration p cancels ownSof => Sys2Proof.Machine.execCanArbitration p cancels ownSof s
  | .canTxDone p e measured => Sys2Proof.Machine.execCanTxDone p e measured s
  | .canErrorFrame p e => Sys2Proof.Machine.execCanErrorFrame p e s
  | .canRecover p => Sys2Proof.Machine.execCanRecover p s
  | .canRecovered p => Sys2Proof.Machine.execCanRecovered p s
  | .canIntegrated p => Sys2Proof.Machine.execCanIntegrated p s
  | .canEntryExpired h => Sys2Proof.Machine.execCanEntryExpired h s
  | .canReferenceSend p => Sys2Proof.Machine.execCanReferenceSend p s
  | .canMasterListenEnd p => Sys2Proof.Machine.execCanMasterListenEnd p s
  | .canRefLost p => Sys2Proof.Machine.execCanRefLost p s
  | .bookWindowStart p w => Sys2Proof.Machine.execBookWindowStart p w s
  | .bookWindowEnd p w => Sys2Proof.Machine.execBookWindowEnd p w s
  | .queEnqueue r => Sys2Proof.Machine.execQueEnqueue r s
  | .queTxHeadWrite r v => Sys2Proof.Machine.execQueTxHeadWrite r v s
  | .queTxDataWrite r v => Sys2Proof.Machine.execQueTxDataWrite r v s
  | .queCancel r v => Sys2Proof.Machine.execQueCancel r v s
  | .queTake r v => Sys2Proof.Machine.execQueTake r v s
  | .queTakeDataRead r => Sys2Proof.Machine.execQueTakeDataRead r s
  | .queAck r v => Sys2Proof.Machine.execQueAck r v s
  | .dioDebounce n level => Sys2Proof.Machine.execDioDebounce n level s
  | .dioShort n thermal => Sys2Proof.Machine.execDioShort n thermal s
  | .dioRetry n => Sys2Proof.Machine.execDioRetry n s
  | .dioRetryCheck n high => Sys2Proof.Machine.execDioRetryCheck n high s
  | .dioClear mask => Sys2Proof.Machine.execDioClear mask s
  | .dioExtFeed n => Sys2Proof.Machine.execDioExtFeed n s
  | .dioPartnerLow n => Sys2Proof.Machine.execDioPartnerLow n s
  | .dioRefresh => Sys2Proof.Machine.execDioRefresh s
  | .dioRefreshTimeout n => Sys2Proof.Machine.execDioRefreshTimeout n s
  | .anaConversion n raw => Sys2Proof.Machine.execAnaConversion n raw s
  | .anaInputFault n f stands => Sys2Proof.Machine.execAnaInputFault n f stands s
  | .anaLoopLimit n stands => Sys2Proof.Machine.execAnaLoopLimit n stands s
  | .anaOutputDiag n k stands => Sys2Proof.Machine.execAnaOutputDiag n k stands s
  | .cjcRead g internal => Sys2Proof.Machine.execCjcRead g internal s
  | .anaRefreshTimeout n => Sys2Proof.Machine.execAnaRefreshTimeout n s
  | .hartPoll n slot => Sys2Proof.Machine.execHartPoll n slot s
  | .hartResponse n r => Sys2Proof.Machine.execHartResponse n r s
  | .hartResponseTimeout n => Sys2Proof.Machine.execHartResponseTimeout n s
  | .hartBurst n slot r => Sys2Proof.Machine.execHartBurst n slot r s
  | .hartBurstAbsent n slot => Sys2Proof.Machine.execHartBurstAbsent n slot s
  | .safetyTick t => Sys2Proof.Machine.execSafetyTick t s
  | .siFilter p n level => Sys2Proof.Machine.execSiFilter p n level s
  | .testPulseDrop tp levels => Sys2Proof.Machine.execTestPulseDrop tp levels s
  | .tpOverload tp => Sys2Proof.Machine.execTpOverload tp s
  | .tpOverloadRetry tp => Sys2Proof.Machine.execTpOverloadRetry tp s
  | .sbcStaticTest f e => Sys2Proof.Machine.execSbcStaticTest f e s
  | .sbcHoldPhase f => Sys2Proof.Machine.execSbcHoldPhase f s
  | .sbcOpenLoad f => Sys2Proof.Machine.execSbcOpenLoad f s
  | .sbcDarkTest f high ok => Sys2Proof.Machine.execSbcDarkTest f high ok s
  | .sbcOverload f => Sys2Proof.Machine.execSbcOverload f s
  | .sbcOffCheck f => Sys2Proof.Machine.execSbcOffCheck f s
  | .groupFResume => Sys2Proof.Machine.execGroupFResume s
  | .brakeTestStart f => Sys2Proof.Machine.execBrakeTestStart f s
  | .brakeTestAbort f => Sys2Proof.Machine.execBrakeTestAbort f s
  | .torqueAllowed f => Sys2Proof.Machine.execTorqueAllowed f s
  | .brakeTestPass => Sys2Proof.Machine.execBrakeTestPass s
  | .brakeTestFail => Sys2Proof.Machine.execBrakeTestFail s
  | .brakeTestTimeout f => Sys2Proof.Machine.execBrakeTestTimeout f s
  | .brakeTestDue f => Sys2Proof.Machine.execBrakeTestDue f s
  | .secondTick => Sys2Proof.Machine.execSecondTick s
  | .compensationInterval t => Sys2Proof.Machine.execCompensationInterval t s
  | .cellMeasure cell cap => Sys2Proof.Machine.execCellMeasure cell cap s
  | .wakeInput => Sys2Proof.Machine.execWakeInput s
  | .rtcNowRead r => Sys2Proof.Machine.execRtcNowRead r s
  | .recordStore how => Sys2Proof.Machine.execRecordStore how s
  | .eventBlock code sev p1 p2 p3 => Sys2Proof.Machine.execEventBlock code sev p1 p2 p3 s
  | .logUserGo r v => Sys2Proof.Machine.execLogUserGo r v s
  | .logRdLatch r v => Sys2Proof.Machine.execLogRdLatch r v s
  | .opsecTick => Sys2Proof.Machine.execOpsecTick s
  | .logNextSeqRead r => Sys2Proof.Machine.execLogNextSeqRead r s
  | .logOpsecRead r => Sys2Proof.Machine.execLogOpsecRead r s
  | .arpRequest vid mac ip target => Sys2Proof.Machine.execArpRequest vid mac ip target s
  | .icmpEcho vid target body => Sys2Proof.Machine.execIcmpEcho vid target body s
  | .plantConnect p => Sys2Proof.Machine.execPlantConnect p s
  | .plantHandshake k c => Sys2Proof.Machine.execPlantHandshake k c s
  | .plantIdleTimeout k => Sys2Proof.Machine.execPlantIdleTimeout k s
  | .identify r => Sys2Proof.Machine.execIdentify r s
  | .regRead r a count => Sys2Proof.Machine.execRegRead r a count s
  | .regWrite r pairs x => Sys2Proof.Machine.execRegWrite r pairs x s
  | .logBulk r first count => Sys2Proof.Machine.execLogBulk r first count s
  | .dictionary r first count => Sys2Proof.Machine.execDictionary r first count s
  | .keyRead r set off len => Sys2Proof.Machine.execKeyRead r set off len s
  | .enrol r cert => Sys2Proof.Machine.execEnrol r cert s
  | .identityGetRequest r => Sys2Proof.Machine.execIdentityGetRequest r s
  | .identityInstall r cert key => Sys2Proof.Machine.execIdentityInstall r cert key s
  | .reauthorise r => Sys2Proof.Machine.execReauthorise r s
  | .messageOpen r c => Sys2Proof.Machine.execMessageOpen r c s
  | .messageClose r c => Sys2Proof.Machine.execMessageClose r c s
  | .messageSend r c tag data => Sys2Proof.Machine.execMessageSend r c tag data s
  | .messageDeliver c => Sys2Proof.Machine.execMessageDeliver c s
  | .plantUnknownService code r => Sys2Proof.Machine.execPlantUnknownService code r s
  | .identityKeyGenerated x y => Sys2Proof.Machine.execIdentityKeyGenerated x y s
  | .tamperCover => Sys2Proof.Machine.execTamperCover s
  | .supplyGlitch => Sys2Proof.Machine.execSupplyGlitch s
  | .clockGlitch => Sys2Proof.Machine.execClockGlitch s
  | .tamperTemperature => Sys2Proof.Machine.execTamperTemperature s
  | .serialTransaction n => Sys2Proof.Machine.execSerialTransaction n s
  | .serialReply n f => Sys2Proof.Machine.execSerialReply n f s
  | .serialTimeout n => Sys2Proof.Machine.execSerialTimeout n s
  | .serialRequest n f => Sys2Proof.Machine.execSerialRequest n f s
  | .serialWriteTimeout n item => Sys2Proof.Machine.execSerialWriteTimeout n item s
  | .panelCompare => Sys2Proof.Machine.execPanelCompare s
  | .panelUpdateStart frames vs => Sys2Proof.Machine.execPanelUpdateStart frames vs s
  | .panelFrame vs bad => Sys2Proof.Machine.execPanelFrame vs bad s
  | .panelTempRead t => Sys2Proof.Machine.execPanelTempRead t s
  | .panelRefreshReq v => Sys2Proof.Machine.execPanelRefreshReq v s
  | .fieldSupplySample x => Sys2Proof.Machine.execFieldSupplySample x s
  | .ptpDelayReqSend => Sys2Proof.Machine.execPtpDelayReqSend s
  | .ptpDelayReq port domain seq => Sys2Proof.Machine.execPtpDelayReq port domain seq s
  | .ptpAnnounceSend => Sys2Proof.Machine.execPtpAnnounceSend s
  | .wakeLevelFall => Sys2Proof.Machine.execWakeLevelFall s
  | .tamperConditionEnd source => Sys2Proof.Machine.execTamperConditionEnd source s
  | .plantSessionClose k => Sys2Proof.Machine.execPlantSessionClose k s
  | .jackReachableExpiry of => Sys2Proof.Machine.execJackReachableExpiry of s

end Sys2Proof.Machine
end

