-- ==== Sys2Proof/Machine/Idle.lean ====
section
/-! DEFINITION. What passes while no command waits: the monotonic time base and network time advance (05_program_cycle.md R150,
12_network_time.md R308). DESIGN CHOICE: one idle step is one step of the time base (assumption 2). -/

namespace Sys2Proof.Machine

/-- One step of the always-on clock, 1/32,768 s: harbour watch between its wake-ups (R150). -/
def slowTick (s : State) : State :=
  let f := s.monoFrac + 18944
  if f < 32768 then { s with mono := s.mono + 30517, monoFrac := f }
  else { s with mono := s.mono + 30518, monoFrac := f - 32768 }

/-- One step of the 25 MHz reference, 40 ns; network time advances by as much with its frequency correction (R308). -/
def fastTick (s : State) : State :=
  let f := (s.time.frac : Int) + 40 * s.time.freq
  let s := onTime (fun t =>
    { t with ns := ((t.ns : Int) + 40 + f / 1000000000).toNat, frac := (f % 1000000000).toNat }) s
  { s with mono := s.mono + 40 }

/-- An idle step: in harbour watch, a watch round included, the base steps with the always-on clock (R150). Without logic power nothing
advances; asleep, the operating second in progress does not either (R461). -/
def idle (s : State) : State :=
  if s.pwr.railsOff then s
  else if s.sys.mode = .harbour then
    let t := slowTick s
    if s.pwr.hbr = .asleep then onLog (fun l => { l with secBase := l.secBase + (t.mono - s.mono) }) t else t
  else fastTick s

end Sys2Proof.Machine
end

