-- ==== Sys2Proof/Safety.lean ====
section
/-! DEFINITION. The terms that claims are made in: what a command answers, what it leaves alone, and what a steady state is. -/

namespace Sys2Proof.Machine

/-- A digital channel without what a delivered value, a release, a check or a refresh changes: its command and output state, and whether a
feed or a low readback stands. -/
def DioCh.inward (c : DioCh) : DioCh :=
  { c with
    extNow := false, lowNow := false, command := false, posted := false, latchedOff := false, relOther := false, ostate := .normal, retries := 0
    clearBit := false, restoreBit := false, stage := false, held := none, switches := 0, pulse := false, since := 0 }

/-- An analogue channel without what a delivered value or a refresh changes: its command, its output,
CLAMPED and its HART impedance. -/
def AnaCh.inward (c : AnaCh) : AnaCh :=
  { c with command := 0, posted := false, latchedOff := false, out := 0, code := 0, impedance := false
           diag := setBit c.diag 12 true }

/-- A digital channel without what a refresh changes: its stage and the instant of its last change, the held command, the
switch-on count and the pulse. -/
def DioCh.still (c : DioCh) : DioCh := { c with stage := false, held := none, switches := 0, pulse := false, since := 0 }

/-- An analogue channel without what a refresh changes: the output, its code, CLAMPED and the HART impedance. -/
def AnaCh.still (c : AnaCh) : AnaCh := { c with out := 0, code := 0, impedance := false, diag := setBit c.diag 12 true }

/-- No sink record names a digital channel: no delivery reaches one. -/
def NoDioSink (s : State) : Prop := ∀ k ∈ s.sig.sinks, k.kind ≠ 1

/-- No sink record names an analogue channel. -/
def NoAnaSink (s : State) : Prop := ∀ k ∈ s.sig.sinks, k.kind ≠ 2

/-- A signal entry without its dynamic part: what it is, not what it holds. -/
def SigEntry.inward (e : SigEntry) : SigEntry :=
  { e with value := 0, typ := 0, quality := qConfig, stale := false, staleCount := 0, substituted := false, cond := none }

/-- The banks without what the storing of an entry's words changes: positions in error, words found uncorrectable, write-backs that wait, and
whether an injection is armed (R105, R107, R113). -/
def Mem.inward (m : Mem) : Mem := { m with errs := [], found := [], backs := [], inject := { m.inject with armed := false } }

/-- The state without what follows when items are delivered: the dynamic part of the entries and the check bits it is stored with, the outputs' commands and
stages, FIELD_SUPPLY, RESTORE_IGNORED and CLEAR_IGNORED, COMMON_FAULT, the values that forces set aside, pulses that end, and
the count of free values. -/
def State.beyondField (s : State) : State :=
  { s with
    sig := { s.sig with entries := s.sig.entries.map fun p => (p.1, p.2.inward) }
    mem := s.mem.inward
    dio := { ch := s.dio.ch.map DioCh.inward, groups := s.dio.groups.map fun g => { g with common := false }
             flags := flag 6 s.dio.flags }
    ana := { s.ana with ch := s.ana.ch.map AnaCh.inward }
    pwr := { s.pwr with groups := s.pwr.groups.map fun g => { g with st := .normal }, flags := flag 18 s.pwr.flags }
    cyc := { s.cyc with forces := s.cyc.forces.map fun p => (p.1, { p.2 with aside := (0, 0) }) }
    time := { s.time with pulses := s.time.pulses.map fun p => { p with next := none, out := false } }
    free := 0 }

/-- `State.beyondField` without which clocks run: what no command changes by the way (R31). -/
def State.rest (s : State) : State :=
  { s.beyondField with sys := { s.sys with run := [], refClock := false } }

/-- What a state `t` keeps of a state `u` that a command settled into it. -/
structure Settled (u t : State) : Prop where
  rest     : t.rest = u.rest
  dio      : ∀ n, (dioCh t n).inward = (dioCh u n).inward
  ana      : ∀ n, (anaCh t n).inward = (anaCh u n).inward
  dioStill : NoDioSink u → ∀ n, (dioCh t n).still = (dioCh (outputsCheck (pulsesCheck u)) n).still
  anaStill : NoDioSink u → NoAnaSink u → ∀ n, (anaCh t n).still = (anaCh u n).still
  steady   : follow t = t
  dioLen   : t.dio.ch.length = u.dio.ch.length
  anaLen   : t.ana.ch.length = u.ana.ch.length
  dioFlags : ∀ n, n ≠ 6 → t.dio.flags.getLsbD n = u.dio.flags.getLsbD n
  pwrFlags : ∀ n, n ≠ 18 → t.pwr.flags.getLsbD n = u.pwr.flags.getLsbD n
  time     : t.time = (pulsesCheck u).time
  pulse    : ∀ n, (dioCh t n).pulse = (dioCh (pulsesCheck u) n).pulse
  mode     : t.sys.mode = u.sys.mode
  role     : t.sys.role = u.sys.role

/-- The banks' bytes stand in canonical form: addresses strictly rising, no byte listed that reads 0 unlisted (R94).
DESIGN CHOICE (assumption 9). -/
def Memory.wf (s : State) : Bool := cellsWf 0 s.mem.cells

/-- The key flash's bytes stand in canonical form; an erased byte reads 0xFF (R37). DESIGN CHOICE (assumption 5). -/
def Key.wf (s : State) : Bool := cellsWf 0xFF s.key.cells

/-- The stages and the clocks stand as the state gives them: nothing follows any more (R31, R368, R376, R398). -/
def Steady (s : State) : Prop := follow s = s

end Sys2Proof.Machine
end

