-- ==== Sys2Proof/Certificates/Slice0/Obligations.lean ====
section
/-! DEFINITION. The statements for the provers, one definition each. -/

open Sys2Proof Sys2Proof.Machine

/-- With a command c at the front of the queue, a step is exec of c on the state whose queue is the rest. Every command but
MEMORY_ACCESS, whose own statement says where it completes, answers a next state in every state; what that state holds the
other statements say. The queue is the model's. Where the rules leave it open, it follows the model's choices or readings of
assumption 1. Follows 00_scope.md. -/
def Obligations.StepRunsTheFrontCommand : Prop :=
  ∀ (c : Instr) (s : State),
    (∀ rest : List Instr, step { s with pending := c :: rest } = exec c { s with pending := rest }) ∧
    ((∀ m, c ≠ .memoryAccess m) → ∃ t, exec c s = .next t)

/-- On an empty queue a step answers a state in which the monotonic base and network time may have advanced and all else is the
same; with the rails on and the module not in harbour watch the base advances by 40 ns, in harbour watch by one period of
32,768 Hz (30,517 or 30,518 ns), and without logic power not at all; asleep, the instant from which the operating second in
progress counts moves with it. That an idle step is one step of the base is the model's choice (assumption 2). Follows
05_program_cycle.md, 12_network_time.md. -/
def Obligations.IdleStepAdvancesTime : Prop :=
  ∀ s : State, s.pending = [] →
    ∃ t, step s = .next t ∧
      { t with mono := s.mono, monoFrac := s.monoFrac, time := { t.time with ns := s.time.ns, frac := s.time.frac }
               log := { t.log with secBase := s.log.secBase } } = s ∧
      (s.pwr.railsOff = true → t = s) ∧
      (s.pwr.railsOff = false → s.sys.mode ≠ .harbour → t.mono = s.mono + 40 ∧ t.log = s.log) ∧
      (s.pwr.railsOff = false → s.sys.mode = .harbour →
        t.log.secBase = if s.pwr.hbr = .asleep then s.log.secBase + (t.mono - s.mono) else s.log.secBase) ∧
      (s.pwr.railsOff = false → s.sys.mode = .harbour → s.monoFrac < 32768 →
        t.monoFrac < 32768 ∧ t.time = s.time ∧
        t.mono * 32768 + t.monoFrac = s.mono * 32768 + s.monoFrac + 1000000000)

/-- If every output stage and every clock stands as the state gives it (the rules of R31, R368, R376 and R398 applied again
change nothing), they do so after any step, whichever of the 246 commands it ran. Where the rules leave it open, it follows
the model's choices or readings of assumption 7. Follows 01_station_overview.md, 14_digital_channels.md,
15_analogue_channels.md. -/
def Obligations.EveryStepKeepsSteady : Prop :=
  ∀ s t : State, Steady s → step s = .next t → Steady t

/-- The state after reset is steady; no output stage is on and no fast clock runs in it. Where the rules leave it open, it
follows the model's choices or readings of assumptions 3 and 7. Follows 14_digital_channels.md. -/
def Obligations.ResetIsSteady : Prop :=
  Steady State.reset ∧ (∀ c ∈ State.reset.dio.ch, c.stage = false) ∧ (∀ c ∈ State.reset.ana.ch, c.out = 0 ∧ c.code = 0) ∧
    State.reset.sys.run = []

/-- After any step from a steady state, each digital output (OUTPUT or OUTPUT_PAIR_WIRED) is off if the module is in HARBOUR, or
its output state is SHORT_WAIT or LATCHED, or its group is AWAIT_ACK, or the channel stands released under R377, or its
group is LOST or QUALIFYING and its policy is not HOLD, or the module is HALTED and its policy is not SAFE_ON; an input's
stage is never on. Where the rules leave it open, it follows the model's choices or readings of assumptions 7, 56, 170, 171
and 184. Follows 14_digital_channels.md, 03_supplies_and_harbour_watch.md, 16_safety.md. -/
def Obligations.OutputsOffWhereNothingMayDrive : Prop :=
  ∀ (s t : State) (n : Nat), Steady s → step s = .next t → n < t.dio.ch.length →
    let c := dioCh t n
    let g := fieldGroup t (n / 8)
    (c.mode.isInput = true → c.stage = false) ∧
    (c.mode.isOutput = true →
      (t.sys.mode = .harbour → c.stage = false) ∧
      (c.ostate = .shortWait ∨ c.ostate = .latched → g.st.dead = false → c.stage = false) ∧
      (g.st = .awaitAck → c.stage = false) ∧
      (dioReleased c = true → c.stage = false) ∧
      (g.st.dead = true → c.policy ≠ .hold → c.stage = false) ∧
      (t.sys.mode = .halted → g.st.dead = false → c.policy ≠ .safeOn → c.stage = false))

/-- DIO_DEBOUNCE completes on every channel that exists: an input takes the debounced level, valid unless its group is LOST or
QUALIFYING; an output takes the readback, which ends EXT_FEED's condition when low and PARTNER_LOW's when high, and begins
neither. No other channel's inward side changes, and nothing else does but what follows (State.rest). Where the rules leave
it open, it follows the model's choices or readings of assumptions 7 and 102. Follows 14_digital_channels.md. -/
def Obligations.DigitalLevelsFollow : Prop :=
  ∀ (s : State) (n : Nat) (level : Bool), n < s.dio.ch.length →
    ∃ t, exec (.dioDebounce n level) s = .next t ∧
      ((dioCh s n).mode.isInput = true →
        (dioCh t n).level = level ∧ (dioCh t n).valid = !(fieldGroup s (n / 8)).st.dead ∧
        (dioCh t n).readback = (dioCh s n).readback) ∧
      ((dioCh s n).mode.isInput = false →
        (dioCh t n).readback = level ∧ (dioCh t n).level = (dioCh s n).level ∧
        ((dioCh t n).extNow = true → (dioCh s n).extNow = true ∧ level = true) ∧
        ((dioCh t n).lowNow = true → (dioCh s n).lowNow = true ∧ level = false)) ∧
      (∀ m, n ≠ m → (dioCh t m).inward = (dioCh s m).inward) ∧
      { t with dio := s.dio }.rest = s.rest

/-- On an output under R370 in NORMAL whose stage has been on for 2 ms, DIO_SHORT sets SHORT (and THERMAL for a thermal
shutdown) and SHORT_ANY, and records DIO_SHORT (FAULT); where no sink delivers to a digital channel the output state is
SHORT_WAIT with RETRIES 0 and the stage is off, unless its group is LOST or QUALIFYING. Nothing outside the channel, the
flags and the log changes but what follows. Where the rules leave it open, it follows the model's choices or readings of
assumption 7. Follows 14_digital_channels.md. -/
def Obligations.ShortEntersShortWait : Prop :=
  ∀ (s : State) (n : Nat) (thermal : Bool), n < s.dio.ch.length → dioRuns370 s (dioCh s n) = true →
    (dioCh s n).ostate = .normal → (dioCh s n).stage = true → (dioCh s n).stood 2 s = true →
    ∃ t, exec (.dioShort n thermal) s = .next t ∧
      (dioCh t n).diag.getLsbD 3 = true ∧ (thermal = true → (dioCh t n).diag.getLsbD 4 = true) ∧
      t.dio.flags.getLsbD 1 = true ∧
      t.log = (raise .dioShort .fault n 0 0 0 s).log ∧
      (∀ m, n ≠ m → (dioCh t m).inward = (dioCh s m).inward) ∧
      { t with dio := s.dio, log := s.log }.rest = s.rest ∧
      (NoDioSink s →
        (dioCh t n).ostate = .shortWait ∧ (dioCh t n).retries = 0 ∧ (dioCh t n).readback = false ∧
        ((fieldGroup t (n / 8)).st.dead = false → (dioCh t n).stage = false))

/-- Where no sink delivers to a digital channel: DIO_RETRY on a shorted output of a supplied group that has been off for 100 ms
and whose command is on enters RETRY and advances RETRIES; DIO_RETRY_CHECK, 2 ms after the switch-on and the command still
on, returns to NORMAL with RETRIES 0 and a DIO_RECOVERED (NOTICE) record on a high readback, goes back to SHORT_WAIT on a
low one below ten retries, and latches with a DIO_LATCHED (FAULT) record at ten; DIO_CLEAR returns each named channel of a
supplied group from SHORT_WAIT or LATCHED to NORMAL with RETRIES 0, unless the same check of 100 µs has found a short there,
and leaves the others' states. Where the rules leave it open, it follows the model's choices or readings of assumptions 7
and 278. Follows 14_digital_channels.md. -/
def Obligations.RetriesOfAShortedOutput : Prop :=
  ∀ (s : State), NoDioSink s →
    (∀ n, n < s.dio.ch.length → dioRuns370 s (dioCh s n) = true → (dioCh s n).ostate = .shortWait →
      (dioCh s n).stood 100 s = true → dioWants s n = true → (dioCh s n).retries < 10 →
      (fieldGroup s (n / 8)).st.off = false → ((dioCh s n).mode = .timedPulse → pulsesRun s = true) →
      ∃ t, exec (.dioRetry n) s = .next t ∧ (dioCh t n).ostate = .retry ∧
        (dioCh t n).retries = (dioCh s n).retries + 1 ∧ { t with dio := s.dio }.rest = s.rest) ∧
    (∀ n high, n < s.dio.ch.length → (dioCh s n).ostate = .retry → (dioCh s n).stood 2 s = true → dioWants s n = true →
      (fieldGroup s (n / 8)).st.off = false →
      ∃ t, exec (.dioRetryCheck n high) s = .next t ∧
        { t with dio := s.dio, log := s.log }.rest = s.rest ∧
        (high = true → (dioCh t n).ostate = .normal ∧ (dioCh t n).retries = 0 ∧
          t.log = (raise .dioRecovered .notice n 0 0 0 s).log) ∧
        (high = false → (dioCh s n).retries < 10 → (dioCh t n).ostate = .shortWait ∧
          (dioCh t n).retries = (dioCh s n).retries ∧ t.log = s.log) ∧
        (high = false → 10 ≤ (dioCh s n).retries → (dioCh t n).ostate = .latched ∧
          t.log = (raise .dioLatched .fault n 0 0 0 s).log)) ∧
    (∀ mask, ∃ t, exec (.dioClear mask) s = .next t ∧ t.log = s.log ∧ { t with dio := s.dio }.rest = s.rest ∧
      ∀ n, n < 32 → n < s.dio.ch.length →
        let foundNow := (dioCh s n).foundAt.any fun x => x / 100000 == s.mono / 100000
        ((dioCh s n).ostate ≠ .retry → (dioCh t n).ostate =
          (if mask.getLsbD n = true ∧ (fieldGroup s (n / 8)).st.off = false ∧ foundNow = false ∧
            ((dioCh s n).ostate = .shortWait ∨ (dioCh s n).ostate = .latched) then OState.normal else (dioCh s n).ostate)) ∧
        (mask.getLsbD n = true → (fieldGroup s (n / 8)).st.off = false → foundNow = false →
          (dioCh s n).ostate = .shortWait ∨ (dioCh s n).ostate = .latched → (dioCh t n).retries = 0))

/-- DIO_EXT_FEED on a stage that has been off for 2 ms and reports sets EXT_FEED, EXT_FEED_ANY and the standing condition, and
records DIO_EXT_FEED (NOTICE) only while the bit was clear; DIO_PARTNER_LOW does the same for a PAIR_WIRED channel that the
active commands on; a refresh timeout after the group's refresh time marks an output stage silent and sets LOGIC_SILENT
unless a command preceded it; a refresh ends the silence of every stage while the logic is awake. Where the rules leave it
open, it follows the model's choices or readings of assumption 7. Follows 14_digital_channels.md. -/
def Obligations.ForeignFeedsAreReported : Prop :=
  ∀ (s : State) (n : Nat), n < s.dio.ch.length →
    ((dioCh s n).stage = false → dioTarget s n (dioCh s n) = false → (dioCh s n).stood 2 s = true → extFeedReports s n = true →
      ∃ t, exec (.dioExtFeed n) s = .next t ∧ (dioCh t n).diag.getLsbD 2 = true ∧ (dioCh t n).extNow = true ∧
        { t with dio := s.dio, log := s.log }.rest = s.rest ∧
        ((dioCh s n).diag.getLsbD 2 = false →
          t.dio.flags.getLsbD 0 = true ∧ t.log = (raise .dioExtFeed .notice n 0 0 0 s).log) ∧
        ((dioCh s n).diag.getLsbD 2 = true → t.log = s.log)) ∧
    ((dioCh s n).mode = .pairWired → pairCommanded s n = some true →
      ∃ t, exec (.dioPartnerLow n) s = .next t ∧ (dioCh t n).diag.getLsbD 7 = true ∧ (dioCh t n).lowNow = true ∧
        { t with dio := s.dio, log := s.log }.rest = s.rest ∧
        ((dioCh s n).diag.getLsbD 7 = false →
          t.dio.flags.getLsbD 3 = true ∧ t.log = (raise .dioPartnerLow .notice n 0 0 0 s).log) ∧
        ((dioCh s n).diag.getLsbD 7 = true → t.log = s.log)) ∧
    ((dioCh s n).mode.hasStage = true → refreshLate (s.dio.groups.getD (n / 8) {}).refreshMs s = true →
      ∃ t, exec (.dioRefreshTimeout n) s = .next t ∧ (dioCh t n).silent = true ∧
        ((dioCh s n).commanded = false → (dioCh t n).diag.getLsbD 5 = true ∧ (dioCh t n).silentRec = true) ∧
        ((dioCh s n).commanded = true → (dioCh t n).diag = (dioCh s n).diag) ∧
        { t with dio := s.dio }.rest = s.rest) ∧
    (s.pwr.railsOff = false → s.sys.mode ≠ .harbour →
      ∃ t, exec .dioRefresh s = .next t ∧ (dioCh t n).silent = false ∧ (dioCh t n).commanded = false ∧
        { t with dio := s.dio, ana := s.ana }.rest = s.rest)

/-- On a channel that exists, ANA_CONVERSION gives an output channel its readback; of an input whose group is neither LOST nor
QUALIFYING it drops a conversion while conversions are to be discarded, and otherwise makes its counts, saturated at the
measurement limit, the channel's valid value, with the raw reading as READBACK for RTD, RESISTANCE and THERMOCOUPLE. The
counts of a voltage or a current are the measured uV or nA; those of a resistance the measured mOhm less LEAD_MOHM in
2-wire; those of an RTD between -200 and 850 degrees the temperature whose resistance by the Callendar-Van Dusen equation is
nearest to that. Nothing beyond the channel and what follows changes. CJC_READ puts the cold-junction temperature and its
fault in force for every group that exists. Where the rules leave it open, it follows the model's choices or readings of
assumptions 104, 172 and 254. Follows 15_analogue_channels.md. -/
def Obligations.ConversionsReachTheChannel : Prop :=
  ∀ (s : State) (n : Nat) (raw : Int),
    (∀ g < s.ana.groups.length, ∃ t, exec (.cjcRead g raw) s = .next t ∧ { t with ana := s.ana }.rest = s.rest ∧
      (t.ana.groups.getD g {}).cjc = cjcInForce s g raw ∧ (t.ana.groups.getD g {}).cjcFault = cjcFaulty s g raw) ∧
    (n < s.ana.ch.length →
    ∃ t, exec (.anaConversion n raw) s = .next t ∧
      { t with ana := s.ana }.rest = s.rest ∧
      ((anaCh s n).mode.isOutput = true → (anaCh t n).readback = raw ∧ (anaCh t n).value = (anaCh s n).value) ∧
      ((anaCh s n).mode.isInput = true → (fieldGroup s (n / 4)).st.dead = false → 0 < (anaCh s n).discard →
        (anaCh t n).discard = (anaCh s n).discard - 1 ∧ (anaCh t n).value = (anaCh s n).value) ∧
      ((anaCh s n).mode.isInput = true → (fieldGroup s (n / 4)).st.dead = false → (anaCh s n).discard = 0 →
        let c := anaCh s n
        let v := (anaCh t n).value
        let ohms := if c.wiring = 0 then raw - c.leadMohm else raw
        v = c.counts (s.ana.groups.getD (n / 4) {}).cjc raw ∧ (anaCh t n).valid = true ∧
        (c.mode = .voltageIn → v = max (-11000000) (min 11000000 raw)) ∧
        (c.mode = .currentPassive ∨ c.mode = .currentPowered ∨ c.mode = .currentPair ∨ c.mode = .hartMultidrop → v = max 0 (min 25000000 raw)) ∧
        (c.mode = .resistance → v = max 0 (min 4000000 ohms)) ∧
        (c.mode = .rtd → -200000 < v → v < 850000 →
          c.rZero * (vanDusen (v - 1) + vanDusen v) ≤ 2 * 10 ^ 27 * ohms ∧
          2 * 10 ^ 27 * ohms < c.rZero * (vanDusen v + vanDusen (v + 1))) ∧
        (anaCh t n).readback =
          (if (anaCh s n).mode = .rtd ∨ (anaCh s n).mode = .resistance ∨ (anaCh s n).mode = .thermocouple then raw
           else (anaCh s n).readback)))

/-- A fault that R393 gives the channel's mode and its last valid conversion does not deny (a range fault not while BROKEN_WIRE
stands) sets its standing and sticky bit and FAULT_ANY when it begins, and clears only the standing bit when it ends;
LOOP_LIMIT does so for a powered or multidrop channel, with its own flag; OPEN_LOOP, COMPLIANCE (not beginning under
OPEN_LOOP) and OUT_SHORT do so for the output modes that have them, where the last readback does not deny it. BROKEN_WIRE
ends the standing range faults and OPEN_LOOP a standing COMPLIANCE. ANA_REFRESH_TIMEOUT silences an output that no refresh
has reached for its group's refresh time, and sets LOGIC_SILENT unless a command preceded it. Where the rules leave it open,
it follows the model's choices or readings of assumption 172. Follows 15_analogue_channels.md. -/
def Obligations.AnalogueFaultsStandAndStick : Prop :=
  ∀ (s : State) (n : Nat) (stands : Bool), n < s.ana.ch.length →
    ((anaCh s n).mode.isOutput = true → s.dio.refreshAt + (s.ana.groups.getD (n / 4) {}).refreshMs * 1000000 ≤ s.mono →
      ∃ t, exec (.anaRefreshTimeout n) s = .next t ∧ (anaCh t n).silent = true ∧
        ((anaCh s n).commanded = false → (anaCh t n).diag.getLsbD 11 = true) ∧ { t with ana := s.ana }.rest = s.rest) ∧
    (∀ f, faultApplies f (anaCh s n) = true → (anaCh s n).shows (s.ana.groups.getD (n / 4) {}).cjc f ≠ some (!stands) → (f = .brokenWire ∨ (anaCh s n).standing.getLsbD 4 = false) →
      ∃ t, exec (.anaInputFault n f stands) s = .next t ∧ { t with ana := s.ana }.rest = s.rest ∧
        (anaCh t n).standing.getLsbD (faultBit f) = stands ∧
        (stands = true → (anaCh t n).diag.getLsbD (faultBit f) = true ∧ t.ana.flags.getLsbD 0 = true) ∧
        (stands = true → f = .brokenWire →
          (anaCh t n).standing.getLsbD 2 = false ∧ (anaCh t n).standing.getLsbD 3 = false) ∧
        (stands = false → (anaCh t n).diag.setWidth 12 = (anaCh s n).diag.setWidth 12)) ∧
    ((anaCh s n).mode = .currentPowered ∨ (anaCh s n).mode = .hartMultidrop → (anaCh s n).denies stands = false →
      ∃ t, exec (.anaLoopLimit n stands) s = .next t ∧ { t with ana := s.ana }.rest = s.rest ∧
        (anaCh t n).standing.getLsbD 5 = stands ∧
        (stands = true → (anaCh t n).diag.getLsbD 5 = true ∧ t.ana.flags.getLsbD 0 = true ∧ t.ana.flags.getLsbD 1 = true)) ∧
    (∀ k b, (k = .openLoop ∧ b = 7 ∧ (anaCh s n).mode = .currentOut) ∨
        (k = .compliance ∧ b = 6 ∧ (anaCh s n).mode = .currentOut ∧ (stands = true → (anaCh s n).standing.getLsbD 7 = false)) ∨
        (k = .outShort ∧ b = 8 ∧ (anaCh s n).mode = .voltageOut) →
      (anaCh s n).outShows k ≠ some (!stands) →
      ∃ t, exec (.anaOutputDiag n k stands) s = .next t ∧ { t with ana := s.ana }.rest = s.rest ∧
        (anaCh t n).standing.getLsbD b = stands ∧
        (stands = true → (anaCh t n).diag.getLsbD b = true ∧ t.ana.flags.getLsbD 0 = true) ∧
        (stands = true → k = .openLoop → (anaCh t n).standing.getLsbD 6 = false))

/-- CJC_READ gives a group the cold-junction temperature of its source (the internal sensor, a tenth of a channel's value
rounded, or the fixed value) and its fault: a sensor outside -40.00 to 85.00 degrees, or a BAD channel as the source; its
loop supply reads 0 in a LOST or QUALIFYING group and from 21.0 to 22.5 V otherwise (the model's choice, assumption 249);
ANA_REFRESH_TIMEOUT, after the group's refresh time, marks an output channel silent, with LOGIC_SILENT unless a command
preceded it. Where the rules leave it open, it follows the model's choices or readings of assumption 172. Follows
15_analogue_channels.md. -/
def Obligations.ColdJunctionsAndSilence : Prop :=
  ∀ (s : State) (n : Nat),
    (∀ internal, n < s.ana.groups.length →
      ∃ t, exec (.cjcRead n internal) s = .next t ∧ { t with ana := s.ana }.rest = s.rest ∧
        (t.ana.groups.getD n {}).cjc = cjcInForce s n internal ∧
        (t.ana.groups.getD n {}).cjcFault = cjcFaulty s n internal ∧
        ((fieldGroup s n).st.dead = true → (t.ana.groups.getD n {}).loopSupply = 0) ∧
        ((fieldGroup s n).st.dead = false →
          210 ≤ (t.ana.groups.getD n {}).loopSupply ∧ (t.ana.groups.getD n {}).loopSupply ≤ 225) ∧
        (∀ m, n ≠ m → t.ana.groups.getD m {} = s.ana.groups.getD m {})) ∧
    (n < s.ana.ch.length → (anaCh s n).mode.isOutput = true → refreshLate (s.ana.groups.getD (n / 4) {}).refreshMs s = true →
      ∃ t, exec (.anaRefreshTimeout n) s = .next t ∧ { t with ana := s.ana }.rest = s.rest ∧
        (anaCh t n).silent = true ∧
        ((anaCh s n).commanded = false → (anaCh t n).diag.getLsbD 11 = true ∧ (anaCh t n).silentRec = true) ∧
        ((anaCh s n).commanded = true → (anaCh t n).diag.getLsbD 11 = (anaCh s n).diag.getLsbD 11))

/-- A poll of the device that is due next on an idle, running and unsuspended channel sends command 3, or command 0 where its
long address is not known, as the first attempt, and sets its next poll; an answer to command 3 ends the device's absence
and its failed count and advances the channel's count, with no further transaction on a channel without a queue; a timeout
of a poll 305 ms after an attempt below the third sends it again as the next attempt; a burst frame of a device in burst
mode is taken as an answer, the last thing on a channel without a queue but for command 0, which goes out on an idle,
unsuspended channel to a device that is not polled and whose long address is not known; a burst device that runs, was
present and has not been heard for 3 x BURST_MS is declared absent with its bit, its flag and a HART_DEVICE_ABSENT (NOTICE)
record, the only one where no signal entry is the device's. Where the rules leave it open, it follows the model's choices or
readings of assumptions 247 and 248. Follows 15_analogue_channels.md. -/
def Obligations.HartTransactionsRun : Prop :=
  ∀ (s : State) (n slot : Nat) (d : HartDev), hartDev s n slot = some d → hartRuns s n = true → n < s.ana.ch.length →
    let again (t : HartTx) : HartTx := { t with attempt := t.attempt + 1, at_ := s.mono }
    (hartNext s d = true → hartSuspended s n = false → look n s.ana.tx = none →
      ∃ t, exec (.hartPoll n slot) s = .next t ∧
        let cmd := if d.longAddr = 0 then 0 else 3
        t.sent = { kind := .hart, unit := n, num := slot, body := hartAddress (some d) ++ [BitVec.ofNat 8 cmd] } :: s.sent ∧
        look n t.ana.tx = some { slot := slot, handle := none, attempt := 1, cmd := cmd, at_ := s.mono } ∧
        (hartDev t n slot).map (·.due) = some (s.mono + d.pollMs * 1000000) ∧
        { t with ana := s.ana, sent := s.sent }.rest = s.rest) ∧
    (∀ r x, look n s.ana.tx = some x → x.slot = slot → x.handle = none → x.cmd = 3 → hartQueue s n = none →
      ∃ t, exec (.hartResponse n r) s = .next t ∧ { t with ana := s.ana }.rest = s.rest ∧
        look n t.ana.tx = none ∧ (hartDev t n slot).map (fun d => (d.absent, d.failed)) = some (false, 0) ∧
        (anaCh t n).hartCount = satInc 16 (anaCh s n).hartCount) ∧
    (∀ x, look n s.ana.tx = some x → x.slot = slot → x.handle = none → x.attempt < 3 → x.at_ + 305000000 ≤ s.mono →
      hartSuspended s n = false →
      ∃ t, exec (.hartResponseTimeout n) s = .next t ∧
        t.sent = { kind := .hart, unit := n, num := slot, body := hartAddress (some d) ++ [BitVec.ofNat 8 x.cmd] } :: s.sent ∧
        look n t.ana.tx = some (again x) ∧
        { t with ana := s.ana, sent := s.sent }.rest = s.rest) ∧
    (∀ r, d.burst = true → hartQueue s n = none →
      ∃ t, exec (.hartBurst n slot r) s = .next t ∧ { t with ana := s.ana, sent := s.sent }.rest = s.rest ∧
        t.sent = (if d.longAddr = 0 ∧ d.poll = false ∧ hartSuspended s n = false ∧ look n s.ana.tx = none then
          { kind := .hart, unit := n, num := slot, body := hartAddress (some d) ++ [0] } :: s.sent else s.sent) ∧
        (hartDev t n slot).map (fun d => (d.absent, d.failed)) = some (false, 0) ∧
        (anaCh t n).hartCount = satInc 16 (anaCh s n).hartCount) ∧
    (d.burst = true → d.absent = false → d.heardAt + 3 * d.burstMs * 1000000 ≤ s.mono →
      ∃ t, exec (.hartBurstAbsent n slot) s = .next t ∧
        (hartDev t n slot).map (·.absent) = some true ∧ (anaCh t n).diag.getLsbD 10 = true ∧
        t.ana.flags.getLsbD 3 = true ∧
        s.log.nextSeq < t.log.nextSeq ∧
        ((∀ p ∈ s.sig.entries, isHartEntry n slot p.2 = false) → t.log = (raise .hartDeviceAbsent .notice n n slot 0 s).log) ∧
        { t with ana := s.ana, log := s.log, sig := s.sig }.rest = s.rest)

/-- On a port on the bus CAN_FRAME_RECEIVED counts a frame of an enabled format, taken with at most 8 bytes where it is
classical, and REC falls by one, or from above 127 to a value from 119 to 127. One that no definition takes goes, by the
first filter that matches, to the queue of the filter's set as a FILLED entry with its time of SOF and its ESI while that
queue's reserve has a place and no assignment waits for it, and where no filter matches either it sets UNMATCHED and counts;
a definition that takes it is unpacked now and is no longer absent, or counts a bad length where the frame is too short. A
frame of a disabled format or with a reserved bit sends the port to INTEGRATING. Where the rules leave it open, it follows
the model's choices or readings of assumptions 161, 163 and 164. Follows 13_can_ports.md. -/
def Obligations.FramesAreReceived : Prop :=
  ∀ (s : State) (p : Nat) (r : CanRx), 1 ≤ p → p ≤ s.can.length → (canPort s p).st.onBus = true →
    let f := takenFrame r.frame
    let counted (t : State) : Prop :=
      (canPort t p).counts.rxOk = satInc 32 (canPort s p).counts.rxOk ∧
      ((canPort s p).rxec ≤ 127 → (canPort t p).rxec = (canPort s p).rxec - 1) ∧
      (127 < (canPort s p).rxec → 119 ≤ (canPort t p).rxec ∧ (canPort t p).rxec ≤ 127)
    (r.frame.format % 4 = 0 → f.length ≤ 8) ∧
    (r.reserved = false → formatEnabled (canPort s p) r.frame.format = true → isReference (canPort s p).book f = false →
      ((canPort s p).defs.find? (defMatches f) = none →
        (∀ x q, (canPort s p).filters.find? (filterMatches f) = some x → canQueue s p (4 + x.set) = some q →
          (canPort s p).st = .errorActive → (canPort s p).tec < 128 →
          reserveUsed s q < (queueAt s q).depth → assignWaits s q = false → (queueAt s q).disabled = false →
          ∃ t, exec (.canFrameReceived p r) s = .next t ∧ counted t ∧
            { t with can := s.can, que := s.que }.rest = s.rest ∧
            ∃ d, t.que.held = s.que.held ++ [d] ∧ d.handle = freeHandle s ∧ d.queue = q ∧ d.st = .filled ∧
              d.frame = f ∧ d.ts = r.sofAt ∧ d.flags = (if r.esi then 4 else 0)) ∧
        ((canPort s p).filters.find? (filterMatches f) = none →
          ∃ t, exec (.canFrameReceived p r) s = .next t ∧ counted t ∧
            (canPort t p).counts.unmatched = satInc 32 (canPort s p).counts.unmatched ∧
            (canPort t p).flags.getLsbD 3 = true ∧ { t with can := s.can, que := s.que }.rest = s.rest)) ∧
      (∀ d, (canPort s p).defs.find? (defMatches f) = some d →
        ∃ t, exec (.canFrameReceived p r) s = .next t ∧ counted t ∧
          (f.length < d.length → (canPort t p).counts.rxBad = satInc 32 (canPort s p).counts.rxBad) ∧
          (d.length ≤ f.length →
            (canDef t p d.num).map (fun x => (x.unpacked, x.absent)) = some (s.mono, false)))) ∧
    (r.reserved = true ∨ formatEnabled (canPort s p) r.frame.format = false →
      ∃ t, exec (.canFrameReceived p r) s = .next t ∧ (canPort t p).st = .integrating ∧
        (canPort t p).flags.getLsbD 10 = true ∧ { t with can := s.can, que := s.que }.rest = s.rest)

/-- Where the port may send and no frame of its own is on the bus, the entry that goes first of those it may offer and whose
cancel was not sampled goes to ATTEMPT, in a window of the book by the arbitration field alone. When the frame on the bus
has been sent, an SDK or plant entry in its attempt without definition retires SENT with the time, TEC falls by one, the
count advances and its data has gone out; where the attempt lost or failed, an entry without cancel, expiry, ONE_SHOT or
definition is PENDING again while the module commands, and retires ROLE_LOST otherwise, and one with a cancel retires
CANCELLED_AFTER_ATTEMPT. A PENDING entry whose expiry has come retires EXPIRED. Where the rules leave it open, it follows
the model's choices or readings of assumptions 160 and 163. Follows 13_can_ports.md. -/
def Obligations.AttemptsOnTheBus : Prop :=
  ∀ (s : State) (p : Nat), 1 ≤ p → p ≤ s.can.length →
    (∀ cancels own d, (canPort s p).st.onBus = true → canTxAllowed s = true → (canPort s p).listen = false →
      (canPort s p).onBus = none →
      bestEntry s (windowType (canPort s p) != 2) ((offers s p (ntuNow s p)).filter fun x => !cancels.contains x.handle) = some d →
      ∃ t, exec (.canArbitration p cancels own) s = .next t ∧ (canPort t p).onBus = some d.handle ∧
        (∀ e ∈ t.que.held, e.handle = d.handle → e.st = .attempt) ∧
        { t with can := s.can, que := s.que, ana := s.ana, ser := s.ser }.rest = s.rest) ∧
    (∀ h d, (canPort s p).onBus = some h → descOf s h = some d → d.owner ≠ .program → d.defn = none → d.st = .attempt →
      (∀ measured, ∃ t, exec (.canTxDone p .sent measured) s = .next t ∧ (canPort t p).onBus = none ∧
        (canPort t p).counts.txOk = satInc 32 (canPort s p).counts.txOk ∧ (canPort t p).tec = (canPort s p).tec - 1 ∧
        t.sent = { kind := .can, unit := p, num := h, body := d.frame.data,
                   can := some (d.frame, (canPort s p).st == .errorPassive && d.frame.format % 4 == 1) } :: s.sent ∧
        (descOf t h).map (fun e => (e.st, e.result, e.ts)) = some (.retired, retSent, s.mono)) ∧
      (∀ e measured, e = .lost ∨ e = .error →
        ∃ t, exec (.canTxDone p e measured) s = .next t ∧ (canPort t p).onBus = none ∧ t.sent = s.sent ∧
          (d.cancel = true →
            (descOf t h).map (fun e => (e.st, e.result)) = some (.retired, retCancelledAfter)) ∧
          (d.cancel = false → d.expiry = none → takesCommands s = false →
            (descOf t h).map (fun e => (e.st, e.result)) = some (.retired, retRoleLost)) ∧
          (d.cancel = false → d.expiry = none → takesCommands s = true → d.oneShot = false →
            (descOf t h).map (·.st) = some .pending))) ∧
    (∀ h d x, descOf s h = some d → d.owner ≠ .program → d.st = .pending → d.expiry = some x → x ≤ s.mono →
      ∃ t, exec (.canEntryExpired h) s = .next t ∧
        (descOf t h).map (fun e => (e.st, e.result)) = some (.retired, retExpired) ∧
        (dropAttempt h s = s → { t with can := s.can, que := s.que }.rest = s.rest))

/-- On a port on the bus CAN_ERROR_FRAME adds to TEC and REC (REC saturated at 255), keeps the error code, sets its flag and
counts; with TEC past 255 the port is bus-off (recovering at once with AUTO_RECOVER, else waiting for RECOVER), its flag and
count set and CAN_BUS_OFF (FAULT) recorded with the port, the pending entries and the error code. RECOVER acts on a port
that waits; recovery ends error active with both counts 0 and CAN_RECOVERED (NOTICE) with the time spent in µs; integration
ends on the bus. Where the rules leave it open, it follows the model's choices or readings of assumptions 160 and 162.
Follows 13_can_ports.md. -/
def Obligations.ErrorsBusOffAndRecovery : Prop :=
  ∀ (s : State) (p : Nat), 1 ≤ p → p ≤ s.can.length →
    (∀ e : CanErr, (canPort s p).st.onBus = true →
      ∃ t, exec (.canErrorFrame p e) s = .next t ∧
        (canPort t p).tec = (canPort s p).tec + e.tecAdd ∧ (canPort t p).rxec = min ((canPort s p).rxec + e.recAdd) 255 ∧
        (canPort t p).lastErr = e.code ∧ (canPort t p).flags.getLsbD 9 = true ∧
        (canPort t p).counts.errFrames = satInc 32 (canPort s p).counts.errFrames ∧
        (255 < (canPort s p).tec + e.tecAdd →
          (canPort t p).st = (if (canPort s p).autoRecover then CanState.recovering else .busOff) ∧
          (canPort t p).flags.getLsbD 1 = true ∧ (canPort t p).offAt = s.mono ∧
          (canPort t p).counts.busOffs = satInc 32 (canPort s p).counts.busOffs ∧
          t.log = (raise .canBusOff .fault p p (s.que.held.filter (pendingOn s p)).length e.code s).log) ∧
        ((canPort s p).tec + e.tecAdd ≤ 255 → (canPort t p).st.onBus = true) ∧
        { t with can := s.can, que := s.que, log := s.log }.rest = s.rest) ∧
    ((canPort s p).st = .busOff → (canPort s p).waitRecover = true →
      ∃ t, exec (.canRecover p) s = .next t ∧ (canPort t p).st = .recovering ∧ (canPort t p).waitRecover = false ∧
        { t with can := s.can, que := s.que }.rest = s.rest) ∧
    ((canPort s p).st = .recovering →
      ∃ t, exec (.canRecovered p) s = .next t ∧ (canPort t p).st = .errorActive ∧ (canPort t p).tec = 0 ∧
        (canPort t p).rxec = 0 ∧
        t.log = (raise .canRecovered .notice p 0 ((s.mono - (canPort s p).offAt) / 1000) 0 s).log ∧
        { t with can := s.can, que := s.que, log := s.log }.rest = s.rest) ∧
    ((canPort s p).st = .integrating →
      ∃ t, exec (.canIntegrated p) s = .next t ∧
        (canPort t p).st = (if 128 ≤ (canPort s p).tec ∨ 128 ≤ (canPort s p).rxec then CanState.errorPassive else .errorActive) ∧
        (canPort t p).afterException = false ∧ { t with can := s.can, que := s.que, log := s.log }.rest = s.rest)

/-- A synchronised potential master sends the reference of the next cycle (modulo CYCLES) once CYCLE_NTU have passed outside a
gap and is the current master; one that has listened for 2 x CYCLE_NTU without a reference sends that of cycle 0. Two cycles
without a reference at a synchronised port outside a gap end synchronisation, set its flag and record CAN_REF_LOST (FAULT).
The start of a window, at its place in the cycle, makes it the window that runs, and in a synchronised port on the bus that
builds book frames schedules the definitions of that cycle; in one that is not, scheduled frames are missed. The end of a
window ends it, and a scheduled frame that is left sets WINDOW_MISSED and counts, unless the window was missed at its start.
Where the rules leave it open, it follows the model's choices or readings of assumptions 161, 255 and 19. Follows
13_can_ports.md. -/
def Obligations.TheSignalBookRuns : Prop :=
  ∀ (s : State) (p : Nat), 1 ≤ p → p ≤ s.can.length →
    let ref (cycle : Nat) : Sent :=
      let b := (canPort s p).book
      let f : CanFrame := { format := 0, id := b.refId, length := b.refLen, data := referenceData b cycle }
      { kind := .can, unit := p, num := b.refId, body := f.data, can := some (f, false) }
    (potentialMaster s p = true → (canPort s p).book.synced = true → (canPort s p).book.gap = false →
      ntuPassed s p (canPort s p).book.markAt (canPort s p).book.cycleNtu = true →
      ∃ t, exec (.canReferenceSend p) s = .next t ∧ (canPort t p).book.current = true ∧ (canPort t p).book.synced = true ∧
        (canPort t p).book.cycle = ((canPort s p).book.cycle + 1) % max (canPort s p).book.cycles 1 ∧
        t.sent = ref (((canPort s p).book.cycle + 1) % max (canPort s p).book.cycles 1) :: s.sent ∧
        (canPort t p).tec = (canPort s p).tec - 1 ∧ (canPort t p).book.markAt = s.mono ∧
        { t with can := s.can, que := s.que, sent := s.sent, log := s.log }.rest = s.rest) ∧
    (potentialMaster s p = true → (canPort s p).book.synced = false →
      ntuPassed s p (canPort s p).book.listenAt (2 * (canPort s p).book.cycleNtu) = true →
      ∃ t, exec (.canMasterListenEnd p) s = .next t ∧ (canPort t p).book.current = true ∧ (canPort t p).book.synced = true ∧
        (canPort t p).book.cycle = 0 ∧
        t.sent = ref 0 :: s.sent ∧ { t with can := s.can, que := s.que, sent := s.sent, log := s.log }.rest = s.rest) ∧
    ((canPort s p).book.enabled = true → (canPort s p).book.synced = true → (canPort s p).book.gap = false →
      ntuPassed s p (canPort s p).book.markAt (2 * (canPort s p).book.cycleNtu) = true →
      ∃ t, exec (.canRefLost p) s = .next t ∧ (canPort t p).book.synced = false ∧ (canPort t p).book.current = false ∧
        (canPort t p).flags.getLsbD 5 = true ∧ t.log = (raise .canRefLost .fault p 0 0 0 s).log ∧
        { t with can := s.can, log := s.log }.rest = s.rest) ∧
    (∀ w, (canPort s p).book.enabled = true → buildsBook s = true → w < (canPort s p).book.windows.length →
      ((canPort s p).book.synced = true →
        ntuPassed s p (canPort s p).book.markAt (((canPort s p).book.windows[w]?).map (·.start) |>.getD 0) = true) →
      ∃ t, exec (.bookWindowStart p w) s = .next t ∧ (canPort t p).book.window = w ∧
        (canPort t p).book.inWin = (canPort s p).book.synced ∧
        ((canPort s p).book.synced = true → (canPort s p).st.onBus = true →
          (canPort t p).book.scheduled = (scheduledIn (canPort s p).book (canPort s p).book.cycle w).map fun d => (w, d)) ∧
        ((canPort s p).book.synced = false ∨ (canPort s p).st.onBus = false →
          scheduledIn (canPort s p).book (canPort s p).book.cycle w ≠ [] →
          (canPort t p).flags.getLsbD 4 = true ∧
          (canPort t p).counts.winMissed = satInc 32 (canPort s p).counts.winMissed)) ∧
    (∀ w, ((canPort s p).book.synced = true →
        ntuPassed s p (canPort s p).book.markAt
          (((canPort s p).book.windows[w + 1]?).map (·.start) |>.getD (canPort s p).book.cycleNtu) = true) →
      ∃ t, exec (.bookWindowEnd p w) s = .next t ∧ (canPort t p).book.inWin = false ∧
        (canPort t p).book.scheduled = [] ∧
        ((canPort s p).book.scheduled.filter (fun x => x.1 == w) ≠ [] → (canPort s p).book.told = false →
          (canPort t p).flags.getLsbD 4 = true ∧
          (canPort t p).counts.winMissed = satInc 32 (canPort s p).counts.winMissed) ∧
        { t with can := s.can, que := s.que, log := s.log, ana := s.ana, ser := s.ser }.rest = s.rest)

/-- A write of QUE_TX_HEAD stages its fields and starts the data afresh, and of QUE_TX_DATA lays 4 bytes at the pointer while it
is within LENGTH. A permitted enqueue with a reserve place adds one PENDING entry with the lowest free handle, owned by the
requester, and returns OK and the handle. CANCEL of an own PENDING entry retires it CANCELLED. TAKE latches the oldest entry
that the requester may take, which is then its own; a read of QUE_TAKE_DATA moves on by 4 bytes; ACK of an own retired entry
frees its descriptor. Where the rules leave it open, it follows the model's choices or readings of assumptions 163 and 164.
Follows 13_can_ports.md. -/
def Obligations.QueueCommands : Prop :=
  ∀ (s : State) (r : Reader) (v : Word),
    (∃ t, exec (.queTxHeadWrite r v) s = .next t ∧ (queBank t r).head = v &&& 0x3F1F0FFF ∧ (queBank t r).ptr = 0 ∧
      (queBank t r).data = [] ∧ { t with que := s.que }.rest = s.rest) ∧
    ((queBank s r).ptr < field (queBank s r).head 0 12 →
      ∃ t, exec (.queTxDataWrite r v) s = .next t ∧ (queBank t r).ptr = (queBank s r).ptr + 4 ∧
        (queBank t r).data = (((queBank s r).data ++ List.replicate ((queBank s r).ptr - (queBank s r).data.length) 0) ++
          leBytes 4 v.toNat).take (field (queBank s r).head 0 12) ∧ { t with que := s.que }.rest = s.rest) ∧
    (v.getLsbD 31 = true → mayWrite s r winQue = true →
      let b := queBank s r
      let q := field b.head 24 6
      enqueueCheck s q (stagedFrame b) = resOk → reserveUsed s q < (queueAt s q).depth → serialOff s q = false → hartOff s q = false →
      ∃ t, exec (.queEnqueue (.staged r v)) s = .next t ∧ (queBank t r).result = resOk ∧
        (queBank t r).handle = freeHandle s ∧ { t with que := s.que }.rest = s.rest ∧
        ∃ d, t.que.held = s.que.held ++ [d] ∧ d.handle = freeHandle s ∧ d.queue = q ∧ d.st = .pending ∧
          d.owner = Requester.ofReader r ∧ d.frame = stagedFrame b ∧ d.oneShot = v.getLsbD 30) ∧
    (∀ q f exp one, enqueueCheck s q f = resOk → reserveUsed s q < (queueAt s q).depth → serialOff s q = false → hartOff s q = false →
      ∃ t, exec (.queEnqueue (.runtime q f exp one)) s = .next t ∧ { t with que := s.que }.rest = s.rest ∧
        ∃ d, t.que.held = s.que.held ++ [d] ∧ d.handle = freeHandle s ∧ d.queue = q ∧ d.st = .pending ∧
          d.owner = .program ∧ d.frame = f ∧ d.oneShot = one ∧ d.expiry = exp) ∧
    (∀ d, v.getLsbD 31 = true → descOf s (field v 0 11) = some d → d.owner = Requester.ofReader r → d.st = .pending →
      ∃ t, exec (.queCancel r v) s = .next t ∧ (queBank t r).cancelRefused = false ∧
        (descOf t (field v 0 11)).map (fun e => (e.st, e.result)) = some (.retired, retCancelled) ∧
        (dropAttempt (field v 0 11) s = s → { t with que := s.que }.rest = s.rest)) ∧
    (∀ d, v.getLsbD 31 = true →
      s.que.held.find? (fun d => d.queue == field v 0 6 && !d.taken && mayTake (Requester.ofReader r) d) = some d →
      ∃ t, exec (.queTake r v) s = .next t ∧ (queBank t r).takeValid = true ∧ (queBank t r).taken = some d ∧
        (queBank t r).takePtr = 0 ∧
        (descOf t d.handle).map (fun e => (e.taken, e.owner)) = some (true, Requester.ofReader r) ∧
        { t with que := s.que }.rest = s.rest) ∧
    (∃ t, exec (.queTakeDataRead r) s = .next t ∧ (queBank t r).takePtr = (queBank s r).takePtr + 4 ∧
      { t with que := s.que }.rest = s.rest) ∧
    (∀ d, v.getLsbD 31 = true → descOf s (field v 0 11) = some d → d.st = .retired → d.owner = Requester.ofReader r →
      ∃ t, exec (.queAck r v) s = .next t ∧ (queBank t r).ackRefused = false ∧ descOf t (field v 0 11) = none ∧
        { t with que := s.que }.rest = s.rest)

/-- Raising an event takes the next SEQUENCE and stamps the operating seconds and the power-cycle count; an INFO or NOTICE
record is staged while fewer than 3,840 places are in use and a FAULT or CRITICAL one while fewer than 4,096 are, and
otherwise it is dropped, counted for its severity, and sets DROPPED and STAGE_FULL. Nothing else changes. Follows
18_event_recorder.md. -/
def Obligations.RaisedRecordsAreStagedOrDropped : Prop :=
  ∀ (s : State) (e : Ev) (sev : Severity) (unit p1 p2 p3 : Nat),
    let t := raise e sev unit p1 p2 p3 s
    let room := if sev = .info ∨ sev = .notice then s.log.staged.length < 3840 else s.log.staged.length < 4096
    t.log.nextSeq = s.log.nextSeq + 1 ∧ { t with log := s.log } = s ∧ t.log.slots = s.log.slots ∧
    (room → ∃ r : LogRec, t.log.staged = s.log.staged ++ [r] ∧ t.log.dropped = s.log.dropped ∧ t.log.flags = s.log.flags ∧
      r.seq = s.log.nextSeq ∧ r.code = .mod e ∧ r.sev = sev ∧ r.opsec = s.log.opsec ∧ r.power = s.log.power ∧
      r.unit = unit ∧ r.p1 = p1 ∧ r.p2 = p2 ∧ r.p3 = p3 ∧ r.flags = bit (!s.log.accepting)) ∧
    (¬ room → t.log.staged = s.log.staged ∧ t.log.dropped = s.log.dropped.modify sev.code (satInc 32) ∧
      t.log.flags.getLsbD 0 = true ∧ t.log.flags.getLsbD 1 = true)

/-- While an empty slot exists the oldest staged record is stored in the lowest-numbered empty slot; with none empty it
overwrites the stored record of lowest SEQUENCE among those at or below its severity; when every stored record has a higher
severity it is dropped and counted, with DROPPED set. No other slot changes in any case. Follows R466. -/
def Obligations.StoredRecordsTakeTheirSlot : Prop :=
  ∀ (s : State) (r : LogRec) (rest : List LogRec), s.log.accepting = true → s.log.staged = r :: rest →
    s.log.slots.Pairwise (fun a b => a.1 < b.1) →
    (∀ n, n < 65536 → slotTaken s.log n = false → (∀ m, m < n → slotTaken s.log m = true) →
      ∃ t, exec (.recordStore .stored) s = .next t ∧ look n t.log.slots = some r ∧ t.log.staged = rest ∧
        (∀ m, m ≠ n → look m t.log.slots = look m s.log.slots) ∧ t.log.dropped = s.log.dropped ∧
        { t with log := s.log } = follow s) ∧
    (∀ n o, (∀ m, m < 65536 → slotTaken s.log m = true) → look n s.log.slots = some o → o.sev.code ≤ r.sev.code →
      (∀ m q, look m s.log.slots = some q → q.sev.code ≤ r.sev.code → m ≠ n → o.seq < q.seq) →
      ∃ t, exec (.recordStore .stored) s = .next t ∧ look n t.log.slots = some r ∧ t.log.staged = rest ∧
        (∀ m, m ≠ n → look m t.log.slots = look m s.log.slots) ∧ t.log.dropped = s.log.dropped ∧
        { t with log := s.log } = follow s) ∧
    ((∀ m, m < 65536 → slotTaken s.log m = true) → (∀ m q, look m s.log.slots = some q → r.sev.code < q.sev.code) →
      ∃ t, exec (.recordStore .stored) s = .next t ∧ t.log.slots = s.log.slots ∧ t.log.staged = rest ∧
        t.log.dropped = s.log.dropped.modify r.sev.code (satInc 32) ∧ t.log.flags.getLsbD 0 = true ∧
        { t with log := s.log } = follow s)

/-- An event block or a GO write raises a record with CODE in 0xC000 to 0xFFFF while USER_ENABLE is set: it carries USER, its
severity at most USER_MAX_SEVERITY, SOURCE 5 and unit 0 program, 1 SDK or 2 plant port. A request with a code outside the
range or with USER_ENABLE clear raises no such record: USER_REFUSED sets, and LOG_USER_REFUSED (NOTICE) with the requester
and the cause is recorded unless one was for that requester within 60 s. Where the rules leave it open, it follows the
model's choices or readings of assumption 12. Follows 18_event_recorder.md. -/
def Obligations.ApplicationRecords : Prop :=
  ∀ (s : State) (r : Reader) (code : BitVec 16) (sev : Nat) (p1 p2 p3 v : Word),
    (0xC000 ≤ code.toNat → s.log.userEnable = true →
      ∃ t, exec (.eventBlock code sev p1 p2 p3) s = .next t ∧ { t with log := s.log } = follow s ∧
        t.log = (raiseRecord (.app code) (severityOf (min sev s.log.userMaxSev)) 4 5 0 p1.toNat p2.toNat p3.toNat s).log) ∧
    (code.toNat < 0xC000 ∨ s.log.userEnable = false →
      ∃ t, exec (.eventBlock code sev p1 p2 p3) s = .next t ∧ { t with log := s.log } = follow s ∧
        t.log.flags.getLsbD 2 = true ∧
        (longAgo (look 0 s.log.refusedAt) 60000000000 s.mono = true →
          t.log.nextSeq = s.log.nextSeq + 1 ∧ look 0 t.log.refusedAt = some s.mono) ∧
        (longAgo (look 0 s.log.refusedAt) 60000000000 s.mono = false → t.log.nextSeq = s.log.nextSeq)) ∧
    (v.getLsbD 31 = true → 0xC000 ≤ (logBank s r).code.toNat → s.log.userEnable = true →
      ∃ t, exec (.logUserGo r v) s = .next t ∧ { t with log := s.log } = follow s ∧ (logBank t r).refused = false ∧
        t.log.staged = (raiseRecord (.app (logBank s r).code) (severityOf (min (field v 0 2) s.log.userMaxSev)) 4 5
          (match r with | .sdk => 1 | .plant => 2) (logBank s r).p1.toNat (logBank s r).p2.toNat (logBank s r).p3.toNat s).log.staged) ∧
    (v.getLsbD 31 = true → (logBank s r).code.toNat < 0xC000 ∨ s.log.userEnable = false →
      ∃ t, exec (.logUserGo r v) s = .next t ∧ { t with log := s.log } = follow s ∧ (logBank t r).refused = true ∧
        t.log.flags.getLsbD 2 = true)

/-- OPSEC_TICK, a second after the last, advances the operating seconds, their kept copy and the hours of each brake function
while the logic rails are on; a LATCH of LOG_RD_SEL copies the slot; a read of LOG_NEXT_SEQ_LO latches bits 47:32 and one of
LOG_OPSEC the fraction and the power-cycle count, for that reader alone. Follows 18_event_recorder.md. -/
def Obligations.RecorderReadsAndTime : Prop :=
  ∀ (s : State) (r : Reader) (v : Word),
    (railsOn s = true → s.log.secBase + 1000000000 ≤ s.mono →
      ∃ t, exec .opsecTick s = .next t ∧ t.log.opsec = s.log.opsec + 1 ∧ t.log.opsecKept = s.log.opsec + 1 ∧
        t.log.secBase = s.mono ∧ { t with log := s.log, safe := s.safe } = follow s ∧
        t.safe.funcs = s.safe.funcs.map SafeFunc.second ∧ { t.safe with funcs := s.safe.funcs } = s.safe) ∧
    (v.getLsbD 31 = true →
      ∃ t, exec (.logRdLatch r v) s = .next t ∧ (logBank t r).sel = field v 0 16 ∧ (logBank t r).latched = true ∧
        (logBank t r).copy = look (field v 0 16) s.log.slots ∧ (∀ q, q ≠ r → logBank t q = logBank s q) ∧
        { t with log := s.log } = follow s) ∧
    (∃ t, exec (.logNextSeqRead r) s = .next t ∧ (logBank t r).seqHi = s.log.nextSeq / 2 ^ 32 % 2 ^ 16 ∧
      (∀ q, q ≠ r → logBank t q = logBank s q) ∧ { t with log := s.log } = follow s) ∧
    (∃ t, exec (.logOpsecRead r) s = .next t ∧ (logBank t r).frac = opFraction s ∧ (logBank t r).power = s.log.power ∧
      (∀ q, q ≠ r → logBank t q = logBank s q) ∧ { t with log := s.log } = follow s)

/-- PANEL_TEMP_READ gives the band, which rises at its bound and falls 1 degree below it; PANEL_REFRESH_REQ makes a corrective
refresh due; PANEL_COMPARE marks an update pending where the panel may draw and what it shows differs; PANEL_UPDATE_START
starts the due update where every condition holds and the energy is enough, with V_S from the panel's own table by its band,
and counts a deferral where it is not; PANEL_FRAME, 20 ms after the last and outside harbour watch, moves on, ends an update
at its last frame with its drawing shown, and at an uncorrectable word of the panel's own abandons it with PANEL_DRIVE_FAULT
and stops further updates; in harbour watch it drives nothing. Where the rules leave it open, it follows the model's choices
or readings of assumptions 220, 221 and 285. Follows 20_status_panel.md. -/
def Obligations.PanelUpdatesRun : Prop :=
  ∀ (s : State),
    (∀ x, ∃ t, exec (.panelTempRead x) s = .next t ∧ t.panel.temp = x ∧
      (s.panel.band ≤ bandOf x → t.panel.band = bandOf x) ∧
      (bandOf x < s.panel.band → t.panel.band = min s.panel.band (bandOf (x + 100))) ∧ { t with panel := s.panel } = follow s) ∧
    (∀ v : Word, v.getLsbD 0 = true →
      ∃ t, exec (.panelRefreshReq v) s = .next t ∧ t.panel = { s.panel with correctiveDue := true } ∧
        { t with panel := s.panel } = follow s) ∧
    (panelMay s = true → railsOn s = true → (s.panel.unknown = true ∨ s.panel.shown ≠ .picture (pictureOf s)) →
      ∃ t, exec .panelCompare s = .next t ∧ t.panel = { s.panel with pending := true } ∧ { t with panel := s.panel } = follow s) ∧
    (panelMay s = true → railsOn s = true → (s.panel.pending = true ∨ s.panel.correctiveDue = true) → s.panel.update = none →
      -2000 ≤ s.panel.temp → (∀ x, s.panel.startedAt = some x → x + s.panel.minInterval * 1000000000 ≤ s.mono) →
      (panelNeeds (updateFor s).lengths ≤ s.pwr.energy * 10 →
        ∀ frames vs, ∃ t, exec (.panelUpdateStart frames vs) s = .next t ∧ t.panel.update = some (updateFor s) ∧ t.panel.bandLatched = s.panel.band ∧
          t.panel.inProgress = true ∧ t.panel.frame = 0 ∧ t.panel.vsSet = s.panel.flash.volts s.panel.band ∧ t.panel.startedAt = some (s.mono : Int) ∧
          { t with panel := s.panel } = follow s) ∧
      (s.pwr.energy * 10 < panelNeeds (updateFor s).lengths →
        ∀ frames vs, ∃ t, exec (.panelUpdateStart frames vs) s = .next t ∧
          t.panel = { s.panel with deferred := satInc 32 s.panel.deferred } ∧ { t with panel := s.panel } = follow s)) ∧
    (∀ vs p, s.pwr.hbr ≠ .none → exec (.panelFrame vs p) s = .next (follow s)) ∧
    (∀ u vs, s.panel.update = some u → frameOver s = true → s.pwr.hbr = .none →
      (s.panel.vsSet * 97 ≤ vs * 100 → vs * 100 ≤ s.panel.vsSet * 103 →
        ∃ t, exec (.panelFrame vs none) s = .next t ∧ t.panel.vsMeas = vs ∧ t.panel.vsOutRun = 0 ∧
          (s.panel.frame + 1 < u.lengths.sum → t.panel.update = some u ∧ t.panel.frame = s.panel.frame + 1) ∧
          (u.lengths.sum ≤ s.panel.frame + 1 → t.panel.update = none ∧ t.panel.shown = u.draws ∧ t.panel.unknown = (s.panel.unknown && !u.recovery) ∧
            t.panel.updates = satInc 32 s.panel.updates) ∧
          { t with panel := s.panel, log := s.log } = follow s) ∧
      (∀ p, holdsWord s .panel p = true → uncorrectable p s = true →
        ∃ t, exec (.panelFrame vs (some p)) s = .next t ∧ t.panel.update = none ∧ t.panel.unknown = true ∧
        t.panel.noUpdate = true ∧ t.panel.flags.getLsbD 1 = true ∧ t.panel.shown = s.panel.shown ∧
        { t with panel := s.panel, log := s.log, mem := s.mem } = follow s))

/-- Where the banks' bytes stand in canonical form (addresses strictly rising, no byte equal to what an unlisted address reads
as), they do so after any access, any sequence of stored words and a handover's clear, and the state after reset has that
form. That an unlisted byte reads 0 is the model's choice (assumption 9). Follows 04_memory.md. -/
def Obligations.MemoryKeepsItsForm : Prop :=
  Memory.wf State.reset = true ∧
  ∀ (s t : State), Memory.wf s = true →
    (∀ a, exec (.memoryAccess a) s = .next t → Memory.wf t = true) ∧
    (exec .memHandoverComplete s = .next t → Memory.wf t = true) ∧
    (∀ l, exec (.scrubWord l) s = .next t → Memory.wf t = true) ∧
    (∀ p, exec (.scrubWriteBack p) s = .next t → Memory.wf t = true)

/-- An aligned 8-byte write by an owner that R96 to R98 allow, without flips and with no armed injection for the bank, stores
exactly those bytes where the word is no table's: every byte of memory outside them reads as before, and the word has no
position in error. A word of a signal entry takes them as R182 lays them out, and no other entry's settings change. A read
of 1 to 8 bytes within one word that has no position in error and was not found uncorrectable sends the bytes it holds and
changes nothing else. Where the rules leave it open, it follows the model's choices or readings of assumptions 9, 11 and
231. Follows 04_memory.md. -/
def Obligations.StoredBytesReadBack : Prop :=
  ∀ (s : State) (o : Owner) (u : MemUnit) (w : Nat), 8 * w + 8 ≤ 16 * bankBytes → Memory.wf s = true →
    nativeMapped s u (8 * w / bankBytes) (8 * w % bankBytes / 0x200) = true →
    (∀ b : Fin 8 → Byte, accessAllowed s o (8 * w / bankBytes) (8 * w % bankBytes / 0x200) true = true →
      (s.mem.inject.armed = false ∨ s.mem.inject.bank ≠ 8 * w / bankBytes) →
      ∃ t, exec (.memoryAccess { owner := o, unit := u, write := true, addr := 8 * w, size := 8, data := List.ofFn b, flips := [] }) s = .next t ∧
        errAt t (placeOf s (8 * w)) = [] ∧ { t with mem := s.mem, sig := s.sig, cyc := s.cyc, hoist := s.hoist, log := s.log }.rest = s.rest ∧
        (tableWord s (8 * w) = none →
          (∀ i : Fin 8, bankByte t (8 * w + i) = b i) ∧
          (∀ a, a < 8 * w ∨ 8 * w + 8 ≤ a → bankByte t a = bankByte s a) ∧
          { t with mem := s.mem, cyc := { t.cyc with instances := s.cyc.instances } }.rest = s.rest) ∧
        (∀ i k, tableWord s (8 * w) = some (.entry i k) →
          t.mem.cells = s.mem.cells ∧
          (look i t.sig.entries).map SigEntry.inward =
            (look i s.sig.entries).map (fun e => (e.putWord k (BitVec.ofNat 64 (leNat (List.ofFn b)))).inward) ∧
          (∀ j, j ≠ i → (look j t.sig.entries).map SigEntry.inward = (look j s.sig.entries).map SigEntry.inward) ∧
          { t with mem := s.mem, sig := s.sig }.rest = s.rest)) ∧
    (∀ lane n, lane + n ≤ 8 → 1 ≤ n → accessAllowed s o (8 * w / bankBytes) (8 * w % bankBytes / 0x200) false = true →
      errAt s (placeOf s (8 * w)) = [] → uncorrectable (placeOf s (8 * w)) s = false →
      ∃ t, exec (.memoryAccess { owner := o, unit := u, write := false, addr := 8 * w + lane, size := n, data := [], flips := [] }) s = .next t ∧
        t.sent = { kind := .memRead, unit := o.code, num := 8 * w + lane,
                   body := ((wordBytes s (8 * w)).drop lane).take n } :: s.sent ∧
        (tableWord s (8 * w) = none →
          ((wordBytes s (8 * w)).drop lane).take n = (List.range n).map fun i => bankByte s (8 * w + lane + i)) ∧
        { t with sent := s.sent }.rest = s.rest)

/-- An access within one word that R96 to R98 do not allow its requester leaves every byte of memory as it was, advances
MEM_OWNER_FAULTS and sets OWNER_FAULT; a read of it sends zero bytes, and a CPU access that is refused leaves the module
HALTED, where the cores run. An access beyond the banks' addresses stops with a fault of the model. Where the rules leave it
open, it follows the model's choices or readings of assumption 11. Follows 04_memory.md. -/
def Obligations.OwnerFaultsChangeNoByte : Prop :=
  ∀ (s : State) (o : Owner) (u : MemUnit) (wr : Bool) (w lane n : Nat) (data : List Byte), lane + n ≤ 8 → 1 ≤ n →
    (8 * w + lane + n ≤ 16 * bankBytes →
      accessAllowed s o (8 * w / bankBytes) (8 * w % bankBytes / 0x200) wr = false →
      ∃ t, exec (.memoryAccess { owner := o, unit := u, write := wr, addr := 8 * w + lane, size := n, data := data, flips := [] }) s = .next t ∧
        t.mem.cells = s.mem.cells ∧ t.cyc.instances = s.cyc.instances ∧ t.mem.ownerFaults = satInc 32 s.mem.ownerFaults ∧ t.mem.flags.getLsbD 2 = true ∧
        (wr = false → ∃ l, t.sent = { kind := .memRead, unit := o.code, num := 8 * w + lane, body := List.replicate n 0 } :: l) ∧
        (o = .cpu → railsOn s = true → s.sys.mode ≠ .harbour → t.sys.mode = .halted)) ∧
    (16 * bankBytes < 8 * w + lane + n →
      exec (.memoryAccess { owner := o, unit := u, write := wr, addr := 8 * w + lane, size := n, data := data, flips := [] }) s
        = .fault .noSuchAddress)

/-- A scrubber read of a scrubbed word without an error, the positions that have flipped counted in, reports nothing; with one
or two positions in error it reports a correction (the bank's count, CORRECTED, and the word due for its write-back) and no
uncorrectable error; with three, and of a word found uncorrectable before, it reports an uncorrectable error (the bank's
count and UNCORRECTABLE), changes no stored byte, and the word stays uncorrectable; it then moves to the next position, and
the core clock runs. A write-back of a word that waits and is not uncorrectable makes it right and marks its corrections,
and the oldest weak row that is due enters the weak-row record, which holds 2,048 entries. Where the scrubber does not run
nothing happens. Where the rules leave it open, it follows the model's choices or readings of assumptions 11, 60, 61, 63 and
223. Follows 04_memory.md. -/
def Obligations.ErrorsAreCorrectedOrReported : Prop :=
  ∀ (s : State),
    (∀ flips, scrubRuns s = false → exec (.scrubWord flips) s = .next (follow s)) ∧
    (∀ (p : Place) (flips : List Nat), p = { bank := s.mem.posBank, row := s.mem.posWord / 64, word := s.mem.posWord % 64 } →
      scrubRuns s = true →
      let e := errAt (flipErr p flips s) p
      (scrubbed s p.bank = false →
        ∃ t, exec (.scrubWord flips) s = .next t ∧ t.mem.banks = s.mem.banks ∧ t.mem.errs = s.mem.errs ∧ t.mem.cells = s.mem.cells ∧
          { t with mem := s.mem } = follow (startClock .core s)) ∧
      (scrubbed s p.bank = true → s.mem.found.contains p = false → e = [] →
        ∃ t, exec (.scrubWord flips) s = .next t ∧ t.mem.banks = s.mem.banks ∧ t.mem.errs = (flipErr p flips s).mem.errs ∧
          t.mem.cells = s.mem.cells ∧ t.mem.backs = s.mem.backs ∧ { t with mem := s.mem } = follow (startClock .core s)) ∧
      (scrubbed s p.bank = true → s.mem.found.contains p = true → p.bank < s.mem.banks.length →
        ∃ t, exec (.scrubWord flips) s = .next t ∧ (bankAt t p.bank).ue = satInc 32 (bankAt s p.bank).ue ∧
          (bankAt t p.bank).ce = (bankAt s p.bank).ce ∧ t.mem.flags.getLsbD 1 = true ∧ t.mem.cells = s.mem.cells ∧
          { t with mem := s.mem, log := s.log } = follow (startClock .core s)) ∧
      (scrubbed s p.bank = true → s.mem.found.contains p = false → p.bank < s.mem.banks.length → e.length = 1 ∨ e.length = 2 →
        ∃ t, exec (.scrubWord flips) s = .next t ∧ (bankAt t p.bank).ce = satInc 32 (bankAt s p.bank).ce ∧
          (bankAt t p.bank).ue = (bankAt s p.bank).ue ∧ t.mem.flags.getLsbD 0 = true ∧
          (p, e.mergeSort (· ≤ ·), []) ∈ t.mem.backs ∧
          t.mem.ceClass = e.length ∧ t.mem.cells = s.mem.cells ∧ { t with mem := s.mem, log := s.log } = follow (startClock .core s)) ∧
      (scrubbed s p.bank = true → s.mem.found.contains p = false → p.bank < s.mem.banks.length → e.length = 3 →
        ∃ t, exec (.scrubWord flips) s = .next t ∧ (bankAt t p.bank).ue = satInc 32 (bankAt s p.bank).ue ∧
          (bankAt t p.bank).ce = (bankAt s p.bank).ce ∧ t.mem.flags.getLsbD 1 = true ∧ t.mem.cells = s.mem.cells ∧
          p ∈ t.mem.scrubUe ∧ uncorrectable p t = true ∧ { t with mem := s.mem, log := s.log } = follow (startClock .core s))) ∧
    (∀ p pos l, s.mem.backs.find? (fun b => b.1 == p) = some (p, pos, l) → uncorrectable p s = false → (bankAt s p.bank).clearing = false →
      ∃ t, exec (.scrubWriteBack p) s = .next t ∧ errAt t p = l ∧ t.mem.backs.find? (fun b => b.1 == p) = none ∧
        t.mem.corrected = pos.foldl (fun l k => markBack p k l) s.mem.corrected ∧
        { t with mem := s.mem } = follow s) ∧
    (∀ w rest, s.mem.weakDue = w :: rest →
      ∃ t, exec .weakRowRecordWrite s = .next t ∧
        t.mem = { s.mem with weakDue := rest, weak := (s.mem.weak ++ [w]).take 2048, weakNew := s.mem.weakNew + 1 } ∧
        { t with mem := s.mem } = follow s) ∧
    (s.mem.weakDue = [] → exec .weakRowRecordWrite s = .next (follow s))

/-- A GO that names the current owner is accepted and takes the fields, and nothing else changes; one that R99 refuses sets
REFUSED and changes nothing else; a write without GO sets BANK, NEW_OWNER and CLEAR, also while BUSY; any other GO is BUSY,
with the bank refused to all while a clear runs. Completion gives the bank its new owner, clears its bytes where CLEAR was
set, with them the loop contexts of B11, and records BANK_HANDOVER (NOTICE) with the bank, the old and the new owner.
MEM_INJECT arms in STOP; an arming write in another mode is refused with its flag. Where the rules leave it open, it follows
the model's choices or readings of assumptions 64 and 256. Follows 04_memory.md. -/
def Obligations.BanksPassAndInjectionsArm : Prop :=
  ∀ (s : State) (r : Reader) (v : Word),
    (v.getLsbD 0 = true → (∃ n, n ≤ 15 ∧ field v 16 5 = n ∧ (bankAt s n).owner.code = field v 8 3) → field v 8 3 ≠ 7 →
      s.mem.handover.busy = false → (r = .plant → s.sys.mode = .stop) →
      ∃ t, exec (.memHandoverGo r v) s = .next t ∧ t.mem.handover.refused = false ∧ t.mem.handover.busy = false ∧
        t.mem.banks = s.mem.banks ∧ { t with mem := { t.mem with handover := s.mem.handover } } = follow s) ∧
    (v.getLsbD 0 = true → handoverRefused s r (field v 16 5) (field v 8 3) = true →
      (bankAt s (field v 16 5)).owner.code ≠ field v 8 3 →
      ∃ t, exec (.memHandoverGo r v) s = .next t ∧ t.mem.handover = { s.mem.handover with refused := true } ∧
        { t with mem := { t.mem with handover := s.mem.handover } } = follow s) ∧
    (v.getLsbD 0 = true → handoverRefused s r (field v 16 5) (field v 8 3) = false →
      (bankAt s (field v 16 5)).owner.code ≠ field v 8 3 →
      ∃ t, exec (.memHandoverGo r v) s = .next t ∧
        t.mem.handover = { busy := true, refused := false, bank := field v 16 5, owner := field v 8 3, clear := v.getLsbD 1,
                           nowBank := field v 16 5, nowOwner := field v 8 3, nowClear := v.getLsbD 1 } ∧
        (v.getLsbD 1 = true → field v 16 5 < s.mem.banks.length → (bankAt t (field v 16 5)).clearing = true) ∧
        { t with mem := s.mem } = follow s) ∧
    (v.getLsbD 0 = false →
      ∃ t, exec (.memHandoverGo r v) s = .next t ∧
        t.mem.handover = { s.mem.handover with bank := field v 16 5, owner := field v 8 3, clear := v.getLsbD 1 } ∧
        { t with mem := { t.mem with handover := s.mem.handover } } = follow s) ∧
    (s.mem.handover.busy = true → s.mem.handover.nowBank < s.mem.banks.length →
      ∃ t, exec .memHandoverComplete s = .next t ∧ t.mem.handover.busy = false ∧
        (bankAt t s.mem.handover.nowBank).owner = ownerOf s.mem.handover.nowOwner ∧
        (bankAt t s.mem.handover.nowBank).clearing = false ∧
        (s.mem.handover.nowClear = true → ∀ a, a / bankBytes = s.mem.handover.nowBank → cellGet 0 a t.mem.cells = 0) ∧
        (∀ a, a / bankBytes ≠ s.mem.handover.nowBank → cellGet 0 a t.mem.cells = cellGet 0 a s.mem.cells) ∧
        t.log = (raise .bankHandover .notice 0xFF s.mem.handover.nowBank (bankAt s s.mem.handover.nowBank).owner.code
          s.mem.handover.nowOwner s).log ∧
        t.eng = (if s.mem.handover.nowClear = true ∧ s.mem.handover.nowBank = 11 then
          { s.eng with wiped := true, loops := s.eng.loops.map fun p => (p.1, p.2.wiped) } else s.eng) ∧
        { t with mem := s.mem, log := s.log, eng := s.eng } = follow s) ∧
    (v.getLsbD 31 = true → s.sys.mode = .stop →
      ∃ t, exec (.memInjectWrite v) s = .next t ∧
        t.mem = { s.mem with inject := { armed := true, bank := field v 24 5, posC := field v 16 7, posB := field v 8 7, posA := field v 0 7 } } ∧
        { t with mem := s.mem } = follow s) ∧
    (v.getLsbD 31 = true → s.sys.mode ≠ .stop →
      ∃ t, exec (.memInjectWrite v) s = .next t ∧ t.mem = { s.mem with flags := flag 6 s.mem.flags } ∧
        { t with mem := s.mem } = follow s)

/-- A tagged frame at one of two running ring ports is forwarded to the other, a PTP event message with its residence time
added, a Sync in P2P mode with the link delay of its port too, and a Pdelay message not at all; an untagged one is counted
as bad. A supervision frame, 10 ms after the last, leaves with the next HSR number; its return within 1 ms closes its
direction, with RING_CLOSED (NOTICE) when the direction was open; the second timeout in a row opens it, with RING_OPENED,
its count and RING_OPEN (FAULT). A ring port that gains link below 1 Gbit/s is blocked with SPEED_FAULT and RING_SPEED
(FAULT), else it is up; one that loses link sets its flag and records RING_LINK_DOWN (NOTICE). Where the rules leave it
open, it follows the model's choices or readings of assumptions 11, 142, 236 and 238. Follows 11_ring_and_stations.md. -/
def Obligations.RingFramesAndDirections : Prop :=
  ∀ (s : State),
    (∀ f : RingFwd, ringPortUp s f.x.port = true → ringPortUp s (3 - f.x.port) = true →
      let passed (n : Nat) : Sent := { kind := .ringForward, unit := 3 - f.x.port, num := n, body := f.body }
      (f.x.hsr = none →
        ∃ t, exec (.ringForward f) s = .next t ∧ t.ring = { s.ring with counts := { s.ring.counts with bad := satInc 32 s.ring.counts.bad } } ∧
          { t with ring := s.ring } = follow s) ∧
      (f.x.hsr ≠ none →
        ∃ t, exec (.ringForward f) s = .next t ∧ { t with ring := s.ring, sent := s.sent } = follow s ∧
          { t.ring with nodes := s.ring.nodes, flags := s.ring.flags } = s.ring ∧
          (f.ptp = none → t.sent = passed 0 :: s.sent) ∧
          (∀ typ corr, f.ptp = some (typ, corr) →
            (typ = 0 → s.time.cfg.p2p = true → f.x.port = 1 →
              t.sent = passed (corr + (f.residence + s.time.linkDelay1) * 65536) :: s.sent) ∧
            (typ = 0 → s.time.cfg.p2p = true → f.x.port = 2 →
              t.sent = passed (corr + (f.residence + s.time.linkDelay2) * 65536) :: s.sent) ∧
            (typ = 1 ∨ (typ = 0 ∧ s.time.cfg.p2p = false) → t.sent = passed (corr + f.residence * 65536) :: s.sent) ∧
            (typ = 2 ∨ typ = 3 ∨ typ = 10 → t.sent = s.sent)))) ∧
    (railsOn s = true → s.sys.mode ≠ .harbour → ringSends s = true → longAgo s.ring.supAt 10000000 s.mono = true →
      ∃ t, exec .supervisionSend s = .next t ∧
        t.ring = { s.ring with hsrSeq := s.ring.hsrSeq + 1, supAt := some s.mono, sup12 := some s.mono, sup21 := some s.mono } ∧
        (∃ e, t.sent = e :: s.sent ∧ e.kind = .supervision ∧ e.num = s.ring.hsrSeq.toNat ∧
          e.eth = some { ports := ringPorts s, dest := supervisionDest, hsr := some s.ring.hsrSeq.toNat, typ := supervisionType }) ∧
        { t with ring := s.ring, sent := s.sent } = follow s) ∧
    ((∀ at_, s.ring.sup12 = some at_ → s.mono ≤ at_ + 1000000 →
        ∃ t, exec (.supervisionReturn true) s = .next t ∧ t.ring = { s.ring with dir12 := true, miss12 := 0, sup12 := none } ∧
          (s.ring.miss12 < 2 → t.log = s.log) ∧ (2 ≤ s.ring.miss12 → t.log = (raise .ringClosed .notice 0xFF 0 0 0 s).log) ∧
          { t with ring := s.ring, log := s.log, time := s.time } = follow s) ∧
      (∀ at_, s.ring.sup21 = some at_ → s.mono ≤ at_ + 1000000 →
        ∃ t, exec (.supervisionReturn false) s = .next t ∧ t.ring = { s.ring with dir21 := true, miss21 := 0, sup21 := none } ∧
          (s.ring.miss21 < 2 → t.log = s.log) ∧ (2 ≤ s.ring.miss21 → t.log = (raise .ringClosed .notice 0xFF 0 0 0 s).log) ∧
          { t with ring := s.ring, log := s.log, time := s.time } = follow s) ∧
      (∀ at_, s.ring.sup12 = some at_ → at_ + 1000000 ≤ s.mono → s.ring.miss12 = 0 →
        ∃ t, exec (.supervisionTimeout true) s = .next t ∧ t.ring = { s.ring with miss12 := 1, sup12 := none } ∧ t.log = s.log) ∧
      (∀ at_, s.ring.sup12 = some at_ → at_ + 1000000 ≤ s.mono → s.ring.miss12 = 1 →
        ∃ t, exec (.supervisionTimeout true) s = .next t ∧ t.ring.dir12 = false ∧ t.ring.miss12 = 2 ∧ t.ring.sup12 = none ∧
          t.ring.flags.getLsbD 2 = true ∧ t.ring.counts.openings = satInc 32 s.ring.counts.openings ∧
          t.ring.dir21 = s.ring.dir21 ∧ t.log = (raise .ringOpen .fault 0xFF 0 0 0 s).log)) ∧
    (∀ speed, s.start.phase ≠ .linkWait →
      (speed < gigabit →
        ∃ t, exec (.linkUp 1 speed) s = .next t ∧ t.ring.blocked1 = true ∧ t.ring.link1 = false ∧ t.ring.flags.getLsbD 3 = true ∧
          t.log = (raise .ringSpeed .fault 1 0 0 0 s).log ∧ { t with ring := s.ring, log := s.log }.rest = s.rest) ∧
      (gigabit ≤ speed →
        ∃ t, exec (.linkUp 2 speed) s = .next t ∧ t.ring = { s.ring with link2 := true, blocked2 := false } ∧
          { t with ring := s.ring }.rest = s.rest) ∧
      (∃ t, exec (.linkUp 3 speed) s = .next t ∧ t.pair = { s.pair with linkP3 := true } ∧ { t with pair := s.pair }.rest = s.rest) ∧
      (∃ t, exec (.linkUp 4 speed) s = .next t ∧ t.sys.linkP4 = true ∧ t.plant = { s.plant with speed := speed } ∧
          { t with sys := { t.sys with linkP4 := s.sys.linkP4 }, plant := s.plant }.rest = s.rest)) ∧
    (s.ring.link1 = true →
      ∃ t, exec (.linkLost 1) s = .next t ∧
        t.ring = { s.ring with link1 := false, blocked1 := false, flags := flag 0 s.ring.flags } ∧
        t.log = (raise .ringLinkDown .notice 1 0 0 0 s).log ∧ { t with ring := s.ring, log := s.log } = follow s)

/-- A HELLO of the module's owner, tagged, whole and no second copy, that R294 does not refuse sends the station to ADMITTING
with the next session (skipping 0) and its address, and an ADMIT leaves where a port can send; one of an address that is not
configured is counted as refused, sets JOIN_REFUSED and changes no station. An ADMITTING station without a held frame goes
back to IDLE or LOST when 10 ms have passed. A standby takes the session and the address of an ADMIT it sees. A tagged INPUT
whose slot in B12 the ring engine may use and that R291 makes valid for a LIVE or ADMITTING station is its last, counts,
ends its misses and marks it fresh, and is held for an ADMITTING one. An OUTPUT of the owner with a higher epoch makes an
ACTIVE module STANDBY (STALE) and a standby STALE, with that epoch held and SUPERSEDED set. A LATCH of RING_SEL copies the
station's figures for its reader alone. Where the rules leave it open, it follows the model's choices or readings of
assumptions 11, 120, 140 and 236. Follows 11_ring_and_stations.md, 09_pair_and_takeover.md. -/
def Obligations.StationsAreAdmittedAndHeard : Prop :=
  ∀ (s : State),
    (∀ (c : Rx) (l : List Byte) (h : HelloFrame) (x : Station), readHello c.src l = some h → ringReceives s c.port = true →
      c.hsr ≠ none → hsrSecond c s = false → h.owner = ownerId s → ringOwner s = true → stationOf s h.station = some x →
      (s.ring.stations.filter fun y => y.st == .admitting || y.st == .live).length < 127 →
      (x.st = .idle ∨ x.st = .lost ∨ (x.st = .live ∧ x.addr = some h.src)) → (x.pinMac = true → x.mac = h.src) →
      (x.typ = 0 ∨ x.typ = h.typ) → x.outLen ≤ h.outMax → x.inLen ≤ h.inMax → h.highest ≤ s.pair.epoch →
      ∃ t, exec (.hello c l) s = .next t ∧
        (stationOf t h.station).map (fun y => (y.st, y.session, y.addr)) = some (.admitting, nextSession x.session, some h.src) ∧
        (∀ m, m ≠ h.station → stationOf t m = stationOf s m) ∧
        (ringSends s = true → ∃ e, t.sent = e :: s.sent ∧ e.kind = .ringAdmit ∧ e.unit = h.station ∧ e.num = nextSession x.session ∧
          e.eth = some { ports := ringPorts s, dest := h.src, hsr := some s.ring.hsrSeq.toNat }) ∧
        { t with ring := s.ring, sent := s.sent }.rest = s.rest) ∧
    (∀ (c : Rx) (l : List Byte) (h : HelloFrame), readHello c.src l = some h → ringReceives s c.port = true → c.hsr ≠ none →
      hsrSecond c s = false → h.owner = ownerId s → ringOwner s = true → stationOf s h.station = none →
      ∃ t, exec (.hello c l) s = .next t ∧ t.ring.counts.joinsRefused = satInc 32 s.ring.counts.joinsRefused ∧
        t.ring.flags.getLsbD 6 = true ∧ t.ring.stations = s.ring.stations ∧ t.sent = s.sent) ∧
    (∀ (x : Station), stationOf s x.num = some x → x.st = .admitting → x.held = none → x.admitAt + 10000000 ≤ s.mono →
      ∃ t, exec (.admitTimeout x.num) s = .next t ∧
        (stationOf t x.num).map (·.st) = some (if x.fromLost then StnState.lost else .idle) ∧
        { t with ring := s.ring } = follow s) ∧
    (∀ (c : Rx) (dest : Nat) (l : List Byte) (a : AdmitFrame) (x : Station), readAdmit dest l = some a → ringReceives s c.port = true →
      c.hsr ≠ none → hsrSecond c s = false → a.owner = ownerId s → s.sys.role = .standby → stationOf s a.station = some x →
      ∃ t, exec (.admitSeen c dest l) s = .next t ∧
        (stationOf t a.station).map (fun y => (y.st, y.session, y.addr)) = some (.admitting, a.session, some a.dest) ∧
        { t with ring := s.ring } = follow s) ∧
    (∀ (c : Rx) (l : List Byte) (x : Station), ringReceives s c.port = true → c.hsr ≠ none → 1 ≤ c.port → c.port ≤ 2 →
      40 ≤ l.length → l.length ≤ 1064 →
      frameOk 0x23 l = true → fld l 2 2 = 40 + (readInput l).dataLen → (readInput l).owner = ownerId s →
      (∀ k, k < 3 → accessAllowed s .ring 12 ((c.port - 1) * 3 + k) true = true) → s.mem.inject.armed = false →
      let f := readInput l
      f.highest ≤ s.pair.epoch → stationOf s f.station = some x → (x.st = .live ∨ x.st = .admitting) →
      x.session = f.session → x.addr = some c.src → f.dataLen = x.inLen →
      seqNext x.lastSeq f.seq = true → x.lastSeq ≠ some f.seq →
      ∃ t, exec (.input c l []) s = .next t ∧
        (stationOf t f.station).map (fun y => (y.st, y.lastSeq, y.inputs, y.missRun, y.fresh)) =
          some (x.st, some f.seq, satInc 32 x.inputs, 0, true) ∧
        (x.st = .admitting → (stationOf t f.station).map (·.held) = some (some f)) ∧
        (∀ i, i < l.length → bankByte t (slotAt c.port + i) = l.getD i 0) ∧
        (∀ m, m ≠ f.station → stationOf t m = stationOf s m)) ∧
    (∀ (c : Rx) (l : List Byte), ringReceives s c.port = true → c.hsr ≠ none → hsrSecond c s = false → frameOk 0x22 l = true →
      fld l 2 2 = 40 + fld l 32 2 → fld l 4 8 = ownerId s → (fld l 12 1 = 0 ∨ (stationOf s (fld l 12 1)).isSome = true) →
      let e := fld l 16 4
      s.pair.epoch < e →
      (s.sys.role = .active ∨ s.sys.role = .standby) →
      ∃ t, exec (.outputSeen c l) s = .next t ∧ t.sys.role = .standby ∧ t.sys.stale = true ∧
        t.pair.epoch = e ∧ t.pair.epochCopy = e ∧ t.pair.flags.getLsbD 4 = true ∧ s.log.nextSeq < t.log.nextSeq) ∧
    (∀ (r : Reader) (v : Word) (x : Station), v.getLsbD 31 = true → stationOf s (field v 0 7) = some x →
      ∃ t, exec (.ringSelLatch r v) s = .next t ∧
        ringBank t r = { sel := field v 0 7, latched := true, state := stationWord x, inputs := BitVec.ofNat 32 x.inputs
                         misses := BitVec.ofNat 32 x.misses, losses := packFields [(16, 16, x.losses), (0, 8, x.missRun)] } ∧
        (∀ q, q ≠ r → ringBank t q = ringBank s q) ∧ { t with ring := s.ring } = follow s)

/-- A second after the last, without a set that waits, SECOND_TICK gives the calendar its next second (2000-01-01 00:00:00 after
the last of 2999, with RANGE_WRAP), advances the weekday at midnight, and an enabled alarm that matches sets its flag and,
if ONCE, is disabled. A committed set that is impossible is dropped with SET_INVALID; a possible one that sets the calendar
puts its value in force, valid, with its alarms, and records CALENDAR_SET first, without logic power at the next start.
Where the rules leave it open, it follows the model's choices or readings of assumption 154. Follows 17_calendar_clock.md. -/
def Obligations.TheCalendarTicks : Prop :=
  ∀ (s : State),
    (secondPassed s = true → s.rtc.commit.pending = false → s.rtc.discipline = none →
      ∃ t, exec .secondTick s = .next t ∧ t.rtc.now = s.rtc.now.tick ∧ t.rtc.tickAt = s.mono ∧ t.rtc.valid = s.rtc.valid ∧
        t.rtc.weekday = (if s.rtc.now.tick.daySecond = 0 then (s.rtc.weekday + 1) % 7 else s.rtc.weekday) ∧
        (s.rtc.now = lastSecond → t.rtc.flags.getLsbD 8 = true) ∧
        (∀ a, a < 2 → (s.rtc.alarms.getD a {}).enable = true →
          (s.rtc.alarms.getD a {}).hits s.rtc.now.tick t.rtc.weekday = true →
          t.rtc.flags.getLsbD a = true ∧ (t.rtc.alarms.getD a {}).enable = !(s.rtc.alarms.getD a {}).once) ∧
        { t with rtc := s.rtc, log := s.log, pwr := s.pwr } = follow s) ∧
    (secondPassed s = true → s.rtc.commit.pending = true → s.rtc.copied.possible = false →
      ∃ t, exec .secondTick s = .next t ∧ t.rtc.now = s.rtc.now.tick ∧ t.rtc.commit.pending = false ∧
        t.rtc.flags.getLsbD 7 = true) ∧
    (secondPassed s = true → s.rtc.commit.pending = true → s.rtc.copied.possible = true → s.rtc.copied.setCalendar = true →
      ∃ t, exec .secondTick s = .next t ∧ t.rtc.now = s.rtc.copied.time ∧ t.rtc.valid = true ∧ t.rtc.commit.pending = false ∧
        t.rtc.filter = s.rtc.copied.filter ∧ (s.pwr.railsOff = false → s.log.nextSeq < t.log.nextSeq) ∧
        (s.pwr.railsOff = true → s.rtc.unraised.length < t.rtc.unraised.length ∧ t.log = s.log))

/-- COMPENSATION_INTERVAL takes the temperature and a correction of at most 512 cycles, by the nominal parabola where there is
no curve; CELL_MEASURE keeps the voltages and below 2.7 V sets CELL_LOW with RTC_CELL_LOW (NOTICE); a sensed rise of WAKE
outside harbour watch sets WAKE_SEEN with RTC_WAKE_INPUT (INFO), kept for the next start without logic power, and in harbour
watch waits for its action; its fall, where WAKE is sensed, ends the level; a read of RTC_NOW_TIME latches the date for its
reader. Where the rules leave it open, it follows the model's choices or readings of assumption 190. Follows
17_calendar_clock.md. -/
def Obligations.TheBackupDomainMeasures : Prop :=
  ∀ (s : State) (r : Reader),
    (∀ x : Int, ∃ t, exec (.compensationInterval x) s = .next t ∧ t.rtc.temp = x ∧ -512 ≤ t.rtc.cycles ∧ t.rtc.cycles ≤ 512 ∧
      (s.rtc.curveOk = false → t.rtc.corr = divEven (divEven (-17 * (x - 2500) * (x - 2500)) 100) 500) ∧
      { t with rtc := s.rtc, free := s.free } = follow s) ∧
    (∀ cell cap, ∃ t, exec (.cellMeasure cell cap) s = .next t ∧ t.rtc.cellMv = cell ∧ t.rtc.capMv = cap ∧
      (2700 ≤ cell → t.rtc.flags = s.rtc.flags ∧ t.log = s.log) ∧
      (cell < 2700 → t.rtc.flags.getLsbD 5 = true ∧ t.log = (raise .rtcCellLow .notice 0xFF 0 0 0 s).log) ∧
      { t with rtc := s.rtc, log := s.log } = follow s) ∧
    (s.rtc.wakeLevel = false → wakeSensed s = true →
      ∃ t, exec .wakeInput s = .next t ∧ t.rtc.wakeLevel = true ∧
        (inHarbour s = true → t.pwr.wakeWait = s.pwr.wakeWait ++ [.wakeInput] ∧ t.log = s.log) ∧
        (inHarbour s = false → t.rtc.flags.getLsbD 9 = true ∧
          (s.pwr.railsOff = false → t.log = (raise .rtcWakeInput .info 0xFF 0 0 0 s).log) ∧
          (s.pwr.railsOff = true → t.rtc.unraised = s.rtc.unraised ++ [(.rtcWakeInput, .info, 0)] ∧ t.log = s.log)) ∧
        { t with rtc := s.rtc, log := s.log, pwr := { t.pwr with wakeWait := s.pwr.wakeWait } } = follow s) ∧
    (wakeSensed s = true →
      ∃ t, exec .wakeLevelFall s = .next t ∧ t.rtc = { s.rtc with wakeLevel := false } ∧ { t with rtc := s.rtc } = follow s) ∧
    (∃ t, exec (.rtcNowRead r) s = .next t ∧
      (r = .sdk → t.rtc.sdk.date = s.rtc.now ∧ t.rtc.plant = s.rtc.plant) ∧
      (r = .plant → t.rtc.plant.date = s.rtc.now ∧ t.rtc.sdk = s.rtc.sdk) ∧
      t.rtc.now = s.rtc.now ∧ { t with rtc := s.rtc } = follow s)

/-- A one-step Sync of the selected master gives the offset (mean delay of the port in use less the receipt time, corrected by
the latency of the PHY, less origin and correction, saturated to 32 bits); a two-step one waits with its receipt time, and
its Follow_Up gives the offset from that time. An offset below 10 ms leaves a frequency within 100 ppm. An Announce that the
BMCA follows selects its master, ACQUIRING, with its UTC offset where valid; one it decides to be grandmaster on makes a
capable clock GRANDMASTER; one that makes a GRANDMASTER passive ends that state. A delay response gives the mean path delay,
in P2P mode the mean link delay of the ring port it came in on. Where the rules leave it open, it follows the model's
choices or readings of assumptions 150, 151, 237, 239 and 281. Follows 12_network_time.md. -/
def Obligations.TheClockFollowsItsMaster : Prop :=
  ∀ (s : State),
    (∀ m : PtpSync, ptpTakes s m = true → m.twoStep = false →
      let off : Int := meanDelay s - ((receiptAt s m.port : Int) - m.origin - m.corr)
      ∃ t, exec (.ptpSync m) s = .next t ∧ t.time.offset = sat32 off ∧ t.time.prevOffset = some off ∧
        (off.natAbs < 10000000 → -100000 ≤ t.time.freq ∧ t.time.freq ≤ 100000) ∧
        { t with time := s.time, ring := s.ring, rtc := s.rtc, free := s.free } = follow s) ∧
    (∀ m : PtpSync, ptpTakes s m = true → m.twoStep = true →
      ∃ t, exec (.ptpSync m) s = .next t ∧ t.time = { s.time with syncAt := s.mono, syncWait := some (m.seq, receiptAt s m.port, m.corr) } ∧
        { t with time := s.time, ring := s.ring } = follow s) ∧
    (∀ (m : PtpSync) (receipt : Nat) (corr : Int), ptpTakes s m = true → s.time.syncWait = some (m.seq, receipt, corr) →
      let off : Int := meanDelay s - ((receipt : Int) - m.origin - (corr + m.corr))
      ∃ t, exec (.ptpFollowUp m) s = .next t ∧ t.time.syncWait = none ∧ t.time.offset = sat32 off ∧
        t.time.prevOffset = some off ∧ { t with time := s.time, ring := s.ring, rtc := s.rtc, free := s.free } = follow s) ∧
    (∀ m : PtpAnnounce, s.time.cfg.ptp = true → m.domain = s.time.cfg.domain → m.port = ptpPort s → m.decision = .follow →
      (hasMaster s = false ∨ m.master ≠ s.time.master) →
      ∃ t, exec (.ptpAnnounce m) s = .next t ∧ t.time.st = .acquiring ∧ t.time.master = m.master ∧ t.time.inWindow = 0 ∧
        t.time.utcValid = m.utcValid ∧
        t.time.utcOffset = (if m.utcValid then m.utcOffset else s.time.cfg.utcOffset) ∧
        { t with time := s.time, ring := s.ring, log := s.log } = follow s) ∧
    (∀ m : PtpAnnounce, s.time.cfg.ptp = true → m.domain = s.time.cfg.domain → m.port = ptpPort s → m.decision = .master →
      s.time.cfg.gmCapable = true →
      ∃ t, exec (.ptpAnnounce m) s = .next t ∧ t.time.st = .grandmaster ∧ t.time.utcValid = false ∧
        t.time.utcOffset = s.time.cfg.utcOffset ∧ { t with time := s.time, ring := s.ring } = follow s) ∧
    (∀ m : PtpAnnounce, s.time.cfg.ptp = true → m.domain = s.time.cfg.domain → m.port = ptpPort s → m.decision = .passive →
      s.time.st = .grandmaster →
      ∃ t, exec (.ptpAnnounce m) s = .next t ∧ t.time.st = (if s.time.everLocked then TimeState.holdover else .freeRun) ∧
        t.time.portState = 7 ∧ t.time.holdSince = s.mono ∧ { t with time := s.time, ring := s.ring } = follow s) ∧
    (∀ m : PtpDelay, s.time.cfg.ptp = true → m.domain = s.time.cfg.domain →
      let sent : Int := sendingAt s m.port s.time.reqAt
      let peer : Int := Int.tdiv ((receiptAt s m.port : Int) - sent - m.time - m.corr) 2
      ∃ t, exec (.ptpDelayResp m) s = .next t ∧
        (s.time.cfg.p2p = true → m.port = 1 → t.time = { s.time with linkDelay1 := peer.toNat }) ∧
        (s.time.cfg.p2p = true → m.port = 2 → t.time = { s.time with linkDelay2 := peer.toNat }) ∧
        (s.time.cfg.p2p = false → m.port = ptpPort s →
          t.time = { s.time with pathDelay := (Int.tdiv (s.time.syncDiff + ((m.time : Int) - sent - m.corr)) 2).toNat }) ∧
        { t with time := s.time, ring := s.ring } = follow s)

/-- As GRANDMASTER with a port that can send, the module sends a Sync and its Follow_Up with network time and the next sequence
number, an Announce, and a Delay_Resp in E2E mode with the time of receipt; a running ring port answers a Pdelay_Req, and so
does P4 in P2P mode where the clock runs there; a clock with a selected master, or in P2P mode, sends its delay request and
notes the time, in P2P mode on P4 also one on the ring ports. When an instant of a series is reached while its pulses run, a
channel that may pulse fires: its count advances and its pulse is on for WIDTH, and one that may not is missed and counted;
ONE_SHOT is then done and PERIODIC goes on at the next instant. PULSE_END ends the pulse once WIDTH has passed.
TIMED_LAUNCH, its instant reached, leaves no output of its task waiting. Where the rules leave it open, it follows the
model's choices or readings of assumptions 11, 151, 152, 237 and 238. Follows 12_network_time.md. -/
def Obligations.TheGrandmasterServesAndPulsesFire : Prop :=
  ∀ (s : State),
    (s.time.st = .grandmaster → ptpSends s = true →
      ∃ t, exec .ptpSyncSend s = .next t ∧ (t.sent.take 2).map (fun x => (x.kind, x.num)) =
          [(.ptpFollowUp, s.time.ptpSeq), (.ptpSync, s.time.ptpSeq)] ∧ t.sent.drop 2 = s.sent ∧
        (t.sent.head?.map (·.body)) = some (padded (ptpTimestamp (sendingAt s (ptpPort s) s.time.ns))) ∧
        (s.time.cfg.port4 = true → ∀ x ∈ t.sent.take 2, x.eth = some { ports := [4], dest := ptpDest, tag := some 7, typ := ptpType }) ∧
        t.time = { s.time with ptpSeq := (s.time.ptpSeq + 1) % 65536 } ∧
        { t with time := s.time, sent := s.sent, ring := s.ring } = follow s) ∧
    (s.time.st = .grandmaster → ptpSends s = true →
      ∃ t, exec .ptpAnnounceSend s = .next t ∧ t.sent.head?.map (·.kind) = some .ptpAnnounce ∧ t.sent.tail = s.sent ∧
        { t with sent := s.sent, ring := s.ring } = follow s) ∧
    (∀ seq, s.time.st = .grandmaster → s.time.cfg.p2p = false → ptpSends s = true →
      ∃ t, exec (.ptpDelayReq (ptpPort s) s.time.cfg.domain seq) s = .next t ∧
        t.sent.head?.map (fun x => (x.kind, x.num, x.body)) = some (.ptpDelayResp, seq,
          padded (ptpTimestamp (receiptAt s (ptpPort s)) ++ leBytes 1 (lowBits 8 s.time.cfg.logDelay))) ∧
        t.sent.tail = s.sent ∧ { t with sent := s.sent, ring := s.ring } = follow s) ∧
    (∀ port seq, port ≠ 4 → ringPortUp s port = true →
      ∃ t, exec (.ptpPdelayReq port seq) s = .next t ∧
        (∃ e, t.sent = e :: s.sent ∧ e.kind = .ptpPdelayResp ∧ e.num = seq ∧ e.body = padded (ptpTimestamp (receiptAt s port)) ∧
          e.eth = some { ports := [port], dest := ptpPeerDest, hsr := some s.ring.hsrSeq.toNat, typ := ptpType }) ∧
        { t with sent := s.sent, ring := s.ring } = follow s) ∧
    (∀ seq, s.time.cfg.port4 = true → s.time.cfg.p2p = true → ptpSends s = true →
      ∃ t, exec (.ptpPdelayReq 4 seq) s = .next t ∧
        (∃ e, t.sent = e :: s.sent ∧ e.kind = .ptpPdelayResp ∧ e.num = seq ∧ e.body = padded (ptpTimestamp (receiptAt s 4)) ∧
          e.eth = some { ports := [4], dest := ptpPeerDest, tag := some 7, typ := ptpType }) ∧
        { t with sent := s.sent, ring := s.ring } = follow s) ∧
    (s.time.cfg.ptp = true → (s.time.cfg.p2p = true ∨ hasMaster s = true) → ptpSends s = true →
      ∃ t, exec .ptpDelayReqSend s = .next t ∧ t.time = { s.time with reqAt := s.time.ns } ∧
        (s.time.cfg.port4 = false ∨ s.time.cfg.p2p = false ∨ ringSends s = false → t.sent.tail = s.sent) ∧
        (s.time.cfg.port4 = true → s.time.cfg.p2p = true → ringSends s = true →
          (t.sent.take 2).map (fun x => (x.kind, x.eth.map (·.ports))) =
            [(.ptpPdelayReq, some [4]), (.ptpPdelayReq, some (ringPorts s))] ∧ t.sent.drop 2 = s.sent) ∧
        t.sent.head?.map (·.kind) = some (if s.time.cfg.p2p then SentKind.ptpPdelayReq else .ptpDelayReq) ∧
        { t with time := s.time, sent := s.sent, ring := s.ring } = follow s) ∧
    (∀ n i, n < s.time.pulses.length → 28 + n < s.dio.ch.length → (pulseAt s n).next = some i →
      i * 1000 ≤ s.time.ns → pulsesRun s = true →
      ∃ t, exec (.pulseInstant n) s = .next t ∧
        (pulseMay s n = true → (pulseAt t n).fired = satInc 16 (pulseAt s n).fired ∧ (pulseAt t n).out = true ∧
          (pulseAt t n).offAt = s.mono + (pulseAt s n).force.width * 1000 ∧ (dioCh t (28 + n)).pulse = true) ∧
        (pulseMay s n = false → (pulseAt t n).missed = satAdd 8 (pulseAt s n).missed 1 ∧ t.time.flags.getLsbD 5 = true) ∧
        ((pulseAt s n).force.mode = 2 → (pulseAt t n).next = some (i + (pulseAt s n).force.period)) ∧
        ((pulseAt s n).force.mode ≠ 2 → (pulseAt t n).next = none ∧ (pulseAt t n).done = true)) ∧
    (∀ n, n < s.time.pulses.length → 28 + n < s.dio.ch.length → (pulseAt s n).offAt ≤ s.mono →
      ∃ t, exec (.pulseEnd n) s = .next t ∧ (pulseAt t n).out = false ∧ (dioCh t (28 + n)).pulse = false ∧
        (pulseAt t n).fired = (pulseAt s n).fired ∧ { t with dio := s.dio, time := s.time }.rest = s.rest) ∧
    (∀ task late at_, look task s.time.launches = some at_ → at_ ≤ s.time.ns →
      ∃ t, exec (.timedLaunch task late) s = .next t ∧ look task t.time.launches = none ∧
      (∀ x ∈ t.ring.stations, x.task = task → x.waiting = none) ∧
      { t with time := s.time, ring := s.ring, sent := s.sent } = follow s)

/-- The loss of a selected master, after 4 Sync intervals or the announce receipt timeout, records PTP_MASTER_LOST (FAULT), sets
its flag, and goes to GRANDMASTER where no Announce came for the timeout and the clock may be one, else to HOLDOVER where it
was ever LOCKED, else to FREE_RUN, with the frequency held; without a master the same silence makes such a clock
GRANDMASTER; HOLDOVER expires after 10 s; a pending step of a module whose T0 has no release instants is applied whole at
the next millisecond, counted, flagged and recorded. A LOCKED clock with a valid UTC offset that, 3,600 s after the last
check, finds the calendar off by more than 1 s marks it for the next second tick. A read of TIME_NOW latches the seconds for
its reader. At the end of an hour an average of the frequency beyond 20 ppm is recorded once as REF_DRIFT (NOTICE), beyond
25 ppm also once as FAULT. Where the rules leave it open, it follows the model's choices or readings of assumptions 153,
154, 251 and 281. Follows 12_network_time.md, 22_wear_and_replacement.md. -/
def Obligations.TimeIsHeldAndStepped : Prop :=
  ∀ (s : State) (r : Reader),
    (hasMaster s = true →
      (s.time.syncAt + syncPatience s.time.cfg ≤ s.mono ∨ s.time.announceAt + announcePatience s.time.cfg ≤ s.mono) →
      ∃ t, exec .ptpMasterLost s = .next t ∧ t.time.st = (if announceLate s = true ∧ s.time.cfg.gmCapable = true then TimeState.grandmaster
          else if s.time.everLocked then .holdover else .freeRun) ∧
        t.time.freq = heldFreq s.time ∧ t.time.flags.getLsbD 1 = true ∧ t.time.holdSince = s.mono ∧
        t.log = (raise .ptpMasterLost .fault 0xFF 0 0 0 s).log ∧ { t with time := s.time, log := s.log } = follow s) ∧
    (hasMaster s = false → announceLate s = true → s.time.cfg.gmCapable = true →
      ∃ t, exec .ptpMasterLost s = .next t ∧ t.time.st = .grandmaster ∧ { t with time := s.time } = follow s) ∧
    (s.time.st = .holdover → s.time.holdSince + 10000000000 ≤ s.mono →
      ∃ t, exec .holdoverExpiry s = .next t ∧ t.time = { s.time with expired := true } ∧ { t with time := s.time } = follow s) ∧
    (∀ d, s.time.stepPending = some d → t0Runs s = false → s.time.stepAt ≤ s.mono →
      ∃ t, exec .timeStep s = .next t ∧ t.time.ns = ((s.time.ns : Int) + d).toNat ∧ t.time.stepPending = none ∧
        t.time.steps = satInc 32 s.time.steps ∧ t.time.flags.getLsbD 0 = true ∧ s.log.nextSeq < t.log.nextSeq) ∧
    (s.time.cfg.discipline = true → s.time.everLocked = true → s.time.checkedAt + 3600000000000 ≤ s.mono →
      s.time.st = .locked → s.time.utcValid = true → 1000000000 < (calendarError s).natAbs →
      ∃ t, exec .calendarDiscipline s = .next t ∧
        t.rtc = { s.rtc with discipline := some (Int.tdiv (calendarError s) 1000000000) } ∧
        t.time = { s.time with checkedAt := s.mono } ∧ { t with rtc := s.rtc, time := s.time } = follow s) ∧
    (∃ t, exec (.timeNowRead r) s = .next t ∧
      t.time = (match r with | .sdk => { s.time with secSdk := s.time.ns / 1000000000 }
                             | .plant => { s.time with secPlant := s.time.ns / 1000000000 }) ∧
      { t with time := s.time } = follow s) ∧
    (s.time.driftHour < monoHour s →
      let x := (driftAdds s).time
      let avg := divEven x.driftSum x.driftNs
      x.driftNs ≠ 0 → 20000 < avg.natAbs → avg.natAbs ≤ 25000 → s.time.driftNotice = false →
      ∃ t, exec .refDrift s = .next t ∧
        t.time = { x with driftSum := 0, driftNs := 0, driftHour := monoHour s, driftNotice := true } ∧
        t.log = (raise .refDrift .notice 0xFF (signed32 avg) 0 0 s).log ∧ { t with time := s.time, log := s.log } = follow s)

/-- With the rails on, its instant reached and no faster group's tick standing GROUP_TICK sets the group's next instant, keeps
the group's last and longest time and the engine's peak; where all loops of a group with nothing staged compute and none was
computed in time, each sets MISSED and the group counts one miss, with LOOP_DEADLINE (FAULT) if its GROUP_DEADLINE bit was
clear; a sole loop whose context is its own and right and whose input is bad holds its output and its states, and records
LOOP_INPUT_BAD once. A write of LOOP_ENABLE acts at once where no loop computes and else waits for the tick, and leaves the
other half's loops; a latch keeps the loop asked for and copies its states. Where the rules leave it open, it follows the
model's choices or readings of assumptions 113 and 114. Follows 08_compensator_engine.md. -/
def Obligations.LoopsTickAndEnable : Prop :=
  ∀ s : State,
    (∀ k : LoopTick, railsOn s = true → k.group < s.eng.groups.length → (s.eng.groups.getD k.group {}).nextTick ≤ s.mono →
      fasterTicks s k.group = false →
      (∃ t, exec (.groupTick k) s = .next t ∧ t.eng.peak = max s.eng.peak k.load ∧
        (t.eng.groups.getD k.group {}).last = k.busy ∧ (t.eng.groups.getD k.group {}).nextTick = tickAfter k.group s.mono ∧
        (t.eng.groups.getD k.group {}).longest = max (s.eng.groups.getD k.group {}).longest k.busy ∧
        (∀ g, g ≠ k.group → t.eng.groups.getD g {} = s.eng.groups.getD g {}) ∧
        (∀ n, n ∉ loopsOf s k.group →
          (loopAt t n).secs = (loopAt s n).secs ∧ (loopAt t n).out = (loopAt s n).out) ∧
        { t with eng := s.eng, log := s.log, mem := s.mem, hoist := s.hoist, sig := s.sig, cyc := s.cyc, dio := s.dio,
                 ana := s.ana }.rest = s.rest) ∧
      (∀ first more, loopsCompute s = true → loopsOf s k.group = first :: more → k.computed = 0 →
        (∀ n ∈ first :: more, (loopAt s n).enabled = true ∧ (loopAt s n).armed = none ∧ (loopAt s n).pendingOut = none) →
        ∃ t, exec (.groupTick k) s = .next t ∧
          (∀ n ∈ first :: more, (loopAt t n).sticky.testBit 3 = true ∧ (loopAt t n).secs = (loopAt s n).secs) ∧
          (t.eng.groups.getD k.group {}).misses = satInc 32 (s.eng.groups.getD k.group {}).misses ∧
          ((s.eng.groups.getD k.group {}).missed = false →
            t.log = (raise .loopDeadline .fault 0xFF k.group first 0 s).log)) ∧
      (∀ n, loopsCompute s = true → loopsOf s k.group = [n] → 0 < k.computed → contextAllowed s n = true → contextErrors s n = [] → s.hoist.loopsDue = [] →
        (loopAt s n).enabled = true → (loopAt s n).armed = none → (loopAt s n).pendingOut = none →
        (loopAt s n).inA.kind = 1 → qClass (sigEntry s (loopAt s n).inA.ref).quality = 0 → (loopAt s n).badSafe = false →
        ∃ t, exec (.groupTick k) s = .next t ∧ (loopAt t n).held = true ∧ (loopAt t n).out = (loopAt s n).out ∧
          (loopAt t n).secs = (loopAt s n).secs)) ∧
    (∀ hi v, ∃ t, exec (.loopEnableWrite hi v) s = .next t ∧
      (∀ i < 32, (loopAt s (i + 32 * bit hi)).defined = true → (loopAt s (i + 32 * bit hi)).memBad = false →
        (loopsMode s = true → (loopAt t (i + 32 * bit hi)).enabled = (loopAt s (i + 32 * bit hi)).enabled ∧
          (loopAt t (i + 32 * bit hi)).armed =
            (if v.getLsbD i = (loopAt s (i + 32 * bit hi)).enabled then none else some (v.getLsbD i))) ∧
        (loopsMode s = false → (loopAt t (i + 32 * bit hi)).enabled = v.getLsbD i ∧
          (loopAt t (i + 32 * bit hi)).armed = none)) ∧
      (∀ n, n / 32 ≠ bit hi → loopAt t n = loopAt s n) ∧
      { t with eng := s.eng, sig := s.sig, cyc := s.cyc, dio := s.dio, ana := s.ana }.rest = s.rest) ∧
    (∀ r v, ∃ t, exec (.loopLatch r v) s = .next t ∧ { t with eng := s.eng } = follow s ∧
      t.eng.loops = s.eng.loops ∧
      loopBank t r = (if v.getLsbD 31 = true then { loopBank s r with sel := field v 0 6, want := some (field v 0 6), latched := false }
        else { loopBank s r with sel := field v 0 6 }) ∧
      (∀ o, o ≠ r → loopBank t o = loopBank s o)) ∧
    (∀ r n, (loopBank s r).want = some n →
      ∃ t, exec (.loopLatchDone r) s = .next t ∧ { t with eng := s.eng } = follow s ∧ t.eng.loops = s.eng.loops ∧
        loopBank t r = { loopBank s r with want := none, latched := true, secs := (loopAt s n).secs } ∧
        (∀ o, o ≠ r → loopBank t o = loopBank s o))

/-- At SAFETY_TICK, 0.5 ms after the last, a channel whose test pulse is off reads 0, and each path judges by its own filtered
states: a brake function that is in READY, CHECK, RELEASED or TESTING on a path enters DEMAND or FAULT there with that
path's switch open, the high side for the chip path and the low side for the supervisor path, where a pair that it names has
a channel at 0 (or, antivalent, its second at 1) on that path, or group F is LOST or QUALIFYING; one in CHECK or RELEASED
without a request releases no longer; a missed exchange is counted and opens both low sides, and the fourth in a row,
unequal clocks or a PATH fault that stands leave PATH latched; a disabled function stays so. SI_FILTER sets one path's
filtered state; the fall of a RESET input is on that path an edge for the functions that name it, or is rejected, by the
chip path with cause 1, 2 or 3, recorded and counted. Where the rules leave it open, it follows the model's choices or
readings of assumptions 180, 181, 182 and 184. Follows 16_safety.md. -/
def Obligations.SafetyTicksOpenTheBrake : Prop :=
  ∀ s : State, railsOn s = true →
    (∀ k : SafeTick, longAgo s.safe.tickAt 500000 s.mono = true →
      ∃ t, exec (.safetyTick k) s = .next t ∧
      { t with safe := s.safe, dio := s.dio, log := s.log }.rest = s.rest ∧
      t.safe.missed = (if k.missed then satInc 16 s.safe.missed else s.safe.missed) ∧
      (s.safe.path = true ∨ k.clocks = true ∨ (k.missed = true ∧ 3 ≤ s.safe.missRun) → t.safe.path = true) ∧
      (∀ n < s.safe.ch.length, (siAt t n).raw = (k.raw.getLsbD n && !fedOff s n) ∧ (siAt t n).chip = (siAt s n).chip ∧
        (siAt t n).sup = (siAt s n).sup) ∧
      ∀ f < 2,
        ((sFunc s f).st = .disabled → (sFunc t f).st = .disabled) ∧
        (k.missed = true → (sFunc t f).lsOn = false) ∧
        ((sFunc s f).st.live = true →
          fDead s = true ∨
          (∃ p < 4, (sFunc s f).names p = true ∧ p < s.safe.pairs.length ∧
            combine (sPair s p).mode (siAt s (2 * p)).chip.filt (siAt s (2 * p + 1)).chip.filt = false) →
          ((sFunc t f).st = .demand ∨ (sFunc t f).st = .fault) ∧ (sFunc t f).hsOn = false) ∧
        ((sFunc s f).st ≠ .disabled → (sFunc s f).supSt.live = true →
          fDead s = true ∨
          (∃ p < 4, (sFunc s f).names p = true ∧ p < s.safe.pairs.length ∧
            combine (sPair s p).mode (siAt s (2 * p)).sup.filt (siAt s (2 * p + 1)).sup.filt = false) →
          ((sFunc t f).supSt = .demand ∨ (sFunc t f).supSt = .fault) ∧ (sFunc t f).lsOn = false) ∧
        ((effectiveRequest s (sFunc s f)).1 = false →
          ((sFunc s f).st = .check ∨ (sFunc s f).st = .released →
            (sFunc t f).st ≠ .released ∧ (sFunc t f).st ≠ .check ∧ (sFunc t f).hsOn = false) ∧
          ((sFunc s f).st ≠ .disabled → (sFunc s f).supSt = .check ∨ (sFunc s f).supSt = .released →
            (sFunc t f).supSt ≠ .released ∧ (sFunc t f).supSt ≠ .check ∧ (sFunc t f).lsOn = false))) ∧
    (∀ q n level, n < s.safe.ch.length → (level = true → fedOff s n = false) →
      ∃ t, exec (.siFilter q n level) s = .next t ∧
        siAt t n = SiCh.upd q (fun c => { c with filt := level, rose := if level && !c.filt then s.mono else c.rose }) (siAt s n) ∧
        (∀ m, m ≠ n → siAt t m = siAt s m) ∧ { t with safe := s.safe, log := s.log }.rest = s.rest ∧
        (level = true ∨ ((siAt s n).on q).filt = false ∨ (sPair s (n / 2)).mode ≠ .reset →
          t.safe = { s.safe with ch := t.safe.ch } ∧ t.log = s.log) ∧
        (((siAt s n).on q).filt = true → level = false → (sPair s (n / 2)).mode = .reset →
          let ns := s.mono - ((siAt s n).on q).rose
          let ms := min (ns / 1000000) 65535
          let reject := fun cause => t.safe.funcs = s.safe.funcs ∧
            (q = .chip → t.log = (raise .safetyResetRejected .notice n n cause (ms * 65536 + 0xFF) s).log ∧
              t.safe.rejected = satInc 32 s.safe.rejected) ∧
            (q = .supervisor → t.log = s.log ∧ t.safe.rejected = s.safe.rejected)
          (ns < 100000000 → reject 1) ∧
          (5000000000 < ns → reject 2) ∧
          (100000000 ≤ ns → ns ≤ 5000000000 →
            (((siAt s n).on q).resetFault = true → reject 3) ∧
            (((siAt s n).on q).resetFault = false → t.log = s.log ∧
              ∀ f, (sFunc s f).enabled = true → (sFunc s f).resetSi = n →
                (q = .chip → (sFunc t f).edge = some ms) ∧ (q = .supervisor → (sFunc t f).supEdge = true)))))

/-- A drop of an enabled test pulse, a period after its last, counts on each path each channel's own and the other line's
failures in a row, and the second in a row latches TEST_PULSE or CROSS_CIRCUIT of a pair with TEST on that path; an overload
switches the output off and latches OVERLOAD of every such pair, and the retry 1 s later ends it. A static test, 4 ms after
CHECK or TESTING was entered, is judged by its readback: passed in CHECK it releases the brake, where no fault, no demand
cause and the request let it, and goes where a tick would go otherwise; failed it latches its fault and ends TESTING in
FAULT; the hold phase after RELEASE_MS, a measured current below MIN_MA for 100 ms, a dark test's second failure and a
measured current above 3.0 A for 10 ms act on a RELEASED output only, and the check of an output that has been off with 2 V
or more at its pins for 10 ms latches SWITCH_STUCK; checks resume 100 ms after group F is NORMAL. Where the rules leave it
open, it follows the model's choices or readings of assumptions 180, 183, 282 and 283. Follows 16_safety.md. -/
def Obligations.TestPulsesAndBrakeOutputs : Prop :=
  ∀ s : State,
    (∀ tp levels, tp < 2 → s.safe.present = true → (if tp = 0 then s.safe.tpEn0 else s.safe.tpEn1) = true →
      (if tp = 0 then s.safe.tpOver0 else s.safe.tpOver1) = false → s.safe.resumed = true → fDead s = false → dropDue tp s = true →
      ∃ t, exec (.testPulseDrop tp levels) s = .next t ∧ t.safe.funcs = s.safe.funcs ∧ { t with safe := s.safe }.rest = s.rest ∧
        ∀ p < 4, 2 * p + 1 < s.safe.ch.length → (sPair s p).test = true → (sPair s p).mode ≠ .unused → ∀ q ∈ bothPaths,
          let own := 2 * p + tp
          let other := 2 * p + 1 - tp
          let hit := dropLevel levels q own && !((siAt s own).on q).otherLow
          let cross := !dropLevel levels q other && ((siAt s other).on q).filt
          ((siAt t own).on q).tpRun = (if hit then min (((siAt s own).on q).tpRun + 1) 2 else 0) ∧
          ((siAt t other).on q).crossRun = (if cross then min (((siAt s other).on q).crossRun + 1) 2 else 0) ∧
          ((siAt t other).on q).otherLow = !dropLevel levels q other ∧
          ((sPair t p).on q).faults.cross = (((sPair s p).on q).faults.cross || decide (((siAt t other).on q).crossRun = 2)) ∧
          ((sPair t p).on q).faults.tpFault = (((sPair s p).on q).faults.tpFault || decide (((siAt t own).on q).tpRun = 2)) ∧
          ((sPair s p).mode = .reset → ((siAt t own).on q).tpRun = 2 → ((siAt t own).on q).resetFault = true)) ∧
    (∀ tp, s.safe.present = true → (if tp = 0 then s.safe.tpEn0 else s.safe.tpEn1) = true → fDead s = false →
      ∃ t, exec (.tpOverload tp) s = .next t ∧ (if tp = 0 then t.safe.tpOver0 else t.safe.tpOver1) = true ∧
        (∀ p < 4, (sPair s p).test = true → (sPair t p).chip.faults.overload = true) ∧
        (∀ p < 4, (sPair s p).test = false → sPair t p = sPair s p) ∧ { t with safe := s.safe }.rest = s.rest) ∧
    (∀ tp, (if tp = 0 then s.safe.tpOffAt0 else s.safe.tpOffAt1) + 1000000000 ≤ s.mono →
      ∃ t, exec (.tpOverloadRetry tp) s = .next t ∧
      t.safe = (if tp = 0 then { s.safe with tpOver0 := false } else { s.safe with tpOver1 := false }) ∧
      { t with safe := s.safe }.rest = s.rest) ∧
    (∀ f b, (sFunc s f).st = .check → (sFunc s f).stood 4 s = true →
      ∃ t, exec (.sbcStaticTest f b) s = .next t ∧ { t with safe := s.safe, dio := s.dio, log := s.log }.rest = s.rest ∧
        (∀ g, g ≠ f → { sFunc t g with duty := 0 } = { sFunc s g with duty := 0 }) ∧
        (staticResult b = .pass →
          let x := FuncState.check.next (pairDemand s (sFunc s f) || fDead s) (faultBits s (sFunc s f)) (effectiveRequest s (sFunc s f)).1
          (x = .check → (sFunc t f).st = .released ∧ (sFunc t f).hsOn = true ∧ (sFunc t f).since = s.mono ∧ t.log = s.log ∧
            ((sFunc s f).supSt = .check → (sFunc t f).supSt = .released ∧ (sFunc t f).lsOn = true)) ∧
          (x ≠ .check → (sFunc t f).st = x ∧ (sFunc t f).hsOn = false ∧ (sFunc t f).lsOn = false)) ∧
        (staticResult b = .stuck → t.log = s.log ∧ sFunc t f = { sFunc s f with stuck := true }) ∧
        (staticResult b = .openLoad → t.log = s.log ∧ sFunc t f = { sFunc s f with openLoad := true })) ∧
    (∀ f b, (sFunc s f).st = .testing → (sFunc s f).stood 4 s = true → staticResult b ≠ .pass →
      ∃ t, exec (.sbcStaticTest f b) s = .next t ∧ (sFunc t f).st = .fault ∧ (sFunc t f).last = 5 ∧ (sFunc t f).hsOn = false ∧
        (sFunc t f).lsOn = false ∧ (∀ g, g ≠ f → sFunc t g = sFunc s g)) ∧
    (∀ f, (sFunc s f).st = .released →
      ((sFunc s f).stood (sFunc s f).releaseMs s = true →
        ∃ t, exec (.sbcHoldPhase f) s = .next t ∧ { t with safe := s.safe } = follow s ∧
        sFunc t f = ({ sFunc s f with holdPhase := true }).drive ((fieldGroup s 4).st == FieldState.low) ∧
        ∀ g, g ≠ f → { sFunc t g with duty := 0 } = { sFunc s g with duty := 0 }) ∧
      (200 ≤ (sFunc s f).lowTicks →
        ∃ t, exec (.sbcOpenLoad f) s = .next t ∧ { t with safe := s.safe } = follow s ∧
        sFunc t f = { sFunc s f with openLoad := true } ∧ ∀ g, g ≠ f → sFunc t g = sFunc s g) ∧
      (20 ≤ (sFunc s f).overTicks →
        ∃ t, exec (.sbcOverload f) s = .next t ∧ { t with safe := s.safe } = follow s ∧
        sFunc t f = { sFunc s f with overNow := true } ∧ ∀ g, g ≠ f → sFunc t g = sFunc s g) ∧
      (∀ high ok, ∃ t, exec (.sbcDarkTest f high ok) s = .next t ∧ { t with safe := s.safe } = follow s ∧
        sFunc t f = darkTest high ok (sFunc s f) ∧
        (ok = false → 1 ≤ (if high then (sFunc s f).darkHs else (sFunc s f).darkLs) → (sFunc t f).stuck = true) ∧
        (ok = true → (sFunc t f).stuck = (sFunc s f).stuck))) ∧
    (∀ f < s.safe.funcs.length, (sFunc s f).sbcOn = false → 20 ≤ (sFunc s f).offTicks →
      ∃ t, exec (.sbcOffCheck f) s = .next t ∧ { t with safe := s.safe } = follow s ∧
        sFunc t f = { sFunc s f with stuck := true } ∧ ∀ g, g ≠ f → sFunc t g = sFunc s g) ∧
    (∃ t, exec .groupFResume s = .next t ∧
      t.safe = { s.safe with resumed := !fDead s && (s.safe.resumed || decide (s.safe.normalAt + 100000000 ≤ s.mono)) } ∧
      { t with safe := s.safe } = follow s)

/-- BRAKE_TEST_START begins TESTING with both switches open from READY, or from a FAULT whose only fault is BRAKE_TEST_FAILED,
in RUN and HOLD, and is else refused with a record; torque is allowed 4 ms into TESTING. A pass delivered with torque
allowed ends in READY with LAST 1, the operating hours at 0 and a record; a failure latches BRAKE_TEST_FAILED and ends in
FAULT; an abort, and a timeout TEST_TIMEOUT_S after the start, set LAST 3 and 4 and return to the state before; a test whose
interval has run falls due once. With a demand cause or another fault standing, abort, timeout and verdict end the test as a
tick would, with LAST 3 in DEMAND or FAULT. The other function is untouched. Where the rules leave it open, it follows the
model's choices or readings of assumptions 183 and 282. Follows 16_safety.md. -/
def Obligations.BrakeTestsRun : Prop :=
  ∀ s : State,
    (∀ f < 2, testMayStart s f = true →
      ∃ t, exec (.brakeTestStart f) s = .next t ∧ (sFunc t f).st = .testing ∧ (sFunc t f).hsOn = false ∧ (sFunc t f).lsOn = false ∧
        t.safe.reqFunc = f ∧ t.safe.reqRefused = false ∧ (∀ g, g ≠ f → sFunc t g = sFunc s g) ∧
        { t with safe := s.safe }.rest = s.rest) ∧
    (∀ f < 2, testMayStart s f = false →
      ∃ t, exec (.brakeTestStart f) s = .next t ∧ t.safe.reqRefused = true ∧ t.safe.funcs = s.safe.funcs ∧
        t.log = (raise .safetyTestRefused .notice f 0 0 0 s).log) ∧
    (∀ f, (sFunc s f).st = .testing →
      let demand := pairDemand s (sFunc s f) || fDead s
      let faults := faultBits s (sFunc s f)
      let stops := fun t => (sFunc t f).last = 3 ∧ (sFunc t f).torque = false ∧
        (sFunc t f).st = (if faults = 0 then FuncState.demand else .fault) ∧ ∀ g, g ≠ f → sFunc t g = sFunc s g
      (f < 2 → ∃ t, exec (.brakeTestAbort f) s = .next t ∧ (demand = true ∨ otherFaults faults ≠ 0 → stops t) ∧
        (demand = false → otherFaults faults = 0 → (sFunc t f).last = 3 ∧ (sFunc t f).torque = false ∧
          (sFunc t f).st = (if (sFunc s f).btFailed then FuncState.fault else .ready) ∧
          ((sFunc s f).btFailed = false → t.log = (raise .brakeTestAborted .notice f 0 0 0 s).log) ∧
          (∀ g, g ≠ f → sFunc t g = sFunc s g))) ∧
      ((sFunc s f).stood (1000 * (sFunc s f).timeoutS) s = true →
        ∃ t, exec (.brakeTestTimeout f) s = .next t ∧ (demand = true ∨ otherFaults faults ≠ 0 → stops t) ∧
        (demand = false → otherFaults faults = 0 → (sFunc t f).last = 4 ∧ (sFunc t f).torque = false ∧
          (sFunc t f).st = (if (sFunc s f).btFailed then FuncState.fault else .ready) ∧
          ((sFunc s f).btFailed = false → t.log = (raise .brakeTestAborted .notice f 0 0 0 s).log) ∧
          (∀ g, g ≠ f → sFunc t g = sFunc s g))) ∧
      ((sFunc s f).stood 4 s = true →
        ∃ t, exec (.torqueAllowed f) s = .next t ∧ sFunc t f = { sFunc s f with torque := true } ∧
        (∀ g, g ≠ f → sFunc t g = sFunc s g) ∧ { t with safe := s.safe }.rest = s.rest)) ∧
    ((sFunc s s.safe.reqFunc).st = .testing → (sFunc s s.safe.reqFunc).torque = true →
      let f := s.safe.reqFunc
      let demand := pairDemand s (sFunc s f) || fDead s
      let faults := faultBits s (sFunc s f)
      let stops := fun t => (sFunc t f).last = 3 ∧ (sFunc t f).torque = false ∧
        (sFunc t f).st = (if faults = 0 then FuncState.demand else .fault)
      (∃ t, exec .brakeTestPass s = .next t ∧ t.safe.resRefused = false ∧ (∀ g, g ≠ f → sFunc t g = sFunc s g) ∧
        { t with safe := s.safe, dio := s.dio, log := s.log }.rest = s.rest ∧
        (demand = true ∨ otherFaults faults ≠ 0 → stops t) ∧
        (demand = false → otherFaults faults = 0 → (sFunc t f).st = .ready ∧ (sFunc t f).last = 1 ∧
          (sFunc t f).hours = 0 ∧ (sFunc t f).due = false ∧ (sFunc t f).btFailed = false ∧
          t.log = (raise .brakeTestPassed .notice f 0 0 0 s).log)) ∧
      (∃ t, exec .brakeTestFail s = .next t ∧ t.safe.resRefused = false ∧ (∀ g, g ≠ f → sFunc t g = sFunc s g) ∧
        { t with safe := s.safe, dio := s.dio, log := s.log }.rest = s.rest ∧
        (demand = true ∨ otherFaults faults ≠ 0 → stops t) ∧
        (demand = false → otherFaults faults = 0 → (sFunc t f).st = .fault ∧ (sFunc t f).last = 2 ∧
          (sFunc t f).btFailed = true ∧ (sFunc t f).hsOn = false ∧ (sFunc t f).lsOn = false ∧ s.log.nextSeq < t.log.nextSeq))) ∧
    ((sFunc s s.safe.reqFunc).torque = false →
      ∃ t, exec .brakeTestPass s = .next t ∧ t.safe.resRefused = true ∧ t.safe.funcs = s.safe.funcs ∧ t.log = s.log) ∧
    (∀ f, (sFunc s f).enabled = true → (sFunc s f).intervalH ≠ 0 → (sFunc s f).intervalH ≤ (sFunc s f).hours →
      (sFunc s f).due = false →
      ∃ t, exec (.brakeTestDue f) s = .next t ∧ sFunc t f = { sFunc s f with due := true } ∧
        t.log = (raise .brakeTestDue .notice f 0 0 0 s).log ∧ (∀ g, g ≠ f → sFunc t g = sFunc s g) ∧
        { t with safe := s.safe, log := s.log }.rest = s.rest)

/-- X1's return takes the bus and, from the backup, records SUPPLY_ON_MAINS; in harbour watch it is a wake source. The loss of
an X1 that is present or feeds the bus gives it to a present X2 with SUPPLY_ON_BACKUP. X2 comes and goes, feeds the bus,
when it comes and when it is reconnected, where the store still does with X1 absent and no ride-through or power-down, is
cut above its limit and reconnected, and its loss in HARBOUR ends retention: the banks lose their content. X2_LOW,
LOGIC_HIGH, HOLDUP_WEAR and HOLDUP_LOW set their flags and are recorded while the logic has power. HOLDUP_MEASURE keeps ESR
and capacitance with the hold-up time; HOLDUP_ENERGY_UPDATE sets HOLDUP_READY from 0.6 J. Where the rules leave it open, it
follows the model's choices or readings of assumptions 15, 50, 51 and 53. Follows 03_supplies_and_harbour_watch.md. -/
def Obligations.InputsAndTheStore : Prop :=
  ∀ s : State,
    (∀ dc, ∃ t, exec (.x1Present dc) s = .next t ∧ t.pwr.x1 = true ∧ t.pwr.x1Dc = dc ∧ t.pwr.source = .mains ∧
      (inHarbour s = true → t.pwr.wakeWait = s.pwr.wakeWait ++ [.x1Return]) ∧
      (s.pwr.source = .backup → railsOn s = true →
        t.log = (raise .supplyOnMains .notice 0xFF 0 0 0 s).log) ∧
      (s.pwr.source ≠ .backup → t.log = s.log) ∧ { t with pwr := s.pwr, log := s.log } = follow s) ∧
    (x2Feeds s = true → railsOn s = true → s.pwr.x1 = true ∨ s.pwr.source = .mains →
      ∃ t, exec .x1Lost s = .next t ∧ t.pwr = { s.pwr with x1 := false, source := .backup } ∧
        t.log = (raise .supplyOnBackup .notice 0xFF 0 0 0 s).log ∧ { t with pwr := s.pwr, log := s.log } = follow s) ∧
    (x2Feeds s = false → ∃ t, exec .x1Lost s = .next t ∧ t.pwr = { s.pwr with x1 := false } ∧ { t with pwr := s.pwr } = follow s) ∧
    (∃ t, exec .x2Present s = .next t ∧ t.pwr.x2 = true ∧
      t.pwr.source = (if s.pwr.source = .holdup ∧ s.pwr.x1 = false ∧ s.pwr.x2Cut = false ∧ s.pwr.rideAt = none ∧ s.pwr.powerDown = false
        then Source.backup else s.pwr.source) ∧
      { t with pwr := { t.pwr with x2 := s.pwr.x2, source := s.pwr.source } } = follow s) ∧
    (s.sys.mode ≠ .harbour →
      ∃ t, exec .x2Lost s = .next t ∧ t.pwr = { s.pwr with x2 := false } ∧ { t with pwr := s.pwr } = follow s) ∧
    (s.sys.mode = .harbour →
      ∃ t, exec .x2Lost s = .next t ∧ t.pwr.x2 = false ∧ t.pwr.retentionLost = true ∧ t.mem.cells = [] ∧
        (∀ b ∈ t.mem.banks, b.powered = false ∧ b.retained = false) ∧ { t with pwr := s.pwr, mem := s.mem }.rest = s.rest) ∧
    (∃ t, exec .x2Over s = .next t ∧ t.pwr.x2Cut = true ∧ x2Feeds t = false ∧ t.pwr.flags.getLsbD 21 = true ∧
      t.pwr.standing.getLsbD 21 = true ∧ { t with pwr := s.pwr } = follow s) ∧
    (∃ t, exec .x2Reconnect s = .next t ∧ t.pwr.x2Cut = false ∧ t.pwr.flags = s.pwr.flags ∧
      t.pwr.standing.getLsbD 21 = false ∧
      t.pwr.source = (if s.pwr.source = .holdup ∧ s.pwr.x2 = true ∧ s.pwr.x1 = false ∧ s.pwr.rideAt = none ∧ s.pwr.powerDown = false
        then Source.backup else s.pwr.source) ∧ { t with pwr := s.pwr } = follow s) ∧
    (railsOn s = true →
      (s.pwr.source = .backup →
        ∃ t, exec .x2Low s = .next t ∧ t.pwr.flags.getLsbD 1 = true ∧ t.log = (raise .x2Low .notice 0xFF 0 0 0 s).log ∧
          { t with pwr := s.pwr, log := s.log } = follow s) ∧
      (∃ t, exec .logicHigh s = .next t ∧ t.pwr.flags.getLsbD 22 = true ∧
        t.log = (raise .logicHigh .fault 0xFF 0 0 0 s).log ∧ { t with pwr := s.pwr, log := s.log } = follow s) ∧
      (∀ esr cap, ∃ t, exec (.holdupMeasure esr cap) s = .next t ∧ t.pwr.esr = esr ∧ t.pwr.cap = cap ∧
        t.pwr.holdupMs = (divEven (cap * 432 : Nat) 1000).toNat ∧
        (40000 ≤ cap * 432 → esr ≤ 2 * s.pwr.esrFactory → t.log = s.log ∧ t.pwr.flags = s.pwr.flags) ∧
        (cap * 432 < 40000 ∨ 2 * s.pwr.esrFactory < esr → t.pwr.flags.getLsbD 2 = true ∧ s.log.nextSeq < t.log.nextSeq) ∧
        (cap * 432 < 30000 → t.pwr.flags.getLsbD 3 = true ∧ t.log.nextSeq = s.log.nextSeq + 2) ∧
        { t with pwr := s.pwr, log := s.log } = follow s)) ∧
    (∀ mV, ∃ t, exec (.holdupEnergyUpdate mV) s = .next t ∧
      t.pwr.holdupReady = decide (120000000000 ≤ (if s.pwr.cap = 0 then 150 else s.pwr.cap) * (mV * mV - 576000000)) ∧
      { t with pwr := s.pwr } = follow s)

/-- The loss of the bus is ridden through where the store is ready, and ends in POWER_DIP with its count, flag and length in µs
when an input returns. Where the store is not ready, when the 10 ms of the ride-through are over, or when its energy runs
low, the module powers down: no task cycle, no role, no fast clock and no safe brake output is left on, the rails are off
and the mode is STARTING; a recorder that accepts, with at least 250 mJ or after a ride-through, holds no staged record any
more and has written the operating seconds. Where the rules leave it open, it follows the model's choices or readings of
assumptions 52 and 265. Follows 03_supplies_and_harbour_watch.md, 18_event_recorder.md. -/
def Obligations.PowerDownInOrder : Prop :=
  ∀ (s : State) (rows : PowerRows), s.pwr.railsOff = false → s.pwr.powerDown = false →
    let down := fun (t : State) =>
      t.pwr.railsOff = true ∧ t.pwr.powerDown = true ∧ t.pwr.rideAt = none ∧ t.sys.mode = .starting ∧ t.sys.role = .none ∧
      t.sys.run = [] ∧ t.sys.refClock = false ∧ (∀ x ∈ t.cyc.tasks, x.cycleAt = none ∧ x.held = none) ∧
      (∀ f ∈ t.safe.funcs, f.hsOn = false ∧ f.lsOn = false) ∧
      (s.log.accepting = true → 250 ≤ s.pwr.energy ∨ s.pwr.rideAt.isSome = true → t.log.staged = [] ∧ t.log.opsecKept = s.log.opsec) ∧
      t.key = s.key ∧ t.rtc = s.rtc
    (s.pwr.holdupReady = true →
      ∃ t, exec (.busLost rows) s = .next t ∧ t.pwr.source = .holdup ∧ t.pwr.rideAt = some s.mono ∧
        t.sys.mode = s.sys.mode ∧ t.sys.role = s.sys.role ∧ { t with pwr := s.pwr }.rest = s.rest) ∧
    (s.pwr.holdupReady = false → ∃ t, exec (.busLost rows) s = .next t ∧ down t) ∧
    (∀ t0, s.pwr.rideAt = some t0 →
      (t0 + 10000000 ≤ (s.mono : Int) → ∃ t, exec (.powerDown rows) s = .next t ∧ down t) ∧ (∃ t, exec (.rideThroughEnergyLow rows) s = .next t ∧ down t) ∧
      ∀ x1, ∃ t, exec (.powerDip x1) s = .next t ∧ t.pwr.rideAt = none ∧ t.pwr.dips = satInc 32 s.pwr.dips ∧
        t.pwr.flags.getLsbD 0 = true ∧ t.pwr.source = (if x1 then Source.mains else .backup) ∧
        t.log = (raise .powerDip .notice 0xFF (((s.mono : Int) - t0).toNat / 1000) 0 0 s).log ∧
        { t with pwr := s.pwr, log := s.log } = follow s)

/-- In a group that the module supervises: NORMAL becomes LOW with its flag and FIELD_SUPPLY_LOW, LOW becomes NORMAL again with
FIELD_SUPPLY_NORMAL, and a supplied group becomes LOST with its flag and FIELD_SUPPLY_LOST, its inputs invalid; LOST becomes
QUALIFYING, falls back to LOST, and returns with FIELD_SUPPLY_RETURNED to NORMAL (group F, the first time, or by policy) or
AWAIT_ACK, which a write of the group's restore bit ends (other groups stay, but for an AWAIT_ACK that a sink's RESTORE item
ends). FIELD_SUPPLY_OVER sets its flag; a sample keeps what was measured. Where the rules leave it open, it follows the
model's choices or readings of assumptions 15 and 53. Follows 03_supplies_and_harbour_watch.md. -/
def Obligations.FieldGroupsAreSupervised : Prop :=
  ∀ (s : State) (g : Nat), g < 5 → g < s.pwr.groups.length →
    let others := fun t => ∀ h, h ≠ g → (fieldGroup s h).st ≠ .awaitAck ∨ NoDioSink s → fieldGroup t h = fieldGroup s h
    (supervises s g = true →
      ((fieldGroup s g).st = .normal →
        ∃ t, exec (.fieldSupplyLow g) s = .next t ∧ fieldGroup t g = { fieldGroup s g with st := .low } ∧
          t.pwr.flags.getLsbD (lowBit g) = true ∧ t.log = (raise .fieldSupplyLow .notice g 0 0 0 s).log ∧
          others t ∧ { t with pwr := s.pwr, log := s.log }.rest = s.rest) ∧
      ((fieldGroup s g).st = .low →
        ∃ t, exec (.fieldSupplyNormal g) s = .next t ∧ fieldGroup t g = { fieldGroup s g with st := .normal } ∧
          t.log = (raise .fieldSupplyNormal .info g 0 0 0 s).log ∧ others t ∧
          { t with pwr := s.pwr, log := s.log }.rest = s.rest) ∧
      ((fieldGroup s g).st.dead = false →
        ∃ t, exec (.fieldSupplyLost g) s = .next t ∧ (fieldGroup t g).st = .lost ∧ (fieldGroup t g).startup = false ∧
          t.pwr.flags.getLsbD (lostBit g) = true ∧ s.log.nextSeq < t.log.nextSeq ∧
          (g = 4 → t.safe.resumed = false) ∧
          (g < 4 → (∀ n < t.dio.ch.length, n / 8 = g → (dioCh t n).valid = false) ∧
            (∀ n < t.ana.ch.length, n / 4 = g → (anaCh t n).valid = false)) ∧
          others t) ∧
      ((fieldGroup s g).st = .lost →
        ∃ t, exec (.fieldSupplyQualifying g) s = .next t ∧ fieldGroup t g = { fieldGroup s g with st := .qualifying } ∧
          others t ∧ { t with pwr := s.pwr }.rest = s.rest) ∧
      ((fieldGroup s g).st = .qualifying →
        (∃ t, exec (.qualifyingRestart g) s = .next t ∧ fieldGroup t g = { fieldGroup s g with st := .lost } ∧
          others t ∧ { t with pwr := s.pwr }.rest = s.rest) ∧
        (∃ t, exec (.fieldSupplyReturned g) s = .next t ∧ (fieldGroup t g).startup = false ∧ (fieldGroup t g).first = false ∧
          (g = 4 ∨ (fieldGroup s g).first = true ∨ s.pwr.force.policy.testBit g = true → (fieldGroup t g).st = .normal) ∧
          (g ≠ 4 → (fieldGroup s g).first = false → s.pwr.force.policy.testBit g = false → NoDioSink s →
            (fieldGroup t g).st = .awaitAck) ∧
          t.log = (raise .fieldSupplyReturned .notice g 0 0 0 s).log ∧ others t ∧
          (g = 4 → t.safe.normalAt = s.mono) ∧
          { t with pwr := s.pwr, dio := s.dio, ana := s.ana, safe := s.safe, log := s.log }.rest = s.rest)) ∧
      (∃ t, exec (.fieldSupplyOver g) s = .next t ∧ fieldGroup t g = { fieldGroup s g with overNow := true } ∧
        t.pwr.flags.getLsbD (overBit g) = true ∧ { t with pwr := s.pwr }.rest = s.rest)) ∧
    (∀ v, ∃ t, exec (.fieldSupplyRestore v) s = .next t ∧ t.log = s.log ∧
      (g < 4 → v.getLsbD g = true → (fieldGroup s g).st = .awaitAck → (fieldGroup t g).st = .normal) ∧
      (g < 4 → v.getLsbD g = true → (fieldGroup s g).st ≠ .awaitAck →
        fieldGroup t g = fieldGroup s g ∧ t.pwr.flags.getLsbD 18 = true) ∧
      (g < 4 → v.getLsbD g = false → (fieldGroup s g).st ≠ .awaitAck ∨ NoDioSink s → fieldGroup t g = fieldGroup s g) ∧
      { t with pwr := s.pwr, dio := s.dio, ana := s.ana }.rest = s.rest) ∧
    (∀ x, railsOn s = true →
      ∃ t, exec (.fieldSupplySample x) s = .next t ∧ t.pwr.x1V = x.x1V ∧ t.pwr.x2mV = x.x2mV ∧ t.pwr.busmV = x.busmV ∧
        t.pwr.power10mW = x.power ∧ (fieldGroup t g).lplus = x.lplus.getD g 0 ∧ ((fieldGroup s g).st ≠ .awaitAck → (fieldGroup t g).st = (fieldGroup s g).st) ∧
        t.pwr.commit.pending = false ∧ (s.pwr.commit.pending = true → t.pwr.force = s.pwr.copied) ∧
        (s.pwr.commit.pending = false → t.pwr.force = s.pwr.force) ∧ { t with pwr := s.pwr }.rest = s.rest)

/-- A request in RUN or STOP with harbour watch enabled, no power-down and no change past STAGED begins the entry; any other is
refused with its flag and HARBOUR_REFUSED. The entry, once every cycle has ended, leaves the module asleep in HARBOUR
without role, with PWRON and the safe brake outputs off, no PHY on, no fast clock but a held one running and only the
retained banks' bytes. The end of a round's settle time starts its readings with the groups that the round supervises
afresh, LOST at a startup, and no other changed; the end of the readings, once every channel that the round names is read or
given up, records the mean of each channel's conversions, counts the round and sleeps; a PWRON fault switches it off. Where
the rules leave it open, it follows the model's choices or readings of assumptions 23, 54, 55 and 226. Follows
03_supplies_and_harbour_watch.md. -/
def Obligations.HarbourWatchIsEnteredAndKept : Prop :=
  ∀ s : State,
    (s.pwr.hbr ≠ .entering → harbourAllowed s = true →
      ∃ t, exec .harbourEnterRequest s = .next t ∧ t.pwr.hbr = .entering ∧ t.pwr.wakeWait = [] ∧
        (∀ x ∈ t.cyc.tasks, x.held = none) ∧ (s.olc.phase = .idle → t.olc = s.olc ∧ t.log = s.log)) ∧
    (s.pwr.hbr ≠ .entering → harbourAllowed s = false →
      ∃ t, exec .harbourEnterRequest s = .next t ∧ t.pwr.flags.getLsbD 19 = true ∧ t.pwr.hbr = s.pwr.hbr ∧
        t.log = (raise .harbourRefused .notice 0xFF 0 0 0 s).log ∧ { t with pwr := s.pwr, log := s.log }.rest = s.rest) ∧
    (s.pwr.force.autoEnter ≠ 0 → s.pwr.x1 = false → exec .harbourAutoEnter s = exec .harbourEnterRequest s) ∧
    (s.pwr.force.autoEnter ≠ 0 → s.pwr.x1 = false → s.pwr.hbr ≠ .entering → harbourAllowed s = true →
      ∃ t, exec .harbourAutoEnter s = .next t ∧ t.pwr.hbr = .entering) ∧
    (s.pwr.hbr = .entering → cyclesEnded s = true →
      ∃ t, exec .harbourEntry s = .next t ∧ t.sys.mode = .harbour ∧ t.sys.role = .none ∧ t.pwr.hbr = .asleep ∧
        t.pwr.pwrOnState = false ∧ t.sys.phy = [false, false, false, false] ∧ t.cyc.epoch = none ∧
        (∀ f ∈ t.safe.funcs, f.hsOn = false ∧ f.lsOn = false) ∧
        (∀ c ∈ t.sys.run, clockHeld s c = true) ∧ (∀ c ∈ t.mem.cells, c ∈ s.mem.cells) ∧
        (∀ c ∈ s.mem.cells, c ∈ t.mem.cells ↔ s.pwr.force.retain.testBit (c.1 / bankBytes) = true) ∧
        s.log.nextSeq < t.log.nextSeq ∧ t.key = s.key ∧ t.rtc = s.rtc) ∧
    (s.pwr.hbr = .settling → settleEnd s ≤ s.mono →
      ∃ t, exec .watchRoundSettleEnd s = .next t ∧ t.pwr.hbr = .reading ∧
        (∀ g, g < 5 → g < s.pwr.groups.length →
          (supervises { s with pwr := { s.pwr with hbr := .reading } } g = true → fieldGroup t g = {}) ∧
          (supervises { s with pwr := { s.pwr with hbr := .reading } } g = false → (fieldGroup s g).st ≠ .awaitAck ∨ NoDioSink s →
            fieldGroup t g = fieldGroup s g)) ∧
        (∀ x ∈ t.ana.ch, x.discard = 3 ∧ x.valid = false) ∧ { t with pwr := s.pwr, ana := s.ana }.rest = s.rest) ∧
    (s.pwr.hbr = .reading → roundComplete s = true →
      ∃ t, exec .watchReadingsDone s = .next t ∧ t.pwr.hbr = .asleep ∧ t.pwr.pwrOnState = false ∧
        t.pwr.rounds = satInc 32 s.pwr.rounds ∧ (∀ c ∈ t.sys.run, clockHeld s c = true) ∧
        (s.pwr.force.analogue = 0 → s.pwr.force.digital = 0 → t.log = s.log) ∧
        (∀ n, s.pwr.force.analogue = 2 ^ n → n < 16 → s.pwr.force.digital = 0 → qualified s (n / 4) = true → (anaCh s n).round ≠ [] →
          t.log = (raise .watchReading .info 0xFF n (signed32 (divEven (anaCh s n).round.sum (anaCh s n).round.length))
            (anaQuality s n).toNat s).log) ∧
        { t with pwr := s.pwr, log := s.log, sys := s.sys }.rest = s.rest) ∧
    (s.pwr.pwrOnState = true →
      ∃ t, exec .pwronFault s = .next t ∧ t.pwr.pwrOnState = false ∧ t.pwr.flags.getLsbD 20 = true ∧
        { t with pwr := s.pwr } = follow s)

/-- With no mirrored task HOIST_TIMER closes a hoist: the next SEQ and the generation, sent in fragments of that SEQ only,
counted, its length within the largest. A standby that hears an active in RUN and no hoist of it for longer than R264 and
R147 allow becomes stale. It starts a body with fragment 0, gives up a body whose fragment is out of order, ignores a frame
that fails its check, and applies a whole body of its own generation in time: SEQ and the next one expected are its, APPLIED
counts, and with OVERFLOW the standby is STALE; one of another generation sets its flag and is not applied. An uncorrectable
word of the mirror channel halts it, and the standby is stale; other roles take no fragment. A read of the SEQ register
latches its upper word. Where the rules leave it open, it follows the model's choices or readings of assumptions 11, 131,
133, 137 and 235. Follows 10_hoist_codec.md. -/
def Obligations.HoistsAreSentAndTaken : Prop :=
  ∀ s : State,
    (s.hoist.pacing = 0xFF → hoistSends s = true →
      ∃ (t : State) (n : Nat) (l : List Sent), exec .hoistTimer s = .next t ∧
        (s.hoist.seq = none → n = 0) ∧ (∀ k, s.hoist.seq = some k → n = k + 1) ∧
        t.hoist.seq = some n ∧ t.hoist.gen = s.olc.gen ∧ t.hoist.sent = satInc 32 s.hoist.sent ∧ t.hoist.last ≤ t.hoist.largest ∧
        t.hoist.image = s.hoist.image ∧ t.hoist.next = s.hoist.next ∧
        t.sent = l ++ s.sent ∧ l ≠ [] ∧ (∀ x ∈ l, x.kind = .hoist ∧ x.num = n) ∧
        { t with hoist := s.hoist, log := s.log, sent := s.sent } = follow s) ∧
    (s.hoist.pacing ≠ 0xFF → exec .hoistTimer s = .next (follow s)) ∧
    (s.hoist.pacing = 0xFF → hoistSends s = false →
      ∃ t, exec .hoistTimer s = .next t ∧ t.sent = s.sent ∧
        (hoistReceives s = true → s.pair.silent = false → (s.pair.partner.any fun p => p.role == 2 && p.mode == 1) = true →
          s.hoist.heardAt + 2000000 < s.mono → t.sys.stale = true ∧ t.hoist.imageOk = false) ∧
        { t with hoist := s.hoist, log := s.log, sys := { t.sys with stale := s.sys.stale } }.rest = s.rest) ∧
    (∀ l p, hoistReceives s = false → exec (.hoistFragment l p) s = .next (follow s)) ∧
    (∀ p l, hoistReceives s = true → holdsWord s .mirror p = true → uncorrectable p s = true →
      ∃ t, exec (.hoistFragment l (some p)) s = .next t ∧ t.hoist.halted = true ∧ t.hoist.seq = s.hoist.seq ∧
        t.sys.stale = true ∧ t.hoist.imageOk = false ∧ s.log.nextSeq < t.log.nextSeq ∧
        { t with hoist := s.hoist, log := s.log, mem := s.mem, sys := { t.sys with stale := s.sys.stale } }.rest = s.rest) ∧
    (∀ l, hoistReceives s = true → frameOk 0x50 l = false →
      ∃ t, exec (.hoistFragment l none) s = .next t ∧ t.hoist = s.hoist ∧ t.sys.stale = s.sys.stale ∧ t.rest = s.rest) ∧
    (∀ l, hoistReceives s = true → frameOk 0x50 l = true → 21 ≤ fld l 2 2 →
      let seq := fld l 4 8
      let no := fld l 12 2
      let data := slice l 16 (fld l 2 2 - 20)
      (no = 0 → l.getD 14 0 &&& 1 = 0 →
        ∃ t, exec (.hoistFragment l none) s = .next t ∧ t.hoist.fragSeq = some seq ∧ t.hoist.fragNext = 1 ∧
          t.hoist.fragData = data ∧ t.hoist.applied = s.hoist.applied ∧ { t with hoist := s.hoist }.rest = s.rest) ∧
      (no ≠ 0 → s.hoist.fragSeq ≠ some seq ∨ s.hoist.fragNext ≠ no →
        ∃ t, exec (.hoistFragment l none) s = .next t ∧ t.hoist.fragSeq = none ∧ t.hoist.applied = s.hoist.applied ∧
          { t with hoist := s.hoist }.rest = s.rest) ∧
      (no ≠ 0 → s.hoist.fragSeq = some seq → s.hoist.fragNext = no → l.getD 14 0 &&& 1 = 1 → s.hoist.fragLate = false →
        ∀ b, readBody s (s.hoist.fragData ++ data) = some b → b.seq = seq → inTime s b = true →
          (b.gen = s.olc.gen →
            ∃ t, exec (.hoistFragment l none) s = .next t ∧ t.hoist.seq = some seq ∧ t.hoist.lastApplied = some seq ∧ t.hoist.expect = some (seq + 1) ∧
              t.hoist.heardAt = s.mono ∧
              t.hoist.applied = satInc 32 s.hoist.applied ∧ t.hoist.fragSeq = none ∧ (b.overflow = true → t.sys.stale = true)) ∧
          (b.gen ≠ s.olc.gen →
            ∃ t, exec (.hoistFragment l none) s = .next t ∧ t.hoist.flags.getLsbD 4 = true ∧
              t.hoist.applied = s.hoist.applied ∧ t.hoist.seq = s.hoist.seq))) ∧
    (∀ r, ∃ t, exec (.hoistSeqRead r) s = .next t ∧
      t.hoist = (match r with
        | .sdk => { s.hoist with hiSdk := s.hoist.seq.getD 0 / 2 ^ 32 }
        | .plant => { s.hoist with hiPlant := s.hoist.seq.getD 0 / 2 ^ 32 }) ∧ { t with hoist := s.hoist } = follow s)

/-- A cover, temperature, supply or clock source (the glitches once armed, with the rails on) that enters its condition stands,
counts, and with the rails on is recorded as its response says, without them kept for the next start; before any key has
been accepted the response is ALERT; LOCK and ERASE leave the module locked, ERASE also without the identity's private half
and with every session closed; a source that stands already does nothing. The condition's end clears it; the end of the
key's condition shows a key in the socket again. A generated key makes the identity SELF, with its public half, a count and
IDENTITY_NEW. Where the rules leave it open, it follows the model's choices or readings of assumption 206. Follows
19_plant_port_and_access.md. -/
def Obligations.TamperSourcesRespond : Prop :=
  ∀ s : State,
    (∀ src, src < 5 → s.sec.counts.length = 5 → s.sec.standing.length = 5 → s.sec.standing.getD src false = false →
      let entered := fun (t : State) => t.sec.standing.getD src false = true ∧
        t.sec.counts.getD src 0 = satInc 32 (s.sec.counts.getD src 0) ∧
        (s.sec.response src ≠ .alert → t.sec.locked = true) ∧
        (s.sec.response src = .alert → t.sec.locked = s.sec.locked ∧ t.sec.hasKey = s.sec.hasKey ∧ t.plant = s.plant) ∧
        (s.sec.response src = .erase → t.sec.hasKey = false ∧ t.sec.idX = 0 ∧ t.sec.idY = 0 ∧
          t.sec.identity = .generating ∧ ∀ x ∈ t.plant.sessions, x = {}) ∧
        (railsOn s = true → s.log.nextSeq < t.log.nextSeq) ∧
        (railsOn s = false → t.sec.deferred = s.sec.deferred ++ [(src, satInc 32 (s.sec.counts.getD src 0))]) ∧
        { t with sec := s.sec, log := s.log, plant := s.plant, olc := s.olc, mem := s.mem } = follow s
      (src = 0 → ∃ t, exec .tamperCover s = .next t ∧ entered t) ∧ (src = 4 → ∃ t, exec .tamperTemperature s = .next t ∧ entered t) ∧
      (s.sec.armed = true → railsOn s = true → (src = 2 → ∃ t, exec .supplyGlitch s = .next t ∧ entered t) ∧
        (src = 3 → ∃ t, exec .clockGlitch s = .next t ∧ entered t))) ∧
    (s.sec.standing.getD 0 false = true → exec .tamperCover s = .next (follow s)) ∧
    (s.sec.armed = false → exec .supplyGlitch s = .next (follow s) ∧ exec .clockGlitch s = .next (follow s)) ∧
    (∀ src, ∃ t, exec (.tamperConditionEnd src) s = .next t ∧ t.sec.standing.getD src false = false ∧
      (∀ i, i ≠ src → t.sec.standing.getD i false = s.sec.standing.getD i false) ∧
      t.sec.counts = s.sec.counts ∧ t.sec.locked = s.sec.locked ∧ (src = 1 → t.key.present = true) ∧ (src ≠ 1 → t.key = s.key) ∧
      { t with sec := s.sec, key := { t.key with present := s.key.present } } = follow s) ∧
    (∀ src, s.sec.everKey = false → s.sec.response src = .alert) ∧
    (∀ x y, s.sec.identity = .generating → railsOn s = true →
      ∃ t, exec (.identityKeyGenerated x y) s = .next t ∧ t.sec.identity = .self ∧ t.sec.hasKey = true ∧ t.sec.idX = x ∧
        t.sec.idY = y ∧ t.sec.identityGen = satInc 32 s.sec.identityGen ∧ t.sec.flags.getLsbD 6 = true ∧
        t.log = (raise .identityNew .notice 0xFF 0 0 0 s).log ∧ { t with sec := s.sec, log := s.log } = follow s)

/-- A side that runs the pair link sends a pennant on P3 with its next SEQ, the command in progress, and its own state. A
pennant of the other side that is newer becomes the partner's, counted with its time, and ends a silence; an ACTIVE side
that learns of a higher epoch becomes STANDBY, STALE, and takes it; one that fails its check, or is of another pair or the
own side, is counted as bad. In role discovery a fresh pennant is noted, and while listening heard. A partner silent for
1,600 µs is counted, flagged and recorded; a standby queries the Jack, also one that becomes it with its partner silent
already, and a hand-over that it has not acknowledged is void. A hand-over that is allowed sends the side to RELEASING with
its command; any other is refused with a record, and one that nobody acknowledged within 100 ms ends in ACTIVE again. Before
their time neither the silence nor the end of the wait does anything. Where the rules leave it open, it follows the model's
choices or readings of assumptions 11, 14, 121, 122, 124 and 240. Follows 09_pair_and_takeover.md. -/
def Obligations.PennantsAndHandovers : Prop :=
  ∀ s : State,
    (pairRuns s = true →
      ∃ t, exec .pennantSend s = .next t ∧ t.pair = { s.pair with seq := s.pair.seq + 1 } ∧
        { t with pair := s.pair, sent := s.sent } = follow s ∧
        (∀ c, s.pair.cmd = some c → c.void = false →
          t.sent = { kind := .pennant, unit := s.pair.side, num := s.pair.seq, eth := some { ports := [3], dest := 0x01524D000010 },
                     body := pennantBytes (ownPennant s c.kind c.arg c.seq c.due c.newEpoch) } :: s.sent) ∧
        (s.pair.cmd = none → s.cyc.pendingReq = none →
          t.sent = { kind := .pennant, unit := s.pair.side, num := s.pair.seq, eth := some { ports := [3], dest := 0x01524D000010 },
                     body := pennantBytes (ownPennant s 0 0 s.pair.cmdSeq 0 0) } :: s.sent)) ∧
    (∀ l, discovers s = true ∨ pairRuns s = true →
      let p := readPennant l
      let fits := frameOk 0x40 l = true ∧ fld l 2 2 = 108
      let fresh := s.pair.silent = true ∨ s.pair.partner = none ∨ (∃ q, s.pair.partner = some q ∧ q.seq < p.seq)
      (frameOk 0x40 l = false →
        ∃ t, exec (.pennantReceived l) s = .next t ∧ t.pair = { s.pair with bad := satInc 32 s.pair.bad } ∧ { t with pair := s.pair }.rest = s.rest) ∧
      (fits → p.pairId ≠ (hdr s).pairId →
        ∃ t, exec (.pennantReceived l) s = .next t ∧ t.pair.bad = satInc 32 s.pair.bad ∧ t.pair.flags.getLsbD 8 = true ∧
          t.pair.foreign = true ∧ t.pair.partner = s.pair.partner ∧
          (s.pair.foreign = false → t.log = (raise .pairForeign .fault 0xFF 0 0 0 s).log) ∧ (s.pair.foreign = true → t.log = s.log)) ∧
      (fits → p.pairId = (hdr s).pairId → p.side = s.pair.side →
        ∃ t, exec (.pennantReceived l) s = .next t ∧ t.pair.bad = satInc 32 s.pair.bad ∧ t.pair.flags.getLsbD 7 = true ∧
          t.pair.partner = s.pair.partner ∧ (s.pair.clash = false → t.log = (raise .pairSideClash .fault 0xFF 0 0 0 s).log)) ∧
      (fits → p.pairId = (hdr s).pairId → p.side ≠ s.pair.side → p.side = 3 - s.pair.side → discovers s = true → fresh →
        ∃ t, exec (.pennantReceived l) s = .next t ∧ t.pair.partner = some p ∧ t.pair.partnerAt = s.mono ∧
          t.pair.rx = satInc 32 s.pair.rx ∧ t.sys.role = s.sys.role ∧ t.log = s.log ∧
          (s.start.phase = .listening → t.start.heard = s.start.heard ++ [p]) ∧ (s.start.phase = .querying → t.start = s.start)) ∧
      (fits → p.pairId = (hdr s).pairId → p.side ≠ s.pair.side → p.side = 3 - s.pair.side → discovers s = false → fresh →
        ∃ t, exec (.pennantReceived l) s = .next t ∧ t.pair.partner = some p ∧ t.pair.partnerAt = s.mono ∧ t.pair.silent = false ∧
          t.pair.rx = satInc 32 s.pair.rx ∧ t.pair.bad = s.pair.bad ∧
          (s.sys.role = .active → s.pair.epoch < p.epoch →
            t.sys.role = .standby ∧ t.sys.stale = true ∧ p.epoch ≤ t.pair.epoch))) ∧
    (s.mono < s.pair.partnerAt + 1600000 → exec .partnerSilent s = .next (follow s)) ∧
    (pairRuns s = true → s.pair.partnerAt + 1600000 ≤ s.mono → s.pair.silent = false → s.olc.phase = .idle →
      (s.pair.st = .active →
        ∃ t, exec .partnerSilent s = .next t ∧ t.pair.silent = true ∧ t.pair.silences = satInc 32 s.pair.silences ∧
          t.pair.flags.getLsbD 0 = true ∧ t.pair.st = .active ∧ t.log = (raise .partnerLost .fault 0xFF 0 0 0 s).log ∧
          { t with pair := s.pair, log := s.log }.rest = s.rest) ∧
      (∀ c, s.pair.st = .releasing → s.pair.cmd = some c →
        ∃ t, exec .partnerSilent s = .next t ∧ t.pair.silent = true ∧ t.pair.st = .releasing ∧
          t.pair.cmd = some { c with void := c.void || !c.acked } ∧ t.log = (raise .partnerLost .fault 0xFF 0 0 0 s).log ∧
          { t with pair := s.pair, log := s.log }.rest = s.rest) ∧
      (s.pair.st = .standby → s.pair.mismatch = false → s.pair.accepted = none →
        ∃ t, exec .partnerSilent s = .next t ∧ t.pair.silent = true ∧ t.pair.flags.getLsbD 0 = true ∧ t.pair.st = .query ∧
          t.pair.client.waiting = true ∧ t.pair.client.attempts = 1 ∧ t.pair.client.reason = 2 ∧
          t.log = (raise .partnerLost .fault 0xFF 0 0 0 s).log ∧
          { t with pair := s.pair, log := s.log, sent := s.sent, ring := { t.ring with hsrSeq := s.ring.hsrSeq } }.rest = s.rest)) ∧
    (pairRuns s = true → s.pair.partnerAt + 1600000 ≤ s.mono → s.pair.silent = true → s.pair.st = .standby → s.pair.linkDown = false →
      s.pair.mismatch = false → s.pair.accepted = none →
      ∃ t, exec .partnerSilent s = .next t ∧ t.pair.st = .query ∧ t.pair.client.waiting = true ∧ t.pair.client.reason = 2 ∧
        t.pair.silences = s.pair.silences ∧ t.pair.flags.getLsbD 0 = true ∧ t.log = (raise .partnerLost .fault 0xFF 0 0 0 s).log ∧
        { t with pair := s.pair, log := s.log, sent := s.sent, ring := { t.ring with hsrSeq := s.ring.hsrSeq } }.rest = s.rest) ∧
    (handoverAllowed s = true → isPairSide s = true →
      ∃ t c, exec .handoverRequest s = .next t ∧ t.pair.st = .releasing ∧ t.pair.cmd = some c ∧ c.kind = 3 ∧
        c.seq = (s.pair.cmdSeq + 1) % 65536 ∧ c.newEpoch = s.pair.epoch + 1 ∧ c.due = t0Ahead s 2000000 ∧ c.acked = false ∧
        t.pair.handoverFailed = false ∧ { t with pair := s.pair } = follow s) ∧
    (handoverAllowed s = false → isPairSide s = true →
      ∃ t, exec .handoverRequest s = .next t ∧ t.pair.flags.getLsbD 6 = true ∧ t.pair.st = s.pair.st ∧ t.pair.handoverFailed = true ∧
        t.log = (raise .handoverRefused .notice 0xFF 0 0 0 s).log ∧ { t with pair := s.pair, log := s.log } = follow s) ∧
    (isPairSide s = false → exec .handoverRequest s = .next (follow s)) ∧
    (∀ c, s.pair.st = .releasing → s.pair.cmd = some c → c.kind = 3 → c.acked = false →
      (s.mono < c.asked + 100000000 → exec .handoverTimeout s = .next (follow s)) ∧
      (c.asked + 100000000 ≤ s.mono →
        ∃ t, exec .handoverTimeout s = .next t ∧ t.pair.st = .active ∧ t.pair.cmd = none ∧ t.pair.flags.getLsbD 5 = true ∧
          t.log = (raise .handoverFailed .notice 0xFF 0 0 0 s).log ∧ { t with pair := s.pair, log := s.log } = follow s))

/-- In QUERY an attempt without answer is counted and asked again, until after three the side is NO_ACTIVE with JACK_ABSENT
recorded once; BUSY lets it ask again, not as an attempt; GRANT sends a STANDBY, QUERY or NO_ACTIVE side to TAKING with at
least the epoch granted and a takeover record; PARTNER_ACTIVE makes it STANDBY, STALE, with PAIR_LINK_DOWN where the partner
is silent still; NO_ACTIVE and, 10 ms after the last answer, a standing PAIR_LINK_DOWN ask again. A probe is answered, as
ACTIVE in TAKING or RELEASING, but not in HALTED, in harbour watch or without a key. A notify leaves every 1 s, after a
hand-over every 10 ms, with the next number, and its acknowledgement ends the wait and marks the Jack reachable. What a side
sends leaves on P4 with its 802.1Q tag, on the ring with its HSR tag, or on both, as the STATION section says; what comes in
on the ring is taken once. Where the rules leave it open, it follows the model's choices or readings of assumptions 11, 121
and 232. Follows 09_pair_and_takeover.md. -/
def Obligations.ASideAsksTheJack : Prop :=
  ∀ s : State, s.start.phase = .idle →
    let frames := fun (k : SentKind) (unit num dest : Nat) (f : JackFrame) =>
      (if s.pair.jackP4 then
        [({ kind := k, unit := unit, num := num, body := padded (jackBytes f), eth := some { ports := [4], dest := dest, tag := some 7 } } : Sent)]
      else []) ++
      (if s.pair.jackRing && ringSends s then
        [({ kind := k, unit := unit, num := num, body := padded (jackBytes f),
            eth := some { ports := ringPorts s, dest := dest, hsr := some s.ring.hsrSeq.toNat } } : Sent)]
      else [])
    (s.pair.st = .query →
      (s.pair.client.waiting = true →
        ∃ t, exec .jackQueryTimeout s = .next t ∧ t.pair.noAnswer = satInc 32 s.pair.noAnswer ∧
          { t with pair := s.pair, log := s.log, sent := s.sent, ring := { t.ring with hsrSeq := s.ring.hsrSeq } }.rest = s.rest ∧
          (s.pair.client.attempts < 3 → t.pair.st = .query ∧ t.pair.client.waiting = true ∧
            t.pair.client.attempts = s.pair.client.attempts + 1 ∧ t.pair.client.queryNo = s.pair.client.queryNo + 1 ∧ t.log = s.log ∧
            t.sent = frames .jackQuery s.pair.jackMac (s.pair.client.queryNo + 1).toNat s.pair.jackMac
              { typ := 0x41, pairId := (hdr s).pairId, side := s.pair.side, arg := s.pair.client.reason,
                num := (s.pair.client.queryNo + 1).toNat, epoch := s.pair.epoch } ++ s.sent) ∧
          (3 ≤ s.pair.client.attempts → t.pair.st = .noActive ∧ t.pair.flags.getLsbD 2 = true ∧ t.pair.client.absentRec = true ∧
            t.sent = s.sent ∧
            (s.pair.client.absentRec = false → t.log = (raise .jackAbsent .fault 0xFF 0 0 0 s).log) ∧
            (s.pair.client.absentRec = true → t.log = s.log))) ∧
      (s.pair.client.waiting = false →
        ∃ t, exec .jackBusyRetry s = .next t ∧ t.pair.client.waiting = true ∧ t.pair.client.attempts = s.pair.client.attempts ∧
          t.pair.queries = satInc 32 s.pair.queries ∧ t.pair.st = .query ∧
          t.sent = frames .jackQuery s.pair.jackMac (s.pair.client.queryNo + 1).toNat s.pair.jackMac
            { typ := 0x41, pairId := (hdr s).pairId, side := s.pair.side, arg := s.pair.client.reason,
              num := (s.pair.client.queryNo + 1).toNat, epoch := s.pair.epoch } ++ s.sent ∧
          { t with pair := s.pair, sent := s.sent, ring := { t.ring with hsrSeq := s.ring.hsrSeq } } = follow s)) ∧
    (∀ x l, jackForMe 0x42 l s = true →
      x.port = 4 ∨ (ringReceives s x.port = true ∧ x.hsr ≠ none ∧ hsrSecond x s = false) →
      ((readJack l).arg = 1 → s.pair.st = .standby ∨ s.pair.st = .query ∨ s.pair.st = .noActive → s.pair.mismatch = false →
        ∃ t, exec (.jackAnswer x l) s = .next t ∧ t.pair.st = .taking ∧ t.pair.epoch = max s.pair.epoch (readJack l).epoch ∧
          t.pair.client.reachable = true ∧ t.pair.takeovers = satInc 32 s.pair.takeovers ∧ s.log.nextSeq < t.log.nextSeq ∧
          t.sys.role = s.sys.role) ∧
      (s.pair.st = .query → s.sys.role ≠ .active → s.pair.client.waiting = true →
        (readJack l).num = s.pair.client.queryNo.toNat →
        ((readJack l).arg = 2 →
          ∃ t, exec (.jackAnswer x l) s = .next t ∧ t.pair.st = .standby ∧ t.pair.epoch = max s.pair.epoch (readJack l).epoch ∧
            t.pair.client.waiting = false ∧ t.sys.stale = true ∧ (s.pair.silent = true ∨ s.pair.partner = none → t.pair.linkDown = true)) ∧
        ((readJack l).arg = 3 →
          ∃ t, exec (.jackAnswer x l) s = .next t ∧ t.pair.st = .query ∧ t.pair.client.waiting = false ∧
            t.pair.client.attempts = s.pair.client.attempts ∧ (x.port = 4 → t.ring = s.ring) ∧
            { t with pair := s.pair, ring := s.ring }.rest = s.rest))) ∧
    (∀ x l, x.port ≠ 4 → jackForMe 0x42 l s = true → ringReceives s x.port = true → x.hsr ≠ none → hsrSecond x s = true →
      ∃ t, exec (.jackAnswer x l) s = .next t ∧ t.pair = s.pair ∧ { t with ring := s.ring }.rest = s.rest) ∧
    (pairRuns s = true →
      (s.pair.st = .noActive →
        ∃ t, exec .noActiveRetry s = .next t ∧ t.pair.st = .query ∧ t.pair.client.reason = 3 ∧ t.pair.client.attempts = 1 ∧
          t.pair.client.waiting = true ∧ { t with pair := s.pair, sent := s.sent, ring := { t.ring with hsrSeq := s.ring.hsrSeq } } = follow s) ∧
      (s.pair.st = .standby → s.pair.linkDown = true → s.pair.mismatch = false →
        (s.pair.client.answerAt + 10000000 ≤ s.mono →
          ∃ t, exec .linkDownRetry s = .next t ∧ t.pair.st = .query ∧ t.pair.client.reason = 3 ∧ t.pair.client.attempts = 1 ∧
            { t with pair := s.pair, sent := s.sent, ring := { t.ring with hsrSeq := s.ring.hsrSeq } } = follow s) ∧
        (s.mono < s.pair.client.answerAt + 10000000 → exec .linkDownRetry s = .next (follow s))) ∧
      (s.pair.client.notifyAt = none ∨
          (∃ n, s.pair.client.notifyAt = some n ∧ n + (if s.pair.client.fastNotify then 10000000 else 1000000000) ≤ s.mono) →
        ∃ t, exec .jackNotifySend s = .next t ∧ t.pair.client.notifyNo = s.pair.client.notifyNo + 1 ∧
          t.pair.client.notifyWait = true ∧ t.pair.client.notifyAt = some s.mono ∧
          t.sent = frames .jackNotify s.pair.jackMac (s.pair.client.notifyNo + 1).toNat s.pair.jackMac
            { typ := 0x45, pairId := (hdr s).pairId, side := s.pair.side, arg := s.sys.role.code,
              num := (s.pair.client.notifyNo + 1).toNat, epoch := s.pair.epoch } ++ s.sent ∧
          { t with pair := s.pair, sent := s.sent, ring := { t.ring with hsrSeq := s.ring.hsrSeq } } = follow s) ∧
      (∀ n, s.pair.client.notifyAt = some n → s.mono < n + (if s.pair.client.fastNotify then 10000000 else 1000000000) →
        exec .jackNotifySend s = .next (follow s))) ∧
    (∀ x l, jackForMe 0x43 l s = true → x.port = 4 →
      (s.pwr.railsOff = false → s.sys.mode = .run ∨ s.sys.mode = .stop → s.cyc.configError = false → answersProbes s = true) ∧
      (s.sys.mode = .halted ∨ s.sys.mode = .harbour ∨ s.cyc.configError = true → answersProbes s = false) ∧
      (answersProbes s = false → ∃ t, exec (.jackProbe x l) s = .next t ∧ t.sent = s.sent ∧ t.rest = s.rest) ∧
      (answersProbes s = true → (readJack l).epoch ≤ s.pair.epoch →
        ∃ t, exec (.jackProbe x l) s = .next t ∧
          t.sent = frames .jackProbeReply x.src (readJack l).num x.src
            { typ := 0x44, pairId := (readJack l).pairId, side := s.pair.side,
              arg := if s.pair.st = .taking ∨ s.pair.st = .releasing then Role.active.code else s.sys.role.code,
              num := (readJack l).num, epoch := s.pair.epoch } ++ s.sent ∧
          { t with sent := s.sent, ring := { t.ring with hsrSeq := s.ring.hsrSeq } }.rest = s.rest)) ∧
    (∀ x l, jackForMe 0x46 l s = true → (readJack l).num = s.pair.client.notifyNo.toNat →
      x.port = 4 ∨ (ringReceives s x.port = true ∧ x.hsr ≠ none ∧ hsrSecond x s = false) →
      ∃ t, exec (.jackNotifyAck x l) s = .next t ∧ t.pair.client.notifyWait = false ∧ t.pair.client.fastNotify = false ∧
        t.pair.client.reachable = true ∧ t.pair.client.lastAnswer = s.mono ∧ (x.port = 4 → t.ring = s.ring) ∧
        { t with pair := s.pair, ring := s.ring } = follow s)

/-- A Jack in RUN answers a query of a pair it does not serve, or of one at the last epochs, with REFUSED, of one that is busy
with BUSY, of one that it granted to the other side within 10 ms with PARTNER_ACTIVE, and else probes the other side, to
every side's address, and marks the record busy. An ACTIVE reply with no lower epoch is taken over and answered
PARTNER_ACTIVE; any other, or no reply, grants an epoch one above the record's, the querier's and the replier's. A notify
updates the record and is acknowledged. None of these lowers a record's epoch or touches another record. A Jack 1.5 s silent
is not reachable. Where the rules leave it open, it follows the model's choices or readings of assumptions 11, 14 and 232.
Follows 09_pair_and_takeover.md. -/
def Obligations.TheJackGrantsOnce : Prop :=
  ∀ s : State,
    let frames := fun (t : State) (k : SentKind) (unit num dest : Nat) (f : JackFrame) =>
      (if s.pair.jackP4 then
        [({ kind := k, unit := unit, num := num, body := padded (jackBytes f), eth := some { ports := [4], dest := dest, tag := some 7 } } : Sent)]
      else []) ++
      (if s.pair.jackRing && ringSends s then
        [({ kind := k, unit := unit, num := num, body := padded (jackBytes f),
            eth := some { ports := ringPorts s, dest := dest, hsr := some s.ring.hsrSeq.toNat } } : Sent)]
      else []) ++ s.sent = t.sent
    let onlyJack := fun (t : State) => { t with pair := s.pair, sent := s.sent, ring := { t.ring with hsrSeq := s.ring.hsrSeq } } = follow s
    (jackServes s = true →
      (∀ x l, x.port = 4 → frameOk 0x41 l = true → fld l 2 2 = 24 → (readJack l).side = 1 ∨ (readJack l).side = 2 →
        let f := readJack l
        let answers := fun (t : State) (verdict e : Nat) =>
          frames t .jackAnswer x.src f.num x.src
            { typ := 0x42, pairId := f.pairId, side := f.side, arg := verdict, num := f.num, epoch := e } ∧
          t.pair = s.pair ∧ onlyJack t
        (jackIndex s f.pairId = none → ∃ t, exec (.jackQuery x l) s = .next t ∧ answers t 4 0) ∧
        ∀ i, jackIndex s f.pairId = some i →
          (0xFFFFFFFE ≤ (jackAt s i).epoch → ∃ t, exec (.jackQuery x l) s = .next t ∧ answers t 4 0) ∧
          ((jackAt s i).epoch < 0xFFFFFFFE → (jackAt s i).busy = true → ∃ t, exec (.jackQuery x l) s = .next t ∧ answers t 3 0) ∧
          (∀ g, (jackAt s i).epoch < 0xFFFFFFFE → (jackAt s i).busy = false → (jackAt s i).owner = 3 - f.side →
            (jackAt s i).granted = some g → s.mono < g + 10000000 →
            ∃ t, exec (.jackQuery x l) s = .next t ∧ answers t 2 (jackAt s i).epoch) ∧
          ((jackAt s i).epoch < 0xFFFFFFFE → (jackAt s i).busy = false →
            (jackAt s i).owner ≠ 3 - f.side ∨ (jackAt s i).granted = none →
            ∃ t, exec (.jackQuery x l) s = .next t ∧ (jackAt t i).busy = true ∧ (jackAt t i).querier = f.side ∧
              (jackAt t i).epoch = (jackAt s i).epoch ∧ (jackAt t i).probeNo = ((jackAt s i).probeNo + 1) % 65536 ∧
              frames t .jackProbe 0 (((jackAt s i).probeNo + 1) % 65536) 0x01524D000011
                { typ := 0x43, pairId := f.pairId, side := 3 - f.side, arg := 0, num := ((jackAt s i).probeNo + 1) % 65536,
                  epoch := (jackAt s i).epoch } ∧
              (∀ j, j ≠ i → jackAt t j = jackAt s j) ∧ onlyJack t)) ∧
      (∀ x l i, x.port = 4 → frameOk 0x44 l = true → fld l 2 2 = 24 → jackIndex s (readJack l).pairId = some i → (jackAt s i).busy = true →
        (readJack l).side = 3 - (jackAt s i).querier → (readJack l).num = (jackAt s i).probeNo →
        ∃ t, exec (.jackProbeReply x l) s = .next t ∧ (jackAt t i).busy = false ∧ (∀ j, j ≠ i → jackAt t j = jackAt s j) ∧
          onlyJack t ∧ (jackAt s i).epoch ≤ (jackAt t i).epoch ∧
          ((readJack l).arg = 2 → (jackAt s i).epoch ≤ (readJack l).epoch →
            (jackAt t i).epoch = (readJack l).epoch ∧ (jackAt t i).owner = (readJack l).side ∧ (jackAt t i).grants = (jackAt s i).grants ∧
            frames t .jackAnswer (jackAt s i).replyTo (jackAt s i).queryNo (jackAt s i).replyTo
              { typ := 0x42, pairId := (jackAt s i).pairId, side := (jackAt s i).querier, arg := 2, num := (jackAt s i).queryNo,
                epoch := (readJack l).epoch }) ∧
          ((readJack l).arg ≠ 2 →
            (jackAt t i).epoch = max (max (jackAt s i).epoch (jackAt s i).known) (readJack l).epoch + 1 ∧
            (jackAt t i).owner = (jackAt s i).querier ∧ (jackAt t i).granted = some s.mono ∧
            (jackAt t i).grants = satInc 16 (jackAt s i).grants ∧
            frames t .jackAnswer (jackAt s i).replyTo (jackAt s i).queryNo (jackAt s i).replyTo
              { typ := 0x42, pairId := (jackAt s i).pairId, side := (jackAt s i).querier, arg := 1, num := (jackAt s i).queryNo,
                epoch := max (max (jackAt s i).epoch (jackAt s i).known) (readJack l).epoch + 1 })) ∧
      (∀ i, (jackAt s i).busy = true →
        ∃ t, exec (.jackProbeTimeout i) s = .next t ∧ (jackAt t i).busy = false ∧ (jackAt t i).owner = (jackAt s i).querier ∧
          (jackAt t i).epoch = max (jackAt s i).epoch (jackAt s i).known + 1 ∧ (jackAt t i).granted = some s.mono ∧
          (∀ j, j ≠ i → jackAt t j = jackAt s j) ∧ onlyJack t) ∧
      (∀ x l i, x.port = 4 → frameOk 0x45 l = true → fld l 2 2 = 24 → (readJack l).side = 1 ∨ (readJack l).side = 2 →
        jackIndex s (readJack l).pairId = some i →
        ∃ t, exec (.jackNotify x l) s = .next t ∧ (jackAt s i).epoch ≤ (jackAt t i).epoch ∧
          ((readJack l).side = 1 → (jackAt t i).seenA = true) ∧ ((readJack l).side = 2 → (jackAt t i).seenB = true) ∧
          ((readJack l).arg = 2 → (jackAt s i).epoch ≤ (readJack l).epoch →
            (jackAt t i).epoch = (readJack l).epoch ∧ (jackAt t i).owner = (readJack l).side) ∧
          frames t .jackAck x.src (readJack l).num x.src
            { typ := 0x46, pairId := (readJack l).pairId, side := (readJack l).side, arg := 0, num := (readJack l).num,
              epoch := (jackAt t i).epoch } ∧
          (∀ j, j ≠ i → jackAt t j = jackAt s j) ∧ onlyJack t)) ∧
    (s.mono < s.pair.client.lastAnswer + 1500000000 → exec (.jackReachableExpiry none) s = .next (follow s)) ∧
    (s.pair.client.lastAnswer + 1500000000 ≤ s.mono →
      ∃ t, exec (.jackReachableExpiry none) s = .next t ∧ t.pair.client.reachable = false ∧ t.pair.jack = s.pair.jack ∧
        { t with pair := s.pair } = follow s) ∧
    (∀ i side, i < s.pair.jack.length → ∃ t, exec (.jackReachableExpiry (some (i, side))) s = .next t ∧
      jackAt t i = (if side = 1 then { jackAt s i with seenA := false } else { jackAt s i with seenB := false }) ∧
      (∀ j, j ≠ i → jackAt t j = jackAt s j) ∧ { t with pair := s.pair } = follow s)

/-- A release instant of a task that has arrived, in RUN, STOP or HOLD and first among those that have, counts its release
index, in RUN releases a task without a cycle, and is an overrun of one with a cycle: skipped and counted, or at level 1
held. A released task that no higher task and no switch holds back with nothing a hoist brought for it freezes its snapshot
once: words 0 and 1 of each entry it reads; a word it cannot read halts. Its write point, before its limit and with no
higher task in progress, halts where its stores meet an uncorrectable word, and else assigns the slots of its own output
image, posts each, counts the cycle with its response time, and ends it. CORE_WAKE runs the core clock, CLOCK_GATE ends one
that is neither requested nor held, and SYS_CLKHOLD keeps bits 5:2, whose clocks run once the PLLs are locked. Where the
rules leave it open, it follows the model's choices or readings of assumptions 14, 24, 73, 74, 77, 78 and 252. Follows
05_program_cycle.md, 01_station_overview.md. -/
def Obligations.CyclesAreReleasedFrozenAndPosted : Prop :=
  ∀ s : State,
    (∀ n, instantArrives s n = false → ∃ t, exec (.releaseInstant n) s = .next t ∧ t.rest = s.rest) ∧
    (∀ n, instantArrives s n = true → s.pair.cmd = none → s.pair.accepted = none → s.cyc.pendingReq = none →
      ∃ t, exec (.releaseInstant n) s = .next t ∧ (taskAt t n).nextM = (taskAt s n).nextM + 1 ∧
        (∀ k, k ≠ n → (taskAt t k).nextM = (taskAt s k).nextM ∧ (taskAt t k).cycleAt = (taskAt s k).cycleAt) ∧
        (s.sys.mode = .run → s.hoist.skipNext.contains (n, (taskAt s n).nextM) = false →
          ((taskAt s n).cycleAt = none →
            (taskAt t n).cycleAt = some (nextRelease s n) ∧ (taskAt t n).cycleM = (taskAt s n).nextM ∧ (taskAt t n).started = false) ∧
          (∀ t0, (taskAt s n).cycleAt = some t0 → (taskAt t n).cycleAt = some t0 ∧ t.cyc.flags.getLsbD 0 = true ∧
            (s.sys.level ≠ 1 → (taskAt t n).overruns = satInc 32 (taskAt s n).overruns ∧
              (taskAt t n).skipped = (taskAt s n).skipped + 1) ∧
            (s.sys.level = 1 → (taskAt s n).held = none → (taskAt t n).held = some (taskAt s n).nextM) ∧
            (s.sys.level = 1 → (taskAt s n).held ≠ none → (taskAt t n).overruns = satInc 32 (taskAt s n).overruns))) ∧
        (s.sys.mode ≠ .run → (taskAt t n).cycleAt = (taskAt s n).cycleAt)) ∧
    (∀ n t0, (taskAt s n).cycleAt = some t0 → (taskAt s n).started = false →
      (heldBack s n = true ∨ switchHolds s = true → ∃ t, exec (.taskStart n) s = .next t ∧ t.rest = s.rest) ∧
      (heldBack s n = false → switchHolds s = false → s.sys.mode ≠ .halted → s.hoist.memDue.any (memDueAt s n) = false →
        (∀ p, (blockRead .cpu (freezeErrors s n) s).1 = some p → railsOn s = true → s.sys.mode ≠ .harbour →
          ∃ t, exec (.taskStart n) s = .next t ∧ t.sys.mode = .halted) ∧
        (freezeErrors s n = [] →
      ∃ t, exec (.taskStart n) s = .next t ∧ (taskAt t n).started = true ∧
        (taskAt t n).snapshot = (taskAt s n).reads.map (fun i => (i, frozen s n i)) ∧
        (taskAt t n).startLate = max (taskAt s n).startLate ((s.mono - t0) / 1000) ∧ (taskAt t n).runGen = s.olc.gen ∧
        (∀ k, k ≠ n → taskAt t k = taskAt s k) ∧ t.log = s.log ∧ t.sent = s.sent))) ∧
    (∀ (w : WritePoint), cycleExpired s w.task = true → ∃ t, exec (.taskWritePoint w) s = .next t ∧ t.rest = s.rest) ∧
    (∀ (w : WritePoint) t0, (taskAt s w.task).cycleAt = some t0 → (taskAt s w.task).started = true →
      heldBack s w.task = false → instantMissed s = false → cycleExpired s w.task = false →
      ((forAll w.stores (storeInstance w.task) s).sys.mode = .halted →
        ∃ t, exec (.taskWritePoint w) s = .next t ∧ t.sys.mode = .halted) ∧
      ((forAll w.stores (storeInstance w.task) s).sys.mode ≠ .halted →
      let n := w.task
      let posts := assign w.slots (taskAt s n).slots
      ∃ t, exec (.taskWritePoint w) s = .next t ∧ (taskAt t n).slots = posts ∧
        t.cyc.posted = posts.foldl (fun l x => put x.1 x.2 l) s.cyc.posted ∧
        (taskAt t n).cycles = satInc 32 (taskAt s n).cycles ∧
        (taskAt t n).runLast = min ((s.mono - t0) / 1000) (satMax 32) ∧
        ((taskAt s n).held = none → (taskAt t n).cycleAt = none ∧ (taskAt t n).started = false) ∧
        (∀ x ∈ posts, (posts.map (·.1)).Nodup → sigDefined s x.1 = true → (sigEntry s x.1).forced = false →
          sourceItem s (sigEntry s x.1) = none → (sigEntry t x.1).value = x.2.1) ∧
        ((taskAt s n).skipped = 0 → (taskAt t n).consec = 0) ∧
        (s.sys.level ≠ 1 → (taskAt s n).skipped ≠ 0 → (taskAt s n).escalate ≠ 0 →
          (taskAt s n).escalate ≤ min ((taskAt s n).consec + 1) 255 → t.sys.mode = .halted))) ∧
    (railsOn s = true →
      ∃ t, exec .coreWake s = .next t ∧ t.sys.coreAwake = true ∧ (s.sys.pll = true → Clock.core ∈ t.sys.run) ∧
        { t with sys := { t.sys with coreAwake := s.sys.coreAwake } }.rest = s.rest) ∧
    (∀ c, clockRequested s c = false → clockHeld s c = false → Steady s →
      ∃ t, exec (.clockGate c) s = .next t ∧ c ∉ t.sys.run ∧ (∀ d, d ≠ c → (d ∈ t.sys.run ↔ d ∈ s.sys.run)) ∧
        { t with sys := { t.sys with run := s.sys.run } } = s) ∧
    (∀ v, ∃ t, exec (.sysClkholdWrite v) s = .next t ∧ t.sys.clkHold = v &&& 0x3C ∧
      (s.pwr.railsOff = false → s.sys.pll = true → ∀ c, v.getLsbD c.bit = true → c ∈ t.sys.run) ∧
      { t with sys := { t.sys with clkHold := s.sys.clkHold } }.rest = s.rest)

/-- A SOLO module with nothing pending accepts RUN in STOP or HOLD without CONFIG_ERROR, STOP in RUN or HOLD, and HOLD as
commissioning allows; a request in a wrong mode, with CONFIG_ERROR, or while one is pending is refused with its cause in a
record; an undefined code too. The accepted change takes effect once its instant has come: RUN from STOP with a new release
epoch, under which each task's next release is the first not past, STOP and, SOLO in commissioning, HOLD while the cycles in
progress run on. A lockstep difference, a trap, a cycle past the backstop outside level 1 and one at the watchdog's limit at
level 1 halt: HALTED without role, no cycle in progress, the high-side switches open, the cause kept and recorded. Where the
rules leave it open, it follows the model's choices or readings of assumptions 14, 71 and 72. Follows 05_program_cycle.md. -/
def Obligations.ModesAndHalts : Prop :=
  ∀ s : State,
    (∀ r, s.cyc.pendingReq = none → s.pair.cmd = none → s.sys.role = .solo → s.olc.phase = .idle →
      let pends := fun (t : State) (code due : Nat) =>
        t.cyc = { s.cyc with pendingReq := some { code := code, sdk := r == .sdk, byPair := false, due := due } } ∧
        { t with cyc := s.cyc } = follow s
      (s.sys.mode = .stop ∨ s.sys.mode = .hold → s.cyc.configError = false →
        ∃ t, exec (.modeReqRun r) s = .next t ∧ pends t 1 s.mono) ∧
      (s.sys.mode = .run ∨ s.sys.mode = .hold → ∃ t, exec (.modeReqStop r) s = .next t ∧ pends t 2 (nextT0 s)) ∧
      (s.sys.mode = .stop ∨ s.sys.mode = .run → s.cyc.configError = false → (hdr s).flags.testBit 1 = true →
        ∃ t, exec (.modeReqHold r) s = .next t ∧ pends t 3 (nextT0 s))) ∧
    (∀ r, let refused := fun (t : State) (code cause : Nat) =>
        t.cyc.flags.getLsbD (if cause = 3 then 2 else 1) = true ∧ t.cyc.pendingReq = s.cyc.pendingReq ∧
        t.log = (raise .modeRefused .notice 0xFF code s.sys.mode.code (requesterCode r + 256 * cause) s).log ∧
        { t with cyc := s.cyc, log := s.log } = follow s
      (s.cyc.pendingReq ≠ none →
        (∃ t, exec (.modeReqRun r) s = .next t ∧ refused t 1 3) ∧ (∃ t, exec (.modeReqStop r) s = .next t ∧ refused t 2 3) ∧
        (∃ t, exec (.modeReqHold r) s = .next t ∧ refused t 3 3) ∧
        (∀ code, code = 0 ∨ 5 ≤ code → ∃ t, exec (.modeReqUndefined code r) s = .next t ∧ refused t code 3)) ∧
      (s.cyc.pendingReq = none → s.pair.cmd = none →
        (s.sys.mode ≠ .stop → s.sys.mode ≠ .hold → ∃ t, exec (.modeReqRun r) s = .next t ∧ refused t 1 1) ∧
        (s.sys.mode = .stop → s.cyc.configError = true →
          (∃ t, exec (.modeReqRun r) s = .next t ∧ refused t 1 2) ∧ (∃ t, exec (.modeReqHold r) s = .next t ∧ refused t 3 2)) ∧
        (s.sys.mode ≠ .run → s.sys.mode ≠ .hold → ∃ t, exec (.modeReqStop r) s = .next t ∧ refused t 2 1) ∧
        (∀ code, code = 0 ∨ 5 ≤ code → ∃ t, exec (.modeReqUndefined code r) s = .next t ∧ refused t code 4))) ∧
    (∀ r, s.pair.cmd = none → s.pair.accepted = none → s.cyc.pendingReq = some r → r.byPair = false → s.mono < r.due →
      ∃ t, exec .modeChange s = .next t ∧ t.rest = s.rest) ∧
    (∀ r, s.pair.cmd = none → s.pair.accepted = none → s.cyc.pendingReq = some r → r.byPair = false → r.due ≤ s.mono →
      (r.code = 1 → s.sys.mode = .stop →
        ∃ t, exec .modeChange s = .next t ∧ t.sys.mode = .run ∧ t.cyc.pendingReq = none ∧
          t.cyc.epoch = some (((s.mono + 1999999) / 1000000 * 1000000 : Nat) : Int) ∧
          t.cyc.tasks = s.cyc.tasks.map (fun x =>
            { x with nextM := x.firstIndex (((s.mono + 1999999) / 1000000 * 1000000 : Nat) : Int) s.mono, held := none }) ∧
          t.key = s.key) ∧
      (∀ m, (r.code = 2 ∧ m = Mode.stop) ∨ (r.code = 3 ∧ m = .hold ∧ holdAllowed s = true) → s.sys.mode = .run →
        ∃ t, exec .modeChange s = .next t ∧ t.sys.mode = m ∧ t.cyc.pendingReq = none ∧ t.cyc.epoch = s.cyc.epoch ∧
          t.cyc.tasks = s.cyc.tasks.map (fun x => { x with held := none }) ∧
          t.cyc.draining = s.cyc.tasks.any (fun x => x.cycleAt.isSome) ∧ t.sys.role = s.sys.role) ∧
      (r.code = 3 → holdAllowed s = false →
        ∃ t, exec .modeChange s = .next t ∧ t.sys.mode = s.sys.mode ∧ t.cyc = { s.cyc with pendingReq := none })) ∧
    (cyclesRun s = false →
      ∃ t, exec .modeDrainComplete s = .next t ∧ t.cyc.draining = false ∧ t.cyc.tasks = s.cyc.tasks ∧ { t with cyc := s.cyc }.rest = s.rest) ∧
    (railsOn s = true → s.sys.mode ≠ .harbour → s.sys.mode ≠ .halted →
      let halted := fun (t : State) (cause : Nat) => t.sys.mode = .halted ∧ t.sys.role = .none ∧
        t.cyc.haltCause = cause ∧ t.cyc.haltPower = s.log.power ∧ t.cyc.pendingReq = none ∧
        (∀ x ∈ t.cyc.tasks, x.cycleAt = none ∧ x.held = none) ∧ (∀ f ∈ t.safe.funcs, f.hsOn = false) ∧
        s.log.nextSeq < t.log.nextSeq ∧ t.key = s.key ∧ t.rtc = s.rtc
      (∃ t, exec .lockstep s = .next t ∧ halted t 3) ∧ (∀ task, ∃ t, exec (.trap task) s = .next t ∧ halted t 4) ∧
      (∀ n t0, (taskAt s n).cycleAt = some t0 →
        (s.sys.level ≠ 1 → t0 + min (10 * (taskAt s n).period * 1000000) 2000000000 < s.mono →
          ∃ t, exec (.backstop n) s = .next t ∧ halted t 5) ∧
        (s.sys.level = 1 → t0 + ((taskAt s n).period + (taskAt s n).wdMargin) * 1000000 ≤ s.mono →
          ∃ t, exec (.watchdog n) s = .next t ∧ halted t 7))) ∧
    (∀ n, cycleExpired s n = false → exec (.backstop n) s = .next (follow s) ∧ exec (.watchdog n) s = .next (follow s)) ∧
    (∀ n, (s.sys.level = 1 → exec (.backstop n) s = .next (follow s)) ∧ (s.sys.level ≠ 1 → exec (.watchdog n) s = .next (follow s)))

/-- A permitted SET of a defined entry waits, any other sets FORCE_REFUSED; releases wait, each for the next 100 µs boundary.
Before it nothing acts; from it on a waiting force of an entry that has none, with a slot free, gives it the value with
GOOD_FORCED and sets the entry's own aside, with a record; a release gives back what was set aside. A block's mapping of
rows of a bank but B10 that it and the cores own is kept and answered OK, any other is counted and answered ACCESS_OWNER;
its STOP request is as the mode request; SDK_MONO returns the 64-bit time. Where the rules leave it open, it follows the
model's choices or readings of assumptions 75 and 76. Follows 05_program_cycle.md. -/
def Obligations.ForcesAndNativeCalls : Prop :=
  ∀ s : State,
    (forcePermitted s = true → s.cyc.forceSel ≠ 0 → sigDefined s s.cyc.forceSel = true → s.cyc.forces.length < 256 →
      ∃ t, exec .forceSet s = .next t ∧ t.cyc = { s.cyc with forceOps := s.cyc.forceOps ++ [((s.mono / 100000 + 1) * 100000, .put s.cyc.forceSel s.cyc.forceVal)] } ∧
        { t with cyc := s.cyc } = follow s) ∧
    (forcePermitted s = false ∨ s.cyc.forceSel = 0 ∨ sigDefined s s.cyc.forceSel = false →
      ∃ t, exec .forceSet s = .next t ∧ t.cyc = { s.cyc with flags := flag 3 s.cyc.flags } ∧ { t with cyc := s.cyc } = follow s) ∧
    (∃ t, exec .forceRelease s = .next t ∧ t.cyc = { s.cyc with forceOps := s.cyc.forceOps ++ [((s.mono / 100000 + 1) * 100000, .release s.cyc.forceSel)] } ∧
      { t with cyc := s.cyc } = follow s) ∧
    (∃ t, exec .forceReleaseAll s = .next t ∧ t.cyc = { s.cyc with forceOps := s.cyc.forceOps ++ [((s.mono / 100000 + 1) * 100000, .releaseAll)] } ∧
      { t with cyc := s.cyc } = follow s) ∧
    (∀ b op, s.cyc.forceOps = [(b, op)] → s.mono < b → ∃ t, exec .forceEffect s = .next t ∧ t.cyc.forceOps = s.cyc.forceOps ∧ t.rest = s.rest) ∧
    (∀ b i v, s.cyc.forceOps = [(b, .put i v)] → b ≤ s.mono → look i s.cyc.forces = none → s.cyc.forces.length < 256 → sigDefined s i = true →
      ∃ t, exec .forceEffect s = .next t ∧ t.cyc.forceOps = [] ∧ (sigEntry t i).value = v ∧ (sigEntry t i).quality = qForced ∧
        (sigEntry t i).forced = true ∧ (look i t.cyc.forces).map (·.value) = some v ∧ t.hoist.forcesNew = true ∧
        (sourceItem s (sigEntry s i) = none →
          look i t.cyc.forces = some { value := v, aside := ((sigEntry s i).value, (sigEntry s i).quality) }) ∧
        s.log.nextSeq < t.log.nextSeq) ∧
    (∀ b i f, s.cyc.forceOps = [(b, .release i)] → b ≤ s.mono → look i s.cyc.forces = some f → sigDefined s i = true →
      sourceItem s (sigEntry s i) = none →
      ∃ t, exec .forceEffect s = .next t ∧ t.cyc.forceOps = [] ∧ (sigEntry t i).value = f.aside.1 ∧ (sigEntry t i).forced = false ∧
        look i t.cyc.forces = none ∧ s.log.nextSeq < t.log.nextSeq) ∧
    (∀ k b row count,
      ((nativeAt s k).banks.testBit b = true → b ≠ 10 → (bankAt s b).owner = .cpu → row + count ≤ 1024 →
        ∃ t, exec (.sdkBufMap k b row count) s = .next t ∧
          t.cyc = { s.cyc with maps := s.cyc.maps ++ [{ native := k, bank := b, row := row, count := count }] } ∧
          t.sent = { kind := .sdk, unit := k, num := 0, body := [] } :: s.sent ∧ { t with cyc := s.cyc, sent := s.sent } = follow s) ∧
      ((nativeAt s k).banks.testBit b = false ∨ b = 10 ∨ (bankAt s b).owner ≠ .cpu ∨ 1024 < row + count →
        ∃ t, exec (.sdkBufMap k b row count) s = .next t ∧ t.cyc.maps = s.cyc.maps ∧ t.cyc.refusals = satInc 32 s.cyc.refusals ∧
          t.cyc.flags.getLsbD 4 = true ∧ t.sent = { kind := .sdk, unit := k, num := 2, body := [] } :: s.sent ∧
          { t with cyc := s.cyc, sent := s.sent } = follow s)) ∧
    (∀ k, s.cyc.pendingReq = none → s.pair.cmd = none → s.sys.role = .solo → s.olc.phase = .idle → s.sys.mode = .run →
      ∃ t, exec (.sdkRequestStop k) s = .next t ∧ t.cyc = { s.cyc with pendingReq := some { code := 2, sdk := true, byPair := false, due := nextT0 s } } ∧
        t.sent = { kind := .sdk, unit := k, num := 0, body := [] } :: s.sent ∧ { t with cyc := s.cyc, sent := s.sent } = follow s) ∧
    (∀ k, ∃ t, exec (.sdkMono k) s = .next t ∧ t.sent = { kind := .sdk, unit := k, num := 0, body := leBytes 8 s.mono } :: s.sent ∧
      { t with sent := s.sent } = follow s)

/-- COLD_START, due after logic power was absent, and a RESTART in STOP or HALTED run a start: clocks that do not lock end it in
HALTED with CLOCK_FAIL, a failed code test in HALTED with MEM_CODER_FAIL, an empty socket K in STOP as SOLO with
CONFIG_ERROR and KEY_ABSENT one that leaves while it is read likewise with KEY_REMOVED and a carrier of another size with
KEY_UNREADABLE; a cold start counts the power cycle and begins the time base at 0, a restart does not count. A RESTART in
another mode is refused. With the rails lost in harbour watch the wake is such a start; a ROUND wake switches PWRON on,
settles, and records the source. Where the rules leave it open, it follows the model's choices or readings of assumptions
45, 227 and 230. Follows 02_burgee_and_start.md, 05_program_cycle.md. -/
def Obligations.StartsEndInTheirResult : Prop :=
  ∀ (s : State) (x : StartIn),
    let ended := fun (t : State) (power : Nat) =>
      (x.locked = false →
        t.sys.mode = .halted ∧ t.sys.role = .none ∧ t.cyc.startResult = clockFail ∧ t.start.phase = .idle ∧ t.sys.pll = false) ∧
      (x.locked = true → x.coder = false →
        t.sys.mode = .halted ∧ t.sys.role = .none ∧ t.cyc.startResult = memCoderFail ∧
          t.log.accepting = true ∧ (x.domainLost = false → t.log.power = power)) ∧
      (∀ r, x.locked = true → x.coder = true → x.domainLost = false → x.rowFails = [] → s.mem.weak = [] → s.mem.weakDue = [] →
        ((x.key.getD s.key).present = false ∧ r = keyAbsent) ∨
          ((x.key.getD s.key).present = true ∧ x.removed = true ∧ r = keyRemoved) ∨
          ((x.key.getD s.key).present = true ∧ x.removed = false ∧ (x.key.getD s.key).capacityMB ≠ 64 ∧ r = keyUnreadable) →
        t.sys.mode = .stop ∧ t.sys.role = .solo ∧ t.sys.level = 0 ∧ t.cyc.configError = true ∧
          t.cyc.startResult = r ∧ t.start.accepted = false ∧ t.start.phase = .idle ∧
          t.key = (if x.removed then { x.key.getD s.key with present := false } else x.key.getD s.key) ∧
          t.mem.cells = [] ∧ t.que.held = [] ∧ t.cyc.forces = [] ∧ t.eng.loops = [] ∧ t.mono = 0 ∧ t.log.accepting = true ∧
          t.log.power = power ∧ t.sec.signers = s.sec.signers ∧ t.pending = s.pending)
    (coldStartDue s = true → ∃ t, exec (.coldStart x) s = .next t ∧ ended t (satInc 24 s.log.power)) ∧
    (coldStartDue s = false → exec (.coldStart x) s = .next (follow s)) ∧
    (∀ r, s.cyc.pendingReq = none → s.sys.mode = .stop ∨ s.sys.mode = .halted →
      ∃ t, exec (.modeReqRestart r x) s = .next t ∧ ended t s.log.power) ∧
    (∀ r, s.cyc.pendingReq = none → s.sys.mode ≠ .stop → s.sys.mode ≠ .halted →
      ∃ t, exec (.modeReqRestart r x) s = .next t ∧ t.sys.mode = s.sys.mode ∧
        t.log = (raise .modeRefused .notice 0xFF 4 s.sys.mode.code (requesterCode r + 256) s).log) ∧
    (s.sys.mode = .harbour →
      (∀ w, s.pwr.wakeWait.find? (fun v => wakeAction s v == 2) = some w →
        (s.pwr.retentionLost = true → ∃ t, exec (.harbourWake x) s = .next t ∧ ended t (satInc 24 s.log.power))) ∧
      (∀ w, s.pwr.wakeWait.find? (fun v => wakeAction s v == 2) = none →
        s.pwr.wakeWait.find? (fun v => wakeAction s v == 1) = some w → s.pwr.retentionLost = false → s.pwr.hbr = .asleep →
        ∃ t, exec (.harbourWake x) s = .next t ∧ t.pwr.hbr = .settling ∧ t.pwr.pwrOnState = true ∧ t.pwr.wakeWait = [] ∧
          t.pwr.lastAction = 1 ∧ t.pwr.lastSource = w.code ∧ t.sys.mode = .harbour ∧ s.log.nextSeq < t.log.nextSeq))

/-- At the end of the link wait a SOLO key takes SOLO and a Jack's JACK with START_RESULT OK, in RUN with AUTOSTART and else in
STOP, and a pair side listens. At the end of listening a side that heard no active queries the Jack, one that heard another
set's active is STANDBY in STOP with the mismatch, and one that heard its active joins as STANDBY, STALE, with the active's
release epoch; the number of its releases since then is a free value. A key that leaves during a start ends it in STOP,
SOLO, CONFIG_ERROR with KEY_REMOVED; in service KEY_OUT is set and recorded once. A bad copy's repair removes it from the
list, leaves the good copy's bytes where it succeeds, and is recorded by its end. Where the rules leave it open, it follows
the model's choices or readings of assumptions 44, 45, 46, 229 and 241. Follows 02_burgee_and_start.md,
09_pair_and_takeover.md. -/
def Obligations.RolesAreTakenAndTheKeyLeaves : Prop :=
  ∀ s : State,
    (s.start.phase = .linkWait →
      (∀ role, ((hdr s).kind = 0 ∧ role = Role.solo) ∨ ((hdr s).kind = 3 ∧ role = .jack) →
        ∃ t, exec .linkWaitEnd s = .next t ∧ t.sys.role = role ∧ t.cyc.startResult = 0 ∧ t.cyc.configError = false ∧
          t.start.phase = .idle ∧ t.sys.level = (hdr s).level ∧ s.log.nextSeq < t.log.nextSeq ∧
          ((hdr s).flags.testBit 0 = true → t.sys.mode = .run ∧ t.cyc.epoch = some (((s.mono + 1999999) / 1000000 * 1000000 : Nat) : Int)) ∧
          ((hdr s).flags.testBit 0 = false → t.sys.mode = .stop)) ∧
      ((hdr s).kind = 1 ∨ (hdr s).kind = 2 →
        ∃ t, exec .linkWaitEnd s = .next t ∧ t.start.phase = .listening ∧ t.start.heard = [] ∧ t.pair.st = .listen ∧
          t.sys.role = s.sys.role ∧ t.sys.mode = s.sys.mode)) ∧
    (s.start.phase = .listening →
      ((∀ p ∈ s.start.heard, p.role ≠ 2) →
        ∃ t, exec .roleDiscoveryListenEnd s = .next t ∧ t.start.phase = .querying ∧ t.pair.st = .query ∧
          t.pair.client.reason = 1 ∧ t.pair.client.waiting = true ∧ t.pair.client.attempts = 1) ∧
      (∀ p, s.start.heard = [p] → p.role = 2 →
        (p.digest ≠ s.olc.digest ∨ p.gen ≠ s.olc.gen →
          ∃ t, exec .roleDiscoveryListenEnd s = .next t ∧ t.sys.role = .standby ∧ t.sys.mode = .stop ∧ t.pair.mismatch = true ∧
            t.cyc.startResult = 13 ∧ t.start.phase = .idle) ∧
        (p.side ≠ s.pair.side → p.digest = s.olc.digest → p.gen = s.olc.gen →
          ∃ (t : State) (k : Nat), exec .roleDiscoveryListenEnd s = .next t ∧ t.sys.role = .standby ∧ t.sys.stale = true ∧
            t.pair.st = .standby ∧ t.pair.partner = some p ∧ t.pair.epoch = max s.pair.epoch p.epoch ∧ t.cyc.startResult = 0 ∧
            t.start.phase = .idle ∧
            (p.nextT0 ≠ 0 → t.cyc.epoch = some ((p.nextT0 : Int) + pairOffset s
              - (((taskAt s 0).offset + k * (taskAt s 0).period) * 1000000 : Nat)))))) ∧
    (startRuns s = true →
      ∃ t, exec .keyRemoved s = .next t ∧ t.key.present = false ∧ t.sys.mode = .stop ∧ t.sys.role = .solo ∧
        t.cyc.configError = true ∧ t.cyc.startResult = keyRemoved ∧ t.start.phase = .idle ∧ t.start.accepted = false) ∧
    (startRuns s = false →
      ∃ t, exec .keyRemoved s = .next t ∧ t.key = { s.key with present := false } ∧ { t with key := s.key } = follow s) ∧
    (keySensed s = true →
      ∃ t, exec .keyOut s = .next t ∧ t.key = { s.key with present := false } ∧ t.start.keyOut = true ∧ t.sys.mode = s.sys.mode ∧
        (s.start.keyOut = false → t.sec.flags.getLsbD 8 = true ∧ s.log.nextSeq < t.log.nextSeq) ∧
        (s.start.keyOut = true → s.sys.mode ≠ .run → s.olc.phase = .idle → t.log = s.log)) ∧
    (∀ b rest off l ok, s.sys.mode = .run → s.olc.phase = .idle → keyWritable s = true → s.start.bad = b :: rest →
      repairOf s b = some (off, l) →
      ∃ t, exec (.keyCopyRepair ok) s = .next t ∧ t.start.bad = rest ∧
        (ok = true → t.start.failed = s.start.failed ∧ t.log = (raise .keyCopyRepaired .notice 0xFF 0 0 0 s).log ∧ (Key.wf s = true → keyBytes t off l.length = l)) ∧
        (ok = false → t.start.failed = s.start.failed ++ [b] ∧
          t.log = (raise .keyCopyRepairFailed .fault 0xFF 0 0 0 s).log) ∧
        { t with start := s.start, key := s.key, log := s.log, free := s.free } = follow s)

/-- While P4 carries the plant service ARP and ICMP to the module's address in a taken VLAN are answered; a connection in one
takes the lowest closed session as a handshake, and a fifth is refused and counted. A handshake that agrees on R476's suites
is sent the device certificate; it ends in an open session with the permissions and anchor its certificate gives, or is
counted as failed and closes; 120 s without a record and closing close a session, and no less than 120 s does. A request of
a service on an open session that fails the key, permission, LOCKED or form condition is answered with that status and no
body, counted and flagged, and has no other effect, whichever of the services it is; an unknown service is a bad request.
Where the rules leave it open, it follows the model's choices or readings of assumptions 11, 14, 200 and 201. Follows
19_plant_port_and_access.md. -/
def Obligations.ThePlantPortAdmits : Prop :=
  ∀ s : State,
    (plantUp s = true → ∀ vid, vidTaken s vid = true →
      (∀ mac ip, ∃ t, exec (.arpRequest vid mac ip s.plant.ipv4) s = .next t ∧ { t with sent := s.sent } = follow s ∧
        t.sent = { kind := .arp, unit := 4, num := plantTag s,
                   eth := some { ports := [4], dest := mac, tag := if s.plant.vid = 0 then none else some 5, vid := s.plant.vid, typ := 0x0806 },
                   body := beBytes 2 1 ++ beBytes 2 0x0800 ++ [6, 4] ++ beBytes 2 2 ++ beBytes 6 Config.moduleMac
                     ++ beBytes 4 s.plant.ipv4 ++ beBytes 6 mac ++ beBytes 4 ip ++ List.replicate 18 0 } :: s.sent) ∧
      (∀ body, ∃ t, exec (.icmpEcho vid s.plant.ipv4 body) s = .next t ∧ { t with sent := s.sent } = follow s ∧
        t.sent = { kind := .icmp, unit := 4, num := plantTag s, body := body } :: s.sent)) ∧
    (∀ p, plantUp s = false ∨ vidTaken s p.vid = false → exec (.plantConnect p) s = .next (follow s)) ∧
    (plantUp s = true → ∀ p, vidTaken s p.vid = true → s.plant.sessions.length = 4 →
      (∀ k, k < 4 → (sessionAt s k).st = 0 → (∀ j, j < k → (sessionAt s j).st ≠ 0) →
        ∃ t, exec (.plantConnect p) s = .next t ∧ sessionAt t k = { st := 1, ip := p.ip, mac := p.mac, heardAt := s.mono } ∧
          (∀ j, j ≠ k → sessionAt t j = sessionAt s j) ∧ { t with plant := s.plant } = follow s) ∧
      ((∀ j, j < 4 → (sessionAt s j).st ≠ 0) →
        ∃ t, exec (.plantConnect p) s = .next t ∧ t.plant.sessions = s.plant.sessions ∧
          t.plant.refused = satInc 32 s.plant.refused ∧ t.plant.flags.getLsbD 1 = true ∧ { t with plant := s.plant } = follow s)) ∧
    (∀ k c, (sessionAt s k).st = 1 →
      ∃ t, exec (.plantHandshake k c) s = .next t ∧ (∀ j, j ≠ k → sessionAt t j = sessionAt s j) ∧
        (s.rtc.valid = false → t.sec.flags.getLsbD 7 = true) ∧
        (tlsAgrees s c = none → t.sent = s.sent ∧ admits s c = none) ∧
        (∀ suite, tlsAgrees s c = some suite →
          t.sent = { kind := .deviceCert, unit := k, num := suite, body := deviceCert s, eth := some (plantEth s (sessionAt s k).mac) } :: s.sent) ∧
        (∀ x, admits s c = some x → (sessionAt t k).st = 2 ∧ (sessionAt t k).perms = x.1 ∧ (sessionAt t k).anchor = x.2 ∧ (sessionAt t k).heardAt = s.mono ∧
          (sessionAt t k).noKey = !s.start.accepted ∧ t.plant.handshakes = satInc 32 s.plant.handshakes) ∧
        (admits s c = none → sessionAt t k = {} ∧ t.plant.authFails = satInc 32 s.plant.authFails ∧ t.plant.flags.getLsbD 0 = true)) ∧
    (∀ k, s.mono < (sessionAt s k).heardAt + 120000000000 → exec (.plantIdleTimeout k) s = .next (follow s)) ∧
    (∀ k, ((sessionAt s k).heardAt + 120000000000 ≤ s.mono → ∃ t, exec (.plantIdleTimeout k) s = .next t ∧ sessionAt t k = {} ∧ (∀ j, j ≠ k → sessionAt t j = sessionAt s j) ∧
        { t with plant := s.plant } = follow s) ∧
      (∃ t, exec (.plantSessionClose k) s = .next t ∧ sessionAt t k = {} ∧ (∀ j, j ≠ k → sessionAt t j = sessionAt s j) ∧
        { t with plant := s.plant } = follow s)) ∧
    (∀ (r : PlantReq), sessionReads s r = true →
      let refused := fun (t : State) (service : Nat) (st : PStatus) =>
        t.sent = { kind := .plant, unit := r.session, num := r.number, body := responseHead service r.number 0 st.code, eth := some (plantEth s (sessionAt s r.session).mac) } :: s.sent ∧
        t.plant.refused = satInc 32 s.plant.refused ∧ t.plant.flags.getLsbD 2 = true ∧
        (sessionAt t r.session).served = satInc 32 (sessionAt s r.session).served ∧ (sessionAt t r.session).heardAt = s.mono ∧
        t.plant.respMax = max s.plant.respMax (min r.us (satMax 32)) ∧ { t with plant := s.plant, sent := s.sent } = follow s
      (∀ code, ∃ t, exec (.plantUnknownService code r) s = .next t ∧ refused t code .badRequest) ∧
      ∀ a n x l cert ch tag p off vals key,
        ∀ c ∈ [(Instr.identify r, svcIdentify), (.regRead r a n, svcRegRead), (.regWrite r l x, svcRegWrite), (.logBulk r off n, svcLogBulk),
          (.dictionary r off n, svcDictionary), (.keyRead r tag off n, svcKeyRead), (.olcPiece r p, svcOlcPiece), (.enrol r cert, svcEnrol),
          (.identityGetRequest r, svcIdentity), (.identityInstall r cert key, svcIdentity), (.reauthorise r, svcReauthorise),
          (.messageOpen r ch, svcMessage), (.messageClose r ch, svcMessage), (.messageSend r ch tag vals, svcMessageSend)],
        serviceCheck s c.2 r ≠ .ok → ∃ t, exec c.1 s = .next t ∧ refused t c.2.code (serviceCheck s c.2 r))

/-- A body goes out in responses of up to 65,536 bytes. A granted LOG_BULK answers 32 bytes for each slot asked for, DICTIONARY
its entries, KEY_READ the bytes of a set while the key is there; ENROL stores a signer or is refused with its flag; an
identity request is answered while the private half is held, and a certificate of the identity's key is held and makes it
ENROLLED; REAUTHORISE clears LOCKED unless a source with LOCK or ERASE stands. A session opens and closes message channels;
a message becomes a FILLED entry of the channel's receive queue, which a STANDBY refuses; a waiting entry is delivered to
every session that holds the channel, or retires PORT_OFF. Where the rules leave it open, it follows the model's choices or
readings of assumptions 202, 203, 204 and 205. Follows 19_plant_port_and_access.md, 18_event_recorder.md. -/
def Obligations.ServicesAnswer : Prop :=
  ∀ (s : State) (r : PlantReq), sessionReads s r = true →
    let whole := fun (t : State) (x : Service) (st : PStatus) (body : List Byte) =>
      t.sent = { kind := .plant, unit := r.session, num := r.number, body := responseHead x.code r.number body.length st.code ++ body, eth := some (plantEth s (sessionAt s r.session).mac) } :: s.sent
    let replies := fun (t : State) (x : Service) (st : PStatus) (body : List Byte) =>
      (body.length ≤ bodyMax → whole t x st body) ∧
      let n := (body.length - 1) / bodyMax + 1
      t.sent.drop n = s.sent ∧ t.sent.length = n + s.sent.length ∧
        (∀ y ∈ t.sent.take n, y.kind = .plant ∧ y.unit = r.session ∧ y.num = r.number ∧ y.body.length ≤ 16 + bodyMax) ∧
        ((t.sent.take n).reverse.flatMap fun y => y.body.drop 16) = body
    (∀ first n, serviceCheck s svcLogBulk r = .ok → 1 ≤ n → n ≤ 512 → first + n ≤ slotTotal →
      ∃ t, exec (.logBulk r first n) s = .next t ∧ replies t svcLogBulk .ok ((List.range n).flatMap fun i => slotBytes s (first + i)) ∧
        { t with plant := s.plant, sent := s.sent } = follow s) ∧
    (∀ first n, serviceCheck s svcDictionary r = .ok →
      ∃ t, exec (.dictionary r first n) s = .next t ∧
        replies t svcDictionary .ok ((List.range n).flatMap fun i => Config.dictionaryEntry s.sys.level (first + i)) ∧
        { t with plant := s.plant, sent := s.sent } = follow s) ∧
    (∀ set off n, serviceCheck s svcKeyRead r = .ok → set ≤ 1 → n ≤ 65536 → off + n ≤ setBytes →
      ∃ t, exec (.keyRead r set off n) s = .next t ∧ { t with plant := s.plant, sent := s.sent }.rest = s.rest ∧
        (keyThere s = true → replies t svcKeyRead .ok (keyBytes s (setBase set + off) n)) ∧
        (keyThere s = false → replies t svcKeyRead .refused [])) ∧
    (∀ cert, serviceCheck s svcEnrol r = .ok →
      ∃ t, exec (.enrol r cert) s = .next t ∧ { t with plant := s.plant, sent := s.sent, sec := s.sec, log := s.log } = follow s ∧
        (signerCertOk s cert = false → replies t svcEnrol .refused [] ∧ t.sec.flags.getLsbD 4 = true ∧ t.sec.signers = s.sec.signers) ∧
        (∀ i, signerCertOk s cert = true → enrolledSlot s (fld cert 8 8) = none → emptySigner s = some i → i < s.sec.signers.length →
          replies t svcEnrol .ok [] ∧ (t.sec.signers.getD i {}).id = fld cert 8 8 ∧ (t.sec.signers.getD i {}).st ≠ .empty)) ∧
    (serviceCheck s svcIdentity r = .ok →
      (s.sec.hasKey = true →
        ∃ t body, exec (.identityGetRequest r) s = .next t ∧ replies t svcIdentity .ok body ∧
          { t with plant := s.plant, sent := s.sent, free := s.free } = follow s) ∧
      (s.sec.hasKey = false →
        ∃ t, exec (.identityGetRequest r) s = .next t ∧ replies t svcIdentity .refused [] ∧ t.sec = s.sec) ∧
      (∀ cert, s.sec.hasKey = true →
        ∃ t, exec (.identityInstall r cert (s.sec.idX, s.sec.idY)) s = .next t ∧ replies t svcIdentity .ok [] ∧
          t.sec = { s.sec with identity := .enrolled, cert := .installed cert } ∧ { t with plant := s.plant, sent := s.sent, sec := s.sec } = follow s) ∧
      (∀ cert x y, x ≠ s.sec.idX ∨ y ≠ s.sec.idY →
        ∃ t, exec (.identityInstall r cert (x, y)) s = .next t ∧ replies t svcIdentity .refused [] ∧ t.sec = s.sec)) ∧
    (serviceCheck s svcReauthorise r = .ok →
      (lockStands s = false →
        ∃ t, exec (.reauthorise r) s = .next t ∧ replies t svcReauthorise .ok [] ∧ t.sec = { s.sec with locked := false } ∧
          t.log = (raise .secReauthorised .notice 0xFF 0 0 0 s).log) ∧
      (lockStands s = true →
        ∃ t, exec (.reauthorise r) s = .next t ∧ replies t svcReauthorise .refused [] ∧ t.sec.locked = s.sec.locked ∧
          t.sec.flags.getLsbD 3 = true ∧ t.log = s.log)) ∧
    (∀ c, serviceCheck s svcMessage r = .ok → c < 4 →
      (∃ t, exec (.messageOpen r c) s = .next t ∧ replies t svcMessage .ok [] ∧ c ∈ (sessionAt t r.session).chans ∧
        (∀ d, d ≠ c → (d ∈ (sessionAt t r.session).chans ↔ d ∈ (sessionAt s r.session).chans)) ∧
        { t with plant := s.plant, sent := s.sent } = follow s) ∧
      (∃ t, exec (.messageClose r c) s = .next t ∧ replies t svcMessage .ok [] ∧ c ∉ (sessionAt t r.session).chans ∧
        (∀ d, d ≠ c → (d ∈ (sessionAt t r.session).chans ↔ d ∈ (sessionAt s r.session).chans)) ∧
        { t with plant := s.plant, sent := s.sent } = follow s)) ∧
    (∀ c tag data, serviceCheck s svcMessageSend r = .ok → c < 4 → data.length ≤ 1024 →
      (s.sys.role = .standby →
        ∃ t, exec (.messageSend r c tag data) s = .next t ∧ replies t svcMessageSend .standby [] ∧ t.que = s.que) ∧
      (∀ q, s.sys.role ≠ .standby → queueOf s userPlant c 1 = some q → reserveUsed s q < (queueAt s q).depth →
        assignWaits s q = false → (queueAt s q).disabled = false →
        ∃ t d, exec (.messageSend r c tag data) s = .next t ∧ replies t svcMessageSend .ok [] ∧ t.que.held = s.que.held ++ [d] ∧
          d.queue = q ∧ d.st = .filled ∧ d.frame.id = tag % 2 ^ 16 ∧ d.frame.data = data ∧ d.ts = s.mono ∧
          { t with plant := s.plant, sent := s.sent, que := s.que } = follow s)) ∧
    (∀ c q d, queueOf s userPlant c 0 = some q → s.que.held.find? (fun d => d.queue == q && d.st == .pending) = some d →
      descOf s d.handle = some d → d.expiry = none → d.owner ≠ .program →
      ∃ t, exec (.messageDeliver c) s = .next t ∧
        { t with sent := s.sent, que := s.que, plant := s.plant, ana := s.ana, ser := s.ser } = follow s ∧
        (dropAttempt d.handle s = s → t.ana = s.ana ∧ t.ser = s.ser) ∧
        (channelHolders s c = [] → t.sent = s.sent ∧
          (descOf t d.handle).map (fun e => (e.st, e.result)) = some (.retired, retPortOff)) ∧
        (channelHolders s c ≠ [] →
          (descOf t d.handle).map (fun e => (e.st, e.result)) = some (.retired, retSent) ∧
          ∀ k ∈ channelHolders s c, { kind := .message, unit := k, num := d.frame.id % 2 ^ 16, body := d.frame.data, eth := some (plantEth s (sessionAt s k).mac) } ∈ t.sent ∧
            (k < s.plant.sessions.length → (sessionAt t k).heardAt = s.mono)))

/-- The first piece of a download whose conditions hold begins it and is in the key, also one that a standby is forwarded; later
ones of its session are written while it is received, but not from the plant port of a standby; one whose condition fails is
refused with the condition, one in a later phase or of another session is BUSY. ACTIVATE prepares a staged change that fits
and is refused outside STAGED; ABORT ends a change before its switch. Preparation ends prepared or by its result. At B a
prepared change with no cycle across B, or whose B the sides have agreed, puts the other set in force with its generation
and instances, and its tasks start no sooner than its delay of at least 5 µs; an own instant that does not serve is moved to
the next or left; 60 s after preparation it ends NO_BOUNDARY. A confirmation retry that succeeds ends CONFIRMED, one that
fails is retried at most three times. Where the rules leave it open, it follows the model's choices or readings of
assumptions 90, 91, 92, 93, 94, 95, 96, 253 and 269. Follows 06_online_change.md. -/
def Obligations.OnlineChangesRunTheirPhases : Prop :=
  ∀ s : State,
    (∀ (r : PlantReq) (p : OlcPiece), sessionReads s r = true → serviceCheck s svcOlcPiece r = .ok → partFits p.part = true →
      (∀ off l, s.olc.phase = .idle → olcCondition s = none → s.sys.role = .solo → p.last = false → p.part = .data off l →
        ∃ t, exec (.olcPiece r p) s = .next t ∧ t.olc.phase = .receiving ∧ t.olc.singleNow = s.olc.single ∧ t.olc.session = some r.session ∧
          keyBytes t (setBase (1 - s.olc.set) + off) l.length = l ∧ t.olc.set = s.olc.set ∧ t.log = s.log ∧
          { t with olc := s.olc, key := s.key, plant := s.plant, sent := s.sent } = follow s) ∧
      (∀ n, s.olc.phase = .idle → olcCondition s = some n →
        ∃ t, exec (.olcPiece r p) s = .next t ∧ t.olc = { s.olc with result := olcRefused } ∧ t.key = s.key ∧
          t.log = (raise .olcResult .notice 0xFF olcRefused n 0 s).log) ∧
      (∀ off l, s.olc.phase = .receiving → s.olc.session = some r.session → s.sys.role = .solo → p.last = false → p.part = .data off l →
        ∃ t, exec (.olcPiece r p) s = .next t ∧ t.olc.phase = .receiving ∧
          keyBytes t (setBase (1 - s.olc.set) + off) l.length = l ∧ t.log = s.log ∧
          { t with olc := s.olc, key := s.key, plant := s.plant, sent := s.sent } = follow s) ∧
      (s.olc.phase = .receiving → s.olc.session = some r.session → s.sys.role ≠ .solo → s.sys.role ≠ .active →
        ∃ t, exec (.olcPiece r p) s = .next t ∧ t.olc = { s.olc with result := olcRefused } ∧ t.key = s.key ∧
          t.log = (raise .olcResult .notice 0xFF olcRefused 2 0 s).log) ∧
      (s.olc.phase ≠ .idle → s.olc.phase ≠ .receiving ∨ s.olc.session ≠ some r.session →
        ∃ t, exec (.olcPiece r p) s = .next t ∧ t.olc = { s.olc with result := olcBusy } ∧ t.key = s.key ∧
          t.log = (raise .olcResult .notice 0xFF olcBusy 0 0 s).log)) ∧
    (∀ (p : OlcPiece) off l, s.sys.role = .standby → keyWritable s = true → p.part = .data off l → partFits p.part = true →
      p.last = false → s.olc.phase = .idle ∨ s.olc.phase = .receiving →
      ∃ t, exec (.olcPieceForward p) s = .next t ∧ t.olc.phase = .receiving ∧
        keyBytes t (setBase (1 - s.olc.set) + off) l.length = l ∧ { t with olc := s.olc, key := s.key } = follow s) ∧
    (s.olc.phase = .staged →
      ∃ t, exec .olcActivate s = .next t ∧
        (∀ k, newSet s [] = some k → olcFits s k = true → t.olc = { s.olc with phase := .preparing } ∧ t.mem.olcWriting = true ∧ t.log = s.log) ∧
        (∀ k, newSet s [] = some k → olcFits s k = false → t.olc.phase = .idle ∧ t.olc.result = olcNoRoom) ∧
        (newSet s [] = none → t.olc.phase = .idle ∧ t.olc.result = olcKeyBad) ∧
        { t with olc := s.olc, mem := s.mem, log := s.log } = follow s) ∧
    (s.olc.phase ≠ .staged →
      ∃ t, exec .olcActivate s = .next t ∧ t.olc = { s.olc with result := olcRefused } ∧
        t.log = (raise .olcResult .notice 0xFF olcRefused 0 0 s).log) ∧
    (s.olc.phase.before = true →
      ∃ t, exec .olcAbort s = .next t ∧ t.olc.phase = .idle ∧ t.olc.result = 2 ∧ t.olc.set = s.olc.set ∧ t.olc.gen = s.olc.gen ∧
        t.key = s.key ∧ t.log = (raise .olcResult .notice 0xFF 2 0 0 s).log) ∧
    (s.olc.phase.before = false → exec .olcAbort s = .next (follow s)) ∧
    (s.olc.phase = .preparing →
      ∃ t, exec .olcPrepared s = .next t ∧ t.olc.set = s.olc.set ∧ t.olc.gen = s.olc.gen ∧
        (newSet s [] = none → t.olc.phase = .idle ∧ t.olc.result = olcKeyBad) ∧
        (∀ k, newSet s [] = some k → migrationGood s k = false → t.olc.phase = .idle ∧ t.olc.result = olcMigrationBad) ∧
        (∀ k, newSet s [] = some k → migrationGood s k = true →
          (k.instances.any fun i => (matchInstance s (migMaps (k.bytes 6 0)) i).lacksMap) = false → s.sys.role = .solo →
          t.olc.phase = .announced ∧ t.olc.preparedAt = s.mono ∧ t.olc.switchAt = some (olcInstant s) ∧ t.mem.olcWriting = false)) ∧
    (∀ b, olcDue s = some (b, true) → b ≤ s.mono → s.olc.phase = .announced → cycleAcross s b = false ∨ olcOwn s = false →
      (forAll (List.range 8) applyMemDue s).sys.mode ≠ .halted →
      ∃ t, exec .olcSwitch s = .next t ∧ (newSet s [] = none → t.olc = s.olc) ∧
        (∀ k, newSet s [] = some k → t.olc.phase = .switched ∧ t.olc.set = 1 - s.olc.set ∧
          t.olc.gen = k.header.gen (1 - s.olc.set) ∧ t.cyc.instances.length = k.instances.length ∧
          t.sig.sinks = k.sinks ∧ t.key = s.key ∧ s.mono + 5000 ≤ t.olc.startAfter ∧ s.log.nextSeq < t.log.nextSeq)) ∧
    (∀ b, olcDue s = some (b, true) → b ≤ s.mono → s.olc.phase = .announced → cycleAcross s b = true → olcOwn s = true →
      let later := if s.sys.mode = .stop then nextMs s.mono else t0Ahead s 1
      ∃ t, exec .olcSwitch s = .next t ∧ t.olc.phase = .announced ∧ t.olc.set = s.olc.set ∧ t.cyc = s.cyc ∧
        (s.sys.role ≠ .standby → later ≤ s.olc.preparedAt + 60000000000 → t.olc.switchAt = some later)) ∧
    (s.olc.phase = .prepared ∨ s.olc.phase = .announced → s.olc.preparedAt + 60000000000 ≤ s.mono →
      ∃ t, exec .olcNoBoundary s = .next t ∧ t.olc.phase = .idle ∧ t.olc.result = olcNoBoundary ∧ t.olc.set = s.olc.set ∧
        t.log = (raise .olcResult .notice 0xFF olcNoBoundary 0 0 s).log) ∧
    (s.mono < s.olc.preparedAt + 60000000000 → exec .olcNoBoundary s = .next (follow s)) ∧
    (∀ ok, s.olc.phase = .confirming → keyWritable s = true →
      ∃ t, exec (.olcConfirmRetry ok) s = .next t ∧
        (ok = true → t.olc.phase = .idle ∧ t.olc.result = 1 ∧ t.log.nextSeq = s.log.nextSeq + 2) ∧
        (ok = false → s.olc.retries < 3 → t.olc.phase = .confirming ∧ t.olc.retries = s.olc.retries + 1 ∧ t.log = s.log) ∧
        (ok = false → 3 ≤ s.olc.retries → t.olc.phase = .idle ∧ t.olc.result = 14 ∧ t.log.nextSeq = s.log.nextSeq + 2))

/-- An idle master line that may transmit sends the next transaction that is due and waits for its reply, but of a broadcast. A
frame with a bad CRC is counted and nothing else; a reply that fits ends the attempt, clears the failures in a row and, of a
read, the absence; a timeout, no sooner than TIMEOUT_MS after the attempt, is counted and the attempt sent again while
RETRIES and the mode allow, then ended. A slave answers a request of an unknown function, or to a range that no one item
covers, with an exception, and a read of a covered range with its data. A writable item that no write has reached in time is
absent: its bit and flag are set. Where the rules leave it open, it follows the model's choices or readings of assumptions
11, 14, 210, 211, 212, 213 and 214. Follows 19_plant_port_and_access.md. -/
def Obligations.SerialLinesTransact : Prop :=
  ∀ (s : State) (n : Nat), 1 ≤ n → n ≤ s.ser.lines.length →
    let l := serLine s n
    (∀ t', l.role = 1 → l.tx = none → serTxAllowed s = true → waitingEntry s n = none → nextDue s n = some t' →
      ∃ t, exec (.serialTransaction n) s = .next t ∧ (serLine t n).item = t'.item ∧
        (serLine t n).tx = (if t'.slave = 0 then none
          else some { item := t'.item, handle := none, slave := t'.slave, function := t'.function, attempt := 1, at_ := s.mono }) ∧
        t.sent = { kind := .serial, unit := n, num := t'.item, body := BitVec.ofNat 8 t'.slave :: transPdu t' (transData s n t') } :: s.sent ∧
        (∀ m, 1 ≤ m → m ≠ n → serLine t m = serLine s m) ∧ { t with ser := s.ser, sent := s.sent } = follow s) ∧
    (∀ f : SerFrame, l.role = 1 → f.crcOk = false →
      ∃ t, exec (.serialReply n f) s = .next t ∧ serLine t n = { l with crcErrors := satInc 32 l.crcErrors, flags := flag 0 l.flags } ∧
        (∀ m, 1 ≤ m → m ≠ n → serLine t m = serLine s m) ∧ { t with ser := s.ser }.rest = s.rest) ∧
    (∀ (f : SerFrame) x tr, l.role = 1 → f.crcOk = true → l.tx = some x → x.handle = none → f.addr = x.slave →
      fld f.pdu 0 1 = x.function → x.function < 128 → l.trans.find? (fun t => t.item == x.item) = some tr → replyFits tr f.pdu = true →
      ∃ t, exec (.serialReply n f) s = .next t ∧ (serLine t n).tx = none ∧ (serLine t n).frames = satInc 32 l.frames ∧
        look tr.item (serLine t n).failRun = none ∧ t.sent = s.sent ∧ t.log = s.log ∧
        (serReads tr.function = true → tr.item < 64 → (serLine t n).failed.getLsbD tr.item = false)) ∧
    (∀ x tr, l.tx = some x → x.handle = none → l.trans.find? (fun t => t.item == x.item) = some tr →
      s.mono < x.at_ + tr.timeoutMs * 1000000 → ∃ t, exec (.serialTimeout n) s = .next t ∧ t.rest = s.rest) ∧
    (∀ x tr, l.tx = some x → x.handle = none → l.trans.find? (fun t => t.item == x.item) = some tr →
      x.at_ + tr.timeoutMs * 1000000 ≤ s.mono → ((look tr.item l.failRun).getD 0) + 1 < l.failLimit →
      ∃ t, exec (.serialTimeout n) s = .next t ∧ (serLine t n).timeouts = satInc 32 l.timeouts ∧ (serLine t n).flags.getLsbD 1 = true ∧
        look tr.item (serLine t n).failRun = some (((look tr.item l.failRun).getD 0) + 1) ∧
        (x.attempt ≤ l.force.retries → mayRepeat s tr = true → (serLine t n).tx = some { x with attempt := x.attempt + 1, at_ := s.mono } ∧
          t.sent = { kind := .serial, unit := n, num := tr.item, body := BitVec.ofNat 8 tr.slave :: transPdu tr ((look tr.item l.sentData).getD []) } :: s.sent) ∧
        (l.force.retries < x.attempt ∨ mayRepeat s tr = false → (serLine t n).tx = none ∧ t.sent = s.sent) ∧
        { t with ser := s.ser, sent := s.sent }.rest = s.rest) ∧
    (∀ f : SerFrame, l.role = 2 → f.crcOk = true → f.addr = l.slaveAddr → f.addr ≠ 0 → serTxAllowed s = true → serRxQueue s n = none →
      (tableOf (fld f.pdu 0 1) = none →
        ∃ t, exec (.serialRequest n f) s = .next t ∧ (serLine t n).exceptions = satInc 32 l.exceptions ∧
          t.sent = { kind := .serial, unit := n, num := l.item, body := [BitVec.ofNat 8 f.addr, BitVec.ofNat 8 (fld f.pdu 0 1 + 128), 1] } :: s.sent) ∧
      (∀ tb, tableOf (fld f.pdu 0 1) = some tb → slaveItem l tb f.pdu = none →
        ∃ t, exec (.serialRequest n f) s = .next t ∧ (serLine t n).exceptions = satInc 32 l.exceptions ∧
          t.sent = { kind := .serial, unit := n, num := l.item, body := [BitVec.ofNat 8 f.addr, BitVec.ofNat 8 (fld f.pdu 0 1 + 128), 2] } :: s.sent) ∧
      (∀ tb m a c, tableOf (fld f.pdu 0 1) = some tb → slaveItem l tb f.pdu = some m → writePart f.pdu = none → readPart f.pdu = some (a, c) →
        ∃ t, exec (.serialRequest n f) s = .next t ∧ (serLine t n).item = m.item ∧ (serLine t n).exceptions = l.exceptions ∧
          t.sent = { kind := .serial, unit := n, num := m.item, body := BitVec.ofNat 8 f.addr :: BitVec.ofNat 8 (fld f.pdu 0 1) :: BitVec.ofNat 8 (mapRead s n m a c).length :: mapRead s n m a c } :: s.sent ∧
          { t with ser := s.ser, sent := s.sent }.rest = s.rest)) ∧
    (∀ item, s.mono < ((look item l.lastSent).getD 0) + l.writeTimeoutMs * 1000000 →
      ∃ t, exec (.serialWriteTimeout n item) s = .next t ∧ t.rest = s.rest) ∧
    (∀ item, item < 64 → l.role = 2 → l.writeTimeoutMs ≠ 0 → ((look item l.lastSent).getD 0) + l.writeTimeoutMs * 1000000 ≤ s.mono → (l.maps.any fun m => m.item == item && m.writable) = true → l.failed.getLsbD item = false →
      ∃ t, exec (.serialWriteTimeout n item) s = .next t ∧ (serLine t n).failed.getLsbD item = true ∧ (serLine t n).flags.getLsbD 3 = true ∧
        (∀ i, i ≠ item → (serLine t n).failed.getLsbD i = l.failed.getLsbD i))

/-- For each block with SH fields: a commit write of GENERATION plus 1 with none pending is accepted (GENERATION advances,
COMMIT_ERR clears, and PENDING sets unless the acceptance is the block's boundary), and takes a copy of the block's shadows
as they are, with its instant; any other write sets COMMIT_ERR and has no other effect. At the boundary of a pending set,
where one that the state tells has come, the whole copy is in force and PENDING clears; that of RTC_COMMIT is a second tick.
The value is compared in its low 16 bits (the model's reading). Where the rules leave it open, it follows the model's
choices or readings of assumptions 21 and 22. Follows 00_scope.md. -/
def Obligations.CommitsTakeWholeSets : Prop :=
  ∀ (s : State) (b : Block) (v : Word),
    (∀ p, b = .can p → 1 ≤ p ∧ p ≤ s.can.length) → (∀ n, b = .ser n → 1 ≤ n ∧ n ≤ s.ser.lines.length) →
    ((commitOf s b).pending = true ∨ v.setWidth 16 ≠ (commitOf s b).gen + 1 →
      ∃ t, exec (.commitWrite b v) s = .next t ∧ commitOf t b = { commitOf s b with err := true } ∧
        t.rest = (onCommit (fun c => { c with err := true }) s b).rest) ∧
    ((commitOf s b).pending = false → v.setWidth 16 = (commitOf s b).gen + 1 →
      ∃ t, exec (.commitWrite b v) s = .next t ∧ (commitOf t b).gen = (commitOf s b).gen + 1 ∧ (commitOf t b).err = false ∧ (commitOf t b).at_ = s.mono ∧
        ((∀ p, b ≠ .can p) → b ≠ .loop → b ≠ .que → (commitOf t b).pending = true) ∧
        (b = .pwr → t.pwr.copied = s.pwr.shadow ∧ t.pwr.force = s.pwr.force) ∧
        (b = .mem → t.mem.copied = s.mem.shadow ∧ t.mem.period = s.mem.period) ∧
        (b = .cyc → t.cyc.escCopied = s.cyc.escShadow ∧ t.cyc.tasks = s.cyc.tasks) ∧ (b = .sig → t.sig.copied = s.sig.shadow) ∧
        (b = .ring → t.ring.copied = s.ring.shadow) ∧ (b = .rtc → t.rtc.copied = s.rtc.shadow ∧ t.rtc.now = s.rtc.now) ∧
        (b = .que → t.que.copied = s.que.shadow) ∧
        (b = .time → ∀ p ∈ t.time.pulses, p.copied = p.shadow) ∧
        (∀ n, b = .ser n → (serLine t n).copied = (serLine s n).shadow ∧ (serLine t n).force = (serLine s n).force) ∧
        (∀ p, b = .can p → (canPort t p).copied = (canPort s p).shadow) ∧
        (b = .loop → loopsMode s = false → ∀ n, (loopAt s n).dirty = true → (loopAt t n).force = (loopAt s n).shadow)) ∧
    ((commitOf s b).pending = true →
      ∃ t, exec (.commitBoundary b) s = .next t ∧ (commitOf t b).gen = (commitOf s b).gen ∧ (commitOf t b).err = (commitOf s b).err ∧
        (b = .pwr → (commitOf t b).pending = false ∧ t.pwr.force = s.pwr.copied ∧ { t with pwr := s.pwr }.rest = s.rest) ∧
        (b = .mem → (commitOf t b).pending = false ∧ t.mem.period = s.mem.copied ∧ { t with mem := s.mem }.rest = s.rest) ∧
        (b = .cyc → instantDue s 0 s.cyc.commit.at_ = false → t.rest = s.rest) ∧
        (b = .cyc → instantDue s 0 s.cyc.commit.at_ = true → (commitOf t b).pending = false ∧ (∀ n < t.cyc.tasks.length, (taskAt t n).escalate = s.cyc.escCopied.getD n 0) ∧
          { t with cyc := s.cyc }.rest = s.rest) ∧
        (b = .sig → instantDue s 0 s.sig.commit.at_ = false → t.rest = s.rest) ∧
        (b = .sig → instantDue s 0 s.sig.commit.at_ = true → (commitOf t b).pending = false ∧ { t with sig := s.sig }.rest = s.rest) ∧
        (b = .loop → ((∀ p ∈ s.eng.loops, p.2.copied.isSome = true → tickDue s p.2 = true) → (commitOf t b).pending = false) ∧
          ∀ n c, (loopAt s n).copied = some c → tickDue s (loopAt s n) = true → (loopAt t n).force = c ∧ (loopAt t n).copied = none) ∧
        (b = .ring → (∀ x, stationOf s s.ring.copied.station = some x → hasInstants s x.task = true ∧ nextRelease s x.task ≤ s.mono) →
          (stationOf s s.ring.copied.station = none → nextMs s.ring.commit.at_ ≤ s.mono) → (commitOf t b).pending = false) ∧
        (b = .time → (commitOf t b).pending = false) ∧
        (∀ p, b = .can p → (canPort s p).onBus = none → (commitOf t b).pending = false ∧
          (canSetOk (canPort s p).copied = true → (canPort t p).force = (canPort s p).copied) ∧
          (canSetOk (canPort s p).copied = false → (canPort t p).force = (canPort s p).force ∧ (canPort t p).flags.getLsbD 6 = true)) ∧
        (b = .rtc → t.rest = s.rest) ∧
        (b = .que → heldBy s s.que.copied.queue = 0 → (commitOf t b).pending = false) ∧
        (∀ n, b = .ser n → (serLine s n).tx = none → (commitOf t b).pending = false ∧
          ((serLine s n).copied.ok = true → (serLine t n).force = (serLine s n).copied) ∧
          ((serLine s n).copied.ok = false → (serLine t n).force = (serLine s n).force)))

/-- An access that is not one aligned 32-bit word, whoever makes it, is refused: a register write changes nothing, the SDK's
read and write return ACCESS_ALIGN, and the plant port answers REG_READ, and each such pair of REG_WRITE, with an access
error; the state is the same but for the answer and the port's own count of the refusal. Follows R26. -/
def Obligations.NarrowAccessesAreRefused : Prop :=
  ∀ (s : State) (a : RegAt), a.word = false ∨ a.addr % 4 ≠ 0 →
    (∀ r v x, exec (.registerWrite r a v x) s = .next (follow s)) ∧
    (∀ native v x c, c = .sdkRegRead native a ∨ c = .sdkRegWrite native a v x →
      ∃ t, exec c s = .next t ∧ t.sent = { kind := .sdk, unit := native, num := 1, body := [] } :: s.sent ∧
        { t with sent := s.sent } = follow s) ∧
    (∀ (r : PlantReq), sessionReads s r = true →
      (∀ n, serviceCheck s svcRegRead r = .ok → 1 ≤ n → n ≤ 256 →
        ∃ t, exec (.regRead r a n) s = .next t ∧
          t.sent = { kind := .plant, unit := r.session, num := r.number, body := responseHead 2 r.number 0 4, eth := some (plantEth s (sessionAt s r.session).mac) } :: s.sent ∧
          { t with plant := s.plant, sent := s.sent } = follow s) ∧
      (∀ v x, serviceCheck s svcRegWrite r = .ok →
        ∃ t, exec (.regWrite r [{ reg := a, value := v }] x) s = .next t ∧
          t.sent = { kind := .plant, unit := r.session, num := r.number, body := responseHead 3 r.number 2 0 ++ [4, 0], eth := some (plantEth s (sessionAt s r.session).mac) } :: s.sent ∧
          { t with plant := s.plant, sent := s.sent } = follow s))

/-- A flag word written through the register space clears exactly the bits written 1, whoever writes it; a write from 0xB000
upward does nothing and a read there returns 0. Any aligned word written is written with what settles after it; a native
block's write to a window that it may write, outside SAFE, does the same and is answered OK. A native block reads the words
of the windows it owns and is refused any other; the plant port reads 1 to 256 words and answers IDENTIFY with the system
words, serial, KEY_ID and name; a write of a window that the key does not open is denied, and a GO of SIG_WR_CTRL that is
turned away sets its two marks. SIG_RD_SEL with LATCH copies one entry's dynamic part; SIG_WR_CTRL with GO writes a
permitted entry, and is refused with its flag elsewhere. Where the rules leave it open, it follows the model's choices or
readings of assumptions 76 and 202. Follows 00_scope.md, 01_station_overview.md, 07_signal_table.md, 05_program_cycle.md,
19_plant_port_and_access.md. -/
def Obligations.RegistersAreReadAndWritten : Prop :=
  ∀ s : State,
    (∀ r x v,
      (∃ t, exec (.registerWrite r { addr := 0x0804, word := true } v x) s = .next t ∧
        (∀ n, n ≠ 18 → t.pwr.flags.getLsbD n = (s.pwr.flags &&& ~~~v).getLsbD n) ∧ { t with pwr := { t.pwr with flags := s.pwr.flags } }.rest = s.rest) ∧
      (∃ t, exec (.registerWrite r { addr := 0x1004, word := true } v x) s = .next t ∧ t.mem.flags = s.mem.flags &&& ~~~v ∧
        { t with mem := s.mem }.rest = s.rest) ∧
      (∃ t, exec (.registerWrite r { addr := 0x1804, word := true } v x) s = .next t ∧ t.cyc.flags = s.cyc.flags &&& ~~~v ∧
        { t with cyc := { t.cyc with flags := s.cyc.flags } }.rest = s.rest) ∧
      (∃ t, exec (.registerWrite r { addr := 0x2008, word := true } v x) s = .next t ∧ t.sig.flags = s.sig.flags &&& ~~~v ∧
        { t with sig := { t.sig with flags := s.sig.flags } }.rest = s.rest) ∧
      (∃ t, exec (.registerWrite r { addr := 0x2804, word := true } v x) s = .next t ∧ t.eng.flags = s.eng.flags &&& ~~~v ∧
        { t with eng := s.eng }.rest = s.rest) ∧
      (∃ t, exec (.registerWrite r { addr := 0x3804, word := true } v x) s = .next t ∧ t.pair.flags = s.pair.flags &&& ~~~v ∧
        { t with pair := s.pair }.rest = s.rest) ∧
      (∃ t, exec (.registerWrite r { addr := 0x4004, word := true } v x) s = .next t ∧ t.ring.flags = s.ring.flags &&& ~~~v ∧
        { t with ring := s.ring }.rest = s.rest) ∧
      (∃ t, exec (.registerWrite r { addr := 0x4804, word := true } v x) s = .next t ∧ t.time.flags = s.time.flags &&& ~~~v) ∧
      (∃ t, exec (.registerWrite r { addr := 0x6004, word := true } v x) s = .next t ∧ t.que.flags = s.que.flags &&& ~~~v ∧
        { t with que := s.que }.rest = s.rest) ∧
      (∃ t, exec (.registerWrite r { addr := 0x8004, word := true } v x) s = .next t ∧ t.rtc.flags = s.rtc.flags &&& ~~~v ∧
        { t with rtc := s.rtc }.rest = s.rest) ∧
      (∃ t, exec (.registerWrite r { addr := 0x8804, word := true } v x) s = .next t ∧ t.log.flags = s.log.flags &&& ~~~v ∧
        { t with log := s.log }.rest = s.rest)) ∧
    (∀ r x v a, a % 4 = 0 → isRestart a v = false →
      exec (.registerWrite r { addr := a, word := true } v x) s = .next (follow (settle s (writeWord x r a v s)))) ∧
    (∀ k x v a, a % 4 = 0 → isRestart a v = false → ownsWindow s k a true = true → inSafe a = false →
      ∃ t, exec (.sdkRegWrite k { addr := a, word := true } v x) s = .next t ∧ t.sent =
        { kind := .sdk, unit := k, num := 0, body := [] } :: (settle s (writeWord x .sdk a v s)).sent ∧
        { t with sent := s.sent } = { follow (settle s (writeWord x .sdk a v s)) with sent := s.sent }) ∧
    (∀ r x v a, 0xB000 ≤ a → a % 4 = 0 →
      readWord r a s = 0 ∧ ∃ t, exec (.registerWrite r { addr := a, word := true } v x) s = .next t ∧ t.rest = s.rest) ∧
    (∀ k a, a % 4 = 0 →
      (ownsWindow s k a false = true → ∃ t, exec (.sdkRegRead k { addr := a, word := true }) s = .next t ∧
        t.sent = { kind := .sdk, unit := k, num := 0, body := leBytes 4 (readWord .sdk a s).toNat } :: s.sent ∧ t.mem = s.mem ∧
        t.log.nextSeq = s.log.nextSeq) ∧
      (ownsWindow s k a false = false → ∃ t, exec (.sdkRegRead k { addr := a, word := true }) s = .next t ∧
        t.sent = { kind := .sdk, unit := k, num := 2, body := [] } :: s.sent ∧ t.cyc.refusals = satInc 32 s.cyc.refusals ∧
        t.cyc.flags.getLsbD 4 = true ∧ { t with cyc := s.cyc, sent := s.sent } = follow s) ∧
      (∀ v x, ownsWindow s k a true = false → isSigGo a v = true → ∃ t, exec (.sdkRegWrite k { addr := a, word := true } v x) s = .next t ∧
        t.sent = { kind := .sdk, unit := k, num := 2, body := [] } :: s.sent ∧ t.cyc.refusals = satInc 32 s.cyc.refusals ∧
        t.sig.sdk.refused = true ∧ t.sig.flags.getLsbD 2 = true ∧ t.sig.entries = s.sig.entries) ∧
      (∀ v x, ownsWindow s k a true = false ∨ (inSafe a = true ∧ isTestRequest a = false) → isSigGo a v = false → ∃ t, exec (.sdkRegWrite k { addr := a, word := true } v x) s = .next t ∧
        t.sent = { kind := .sdk, unit := k, num := 2, body := [] } :: s.sent ∧ t.cyc.refusals = satInc 32 s.cyc.refusals ∧
        { t with cyc := s.cyc, sent := s.sent } = follow s)) ∧
    (∀ k v x, ownsWindow s k 0x2008 true = true →
      ∃ t, exec (.sdkRegWrite k { addr := 0x2008, word := true } v x) s = .next t ∧ t.sig.flags = s.sig.flags &&& ~~~v ∧
        t.sent = { kind := .sdk, unit := k, num := 0, body := [] } :: s.sent) ∧
    (∀ (r : PlantReq), sessionReads s r = true →
      (serviceCheck s svcIdentify r = .ok →
        ∃ t, exec (.identify r) s = .next t ∧ { t with plant := s.plant, sent := s.sent } = follow s ∧
          t.sent = { kind := .plant, unit := r.session, num := r.number, body := responseHead 1 r.number (identity s).length 0 ++ identity s, eth := some (plantEth s (sessionAt s r.session).mac) } :: s.sent) ∧
      (∀ a, serviceCheck s svcRegRead r = .ok → a % 4 = 0 →
        ∃ t, exec (.regRead r { addr := a, word := true } 1) s = .next t ∧
          t.sent = { kind := .plant, unit := r.session, num := r.number, body := responseHead 2 r.number 4 0 ++ leBytes 4 (readWord .plant a s).toNat, eth := some (plantEth s (sessionAt s r.session).mac) } :: s.sent) ∧
      (∀ a v x, serviceCheck s svcRegWrite r = .ok → a % 4 = 0 →
        (plantMayWrite s (sessionAt s r.session) a v = false → isSigGo a v = false →
          ∃ t, exec (.regWrite r [{ reg := { addr := a, word := true }, value := v }] x) s = .next t ∧
            t.sent = { kind := .plant, unit := r.session, num := r.number, body := responseHead 3 r.number 2 0 ++ [1, 0], eth := some (plantEth s (sessionAt s r.session).mac) } :: s.sent ∧
            { t with plant := s.plant, sent := s.sent } = follow s) ∧
        (plantMayWrite s (sessionAt s r.session) a v = false → isSigGo a v = true →
          ∃ t, exec (.regWrite r [{ reg := { addr := a, word := true }, value := v }] x) s = .next t ∧
            t.sent = { kind := .plant, unit := r.session, num := r.number, body := responseHead 3 r.number 2 0 ++ [1, 0], eth := some (plantEth s (sessionAt s r.session).mac) } :: s.sent ∧
            t.sig.plant.refused = true ∧ t.sig.flags.getLsbD 2 = true ∧ t.sig.entries = s.sig.entries) ∧
        (a = 0x2008 → plantMayWrite s (sessionAt s r.session) a v = true →
          ∃ t, exec (.regWrite r [{ reg := { addr := a, word := true }, value := v }] x) s = .next t ∧
            t.sig.flags = s.sig.flags &&& ~~~v ∧
            t.sent = { kind := .plant, unit := r.session, num := r.number, body := responseHead 3 r.number 2 0 ++ [0, 0], eth := some (plantEth s (sessionAt s r.session).mac) } :: s.sent))) ∧
    (∀ r v, ∃ t, exec (.sigRdLatch r v) s = .next t ∧ (sigBank t r).rdIndex = field v 0 12 ∧
      (v.getLsbD 31 = true → (sigBank t r).latch.value = (sigEntry s (field v 0 12)).value ∧ (sigBank t r).latch.info = sigInfo s (field v 0 12)) ∧
      (v.getLsbD 31 = false → (sigBank t r).latch = (sigBank s r).latch) ∧
      (∀ o, o ≠ r → sigBank t o = sigBank s o) ∧ t.sig.entries = s.sig.entries) ∧
    (∀ r v, v.getLsbD 31 = true →
      (sigWriteRefused s r (field v 16 12) = false → (sigEntry s (field v 16 12)).forced = false →
        ∃ t, exec (.sigWrGo r v) s = .next t ∧ (sigEntry t (field v 16 12)).value = (sigBank s r).wrValue ∧
          (sigBank t r).refused = false) ∧
      (sigWriteRefused s r (field v 16 12) = true →
        ∃ t, exec (.sigWrGo r v) s = .next t ∧ (sigBank t r).refused = true ∧ t.sig.flags.getLsbD 2 = true ∧
          (∀ i, (sigEntry t i).value = (sigEntry s i).value ∨ sourceItem s (sigEntry s i) ≠ none)))
end

