-- ==== Sys2Proof/Laws/Cells.lean ====
section
/-! SUPPORT. The addressed stores: every operation on one keeps its canonical form, a read finds what was written last, and a write leaves
every other address alone. -/

namespace Sys2Proof.Machine

/-- The canonical form, said of the list as a whole. -/
theorem cellsWf_iff (z : Byte) (l : List Host.Cell) :
    cellsWf z l = true ↔ (∀ c ∈ l, c.2 ≠ z) ∧ l.Pairwise (fun a b => a.1 < b.1) := by
  induction l with
  | nil => simp [cellsWf]
  | cons c l ih =>
    cases l with
    | nil => obtain ⟨a, v⟩ := c; simp [cellsWf]
    | cons d r =>
      obtain ⟨a, v⟩ := c
      obtain ⟨b, w⟩ := d
      simp only [cellsWf, Bool.and_eq_true, ih, bne_iff_ne, decide_eq_true_eq]
      constructor
      · rintro ⟨⟨hv, hab⟩, hm, hp⟩
        refine ⟨?_, ?_⟩
        · intro c hc
          rcases List.mem_cons.1 hc with rfl | h
          · exact hv
          · exact hm c h
        · refine List.pairwise_cons.2 ⟨?_, hp⟩
          intro c hc
          rcases List.mem_cons.1 hc with rfl | h
          · exact hab
          · exact Nat.lt_trans hab ((List.pairwise_cons.1 hp).1 c h)
      · rintro ⟨hm, hp⟩
        exact ⟨⟨hm _ List.mem_cons_self, (List.pairwise_cons.1 hp).1 _ List.mem_cons_self⟩,
          fun c hc => hm c (List.mem_cons_of_mem _ hc), (List.pairwise_cons.1 hp).2⟩

/-- What a written store lists: its old cells at other addresses, and the new byte where it is not `z`. -/
theorem mem_cellPut (z : Byte) (a : Nat) (v : Byte) (l : List Host.Cell) (c : Host.Cell) (h : c ∈ cellPut z a v l) :
    c ∈ l ∨ (c = (a, v) ∧ v ≠ z) := by
  induction l with
  | nil =>
    unfold cellPut at h
    split at h
    · cases h
    · exact .inr ⟨List.mem_singleton.1 h, ‹_›⟩
  | cons d r ih =>
    obtain ⟨i, b⟩ := d
    unfold cellPut at h
    repeat' split at h
    · exact .inl h
    · rcases List.mem_cons.1 h with h | h
      · exact .inr ⟨h, ‹_›⟩
      · exact .inl h
    · exact .inl (List.mem_cons_of_mem _ h)
    · rcases List.mem_cons.1 h with h | h
      · exact .inr ⟨h, ‹_›⟩
      · exact .inl (List.mem_cons_of_mem _ h)
    · rcases List.mem_cons.1 h with h | h
      · exact .inl (h ▸ List.mem_cons_self)
      · exact (ih h).imp_left (List.mem_cons_of_mem _)

theorem cellPut_wf (z : Byte) (a : Nat) (v : Byte) (l : List Host.Cell) (h : cellsWf z l = true) :
    cellsWf z (cellPut z a v l) = true := by
  rw [cellsWf_iff] at h ⊢
  refine ⟨fun c hc => ?_, ?_⟩
  · rcases mem_cellPut z a v l c hc with h' | ⟨rfl, hv⟩
    · exact h.1 c h'
    · exact hv
  · obtain ⟨-, hp⟩ := h
    induction l with
    | nil => unfold cellPut; split <;> simp
    | cons d r ih =>
      obtain ⟨i, b⟩ := d
      have hr := List.pairwise_cons.1 hp
      unfold cellPut
      repeat' split
      · exact hp
      · refine List.pairwise_cons.2 ⟨fun c hc => ?_, hp⟩
        rcases List.mem_cons.1 hc with rfl | h
        · assumption
        · exact Nat.lt_trans ‹a < i› (hr.1 c h)
      · exact hr.2
      · refine List.pairwise_cons.2 ⟨fun c hc => ?_, hr.2⟩
        have := hr.1 c hc
        subst_vars
        exact this
      · refine List.pairwise_cons.2 ⟨fun c hc => ?_, ih hr.2⟩
        rcases mem_cellPut z a v r c hc with h | ⟨rfl, -⟩
        · exact hr.1 c h
        · show i < a
          omega

theorem cellPuts_wf (z : Byte) (l : List Byte) (a : Nat) (c : List Host.Cell) (h : cellsWf z c = true) :
    cellsWf z (cellPuts z a l c) = true := by
  induction l generalizing a c with
  | nil => exact h
  | cons v r ih => exact ih _ _ (cellPut_wf z a v c h)

theorem cells_filter_wf (z : Byte) (p : Host.Cell → Bool) (c : List Host.Cell) (h : cellsWf z c = true) :
    cellsWf z (c.filter p) = true := by
  rw [cellsWf_iff] at h ⊢
  exact ⟨fun x hx => h.1 x (List.mem_filter.1 hx).1, h.2.filter p⟩

theorem cellPut_fold_wf (z : Byte) (l : List Host.Cell) (c : List Host.Cell) (h : cellsWf z c = true) :
    cellsWf z (l.foldl (fun l c => cellPut z c.1 c.2 l) c) = true := by
  induction l generalizing c with
  | nil => exact h
  | cons d r ih => exact ih _ (cellPut_wf z d.1 d.2 c h)

/-- Code laid into banks of rising number: each byte lies in its bank. -/
theorem mem_bankCells (banks : List Nat) (l : List Byte) (c : Host.Cell) (h : c ∈ bankCells banks l) :
    c.2 ≠ 0 ∧ ∃ b ∈ banks, b * bankBytes ≤ c.1 ∧ c.1 < (b + 1) * bankBytes := by
  induction banks generalizing l with
  | nil => cases h
  | cons b r ih =>
    unfold bankCells at h
    rcases List.mem_append.1 h with h | h
    · obtain ⟨hm, hv⟩ := List.mem_filter.1 h
      obtain ⟨i, hi, rfl⟩ := List.mem_mapIdx.1 hm
      have : i < bankBytes := Nat.lt_of_lt_of_le hi (List.length_take_le _ _)
      refine ⟨by simpa using hv, b, List.mem_cons_self, ?_, ?_⟩
      · exact Nat.le_add_right _ _
      · show b * bankBytes + i < (b + 1) * bankBytes
        rw [Nat.succ_mul]; omega
    · obtain ⟨hv, k, hk, h1⟩ := ih _ h
      exact ⟨hv, k, List.mem_cons_of_mem _ hk, h1⟩

theorem bankCells_wf (banks : List Nat) (l : List Byte) (hb : banks.Pairwise (· < ·)) : cellsWf 0 (bankCells banks l) = true := by
  rw [cellsWf_iff]
  refine ⟨fun c hc => (mem_bankCells banks l c hc).1, ?_⟩
  induction banks generalizing l with
  | nil => exact List.Pairwise.nil
  | cons b r ih =>
    have hr := List.pairwise_cons.1 hb
    unfold bankCells
    refine List.pairwise_append.2 ⟨List.Pairwise.filter _ ?_, ih _ hr.2, ?_⟩
    · rw [List.pairwise_iff_getElem]
      intro i j hi hj hij
      simp only [List.getElem_mapIdx]
      omega
    · intro x hx y hy
      obtain ⟨hm, -⟩ := List.mem_filter.1 hx
      obtain ⟨i, hi, rfl⟩ := List.mem_mapIdx.1 hm
      have hi' : i < bankBytes := Nat.lt_of_lt_of_le hi (List.length_take_le _ _)
      obtain ⟨-, k, hk, h1, -⟩ := mem_bankCells r _ y hy
      have hbk : (b + 1) * bankBytes ≤ k * bankBytes := Nat.mul_le_mul_right _ (hr.1 k hk)
      rw [Nat.succ_mul] at hbk
      show b * bankBytes + i < y.1
      omega

/-! ### Reading after writing -/

/-- A read below every listed address finds nothing. -/
theorem cellGet_below (z : Byte) (a : Nat) (l : List Host.Cell) (h : ∀ c ∈ l, a < c.1) : cellGet z a l = z := by
  induction l with
  | nil => rfl
  | cons d r ih =>
    obtain ⟨i, b⟩ := d
    have : a < i := h _ List.mem_cons_self
    unfold cellGet
    rw [if_neg (by omega), ih fun c hc => h c (List.mem_cons_of_mem _ hc)]

theorem cellGet_put_same (z : Byte) (a : Nat) (v : Byte) (l : List Host.Cell) (h : cellsWf z l = true) :
    cellGet z a (cellPut z a v l) = v := by
  have hp := ((cellsWf_iff z l).1 h).2
  clear h
  induction l with
  | nil => unfold cellPut; split <;> simp_all [cellGet]
  | cons d r ih =>
    obtain ⟨i, b⟩ := d
    have hr := List.pairwise_cons.1 hp
    unfold cellPut
    repeat' split
    · subst_vars
      exact cellGet_below _ _ _ fun c hc => by
        rcases List.mem_cons.1 hc with rfl | h
        · assumption
        · exact Nat.lt_trans ‹a < i› (hr.1 c h)
    · simp [cellGet]
    · subst_vars
      exact cellGet_below _ _ _ hr.1
    · simp [cellGet]
    · unfold cellGet
      rw [if_neg (by omega)]
      exact ih hr.2

theorem cellGet_put_other (z : Byte) (a b : Nat) (v : Byte) (l : List Host.Cell) (hab : b ≠ a) :
    cellGet z b (cellPut z a v l) = cellGet z b l := by
  induction l with
  | nil => unfold cellPut; split <;> simp [cellGet, Ne.symm hab]
  | cons d r ih =>
    obtain ⟨i, w⟩ := d
    unfold cellPut
    repeat' split
    · rfl
    · simp [cellGet, Ne.symm hab]
    · subst_vars; simp [cellGet, Ne.symm hab]
    · subst_vars; simp [cellGet, Ne.symm hab]
    · simp only [cellGet, ih]

/-! ### The operations on memory and on the key -/

theorem setErr_cells (p : Place) (e : List Nat) (s : State) : (setErr p e s).mem.cells = s.mem.cells := by
  unfold setErr; rfl

/-- A word's check bits are no bytes: writing them leaves the store. -/
@[simp] theorem recode_cells (a : Nat) (full : Bool) (s : State) : (recode a full s).mem.cells = s.mem.cells := by
  unfold recode
  rw [setErr_cells]
  rfl

@[simp] theorem recode_wf (a : Nat) (full : Bool) (s : State) : Memory.wf (recode a full s) = Memory.wf s := by
  simp [Memory.wf]

theorem layBytes_wf (banks : List Nat) (base : Nat) (l : List Byte) (c : List Host.Cell) (h : cellsWf 0 c = true) :
    cellsWf 0 (layBytes banks base l c) = true := cellPut_fold_wf 0 _ _ h

theorem foldl_keeps {α β : Type} (p : β → Prop) (f : β → α → β) (h : ∀ b a, p b → p (f b a)) (l : List α) (b : β) (hb : p b) :
    p (l.foldl f b) := by
  induction l generalizing b with
  | nil => exact hb
  | cons a r ih => exact ih _ (h b a hb)

theorem loadImage_wf (banks : List Nat) (base : Nat) (l : List Byte) (s : State) (h : Memory.wf s = true) :
    Memory.wf (loadImage banks base l s) = true :=
  layBytes_wf banks base l _ (foldl_keeps (Memory.wf · = true) _ (fun t a ht => (recode_wf a true t).trans ht) _ s h)

theorem putBankByte_wf (a : Nat) (v : Byte) (s : State) (h : Memory.wf s = true) : Memory.wf (putBankByte a v s) = true := by
  unfold putBankByte
  split
  · exact h
  · exact cellPut_wf 0 a _ _ h

/-- A word of a table goes into its field of State, any other into the store: both keep the store's form. -/
theorem putWordBytes_wf (base : Nat) (w : List Byte) (s : State) (h : Memory.wf s = true) :
    Memory.wf (putWordBytes base w s) = true := by
  unfold putWordBytes
  dsimp only
  split
  case h_8 =>
    exact foldl_keeps (Memory.wf · = true) _ (fun t x ht => putBankByte_wf (base + x.1) x.2 t ht) _ s h
  all_goals first | exact h | exact cellPuts_wf 0 w base _ h

theorem storeWord_wf (base : Nat) (w : List Byte) (full : Bool) (s : State) (h : Memory.wf s = true) :
    Memory.wf (storeWord base w full s) = true :=
  (recode_wf base full _).trans (putWordBytes_wf base w s h)

theorem clearBank_wf (n : Nat) (s : State) (h : Memory.wf s = true) : Memory.wf (clearBank n s) = true := by
  refine cells_filter_wf 0 _ _ ?_
  split
  · exact h
  · exact h

theorem retainBanks_wf (s : State) (h : Memory.wf s = true) : Memory.wf (retainBanks s) = true := cells_filter_wf 0 _ _ h

theorem oldDataStays_wf (s : State) (h : Memory.wf s = true) : Memory.wf (oldDataStays s) = true := by
  exact foldl_keeps (cellsWf 0 · = true) _ (fun c i hc => layBytes_wf _ _ i.data c hc) s.cyc.instances s.mem.cells h

theorem loadMem_wf (k : KeySet) (m : Mem) : cellsWf 0 (k.loadMem m).cells = true :=
  layBytes_wf _ _ _ _ (bankCells_wf _ _ (List.Pairwise.filter _ List.pairwise_lt_range))

theorem programKey_wf (off : Nat) (l : List Byte) (s : State) (h : Key.wf s = true) : Key.wf (programKey off l s) = true :=
  cellPuts_wf 0xFF l off s.key.cells h

theorem eraseSector_wf (sector : Nat) (s : State) (h : Key.wf s = true) : Key.wf (eraseSector sector s) = true :=
  cellPuts_wf 0xFF _ _ _ (cells_filter_wf 0xFF _ _ h)

theorem rewriteKey_wf (off : Nat) (l : List Byte) (s : State) (h : Key.wf s = true) : Key.wf (rewriteKey off l s) = true := by
  refine programKey_wf off l _ ?_
  exact foldl_keeps (Key.wf · = true) _ (fun t i ht => eraseSector_wf _ t ht) _ s h

theorem writeHeader_wf (l : List Byte) (s : State) (h : Key.wf s = true) : Key.wf (writeHeader l s) = true :=
  rewriteKey_wf _ l _ (rewriteKey_wf _ l s h)

/-- Memory and the key right after reset. -/
theorem reset_stores_wf : Memory.wf State.reset = true ∧ Key.wf State.reset = true := ⟨rfl, rfl⟩

end Sys2Proof.Machine
end

