-- ==== Sys2Proof/Laws/State.lean ====
section
/-! SUPPORT. What each update of one part of the state does to every part: one lemma per part and update. -/

namespace Sys2Proof.Machine

variable (s : State)

/-! ### onSys -/

@[simp] theorem onSys_sys (f : Sys → Sys) : (onSys f s).sys = f s.sys := rfl
@[simp] theorem onSys_key (f : Sys → Sys) : (onSys f s).key = s.key := rfl
@[simp] theorem onSys_start (f : Sys → Sys) : (onSys f s).start = s.start := rfl
@[simp] theorem onSys_pwr (f : Sys → Sys) : (onSys f s).pwr = s.pwr := rfl
@[simp] theorem onSys_mem (f : Sys → Sys) : (onSys f s).mem = s.mem := rfl
@[simp] theorem onSys_cyc (f : Sys → Sys) : (onSys f s).cyc = s.cyc := rfl
@[simp] theorem onSys_olc (f : Sys → Sys) : (onSys f s).olc = s.olc := rfl
@[simp] theorem onSys_sig (f : Sys → Sys) : (onSys f s).sig = s.sig := rfl
@[simp] theorem onSys_eng (f : Sys → Sys) : (onSys f s).eng = s.eng := rfl
@[simp] theorem onSys_pair (f : Sys → Sys) : (onSys f s).pair = s.pair := rfl
@[simp] theorem onSys_hoist (f : Sys → Sys) : (onSys f s).hoist = s.hoist := rfl
@[simp] theorem onSys_ring (f : Sys → Sys) : (onSys f s).ring = s.ring := rfl
@[simp] theorem onSys_time (f : Sys → Sys) : (onSys f s).time = s.time := rfl
@[simp] theorem onSys_can (f : Sys → Sys) : (onSys f s).can = s.can := rfl
@[simp] theorem onSys_que (f : Sys → Sys) : (onSys f s).que = s.que := rfl
@[simp] theorem onSys_dio (f : Sys → Sys) : (onSys f s).dio = s.dio := rfl
@[simp] theorem onSys_ana (f : Sys → Sys) : (onSys f s).ana = s.ana := rfl
@[simp] theorem onSys_safe (f : Sys → Sys) : (onSys f s).safe = s.safe := rfl
@[simp] theorem onSys_rtc (f : Sys → Sys) : (onSys f s).rtc = s.rtc := rfl
@[simp] theorem onSys_log (f : Sys → Sys) : (onSys f s).log = s.log := rfl
@[simp] theorem onSys_sec (f : Sys → Sys) : (onSys f s).sec = s.sec := rfl
@[simp] theorem onSys_plant (f : Sys → Sys) : (onSys f s).plant = s.plant := rfl
@[simp] theorem onSys_ser (f : Sys → Sys) : (onSys f s).ser = s.ser := rfl
@[simp] theorem onSys_panel (f : Sys → Sys) : (onSys f s).panel = s.panel := rfl
@[simp] theorem onSys_mono (f : Sys → Sys) : (onSys f s).mono = s.mono := rfl
@[simp] theorem onSys_monoFrac (f : Sys → Sys) : (onSys f s).monoFrac = s.monoFrac := rfl
@[simp] theorem onSys_free (f : Sys → Sys) : (onSys f s).free = s.free := rfl
@[simp] theorem onSys_sent (f : Sys → Sys) : (onSys f s).sent = s.sent := rfl
@[simp] theorem onSys_pending (f : Sys → Sys) : (onSys f s).pending = s.pending := rfl

/-! ### onKey -/

@[simp] theorem onKey_sys (f : Key → Key) : (onKey f s).sys = s.sys := rfl
@[simp] theorem onKey_key (f : Key → Key) : (onKey f s).key = f s.key := rfl
@[simp] theorem onKey_start (f : Key → Key) : (onKey f s).start = s.start := rfl
@[simp] theorem onKey_pwr (f : Key → Key) : (onKey f s).pwr = s.pwr := rfl
@[simp] theorem onKey_mem (f : Key → Key) : (onKey f s).mem = s.mem := rfl
@[simp] theorem onKey_cyc (f : Key → Key) : (onKey f s).cyc = s.cyc := rfl
@[simp] theorem onKey_olc (f : Key → Key) : (onKey f s).olc = s.olc := rfl
@[simp] theorem onKey_sig (f : Key → Key) : (onKey f s).sig = s.sig := rfl
@[simp] theorem onKey_eng (f : Key → Key) : (onKey f s).eng = s.eng := rfl
@[simp] theorem onKey_pair (f : Key → Key) : (onKey f s).pair = s.pair := rfl
@[simp] theorem onKey_hoist (f : Key → Key) : (onKey f s).hoist = s.hoist := rfl
@[simp] theorem onKey_ring (f : Key → Key) : (onKey f s).ring = s.ring := rfl
@[simp] theorem onKey_time (f : Key → Key) : (onKey f s).time = s.time := rfl
@[simp] theorem onKey_can (f : Key → Key) : (onKey f s).can = s.can := rfl
@[simp] theorem onKey_que (f : Key → Key) : (onKey f s).que = s.que := rfl
@[simp] theorem onKey_dio (f : Key → Key) : (onKey f s).dio = s.dio := rfl
@[simp] theorem onKey_ana (f : Key → Key) : (onKey f s).ana = s.ana := rfl
@[simp] theorem onKey_safe (f : Key → Key) : (onKey f s).safe = s.safe := rfl
@[simp] theorem onKey_rtc (f : Key → Key) : (onKey f s).rtc = s.rtc := rfl
@[simp] theorem onKey_log (f : Key → Key) : (onKey f s).log = s.log := rfl
@[simp] theorem onKey_sec (f : Key → Key) : (onKey f s).sec = s.sec := rfl
@[simp] theorem onKey_plant (f : Key → Key) : (onKey f s).plant = s.plant := rfl
@[simp] theorem onKey_ser (f : Key → Key) : (onKey f s).ser = s.ser := rfl
@[simp] theorem onKey_panel (f : Key → Key) : (onKey f s).panel = s.panel := rfl
@[simp] theorem onKey_mono (f : Key → Key) : (onKey f s).mono = s.mono := rfl
@[simp] theorem onKey_monoFrac (f : Key → Key) : (onKey f s).monoFrac = s.monoFrac := rfl
@[simp] theorem onKey_free (f : Key → Key) : (onKey f s).free = s.free := rfl
@[simp] theorem onKey_sent (f : Key → Key) : (onKey f s).sent = s.sent := rfl
@[simp] theorem onKey_pending (f : Key → Key) : (onKey f s).pending = s.pending := rfl

/-! ### onStart -/

@[simp] theorem onStart_sys (f : Start → Start) : (onStart f s).sys = s.sys := rfl
@[simp] theorem onStart_key (f : Start → Start) : (onStart f s).key = s.key := rfl
@[simp] theorem onStart_start (f : Start → Start) : (onStart f s).start = f s.start := rfl
@[simp] theorem onStart_pwr (f : Start → Start) : (onStart f s).pwr = s.pwr := rfl
@[simp] theorem onStart_mem (f : Start → Start) : (onStart f s).mem = s.mem := rfl
@[simp] theorem onStart_cyc (f : Start → Start) : (onStart f s).cyc = s.cyc := rfl
@[simp] theorem onStart_olc (f : Start → Start) : (onStart f s).olc = s.olc := rfl
@[simp] theorem onStart_sig (f : Start → Start) : (onStart f s).sig = s.sig := rfl
@[simp] theorem onStart_eng (f : Start → Start) : (onStart f s).eng = s.eng := rfl
@[simp] theorem onStart_pair (f : Start → Start) : (onStart f s).pair = s.pair := rfl
@[simp] theorem onStart_hoist (f : Start → Start) : (onStart f s).hoist = s.hoist := rfl
@[simp] theorem onStart_ring (f : Start → Start) : (onStart f s).ring = s.ring := rfl
@[simp] theorem onStart_time (f : Start → Start) : (onStart f s).time = s.time := rfl
@[simp] theorem onStart_can (f : Start → Start) : (onStart f s).can = s.can := rfl
@[simp] theorem onStart_que (f : Start → Start) : (onStart f s).que = s.que := rfl
@[simp] theorem onStart_dio (f : Start → Start) : (onStart f s).dio = s.dio := rfl
@[simp] theorem onStart_ana (f : Start → Start) : (onStart f s).ana = s.ana := rfl
@[simp] theorem onStart_safe (f : Start → Start) : (onStart f s).safe = s.safe := rfl
@[simp] theorem onStart_rtc (f : Start → Start) : (onStart f s).rtc = s.rtc := rfl
@[simp] theorem onStart_log (f : Start → Start) : (onStart f s).log = s.log := rfl
@[simp] theorem onStart_sec (f : Start → Start) : (onStart f s).sec = s.sec := rfl
@[simp] theorem onStart_plant (f : Start → Start) : (onStart f s).plant = s.plant := rfl
@[simp] theorem onStart_ser (f : Start → Start) : (onStart f s).ser = s.ser := rfl
@[simp] theorem onStart_panel (f : Start → Start) : (onStart f s).panel = s.panel := rfl
@[simp] theorem onStart_mono (f : Start → Start) : (onStart f s).mono = s.mono := rfl
@[simp] theorem onStart_monoFrac (f : Start → Start) : (onStart f s).monoFrac = s.monoFrac := rfl
@[simp] theorem onStart_free (f : Start → Start) : (onStart f s).free = s.free := rfl
@[simp] theorem onStart_sent (f : Start → Start) : (onStart f s).sent = s.sent := rfl
@[simp] theorem onStart_pending (f : Start → Start) : (onStart f s).pending = s.pending := rfl

/-! ### onPwr -/

@[simp] theorem onPwr_sys (f : Pwr → Pwr) : (onPwr f s).sys = s.sys := rfl
@[simp] theorem onPwr_key (f : Pwr → Pwr) : (onPwr f s).key = s.key := rfl
@[simp] theorem onPwr_start (f : Pwr → Pwr) : (onPwr f s).start = s.start := rfl
@[simp] theorem onPwr_pwr (f : Pwr → Pwr) : (onPwr f s).pwr = f s.pwr := rfl
@[simp] theorem onPwr_mem (f : Pwr → Pwr) : (onPwr f s).mem = s.mem := rfl
@[simp] theorem onPwr_cyc (f : Pwr → Pwr) : (onPwr f s).cyc = s.cyc := rfl
@[simp] theorem onPwr_olc (f : Pwr → Pwr) : (onPwr f s).olc = s.olc := rfl
@[simp] theorem onPwr_sig (f : Pwr → Pwr) : (onPwr f s).sig = s.sig := rfl
@[simp] theorem onPwr_eng (f : Pwr → Pwr) : (onPwr f s).eng = s.eng := rfl
@[simp] theorem onPwr_pair (f : Pwr → Pwr) : (onPwr f s).pair = s.pair := rfl
@[simp] theorem onPwr_hoist (f : Pwr → Pwr) : (onPwr f s).hoist = s.hoist := rfl
@[simp] theorem onPwr_ring (f : Pwr → Pwr) : (onPwr f s).ring = s.ring := rfl
@[simp] theorem onPwr_time (f : Pwr → Pwr) : (onPwr f s).time = s.time := rfl
@[simp] theorem onPwr_can (f : Pwr → Pwr) : (onPwr f s).can = s.can := rfl
@[simp] theorem onPwr_que (f : Pwr → Pwr) : (onPwr f s).que = s.que := rfl
@[simp] theorem onPwr_dio (f : Pwr → Pwr) : (onPwr f s).dio = s.dio := rfl
@[simp] theorem onPwr_ana (f : Pwr → Pwr) : (onPwr f s).ana = s.ana := rfl
@[simp] theorem onPwr_safe (f : Pwr → Pwr) : (onPwr f s).safe = s.safe := rfl
@[simp] theorem onPwr_rtc (f : Pwr → Pwr) : (onPwr f s).rtc = s.rtc := rfl
@[simp] theorem onPwr_log (f : Pwr → Pwr) : (onPwr f s).log = s.log := rfl
@[simp] theorem onPwr_sec (f : Pwr → Pwr) : (onPwr f s).sec = s.sec := rfl
@[simp] theorem onPwr_plant (f : Pwr → Pwr) : (onPwr f s).plant = s.plant := rfl
@[simp] theorem onPwr_ser (f : Pwr → Pwr) : (onPwr f s).ser = s.ser := rfl
@[simp] theorem onPwr_panel (f : Pwr → Pwr) : (onPwr f s).panel = s.panel := rfl
@[simp] theorem onPwr_mono (f : Pwr → Pwr) : (onPwr f s).mono = s.mono := rfl
@[simp] theorem onPwr_monoFrac (f : Pwr → Pwr) : (onPwr f s).monoFrac = s.monoFrac := rfl
@[simp] theorem onPwr_free (f : Pwr → Pwr) : (onPwr f s).free = s.free := rfl
@[simp] theorem onPwr_sent (f : Pwr → Pwr) : (onPwr f s).sent = s.sent := rfl
@[simp] theorem onPwr_pending (f : Pwr → Pwr) : (onPwr f s).pending = s.pending := rfl

/-! ### onMem -/

@[simp] theorem onMem_sys (f : Mem → Mem) : (onMem f s).sys = s.sys := rfl
@[simp] theorem onMem_key (f : Mem → Mem) : (onMem f s).key = s.key := rfl
@[simp] theorem onMem_start (f : Mem → Mem) : (onMem f s).start = s.start := rfl
@[simp] theorem onMem_pwr (f : Mem → Mem) : (onMem f s).pwr = s.pwr := rfl
@[simp] theorem onMem_mem (f : Mem → Mem) : (onMem f s).mem = f s.mem := rfl
@[simp] theorem onMem_cyc (f : Mem → Mem) : (onMem f s).cyc = s.cyc := rfl
@[simp] theorem onMem_olc (f : Mem → Mem) : (onMem f s).olc = s.olc := rfl
@[simp] theorem onMem_sig (f : Mem → Mem) : (onMem f s).sig = s.sig := rfl
@[simp] theorem onMem_eng (f : Mem → Mem) : (onMem f s).eng = s.eng := rfl
@[simp] theorem onMem_pair (f : Mem → Mem) : (onMem f s).pair = s.pair := rfl
@[simp] theorem onMem_hoist (f : Mem → Mem) : (onMem f s).hoist = s.hoist := rfl
@[simp] theorem onMem_ring (f : Mem → Mem) : (onMem f s).ring = s.ring := rfl
@[simp] theorem onMem_time (f : Mem → Mem) : (onMem f s).time = s.time := rfl
@[simp] theorem onMem_can (f : Mem → Mem) : (onMem f s).can = s.can := rfl
@[simp] theorem onMem_que (f : Mem → Mem) : (onMem f s).que = s.que := rfl
@[simp] theorem onMem_dio (f : Mem → Mem) : (onMem f s).dio = s.dio := rfl
@[simp] theorem onMem_ana (f : Mem → Mem) : (onMem f s).ana = s.ana := rfl
@[simp] theorem onMem_safe (f : Mem → Mem) : (onMem f s).safe = s.safe := rfl
@[simp] theorem onMem_rtc (f : Mem → Mem) : (onMem f s).rtc = s.rtc := rfl
@[simp] theorem onMem_log (f : Mem → Mem) : (onMem f s).log = s.log := rfl
@[simp] theorem onMem_sec (f : Mem → Mem) : (onMem f s).sec = s.sec := rfl
@[simp] theorem onMem_plant (f : Mem → Mem) : (onMem f s).plant = s.plant := rfl
@[simp] theorem onMem_ser (f : Mem → Mem) : (onMem f s).ser = s.ser := rfl
@[simp] theorem onMem_panel (f : Mem → Mem) : (onMem f s).panel = s.panel := rfl
@[simp] theorem onMem_mono (f : Mem → Mem) : (onMem f s).mono = s.mono := rfl
@[simp] theorem onMem_monoFrac (f : Mem → Mem) : (onMem f s).monoFrac = s.monoFrac := rfl
@[simp] theorem onMem_free (f : Mem → Mem) : (onMem f s).free = s.free := rfl
@[simp] theorem onMem_sent (f : Mem → Mem) : (onMem f s).sent = s.sent := rfl
@[simp] theorem onMem_pending (f : Mem → Mem) : (onMem f s).pending = s.pending := rfl

/-! ### onCyc -/

@[simp] theorem onCyc_sys (f : Cyc → Cyc) : (onCyc f s).sys = s.sys := rfl
@[simp] theorem onCyc_key (f : Cyc → Cyc) : (onCyc f s).key = s.key := rfl
@[simp] theorem onCyc_start (f : Cyc → Cyc) : (onCyc f s).start = s.start := rfl
@[simp] theorem onCyc_pwr (f : Cyc → Cyc) : (onCyc f s).pwr = s.pwr := rfl
@[simp] theorem onCyc_mem (f : Cyc → Cyc) : (onCyc f s).mem = s.mem := rfl
@[simp] theorem onCyc_cyc (f : Cyc → Cyc) : (onCyc f s).cyc = f s.cyc := rfl
@[simp] theorem onCyc_olc (f : Cyc → Cyc) : (onCyc f s).olc = s.olc := rfl
@[simp] theorem onCyc_sig (f : Cyc → Cyc) : (onCyc f s).sig = s.sig := rfl
@[simp] theorem onCyc_eng (f : Cyc → Cyc) : (onCyc f s).eng = s.eng := rfl
@[simp] theorem onCyc_pair (f : Cyc → Cyc) : (onCyc f s).pair = s.pair := rfl
@[simp] theorem onCyc_hoist (f : Cyc → Cyc) : (onCyc f s).hoist = s.hoist := rfl
@[simp] theorem onCyc_ring (f : Cyc → Cyc) : (onCyc f s).ring = s.ring := rfl
@[simp] theorem onCyc_time (f : Cyc → Cyc) : (onCyc f s).time = s.time := rfl
@[simp] theorem onCyc_can (f : Cyc → Cyc) : (onCyc f s).can = s.can := rfl
@[simp] theorem onCyc_que (f : Cyc → Cyc) : (onCyc f s).que = s.que := rfl
@[simp] theorem onCyc_dio (f : Cyc → Cyc) : (onCyc f s).dio = s.dio := rfl
@[simp] theorem onCyc_ana (f : Cyc → Cyc) : (onCyc f s).ana = s.ana := rfl
@[simp] theorem onCyc_safe (f : Cyc → Cyc) : (onCyc f s).safe = s.safe := rfl
@[simp] theorem onCyc_rtc (f : Cyc → Cyc) : (onCyc f s).rtc = s.rtc := rfl
@[simp] theorem onCyc_log (f : Cyc → Cyc) : (onCyc f s).log = s.log := rfl
@[simp] theorem onCyc_sec (f : Cyc → Cyc) : (onCyc f s).sec = s.sec := rfl
@[simp] theorem onCyc_plant (f : Cyc → Cyc) : (onCyc f s).plant = s.plant := rfl
@[simp] theorem onCyc_ser (f : Cyc → Cyc) : (onCyc f s).ser = s.ser := rfl
@[simp] theorem onCyc_panel (f : Cyc → Cyc) : (onCyc f s).panel = s.panel := rfl
@[simp] theorem onCyc_mono (f : Cyc → Cyc) : (onCyc f s).mono = s.mono := rfl
@[simp] theorem onCyc_monoFrac (f : Cyc → Cyc) : (onCyc f s).monoFrac = s.monoFrac := rfl
@[simp] theorem onCyc_free (f : Cyc → Cyc) : (onCyc f s).free = s.free := rfl
@[simp] theorem onCyc_sent (f : Cyc → Cyc) : (onCyc f s).sent = s.sent := rfl
@[simp] theorem onCyc_pending (f : Cyc → Cyc) : (onCyc f s).pending = s.pending := rfl

/-! ### onOlc -/

@[simp] theorem onOlc_sys (f : Olc → Olc) : (onOlc f s).sys = s.sys := rfl
@[simp] theorem onOlc_key (f : Olc → Olc) : (onOlc f s).key = s.key := rfl
@[simp] theorem onOlc_start (f : Olc → Olc) : (onOlc f s).start = s.start := rfl
@[simp] theorem onOlc_pwr (f : Olc → Olc) : (onOlc f s).pwr = s.pwr := rfl
@[simp] theorem onOlc_mem (f : Olc → Olc) : (onOlc f s).mem = s.mem := rfl
@[simp] theorem onOlc_cyc (f : Olc → Olc) : (onOlc f s).cyc = s.cyc := rfl
@[simp] theorem onOlc_olc (f : Olc → Olc) : (onOlc f s).olc = f s.olc := rfl
@[simp] theorem onOlc_sig (f : Olc → Olc) : (onOlc f s).sig = s.sig := rfl
@[simp] theorem onOlc_eng (f : Olc → Olc) : (onOlc f s).eng = s.eng := rfl
@[simp] theorem onOlc_pair (f : Olc → Olc) : (onOlc f s).pair = s.pair := rfl
@[simp] theorem onOlc_hoist (f : Olc → Olc) : (onOlc f s).hoist = s.hoist := rfl
@[simp] theorem onOlc_ring (f : Olc → Olc) : (onOlc f s).ring = s.ring := rfl
@[simp] theorem onOlc_time (f : Olc → Olc) : (onOlc f s).time = s.time := rfl
@[simp] theorem onOlc_can (f : Olc → Olc) : (onOlc f s).can = s.can := rfl
@[simp] theorem onOlc_que (f : Olc → Olc) : (onOlc f s).que = s.que := rfl
@[simp] theorem onOlc_dio (f : Olc → Olc) : (onOlc f s).dio = s.dio := rfl
@[simp] theorem onOlc_ana (f : Olc → Olc) : (onOlc f s).ana = s.ana := rfl
@[simp] theorem onOlc_safe (f : Olc → Olc) : (onOlc f s).safe = s.safe := rfl
@[simp] theorem onOlc_rtc (f : Olc → Olc) : (onOlc f s).rtc = s.rtc := rfl
@[simp] theorem onOlc_log (f : Olc → Olc) : (onOlc f s).log = s.log := rfl
@[simp] theorem onOlc_sec (f : Olc → Olc) : (onOlc f s).sec = s.sec := rfl
@[simp] theorem onOlc_plant (f : Olc → Olc) : (onOlc f s).plant = s.plant := rfl
@[simp] theorem onOlc_ser (f : Olc → Olc) : (onOlc f s).ser = s.ser := rfl
@[simp] theorem onOlc_panel (f : Olc → Olc) : (onOlc f s).panel = s.panel := rfl
@[simp] theorem onOlc_mono (f : Olc → Olc) : (onOlc f s).mono = s.mono := rfl
@[simp] theorem onOlc_monoFrac (f : Olc → Olc) : (onOlc f s).monoFrac = s.monoFrac := rfl
@[simp] theorem onOlc_free (f : Olc → Olc) : (onOlc f s).free = s.free := rfl
@[simp] theorem onOlc_sent (f : Olc → Olc) : (onOlc f s).sent = s.sent := rfl
@[simp] theorem onOlc_pending (f : Olc → Olc) : (onOlc f s).pending = s.pending := rfl

/-! ### onSig -/

@[simp] theorem onSig_sys (f : Sig → Sig) : (onSig f s).sys = s.sys := rfl
@[simp] theorem onSig_key (f : Sig → Sig) : (onSig f s).key = s.key := rfl
@[simp] theorem onSig_start (f : Sig → Sig) : (onSig f s).start = s.start := rfl
@[simp] theorem onSig_pwr (f : Sig → Sig) : (onSig f s).pwr = s.pwr := rfl
@[simp] theorem onSig_mem (f : Sig → Sig) : (onSig f s).mem = s.mem := rfl
@[simp] theorem onSig_cyc (f : Sig → Sig) : (onSig f s).cyc = s.cyc := rfl
@[simp] theorem onSig_olc (f : Sig → Sig) : (onSig f s).olc = s.olc := rfl
@[simp] theorem onSig_sig (f : Sig → Sig) : (onSig f s).sig = f s.sig := rfl
@[simp] theorem onSig_eng (f : Sig → Sig) : (onSig f s).eng = s.eng := rfl
@[simp] theorem onSig_pair (f : Sig → Sig) : (onSig f s).pair = s.pair := rfl
@[simp] theorem onSig_hoist (f : Sig → Sig) : (onSig f s).hoist = s.hoist := rfl
@[simp] theorem onSig_ring (f : Sig → Sig) : (onSig f s).ring = s.ring := rfl
@[simp] theorem onSig_time (f : Sig → Sig) : (onSig f s).time = s.time := rfl
@[simp] theorem onSig_can (f : Sig → Sig) : (onSig f s).can = s.can := rfl
@[simp] theorem onSig_que (f : Sig → Sig) : (onSig f s).que = s.que := rfl
@[simp] theorem onSig_dio (f : Sig → Sig) : (onSig f s).dio = s.dio := rfl
@[simp] theorem onSig_ana (f : Sig → Sig) : (onSig f s).ana = s.ana := rfl
@[simp] theorem onSig_safe (f : Sig → Sig) : (onSig f s).safe = s.safe := rfl
@[simp] theorem onSig_rtc (f : Sig → Sig) : (onSig f s).rtc = s.rtc := rfl
@[simp] theorem onSig_log (f : Sig → Sig) : (onSig f s).log = s.log := rfl
@[simp] theorem onSig_sec (f : Sig → Sig) : (onSig f s).sec = s.sec := rfl
@[simp] theorem onSig_plant (f : Sig → Sig) : (onSig f s).plant = s.plant := rfl
@[simp] theorem onSig_ser (f : Sig → Sig) : (onSig f s).ser = s.ser := rfl
@[simp] theorem onSig_panel (f : Sig → Sig) : (onSig f s).panel = s.panel := rfl
@[simp] theorem onSig_mono (f : Sig → Sig) : (onSig f s).mono = s.mono := rfl
@[simp] theorem onSig_monoFrac (f : Sig → Sig) : (onSig f s).monoFrac = s.monoFrac := rfl
@[simp] theorem onSig_free (f : Sig → Sig) : (onSig f s).free = s.free := rfl
@[simp] theorem onSig_sent (f : Sig → Sig) : (onSig f s).sent = s.sent := rfl
@[simp] theorem onSig_pending (f : Sig → Sig) : (onSig f s).pending = s.pending := rfl

/-! ### onEng -/

@[simp] theorem onEng_sys (f : Engine → Engine) : (onEng f s).sys = s.sys := rfl
@[simp] theorem onEng_key (f : Engine → Engine) : (onEng f s).key = s.key := rfl
@[simp] theorem onEng_start (f : Engine → Engine) : (onEng f s).start = s.start := rfl
@[simp] theorem onEng_pwr (f : Engine → Engine) : (onEng f s).pwr = s.pwr := rfl
@[simp] theorem onEng_mem (f : Engine → Engine) : (onEng f s).mem = s.mem := rfl
@[simp] theorem onEng_cyc (f : Engine → Engine) : (onEng f s).cyc = s.cyc := rfl
@[simp] theorem onEng_olc (f : Engine → Engine) : (onEng f s).olc = s.olc := rfl
@[simp] theorem onEng_sig (f : Engine → Engine) : (onEng f s).sig = s.sig := rfl
@[simp] theorem onEng_eng (f : Engine → Engine) : (onEng f s).eng = f s.eng := rfl
@[simp] theorem onEng_pair (f : Engine → Engine) : (onEng f s).pair = s.pair := rfl
@[simp] theorem onEng_hoist (f : Engine → Engine) : (onEng f s).hoist = s.hoist := rfl
@[simp] theorem onEng_ring (f : Engine → Engine) : (onEng f s).ring = s.ring := rfl
@[simp] theorem onEng_time (f : Engine → Engine) : (onEng f s).time = s.time := rfl
@[simp] theorem onEng_can (f : Engine → Engine) : (onEng f s).can = s.can := rfl
@[simp] theorem onEng_que (f : Engine → Engine) : (onEng f s).que = s.que := rfl
@[simp] theorem onEng_dio (f : Engine → Engine) : (onEng f s).dio = s.dio := rfl
@[simp] theorem onEng_ana (f : Engine → Engine) : (onEng f s).ana = s.ana := rfl
@[simp] theorem onEng_safe (f : Engine → Engine) : (onEng f s).safe = s.safe := rfl
@[simp] theorem onEng_rtc (f : Engine → Engine) : (onEng f s).rtc = s.rtc := rfl
@[simp] theorem onEng_log (f : Engine → Engine) : (onEng f s).log = s.log := rfl
@[simp] theorem onEng_sec (f : Engine → Engine) : (onEng f s).sec = s.sec := rfl
@[simp] theorem onEng_plant (f : Engine → Engine) : (onEng f s).plant = s.plant := rfl
@[simp] theorem onEng_ser (f : Engine → Engine) : (onEng f s).ser = s.ser := rfl
@[simp] theorem onEng_panel (f : Engine → Engine) : (onEng f s).panel = s.panel := rfl
@[simp] theorem onEng_mono (f : Engine → Engine) : (onEng f s).mono = s.mono := rfl
@[simp] theorem onEng_monoFrac (f : Engine → Engine) : (onEng f s).monoFrac = s.monoFrac := rfl
@[simp] theorem onEng_free (f : Engine → Engine) : (onEng f s).free = s.free := rfl
@[simp] theorem onEng_sent (f : Engine → Engine) : (onEng f s).sent = s.sent := rfl
@[simp] theorem onEng_pending (f : Engine → Engine) : (onEng f s).pending = s.pending := rfl

/-! ### onPair -/

@[simp] theorem onPair_sys (f : Pair → Pair) : (onPair f s).sys = s.sys := rfl
@[simp] theorem onPair_key (f : Pair → Pair) : (onPair f s).key = s.key := rfl
@[simp] theorem onPair_start (f : Pair → Pair) : (onPair f s).start = s.start := rfl
@[simp] theorem onPair_pwr (f : Pair → Pair) : (onPair f s).pwr = s.pwr := rfl
@[simp] theorem onPair_mem (f : Pair → Pair) : (onPair f s).mem = s.mem := rfl
@[simp] theorem onPair_cyc (f : Pair → Pair) : (onPair f s).cyc = s.cyc := rfl
@[simp] theorem onPair_olc (f : Pair → Pair) : (onPair f s).olc = s.olc := rfl
@[simp] theorem onPair_sig (f : Pair → Pair) : (onPair f s).sig = s.sig := rfl
@[simp] theorem onPair_eng (f : Pair → Pair) : (onPair f s).eng = s.eng := rfl
@[simp] theorem onPair_pair (f : Pair → Pair) : (onPair f s).pair = f s.pair := rfl
@[simp] theorem onPair_hoist (f : Pair → Pair) : (onPair f s).hoist = s.hoist := rfl
@[simp] theorem onPair_ring (f : Pair → Pair) : (onPair f s).ring = s.ring := rfl
@[simp] theorem onPair_time (f : Pair → Pair) : (onPair f s).time = s.time := rfl
@[simp] theorem onPair_can (f : Pair → Pair) : (onPair f s).can = s.can := rfl
@[simp] theorem onPair_que (f : Pair → Pair) : (onPair f s).que = s.que := rfl
@[simp] theorem onPair_dio (f : Pair → Pair) : (onPair f s).dio = s.dio := rfl
@[simp] theorem onPair_ana (f : Pair → Pair) : (onPair f s).ana = s.ana := rfl
@[simp] theorem onPair_safe (f : Pair → Pair) : (onPair f s).safe = s.safe := rfl
@[simp] theorem onPair_rtc (f : Pair → Pair) : (onPair f s).rtc = s.rtc := rfl
@[simp] theorem onPair_log (f : Pair → Pair) : (onPair f s).log = s.log := rfl
@[simp] theorem onPair_sec (f : Pair → Pair) : (onPair f s).sec = s.sec := rfl
@[simp] theorem onPair_plant (f : Pair → Pair) : (onPair f s).plant = s.plant := rfl
@[simp] theorem onPair_ser (f : Pair → Pair) : (onPair f s).ser = s.ser := rfl
@[simp] theorem onPair_panel (f : Pair → Pair) : (onPair f s).panel = s.panel := rfl
@[simp] theorem onPair_mono (f : Pair → Pair) : (onPair f s).mono = s.mono := rfl
@[simp] theorem onPair_monoFrac (f : Pair → Pair) : (onPair f s).monoFrac = s.monoFrac := rfl
@[simp] theorem onPair_free (f : Pair → Pair) : (onPair f s).free = s.free := rfl
@[simp] theorem onPair_sent (f : Pair → Pair) : (onPair f s).sent = s.sent := rfl
@[simp] theorem onPair_pending (f : Pair → Pair) : (onPair f s).pending = s.pending := rfl

/-! ### onHoist -/

@[simp] theorem onHoist_sys (f : Hoist → Hoist) : (onHoist f s).sys = s.sys := rfl
@[simp] theorem onHoist_key (f : Hoist → Hoist) : (onHoist f s).key = s.key := rfl
@[simp] theorem onHoist_start (f : Hoist → Hoist) : (onHoist f s).start = s.start := rfl
@[simp] theorem onHoist_pwr (f : Hoist → Hoist) : (onHoist f s).pwr = s.pwr := rfl
@[simp] theorem onHoist_mem (f : Hoist → Hoist) : (onHoist f s).mem = s.mem := rfl
@[simp] theorem onHoist_cyc (f : Hoist → Hoist) : (onHoist f s).cyc = s.cyc := rfl
@[simp] theorem onHoist_olc (f : Hoist → Hoist) : (onHoist f s).olc = s.olc := rfl
@[simp] theorem onHoist_sig (f : Hoist → Hoist) : (onHoist f s).sig = s.sig := rfl
@[simp] theorem onHoist_eng (f : Hoist → Hoist) : (onHoist f s).eng = s.eng := rfl
@[simp] theorem onHoist_pair (f : Hoist → Hoist) : (onHoist f s).pair = s.pair := rfl
@[simp] theorem onHoist_hoist (f : Hoist → Hoist) : (onHoist f s).hoist = f s.hoist := rfl
@[simp] theorem onHoist_ring (f : Hoist → Hoist) : (onHoist f s).ring = s.ring := rfl
@[simp] theorem onHoist_time (f : Hoist → Hoist) : (onHoist f s).time = s.time := rfl
@[simp] theorem onHoist_can (f : Hoist → Hoist) : (onHoist f s).can = s.can := rfl
@[simp] theorem onHoist_que (f : Hoist → Hoist) : (onHoist f s).que = s.que := rfl
@[simp] theorem onHoist_dio (f : Hoist → Hoist) : (onHoist f s).dio = s.dio := rfl
@[simp] theorem onHoist_ana (f : Hoist → Hoist) : (onHoist f s).ana = s.ana := rfl
@[simp] theorem onHoist_safe (f : Hoist → Hoist) : (onHoist f s).safe = s.safe := rfl
@[simp] theorem onHoist_rtc (f : Hoist → Hoist) : (onHoist f s).rtc = s.rtc := rfl
@[simp] theorem onHoist_log (f : Hoist → Hoist) : (onHoist f s).log = s.log := rfl
@[simp] theorem onHoist_sec (f : Hoist → Hoist) : (onHoist f s).sec = s.sec := rfl
@[simp] theorem onHoist_plant (f : Hoist → Hoist) : (onHoist f s).plant = s.plant := rfl
@[simp] theorem onHoist_ser (f : Hoist → Hoist) : (onHoist f s).ser = s.ser := rfl
@[simp] theorem onHoist_panel (f : Hoist → Hoist) : (onHoist f s).panel = s.panel := rfl
@[simp] theorem onHoist_mono (f : Hoist → Hoist) : (onHoist f s).mono = s.mono := rfl
@[simp] theorem onHoist_monoFrac (f : Hoist → Hoist) : (onHoist f s).monoFrac = s.monoFrac := rfl
@[simp] theorem onHoist_free (f : Hoist → Hoist) : (onHoist f s).free = s.free := rfl
@[simp] theorem onHoist_sent (f : Hoist → Hoist) : (onHoist f s).sent = s.sent := rfl
@[simp] theorem onHoist_pending (f : Hoist → Hoist) : (onHoist f s).pending = s.pending := rfl

/-! ### onRing -/

@[simp] theorem onRing_sys (f : Ring → Ring) : (onRing f s).sys = s.sys := rfl
@[simp] theorem onRing_key (f : Ring → Ring) : (onRing f s).key = s.key := rfl
@[simp] theorem onRing_start (f : Ring → Ring) : (onRing f s).start = s.start := rfl
@[simp] theorem onRing_pwr (f : Ring → Ring) : (onRing f s).pwr = s.pwr := rfl
@[simp] theorem onRing_mem (f : Ring → Ring) : (onRing f s).mem = s.mem := rfl
@[simp] theorem onRing_cyc (f : Ring → Ring) : (onRing f s).cyc = s.cyc := rfl
@[simp] theorem onRing_olc (f : Ring → Ring) : (onRing f s).olc = s.olc := rfl
@[simp] theorem onRing_sig (f : Ring → Ring) : (onRing f s).sig = s.sig := rfl
@[simp] theorem onRing_eng (f : Ring → Ring) : (onRing f s).eng = s.eng := rfl
@[simp] theorem onRing_pair (f : Ring → Ring) : (onRing f s).pair = s.pair := rfl
@[simp] theorem onRing_hoist (f : Ring → Ring) : (onRing f s).hoist = s.hoist := rfl
@[simp] theorem onRing_ring (f : Ring → Ring) : (onRing f s).ring = f s.ring := rfl
@[simp] theorem onRing_time (f : Ring → Ring) : (onRing f s).time = s.time := rfl
@[simp] theorem onRing_can (f : Ring → Ring) : (onRing f s).can = s.can := rfl
@[simp] theorem onRing_que (f : Ring → Ring) : (onRing f s).que = s.que := rfl
@[simp] theorem onRing_dio (f : Ring → Ring) : (onRing f s).dio = s.dio := rfl
@[simp] theorem onRing_ana (f : Ring → Ring) : (onRing f s).ana = s.ana := rfl
@[simp] theorem onRing_safe (f : Ring → Ring) : (onRing f s).safe = s.safe := rfl
@[simp] theorem onRing_rtc (f : Ring → Ring) : (onRing f s).rtc = s.rtc := rfl
@[simp] theorem onRing_log (f : Ring → Ring) : (onRing f s).log = s.log := rfl
@[simp] theorem onRing_sec (f : Ring → Ring) : (onRing f s).sec = s.sec := rfl
@[simp] theorem onRing_plant (f : Ring → Ring) : (onRing f s).plant = s.plant := rfl
@[simp] theorem onRing_ser (f : Ring → Ring) : (onRing f s).ser = s.ser := rfl
@[simp] theorem onRing_panel (f : Ring → Ring) : (onRing f s).panel = s.panel := rfl
@[simp] theorem onRing_mono (f : Ring → Ring) : (onRing f s).mono = s.mono := rfl
@[simp] theorem onRing_monoFrac (f : Ring → Ring) : (onRing f s).monoFrac = s.monoFrac := rfl
@[simp] theorem onRing_free (f : Ring → Ring) : (onRing f s).free = s.free := rfl
@[simp] theorem onRing_sent (f : Ring → Ring) : (onRing f s).sent = s.sent := rfl
@[simp] theorem onRing_pending (f : Ring → Ring) : (onRing f s).pending = s.pending := rfl

/-! ### onTime -/

@[simp] theorem onTime_sys (f : Time → Time) : (onTime f s).sys = s.sys := rfl
@[simp] theorem onTime_key (f : Time → Time) : (onTime f s).key = s.key := rfl
@[simp] theorem onTime_start (f : Time → Time) : (onTime f s).start = s.start := rfl
@[simp] theorem onTime_pwr (f : Time → Time) : (onTime f s).pwr = s.pwr := rfl
@[simp] theorem onTime_mem (f : Time → Time) : (onTime f s).mem = s.mem := rfl
@[simp] theorem onTime_cyc (f : Time → Time) : (onTime f s).cyc = s.cyc := rfl
@[simp] theorem onTime_olc (f : Time → Time) : (onTime f s).olc = s.olc := rfl
@[simp] theorem onTime_sig (f : Time → Time) : (onTime f s).sig = s.sig := rfl
@[simp] theorem onTime_eng (f : Time → Time) : (onTime f s).eng = s.eng := rfl
@[simp] theorem onTime_pair (f : Time → Time) : (onTime f s).pair = s.pair := rfl
@[simp] theorem onTime_hoist (f : Time → Time) : (onTime f s).hoist = s.hoist := rfl
@[simp] theorem onTime_ring (f : Time → Time) : (onTime f s).ring = s.ring := rfl
@[simp] theorem onTime_time (f : Time → Time) : (onTime f s).time = f s.time := rfl
@[simp] theorem onTime_can (f : Time → Time) : (onTime f s).can = s.can := rfl
@[simp] theorem onTime_que (f : Time → Time) : (onTime f s).que = s.que := rfl
@[simp] theorem onTime_dio (f : Time → Time) : (onTime f s).dio = s.dio := rfl
@[simp] theorem onTime_ana (f : Time → Time) : (onTime f s).ana = s.ana := rfl
@[simp] theorem onTime_safe (f : Time → Time) : (onTime f s).safe = s.safe := rfl
@[simp] theorem onTime_rtc (f : Time → Time) : (onTime f s).rtc = s.rtc := rfl
@[simp] theorem onTime_log (f : Time → Time) : (onTime f s).log = s.log := rfl
@[simp] theorem onTime_sec (f : Time → Time) : (onTime f s).sec = s.sec := rfl
@[simp] theorem onTime_plant (f : Time → Time) : (onTime f s).plant = s.plant := rfl
@[simp] theorem onTime_ser (f : Time → Time) : (onTime f s).ser = s.ser := rfl
@[simp] theorem onTime_panel (f : Time → Time) : (onTime f s).panel = s.panel := rfl
@[simp] theorem onTime_mono (f : Time → Time) : (onTime f s).mono = s.mono := rfl
@[simp] theorem onTime_monoFrac (f : Time → Time) : (onTime f s).monoFrac = s.monoFrac := rfl
@[simp] theorem onTime_free (f : Time → Time) : (onTime f s).free = s.free := rfl
@[simp] theorem onTime_sent (f : Time → Time) : (onTime f s).sent = s.sent := rfl
@[simp] theorem onTime_pending (f : Time → Time) : (onTime f s).pending = s.pending := rfl

/-! ### onQue -/

@[simp] theorem onQue_sys (f : Que → Que) : (onQue f s).sys = s.sys := rfl
@[simp] theorem onQue_key (f : Que → Que) : (onQue f s).key = s.key := rfl
@[simp] theorem onQue_start (f : Que → Que) : (onQue f s).start = s.start := rfl
@[simp] theorem onQue_pwr (f : Que → Que) : (onQue f s).pwr = s.pwr := rfl
@[simp] theorem onQue_mem (f : Que → Que) : (onQue f s).mem = s.mem := rfl
@[simp] theorem onQue_cyc (f : Que → Que) : (onQue f s).cyc = s.cyc := rfl
@[simp] theorem onQue_olc (f : Que → Que) : (onQue f s).olc = s.olc := rfl
@[simp] theorem onQue_sig (f : Que → Que) : (onQue f s).sig = s.sig := rfl
@[simp] theorem onQue_eng (f : Que → Que) : (onQue f s).eng = s.eng := rfl
@[simp] theorem onQue_pair (f : Que → Que) : (onQue f s).pair = s.pair := rfl
@[simp] theorem onQue_hoist (f : Que → Que) : (onQue f s).hoist = s.hoist := rfl
@[simp] theorem onQue_ring (f : Que → Que) : (onQue f s).ring = s.ring := rfl
@[simp] theorem onQue_time (f : Que → Que) : (onQue f s).time = s.time := rfl
@[simp] theorem onQue_can (f : Que → Que) : (onQue f s).can = s.can := rfl
@[simp] theorem onQue_que (f : Que → Que) : (onQue f s).que = f s.que := rfl
@[simp] theorem onQue_dio (f : Que → Que) : (onQue f s).dio = s.dio := rfl
@[simp] theorem onQue_ana (f : Que → Que) : (onQue f s).ana = s.ana := rfl
@[simp] theorem onQue_safe (f : Que → Que) : (onQue f s).safe = s.safe := rfl
@[simp] theorem onQue_rtc (f : Que → Que) : (onQue f s).rtc = s.rtc := rfl
@[simp] theorem onQue_log (f : Que → Que) : (onQue f s).log = s.log := rfl
@[simp] theorem onQue_sec (f : Que → Que) : (onQue f s).sec = s.sec := rfl
@[simp] theorem onQue_plant (f : Que → Que) : (onQue f s).plant = s.plant := rfl
@[simp] theorem onQue_ser (f : Que → Que) : (onQue f s).ser = s.ser := rfl
@[simp] theorem onQue_panel (f : Que → Que) : (onQue f s).panel = s.panel := rfl
@[simp] theorem onQue_mono (f : Que → Que) : (onQue f s).mono = s.mono := rfl
@[simp] theorem onQue_monoFrac (f : Que → Que) : (onQue f s).monoFrac = s.monoFrac := rfl
@[simp] theorem onQue_free (f : Que → Que) : (onQue f s).free = s.free := rfl
@[simp] theorem onQue_sent (f : Que → Que) : (onQue f s).sent = s.sent := rfl
@[simp] theorem onQue_pending (f : Que → Que) : (onQue f s).pending = s.pending := rfl

/-! ### onDio -/

@[simp] theorem onDio_sys (f : Dio → Dio) : (onDio f s).sys = s.sys := rfl
@[simp] theorem onDio_key (f : Dio → Dio) : (onDio f s).key = s.key := rfl
@[simp] theorem onDio_start (f : Dio → Dio) : (onDio f s).start = s.start := rfl
@[simp] theorem onDio_pwr (f : Dio → Dio) : (onDio f s).pwr = s.pwr := rfl
@[simp] theorem onDio_mem (f : Dio → Dio) : (onDio f s).mem = s.mem := rfl
@[simp] theorem onDio_cyc (f : Dio → Dio) : (onDio f s).cyc = s.cyc := rfl
@[simp] theorem onDio_olc (f : Dio → Dio) : (onDio f s).olc = s.olc := rfl
@[simp] theorem onDio_sig (f : Dio → Dio) : (onDio f s).sig = s.sig := rfl
@[simp] theorem onDio_eng (f : Dio → Dio) : (onDio f s).eng = s.eng := rfl
@[simp] theorem onDio_pair (f : Dio → Dio) : (onDio f s).pair = s.pair := rfl
@[simp] theorem onDio_hoist (f : Dio → Dio) : (onDio f s).hoist = s.hoist := rfl
@[simp] theorem onDio_ring (f : Dio → Dio) : (onDio f s).ring = s.ring := rfl
@[simp] theorem onDio_time (f : Dio → Dio) : (onDio f s).time = s.time := rfl
@[simp] theorem onDio_can (f : Dio → Dio) : (onDio f s).can = s.can := rfl
@[simp] theorem onDio_que (f : Dio → Dio) : (onDio f s).que = s.que := rfl
@[simp] theorem onDio_dio (f : Dio → Dio) : (onDio f s).dio = f s.dio := rfl
@[simp] theorem onDio_ana (f : Dio → Dio) : (onDio f s).ana = s.ana := rfl
@[simp] theorem onDio_safe (f : Dio → Dio) : (onDio f s).safe = s.safe := rfl
@[simp] theorem onDio_rtc (f : Dio → Dio) : (onDio f s).rtc = s.rtc := rfl
@[simp] theorem onDio_log (f : Dio → Dio) : (onDio f s).log = s.log := rfl
@[simp] theorem onDio_sec (f : Dio → Dio) : (onDio f s).sec = s.sec := rfl
@[simp] theorem onDio_plant (f : Dio → Dio) : (onDio f s).plant = s.plant := rfl
@[simp] theorem onDio_ser (f : Dio → Dio) : (onDio f s).ser = s.ser := rfl
@[simp] theorem onDio_panel (f : Dio → Dio) : (onDio f s).panel = s.panel := rfl
@[simp] theorem onDio_mono (f : Dio → Dio) : (onDio f s).mono = s.mono := rfl
@[simp] theorem onDio_monoFrac (f : Dio → Dio) : (onDio f s).monoFrac = s.monoFrac := rfl
@[simp] theorem onDio_free (f : Dio → Dio) : (onDio f s).free = s.free := rfl
@[simp] theorem onDio_sent (f : Dio → Dio) : (onDio f s).sent = s.sent := rfl
@[simp] theorem onDio_pending (f : Dio → Dio) : (onDio f s).pending = s.pending := rfl

/-! ### onAna -/

@[simp] theorem onAna_sys (f : Ana → Ana) : (onAna f s).sys = s.sys := rfl
@[simp] theorem onAna_key (f : Ana → Ana) : (onAna f s).key = s.key := rfl
@[simp] theorem onAna_start (f : Ana → Ana) : (onAna f s).start = s.start := rfl
@[simp] theorem onAna_pwr (f : Ana → Ana) : (onAna f s).pwr = s.pwr := rfl
@[simp] theorem onAna_mem (f : Ana → Ana) : (onAna f s).mem = s.mem := rfl
@[simp] theorem onAna_cyc (f : Ana → Ana) : (onAna f s).cyc = s.cyc := rfl
@[simp] theorem onAna_olc (f : Ana → Ana) : (onAna f s).olc = s.olc := rfl
@[simp] theorem onAna_sig (f : Ana → Ana) : (onAna f s).sig = s.sig := rfl
@[simp] theorem onAna_eng (f : Ana → Ana) : (onAna f s).eng = s.eng := rfl
@[simp] theorem onAna_pair (f : Ana → Ana) : (onAna f s).pair = s.pair := rfl
@[simp] theorem onAna_hoist (f : Ana → Ana) : (onAna f s).hoist = s.hoist := rfl
@[simp] theorem onAna_ring (f : Ana → Ana) : (onAna f s).ring = s.ring := rfl
@[simp] theorem onAna_time (f : Ana → Ana) : (onAna f s).time = s.time := rfl
@[simp] theorem onAna_can (f : Ana → Ana) : (onAna f s).can = s.can := rfl
@[simp] theorem onAna_que (f : Ana → Ana) : (onAna f s).que = s.que := rfl
@[simp] theorem onAna_dio (f : Ana → Ana) : (onAna f s).dio = s.dio := rfl
@[simp] theorem onAna_ana (f : Ana → Ana) : (onAna f s).ana = f s.ana := rfl
@[simp] theorem onAna_safe (f : Ana → Ana) : (onAna f s).safe = s.safe := rfl
@[simp] theorem onAna_rtc (f : Ana → Ana) : (onAna f s).rtc = s.rtc := rfl
@[simp] theorem onAna_log (f : Ana → Ana) : (onAna f s).log = s.log := rfl
@[simp] theorem onAna_sec (f : Ana → Ana) : (onAna f s).sec = s.sec := rfl
@[simp] theorem onAna_plant (f : Ana → Ana) : (onAna f s).plant = s.plant := rfl
@[simp] theorem onAna_ser (f : Ana → Ana) : (onAna f s).ser = s.ser := rfl
@[simp] theorem onAna_panel (f : Ana → Ana) : (onAna f s).panel = s.panel := rfl
@[simp] theorem onAna_mono (f : Ana → Ana) : (onAna f s).mono = s.mono := rfl
@[simp] theorem onAna_monoFrac (f : Ana → Ana) : (onAna f s).monoFrac = s.monoFrac := rfl
@[simp] theorem onAna_free (f : Ana → Ana) : (onAna f s).free = s.free := rfl
@[simp] theorem onAna_sent (f : Ana → Ana) : (onAna f s).sent = s.sent := rfl
@[simp] theorem onAna_pending (f : Ana → Ana) : (onAna f s).pending = s.pending := rfl

/-! ### onSafe -/

@[simp] theorem onSafe_sys (f : Safe → Safe) : (onSafe f s).sys = s.sys := rfl
@[simp] theorem onSafe_key (f : Safe → Safe) : (onSafe f s).key = s.key := rfl
@[simp] theorem onSafe_start (f : Safe → Safe) : (onSafe f s).start = s.start := rfl
@[simp] theorem onSafe_pwr (f : Safe → Safe) : (onSafe f s).pwr = s.pwr := rfl
@[simp] theorem onSafe_mem (f : Safe → Safe) : (onSafe f s).mem = s.mem := rfl
@[simp] theorem onSafe_cyc (f : Safe → Safe) : (onSafe f s).cyc = s.cyc := rfl
@[simp] theorem onSafe_olc (f : Safe → Safe) : (onSafe f s).olc = s.olc := rfl
@[simp] theorem onSafe_sig (f : Safe → Safe) : (onSafe f s).sig = s.sig := rfl
@[simp] theorem onSafe_eng (f : Safe → Safe) : (onSafe f s).eng = s.eng := rfl
@[simp] theorem onSafe_pair (f : Safe → Safe) : (onSafe f s).pair = s.pair := rfl
@[simp] theorem onSafe_hoist (f : Safe → Safe) : (onSafe f s).hoist = s.hoist := rfl
@[simp] theorem onSafe_ring (f : Safe → Safe) : (onSafe f s).ring = s.ring := rfl
@[simp] theorem onSafe_time (f : Safe → Safe) : (onSafe f s).time = s.time := rfl
@[simp] theorem onSafe_can (f : Safe → Safe) : (onSafe f s).can = s.can := rfl
@[simp] theorem onSafe_que (f : Safe → Safe) : (onSafe f s).que = s.que := rfl
@[simp] theorem onSafe_dio (f : Safe → Safe) : (onSafe f s).dio = s.dio := rfl
@[simp] theorem onSafe_ana (f : Safe → Safe) : (onSafe f s).ana = s.ana := rfl
@[simp] theorem onSafe_safe (f : Safe → Safe) : (onSafe f s).safe = f s.safe := rfl
@[simp] theorem onSafe_rtc (f : Safe → Safe) : (onSafe f s).rtc = s.rtc := rfl
@[simp] theorem onSafe_log (f : Safe → Safe) : (onSafe f s).log = s.log := rfl
@[simp] theorem onSafe_sec (f : Safe → Safe) : (onSafe f s).sec = s.sec := rfl
@[simp] theorem onSafe_plant (f : Safe → Safe) : (onSafe f s).plant = s.plant := rfl
@[simp] theorem onSafe_ser (f : Safe → Safe) : (onSafe f s).ser = s.ser := rfl
@[simp] theorem onSafe_panel (f : Safe → Safe) : (onSafe f s).panel = s.panel := rfl
@[simp] theorem onSafe_mono (f : Safe → Safe) : (onSafe f s).mono = s.mono := rfl
@[simp] theorem onSafe_monoFrac (f : Safe → Safe) : (onSafe f s).monoFrac = s.monoFrac := rfl
@[simp] theorem onSafe_free (f : Safe → Safe) : (onSafe f s).free = s.free := rfl
@[simp] theorem onSafe_sent (f : Safe → Safe) : (onSafe f s).sent = s.sent := rfl
@[simp] theorem onSafe_pending (f : Safe → Safe) : (onSafe f s).pending = s.pending := rfl

/-! ### onRtc -/

@[simp] theorem onRtc_sys (f : Rtc → Rtc) : (onRtc f s).sys = s.sys := rfl
@[simp] theorem onRtc_key (f : Rtc → Rtc) : (onRtc f s).key = s.key := rfl
@[simp] theorem onRtc_start (f : Rtc → Rtc) : (onRtc f s).start = s.start := rfl
@[simp] theorem onRtc_pwr (f : Rtc → Rtc) : (onRtc f s).pwr = s.pwr := rfl
@[simp] theorem onRtc_mem (f : Rtc → Rtc) : (onRtc f s).mem = s.mem := rfl
@[simp] theorem onRtc_cyc (f : Rtc → Rtc) : (onRtc f s).cyc = s.cyc := rfl
@[simp] theorem onRtc_olc (f : Rtc → Rtc) : (onRtc f s).olc = s.olc := rfl
@[simp] theorem onRtc_sig (f : Rtc → Rtc) : (onRtc f s).sig = s.sig := rfl
@[simp] theorem onRtc_eng (f : Rtc → Rtc) : (onRtc f s).eng = s.eng := rfl
@[simp] theorem onRtc_pair (f : Rtc → Rtc) : (onRtc f s).pair = s.pair := rfl
@[simp] theorem onRtc_hoist (f : Rtc → Rtc) : (onRtc f s).hoist = s.hoist := rfl
@[simp] theorem onRtc_ring (f : Rtc → Rtc) : (onRtc f s).ring = s.ring := rfl
@[simp] theorem onRtc_time (f : Rtc → Rtc) : (onRtc f s).time = s.time := rfl
@[simp] theorem onRtc_can (f : Rtc → Rtc) : (onRtc f s).can = s.can := rfl
@[simp] theorem onRtc_que (f : Rtc → Rtc) : (onRtc f s).que = s.que := rfl
@[simp] theorem onRtc_dio (f : Rtc → Rtc) : (onRtc f s).dio = s.dio := rfl
@[simp] theorem onRtc_ana (f : Rtc → Rtc) : (onRtc f s).ana = s.ana := rfl
@[simp] theorem onRtc_safe (f : Rtc → Rtc) : (onRtc f s).safe = s.safe := rfl
@[simp] theorem onRtc_rtc (f : Rtc → Rtc) : (onRtc f s).rtc = f s.rtc := rfl
@[simp] theorem onRtc_log (f : Rtc → Rtc) : (onRtc f s).log = s.log := rfl
@[simp] theorem onRtc_sec (f : Rtc → Rtc) : (onRtc f s).sec = s.sec := rfl
@[simp] theorem onRtc_plant (f : Rtc → Rtc) : (onRtc f s).plant = s.plant := rfl
@[simp] theorem onRtc_ser (f : Rtc → Rtc) : (onRtc f s).ser = s.ser := rfl
@[simp] theorem onRtc_panel (f : Rtc → Rtc) : (onRtc f s).panel = s.panel := rfl
@[simp] theorem onRtc_mono (f : Rtc → Rtc) : (onRtc f s).mono = s.mono := rfl
@[simp] theorem onRtc_monoFrac (f : Rtc → Rtc) : (onRtc f s).monoFrac = s.monoFrac := rfl
@[simp] theorem onRtc_free (f : Rtc → Rtc) : (onRtc f s).free = s.free := rfl
@[simp] theorem onRtc_sent (f : Rtc → Rtc) : (onRtc f s).sent = s.sent := rfl
@[simp] theorem onRtc_pending (f : Rtc → Rtc) : (onRtc f s).pending = s.pending := rfl

/-! ### onLog -/

@[simp] theorem onLog_sys (f : Log → Log) : (onLog f s).sys = s.sys := rfl
@[simp] theorem onLog_key (f : Log → Log) : (onLog f s).key = s.key := rfl
@[simp] theorem onLog_start (f : Log → Log) : (onLog f s).start = s.start := rfl
@[simp] theorem onLog_pwr (f : Log → Log) : (onLog f s).pwr = s.pwr := rfl
@[simp] theorem onLog_mem (f : Log → Log) : (onLog f s).mem = s.mem := rfl
@[simp] theorem onLog_cyc (f : Log → Log) : (onLog f s).cyc = s.cyc := rfl
@[simp] theorem onLog_olc (f : Log → Log) : (onLog f s).olc = s.olc := rfl
@[simp] theorem onLog_sig (f : Log → Log) : (onLog f s).sig = s.sig := rfl
@[simp] theorem onLog_eng (f : Log → Log) : (onLog f s).eng = s.eng := rfl
@[simp] theorem onLog_pair (f : Log → Log) : (onLog f s).pair = s.pair := rfl
@[simp] theorem onLog_hoist (f : Log → Log) : (onLog f s).hoist = s.hoist := rfl
@[simp] theorem onLog_ring (f : Log → Log) : (onLog f s).ring = s.ring := rfl
@[simp] theorem onLog_time (f : Log → Log) : (onLog f s).time = s.time := rfl
@[simp] theorem onLog_can (f : Log → Log) : (onLog f s).can = s.can := rfl
@[simp] theorem onLog_que (f : Log → Log) : (onLog f s).que = s.que := rfl
@[simp] theorem onLog_dio (f : Log → Log) : (onLog f s).dio = s.dio := rfl
@[simp] theorem onLog_ana (f : Log → Log) : (onLog f s).ana = s.ana := rfl
@[simp] theorem onLog_safe (f : Log → Log) : (onLog f s).safe = s.safe := rfl
@[simp] theorem onLog_rtc (f : Log → Log) : (onLog f s).rtc = s.rtc := rfl
@[simp] theorem onLog_log (f : Log → Log) : (onLog f s).log = f s.log := rfl
@[simp] theorem onLog_sec (f : Log → Log) : (onLog f s).sec = s.sec := rfl
@[simp] theorem onLog_plant (f : Log → Log) : (onLog f s).plant = s.plant := rfl
@[simp] theorem onLog_ser (f : Log → Log) : (onLog f s).ser = s.ser := rfl
@[simp] theorem onLog_panel (f : Log → Log) : (onLog f s).panel = s.panel := rfl
@[simp] theorem onLog_mono (f : Log → Log) : (onLog f s).mono = s.mono := rfl
@[simp] theorem onLog_monoFrac (f : Log → Log) : (onLog f s).monoFrac = s.monoFrac := rfl
@[simp] theorem onLog_free (f : Log → Log) : (onLog f s).free = s.free := rfl
@[simp] theorem onLog_sent (f : Log → Log) : (onLog f s).sent = s.sent := rfl
@[simp] theorem onLog_pending (f : Log → Log) : (onLog f s).pending = s.pending := rfl

/-! ### onSec -/

@[simp] theorem onSec_sys (f : Sec → Sec) : (onSec f s).sys = s.sys := rfl
@[simp] theorem onSec_key (f : Sec → Sec) : (onSec f s).key = s.key := rfl
@[simp] theorem onSec_start (f : Sec → Sec) : (onSec f s).start = s.start := rfl
@[simp] theorem onSec_pwr (f : Sec → Sec) : (onSec f s).pwr = s.pwr := rfl
@[simp] theorem onSec_mem (f : Sec → Sec) : (onSec f s).mem = s.mem := rfl
@[simp] theorem onSec_cyc (f : Sec → Sec) : (onSec f s).cyc = s.cyc := rfl
@[simp] theorem onSec_olc (f : Sec → Sec) : (onSec f s).olc = s.olc := rfl
@[simp] theorem onSec_sig (f : Sec → Sec) : (onSec f s).sig = s.sig := rfl
@[simp] theorem onSec_eng (f : Sec → Sec) : (onSec f s).eng = s.eng := rfl
@[simp] theorem onSec_pair (f : Sec → Sec) : (onSec f s).pair = s.pair := rfl
@[simp] theorem onSec_hoist (f : Sec → Sec) : (onSec f s).hoist = s.hoist := rfl
@[simp] theorem onSec_ring (f : Sec → Sec) : (onSec f s).ring = s.ring := rfl
@[simp] theorem onSec_time (f : Sec → Sec) : (onSec f s).time = s.time := rfl
@[simp] theorem onSec_can (f : Sec → Sec) : (onSec f s).can = s.can := rfl
@[simp] theorem onSec_que (f : Sec → Sec) : (onSec f s).que = s.que := rfl
@[simp] theorem onSec_dio (f : Sec → Sec) : (onSec f s).dio = s.dio := rfl
@[simp] theorem onSec_ana (f : Sec → Sec) : (onSec f s).ana = s.ana := rfl
@[simp] theorem onSec_safe (f : Sec → Sec) : (onSec f s).safe = s.safe := rfl
@[simp] theorem onSec_rtc (f : Sec → Sec) : (onSec f s).rtc = s.rtc := rfl
@[simp] theorem onSec_log (f : Sec → Sec) : (onSec f s).log = s.log := rfl
@[simp] theorem onSec_sec (f : Sec → Sec) : (onSec f s).sec = f s.sec := rfl
@[simp] theorem onSec_plant (f : Sec → Sec) : (onSec f s).plant = s.plant := rfl
@[simp] theorem onSec_ser (f : Sec → Sec) : (onSec f s).ser = s.ser := rfl
@[simp] theorem onSec_panel (f : Sec → Sec) : (onSec f s).panel = s.panel := rfl
@[simp] theorem onSec_mono (f : Sec → Sec) : (onSec f s).mono = s.mono := rfl
@[simp] theorem onSec_monoFrac (f : Sec → Sec) : (onSec f s).monoFrac = s.monoFrac := rfl
@[simp] theorem onSec_free (f : Sec → Sec) : (onSec f s).free = s.free := rfl
@[simp] theorem onSec_sent (f : Sec → Sec) : (onSec f s).sent = s.sent := rfl
@[simp] theorem onSec_pending (f : Sec → Sec) : (onSec f s).pending = s.pending := rfl

/-! ### onPlant -/

@[simp] theorem onPlant_sys (f : Plant → Plant) : (onPlant f s).sys = s.sys := rfl
@[simp] theorem onPlant_key (f : Plant → Plant) : (onPlant f s).key = s.key := rfl
@[simp] theorem onPlant_start (f : Plant → Plant) : (onPlant f s).start = s.start := rfl
@[simp] theorem onPlant_pwr (f : Plant → Plant) : (onPlant f s).pwr = s.pwr := rfl
@[simp] theorem onPlant_mem (f : Plant → Plant) : (onPlant f s).mem = s.mem := rfl
@[simp] theorem onPlant_cyc (f : Plant → Plant) : (onPlant f s).cyc = s.cyc := rfl
@[simp] theorem onPlant_olc (f : Plant → Plant) : (onPlant f s).olc = s.olc := rfl
@[simp] theorem onPlant_sig (f : Plant → Plant) : (onPlant f s).sig = s.sig := rfl
@[simp] theorem onPlant_eng (f : Plant → Plant) : (onPlant f s).eng = s.eng := rfl
@[simp] theorem onPlant_pair (f : Plant → Plant) : (onPlant f s).pair = s.pair := rfl
@[simp] theorem onPlant_hoist (f : Plant → Plant) : (onPlant f s).hoist = s.hoist := rfl
@[simp] theorem onPlant_ring (f : Plant → Plant) : (onPlant f s).ring = s.ring := rfl
@[simp] theorem onPlant_time (f : Plant → Plant) : (onPlant f s).time = s.time := rfl
@[simp] theorem onPlant_can (f : Plant → Plant) : (onPlant f s).can = s.can := rfl
@[simp] theorem onPlant_que (f : Plant → Plant) : (onPlant f s).que = s.que := rfl
@[simp] theorem onPlant_dio (f : Plant → Plant) : (onPlant f s).dio = s.dio := rfl
@[simp] theorem onPlant_ana (f : Plant → Plant) : (onPlant f s).ana = s.ana := rfl
@[simp] theorem onPlant_safe (f : Plant → Plant) : (onPlant f s).safe = s.safe := rfl
@[simp] theorem onPlant_rtc (f : Plant → Plant) : (onPlant f s).rtc = s.rtc := rfl
@[simp] theorem onPlant_log (f : Plant → Plant) : (onPlant f s).log = s.log := rfl
@[simp] theorem onPlant_sec (f : Plant → Plant) : (onPlant f s).sec = s.sec := rfl
@[simp] theorem onPlant_plant (f : Plant → Plant) : (onPlant f s).plant = f s.plant := rfl
@[simp] theorem onPlant_ser (f : Plant → Plant) : (onPlant f s).ser = s.ser := rfl
@[simp] theorem onPlant_panel (f : Plant → Plant) : (onPlant f s).panel = s.panel := rfl
@[simp] theorem onPlant_mono (f : Plant → Plant) : (onPlant f s).mono = s.mono := rfl
@[simp] theorem onPlant_monoFrac (f : Plant → Plant) : (onPlant f s).monoFrac = s.monoFrac := rfl
@[simp] theorem onPlant_free (f : Plant → Plant) : (onPlant f s).free = s.free := rfl
@[simp] theorem onPlant_sent (f : Plant → Plant) : (onPlant f s).sent = s.sent := rfl
@[simp] theorem onPlant_pending (f : Plant → Plant) : (onPlant f s).pending = s.pending := rfl

/-! ### onSer -/

@[simp] theorem onSer_sys (f : Ser → Ser) : (onSer f s).sys = s.sys := rfl
@[simp] theorem onSer_key (f : Ser → Ser) : (onSer f s).key = s.key := rfl
@[simp] theorem onSer_start (f : Ser → Ser) : (onSer f s).start = s.start := rfl
@[simp] theorem onSer_pwr (f : Ser → Ser) : (onSer f s).pwr = s.pwr := rfl
@[simp] theorem onSer_mem (f : Ser → Ser) : (onSer f s).mem = s.mem := rfl
@[simp] theorem onSer_cyc (f : Ser → Ser) : (onSer f s).cyc = s.cyc := rfl
@[simp] theorem onSer_olc (f : Ser → Ser) : (onSer f s).olc = s.olc := rfl
@[simp] theorem onSer_sig (f : Ser → Ser) : (onSer f s).sig = s.sig := rfl
@[simp] theorem onSer_eng (f : Ser → Ser) : (onSer f s).eng = s.eng := rfl
@[simp] theorem onSer_pair (f : Ser → Ser) : (onSer f s).pair = s.pair := rfl
@[simp] theorem onSer_hoist (f : Ser → Ser) : (onSer f s).hoist = s.hoist := rfl
@[simp] theorem onSer_ring (f : Ser → Ser) : (onSer f s).ring = s.ring := rfl
@[simp] theorem onSer_time (f : Ser → Ser) : (onSer f s).time = s.time := rfl
@[simp] theorem onSer_can (f : Ser → Ser) : (onSer f s).can = s.can := rfl
@[simp] theorem onSer_que (f : Ser → Ser) : (onSer f s).que = s.que := rfl
@[simp] theorem onSer_dio (f : Ser → Ser) : (onSer f s).dio = s.dio := rfl
@[simp] theorem onSer_ana (f : Ser → Ser) : (onSer f s).ana = s.ana := rfl
@[simp] theorem onSer_safe (f : Ser → Ser) : (onSer f s).safe = s.safe := rfl
@[simp] theorem onSer_rtc (f : Ser → Ser) : (onSer f s).rtc = s.rtc := rfl
@[simp] theorem onSer_log (f : Ser → Ser) : (onSer f s).log = s.log := rfl
@[simp] theorem onSer_sec (f : Ser → Ser) : (onSer f s).sec = s.sec := rfl
@[simp] theorem onSer_plant (f : Ser → Ser) : (onSer f s).plant = s.plant := rfl
@[simp] theorem onSer_ser (f : Ser → Ser) : (onSer f s).ser = f s.ser := rfl
@[simp] theorem onSer_panel (f : Ser → Ser) : (onSer f s).panel = s.panel := rfl
@[simp] theorem onSer_mono (f : Ser → Ser) : (onSer f s).mono = s.mono := rfl
@[simp] theorem onSer_monoFrac (f : Ser → Ser) : (onSer f s).monoFrac = s.monoFrac := rfl
@[simp] theorem onSer_free (f : Ser → Ser) : (onSer f s).free = s.free := rfl
@[simp] theorem onSer_sent (f : Ser → Ser) : (onSer f s).sent = s.sent := rfl
@[simp] theorem onSer_pending (f : Ser → Ser) : (onSer f s).pending = s.pending := rfl

/-! ### onPanel -/

@[simp] theorem onPanel_sys (f : Panel → Panel) : (onPanel f s).sys = s.sys := rfl
@[simp] theorem onPanel_key (f : Panel → Panel) : (onPanel f s).key = s.key := rfl
@[simp] theorem onPanel_start (f : Panel → Panel) : (onPanel f s).start = s.start := rfl
@[simp] theorem onPanel_pwr (f : Panel → Panel) : (onPanel f s).pwr = s.pwr := rfl
@[simp] theorem onPanel_mem (f : Panel → Panel) : (onPanel f s).mem = s.mem := rfl
@[simp] theorem onPanel_cyc (f : Panel → Panel) : (onPanel f s).cyc = s.cyc := rfl
@[simp] theorem onPanel_olc (f : Panel → Panel) : (onPanel f s).olc = s.olc := rfl
@[simp] theorem onPanel_sig (f : Panel → Panel) : (onPanel f s).sig = s.sig := rfl
@[simp] theorem onPanel_eng (f : Panel → Panel) : (onPanel f s).eng = s.eng := rfl
@[simp] theorem onPanel_pair (f : Panel → Panel) : (onPanel f s).pair = s.pair := rfl
@[simp] theorem onPanel_hoist (f : Panel → Panel) : (onPanel f s).hoist = s.hoist := rfl
@[simp] theorem onPanel_ring (f : Panel → Panel) : (onPanel f s).ring = s.ring := rfl
@[simp] theorem onPanel_time (f : Panel → Panel) : (onPanel f s).time = s.time := rfl
@[simp] theorem onPanel_can (f : Panel → Panel) : (onPanel f s).can = s.can := rfl
@[simp] theorem onPanel_que (f : Panel → Panel) : (onPanel f s).que = s.que := rfl
@[simp] theorem onPanel_dio (f : Panel → Panel) : (onPanel f s).dio = s.dio := rfl
@[simp] theorem onPanel_ana (f : Panel → Panel) : (onPanel f s).ana = s.ana := rfl
@[simp] theorem onPanel_safe (f : Panel → Panel) : (onPanel f s).safe = s.safe := rfl
@[simp] theorem onPanel_rtc (f : Panel → Panel) : (onPanel f s).rtc = s.rtc := rfl
@[simp] theorem onPanel_log (f : Panel → Panel) : (onPanel f s).log = s.log := rfl
@[simp] theorem onPanel_sec (f : Panel → Panel) : (onPanel f s).sec = s.sec := rfl
@[simp] theorem onPanel_plant (f : Panel → Panel) : (onPanel f s).plant = s.plant := rfl
@[simp] theorem onPanel_ser (f : Panel → Panel) : (onPanel f s).ser = s.ser := rfl
@[simp] theorem onPanel_panel (f : Panel → Panel) : (onPanel f s).panel = f s.panel := rfl
@[simp] theorem onPanel_mono (f : Panel → Panel) : (onPanel f s).mono = s.mono := rfl
@[simp] theorem onPanel_monoFrac (f : Panel → Panel) : (onPanel f s).monoFrac = s.monoFrac := rfl
@[simp] theorem onPanel_free (f : Panel → Panel) : (onPanel f s).free = s.free := rfl
@[simp] theorem onPanel_sent (f : Panel → Panel) : (onPanel f s).sent = s.sent := rfl
@[simp] theorem onPanel_pending (f : Panel → Panel) : (onPanel f s).pending = s.pending := rfl

/-! ### onCan and send -/

@[simp] theorem onCan_sys (n : Nat) (f : CanPort → CanPort) : (onCan n f s).sys = s.sys := rfl
@[simp] theorem onCan_key (n : Nat) (f : CanPort → CanPort) : (onCan n f s).key = s.key := rfl
@[simp] theorem onCan_start (n : Nat) (f : CanPort → CanPort) : (onCan n f s).start = s.start := rfl
@[simp] theorem onCan_pwr (n : Nat) (f : CanPort → CanPort) : (onCan n f s).pwr = s.pwr := rfl
@[simp] theorem onCan_mem (n : Nat) (f : CanPort → CanPort) : (onCan n f s).mem = s.mem := rfl
@[simp] theorem onCan_cyc (n : Nat) (f : CanPort → CanPort) : (onCan n f s).cyc = s.cyc := rfl
@[simp] theorem onCan_olc (n : Nat) (f : CanPort → CanPort) : (onCan n f s).olc = s.olc := rfl
@[simp] theorem onCan_sig (n : Nat) (f : CanPort → CanPort) : (onCan n f s).sig = s.sig := rfl
@[simp] theorem onCan_eng (n : Nat) (f : CanPort → CanPort) : (onCan n f s).eng = s.eng := rfl
@[simp] theorem onCan_pair (n : Nat) (f : CanPort → CanPort) : (onCan n f s).pair = s.pair := rfl
@[simp] theorem onCan_hoist (n : Nat) (f : CanPort → CanPort) : (onCan n f s).hoist = s.hoist := rfl
@[simp] theorem onCan_ring (n : Nat) (f : CanPort → CanPort) : (onCan n f s).ring = s.ring := rfl
@[simp] theorem onCan_time (n : Nat) (f : CanPort → CanPort) : (onCan n f s).time = s.time := rfl
@[simp] theorem onCan_can (n : Nat) (f : CanPort → CanPort) : (onCan n f s).can = s.can.modify (n - 1) f := rfl
@[simp] theorem onCan_que (n : Nat) (f : CanPort → CanPort) : (onCan n f s).que = s.que := rfl
@[simp] theorem onCan_dio (n : Nat) (f : CanPort → CanPort) : (onCan n f s).dio = s.dio := rfl
@[simp] theorem onCan_ana (n : Nat) (f : CanPort → CanPort) : (onCan n f s).ana = s.ana := rfl
@[simp] theorem onCan_safe (n : Nat) (f : CanPort → CanPort) : (onCan n f s).safe = s.safe := rfl
@[simp] theorem onCan_rtc (n : Nat) (f : CanPort → CanPort) : (onCan n f s).rtc = s.rtc := rfl
@[simp] theorem onCan_log (n : Nat) (f : CanPort → CanPort) : (onCan n f s).log = s.log := rfl
@[simp] theorem onCan_sec (n : Nat) (f : CanPort → CanPort) : (onCan n f s).sec = s.sec := rfl
@[simp] theorem onCan_plant (n : Nat) (f : CanPort → CanPort) : (onCan n f s).plant = s.plant := rfl
@[simp] theorem onCan_ser (n : Nat) (f : CanPort → CanPort) : (onCan n f s).ser = s.ser := rfl
@[simp] theorem onCan_panel (n : Nat) (f : CanPort → CanPort) : (onCan n f s).panel = s.panel := rfl
@[simp] theorem onCan_mono (n : Nat) (f : CanPort → CanPort) : (onCan n f s).mono = s.mono := rfl
@[simp] theorem onCan_monoFrac (n : Nat) (f : CanPort → CanPort) : (onCan n f s).monoFrac = s.monoFrac := rfl
@[simp] theorem onCan_free (n : Nat) (f : CanPort → CanPort) : (onCan n f s).free = s.free := rfl
@[simp] theorem onCan_sent (n : Nat) (f : CanPort → CanPort) : (onCan n f s).sent = s.sent := rfl
@[simp] theorem onCan_pending (n : Nat) (f : CanPort → CanPort) : (onCan n f s).pending = s.pending := rfl

@[simp] theorem send_sys (k : SentKind) (u m : Nat) (b : List Byte) : (send k u m b s).sys = s.sys := rfl
@[simp] theorem send_key (k : SentKind) (u m : Nat) (b : List Byte) : (send k u m b s).key = s.key := rfl
@[simp] theorem send_start (k : SentKind) (u m : Nat) (b : List Byte) : (send k u m b s).start = s.start := rfl
@[simp] theorem send_pwr (k : SentKind) (u m : Nat) (b : List Byte) : (send k u m b s).pwr = s.pwr := rfl
@[simp] theorem send_mem (k : SentKind) (u m : Nat) (b : List Byte) : (send k u m b s).mem = s.mem := rfl
@[simp] theorem send_cyc (k : SentKind) (u m : Nat) (b : List Byte) : (send k u m b s).cyc = s.cyc := rfl
@[simp] theorem send_olc (k : SentKind) (u m : Nat) (b : List Byte) : (send k u m b s).olc = s.olc := rfl
@[simp] theorem send_sig (k : SentKind) (u m : Nat) (b : List Byte) : (send k u m b s).sig = s.sig := rfl
@[simp] theorem send_eng (k : SentKind) (u m : Nat) (b : List Byte) : (send k u m b s).eng = s.eng := rfl
@[simp] theorem send_pair (k : SentKind) (u m : Nat) (b : List Byte) : (send k u m b s).pair = s.pair := rfl
@[simp] theorem send_hoist (k : SentKind) (u m : Nat) (b : List Byte) : (send k u m b s).hoist = s.hoist := rfl
@[simp] theorem send_ring (k : SentKind) (u m : Nat) (b : List Byte) : (send k u m b s).ring = s.ring := rfl
@[simp] theorem send_time (k : SentKind) (u m : Nat) (b : List Byte) : (send k u m b s).time = s.time := rfl
@[simp] theorem send_can (k : SentKind) (u m : Nat) (b : List Byte) : (send k u m b s).can = s.can := rfl
@[simp] theorem send_que (k : SentKind) (u m : Nat) (b : List Byte) : (send k u m b s).que = s.que := rfl
@[simp] theorem send_dio (k : SentKind) (u m : Nat) (b : List Byte) : (send k u m b s).dio = s.dio := rfl
@[simp] theorem send_ana (k : SentKind) (u m : Nat) (b : List Byte) : (send k u m b s).ana = s.ana := rfl
@[simp] theorem send_safe (k : SentKind) (u m : Nat) (b : List Byte) : (send k u m b s).safe = s.safe := rfl
@[simp] theorem send_rtc (k : SentKind) (u m : Nat) (b : List Byte) : (send k u m b s).rtc = s.rtc := rfl
@[simp] theorem send_log (k : SentKind) (u m : Nat) (b : List Byte) : (send k u m b s).log = s.log := rfl
@[simp] theorem send_sec (k : SentKind) (u m : Nat) (b : List Byte) : (send k u m b s).sec = s.sec := rfl
@[simp] theorem send_plant (k : SentKind) (u m : Nat) (b : List Byte) : (send k u m b s).plant = s.plant := rfl
@[simp] theorem send_ser (k : SentKind) (u m : Nat) (b : List Byte) : (send k u m b s).ser = s.ser := rfl
@[simp] theorem send_panel (k : SentKind) (u m : Nat) (b : List Byte) : (send k u m b s).panel = s.panel := rfl
@[simp] theorem send_mono (k : SentKind) (u m : Nat) (b : List Byte) : (send k u m b s).mono = s.mono := rfl
@[simp] theorem send_monoFrac (k : SentKind) (u m : Nat) (b : List Byte) : (send k u m b s).monoFrac = s.monoFrac := rfl
@[simp] theorem send_free (k : SentKind) (u m : Nat) (b : List Byte) : (send k u m b s).free = s.free := rfl
@[simp] theorem send_sent (k : SentKind) (u m : Nat) (b : List Byte) : (send k u m b s).sent = { kind := k, unit := u, num := m, body := b } :: s.sent := rfl
@[simp] theorem send_pending (k : SentKind) (u m : Nat) (b : List Byte) : (send k u m b s).pending = s.pending := rfl

/-! ### Records: only the recorder changes -/

@[simp] theorem raiseRecord_sys (c : EvCode) (v : Severity) (a b u p q r : Nat) : (raiseRecord c v a b u p q r s).sys = s.sys := rfl
@[simp] theorem raiseRecord_key (c : EvCode) (v : Severity) (a b u p q r : Nat) : (raiseRecord c v a b u p q r s).key = s.key := rfl
@[simp] theorem raiseRecord_start (c : EvCode) (v : Severity) (a b u p q r : Nat) : (raiseRecord c v a b u p q r s).start = s.start := rfl
@[simp] theorem raiseRecord_pwr (c : EvCode) (v : Severity) (a b u p q r : Nat) : (raiseRecord c v a b u p q r s).pwr = s.pwr := rfl
@[simp] theorem raiseRecord_mem (c : EvCode) (v : Severity) (a b u p q r : Nat) : (raiseRecord c v a b u p q r s).mem = s.mem := rfl
@[simp] theorem raiseRecord_cyc (c : EvCode) (v : Severity) (a b u p q r : Nat) : (raiseRecord c v a b u p q r s).cyc = s.cyc := rfl
@[simp] theorem raiseRecord_olc (c : EvCode) (v : Severity) (a b u p q r : Nat) : (raiseRecord c v a b u p q r s).olc = s.olc := rfl
@[simp] theorem raiseRecord_sig (c : EvCode) (v : Severity) (a b u p q r : Nat) : (raiseRecord c v a b u p q r s).sig = s.sig := rfl
@[simp] theorem raiseRecord_eng (c : EvCode) (v : Severity) (a b u p q r : Nat) : (raiseRecord c v a b u p q r s).eng = s.eng := rfl
@[simp] theorem raiseRecord_pair (c : EvCode) (v : Severity) (a b u p q r : Nat) : (raiseRecord c v a b u p q r s).pair = s.pair := rfl
@[simp] theorem raiseRecord_hoist (c : EvCode) (v : Severity) (a b u p q r : Nat) : (raiseRecord c v a b u p q r s).hoist = s.hoist := rfl
@[simp] theorem raiseRecord_ring (c : EvCode) (v : Severity) (a b u p q r : Nat) : (raiseRecord c v a b u p q r s).ring = s.ring := rfl
@[simp] theorem raiseRecord_time (c : EvCode) (v : Severity) (a b u p q r : Nat) : (raiseRecord c v a b u p q r s).time = s.time := rfl
@[simp] theorem raiseRecord_can (c : EvCode) (v : Severity) (a b u p q r : Nat) : (raiseRecord c v a b u p q r s).can = s.can := rfl
@[simp] theorem raiseRecord_que (c : EvCode) (v : Severity) (a b u p q r : Nat) : (raiseRecord c v a b u p q r s).que = s.que := rfl
@[simp] theorem raiseRecord_dio (c : EvCode) (v : Severity) (a b u p q r : Nat) : (raiseRecord c v a b u p q r s).dio = s.dio := rfl
@[simp] theorem raiseRecord_ana (c : EvCode) (v : Severity) (a b u p q r : Nat) : (raiseRecord c v a b u p q r s).ana = s.ana := rfl
@[simp] theorem raiseRecord_safe (c : EvCode) (v : Severity) (a b u p q r : Nat) : (raiseRecord c v a b u p q r s).safe = s.safe := rfl
@[simp] theorem raiseRecord_rtc (c : EvCode) (v : Severity) (a b u p q r : Nat) : (raiseRecord c v a b u p q r s).rtc = s.rtc := rfl
@[simp] theorem raiseRecord_sec (c : EvCode) (v : Severity) (a b u p q r : Nat) : (raiseRecord c v a b u p q r s).sec = s.sec := rfl
@[simp] theorem raiseRecord_plant (c : EvCode) (v : Severity) (a b u p q r : Nat) : (raiseRecord c v a b u p q r s).plant = s.plant := rfl
@[simp] theorem raiseRecord_ser (c : EvCode) (v : Severity) (a b u p q r : Nat) : (raiseRecord c v a b u p q r s).ser = s.ser := rfl
@[simp] theorem raiseRecord_panel (c : EvCode) (v : Severity) (a b u p q r : Nat) : (raiseRecord c v a b u p q r s).panel = s.panel := rfl
@[simp] theorem raiseRecord_mono (c : EvCode) (v : Severity) (a b u p q r : Nat) : (raiseRecord c v a b u p q r s).mono = s.mono := rfl
@[simp] theorem raiseRecord_monoFrac (c : EvCode) (v : Severity) (a b u p q r : Nat) : (raiseRecord c v a b u p q r s).monoFrac = s.monoFrac := rfl
@[simp] theorem raiseRecord_free (c : EvCode) (v : Severity) (a b u p q r : Nat) : (raiseRecord c v a b u p q r s).free = s.free := rfl
@[simp] theorem raiseRecord_sent (c : EvCode) (v : Severity) (a b u p q r : Nat) : (raiseRecord c v a b u p q r s).sent = s.sent := rfl
@[simp] theorem raiseRecord_pending (c : EvCode) (v : Severity) (a b u p q r : Nat) : (raiseRecord c v a b u p q r s).pending = s.pending := rfl
@[simp] theorem raise_sys (e : Ev) (v : Severity) (u p q r : Nat) : (raise e v u p q r s).sys = s.sys := rfl
@[simp] theorem raise_key (e : Ev) (v : Severity) (u p q r : Nat) : (raise e v u p q r s).key = s.key := rfl
@[simp] theorem raise_start (e : Ev) (v : Severity) (u p q r : Nat) : (raise e v u p q r s).start = s.start := rfl
@[simp] theorem raise_pwr (e : Ev) (v : Severity) (u p q r : Nat) : (raise e v u p q r s).pwr = s.pwr := rfl
@[simp] theorem raise_mem (e : Ev) (v : Severity) (u p q r : Nat) : (raise e v u p q r s).mem = s.mem := rfl
@[simp] theorem raise_cyc (e : Ev) (v : Severity) (u p q r : Nat) : (raise e v u p q r s).cyc = s.cyc := rfl
@[simp] theorem raise_olc (e : Ev) (v : Severity) (u p q r : Nat) : (raise e v u p q r s).olc = s.olc := rfl
@[simp] theorem raise_sig (e : Ev) (v : Severity) (u p q r : Nat) : (raise e v u p q r s).sig = s.sig := rfl
@[simp] theorem raise_eng (e : Ev) (v : Severity) (u p q r : Nat) : (raise e v u p q r s).eng = s.eng := rfl
@[simp] theorem raise_pair (e : Ev) (v : Severity) (u p q r : Nat) : (raise e v u p q r s).pair = s.pair := rfl
@[simp] theorem raise_hoist (e : Ev) (v : Severity) (u p q r : Nat) : (raise e v u p q r s).hoist = s.hoist := rfl
@[simp] theorem raise_ring (e : Ev) (v : Severity) (u p q r : Nat) : (raise e v u p q r s).ring = s.ring := rfl
@[simp] theorem raise_time (e : Ev) (v : Severity) (u p q r : Nat) : (raise e v u p q r s).time = s.time := rfl
@[simp] theorem raise_can (e : Ev) (v : Severity) (u p q r : Nat) : (raise e v u p q r s).can = s.can := rfl
@[simp] theorem raise_que (e : Ev) (v : Severity) (u p q r : Nat) : (raise e v u p q r s).que = s.que := rfl
@[simp] theorem raise_dio (e : Ev) (v : Severity) (u p q r : Nat) : (raise e v u p q r s).dio = s.dio := rfl
@[simp] theorem raise_ana (e : Ev) (v : Severity) (u p q r : Nat) : (raise e v u p q r s).ana = s.ana := rfl
@[simp] theorem raise_safe (e : Ev) (v : Severity) (u p q r : Nat) : (raise e v u p q r s).safe = s.safe := rfl
@[simp] theorem raise_rtc (e : Ev) (v : Severity) (u p q r : Nat) : (raise e v u p q r s).rtc = s.rtc := rfl
@[simp] theorem raise_sec (e : Ev) (v : Severity) (u p q r : Nat) : (raise e v u p q r s).sec = s.sec := rfl
@[simp] theorem raise_plant (e : Ev) (v : Severity) (u p q r : Nat) : (raise e v u p q r s).plant = s.plant := rfl
@[simp] theorem raise_ser (e : Ev) (v : Severity) (u p q r : Nat) : (raise e v u p q r s).ser = s.ser := rfl
@[simp] theorem raise_panel (e : Ev) (v : Severity) (u p q r : Nat) : (raise e v u p q r s).panel = s.panel := rfl
@[simp] theorem raise_mono (e : Ev) (v : Severity) (u p q r : Nat) : (raise e v u p q r s).mono = s.mono := rfl
@[simp] theorem raise_monoFrac (e : Ev) (v : Severity) (u p q r : Nat) : (raise e v u p q r s).monoFrac = s.monoFrac := rfl
@[simp] theorem raise_free (e : Ev) (v : Severity) (u p q r : Nat) : (raise e v u p q r s).free = s.free := rfl
@[simp] theorem raise_sent (e : Ev) (v : Severity) (u p q r : Nat) : (raise e v u p q r s).sent = s.sent := rfl
@[simp] theorem raise_pending (e : Ev) (v : Severity) (u p q r : Nat) : (raise e v u p q r s).pending = s.pending := rfl

/-! ### What follows every command (R31, R368): stages and clocks -/

@[simp] theorem refreshStages_key : (refreshStages s).key = s.key := rfl
@[simp] theorem grantClocks_key : (grantClocks s).key = s.key := rfl
@[simp] theorem follow_key : (follow s).key = s.key := rfl
@[simp] theorem refreshStages_start : (refreshStages s).start = s.start := rfl
@[simp] theorem grantClocks_start : (grantClocks s).start = s.start := rfl
@[simp] theorem follow_start : (follow s).start = s.start := rfl
@[simp] theorem refreshStages_pwr : (refreshStages s).pwr = s.pwr := rfl
@[simp] theorem grantClocks_pwr : (grantClocks s).pwr = s.pwr := rfl
@[simp] theorem follow_pwr : (follow s).pwr = s.pwr := rfl
@[simp] theorem refreshStages_mem : (refreshStages s).mem = s.mem := rfl
@[simp] theorem grantClocks_mem : (grantClocks s).mem = s.mem := rfl
@[simp] theorem follow_mem : (follow s).mem = s.mem := rfl
@[simp] theorem refreshStages_cyc : (refreshStages s).cyc = s.cyc := rfl
@[simp] theorem grantClocks_cyc : (grantClocks s).cyc = s.cyc := rfl
@[simp] theorem follow_cyc : (follow s).cyc = s.cyc := rfl
@[simp] theorem refreshStages_olc : (refreshStages s).olc = s.olc := rfl
@[simp] theorem grantClocks_olc : (grantClocks s).olc = s.olc := rfl
@[simp] theorem follow_olc : (follow s).olc = s.olc := rfl
@[simp] theorem refreshStages_sig : (refreshStages s).sig = s.sig := rfl
@[simp] theorem grantClocks_sig : (grantClocks s).sig = s.sig := rfl
@[simp] theorem follow_sig : (follow s).sig = s.sig := rfl
@[simp] theorem refreshStages_eng : (refreshStages s).eng = s.eng := rfl
@[simp] theorem grantClocks_eng : (grantClocks s).eng = s.eng := rfl
@[simp] theorem follow_eng : (follow s).eng = s.eng := rfl
@[simp] theorem refreshStages_pair : (refreshStages s).pair = s.pair := rfl
@[simp] theorem grantClocks_pair : (grantClocks s).pair = s.pair := rfl
@[simp] theorem follow_pair : (follow s).pair = s.pair := rfl
@[simp] theorem refreshStages_hoist : (refreshStages s).hoist = s.hoist := rfl
@[simp] theorem grantClocks_hoist : (grantClocks s).hoist = s.hoist := rfl
@[simp] theorem follow_hoist : (follow s).hoist = s.hoist := rfl
@[simp] theorem refreshStages_ring : (refreshStages s).ring = s.ring := rfl
@[simp] theorem grantClocks_ring : (grantClocks s).ring = s.ring := rfl
@[simp] theorem follow_ring : (follow s).ring = s.ring := rfl
@[simp] theorem refreshStages_time : (refreshStages s).time = s.time := rfl
@[simp] theorem grantClocks_time : (grantClocks s).time = s.time := rfl
@[simp] theorem follow_time : (follow s).time = s.time := rfl
@[simp] theorem refreshStages_can : (refreshStages s).can = s.can := rfl
@[simp] theorem grantClocks_can : (grantClocks s).can = s.can := rfl
@[simp] theorem follow_can : (follow s).can = s.can := rfl
@[simp] theorem refreshStages_que : (refreshStages s).que = s.que := rfl
@[simp] theorem grantClocks_que : (grantClocks s).que = s.que := rfl
@[simp] theorem follow_que : (follow s).que = s.que := rfl
@[simp] theorem refreshStages_safe : (refreshStages s).safe = s.safe := rfl
@[simp] theorem grantClocks_safe : (grantClocks s).safe = s.safe := rfl
@[simp] theorem follow_safe : (follow s).safe = s.safe := rfl
@[simp] theorem refreshStages_rtc : (refreshStages s).rtc = s.rtc := rfl
@[simp] theorem grantClocks_rtc : (grantClocks s).rtc = s.rtc := rfl
@[simp] theorem follow_rtc : (follow s).rtc = s.rtc := rfl
@[simp] theorem refreshStages_log : (refreshStages s).log = s.log := rfl
@[simp] theorem grantClocks_log : (grantClocks s).log = s.log := rfl
@[simp] theorem follow_log : (follow s).log = s.log := rfl
@[simp] theorem refreshStages_sec : (refreshStages s).sec = s.sec := rfl
@[simp] theorem grantClocks_sec : (grantClocks s).sec = s.sec := rfl
@[simp] theorem follow_sec : (follow s).sec = s.sec := rfl
@[simp] theorem refreshStages_plant : (refreshStages s).plant = s.plant := rfl
@[simp] theorem grantClocks_plant : (grantClocks s).plant = s.plant := rfl
@[simp] theorem follow_plant : (follow s).plant = s.plant := rfl
@[simp] theorem refreshStages_ser : (refreshStages s).ser = s.ser := rfl
@[simp] theorem grantClocks_ser : (grantClocks s).ser = s.ser := rfl
@[simp] theorem follow_ser : (follow s).ser = s.ser := rfl
@[simp] theorem refreshStages_panel : (refreshStages s).panel = s.panel := rfl
@[simp] theorem grantClocks_panel : (grantClocks s).panel = s.panel := rfl
@[simp] theorem follow_panel : (follow s).panel = s.panel := rfl
@[simp] theorem refreshStages_mono : (refreshStages s).mono = s.mono := rfl
@[simp] theorem grantClocks_mono : (grantClocks s).mono = s.mono := rfl
@[simp] theorem follow_mono : (follow s).mono = s.mono := rfl
@[simp] theorem refreshStages_monoFrac : (refreshStages s).monoFrac = s.monoFrac := rfl
@[simp] theorem grantClocks_monoFrac : (grantClocks s).monoFrac = s.monoFrac := rfl
@[simp] theorem follow_monoFrac : (follow s).monoFrac = s.monoFrac := rfl
@[simp] theorem refreshStages_free : (refreshStages s).free = s.free := rfl
@[simp] theorem grantClocks_free : (grantClocks s).free = s.free := rfl
@[simp] theorem follow_free : (follow s).free = s.free := rfl
@[simp] theorem refreshStages_sent : (refreshStages s).sent = s.sent := rfl
@[simp] theorem grantClocks_sent : (grantClocks s).sent = s.sent := rfl
@[simp] theorem follow_sent : (follow s).sent = s.sent := rfl
@[simp] theorem refreshStages_pending : (refreshStages s).pending = s.pending := rfl
@[simp] theorem grantClocks_pending : (grantClocks s).pending = s.pending := rfl
@[simp] theorem follow_pending : (follow s).pending = s.pending := rfl
@[simp] theorem refreshStages_sys : (refreshStages s).sys = s.sys := rfl
@[simp] theorem grantClocks_dio : (grantClocks s).dio = s.dio := rfl
@[simp] theorem grantClocks_ana : (grantClocks s).ana = s.ana := rfl

/-! ### A word stored with its check bits, and the outputs' check -/

@[simp] theorem recode_sys (a : Nat) (b : Bool) : (recode a b s).sys = s.sys := rfl
@[simp] theorem recode_key (a : Nat) (b : Bool) : (recode a b s).key = s.key := rfl
@[simp] theorem recode_start (a : Nat) (b : Bool) : (recode a b s).start = s.start := rfl
@[simp] theorem recode_pwr (a : Nat) (b : Bool) : (recode a b s).pwr = s.pwr := rfl
@[simp] theorem recode_cyc (a : Nat) (b : Bool) : (recode a b s).cyc = s.cyc := rfl
@[simp] theorem recode_olc (a : Nat) (b : Bool) : (recode a b s).olc = s.olc := rfl
@[simp] theorem recode_sig (a : Nat) (b : Bool) : (recode a b s).sig = s.sig := rfl
@[simp] theorem recode_eng (a : Nat) (b : Bool) : (recode a b s).eng = s.eng := rfl
@[simp] theorem recode_pair (a : Nat) (b : Bool) : (recode a b s).pair = s.pair := rfl
@[simp] theorem recode_hoist (a : Nat) (b : Bool) : (recode a b s).hoist = s.hoist := rfl
@[simp] theorem recode_ring (a : Nat) (b : Bool) : (recode a b s).ring = s.ring := rfl
@[simp] theorem recode_time (a : Nat) (b : Bool) : (recode a b s).time = s.time := rfl
@[simp] theorem recode_can (a : Nat) (b : Bool) : (recode a b s).can = s.can := rfl
@[simp] theorem recode_que (a : Nat) (b : Bool) : (recode a b s).que = s.que := rfl
@[simp] theorem recode_dio (a : Nat) (b : Bool) : (recode a b s).dio = s.dio := rfl
@[simp] theorem recode_ana (a : Nat) (b : Bool) : (recode a b s).ana = s.ana := rfl
@[simp] theorem recode_safe (a : Nat) (b : Bool) : (recode a b s).safe = s.safe := rfl
@[simp] theorem recode_rtc (a : Nat) (b : Bool) : (recode a b s).rtc = s.rtc := rfl
@[simp] theorem recode_log (a : Nat) (b : Bool) : (recode a b s).log = s.log := rfl
@[simp] theorem recode_sec (a : Nat) (b : Bool) : (recode a b s).sec = s.sec := rfl
@[simp] theorem recode_plant (a : Nat) (b : Bool) : (recode a b s).plant = s.plant := rfl
@[simp] theorem recode_ser (a : Nat) (b : Bool) : (recode a b s).ser = s.ser := rfl
@[simp] theorem recode_panel (a : Nat) (b : Bool) : (recode a b s).panel = s.panel := rfl
@[simp] theorem recode_mono (a : Nat) (b : Bool) : (recode a b s).mono = s.mono := rfl
@[simp] theorem recode_monoFrac (a : Nat) (b : Bool) : (recode a b s).monoFrac = s.monoFrac := rfl
@[simp] theorem recode_free (a : Nat) (b : Bool) : (recode a b s).free = s.free := rfl
@[simp] theorem recode_sent (a : Nat) (b : Bool) : (recode a b s).sent = s.sent := rfl
@[simp] theorem recode_pending (a : Nat) (b : Bool) : (recode a b s).pending = s.pending := rfl
@[simp] theorem touchEntry_sys (i : Nat) : (touchEntry i s).sys = s.sys := rfl
@[simp] theorem touchEntry_key (i : Nat) : (touchEntry i s).key = s.key := rfl
@[simp] theorem touchEntry_start (i : Nat) : (touchEntry i s).start = s.start := rfl
@[simp] theorem touchEntry_pwr (i : Nat) : (touchEntry i s).pwr = s.pwr := rfl
@[simp] theorem touchEntry_cyc (i : Nat) : (touchEntry i s).cyc = s.cyc := rfl
@[simp] theorem touchEntry_olc (i : Nat) : (touchEntry i s).olc = s.olc := rfl
@[simp] theorem touchEntry_sig (i : Nat) : (touchEntry i s).sig = s.sig := rfl
@[simp] theorem touchEntry_eng (i : Nat) : (touchEntry i s).eng = s.eng := rfl
@[simp] theorem touchEntry_pair (i : Nat) : (touchEntry i s).pair = s.pair := rfl
@[simp] theorem touchEntry_hoist (i : Nat) : (touchEntry i s).hoist = s.hoist := rfl
@[simp] theorem touchEntry_ring (i : Nat) : (touchEntry i s).ring = s.ring := rfl
@[simp] theorem touchEntry_time (i : Nat) : (touchEntry i s).time = s.time := rfl
@[simp] theorem touchEntry_can (i : Nat) : (touchEntry i s).can = s.can := rfl
@[simp] theorem touchEntry_que (i : Nat) : (touchEntry i s).que = s.que := rfl
@[simp] theorem touchEntry_dio (i : Nat) : (touchEntry i s).dio = s.dio := rfl
@[simp] theorem touchEntry_ana (i : Nat) : (touchEntry i s).ana = s.ana := rfl
@[simp] theorem touchEntry_safe (i : Nat) : (touchEntry i s).safe = s.safe := rfl
@[simp] theorem touchEntry_rtc (i : Nat) : (touchEntry i s).rtc = s.rtc := rfl
@[simp] theorem touchEntry_log (i : Nat) : (touchEntry i s).log = s.log := rfl
@[simp] theorem touchEntry_sec (i : Nat) : (touchEntry i s).sec = s.sec := rfl
@[simp] theorem touchEntry_plant (i : Nat) : (touchEntry i s).plant = s.plant := rfl
@[simp] theorem touchEntry_ser (i : Nat) : (touchEntry i s).ser = s.ser := rfl
@[simp] theorem touchEntry_panel (i : Nat) : (touchEntry i s).panel = s.panel := rfl
@[simp] theorem touchEntry_mono (i : Nat) : (touchEntry i s).mono = s.mono := rfl
@[simp] theorem touchEntry_monoFrac (i : Nat) : (touchEntry i s).monoFrac = s.monoFrac := rfl
@[simp] theorem touchEntry_free (i : Nat) : (touchEntry i s).free = s.free := rfl
@[simp] theorem touchEntry_sent (i : Nat) : (touchEntry i s).sent = s.sent := rfl
@[simp] theorem touchEntry_pending (i : Nat) : (touchEntry i s).pending = s.pending := rfl
@[simp] theorem outputsCheck_sys : (outputsCheck s).sys = s.sys := rfl
@[simp] theorem outputsCheck_key : (outputsCheck s).key = s.key := rfl
@[simp] theorem outputsCheck_start : (outputsCheck s).start = s.start := rfl
@[simp] theorem outputsCheck_pwr : (outputsCheck s).pwr = s.pwr := rfl
@[simp] theorem outputsCheck_mem : (outputsCheck s).mem = s.mem := rfl
@[simp] theorem outputsCheck_cyc : (outputsCheck s).cyc = s.cyc := rfl
@[simp] theorem outputsCheck_olc : (outputsCheck s).olc = s.olc := rfl
@[simp] theorem outputsCheck_sig : (outputsCheck s).sig = s.sig := rfl
@[simp] theorem outputsCheck_eng : (outputsCheck s).eng = s.eng := rfl
@[simp] theorem outputsCheck_pair : (outputsCheck s).pair = s.pair := rfl
@[simp] theorem outputsCheck_hoist : (outputsCheck s).hoist = s.hoist := rfl
@[simp] theorem outputsCheck_ring : (outputsCheck s).ring = s.ring := rfl
@[simp] theorem outputsCheck_time : (outputsCheck s).time = s.time := rfl
@[simp] theorem outputsCheck_can : (outputsCheck s).can = s.can := rfl
@[simp] theorem outputsCheck_que : (outputsCheck s).que = s.que := rfl
@[simp] theorem outputsCheck_ana : (outputsCheck s).ana = s.ana := rfl
@[simp] theorem outputsCheck_safe : (outputsCheck s).safe = s.safe := rfl
@[simp] theorem outputsCheck_rtc : (outputsCheck s).rtc = s.rtc := rfl
@[simp] theorem outputsCheck_log : (outputsCheck s).log = s.log := rfl
@[simp] theorem outputsCheck_sec : (outputsCheck s).sec = s.sec := rfl
@[simp] theorem outputsCheck_plant : (outputsCheck s).plant = s.plant := rfl
@[simp] theorem outputsCheck_ser : (outputsCheck s).ser = s.ser := rfl
@[simp] theorem outputsCheck_panel : (outputsCheck s).panel = s.panel := rfl
@[simp] theorem outputsCheck_mono : (outputsCheck s).mono = s.mono := rfl
@[simp] theorem outputsCheck_monoFrac : (outputsCheck s).monoFrac = s.monoFrac := rfl
@[simp] theorem outputsCheck_free : (outputsCheck s).free = s.free := rfl
@[simp] theorem outputsCheck_sent : (outputsCheck s).sent = s.sent := rfl
@[simp] theorem outputsCheck_pending : (outputsCheck s).pending = s.pending := rfl

end Sys2Proof.Machine
end

