-- ==== Sys2Proof/Laws/Follow.lean ====
section
/-! SUPPORT. What follows every command at once (R31, R368): the stages and clocks stand after one application. -/

namespace Sys2Proof.Machine

/-- The last command is noted once: a refreshed channel notes the same. -/
theorem dioHeld_step (s : State) (n : Nat) (c : DioCh) : dioHeld s n (dioStep s n c) = dioHeld s n c := by
  have h : dioHeld s n (dioStep s n c) =
      if dioReleased c then some false
      else if commandsOutputs s && c.posted && !(fieldGroup s (n / 8)).st.off then some c.command
      else dioHeld s n c := rfl
  rw [h]
  unfold dioHeld
  split
  · rfl
  · split <;> rfl

/-- The stage's state does not depend on what a refresh writes beside the last command. -/
theorem dioTarget_step (s : State) (n : Nat) (c : DioCh) (h : Option Bool) :
    dioTarget s n { dioStep s n c with held := h } = dioTarget s n { c with held := h } := rfl

theorem dioStep_idem (s : State) (n : Nat) (c : DioCh) : dioStep s n (dioStep s n c) = dioStep s n c := by
  rw [show dioStep s n (dioStep s n c) = { dioStep s n c with
    stage := dioTarget s n { dioStep s n c with held := dioHeld s n (dioStep s n c) }
    held := dioHeld s n (dioStep s n c)
    switches := if dioTarget s n { dioStep s n c with held := dioHeld s n (dioStep s n c) } && !(dioStep s n c).stage
      then satInc 32 (dioStep s n c).switches else (dioStep s n c).switches
    since := if dioTarget s n { dioStep s n c with held := dioHeld s n (dioStep s n c) } == (dioStep s n c).stage
      then (dioStep s n c).since else s.mono } from rfl, dioHeld_step, dioTarget_step]
  simp [dioStep]

theorem anaTarget_step (s : State) (n : Nat) (c : AnaCh) : anaTarget s n (anaStep s n c) = anaTarget s n c := by
  unfold anaStep; split <;> rfl

theorem anaStep_idem (s : State) (n : Nat) (c : AnaCh) : anaStep s n (anaStep s n c) = anaStep s n c := by
  have h := anaTarget_step s n c
  unfold anaStep at h ⊢
  by_cases hm : c.mode.isOutput
  · simp only [hm, if_true] at h ⊢
    rw [h]
    simp
  · simp [hm]

theorem anaStep_mode (s : State) (n : Nat) (c : AnaCh) : (anaStep s n c).mode = c.mode := by
  unfold anaStep; split <;> rfl

theorem mapIdx_idem {α : Type} (f : Nat → α → α) (h : ∀ n a, f n (f n a) = f n a) (l : List α) :
    (l.mapIdx f).mapIdx f = l.mapIdx f := by
  apply List.ext_getElem?
  intro i
  simp only [List.getElem?_mapIdx, Option.map_map]
  congr 1
  funext a
  exact h i a

theorem refreshStages_idem (s : State) : refreshStages (refreshStages s) = refreshStages s := by
  have hd : (s.dio.ch.mapIdx (dioStep s)).mapIdx (dioStep s) = s.dio.ch.mapIdx (dioStep s) :=
    mapIdx_idem _ (dioStep_idem s) _
  have ha : (s.ana.ch.mapIdx (anaStep s)).mapIdx (anaStep s) = s.ana.ch.mapIdx (anaStep s) :=
    mapIdx_idem _ (anaStep_idem s) _
  show ({ s with
    dio := { s.dio with ch := (s.dio.ch.mapIdx (dioStep s)).mapIdx (dioStep s) }
    ana := { s.ana with ch := (s.ana.ch.mapIdx (anaStep s)).mapIdx (anaStep s) } } : State) = _
  rw [hd, ha]
  rfl

theorem any_mapIdx_anaMode (s : State) (l : List AnaCh) :
    (l.mapIdx (anaStep s)).any (fun x => x.mode != .off) = l.any (fun x => x.mode != .off) := by
  have h : ∀ l : List AnaCh, l.any (fun x => x.mode != .off) = (l.map (·.mode)).any (· != .off) := fun l => by
    simp [List.any_map, Function.comp_def]
  rw [h, h]
  congr 1
  apply List.ext_getElem?
  intro i
  cases hi : l[i]? <;> simp [List.getElem?_mapIdx, anaStep_mode, hi]

theorem clockRequested_refresh (s : State) (c : Clock) : clockRequested (refreshStages s) c = clockRequested s c := by
  cases c <;> try rfl
  show (railsOn s && (s.ana.ch.mapIdx (anaStep s)).any (fun x => x.mode != .off)) = _
  rw [any_mapIdx_anaMode]
  rfl

theorem grantClocks_refresh (s : State) : grantClocks (refreshStages s) = refreshStages (grantClocks s) := by
  have h : (allClocks.filter fun c => s.sys.run.contains c || (s.sys.pll && (clockRequested (refreshStages s) c || clockHeld s c))) =
      allClocks.filter fun c => s.sys.run.contains c || (s.sys.pll && (clockRequested s c || clockHeld s c)) := by
    congr 1; funext c; rw [clockRequested_refresh]
  show ({ refreshStages s with sys :=
    let run := allClocks.filter fun c => s.sys.run.contains c || (s.sys.pll && (clockRequested (refreshStages s) c || clockHeld s c))
    { s.sys with run := run, refClock := s.sys.refClock || !run.isEmpty } } : State) = _
  rw [h]
  rfl

theorem grantClocks_idem (s : State) : grantClocks (grantClocks s) = grantClocks s := by
  have req : ∀ c, clockRequested (grantClocks s) c = clockRequested s c := fun c => by cases c <;> rfl
  have h : ∀ p : Clock → Bool, (∀ c, (s.sys.pll && (clockRequested s c || clockHeld s c)) → p c) →
      (allClocks.filter fun c => (allClocks.filter p).contains c || (s.sys.pll && (clockRequested (grantClocks s) c || clockHeld s c))) =
      allClocks.filter p := by
    intro p hp
    apply List.filter_congr
    intro c hc
    rw [req]
    have : (allClocks.filter p).contains c = p c := by
      rw [Bool.eq_iff_iff, List.contains_iff_mem, List.mem_filter]
      simp [hc]
    rw [this]
    have := hp c
    cases hpc : p c <;> simp_all
  have hrun := h (fun c => s.sys.run.contains c || (s.sys.pll && (clockRequested s c || clockHeld s c))) (fun c hc => by
    rw [hc, Bool.or_true])
  show ({ grantClocks s with sys :=
    let run := allClocks.filter fun c =>
      (grantClocks s).sys.run.contains c || (s.sys.pll && (clockRequested (grantClocks s) c || clockHeld s c))
    { (grantClocks s).sys with run := run, refClock := (grantClocks s).sys.refClock || !run.isEmpty } } : State) = _
  rw [show (grantClocks s).sys.run = allClocks.filter (fun c => s.sys.run.contains c || (s.sys.pll && (clockRequested s c || clockHeld s c))) from rfl, hrun]
  unfold grantClocks onSys
  simp

/-- What follows a command follows once (R31, R368). -/
theorem follow_idem (s : State) : follow (follow s) = follow s := by
  unfold follow
  rw [← grantClocks_refresh, refreshStages_idem, grantClocks_idem]

/-- Every command ends in `answer`, but an access at an address without a bank. -/
theorem exec_answers (c : Instr) (s : State) : (∃ u, exec c s = answer u) ∨ exec c s = .fault .noSuchAddress := by
  cases c
  case memoryAccess a =>
    simp only [exec, execMemoryAccess]
    split
    · exact .inl ⟨_, rfl⟩
    · exact .inr rfl
  case hoistFragment l bad =>
    cases bad
    · exact .inl ⟨_, rfl⟩
    · exact .inl ⟨_, rfl⟩
  all_goals exact .inl ⟨_, rfl⟩

end Sys2Proof.Machine
end

