-- ==== Sys2Proof/Laws/Settle.lean ====
section
/-! SUPPORT. What a settled command leaves alone: `State.beyondField`. -/

namespace Sys2Proof.Machine

theorem forAll_keeps {α β : Type} (m : State → β) (l : List α) (f : α → State → State) (h : ∀ a s, m (f a s) = m s)
    (s : State) : m (forAll l f s) = m s := by
  unfold forAll
  induction l generalizing s with
  | nil => rfl
  | cons a l ih => exact (ih (f a s)).trans (h a s)

/-! ### Lists that keep what a function sees -/

theorem map_modify_keep {α β : Type} (g : α → β) (f : α → α) (h : ∀ a, g (f a) = g a) (l : List α) (n : Nat) :
    (l.modify n f).map g = l.map g := by
  apply List.ext_getElem?
  intro i
  simp only [List.getElem?_map, List.getElem?_modify]
  cases l[i]? with
  | none => rfl
  | some a => dsimp only [Option.map_some]; split <;> simp [h]

theorem map_mapIdx_keep {α β : Type} (g : α → β) (f : Nat → α → α) (h : ∀ n a, g (f n a) = g a) (l : List α) :
    (l.mapIdx f).map g = l.map g := by
  apply List.ext_getElem?
  intro i
  simp only [List.getElem?_map, List.getElem?_mapIdx]
  cases l[i]? with
  | none => rfl
  | some a => simp [h]

theorem map_map_keep {α β : Type} (g : α → β) (f : α → α) (h : ∀ a, g (f a) = g a) (l : List α) :
    (l.map f).map g = l.map g := by
  rw [List.map_map]; congr 1; funext a; exact h a

theorem map_change_keep {α β : Type} (g : Nat × α → β) (k : Nat) (f : α → α) (h : ∀ i a, g (i, f a) = g (i, a))
    (l : List (Nat × α)) : (change k f l).map g = l.map g :=
  map_map_keep g _ (fun p => by
    split
    · exact h _ _
    · rfl) l

theorem setBit_set {w : Nat} (x : BitVec w) (n : Nat) : setBit (setBit x n true) n true = setBit x n true := by
  simp only [setBit, if_true]
  ext i
  simp

theorem flag_flag (n : Nat) (w : Word) : flag n (flag n w) = flag n w := setBit_set w n

/-! ### One update each -/

theorem onDioCh_beyond (n : Nat) (f : DioCh → DioCh) (h : ∀ c, (f c).inward = c.inward) (s : State) :
    (onDioCh n f s).beyondField = s.beyondField := by
  have e := map_modify_keep DioCh.inward f h s.dio.ch n
  simp only [State.beyondField, onDioCh, onDio, e]

theorem onAnaCh_beyond (n : Nat) (f : AnaCh → AnaCh) (h : ∀ c, (f c).inward = c.inward) (s : State) :
    (onAnaCh n f s).beyondField = s.beyondField := by
  have e := map_modify_keep AnaCh.inward f h s.ana.ch n
  simp only [State.beyondField, onAnaCh, onAna, e]

theorem onGroup_beyond (n : Nat) (f : FieldGroup → FieldGroup)
    (h : ∀ g, ({ f g with st := .normal } : FieldGroup) = { g with st := .normal }) (s : State) :
    (onGroup n f s).beyondField = s.beyondField := by
  have e := map_modify_keep (fun g : FieldGroup => { g with st := .normal }) f h s.pwr.groups n
  simp only [State.beyondField, onGroup, onPwr, e]

theorem onEntry_beyond (i : Nat) (f : SigEntry → SigEntry) (h : ∀ e, (f e).inward = e.inward) (s : State) :
    (onEntry i f s).beyondField = s.beyondField := by
  have e := map_change_keep (fun p : Nat × SigEntry => (p.1, p.2.inward)) i f (fun i a => by simp only [h]) s.sig.entries
  simp only [State.beyondField, onEntry, onSig, e]

theorem anaStep_inward (s : State) (n : Nat) (c : AnaCh) : (anaStep s n c).inward = c.inward := by
  unfold anaStep
  split
  · dsimp only [AnaCh.inward]
    split <;> simp only [setBit_set]
  · rfl

theorem refreshStages_beyond (s : State) : (refreshStages s).beyondField = s.beyondField := by
  have d := map_mapIdx_keep DioCh.inward (dioStep s) (fun _ _ => rfl) s.dio.ch
  have a := map_mapIdx_keep AnaCh.inward (anaStep s) (anaStep_inward s) s.ana.ch
  simp only [State.beyondField, refreshStages, d, a]

theorem dioCommand_beyond (n : Nat) (on : Bool) (s : State) : (dioCommand n on s).beyondField = s.beyondField := by
  unfold dioCommand
  rw [refreshStages_beyond]
  exact onDioCh_beyond _ _ (fun c => by split <;> rfl) s

theorem anaCommand_inward (k : Int) (back : Bool) (c : AnaCh) :
    (if c.mode.isOutput then
      let (x, lo, hi) := dacCode c.mode k
      { c with command := k, posted := true, latchedOff := c.latchedOff && !back
               diag := if x < lo || hi < x then setBit c.diag 12 true else c.diag }
    else c).inward = c.inward := by
  split
  · dsimp only [AnaCh.inward]
    split <;> simp only [setBit_set]
  · rfl

theorem anaCommand_beyond (n : Nat) (k : Int) (s : State) : (anaCommand n k s).beyondField = s.beyondField := by
  unfold anaCommand
  rw [refreshStages_beyond]
  exact onAnaCh_beyond _ _ (anaCommand_inward k _) s

theorem anaCommandNum_beyond (n : Nat) (x : Num) (s : State) : (anaCommandNum n x s).beyondField = s.beyondField := by
  unfold anaCommandNum
  split
  · exact anaCommand_beyond _ _ _
  · exact (anaCommand_beyond _ _ _).trans rfl

theorem dioClear_beyond (n : Nat) (s : State) : (dioClear n s).beyondField = s.beyondField := by
  unfold dioClear
  split
  · simp only [State.beyondField, onDio, flag_flag]
  · split
    · rfl
    · rw [refreshStages_beyond]
      exact onDioCh_beyond _ _ (fun c => by split <;> rfl) s

theorem outputsReturn_beyond (g : Nat) (s : State) : (outputsReturn g s).beyondField = s.beyondField := by
  unfold outputsReturn
  rw [refreshStages_beyond]
  have d := map_mapIdx_keep DioCh.inward
    (fun n c => if n / 8 = g then { c with posted := false, latchedOff := true } else c)
    (fun _ _ => by split <;> rfl) s.dio.ch
  have a := map_mapIdx_keep AnaCh.inward
    (fun n c => if n / 4 = g then { c with posted := false, latchedOff := true } else c)
    (fun _ _ => by split <;> rfl) s.ana.ch
  simp only [State.beyondField, d, a]

theorem restoreGroup_beyond (g : Nat) (s : State) : (restoreGroup g s).beyondField = s.beyondField := by
  unfold restoreGroup
  split
  · rw [outputsReturn_beyond]
    exact onGroup_beyond _ _ (by intro c; rfl) s
  · simp only [State.beyondField, onPwr, flag_flag]

theorem dioItem_beyond (n item : Nat) (b : Bool) (s : State) : (dioItem n item b s).beyondField = s.beyondField := by
  unfold dioItem
  split
  · dsimp only
    split
    · exact (dioClear_beyond _ _).trans (onDioCh_beyond _ _ (by intro c; rfl) s)
    · exact onDioCh_beyond _ _ (by intro c; rfl) s
  split
  · dsimp only
    split
    · exact (restoreGroup_beyond _ _).trans (onDioCh_beyond _ _ (by intro c; rfl) s)
    · exact onDioCh_beyond _ _ (by intro c; rfl) s
  split
  · exact dioCommand_beyond _ _ _
  · rfl

theorem sinkTakes_beyond (k : Sink) (e : SigEntry) (s : State) : (sinkTakes k e s).beyondField = s.beyondField := by
  unfold sinkTakes
  split
  · exact dioItem_beyond _ _ _ _
  · dsimp only
    repeat' split
    · exact anaCommand_beyond _ _ _
    · exact anaCommandNum_beyond _ _ _
    · rfl
  · rfl

theorem deliver_beyond (i : Nat) (s : State) : (deliver i s).beyondField = s.beyondField :=
  forAll_keeps _ _ _ (fun _ _ => sinkTakes_beyond _ _ _) s

/-- A word stored with its check bits changes them alone. -/
theorem recode_beyond (a : Nat) (full : Bool) (s : State) : (recode a full s).beyondField = s.beyondField := by
  have h : (recode a full s).mem.inward = s.mem.inward := by
    unfold recode
    dsimp only [setErr, onMem, Mem.inward]
    split <;> rfl
  simp only [State.beyondField, h]
  rfl

theorem touchEntry_beyond (i : Nat) (s : State) : (touchEntry i s).beyondField = s.beyondField :=
  (recode_beyond _ _ _).trans (recode_beyond _ _ s)

theorem aside_beyond (i : Nat) (v : Datum) (q : Byte) (s : State) :
    (onCyc (fun c => { c with forces := change i (fun f => { f with aside := (v, q) }) c.forces }) s).beyondField = s.beyondField := by
  have e := map_change_keep (fun p : Nat × Force => (p.1, { p.2 with aside := ((0 : Datum), (0 : Byte)) })) i
    (fun f => { f with aside := (v, q) }) (fun _ _ => rfl) s.cyc.forces
  simp only [State.beyondField, onCyc, e]

theorem writeEntry_beyond (i : Nat) (v : Datum) (q : Byte) (s : State) : (writeEntry i v q s).beyondField = s.beyondField := by
  unfold writeEntry
  repeat' split
  · exact (deliver_beyond _ _).trans ((onEntry_beyond _ _ (by intro c; rfl) _).trans
      ((touchEntry_beyond _ _).trans (aside_beyond _ _ _ _)))
  · exact (deliver_beyond _ _).trans ((onEntry_beyond _ _ (by intro c; rfl) _).trans (touchEntry_beyond _ _))
  · rfl

theorem updateWhere_beyond (w : SigEntry → Bool) (v : SigEntry → Option (Datum × Byte)) (s : State) :
    (updateWhere w v s).beyondField = s.beyondField :=
  forAll_keeps _ _ _ (fun p u => by
    split
    · rfl
    · exact writeEntry_beyond _ _ _ _) s

theorem drain_beyond (n : Nat) (l : List Due) (s : State) : (drain n l s).beyondField = s.beyondField := by
  induction n generalizing l s with
  | zero => cases l <;> rfl
  | succ n ih =>
    cases l with
    | nil => rfl
    | cons d r => exact (ih _ _).trans (writeEntry_beyond _ _ _ _)

theorem pulsesCheck_beyond (s : State) : (pulsesCheck s).beyondField = s.beyondField := by
  unfold pulsesCheck
  split
  · rfl
  · have d := map_map_keep DioCh.inward (fun c => { c with pulse := false }) (fun _ => rfl) s.dio.ch
    have p := map_map_keep (fun p : Pulse => { p with next := none, out := false })
      (fun p : Pulse => { p with next := none, out := false }) (fun _ => rfl) s.time.pulses
    simp only [State.beyondField, d, p]

theorem markCommon_beyond (s : State) : (markCommon s).beyondField = s.beyondField := by
  have d := map_mapIdx_keep (fun g : DioGroup => { g with common := false })
    (fun g x => { x with common := x.common || commonCause s g }) (fun _ _ => rfl) s.dio.groups
  simp only [State.beyondField, markCommon, onDio, d]

theorem conditioned_inward (c : Option Byte) (e : SigEntry) : (e.conditioned c).inward = e.inward := by
  cases c <;> rfl

theorem markConditions_beyond (s : State) : (markConditions s).beyondField = s.beyondField :=
  forAll_keeps _ _ _ (fun _ _ => (touchEntry_beyond _ _).trans (onEntry_beyond _ _ (conditioned_inward _) _)) s

theorem outputsCheck_beyond (s : State) : (outputsCheck s).beyondField = s.beyondField := by
  have d := map_mapIdx_keep DioCh.inward (dioCheck s) (fun _ _ => rfl) s.dio.ch
  simp only [State.beyondField, outputsCheck, d]

/-- What a settled command leaves alone. -/
theorem settle_beyond (s t : State) : (settle s t).beyondField = t.beyondField :=
  (markConditions_beyond _).trans ((drain_beyond _ _ _).trans ((markCommon_beyond _).trans
    ((refreshStages_beyond _).trans ((outputsCheck_beyond _).trans (pulsesCheck_beyond t)))))

@[simp] theorem settle_sys (s t : State) : (settle s t).sys = t.sys := by
  have h := congrArg State.sys (settle_beyond s t); exact h
@[simp] theorem settle_key (s t : State) : (settle s t).key = t.key := by
  have h := congrArg State.key (settle_beyond s t); exact h
@[simp] theorem settle_start (s t : State) : (settle s t).start = t.start := by
  have h := congrArg State.start (settle_beyond s t); exact h
@[simp] theorem settle_mem (s t : State) : (settle s t).mem.inward = t.mem.inward := by
  have h := congrArg State.mem (settle_beyond s t); exact h
@[simp] theorem settle_olc (s t : State) : (settle s t).olc = t.olc := by
  have h := congrArg State.olc (settle_beyond s t); exact h
@[simp] theorem settle_eng (s t : State) : (settle s t).eng = t.eng := by
  have h := congrArg State.eng (settle_beyond s t); exact h
@[simp] theorem settle_pair (s t : State) : (settle s t).pair = t.pair := by
  have h := congrArg State.pair (settle_beyond s t); exact h
@[simp] theorem settle_hoist (s t : State) : (settle s t).hoist = t.hoist := by
  have h := congrArg State.hoist (settle_beyond s t); exact h
@[simp] theorem settle_ring (s t : State) : (settle s t).ring = t.ring := by
  have h := congrArg State.ring (settle_beyond s t); exact h
@[simp] theorem settle_can (s t : State) : (settle s t).can = t.can := by
  have h := congrArg State.can (settle_beyond s t); exact h
@[simp] theorem settle_que (s t : State) : (settle s t).que = t.que := by
  have h := congrArg State.que (settle_beyond s t); exact h
@[simp] theorem settle_safe (s t : State) : (settle s t).safe = t.safe := by
  have h := congrArg State.safe (settle_beyond s t); exact h
@[simp] theorem settle_rtc (s t : State) : (settle s t).rtc = t.rtc := by
  have h := congrArg State.rtc (settle_beyond s t); exact h
@[simp] theorem settle_log (s t : State) : (settle s t).log = t.log := by
  have h := congrArg State.log (settle_beyond s t); exact h
@[simp] theorem settle_sec (s t : State) : (settle s t).sec = t.sec := by
  have h := congrArg State.sec (settle_beyond s t); exact h
@[simp] theorem settle_plant (s t : State) : (settle s t).plant = t.plant := by
  have h := congrArg State.plant (settle_beyond s t); exact h
@[simp] theorem settle_ser (s t : State) : (settle s t).ser = t.ser := by
  have h := congrArg State.ser (settle_beyond s t); exact h
@[simp] theorem settle_panel (s t : State) : (settle s t).panel = t.panel := by
  have h := congrArg State.panel (settle_beyond s t); exact h
@[simp] theorem settle_mono (s t : State) : (settle s t).mono = t.mono := by
  have h := congrArg State.mono (settle_beyond s t); exact h
@[simp] theorem settle_monoFrac (s t : State) : (settle s t).monoFrac = t.monoFrac := by
  have h := congrArg State.monoFrac (settle_beyond s t); exact h
@[simp] theorem settle_sent (s t : State) : (settle s t).sent = t.sent := by
  have h := congrArg State.sent (settle_beyond s t); exact h
@[simp] theorem settle_pending (s t : State) : (settle s t).pending = t.pending := by
  have h := congrArg State.pending (settle_beyond s t); exact h

theorem settle_dioCh (s t : State) : (settle s t).dio.ch.map DioCh.inward = t.dio.ch.map DioCh.inward :=
  congrArg (fun x : State => x.dio.ch) (settle_beyond s t)

theorem settle_anaCh (s t : State) : (settle s t).ana.ch.map AnaCh.inward = t.ana.ch.map AnaCh.inward :=
  congrArg (fun x : State => x.ana.ch) (settle_beyond s t)

theorem settle_entries (s t : State) :
    ((settle s t).sig.entries.map fun p => (p.1, p.2.inward)) = t.sig.entries.map fun p => (p.1, p.2.inward) :=
  congrArg (fun x : State => x.sig.entries) (settle_beyond s t)

end Sys2Proof.Machine
end

