-- ==== Sys2Proof/Laws/Deliver.lean ====
section
/-! SUPPORT. What a channel keeps when a command is settled and followed: its inward side always, its output state too where no
sink names a channel of its kind. -/

namespace Sys2Proof.Machine

theorem getD_map {α β : Type} (g : α → β) (l : List α) (n : Nat) (d : α) : (l.map g).getD n (g d) = g (l.getD n d) := by
  simp only [List.getD_eq_getElem?_getD, List.getElem?_map]
  cases l[n]? <;> rfl

theorem dioCh_of_map {β : Type} (g : DioCh → β) (t u : State) (h : t.dio.ch.map g = u.dio.ch.map g) (n : Nat) :
    g (dioCh t n) = g (dioCh u n) := by
  rw [dioCh, dioCh, ← getD_map g t.dio.ch, ← getD_map g u.dio.ch, h]

theorem anaCh_of_map {β : Type} (g : AnaCh → β) (t u : State) (h : t.ana.ch.map g = u.ana.ch.map g) (n : Nat) :
    g (anaCh t n) = g (anaCh u n) := by
  rw [anaCh, anaCh, ← getD_map g t.ana.ch, ← getD_map g u.ana.ch, h]

theorem anaStep_still (s : State) (n : Nat) (c : AnaCh) : (anaStep s n c).still = c.still := by
  unfold anaStep
  split
  · dsimp only [AnaCh.still]
    split <;> simp only [setBit_set]
  · rfl

theorem follow_dioStill (s : State) : (follow s).dio.ch.map DioCh.still = s.dio.ch.map DioCh.still :=
  map_mapIdx_keep DioCh.still (dioStep s) (fun _ _ => rfl) s.dio.ch

theorem follow_anaStill (s : State) : (follow s).ana.ch.map AnaCh.still = s.ana.ch.map AnaCh.still :=
  map_mapIdx_keep AnaCh.still (anaStep s) (anaStep_still s) s.ana.ch

theorem follow_dioInward (s : State) : (follow s).dio.ch.map DioCh.inward = s.dio.ch.map DioCh.inward :=
  map_mapIdx_keep DioCh.inward (dioStep s) (fun _ _ => rfl) s.dio.ch

theorem follow_anaInward (s : State) : (follow s).ana.ch.map AnaCh.inward = s.ana.ch.map AnaCh.inward :=
  map_mapIdx_keep AnaCh.inward (anaStep s) (anaStep_inward s) s.ana.ch

/-- The inward side of a digital channel after a settled command. -/
theorem dioCh_settled (s u : State) (n : Nat) : (dioCh (follow (settle s u)) n).inward = (dioCh u n).inward :=
  dioCh_of_map _ _ _ ((follow_dioInward _).trans (settle_dioCh s u)) n

/-- The inward side of an analogue channel after a settled command. -/
theorem anaCh_settled (s u : State) (n : Nat) : (anaCh (follow (settle s u)) n).inward = (anaCh u n).inward :=
  anaCh_of_map _ _ _ ((follow_anaInward _).trans (settle_anaCh s u)) n

/-! ### Without sinks of a kind -/

theorem forAll_keeps_mem {α β : Type} (m : State → β) (l : List α) (f : α → State → State)
    (h : ∀ a ∈ l, ∀ s, m (f a s) = m s) (s : State) : m (forAll l f s) = m s := by
  unfold forAll
  induction l generalizing s with
  | nil => rfl
  | cons a l ih =>
    exact (ih (fun b hb => h b (List.mem_cons_of_mem _ hb)) (f a s)).trans (h a List.mem_cons_self s)

theorem refreshStages_dioStill (s : State) : (refreshStages s).dio.ch.map DioCh.still = s.dio.ch.map DioCh.still :=
  map_mapIdx_keep DioCh.still (dioStep s) (fun _ _ => rfl) s.dio.ch

theorem refreshStages_anaStill (s : State) : (refreshStages s).ana.ch.map AnaCh.still = s.ana.ch.map AnaCh.still :=
  map_mapIdx_keep AnaCh.still (anaStep s) (anaStep_still s) s.ana.ch

theorem anaCommand_dioStill (n : Nat) (k : Int) (s : State) :
    (anaCommand n k s).dio.ch.map DioCh.still = s.dio.ch.map DioCh.still := refreshStages_dioStill _

theorem dioCommand_anaStill (n : Nat) (on : Bool) (s : State) :
    (dioCommand n on s).ana.ch.map AnaCh.still = s.ana.ch.map AnaCh.still := refreshStages_anaStill _

theorem sinkTakes_dioStill (k : Sink) (hk : k.kind ≠ 1) (e : SigEntry) (s : State) :
    (sinkTakes k e s).dio.ch.map DioCh.still = s.dio.ch.map DioCh.still := by
  unfold sinkTakes
  split
  · exact absurd ‹_› hk
  · dsimp only
    repeat' split
    · exact anaCommand_dioStill _ _ _
    · unfold anaCommandNum
      split
      · exact anaCommand_dioStill _ _ _
      · exact anaCommand_dioStill _ _ _
    · rfl
  · rfl

/-- Marking the sink conditions leaves all but the entries and their check bits. -/
theorem markConditions_keeps {β : Type} (m : State → β) (h : ∀ i c s, m (touchEntry i (onEntry i (fun e => e.conditioned c) s)) = m s) (s : State) :
    m (markConditions s) = m s := forAll_keeps m _ _ (fun _ _ => h _ _ _) s

theorem sinks_beyond (s : State) : s.sig.sinks = s.beyondField.sig.sinks := rfl

theorem drain_dioStill (n : Nat) (l : List Due) (s : State) (h : NoDioSink s) :
    (drain n l s).dio.ch.map DioCh.still = s.dio.ch.map DioCh.still := by
  induction n generalizing l s with
  | zero => cases l <;> rfl
  | succ n ih =>
    cases l with
    | nil => rfl
    | cons d r =>
      have hs : (writeEntry d.index d.value d.quality s).sig.sinks = s.sig.sinks := by
        rw [sinks_beyond, writeEntry_beyond]; rfl
      refine (ih _ _ (fun k hk => h k (hs ▸ hk))).trans ?_
      have del : ∀ i u, u.sig.sinks = s.sig.sinks →
          (deliver i u).dio.ch.map DioCh.still = u.dio.ch.map DioCh.still := fun i u hu =>
        forAll_keeps_mem (fun x : State => x.dio.ch.map DioCh.still) _ _
          (fun k hk v => sinkTakes_dioStill k (h k (hu ▸ List.mem_of_mem_drop (List.mem_of_mem_take hk))) _ v) u
      unfold writeEntry
      repeat' split
      · exact del _ _ rfl
      · exact del _ _ rfl
      · rfl

/-- Without a sink on a digital channel, settling checks the outputs and leaves all else of them but the stages. -/
theorem settle_dioStill (s t : State) (h : NoDioSink t) :
    (settle s t).dio.ch.map DioCh.still = (outputsCheck (pulsesCheck t)).dio.ch.map DioCh.still := by
  have hs : (markCommon (refreshStages (outputsCheck (pulsesCheck t)))).sig.sinks = t.sig.sinks := by
    unfold pulsesCheck; split <;> rfl
  exact (markConditions_keeps (fun x => x.dio.ch.map DioCh.still) (fun _ _ _ => rfl) _).trans
    ((drain_dioStill _ _ _ (fun k hk => h k (hs ▸ hk))).trans (refreshStages_dioStill _))

theorem dioCh_settled_still (s u : State) (h : NoDioSink u) (n : Nat) :
    (dioCh (follow (settle s u)) n).still = (dioCh (outputsCheck (pulsesCheck u)) n).still :=
  dioCh_of_map _ _ _ ((follow_dioStill _).trans (settle_dioStill s u h)) n

/-- The stage a channel has once the command is followed. -/
theorem dioCh_follow_stage (s : State) (n : Nat) (h : n < s.dio.ch.length) :
    (dioCh (follow s) n).stage = dioTarget s n { dioCh s n with held := dioHeld s n (dioCh s n) } := by
  show ((s.dio.ch.mapIdx (dioStep s)).getD n {}).stage =
    dioTarget s n { s.dio.ch.getD n {} with held := dioHeld s n (s.dio.ch.getD n {}) }
  simp [List.getD_eq_getElem?_getD, h, dioStep]

theorem dioCh_onDioCh (s : State) (n : Nat) (f : DioCh → DioCh) (h : n < s.dio.ch.length) :
    dioCh (onDioCh n f s) n = f (dioCh s n) := by
  simp [dioCh, onDioCh, onDio, List.getD_eq_getElem?_getD, h]

theorem dioCh_onDioCh_ne (s : State) (n m : Nat) (f : DioCh → DioCh) (h : n ≠ m) :
    dioCh (onDioCh n f s) m = dioCh s m := by
  simp [dioCh, onDioCh, onDio, List.getD_eq_getElem?_getD, h]

theorem anaCh_onAnaCh (s : State) (n : Nat) (f : AnaCh → AnaCh) (h : n < s.ana.ch.length) :
    anaCh (onAnaCh n f s) n = f (anaCh s n) := by
  simp [anaCh, onAnaCh, onAna, List.getD_eq_getElem?_getD, h]

theorem anaCh_onAnaCh_ne (s : State) (n m : Nat) (f : AnaCh → AnaCh) (h : n ≠ m) :
    anaCh (onAnaCh n f s) m = anaCh s m := by
  simp [anaCh, onAnaCh, onAna, List.getD_eq_getElem?_getD, h]

theorem sinkTakes_none (k : Sink) (h1 : k.kind ≠ 1) (h2 : k.kind ≠ 2) (e : SigEntry) (s : State) : sinkTakes k e s = s := by
  unfold sinkTakes
  split
  · exact absurd ‹_› h1
  · exact absurd ‹_› h2
  · rfl

theorem onEntry_sinks (i : Nat) (g : SigEntry → SigEntry) (s : State) : (onEntry i g s).sig.sinks = s.sig.sinks := rfl
theorem onEntry_ana (i : Nat) (g : SigEntry → SigEntry) (s : State) : (onEntry i g s).ana = s.ana := rfl

theorem drain_ana (n : Nat) (l : List Due) (s : State) (h1 : NoDioSink s) (h2 : NoAnaSink s) :
    (drain n l s).ana = s.ana := by
  induction n generalizing l s with
  | zero => cases l <;> rfl
  | succ n ih =>
    cases l with
    | nil => rfl
    | cons d r =>
      have hs : (writeEntry d.index d.value d.quality s).sig.sinks = s.sig.sinks := by
        rw [sinks_beyond, writeEntry_beyond]; rfl
      refine (ih _ _ (fun k hk => h1 k (hs ▸ hk)) (fun k hk => h2 k (hs ▸ hk))).trans ?_
      have del : ∀ i u, u.sig.sinks = s.sig.sinks → (deliver i u).ana = u.ana := fun i u hu =>
        forAll_keeps_mem (fun x : State => x.ana) _ _
          (fun k hk v => by
            have hm := hu ▸ List.mem_of_mem_drop (List.mem_of_mem_take hk)
            exact congrArg State.ana (sinkTakes_none k (h1 k hm) (h2 k hm) _ v)) u
      have touched : ∀ g u, u.sig = s.sig → u.ana = s.ana → (deliver d.index (onEntry d.index g (touchEntry d.index u))).ana = s.ana :=
        fun g u hu ha => (del _ _ ((onEntry_sinks _ _ _).trans (congrArg Sig.sinks ((touchEntry_sig u _).trans hu)))).trans
          ((onEntry_ana _ _ _).trans ((touchEntry_ana u _).trans ha))
      unfold writeEntry
      repeat' split
      · exact touched _ _ rfl rfl
      · exact touched _ _ rfl rfl
      · rfl

theorem settle_anaStill (s t : State) (h1 : NoDioSink t) (h2 : NoAnaSink t) :
    (settle s t).ana.ch.map AnaCh.still = t.ana.ch.map AnaCh.still := by
  have hs : (markCommon (refreshStages (outputsCheck (pulsesCheck t)))).sig.sinks = t.sig.sinks := by
    unfold pulsesCheck; split <;> rfl
  have hp : (outputsCheck (pulsesCheck t)).ana = t.ana := by unfold pulsesCheck; split <;> rfl
  have hd := drain_ana drainBound (itemChanges s (markCommon (refreshStages (outputsCheck (pulsesCheck t)))))
    (markCommon (refreshStages (outputsCheck (pulsesCheck t)))) (fun k hk => h1 k (hs ▸ hk)) (fun k hk => h2 k (hs ▸ hk))
  have : (settle s t).ana = (refreshStages (outputsCheck (pulsesCheck t))).ana :=
    (markConditions_keeps (fun x => x.ana) (fun _ _ _ => rfl) _).trans hd
  rw [this, refreshStages_anaStill, hp]

/-! ### Network time and the pulses -/

/-- Network time with the pulses of every channel: what a delivery leaves alone. -/
def timeSide (s : State) : Time × List Bool := (s.time, s.dio.ch.map (·.pulse))

theorem onDioCh_time (n : Nat) (f : DioCh → DioCh) (h : ∀ c, (f c).pulse = c.pulse) (s : State) :
    timeSide (onDioCh n f s) = timeSide s :=
  Prod.ext rfl (map_modify_keep (fun c : DioCh => c.pulse) f h s.dio.ch n)

theorem refreshStages_timeSide (s : State) : timeSide (refreshStages s) = timeSide s :=
  Prod.ext rfl (map_mapIdx_keep (fun c : DioCh => c.pulse) (dioStep s) (fun _ _ => rfl) s.dio.ch)

theorem dioClear_time (n : Nat) (s : State) : timeSide (dioClear n s) = timeSide s := by
  unfold dioClear
  split
  · rfl
  split
  · rfl
  · rw [refreshStages_timeSide]
    exact onDioCh_time _ _ (by intro c; split <;> rfl) s

theorem restoreGroup_time (g : Nat) (s : State) : timeSide (restoreGroup g s) = timeSide s := by
  unfold restoreGroup outputsReturn
  split
  · rw [refreshStages_timeSide]
    exact Prod.ext rfl (map_mapIdx_keep (fun c : DioCh => c.pulse)
      (fun n c => if n / 8 = g then { c with posted := false, latchedOff := true } else c)
      (fun _ _ => by split <;> rfl) s.dio.ch)
  · rfl

theorem anaCommand_time (n : Nat) (k : Int) (s : State) : timeSide (anaCommand n k s) = timeSide s := by
  unfold anaCommand; rw [refreshStages_timeSide]; rfl

theorem sinkTakes_time (k : Sink) (e : SigEntry) (s : State) : timeSide (sinkTakes k e s) = timeSide s := by
  unfold sinkTakes
  split
  · unfold dioItem
    split
    · dsimp only
      split
      · exact (dioClear_time _ _).trans (onDioCh_time _ _ (by intro c; rfl) s)
      · exact onDioCh_time _ _ (by intro c; rfl) s
    split
    · dsimp only
      split
      · exact (restoreGroup_time _ _).trans (onDioCh_time _ _ (by intro c; rfl) s)
      · exact onDioCh_time _ _ (by intro c; rfl) s
    split
    · unfold dioCommand
      rw [refreshStages_timeSide]
      exact onDioCh_time _ _ (by intro c; split <;> rfl) s
    · rfl
  · dsimp only
    repeat' split
    · exact anaCommand_time _ _ _
    · unfold anaCommandNum
      split
      · exact anaCommand_time _ _ _
      · exact (anaCommand_time _ _ _).trans rfl
    · rfl
  · rfl

theorem drain_time (n : Nat) (l : List Due) (s : State) : timeSide (drain n l s) = timeSide s := by
  induction n generalizing l s with
  | zero => cases l <;> rfl
  | succ n ih =>
    cases l with
    | nil => rfl
    | cons d r =>
      refine (ih _ _).trans ?_
      have del : ∀ i u, timeSide (deliver i u) = timeSide u := fun i u =>
        forAll_keeps timeSide _ _ (fun _ _ => sinkTakes_time _ _ _) u
      unfold writeEntry
      repeat' split
      · exact del _ _
      · exact del _ _
      · rfl

theorem outputsCheck_timeSide (s : State) : timeSide (outputsCheck s) = timeSide s :=
  Prod.ext rfl (map_mapIdx_keep (fun c : DioCh => c.pulse) (dioCheck s) (fun _ _ => rfl) s.dio.ch)

theorem settle_timeSide (s t : State) : timeSide (settle s t) = timeSide (pulsesCheck t) :=
  (markConditions_keeps timeSide (fun _ _ _ => rfl) _).trans ((drain_time _ _ _).trans
    (show timeSide (refreshStages (outputsCheck (pulsesCheck t))) = _ from
      (refreshStages_timeSide _).trans (outputsCheck_timeSide _)))

theorem settle_time (s t : State) : (settle s t).time = (pulsesCheck t).time := congrArg Prod.fst (settle_timeSide s t)

theorem settle_pulses (s t : State) : (settle s t).dio.ch.map (·.pulse) = (pulsesCheck t).dio.ch.map (·.pulse) :=
  congrArg Prod.snd (settle_timeSide s t)

theorem follow_rest (s : State) : (follow s).rest = s.rest := by
  have e : (refreshStages s).beyondField = s.beyondField := refreshStages_beyond s
  have h : (grantClocks (refreshStages s)).beyondField =
      { (refreshStages s).beyondField with sys := (grantClocks (refreshStages s)).sys } := rfl
  unfold follow State.rest
  rw [h, e]
  rfl

theorem settle_rest (s t : State) : (settle s t).rest = t.rest := by
  unfold State.rest
  rw [settle_beyond, settle_sys]

theorem bit_of_flag (k : Nat) (v w : Word) (h : flag k v = flag k w) (n : Nat) (hn : n ≠ k) : v.getLsbD n = w.getLsbD n := by
  have e := congrArg (fun x : Word => x.getLsbD n) h
  simp only [flag, setBit, if_true, BitVec.getLsbD_or, BitVec.getLsbD_twoPow] at e
  have : (decide (k = n)) = false := by simp; omega
  simpa [this] using e

/-- What a settled command leaves, beyond what follows by the way. -/
theorem answer_settle_rest (s u : State) : (follow (settle s u)).rest = u.rest :=
  (follow_rest _).trans (settle_rest s u)

/-- What a command that is settled answers. -/
theorem settled (s u : State) : ∃ t, answer (settle s u) = .next t ∧ Settled u t := by
  have hr := answer_settle_rest s u
  refine ⟨follow (settle s u), rfl, ?_⟩
  exact
    { rest := hr
      dio := dioCh_settled s u
      ana := anaCh_settled s u
      dioStill := fun h => dioCh_settled_still s u h
      anaStill := fun h1 h2 => anaCh_of_map _ _ _ ((follow_anaStill _).trans (settle_anaStill s u h1 h2))
      steady := follow_idem _
      dioLen := by simpa using congrArg List.length ((follow_dioInward _).trans (settle_dioCh s u))
      anaLen := by simpa using congrArg List.length ((follow_anaInward _).trans (settle_anaCh s u))
      dioFlags := bit_of_flag 6 _ _ (congrArg (fun x : State => x.dio.flags) hr)
      pwrFlags := bit_of_flag 18 _ _ (congrArg (fun x : State => x.pwr.flags) hr)
      time := settle_time s u
      pulse := dioCh_of_map (fun c : DioCh => c.pulse) _ _ ((map_mapIdx_keep (fun c : DioCh => c.pulse) (dioStep _) (fun _ _ => rfl) _).trans (settle_pulses s u))
      mode := by have e := congrArg (fun x : State => x.sys.mode) hr; exact e
      role := by have e := congrArg (fun x : State => x.sys.role) hr; exact e }

theorem Settled.key {u t : State} (h : Settled u t) : t.key = u.key := by
  have e := congrArg State.key h.rest; exact e
theorem Settled.start {u t : State} (h : Settled u t) : t.start = u.start := by
  have e := congrArg State.start h.rest; exact e
theorem Settled.mem {u t : State} (h : Settled u t) : t.mem.inward = u.mem.inward := by
  have e := congrArg State.mem h.rest; exact e
theorem Settled.olc {u t : State} (h : Settled u t) : t.olc = u.olc := by
  have e := congrArg State.olc h.rest; exact e
theorem Settled.eng {u t : State} (h : Settled u t) : t.eng = u.eng := by
  have e := congrArg State.eng h.rest; exact e
theorem Settled.pair {u t : State} (h : Settled u t) : t.pair = u.pair := by
  have e := congrArg State.pair h.rest; exact e
theorem Settled.hoist {u t : State} (h : Settled u t) : t.hoist = u.hoist := by
  have e := congrArg State.hoist h.rest; exact e
theorem Settled.ring {u t : State} (h : Settled u t) : t.ring = u.ring := by
  have e := congrArg State.ring h.rest; exact e
theorem Settled.can {u t : State} (h : Settled u t) : t.can = u.can := by
  have e := congrArg State.can h.rest; exact e
theorem Settled.que {u t : State} (h : Settled u t) : t.que = u.que := by
  have e := congrArg State.que h.rest; exact e
theorem Settled.safe {u t : State} (h : Settled u t) : t.safe = u.safe := by
  have e := congrArg State.safe h.rest; exact e
theorem Settled.rtc {u t : State} (h : Settled u t) : t.rtc = u.rtc := by
  have e := congrArg State.rtc h.rest; exact e
theorem Settled.log {u t : State} (h : Settled u t) : t.log = u.log := by
  have e := congrArg State.log h.rest; exact e
theorem Settled.sec {u t : State} (h : Settled u t) : t.sec = u.sec := by
  have e := congrArg State.sec h.rest; exact e
theorem Settled.plant {u t : State} (h : Settled u t) : t.plant = u.plant := by
  have e := congrArg State.plant h.rest; exact e
theorem Settled.ser {u t : State} (h : Settled u t) : t.ser = u.ser := by
  have e := congrArg State.ser h.rest; exact e
theorem Settled.panel {u t : State} (h : Settled u t) : t.panel = u.panel := by
  have e := congrArg State.panel h.rest; exact e
theorem Settled.mono {u t : State} (h : Settled u t) : t.mono = u.mono := by
  have e := congrArg State.mono h.rest; exact e
theorem Settled.monoFrac {u t : State} (h : Settled u t) : t.monoFrac = u.monoFrac := by
  have e := congrArg State.monoFrac h.rest; exact e
theorem Settled.sent {u t : State} (h : Settled u t) : t.sent = u.sent := by
  have e := congrArg State.sent h.rest; exact e
theorem Settled.pending {u t : State} (h : Settled u t) : t.pending = u.pending := by
  have e := congrArg State.pending h.rest; exact e

/-! ### Frames with a part exchanged, bits and records -/

theorem Settled.wdio {u t : State} (h : Settled u t) (d : Dio) : ({ t with dio := d } : State).rest = ({ u with dio := d } : State).rest :=
  congrArg (fun x : State => { x with dio := ({ u with dio := d } : State).rest.dio }) h.rest
theorem Settled.wdiolog {u t : State} (h : Settled u t) (d : Dio) (l : Log) : ({ t with dio := d, log := l } : State).rest = ({ u with dio := d, log := l } : State).rest :=
  congrArg (fun x : State => { x with dio := ({ u with dio := d } : State).rest.dio, log := l }) h.rest
theorem Settled.wdioana {u t : State} (h : Settled u t) (d : Dio) (l : Ana) : ({ t with dio := d, ana := l } : State).rest = ({ u with dio := d, ana := l } : State).rest :=
  congrArg (fun x : State => { x with dio := ({ u with dio := d } : State).rest.dio, ana := ({ u with ana := l } : State).rest.ana }) h.rest
theorem Settled.wana {u t : State} (h : Settled u t) (l : Ana) : ({ t with ana := l } : State).rest = ({ u with ana := l } : State).rest :=
  congrArg (fun x : State => { x with ana := ({ u with ana := l } : State).rest.ana }) h.rest

theorem setBit_get {w : Nat} (x : BitVec w) (n : Nat) (h : n < w) : (setBit x n true).getLsbD n = true := by
  simp [setBit, h]
theorem setBit_get_ne {w : Nat} (x : BitVec w) (n m : Nat) (h : n ≠ m) (b : Bool) : (setBit x n b).getLsbD m = x.getLsbD m := by
  cases b
  · simp [setBit, h]
    intro h'
    exact BitVec.lt_of_getLsbD h'
  · simp [setBit, h]
theorem raise_log (e : Ev) (sev : Severity) (u p q r : Nat) (s t : State) (hl : s.log = t.log) (hm : s.mono = t.mono) :
    (raise e sev u p q r s).log = (raise e sev u p q r t).log := by
  unfold raise raiseRecord opFraction
  simp only [onLog_log, hl, hm]

/-- The stage of a channel in a state in which nothing follows any more. -/
theorem stage_of_steady (t : State) (h : follow t = t) (n : Nat) (hn : n < t.dio.ch.length) :
    (dioCh t n).stage = dioTarget t n (dioCh t n) := by
  have e := congrArg (fun x : State => dioCh x n) h
  have hc : dioCh (follow t) n = dioStep t n (dioCh t n) := by
    show (t.dio.ch.mapIdx (dioStep t)).getD n {} = dioStep t n (t.dio.ch.getD n {})
    simp [List.getD_eq_getElem?_getD, hn]
  have e : dioStep t n (dioCh t n) = dioCh t n := hc.symm.trans e
  have held : dioHeld t n (dioCh t n) = (dioCh t n).held := congrArg DioCh.held e
  have stage : dioTarget t n { dioCh t n with held := dioHeld t n (dioCh t n) } = (dioCh t n).stage := congrArg DioCh.stage e
  rw [held] at stage
  exact stage.symm

end Sys2Proof.Machine
end

