-- ==== Sys2Proof/Laws/Frames.lean ====
section
/-! SUPPORT. Numbers as bytes and back, and the frames of R229: a frame that is built passes its own check. -/

namespace Sys2Proof.Machine

@[simp] theorem leBytes_length (n v : Nat) : (leBytes n v).length = n := by
  induction n generalizing v with
  | zero => rfl
  | succ n ih => exact congrArg Nat.succ (ih _)

/-- The bytes of a number give it back, as far as they reach. -/
theorem leNat_leBytes (n v : Nat) : leNat (leBytes n v) = v % 256 ^ n := by
  induction n generalizing v with
  | zero => exact (Nat.mod_one v).symm
  | succ n ih =>
    show (BitVec.ofNat 8 v).toNat + 256 * leNat (leBytes n (v / 256)) = v % 256 ^ (n + 1)
    rw [ih, BitVec.toNat_ofNat, show (256 : Nat) ^ (n + 1) = 256 * 256 ^ n from Nat.pow_succ', Nat.mod_mul]

/-- A field within the first part of a byte string. -/
theorem slice_append_left (a b : List Byte) (off n : Nat) (h : off + n ≤ a.length) : slice (a ++ b) off n = slice a off n := by
  unfold slice
  rw [List.drop_append_of_le_length (by omega), List.take_append_of_le_length (by rw [List.length_drop]; omega)]

/-- The field that ends a byte string. -/
theorem slice_append_right (a b : List Byte) : slice (a ++ b) a.length b.length = b := by
  unfold slice
  rw [List.drop_left, List.take_length]

theorem crc32c_lt (l : List Byte) : crc32c l < 256 ^ 4 := BitVec.isLt _

/-- A frame of a type passes the check of that type. -/
theorem frame_ok (t : Nat) (l : List Byte) (ht : t < 256) (hl : l.length + 8 < 65536) : frameOk t (frameBytes t l) = true := by
  have hd : frameBytes t l = (leBytes 1 t ++ [1] ++ leBytes 2 (l.length + 8) ++ l)
      ++ leBytes 4 (crc32c (leBytes 1 t ++ [1] ++ leBytes 2 (l.length + 8) ++ l)) := rfl
  generalize hm : leBytes 1 t ++ [1] ++ leBytes 2 (l.length + 8) ++ l = m at hd
  have hml : m.length = l.length + 4 := by rw [← hm]; simp; omega
  have h0 : fld (frameBytes t l) 0 1 = t := by
    rw [fld, hd, slice_append_left _ _ _ _ (by omega), ← hm]
    show leNat (leBytes 1 t) = t
    rw [leNat_leBytes]; omega
  have h1 : fld (frameBytes t l) 1 1 = 1 := by
    rw [fld, hd, slice_append_left _ _ _ _ (by omega), ← hm]
    rfl
  have h2 : fld (frameBytes t l) 2 2 = l.length + 8 := by
    rw [fld, hd, slice_append_left _ _ _ _ (by omega), ← hm]
    show leNat (leBytes 2 (l.length + 8)) = l.length + 8
    rw [leNat_leBytes]; omega
  have hlen : (frameBytes t l).length = l.length + 8 := by rw [hd]; simp; omega
  have hcrc : fld (frameBytes t l) (l.length + 8 - 4) 4 = crc32c m := by
    have h4 : slice (m ++ leBytes 4 (crc32c m)) (l.length + 8 - 4) 4 = leBytes 4 (crc32c m) := by
      have := slice_append_right m (leBytes 4 (crc32c m))
      rw [leBytes_length, hml] at this
      rw [show l.length + 8 - 4 = l.length + 4 by omega]
      exact this
    rw [fld, hd, h4, leNat_leBytes, Nat.mod_eq_of_lt (crc32c_lt m)]
  have htake : (frameBytes t l).take (l.length + 8 - 4) = m := by
    rw [hd, List.take_append_of_le_length (by omega), List.take_of_length_le (by omega)]
  unfold frameOk
  simp only [h0, h1, h2, hlen, hcrc, htake]
  simp

end Sys2Proof.Machine
end

