-- ==== Sys2Proof/WellFormed.lean ====
section
/-! DEFINITION. The ranges of the commands' operands: channel, port, task and line numbers as the chapters count them. A command outside
them names nothing the module has. -/

namespace Sys2Proof

open Machine

namespace WellFormed

/-- Below a bound. -/
def u (n k : Nat) : Bool := decide (n < k)

/-- Within a range. -/
def r (n lo hi : Nat) : Bool := decide (lo ≤ n) && decide (n ≤ hi)

end WellFormed

/-- A block with a commit register that the module has. -/
def Block.wf : Block → Bool
  | .can p => WellFormed.r p 1 4
  | .ser n => WellFormed.r n 1 2
  | _ => true

/-- A received frame's source address of 48 bits and its HSR sequence number of 16. -/
def Rx.wf (x : Rx) : Bool := WellFormed.u x.src 281474976710656 && x.hsr.all fun n => WellFormed.u n 65536

/-- Whether every operand of a command lies in its range. -/
def Instr.wf : Instr → Bool
  | .dioDebounce n _ => WellFormed.u n 32
  | .dioShort n _ => WellFormed.u n 32
  | .dioRetry n => WellFormed.u n 32
  | .dioRetryCheck n _ => WellFormed.u n 32
  | .dioClear _ => true
  | .dioExtFeed n => WellFormed.u n 32
  | .dioPartnerLow n => WellFormed.u n 32
  | .dioRefresh => true
  | .dioRefreshTimeout n => WellFormed.u n 32
  | .anaConversion n _ => WellFormed.u n 16
  | .anaInputFault n _ _ => WellFormed.u n 16
  | .anaLoopLimit n _ => WellFormed.u n 16
  | .anaOutputDiag n _ _ => WellFormed.u n 16
  | .cjcRead g _ => WellFormed.u g 4
  | .anaRefreshTimeout n => WellFormed.u n 16
  | .hartPoll n slot => WellFormed.u n 16 && WellFormed.u slot 15
  | .hartResponse n r => WellFormed.u n 16 && WellFormed.u r.code 65536
  | .hartResponseTimeout n => WellFormed.u n 16
  | .hartBurst n slot r => WellFormed.u n 16 && WellFormed.u slot 15 && WellFormed.u r.code 65536
  | .hartBurstAbsent n slot => WellFormed.u n 16 && WellFormed.u slot 15
  | .canFrameReceived p r => WellFormed.r p 1 4 && WellFormed.u r.frame.data.length 2049
  | .canArbitration p cancels _ => WellFormed.r p 1 4 && cancels.all fun h => WellFormed.u h 2048
  | .canTxDone p _ _ => WellFormed.r p 1 4
  | .canErrorFrame p _ => WellFormed.r p 1 4
  | .canRecover p => WellFormed.r p 1 4
  | .canRecovered p => WellFormed.r p 1 4
  | .canIntegrated p => WellFormed.r p 1 4
  | .canEntryExpired h => WellFormed.u h 2048
  | .canReferenceSend p => WellFormed.r p 1 4
  | .canMasterListenEnd p => WellFormed.r p 1 4
  | .canRefLost p => WellFormed.r p 1 4
  | .bookWindowStart p w => WellFormed.r p 1 4 && WellFormed.u w 32
  | .bookWindowEnd p w => WellFormed.r p 1 4 && WellFormed.u w 32
  | .queEnqueue _ => true
  | .queTxHeadWrite _ _ => true
  | .queTxDataWrite _ _ => true
  | .queCancel _ _ => true
  | .queTake _ _ => true
  | .queTakeDataRead _ => true
  | .queAck _ _ => true
  | .recordStore _ => true
  | .eventBlock _ sev _ _ _ => WellFormed.u sev 4
  | .logUserGo _ _ => true
  | .logRdLatch _ _ => true
  | .opsecTick => true
  | .logNextSeqRead _ => true
  | .logOpsecRead _ => true
  | .panelCompare => true
  | .panelUpdateStart _ _ => true
  | .panelFrame _ _ => true
  | .panelTempRead _ => true
  | .panelRefreshReq _ => true
  | .memoryAccess a => WellFormed.r a.size 1 8 && (!a.write || a.data.length == a.size)
  | .weakRowRecordWrite => true
  | .scrubWord flips => flips.all fun z => WellFormed.u z 80
  | .scrubWriteBack _ => true
  | .memHandoverGo _ _ => true
  | .memHandoverComplete => true
  | .memInjectWrite _ => true
  | .ringForward f => WellFormed.r f.x.port 1 2 && f.x.wf
  | .supervisionSend => true
  | .supervisionReturn _ => true
  | .supervisionTimeout _ => true
  | .linkUp port speed => WellFormed.r port 1 4 && WellFormed.r speed 1 3
  | .linkLost port => WellFormed.r port 1 4
  | .hello x _ => WellFormed.r x.port 1 2 && x.wf
  | .admitTimeout n => WellFormed.r n 1 127
  | .admitSeen x dest _ => WellFormed.r x.port 1 2 && x.wf && WellFormed.u dest 281474976710656
  | .outputSeen x _ => WellFormed.r x.port 1 2 && x.wf
  | .input x _ flips => WellFormed.r x.port 1 2 && x.wf && flips.all fun z => WellFormed.u z.2 80
  | .ringSelLatch _ _ => true
  | .secondTick => true
  | .compensationInterval _ => true
  | .cellMeasure _ _ => true
  | .wakeInput => true
  | .wakeLevelFall => true
  | .rtcNowRead _ => true
  | .ptpSync m => (m.port == 1 || m.port == 2 || m.port == 4)
  | .ptpFollowUp m => (m.port == 1 || m.port == 2 || m.port == 4)
  | .ptpAnnounce m => (m.port == 1 || m.port == 2 || m.port == 4)
  | .ptpDelayResp m => (m.port == 1 || m.port == 2 || m.port == 4)
  | .ptpPdelayReq port seq => WellFormed.r port 1 4 && WellFormed.u seq 65536
  | .ptpSyncSend => true
  | .ptpMasterLost => true
  | .holdoverExpiry => true
  | .timeStep => true
  | .pulseInstant n => WellFormed.u n 4
  | .pulseEnd n => WellFormed.u n 4
  | .timedLaunch task _ => WellFormed.u task 8
  | .calendarDiscipline => true
  | .timeNowRead _ => true
  | .refDrift => true
  | .ptpDelayReqSend => true
  | .ptpDelayReq port domain seq => WellFormed.r port 1 4 && WellFormed.u domain 256 && WellFormed.u seq 65536
  | .ptpAnnounceSend => true
  | .groupTick t => WellFormed.u t.group 8
  | .loopEnableWrite _ _ => true
  | .loopLatch _ _ => true
  | .loopLatchDone _ => true
  | .safetyTick _ => true
  | .siFilter _ n _ => WellFormed.u n 8
  | .testPulseDrop tp _ => WellFormed.u tp 2
  | .tpOverload tp => WellFormed.u tp 2
  | .tpOverloadRetry tp => WellFormed.u tp 2
  | .sbcStaticTest f _ => WellFormed.u f 2
  | .sbcHoldPhase f => WellFormed.u f 2
  | .sbcOpenLoad f => WellFormed.u f 2
  | .sbcDarkTest f _ _ => WellFormed.u f 2
  | .sbcOverload f => WellFormed.u f 2
  | .sbcOffCheck f => WellFormed.u f 2
  | .groupFResume => true
  | .brakeTestStart f => WellFormed.u f 2
  | .brakeTestAbort f => WellFormed.u f 2
  | .torqueAllowed f => WellFormed.u f 2
  | .brakeTestPass => true
  | .brakeTestFail => true
  | .brakeTestTimeout f => WellFormed.u f 2
  | .brakeTestDue f => WellFormed.u f 2
  | .x1Present _ => true
  | .x1Lost => true
  | .x2Present => true
  | .x2Lost => true
  | .x2Over => true
  | .x2Reconnect => true
  | .x2Low => true
  | .logicHigh => true
  | .holdupMeasure _ _ => true
  | .holdupEnergyUpdate _ => true
  | .busLost _ => true
  | .powerDown _ => true
  | .rideThroughEnergyLow _ => true
  | .powerDip _ => true
  | .fieldSupplyLow g => WellFormed.u g 5
  | .fieldSupplyLost g => WellFormed.u g 5
  | .fieldSupplyNormal g => WellFormed.u g 5
  | .fieldSupplyQualifying g => WellFormed.u g 5
  | .qualifyingRestart g => WellFormed.u g 5
  | .fieldSupplyReturned g => WellFormed.u g 5
  | .fieldSupplyOver g => WellFormed.u g 5
  | .fieldSupplyRestore _ => true
  | .fieldSupplySample x => x.lplus.length == 5
  | .harbourEnterRequest => true
  | .harbourAutoEnter => true
  | .harbourEntry => true
  | .watchRoundSettleEnd => true
  | .watchReadingsDone => true
  | .pwronFault => true
  | .hoistTimer => true
  | .hoistFragment _ _ => true
  | .hoistSeqRead _ => true
  | .tamperCover => true
  | .supplyGlitch => true
  | .clockGlitch => true
  | .tamperTemperature => true
  | .tamperConditionEnd source => WellFormed.u source 5
  | .identityKeyGenerated _ _ => true
  | .pennantSend => true
  | .pennantReceived _ => true
  | .jackQueryTimeout => true
  | .jackBusyRetry => true
  | .jackAnswer x _ => (x.port == 4 || WellFormed.r x.port 1 2) && x.wf
  | .jackProbe x _ => (x.port == 4 || WellFormed.r x.port 1 2) && x.wf
  | .jackNotifySend => true
  | .jackNotifyAck x _ => (x.port == 4 || WellFormed.r x.port 1 2) && x.wf
  | .jackQuery x _ => (x.port == 4 || WellFormed.r x.port 1 2) && x.wf
  | .jackProbeReply x _ => (x.port == 4 || WellFormed.r x.port 1 2) && x.wf
  | .jackProbeTimeout i => WellFormed.u i 32
  | .jackNotify x _ => (x.port == 4 || WellFormed.r x.port 1 2) && x.wf
  | .jackReachableExpiry _ => true
  | .partnerSilent => true
  | .noActiveRetry => true
  | .linkDownRetry => true
  | .handoverRequest => true
  | .handoverTimeout => true
  | .releaseInstant n => WellFormed.u n 8
  | .taskStart n => WellFormed.u n 8
  | .taskWritePoint w => WellFormed.u w.task 8 && w.slots.all fun z => WellFormed.u z.1 4096
  | .lockstep => true
  | .trap task => (WellFormed.u task 8 || task == 0xFF)
  | .backstop n => WellFormed.u n 8
  | .watchdog n => WellFormed.u n 8
  | .modeReqRun _ => true
  | .modeReqStop _ => true
  | .modeReqHold _ => true
  | .modeReqUndefined code _ => WellFormed.u code 16
  | .modeChange => true
  | .modeDrainComplete => true
  | .forceSet => true
  | .forceRelease => true
  | .forceReleaseAll => true
  | .forceEffect => true
  | .sdkBufMap _ bank row _ => WellFormed.u bank 16 && WellFormed.u row 1024
  | .sdkRequestStop _ => true
  | .sdkMono _ => true
  | .coldStart _ => true
  | .linkWaitEnd => true
  | .roleDiscoveryListenEnd => true
  | .keyRemoved => true
  | .keyOut => true
  | .keyCopyRepair _ => true
  | .harbourWake _ => true
  | .modeReqRestart _ _ => true
  | .coreWake => true
  | .clockGate _ => true
  | .sysClkholdWrite _ => true
  | .arpRequest vid mac ip target => WellFormed.u vid 4096 && WellFormed.u mac 281474976710656 && WellFormed.u ip 4294967296 && WellFormed.u target 4294967296
  | .icmpEcho vid target _ => WellFormed.u vid 4096 && WellFormed.u target 4294967296
  | .plantConnect p => WellFormed.u p.ip 4294967296 && WellFormed.u p.mac 281474976710656 && WellFormed.u p.vid 4096
  | .plantHandshake k _ => WellFormed.u k 4
  | .plantIdleTimeout k => WellFormed.u k 4
  | .plantSessionClose k => WellFormed.u k 4
  | .plantUnknownService code r => WellFormed.u code 256 && WellFormed.u r.session 4 && WellFormed.u r.number 65536
  | .logBulk r _ _ => WellFormed.u r.session 4 && WellFormed.u r.number 65536
  | .dictionary r _ _ => WellFormed.u r.session 4 && WellFormed.u r.number 65536
  | .keyRead r set _ _ => WellFormed.u r.session 4 && WellFormed.u r.number 65536 && WellFormed.u set 2
  | .enrol r _ => WellFormed.u r.session 4 && WellFormed.u r.number 65536
  | .identityGetRequest r => WellFormed.u r.session 4 && WellFormed.u r.number 65536
  | .identityInstall r _ _ => WellFormed.u r.session 4 && WellFormed.u r.number 65536
  | .reauthorise r => WellFormed.u r.session 4 && WellFormed.u r.number 65536
  | .messageOpen r c => WellFormed.u r.session 4 && WellFormed.u r.number 65536 && WellFormed.u c 4
  | .messageClose r c => WellFormed.u r.session 4 && WellFormed.u r.number 65536 && WellFormed.u c 4
  | .messageSend r c tag _ => WellFormed.u r.session 4 && WellFormed.u r.number 65536 && WellFormed.u c 4 && WellFormed.u tag 65536
  | .messageDeliver c => WellFormed.u c 4
  | .olcPiece r _ => WellFormed.u r.session 4 && WellFormed.u r.number 65536
  | .olcPieceForward _ => true
  | .olcActivate => true
  | .olcAbort => true
  | .olcPrepared => true
  | .olcSwitch => true
  | .olcNoBoundary => true
  | .olcConfirmRetry _ => true
  | .serialTransaction n => WellFormed.r n 1 2
  | .serialReply n f => WellFormed.r n 1 2 && WellFormed.u f.addr 256 && WellFormed.r f.pdu.length 1 253
  | .serialTimeout n => WellFormed.r n 1 2
  | .serialRequest n f => WellFormed.r n 1 2 && WellFormed.u f.addr 256 && WellFormed.r f.pdu.length 1 253
  | .serialWriteTimeout n item => WellFormed.r n 1 2 && WellFormed.u item 64
  | .commitWrite b _ => b.wf
  | .commitBoundary b => b.wf
  | .registerWrite _ a _ _ => WellFormed.u a.addr 65536
  | .sdkRegRead _ a => WellFormed.u a.addr 65536
  | .sdkRegWrite _ a _ _ => WellFormed.u a.addr 65536
  | .sigRdLatch _ _ => true
  | .sigWrGo _ _ => true
  | .identify r => WellFormed.u r.session 4 && WellFormed.u r.number 65536
  | .regRead r a _ => WellFormed.u r.session 4 && WellFormed.u r.number 65536 && WellFormed.u a.addr 65536
  | .regWrite r pairs _ => WellFormed.u r.session 4 && WellFormed.u r.number 65536 && (pairs.all fun q => WellFormed.u q.reg.addr 65536)

end Sys2Proof
end

