-- ==== Sys2Proof/Tests/Slice0.lean ====
section
/-! SUPPORT. The row's own tests: small states and operands, what WellFormed refuses, steps with results worked out from the spec's words,
and for each statement with premises a state and operands that meet them. -/

set_option Elab.async false

open Sys2Proof Sys2Proof.Machine
namespace Sys2Proof.Tests

/-! ### States and operands -/


/-- A module in RUN as SOLO with group A supplied. -/
def wRun : State :=
  { State.reset with
    mono := 2000000000
    sys := { mode := .run, role := .solo }
    pwr := { groups := { st := .normal } :: List.replicate 4 {} } }

/-- Digital channels 0 to 7 of the run state. -/
def wDio (l : List DioCh) : State := { wRun with dio := { ch := l } }

/-- An output that is driven on, one in SHORT_WAIT, one in RETRY, one at its tenth retry, an input, and an output off. -/
def wOutputs : State :=
  { follow (wDio [{ mode := .output, command := true, posted := true },
    { mode := .output, command := true, posted := true, ostate := .shortWait, retries := 2, diag := 0x08 },
    { mode := .output, command := true, posted := true, ostate := .retry, retries := 3, diag := 0x08 },
    { mode := .output, command := true, posted := true, ostate := .retry, retries := 10, diag := 0x08 },
    { mode := .inputType1 }, { mode := .output, posted := true },
    { mode := .output, posted := true, diag := 0x04, commanded := true }, { ostate := .latched }]) with
    mono := 4000000000 }

/-- The same with a pair-wired channel on a standby that heard the active's commands. -/
def wPairWired : State :=
  { wDio [{ mode := .pairWired }, { mode := .pairWired, diag := 0x80 }, { mode := .pairWired }] with
    sys := { mode := .run, role := .standby }
    pair := { st := .standby }
    hoist := { lastCmds := some 3, lastMask := 7 } }


/-- The run state with these analogue channels. -/
def wAna (l : List AnaCh) : State := { wRun with ana := { ch := l } }

/-- Outputs, inputs that wait for conversions and inputs that take them. -/
def wAnas : State :=
  follow (wAna [{ mode := .voltageOut }, { mode := .currentOut, commanded := true }, { mode := .voltageIn },
    { mode := .rtd, discard := 0, valid := true, standing := 0x0C }])

/-- Inputs of a current and a resistance, and a current output whose loop opens. -/
def wAnaMeasures : State :=
  wAna [{ mode := .currentPassive, discard := 0 }, { mode := .resistance, discard := 0, leadMohm := 300 },
    { mode := .currentOut, out := 1200000, standing := 0x40 }]

/-- Powered loops and an input with a broken wire. -/
def wAnaLoops : State :=
  follow (wAna [{ mode := .currentPowered, range420 := true }, { mode := .hartMultidrop },
    { mode := .thermocouple, standing := 0x10 }, { mode := .voltageIn, discard := 0, valid := true }])

/-- A HART device on channel 0, polled and in burst mode, another with a transaction in progress on channel 1, and one on channel 2 whose
long address is not known. -/
def wHart : State :=
  { wAna [] with
    ana :=
      { ch := List.replicate 3 { mode := .currentPassive, hartEn := true }
        devs := [{ channel := 0, slot := 0, pollAddr := 0, poll := true, burst := true, longAddr := 1, pollMs := 1000, burstMs := 600 },
          { channel := 1, slot := 0, pollAddr := 0, poll := true, burst := false, longAddr := 2, pollMs := 1000, burstMs := 0,
            absent := true, failed := 2 },
          { channel := 2, slot := 0, pollAddr := 5, poll := true, burst := false, longAddr := 0, pollMs := 1000, burstMs := 0 }]
        tx := [(1, { slot := 0, handle := none, attempt := 1, cmd := 3, at_ := 0 })] } }
/-- The answer of a HART device that reports no error. -/
def aHartReply : HartReply := { code := 0, error := false, status := 0, vars := [1, 2, 3, 4], data := [] }


/-- A classical data frame. -/
def frameOf (id : Nat) (data : List Byte) : CanFrame := { format := 0, id := id, length := data.length, data := data }

/-- A receive definition of 4 bytes for identifier 0x10. -/
def rxDef : CanDef :=
  { num := 0, tx := false, format := 0, cls := 0, id := 0x10, mask := 0x7FF, length := 4, task := 0, trigger := 0, divider := 1,
    timeout := 100, af := 0, sdt := 0, vcid := 0, sec := 0, expiryUs := 0, absent := true }

/-- Port 1 on the bus, with a receive definition and a filter to set 0. -/
def busPort : CanPort :=
  { st := .errorActive, tec := 5, rxec := 250, force := { cfg := 3 }, defs := [rxDef],
    filters := [{ set := 0, accept := 1, id := 0x100, mask := 0x700 }] }

/-- The queues of port 1's classes 0 and 1 and of its receive set 0, and of plant channel 0. -/
def canQueues : List Queue :=
  [{ user := 1, unit := 1, role := 0, depth := 4 }, { user := 1, unit := 1, role := 1, depth := 4 },
   { user := 1, unit := 1, role := 4, depth := 4 }, { user := 2, unit := 0, role := 0, depth := 2 }] ++ List.replicate 60 ({} : Queue)

/-- A held descriptor. -/
def desc (h q : Nat) (st : DescState) : Desc :=
  { handle := h, queue := q, st := st, owner := .sdk, frame := frameOf (0x20 + h) [1, 2], expiry := none, oneShot := false, result := 0,
    flags := 0, ts := 0, taken := false, cancel := false, defn := none, shared := false, client := none }

/-- An entry that expires, and an attempt that is cancelled or not. -/
def expiring : Desc := { desc 1 1 .pending with expiry := some 5 }
def attempt (c : Bool) : Desc := { desc 2 0 .attempt with cancel := c }

/-- A filter of the port. -/
def aFilter : CanFilter := { set := 0, accept := 1, id := 0x100, mask := 0x700 }

/-- The run state with port 1 on the bus and its queues. -/
def wCan : State :=
  { wRun with
    can := busPort :: List.replicate 3 {}
    que := { queues := canQueues, held := [desc 0 0 .pending, expiring] }
    cyc := { natives := [{ typ := 1, windows := 0x400, write := 0x400, banks := 0 }] }
    mono := 7000 }

/-- The same with an attempt on the bus; `c` is its cancel. -/
def wCanAttempt (c : Bool) : State :=
  { wCan with
    can := { busPort with onBus := some 2 } :: List.replicate 3 {}
    que := { wCan.que with held := [desc 0 0 .retired, attempt c, desc 3 2 .filled] } }

/-- The same of a standby. -/
def wCanStandby : State := let s := wCanAttempt false; { s with sys := { s.sys with role := .standby } }

/-- Port 1 with few receive errors. -/
def wCanCalm : State := { wCan with can := { busPort with rxec := 5 } :: List.replicate 3 {} }

/-- Port 1 in another state. -/
def wCanState (st : CanState) : State :=
  { wCan with can := { busPort with st := st, waitRecover := true, tec := 130, offAt := 2000 } :: List.replicate 3 {} }

/-- Port 1 of a book with one window and two entries, as a potential master. -/
def wBook (synced : Bool) (sched : List (Nat × Nat)) : State :=
  { wCan with
    mono := 70000
    can := { busPort with
      book := { enabled := true, master := true, cycles := 4, cycleNtu := 1000, refId := 0x80, refLen := 4, synced := synced,
                windows := [{ start := 100, typ := 0, txEnable := 10 }, { start := 300, typ := 2, txEnable := 0 }],
                entries := [{ window := 0, defn := 3, base := 1, period := 2 }], cycle := 3, scheduled := sched } } :: List.replicate 3 {} }

/-- The same with a whole CAN request staged by the blocks and a request of length 3 by the plant port. -/
def wCanStage : State :=
  { wCan with
    que := { wCan.que with sdk := { head := 0x00000008, id := 0x30, ptr := 4, data := [1, 2, 3, 4] }, plant := { head := 0x03000002 } }
    plant := { windows := 0x400 } }

/-- An error of this weight on the bus. -/
def canErr (tec rec' : Nat) : CanErr := { code := 3, field := 1, sending := true, inData := false, tecAdd := tec, recAdd := rec' }

/-- A frame of this format as it arrives. -/
def canRx (format id : Nat) (data : List Byte) : CanRx :=
  { frame := { frameOf id data with format := format }, esi := true, sofAt := 3, reserved := false }


/-- A record. -/
def rec' (seq : Nat) (sev : Severity) : LogRec :=
  { seq := seq, code := .mod .halt, opsec := 0, frac := 0, power := 0, sev := sev, flags := 0, source := 0, unit := 0, p1 := 0, p2 := 0, p3 := 0 }

/-- Staging holds one record, and slots 0 and 2 are taken. -/
def wStore : State :=
  { State.reset with log := { accepting := true, staged := [rec' 9 .fault], slots := [(0, rec' 1 .info)], retired := [2] } }

/-- Staging is full. -/
def wStageFull : State := { State.reset with log := { staged := List.replicate 4096 (rec' 1 .info) } }

/-- Every slot of the store. -/
@[irreducible] def allSlots : List Nat := List.range 65536

/-- No slot is empty: slot 0 holds a record of this severity and every other one is retired. -/
def wSlotsFull (sev : Severity) : State :=
  { State.reset with
    log := { accepting := true, staged := [rec' 9 .fault], slots := [(0, rec' 1 sev)], retired := allSlots } }

/-- User records are disabled, and the program was refused at instant 0. -/
def wNoUser : State := { State.reset with log := { userEnable := false, refusedAt := [(0, 0)] } }

/-- The panel is enabled and what it shows is not known; `u` runs. -/
def wPanel (u : Option PanelUpdate) (mJ : Nat) : State :=
  { wRun with
    panel := { enabled := true, pending := true, update := u, frame := 1, vsSet := 1000, minInterval := 10, band := 3, bandLatched := 3, unknown := true }
    pwr := { wRun.pwr with energy := mJ } }
/-- The same 70 s after the refusal was last told. -/
def wNoUserLater : State := { wNoUser with mono := 70000000000 }

/-- A note of the blocks waits to be posted. -/
def wNote : State := { wRun with log := { sdk := { code := 5 } } }


/-- The banks with bank 0 the CPU's for data and bank 1 the mirror's. -/
def someBanks : List Bank :=
  { owner := .cpu, use := .data } :: { owner := .mirror } :: List.replicate 15 ({} : Bank)

/-- The run state with banks 0 and 1 owned, one stored byte, and a word of bank 0 with these positions in error. -/
def wMem (e : List Nat) : State :=
  { wRun with
    mem :=
      { banks := someBanks
        cells := [(3, 0x5A), (0x80004, 7)]
        errs := if e.isEmpty then [] else [({ bank := 0, row := 0, word := 1 }, e)]
        posWord := 1
        backs := [({ bank := 0, row := 2, word := 3 }, [5], [])]
        corrected := [({ bank := 0, row := 2, word := 3 }, 5, false)]
        weakDue := [{ bank := 0, row := 7, trigger := 2, power := 1, fold := 0xFF }] } }

/-- A handover of bank 1 to the recorder, with a clear, is running. -/
def wHandover : State :=
  { wMem [] with mem := { (wMem []).mem with
    handover := { busy := true, bank := 1, owner := 5, clear := true, nowBank := 1, nowOwner := 5, nowClear := true } } }

/-- The memory without rails, with its bank unpowered, with the word found uncorrectable, and with a write-back due. -/
def wMemOff : State := { wMem [] with pwr := { (wMem []).pwr with railsOff := true } }
def wMemDark : State := { wMem [] with mem := { (wMem []).mem with banks := (wMem []).mem.banks.map fun b => { b with powered := false } } }
def wMemFound : State := { wMem [] with mem := { (wMem []).mem with found := [⟨0, 2, 3⟩], posWord := 131 } }
def wMemBack : State := { wMem [3] with mem := { (wMem [3]).mem with backs := [(⟨0, 2, 3⟩, [0], [])] } }

/-- The same memory in STOP. -/
def wMemStop : State := { wMem [] with sys := { mode := .stop, role := .solo } }
/-- A white update of one pass of this many frames. -/
def upd (frames : Nat) : PanelUpdate := { draws := .white, recovery := false, corrective := false, lengths := [frames] }

/-- An update of three frames runs from bank 2, a word of which is wrong in three positions. -/
def wPanelBad : State :=
  { wPanel (some (upd 3)) 100 with
    mem := { banks := {} :: {} :: { owner := .panel } :: List.replicate 14 ({} : Bank), errs := [(⟨2, 2, 3⟩, [1, 2, 3])] } }

/-- The update stands in harbour watch. -/
def wPanelHarbour : State := { wPanelBad with pwr := { wPanelBad.pwr with hbr := .asleep } }

/-- A bank of the CPU's that holds one instance of 24 bytes, and two entries of the signal table in bank 10. -/
def wTables : State :=
  { wMem [] with
    mem := { (wMem []).mem with banks := someBanks.modify 10 fun b => { b with owner := .cpu } }
    cyc := { (wMem []).cyc with instances := [{ id := 1, typ := 1, version := 1, data := List.replicate 24 7 }] }
    sig := { (wMem []).sig with entries := [(0, { typ := 2 }), (1, { typ := 6 })] } }

/-- Five bytes of owner 0 across a word boundary, written or read with one flip. -/
def acrossWords (write : Bool) : MemAccess :=
  { owner := .cpu, unit := .none, write := write, addr := 6, size := 5, data := [1, 0, 2, 3, 4], flips := if write then [] else [(0, 1)] }

/-- A row that the pattern test has found. -/
def weakRow : WeakEntry := { bank := 0, row := 7, trigger := 2, power := 1, fold := 0xFF }


/-- A header of an accepted key with this KIND and PAIR_ID. -/
def headerOf (kind : Nat) : Header :=
  { level := 1, flags := 0, keyId := 0xA1, seq := 1, startSet := 0, kind := kind, name := [], pairId := 0x51, digest0 := [], digest1 := [],
    gen0 := 1, gen1 := 0, signer := 1 }

/-- A configured station of two output and two input bytes. -/
def station (n : Nat) (st : StnState) : Station :=
  { num := n, task := 0, lostCycles := 3, pinMac := false, outLen := 2, inLen := 2, watchdog := 10, typ := 0, mac := 0, st := st,
    session := 7, addr := some 0xE0, lastSeq := some 4 }

/-- Station 2, ADMITTING after it was LOST. -/
def wasLost : Station := { station 2 .admitting with fromLost := true }

/-- The run state as `role` with both ring ports up and stations 1 IDLE, 2 ADMITTING, 3 LIVE. -/
def wRing (role : Role) : State :=
  { wRun with
    sys := { mode := .run, role := role, run := allClocks, refClock := true, pll := true }
    start := { header := some (headerOf 1), accepted := true }
    mem := { banks := (List.replicate 17 ({} : Bank)).modify 12 fun b => { b with owner := .ring } }
    ring := { runs := true, sup12 := some 1999500000, sup21 := some 1999500000, link1 := true, link2 := true, dir12 := true, miss12 := 1, miss21 := 2,
              stations := [station 1 .idle, wasLost, station 3 .live] } }
/-- The ring with port 1 down and this many own frames in a row missing on port 1 to 2. -/
def wRingMiss (missing : Nat) : State :=
  { wRing .solo with ring := { (wRing .solo).ring with miss12 := missing, miss21 := 0, link1 := false, sup12 := some 1990000000 } }

/-- The ring with its own frames gone from port 1 to 2 for two rounds, and back. -/
def wRingBack : State := { wRing .solo with ring := { (wRing .solo).ring with dir12 := false, miss12 := 2 } }

/-- Where a frame comes in: port 1, with the HSR number 5 or untagged. -/
def aRx (tagged : Bool) : Rx := { port := 1, src := 0xE0, hsr := if tagged then some 5 else none }

/-- A frame that passes through the ring, of PTP with this type and a correction where one is given. -/
def aForward (typ : Option Nat) (port : Nat) (tagged : Bool) : RingFwd :=
  { x := { aRx tagged with port := port }, body := [1], ptp := typ.map fun k => (k, 9), residence := 10 }

/-- HELLO, ADMIT, INPUT and OUTPUT frames of a station of owner 0x51. -/
def helloOf (n : Nat) : List Byte :=
  frameBytes 0x20 (leBytes 8 0x51 ++ leBytes 1 n ++ leBytes 3 0 ++ leBytes 4 0 ++ leBytes 4 3 ++ leBytes 2 8 ++ leBytes 2 8)
def admitOf (n : Nat) : List Byte :=
  frameBytes 0x21 (leBytes 8 0x51 ++ leBytes 1 n ++ leBytes 1 0 ++ leBytes 2 9 ++ leBytes 20 0)
def inputOf (n : Nat) : List Byte :=
  frameBytes 0x23 (leBytes 8 0x51 ++ leBytes 1 n ++ leBytes 1 0 ++ leBytes 2 7 ++ leBytes 4 0 ++ leBytes 8 0 ++ leBytes 4 5 ++ leBytes 2 2
    ++ leBytes 2 0 ++ [1, 2])
def outputOf (n epoch : Nat) : List Byte :=
  frameBytes 0x22 (leBytes 8 0x51 ++ leBytes 1 n ++ leBytes 1 0 ++ leBytes 2 7 ++ leBytes 4 epoch ++ leBytes 12 0 ++ leBytes 2 0 ++ leBytes 2 0)


/-- The calendar at a moment, with alarm 0 at second 0 and once; `set` is a committed set that waits. -/
def wCalendar (now : Calendar) (set : Option RtcSet) : State :=
  { wRun with
    rtc := { now := now, weekday := 6, valid := true,
             alarms := [{ enable := true, once := true, matchMask := 1 }, {}],
             copied := set.getD {}, commit := { pending := set.isSome } } }

/-- The last second of a day. -/
def dayEnd : Calendar := { year := 2027, month := 2, day := 28, hour := 23, minute := 59, second := 59 }

/-- The run state in harbour watch. -/
def wAsleep : State := { wRun with sys := { mode := .harbour, role := .none }, pwr := { wRun.pwr with x2 := true } }

/-- An ordinary clock on the ring that follows master 0x77 in this state, or a grandmaster. -/
def wClock (st : TimeState) : State :=
  { wRing .solo with
    time := { cfg := { ptp := true, gmCapable := true, discipline := true }, st := st, ns := 5000000000, master := 0x77,
              launches := [(0, 5000000000)],
              pathDelay := 1500, syncWait := some (3, 4000000000, 12), utcValid := true, everLocked := true,
              freqs := [100, 200], stepPending := some (-3), reqAt := 10, driftSum := 21000, driftNs := 1, driftAt := 3600000000000 }
    mono := 3600000000000 }

/-- A one-step Sync of the selected master. -/
def aSync : PtpSync := { port := 1, domain := 0, source := 0x77, twoStep := false, seq := 3, origin := 4999990000, corr := 40 }

/-- Pulse channel 28 in PERIODIC and channel 29 in ONE_SHOT, both with an instant to come; group D is supplied. -/
def wPulses (shorted : Bool) : State :=
  { wRun with
    pwr := { groups := List.replicate 5 { st := .normal } }
    dio := { ch := List.replicate 28 ({} : DioCh) ++
      List.replicate 4 ({ mode := .timedPulse, ostate := if shorted then .shortWait else .normal } : DioCh) }
    time := { cfg := { ptp := true }, st := .locked, ns := 1000000,
              pulses := [{ force := { mode := 2, atUs := 900, width := 50, period := 1000 }, next := some 1000 },
                { force := { mode := 1, atUs := 1000, width := 50 }, next := some 1000 }, {}, {}] } }
/-- The last second of a day set to a calendar that is none, or with a filter. -/
def badCalendar : RtcSet := { setCalendar := true, time := { month := 13 } }
def goodCalendar : RtcSet := { setCalendar := true, filter := 9 }

/-- A clock with its compensation curve. -/
def wCurve : State := { wCalendar dayEnd none with rtc := { curveOk := true, curve := List.replicate 27 5 } }

/-- A clock that acquires with peer delay, and a locked one whose time is known as UTC. -/
def wP2p : State := { wClock .acquiring with time := { (wClock .acquiring).time with cfg := { ptp := true, p2p := true } } }
def wClock4 : State :=
  let s := wClock .grandmaster
  { s with sys := { s.sys with linkP4 := true }, time := { s.time with cfg := { s.time.cfg with port4 := true } } }
def wUtc : State :=
  { wClock .locked with time := { (wClock .locked).time with utcValid := true, utcOffset := 37, ns := 2000000000000000000 } }

/-- A clock on P4 in P2P mode, and a set that waits while the logic has no power and the input WAKE is supplied. -/
def wPeer4 : State := { wClock4 with time := { wClock4.time with cfg := { wClock4.time.cfg with p2p := true } } }
def wDark : State :=
  let s := wCalendar dayEnd (some goodCalendar)
  { s with pwr := { s.pwr with x2 := true, railsOff := true } }

/-- Variants of the Sync. -/
def twoStepSync : PtpSync := { aSync with twoStep := true }
def zeroSync : PtpSync := { aSync with origin := 0 }
def otherSync : PtpSync := { aSync with port := 2 }

/-- An Announce of this master that the clock follows or not, and a delay answer. -/
def announceOf (decision : Bmca) (master : Nat) : PtpAnnounce :=
  { port := 1, domain := 0, master := master, utcOffset := 38, utcValid := master == 0x77, decision := decision }
def aDelay : PtpDelay := { port := 1, domain := 0, time := 4000, corr := -3 }
def aDelay2 : PtpDelay := { aDelay with port := 2 }


/-- Two loops of group 0, and loop 33 alone in group 1 with a bad input. -/
def wLoops (mode : Mode) : State :=
  { wRun with
    sys := { mode := mode, role := .solo }
    sig := { entries := [(1, { quality := 0x00, typ := 6 }), (2, { typ := 6 })] }
    eng :=
      { loops := [(0, { defined := true, enabled := true, out := { m := 5, e := 3 } }), (1, { defined := true, enabled := true }),
          (33, { defined := true, enabled := true, group := 1, inA := { kind := 1, ref := 1 }, outEntry := 2,
                 secs := [{ xs := [7, 0, 0] }] })]
        sdk := { want := some 33 } } }

/-- The same with B11 the engine's, and group 0's instant still to come. -/
def wLoopsLate : State :=
  let s := wLoops .run
  { s with mem := { s.mem with banks := s.mem.banks.modify 11 fun b => { b with owner := .loop } }
           eng := { s.eng with groups := s.eng.groups.modify 0 fun g => { g with nextTick := 1000000000000 } } }

/-- A channel that both paths see alike. -/
def both (c : SiSeen) : SiCh := { chip := c, sup := c }

/-- A present safety function: pairs EQUIVALENT, ANTIVALENT and RESET, function 0 in this state and function 1 disabled. -/
def wSafe (st : FuncState) : State :=
  { wRun with
    pwr := { groups := List.replicate 5 { st := .normal } }
    mono := 8000000000
    safe :=
      { present := true, tpEn0 := true, tpEn1 := true, resumed := true
        ch := [both { filt := true, tpRun := 1 }, both { filt := true }, both { filt := true }, {},
               both { filt := true, rose := 7500000000 }, both { filt := true, rose := 7950000000 },
               both { filt := true, rose := 1000000000 }, both { filt := true, rose := 7500000000, resetFault := true }]
        pairs := [{ mode := .equivalent, test := true, filter := 10, disc := 100, chip := { combined := true }, sup := { combined := true } },
                  { mode := .antivalent, filter := 10, disc := 100, chip := { combined := true }, sup := { combined := true } },
                  { mode := .reset, test := true, filter := 10 }, { mode := .reset, filter := 10 }]
        funcs := [{ enabled := true, pairs := 3, resetSi := 4, reqEntry := 1, st := st, hsOn := st == .released, lsOn := st == .released,
                    intervalH := 24, hours := 24, torque := true, minMa := 100, darkHs := 1, supSt := st }, {}] }
    sig := { entries := [(1, { value := 1, quality := 0xC0 })] } }
/-- A tick of a group that computed or did not. -/
def aTick (group computed : Nat) : LoopTick := { group := group, computed := computed, busy := 9, load := 7 }

/-- A change of the safety window, of function 0 and of a pair. -/
def onSafe' (f : Safe → Safe) (s : State) : State := { s with safe := f s.safe }
def inFunc (f : SafeFunc → SafeFunc) (x : Safe) : Safe := { x with funcs := x.funcs.modify 0 f }
def inPair (f : SiPair → SiPair) (x : Safe) : Safe := { x with pairs := x.pairs.modify 0 f }
def oneOpen (x : Safe) : Safe := { x with ch := x.ch.modify 1 fun c => { c with sup := { c.sup with filt := false } } }

/-- The same without groups, with a discrepancy, with one input open, and with an edge of the reset input. -/
def wSafeDark (st : FuncState) : State := { wSafe st with pwr := {} }
def wSafeDisc (st : FuncState) : State := onSafe' (inPair fun p => { p with chip := { p.chip with faults := { discrepancy := true }, seenBoth0 := true } }) (wSafe st)
def wSafeOpen (st : FuncState) : State := onSafe' oneOpen (wSafe st)
def wSafeEdge (st : FuncState) : State :=
  onSafe' (fun x => oneOpen (inFunc (fun f => { f with edge := some 200, btFailed := true }) x)) (wSafe st)
def wSafeTest (st : FuncState) : State :=
  onSafe' (fun x => inPair (fun p => { p with disc := 0, chip := { p.chip with faults := { tpFault := true }, seenBoth0 := true } })
    (inFunc (fun f => { f with edge := some 200 }) (oneOpen x))) (wSafe st)
def wSafeFailed (st : FuncState) : State :=
  { onSafe' (inFunc fun f => { f with edge := some 100, torque := false, btFailed := true }) (wSafe st) with sig := {} }
def wSafeStatic (st : FuncState) : State :=
  onSafe' (inFunc fun f => { f with torque := false, lowTicks := 200, overTicks := 20, offTicks := 20 }) (wSafe st)
/-- The same in RUN as SOLO, so that the request of its entry counts. -/
def wSafeRun (st : FuncState) : State := { wSafeStatic st with sys := { mode := .run, role := .solo } }

/-- The readback of a static test that passes, that finds a switch stuck and that finds no load, and levels for both paths. -/
def backPass : StaticBack := { supply := 2400, highPlus := 2390, highMinus := 2380, lowPlus := 10, lowMinus := 10 }
def backStuck : StaticBack := { backPass with lowPlus := 300 }
def backOpen : StaticBack := { backPass with highMinus := 0 }
def levelsOf (l : BitVec 8) : DropLevels := { chip := l, sup := l }

/-- A tick of the paths with these raw levels. -/
def safeTick (raw : Byte) (missed : Bool) : SafeTick :=
  { raw := raw, missed := missed, clocks := missed, ma0 := 1, mv0 := 2, ma1 := 3, mv1 := 4 }


/-- The run state on the backup input, with a store of this capacity and energy that is ready or not. -/
def wSupply (ready : Bool) (mJ : Nat) : State :=
  { wRing .solo with
    pwr := { x2 := true, source := .backup, holdupReady := ready, esr := 20, esrFactory := 15, cap := 150, energy := mJ,
             groups := { st := .normal } :: List.replicate 4 {} }
    log := { accepting := true, staged := [rec' 9 .fault], opsec := 77 } }

/-- The same on mains, with the backup input present. -/
def wMains : State := { wSupply true 300 with pwr := { (wSupply true 300).pwr with x1 := true, source := .mains } }

/-- A ride-through that began at instant 1,000. -/
def wRide : State := { wSupply true 300 with pwr := { (wSupply true 300).pwr with rideAt := some 1000, source := .holdup }, mono := 20000000 }

/-- Groups A to D and F in NORMAL, LOW, LOST, QUALIFYING and AWAIT_ACK. -/
def wGroups : State :=
  { wRun with
    pwr := { groups := [{ st := .normal }, { st := .low }, { st := .lost }, { st := .qualifying, first := false }, { st := .awaitAck }],
             copied := { policy := 3 }, commit := { pending := true } } }

/-- Group A has qualified before and waits; group F qualifies. -/
def wGroupsBack : State :=
  { wRun with pwr := { groups := [{ st := .awaitAck, first := false }, { st := .qualifying }, {}, {}, { st := .qualifying }] } }

/-- A module that may enter harbour watch, with bank 1 retained. -/
def wHarbour (p : HbrPhase) : State :=
  { wMem [] with
    sys := { mode := if p = .settling ∨ p = .reading then .harbour else .run, role := if p = .settling ∨ p = .reading then .none else .solo }
    pwr := { x2 := true, harbourEnabled := true, hbr := p, pwrOnState := true, force := { autoEnter := 5, retain := 2, digital := 1, analogue := 1 },
             groups := { st := .normal } :: List.replicate 4 {} }
    ana := { (wMem []).ana with ch := { mode := .voltageIn, valid := true, round := [3, 4, 4, 3, 4, 4, 5, 5] } :: List.replicate 15 ({} : AnaCh) } }
/-- One channel to read in the round. -/
def wHarbourOne : State := { wHarbour .reading with pwr := { (wHarbour .reading).pwr with force := { analogue := 1 } } }

/-- Nothing to read in the round, a worn store, and a power-down asleep. -/
def wHarbourIdle : State := { wHarbour .reading with pwr := { (wHarbour .reading).pwr with force := {} } }
def wWorn : State := { wSupply true 300 with pwr := { (wSupply true 300).pwr with cap := 60 } }
def wPowerDown : State := { wSupply true 300 with pwr := { (wSupply true 300).pwr with powerDown := true, hbr := .asleep } }

/-- One record in the rows that energy writes, and a measurement of the supplies. -/
def oneRow : PowerRows := { records := 1, backup := false }
def aSample : SupplySample := { lplus := [2400, 1, 2, 3, 4], x1V := 230, x2mV := 24000, busmV := 2, power := 3 }


/-- A pair side A in RUN as this role and pair state, with the links up. -/
def wPair (role : Role) (st : PairState) : State :=
  { wRing role with
    pair := { st := st, side := 1, epoch := 4, epochCopy := 4, jackMac := 0x99, jackP4 := true, linkP3 := true, silent := false, cmdSeq := 8,
              client := { waiting := true, attempts := 1, queryNo := 6, notifyNo := 2 } }
    mono := 9000000 }

/-- One fragment of a hoist (R268). -/
def fragment (seq no last : Nat) (data : List Byte) : List Byte :=
  frameBytes 0x50 (leBytes 8 seq ++ leBytes 2 no ++ leBytes 1 last ++ [0] ++ data)

/-- The head of a hoist body without records. -/
def emptyBody (seq gen flags : Nat) : List Byte := hoistHead seq gen 0xFF flags 0 0

/-- A standby that has taken fragment 0 of hoist 5, the first 20 bytes of its body. -/
def wFragments (flags gen : Nat) : State :=
  { wPair .standby .standby with
    hoist := { fragSeq := some 5, fragNext := 1, fragData := (emptyBody 5 gen flags).take 20, seq := some 4, expect := some 5, imageOk := true } }

/-- The last fragment of hoist 5. -/
def lastFragment (flags gen : Nat) : List Byte := fragment 5 1 1 ((emptyBody 5 gen flags).drop 20)

/-- The other side's pennant. -/
def thePennant : Pennant :=
  { pairId := 0x51, side := 2, role := 3, mode := 1, flags := 0, seq := 12, epoch := 4, gen := 0, set := 0, level := 0, digest := 0,
    mono := 100, nextT0 := 0, command := 0, arg := 0, cmdSeq := 8, cmdAt := 0, newEpoch := 0, lastHoist := 0 }

/-- A standby whose mirror channel owns bank 2, one word of which three positions are wrong, and one that no hoist has reached for 9 ms
while an active in RUN is heard. -/
def wMirrorBad : State :=
  { wFragments 0 0 with
    mem := { banks := {} :: {} :: { owner := .mirror } :: List.replicate 14 ({} : Bank), errs := [(⟨2, 2, 3⟩, [1, 2, 3])] } }
def wNoHoist : State :=
  { wFragments 0 0 with
    pair := { (wFragments 0 0).pair with partner := some { thePennant with role := 2 } }
    mono := 9000000 }

/-- The same standby with a task that paces the hoists. -/
def wMirrorTask : State := { wFragments 0 0 with hoist := { (wFragments 0 0).hoist with pacing := 0 } }

/-- A Jack frame of the pair. -/
def jackOf (typ side arg num epoch : Nat) : List Byte :=
  jackBytes { typ := typ, pairId := 0x51, side := side, arg := arg, num := num, epoch := epoch }

/-- A Jack in RUN that serves pair 0x51 with this record. -/
def wJack (r : JackRec) : State :=
  { wRun with
    sys := { mode := .run, role := .jack }
    start := { header := some (headerOf 3), accepted := true }
    pair := { jackP4 := true, jackRing := true, jack := [r, { pairId := 0x52 }] }
    mono := 9000000 }

/-- Tamper sources with this response, armed, with the rails on or off. -/
def wTamper (r : Response) (off : Bool) : State :=
  { wRun with
    sec := { responses := List.replicate 5 r, everKey := true, armed := true, identity := .enrolled, idX := 5,
             standing := [false, true, false, false, false] }
    plant := { sessions := List.replicate 4 { st := 2 } }
    pwr := { wRun.pwr with railsOff := off } }
/-- An active with a hoist sent, a standby that waits for fragment 2, and an erasure while the identity is made. -/
def wHoisted : State := { wPair .active .active with hoist := { seq := some 9 } }
def wLateFragment : State := { wFragments 0 0 with hoist := { (wFragments 0 0).hoist with fragNext := 2 } }
def wGenerating : State :=
  { wTamper .erase false with sec := { standing := [true, false, false, false, false], identity := .generating } }

/-- The pair with a partner that has fallen silent, before and after it became a standby, with an older pennant, and foreign with a hand-over asked. -/
def onPair' (f : Pair → Pair) (s : State) : State := { s with pair := f s.pair }
def wSilent (role : Role) (st : PairState) : State :=
  onPair' (fun p =>
    { p with
      jackP4 := false, jackRing := true, partner := some thePennant, silent := true, linkDown := true
      client := { p.client with notifyAt := some 8500000 } }) (wPair role st)
def wSilentNew : State := onPair' (fun p => { p with linkDown := false }) (wSilent .standby .standby)
def olderPennant : Pennant := { thePennant with seq := 3 }
def theCommand : PairCommand := { kind := 3, arg := 0, seq := 9, due := 5, newEpoch := 5, acked := false, asked := 1 }
def wHeard : State := onPair' (fun p => { p with partner := some olderPennant, cmd := none }) (wPair .active .active)
def wForeign : State :=
  onPair' (fun p => { p with partner := some olderPennant, foreign := true, cmd := some theCommand }) (wPair .active .releasing)

/-- The side that hears its Jack's last word long ago and waits for an acknowledgement, a side just heard from, and sides in role discovery. -/
def wOldWord (s : State) : State := { s with mono := 2000000000 }
def wJustHeard : State :=
  onPair' (fun p => { p with
    partnerAt := 8000000
    client := { p.client with notifyAt := some 8500000, lastAnswer := 8500000 } }) wForeign
def wDiscovers (ph : StartPhase) : State :=
  let s := wPair .standby .none
  { s with sys := { s.sys with mode := .starting }, start := { s.start with phase := ph } }
def wSeen : State := { wPair .standby .query with ring := { (wPair .standby .query).ring with seen := [(0xE0, 5, 8999999)] } }
def wHalted (m : Mode) : State := { wPair .standby .query with sys := { (wPair .standby .query).sys with mode := m } }

/-- A standby whose query has failed three times, the Jack told absent or not, and one that waits for nothing. -/
def wLastQuery (told : Bool) : State :=
  onPair' (fun p => { p with client := { p.client with attempts := 3, absentRec := told } }) (wPair .standby .query)
def wNoWait : State := onPair' (fun p => { p with client := { p.client with waiting := false } }) (wPair .standby .query)

/-- Pennants of another pair and of a later epoch, and the Jack's records. -/
def strangePennant : Pennant := { thePennant with pairId := 0x77 }
def laterPennant : Pennant := { thePennant with epoch := 9 }
def clashPennant : Pennant := { thePennant with side := 1 }
def strangeQuery : List Byte := jackBytes { typ := 0x41, pairId := 0x53, side := 1, arg := 2, num := 5, epoch := 7 }
def jackFresh : JackRec := { pairId := 0x51 }
def jackSpent : JackRec := { pairId := 0x51, epoch := 0xFFFFFFFE }
def jackBusy : JackRec := { pairId := 0x51, busy := true, querier := 1, probeNo := 3, known := 7 }
def jackGranted : JackRec := { pairId := 0x51, owner := 2, granted := some 8000000, epoch := 3 }
def jackSeen : JackRec := { pairId := 0x51, owner := 2, seenA := true, seenB := true, epoch := 3 }


/-- Tasks that tell the cases apart: 0 due for release, 1 released, 2 started after a skip, 3 started with a release held, 4 and 5 due with a
cycle in progress, and 6 long past its limits. -/
def theTask : Nat → Task
  | 0 => { enabled := true, period := 2, nextM := 4 }
  | 1 => { enabled := true, period := 1000, reads := [1], cycleAt := some 8000000, nextM := 7 }
  | 2 => { enabled := true, period := 1000, reads := [1], writes := [1, 2], slots := [(1, (8, 0xC0)), (2, (8, 0xC0))], nextM := 7,
           cycleAt := some 7000000, started := true, skipped := 1, escalate := 1 }
  | 3 => { enabled := true, period := 1000, writes := [2], slots := [(2, (8, 0xC0))], nextM := 7, cycleAt := some 6000000, started := true,
           held := some 3, startLate := 9000 }
  | 4 => { enabled := true, period := 2, nextM := 4, cycleAt := some 7000000, started := true }
  | 5 => { enabled := true, period := 2, nextM := 4, cycleAt := some 7000000, started := true, held := some 3 }
  | _ => { enabled := true, period := 0, nextM := 7, cycleAt := some 6000000, started := true }

/-- SOLO at this level with one of these tasks, and others whose next instants lie ahead. -/
def wTask (n : Nat) (mode : Mode) (level : Nat) : State :=
  { wRun with
    sys := { wRun.sys with mode := mode, level := level, pll := true }
    start := { header := some { headerOf 0 with flags := 6 }, accepted := true }
    mono := 9000000
    mem := { banks := { owner := .cpu } :: List.replicate 15 { owner := .ring } }
    sig := { entries := [(1, { value := 5, quality := 0xC0 }), (2, { value := 6, quality := 0xC0, initial := 8 })] }
    cyc :=
      { tasks := (List.replicate 7 ({ enabled := true, period := 1000, nextM := 4 } : Task)).set n (theTask n)
        natives := [{ typ := 1, windows := 0, write := 0, banks := 3 }]
        forceSel := 1, forceVal := 77, epoch := some 1000000 } }

/-- The same with task 1. -/
def wCyc (mode : Mode) (level : Nat) : State := wTask 1 mode level

/-- The same with a higher task's cycle in progress too. -/
def wCycBoth : State :=
  let s := wCyc .run 0
  { s with cyc := { s.cyc with tasks := s.cyc.tasks.modify 0 fun t => { t with cycleAt := some 3000000 } } }

/-- The same with no cycle in progress. -/
def wCycIdle (mode : Mode) : State :=
  let s := wCyc mode 0
  { s with cyc := { s.cyc with tasks := [{ enabled := true, period := 1000, nextM := 4 }] } }

/-- A mode request of this code is pending. -/
def wReq (mode : Mode) (code : Nat) : State :=
  let s := wCyc mode 0
  { s with cyc := { s.cyc with pendingReq := some { code := code, sdk := true, byPair := false } } }

/-- Force operations wait, and the table holds these forces. -/
def wForce (ops : List (Nat × ForceOp)) (forces : List (Nat × Force)) : State :=
  let s := wCyc .run 0
  { s with cyc := { s.cyc with forceOps := ops, forces := forces } }
/-- A set whose load failed, no boundary entry selected, no key, no rails, and a release that is skipped with the active. -/
def wConfigError : State := let s := wCyc .stop 0; { s with cyc := { s.cyc with configError := true } }
def wNoneSelected : State := let s := wCyc .run 0; { s with cyc := { s.cyc with forceSel := 0 } }
def wNoKey : State := { wCyc .run 0 with start := {} }
def wRailsOff : State := { wCyc .run 0 with pwr := { wRun.pwr with railsOff := true } }
def wSkipNext : State := { wTask 0 .run 0 with hoist := { skipNext := [(0, 4)] } }
def wNotDue : State :=
  let s := wReq .run 2
  { s with cyc := { s.cyc with pendingReq := some { code := 2, sdk := true, byPair := false, due := 9000001 } } }

def wHoldOff : State :=
  let s := wReq .run 3
  { s with start := { s.start with header := some { headerOf 0 with flags := 4 } } }

/-- A force that set 5 aside, a request, and what a write point posts. -/
def aForce : Force := { value := 77, aside := (5, 0xC0) }
def modeReqOf (code : Nat) : ModeReq := { code := code, sdk := true, byPair := false }
def laterReq : ModeReq := { code := 2, sdk := true, byPair := false, due := 9000001 }
def writePointOf (n : Nat) : WritePoint :=
  { task := n, slots := [(1, (42, 0xC0)), (2, (43, 0xC0)), (3, (44, 0xC0))], stores := [], keyOk := true }

/-- A store in a cycle of task 2, and states in which it, or the freeze of task 1, meets a word that cannot be corrected. -/
def storePoint : WritePoint := { writePointOf 2 with stores := [(9, 0, [1])] }
def wStoring (bad : Bool) : State :=
  let s := wTask 2 .run 0
  let s := { s with
    mem := { s.mem with banks := { owner := .cpu, use := .data } :: s.mem.banks.drop 1 }
    cyc := { s.cyc with instances := [{ id := 9, typ := 0, version := 0, data := [0] }] } }
  if bad then { s with mem := { s.mem with found := [{ bank := 0, row := 0, word := 0 }] } } else s
def wFreezeBad : State :=
  let s := wCyc .run 0
  { s with mem := { s.mem with found := [placeOf s (sigTableAt + 32)] } }


/-- What a start finds: clocks that lock or not, a code test that passes or not, and this key in the socket. -/
def startIn (locked coder : Bool) (key : Option Key) : StartIn :=
  { key := key, locked := locked, domainLost := false, curve := none, indexBad := false, coder := coder, rowFails := [], readFails := [],
    removed := false }

/-- A module that stopped with things a start clears. -/
def wRestart (mode : Mode) : State :=
  let s := wCyc mode 0
  { s with mem := { cells := [(4, 1)] }, key := { present := true, capacityMB := 32 }, log := { power := 3 } }

/-- In harbour watch, these wake sources wait. -/
def wWake (lost : Bool) (l : List WakeSource) : State :=
  { wRun with
    sys := { mode := .harbour, role := .none }
    log := { accepting := true, power := 7 }
    pwr := { wRun.pwr with hbr := .asleep, retentionLost := lost, wakeWait := l } }

/-- A start in its link wait with a key of this kind and these flags. -/
def wLinkWait (kind flags : Nat) : State :=
  { wRun with
    sys := { mode := .starting, role := .none }
    log := { accepting := true }
    start := { phase := .linkWait, keyRead := true, header := some { headerOf kind with flags := flags }, accepted := true }
    key := { present := true }
    mono := 500 }

/-- A listening start that heard these pennants. -/
def wListen (l : List Pennant) : State :=
  { wLinkWait 1 0 with
    start := { (wLinkWait 1 0).start with phase := .listening, heard := l }
    pair := { side := 1, epoch := 4, st := .listen } }

/-- An active's pennant. -/
def activeHeard : Pennant := { thePennant with role := 2, epoch := 9 }

/-- A running module whose key has a bad directory copy. -/
def wBadCopy : State :=
  { wRun with
    log := { accepting := true }
    key := { present := true }
    start := { header := some (headerOf 0), accepted := true, bad := [{ typ := 0, inst := 0, copy := 1 }] } }
/-- Another set's active, the key out already, and a carrier of 8 Mbyte. -/
def otherActive : Pennant := { activeHeard with gen := 7 }
def wBadCopyOut : State := { wBadCopy with start := { wBadCopy.start with keyOut := true } }
def wOutAlready : State := { wRestart .stop with start := { keyOut := true } }
def heardT0 : Pennant := { activeHeard with nextT0 := 700000000 }
def smallKey : Key := { present := true, capacityMB := 8 }
def badDirectory : BadCopy := { typ := 0, inst := 0, copy := 1 }
def theRepair : Nat × List Byte := (repairOf wBadCopy badDirectory).getD (0, [])


/-- A session in this state with these permissions. -/
def sess (st perms : Nat) (chans : List Nat) : Session := { st := st, perms := perms, chans := chans }

/-- The plant port up with these sessions and an accepted key. -/
def wPlant (role : Role) (l : List Session) : State :=
  { wRun with
    sys := { mode := .run, role := role, linkP4 := true }
    start := { header := some { headerOf 0 with keyId := 0xA1 }, accepted := true }
    key := { present := true }
    log := { accepting := true }
    plant := { enabled := true, vid := 7, sessions := l }
    sec := { idX := 5, idY := 6 }
    que := { queues := { user := userPlant, unit := 0, role := 1, depth := 4 } :: { user := userPlant, unit := 0, role := 0, depth := 4 } ::
               List.replicate 62 ({} : Queue)
             held := [desc 0 1 .pending] }
    mono := 9000000 }

/-- All permissions on session 0, none on 1, a handshake on 2, 3 closed. -/
def someSessions : List Session := [sess 2 15 [0], sess 2 0 [], sess 1 0 [], {}]

/-- A request that is formed or not. -/
def plantReq (session : Nat) (formed : Bool) : PlantReq := { session := session, number := 3, us := 40, formed := formed }

/-- A client without a working handshake. -/
def aClient : ClientCert := { tls := false, signed := [], sigR := 0, sigS := 0, keyX := 0, keyY := 0, inTime := true }

/-- A locked module with a session of every permission. -/
def wLocked (standing : Bool) : State :=
  { wPlant .solo someSessions with
    sec := { locked := true, responses := List.replicate 5 .lock, standing := [false, false, standing, false, false], hasKey := false } }
/-- Four open sessions, one opened without a key, no carrier, no private half, and the port without its rails' sources. -/
def wFull : State := wPlant .solo (List.replicate 4 (sess 2 15 []))
def wKeyless : State :=
  { wPlant .solo someSessions with
    start := {}, plant := { (wPlant .solo someSessions).plant with sessions := [{ sess 2 0 [] with noKey := true }, {}, {}, {}] } }
def wNoCarrier : State := { wPlant .solo someSessions with key := {} }
def wNoPrivate : State := { wPlant .solo someSessions with sec := { hasKey := false } }
def wFullDark : State := { wFull with pwr := {} }
/-- The same sessions after 120 s of silence. -/
def wIdleSessions : State := { wPlant .solo someSessions with mono := 120000000000 }
def tlsClient : ClientCert := { aClient with tls := true }

/-- A piece of the inactive set. -/
def aPiece : OlcPiece := { part := .data 512 [1, 2, 3], last := false, fails := [], keyOk := true }


/-- A SOLO module with an online change in this phase, and a session that may change it. -/
def wOlc (phase : OlcPhase) : State :=
  { wPlant .solo someSessions with
    cyc := { tasks := [{ enabled := true, period := 1000, nextM := 12 }], epoch := some 1000000 }
    olc := { phase := phase, session := some 0, preparedAt := 8000000, switchAt := if phase = .announced then some 9000000 else none } }

/-- The same with a cycle released before the announced instant. -/
def wOlcAcross : State :=
  { wOlc .announced with cyc := { tasks := [{ enabled := true, period := 1000, nextM := 12, cycleAt := some 8000000 }], epoch := some 1000000 } }

/-- A standby that receives a change. -/
def wOlcReceives : State := { wOlc .receiving with sys := { mode := .run, role := .standby } }

/-- A standby without a change. -/
def wOlcStandby : State := { wOlc .idle with sys := { mode := .run, role := .standby } }

/-- A confirmation whose header write has failed this often. -/
def wConfirm (n : Nat) : State := { wOlc .confirming with olc := { phase := .confirming, retries := n } }

/-- 60 s after preparation, locked, in a power-down, and in HOLD. -/
def wOlcLate : State := { wOlc .announced with mono := 70000000000 }
def wOlcLocked : State := { wOlc .idle with sec := { locked := true } }
def wOlcDown : State := { wOlc .idle with pwr := { powerDown := true } }
def wOlcHold : State := { wOlc .idle with sys := { mode := .hold, role := .solo } }
def wOlcNoKey : State := { wOlc .idle with key := {} }


/-- Line 1 a master with a read item and this attempt, line 2 a slave with a writable and a readable item. -/
def wSerial (tx : Option SerTx) : State :=
  { wRun with
    mono := 200000000
    ser :=
      { lines :=
          [{ role := 1, failLimit := 3, force := { retries := 1 }, tx := tx, failRun := [(4, 1)], failed := 0x10
             trans := [{ item := 4, function := 3, slave := 9, onChange := false, address := 16, count := 1, waddress := 0, wcount := 0,
                         periodMs := 0, timeoutMs := 50 }] },
           { role := 2, slaveAddr := 17, failLimit := 3, writeTimeoutMs := 100
             maps := [{ item := 1, table := 3, writable := true, address := 0, count := 2 },
                      { item := 2, table := 2, writable := false, address := 0, count := 2 }] }] } }

/-- An attempt of item 4. -/
def serTx (attempt : Nat) : SerTx := { item := 4, handle := none, slave := 9, function := 3, attempt := attempt, at_ := 8000000 }

/-- The same 1 ms after the attempt, and with a broadcast. -/
def wSerialEarly : State := { wSerial (some (serTx 1)) with mono := 9000000 }
def wBroadcast : State :=
  let s := wSerial none
  { s with ser := { s.ser with lines := s.ser.lines.map fun l => { l with trans := l.trans.map fun t => { t with slave := 0 } } } }

/-- A frame on a line. -/
def serFrameOf (ok : Bool) (addr : Nat) (pdu : List Byte) : SerFrame := { crcOk := ok, addr := addr, pdu := pdu }
/-- The items of the two lines. -/
def slaveItem (table : Nat) (writable : Bool) : SerMap :=
  { item := if writable then 1 else 2, table := table, writable := writable, address := 0, count := 2 }
def masterItem : SerTrans :=
  { item := 4, function := 3, slave := 9, onChange := false, address := 16, count := 1, waddress := 0, wcount := 0, periodMs := 0, timeoutMs := 50 }


/-- Every block with its shadows changed, and with or without a pending set that holds other values. -/
def wCommit (pending good : Bool) : State :=
  let c : Commit := { gen := 7, pending := pending, err := pending }
  let s := wLoops .stop
  let nbt := if good then 0x00D38993 else 0
  { s with
    pwr := { s.pwr with commit := c, shadow := { policy := 3 }, copied := { policy := 2 } }
    mem := { s.mem with commit := c, shadow := 90, copied := 120 }
    cyc := { s.cyc with commit := c, escShadow := [1, 2, 0, 0, 0, 0, 0, 0], escCopied := [3, 4, 0, 0, 0, 0, 0, 0] }
    sig := { s.sig with commit := c, shadow := { sel := 2, subst := 9 }, copied := { sel := 1, subst := 8 } }
    eng := { s.eng with
      commit := c
      loops := s.eng.loops.map fun p =>
        (p.1, { p.2 with shadow := { p.2.shadow with outMax := 5 }, dirty := true
                         copied := if pending then some { p.2.force with outMax := 4 } else none }) }
    ring := { s.ring with commit := c, shadow := { station := 2 }, copied := { station := 1 } }
    time := { s.time with commit := c, pulses := s.time.pulses.map fun p => { p with shadow := { width := 5 }, copied := { width := 4 } } }
    can := s.can.map fun p => { p with
      commit := c
      shadow := { p.shadow with dbt := 1 }
      copied := { nbt := nbt, dbt := 0x01260909, xbt := 0x01260909, fdtdc := 0x80500000, xltdc := 0x80500000 } }
    que := { s.que with commit := c, shadow := { queue := 3, user := 2, depth := 1 }, copied := { queue := 2, user := 2, depth := 1 } }
    rtc := { s.rtc with commit := c, shadow := { s.rtc.shadow with filter := 9 }, copied := { s.rtc.shadow with filter := 8 } }
    ser := { s.ser with lines := s.ser.lines.map fun l =>
      { l with commit := c, shadow := { baud := 3 }, copied := { baud := if good then 2 else 15 } } } }

/-- The plant port and a native block that own every window, beside entries 1 (PROGRAM), 2 and 3. -/
def wRegs : State :=
  { wPlant .solo someSessions with
    plant := { (wPlant .solo someSessions).plant with windows := 0xFFFFF }
    cyc :=
      { natives := [{ typ := 1, windows := 0x3F, write := 0x10, banks := 0 }, { typ := 2, windows := 0, write := 0, banks := 0 }]
        flags := 0x1F }
    mem := { flags := 7 }
    sig := { entries := [(1, { kind := 12, value := 4, quality := 0xC0 }), (2, { value := 5 }), (3, { kind := 12, forced := true })], flags := 0x0F
             sdk := { wrValue := 66 }, plant := { wrValue := 77 } } }
/-- The same in RUN after its epoch, and the port without windows. -/
def wCommitRun : State :=
  { wCommit false true with sys := { mode := .run }, cyc := { (wCommit false true).cyc with epoch := some 0 } }
/-- Pending sets whose instant, a whole millisecond, is still to come. -/
def wCommitEarly : State :=
  let s := wCommit true true
  { s with mono := 500, cyc := { s.cyc with epoch := none } }
def wNoWindows : State := { wRegs with plant := { wRegs.plant with windows := 0 } }

/-- An access of half a word, one that is not aligned, and an aligned word. -/
def halfAccess : RegAt := { addr := 0x2008, word := false }
def oddAccess : RegAt := { addr := 0x2009, word := true }

/-- The state a command answers, or the state before it where it stops. -/
def after (i : Instr) (s : State) : State :=
  match exec i s with
  | .next t => t
  | _ => s

/-! ### What WellFormed refuses, one term for each check -/

theorem test_wf_refuses_0 : (([
    .dioDebounce 32 false, .dioShort 32 false, .dioRetry 32, .dioRetryCheck 32 false, .dioExtFeed 32, .dioPartnerLow 32,
    .dioRefreshTimeout 32, .anaConversion 16 0, .anaInputFault 16 .overRange false, .anaLoopLimit 16 false,
    .anaOutputDiag 16 .openLoop false, .cjcRead 4 0, .anaRefreshTimeout 16, .hartPoll 16 1, .hartPoll 1 15,
    .hartResponse 16 aHartReply, .hartResponse 1 { aHartReply with code := 65536 }, .hartResponseTimeout 16,
    .hartBurst 16 1 aHartReply, .hartBurst 1 15 aHartReply, .hartBurst 1 1 { aHartReply with code := 65536 },
    .hartBurstAbsent 16 1, .hartBurstAbsent 1 15, .canFrameReceived 5 (canRx 0 1 []), .canFrameReceived 0 (canRx 0 1 []),
    .canArbitration 5 [] false, .canArbitration 0 [] false, .canTxDone 5 .sent 1, .canTxDone 0 .sent 1,
    .canErrorFrame 5 (canErr 1 1), .canErrorFrame 0 (canErr 1 1), .canRecover 5, .canRecover 0, .canRecovered 5, .canRecovered 0,
    .canIntegrated 5, .canIntegrated 0, .canEntryExpired 2048, .canReferenceSend 5, .canReferenceSend 0, .canMasterListenEnd 5,
    .canMasterListenEnd 0, .canRefLost 5, .canRefLost 0, .bookWindowStart 5 1] : List Instr).any Instr.wf) = false := by
  decide +kernel

theorem test_wf_refuses_1 : (([
    .bookWindowStart 0 1, .bookWindowStart 1 32, .bookWindowEnd 5 1, .bookWindowEnd 0 1, .bookWindowEnd 1 32,
    .eventBlock 0 4 0 0 0, .memoryAccess { acrossWords false with size := 9 },
    .memoryAccess { acrossWords false with size := 0 }, .linkUp 5 1, .linkUp 0 1, .linkUp 1 4, .linkUp 1 0, .linkLost 5,
    .linkLost 0, .hello { aRx true with port := 3 } [], .hello { aRx true with port := 0 } [], .admitTimeout 128, .admitTimeout 0,
    .admitSeen { aRx true with port := 3 } 1 [], .admitSeen { aRx true with port := 0 } 1 [],
    .admitSeen (aRx true) 281474976710656 [], .outputSeen { aRx true with port := 3 } [],
    .outputSeen { aRx true with port := 0 } [], .input { aRx true with port := 3 } [] [],
    .input { aRx true with port := 0 } [] [], .ptpPdelayReq 5 1, .ptpPdelayReq 0 1, .ptpPdelayReq 1 65536, .pulseInstant 4,
    .pulseEnd 4, .timedLaunch 8 false, .ptpDelayReq 5 1 1, .ptpDelayReq 0 1 1, .ptpDelayReq 1 256 1, .ptpDelayReq 1 1 65536,
    .groupTick { aTick 0 0 with group := 8 }, .siFilter .chip 8 false, .testPulseDrop 2 ⟨0, 0⟩, .tpOverload 2, .tpOverloadRetry 2,
    .sbcStaticTest 2 backPass, .sbcHoldPhase 2, .sbcOpenLoad 2] : List Instr).any Instr.wf) = false := by
  decide +kernel

theorem test_wf_refuses_2 : (([
    .sbcDarkTest 2 false false, .sbcOverload 2, .sbcOffCheck 2, .brakeTestStart 2, .brakeTestAbort 2, .torqueAllowed 2,
    .brakeTestTimeout 2, .brakeTestDue 2, .fieldSupplyLow 5, .fieldSupplyLost 5, .fieldSupplyNormal 5, .fieldSupplyQualifying 5,
    .qualifyingRestart 5, .fieldSupplyReturned 5, .fieldSupplyOver 5, .tamperConditionEnd 5,
    .jackAnswer { aRx true with port := 3 } [], .jackAnswer { aRx true with port := 0 } [],
    .jackProbe { aRx true with port := 3 } [], .jackProbe { aRx true with port := 0 } [],
    .jackNotifyAck { aRx true with port := 3 } [], .jackNotifyAck { aRx true with port := 0 } [],
    .jackQuery { aRx true with port := 3 } [], .jackQuery { aRx true with port := 0 } [],
    .jackProbeReply { aRx true with port := 3 } [], .jackProbeReply { aRx true with port := 0 } [], .jackProbeTimeout 32,
    .jackNotify { aRx true with port := 3 } [], .jackNotify { aRx true with port := 0 } [], .releaseInstant 8, .taskStart 8,
    .taskWritePoint { writePointOf 0 with task := 8 }, .trap 8, .backstop 8, .watchdog 8, .modeReqUndefined 16 .sdk,
    .sdkBufMap 1 16 1 1, .sdkBufMap 1 1 1024 1, .arpRequest 4096 1 1 1, .arpRequest 1 281474976710656 1 1,
    .arpRequest 1 1 4294967296 1, .arpRequest 1 1 1 4294967296, .icmpEcho 4096 1 [], .icmpEcho 1 4294967296 [],
    .plantConnect { ip := 4294967296 }, .plantConnect { ip := 1, mac := 281474976710656 }, .plantConnect { ip := 1, vid := 4096 }] : List Instr).any Instr.wf) = false := by
  decide +kernel

theorem test_wf_refuses_3 : (([
    .plantHandshake 4 aClient, .plantIdleTimeout 4, .plantSessionClose 4, .plantUnknownService 256 (plantReq 0 true),
    .plantUnknownService 1 { plantReq 0 true with session := 4 }, .plantUnknownService 1 { plantReq 0 true with number := 65536 },
    .logBulk { plantReq 0 true with session := 4 } 1 1, .logBulk { plantReq 0 true with number := 65536 } 1 1,
    .dictionary { plantReq 0 true with session := 4 } 1 1, .dictionary { plantReq 0 true with number := 65536 } 1 1,
    .keyRead { plantReq 0 true with session := 4 } 1 1 1, .keyRead { plantReq 0 true with number := 65536 } 1 1 1,
    .keyRead (plantReq 0 true) 2 1 1, .enrol { plantReq 0 true with session := 4 } [],
    .enrol { plantReq 0 true with number := 65536 } [], .identityGetRequest { plantReq 0 true with session := 4 },
    .identityGetRequest { plantReq 0 true with number := 65536 }, .identityInstall { plantReq 0 true with session := 4 } [] (1, 1),
    .identityInstall { plantReq 0 true with number := 65536 } [] (1, 1), .reauthorise { plantReq 0 true with session := 4 },
    .reauthorise { plantReq 0 true with number := 65536 }, .messageOpen { plantReq 0 true with session := 4 } 1,
    .messageOpen { plantReq 0 true with number := 65536 } 1, .messageOpen (plantReq 0 true) 4,
    .messageClose { plantReq 0 true with session := 4 } 1, .messageClose { plantReq 0 true with number := 65536 } 1,
    .messageClose (plantReq 0 true) 4, .messageSend { plantReq 0 true with session := 4 } 1 1 [],
    .messageSend { plantReq 0 true with number := 65536 } 1 1 [], .messageSend (plantReq 0 true) 4 1 [],
    .messageSend (plantReq 0 true) 1 65536 [], .messageDeliver 4, .olcPiece { plantReq 0 true with session := 4 } aPiece,
    .olcPiece { plantReq 0 true with number := 65536 } aPiece, .serialTransaction 3, .serialTransaction 0,
    .serialReply 3 (serFrameOf true 9 [3]), .serialReply 0 (serFrameOf true 9 [3]),
    .serialReply 1 { serFrameOf true 9 [3] with addr := 256 }, .serialTimeout 3, .serialTimeout 0,
    .serialRequest 3 (serFrameOf true 9 [3]), .serialRequest 0 (serFrameOf true 9 [3]),
    .serialRequest 1 { serFrameOf true 9 [3] with addr := 256 }, .serialWriteTimeout 3 1] : List Instr).any Instr.wf) = false := by
  decide +kernel

theorem test_wf_refuses_4 : (([
    .serialWriteTimeout 0 1, .serialWriteTimeout 1 64, .commitWrite (.can 0) 0, .commitWrite (.can 5) 0, .commitWrite (.ser 3) 0,
    .commitBoundary (.can 0), .commitBoundary (.can 5), .commitBoundary (.ser 3),
    .registerWrite .sdk { oddAccess with addr := 65536 } 0 (startIn true true none),
    .sdkRegRead 1 { oddAccess with addr := 65536 }, .sdkRegWrite 1 { oddAccess with addr := 65536 } 0 (startIn true true none),
    .identify { plantReq 0 true with session := 4 }, .identify { plantReq 0 true with number := 65536 },
    .regRead { plantReq 0 true with session := 4 } oddAccess 1, .regRead { plantReq 0 true with number := 65536 } oddAccess 1,
    .regRead (plantReq 0 true) { oddAccess with addr := 65536 } 1,
    .regWrite { plantReq 0 true with session := 4 } [] (startIn true true none),
    .regWrite { plantReq 0 true with number := 65536 } [] (startIn true true none),
    .canFrameReceived 1 (canRx 0 1 (List.replicate 2049 0)), .memoryAccess { acrossWords true with size := 0 },
    .memoryAccess { acrossWords true with size := 9 }, .memoryAccess { acrossWords true with data := [] }, .scrubWord [80],
    .canArbitration 1 [2048] false, .ringForward { aForward none 1 true with x := { aRx true with port := 3 } },
    .hello { aRx true with src := 281474976710656 } [], .hello { aRx true with hsr := some 65536 } [],
    .input (aRx true) [] [(0, 80)], .jackAnswer { aRx true with port := 5 } [], .ptpSync { aSync with port := 3 },
    .ptpFollowUp { aSync with port := 3 }, .ptpAnnounce { announceOf .follow 1 with port := 3 },
    .ptpDelayResp { aDelay with port := 3 }, .fieldSupplySample { aSample with lplus := [] }, .trap 254,
    .taskWritePoint { writePointOf 0 with slots := [(4096, (0, 0))] }, .serialReply 1 (serFrameOf true 9 []),
    .serialRequest 1 (serFrameOf true 9 []), .serialReply 1 (serFrameOf true 9 (List.replicate 254 0)),
    .serialRequest 1 (serFrameOf true 9 (List.replicate 254 0)),
    .regWrite (plantReq 0 true) [{ reg := { addr := 65536, word := true }, value := 0 }] (startIn true true none)] : List Instr).any Instr.wf) = false := by
  decide +kernel

theorem test_wf_takes : (([.dioDebounce 31 true, .canRecover 4, .releaseInstant 7, .jackProbeTimeout 31, .serialTimeout 2, .commitWrite (.ser 2) 1,
    .memoryAccess (acrossWords true), .scrubWord [79], .keyOut, .taskWritePoint (writePointOf 2)] : List Instr).all Instr.wf) = true := by
  decide

/-! ### Worked examples of the spec, one step each -/

/-- The CAN3_COMMIT of R10's example, with GENERATION 17 and a port 3 that is on the bus. -/
def wCan3 (c : Commit) : State := { wCan with can := [{}, {}, { busPort with commit := c }, {}] }

/-- 00_scope.md, the example to R10: the first write is accepted, the second refused, and the boundary puts the set in force. -/
theorem test_commit_accepted : (commitOf (after (.commitWrite (.can 3) 18) (wCan3 { gen := 17 })) (.can 3)).word = 0x40000012 := by
  decide +kernel
theorem test_commit_refused :
    (commitOf (after (.commitWrite (.can 3) 19) (wCan3 { gen := 18, pending := true })) (.can 3)).word = 0xC0000012 := by decide +kernel
theorem test_commit_boundary :
    (commitOf (after (.commitBoundary (.can 3)) (wCan3 { gen := 18, pending := true, err := true })) (.can 3)).word = 0x80000012 := by
  decide +kernel

/-- 02_burgee_and_start.md R40: the check value of the CRC-32C over "123456789". -/
theorem test_crc : crc32c [0x31, 0x32, 0x33, 0x34, 0x35, 0x36, 0x37, 0x38, 0x39] = 0xE3069283 := by decide +kernel

/-- 13_can_ports.md, the example to R329 and R330: CAN2_NBT, CAN2_DBT and CAN2_FDTDC at 500 kbit/s and 2 Mbit/s. -/
theorem test_can_timing :
    nbtFields 0x00D38993 = (4, 79, 20, 20) ∧ nbtOk 0x00D38993 = true ∧ dbtFields 0x01260909 = (2, 39, 10, 10) ∧
      dataOk 0x00D38993 0x01260909 0x80500000 25 = true := by decide +kernel

/-- The ballast section of 04_memory.md: the scrubber stands at word 12 of row 418 of B6. -/
def wScrub : State := { wMem [] with mem := { posBank := 6, posWord := 418 * 64 + 12 } }

/-- 04_memory.md, the example to R105: MEM_LAST_CE_LOC and MEM_LAST_CE_BITS of a corrected bit 37. -/
theorem test_scrub_corrects :
    readWord .plant 0x1018 (after (.scrubWord [37]) wScrub) = 0x33446080 ∧
      readWord .plant 0x101C (after (.scrubWord [37]) wScrub) = packFields [(16, 2, 1), (8, 7, 0x7F), (0, 7, 37)] := by decide +kernel

/-- 22_wear_and_replacement.md, the example to R534: PWR_HOLDUP and PWR_RESERVE of a worn store that is full. -/
def wStoreWorn : State := { wRun with pwr := { wRun.pwr with esrFactory := 60 } }
theorem test_holdup_measured :
    readWord .plant 0x0810 (after (.holdupMeasure 130 118) wStoreWorn) = 0x00820076 ∧
      (after (.holdupMeasure 130 118) wStoreWorn).pwr.holdupMs = 51 := by decide +kernel
theorem test_holdup_energy :
    readWord .plant 0x0814 (after (.holdupEnergyUpdate 48000) { wStoreWorn with pwr := { wStoreWorn.pwr with cap := 118, holdupMs := 51 } })
      = 0x03FB0033 := by decide +kernel

/-- 20_status_panel.md, the example to R508: 38 frames need 471.4 mJ. -/
theorem test_panel_needs : panelNeeds [38] = 4714 := by decide

/-- 08_compensator_engine.md, the worked example: LOOP_X_S1_B0, B1, A1 and EXP of the integrator. -/
theorem test_loop_coefficients :
    let l : Loop := { shadow := { secs := [{}, { ec := 1, ceil := 2, b := [1761608, -1677722, 0, 0], a := [-4194304, 0, 0] }] } }
    loopXRead l 0x2C60 = 0x0201 ∧ loopXRead l 0x2C64 = 0x001AE148 ∧ loopXRead l 0x2C68 = 0x00E66666 ∧ loopXRead l 0x2C74 = 0x00C00000 := by
  decide +kernel

/-- FIPS 180-4: the digest of "abc" begins BA7816BF. -/
theorem test_sha256 : (sha256 [0x61, 0x62, 0x63]).take 4 = [0xBA, 0x78, 0x16, 0xBF] := by decide +kernel

/-! ### Frames that pass their check -/

theorem pennant_ok (p : Pennant) : frameOk 64 (pennantBytes p) = true := frame_ok _ _ (by decide) (by simp)

/-- The blocks that have a commit register. -/
def theBlocks : List Block := [.pwr, .mem, .cyc, .sig, .loop, .ring, .time, .can 1, .can 4, .que, .rtc, .ser 1, .ser 2]

/-- Whether the port or line of a block is there. -/
def blockThere (s : State) : Block → Bool
  | .can p => decide (1 ≤ p ∧ p ≤ s.can.length)
  | .ser n => decide (1 ≤ n ∧ n ≤ s.ser.lines.length)
  | _ => true

/-- That is what the statement about commits asks of a block. -/
theorem blockThere_spec (s : State) (b : Block) (h : blockThere s b = true) :
    (∀ p, b = .can p → 1 ≤ p ∧ p ≤ s.can.length) ∧ (∀ n, b = .ser n → 1 ≤ n ∧ n ≤ s.ser.lines.length) := by
  constructor
  · rintro p rfl; exact of_decide_eq_true h
  · rintro p rfl; exact of_decide_eq_true h

/-- Where the panel's flash holds no sequence, a pass has no frame. -/
theorem pass_of_no_wave (f : PanelFlash) (band : Nat) (p : Pass) (h : f.wave = []) : f.passLength band p = 0 := by
  have one : ∀ i, f.pixel band p i = [] := fun i => by
    have drop : ∀ k, dropDriving k [] = [] := fun k => by cases k <;> rfl
    simp [PanelFlash.pixel, PanelFlash.sequence, trimmed, h, repeatDriving, drop]
  have all : ∀ n, maxBelow (fun _ => 0) n = 0 := fun n => by
    induction n with
    | zero => rfl
    | succ n ih => simp [maxBelow, ih]
  simp [PanelFlash.passLength, one, all]

/-- The recovery pass of such a panel. -/
theorem panel_without_wave (mJ : Nat) : (updateFor (wPanel none mJ)).lengths = [0] := by
  have h : (updateFor (wPanel none mJ)).lengths = [(wPanel none mJ).panel.flash.passLength 3 clearPass] := rfl
  rw [h, pass_of_no_wave _ _ _ rfl]

/-- A retired slot is taken. -/
theorem taken_of_retired (l : Log) (m : Nat) (h : m ∈ l.retired) : slotTaken l m = true := by
  unfold slotTaken
  simp [h]

/-- All slots are taken, so the record goes to none that is empty. -/
theorem slotsFull_taken (sev : Severity) (m : Nat) (h : m < 65536) : slotTaken (wSlotsFull sev).log m = true :=
  taken_of_retired (wSlotsFull sev).log m (show m ∈ allSlots by unfold allSlots; exact List.mem_range.2 h)

/-- A command answers a next state, seen by running it. -/
theorem answered (i : Instr) (s : State) (h : (match exec i s with | .next _ => true | _ => false) = true) : ∃ t, exec i s = .next t := by
  split at h
  · exact ⟨_, by assumption⟩
  · cases h


/-! ### Premises that are met -/

theorem witness_DigitalLevelsFollow :
    (4 < wOutputs.dio.ch.length ∧ (dioCh wOutputs 4).mode.isInput = true) ∧
    (0 < State.reset.dio.ch.length ∧ (dioCh State.reset 0).mode.isInput = false) :=
  by and_intros <;> decide +kernel

theorem witness_ShortEntersShortWait :
    (0 < wOutputs.dio.ch.length ∧ dioRuns370 wOutputs (dioCh wOutputs 0) = true ∧ (dioCh wOutputs 0).ostate = OState.normal ∧
      (dioCh wOutputs 0).stage = true ∧ (dioCh wOutputs 0).stood 2 wOutputs = true) ∧
    (0 < wOutputs.dio.ch.length ∧ dioRuns370 wOutputs (dioCh wOutputs 0) = true ∧ (dioCh wOutputs 0).ostate = OState.normal ∧
      (dioCh wOutputs 0).stage = true ∧ (dioCh wOutputs 0).stood 2 wOutputs = true ∧ NoDioSink wOutputs) :=
  by unfold NoDioSink; and_intros <;> decide +kernel

theorem witness_RetriesOfAShortedOutput :
    (NoDioSink wOutputs ∧ 1 < wOutputs.dio.ch.length ∧ dioRuns370 wOutputs (dioCh wOutputs 1) = true ∧
      (dioCh wOutputs 1).ostate = OState.shortWait ∧ (dioCh wOutputs 1).stood 100 wOutputs = true ∧ dioWants wOutputs 1 = true ∧
      (dioCh wOutputs 1).retries < 10 ∧ (fieldGroup wOutputs (1 / 8 : ℕ)).st.off = false ∧
      ((dioCh wOutputs 1).mode = DioMode.timedPulse → pulsesRun wOutputs = true)) ∧
    (NoDioSink wOutputs ∧ 2 < wOutputs.dio.ch.length ∧ (dioCh wOutputs 2).ostate = OState.retry ∧
      (dioCh wOutputs 2).stood 2 wOutputs = true ∧ dioWants wOutputs 2 = true ∧ (fieldGroup wOutputs (2 / 8 : ℕ)).st.off = false) ∧
    (NoDioSink wOutputs ∧ 2 < wOutputs.dio.ch.length ∧ (dioCh wOutputs 2).ostate = OState.retry ∧
      (dioCh wOutputs 2).stood 2 wOutputs = true ∧ dioWants wOutputs 2 = true ∧ (fieldGroup wOutputs (2 / 8 : ℕ)).st.off = false ∧
      (dioCh wOutputs 2).retries < 10) ∧
    (NoDioSink wOutputs ∧ 3 < wOutputs.dio.ch.length ∧ (dioCh wOutputs 3).ostate = OState.retry ∧
      (dioCh wOutputs 3).stood 2 wOutputs = true ∧ dioWants wOutputs 3 = true ∧ (fieldGroup wOutputs (3 / 8 : ℕ)).st.off = false ∧
      10 ≤ (dioCh wOutputs 3).retries) :=
  by unfold NoDioSink; and_intros <;> decide +kernel

theorem witness_ForeignFeedsAreReported :
    (1 < wOutputs.dio.ch.length ∧ (dioCh wOutputs 1).stage = false ∧ dioTarget wOutputs 1 (dioCh wOutputs 1) = false ∧
      (dioCh wOutputs 1).stood 2 wOutputs = true ∧ extFeedReports wOutputs 1 = true ∧ BitVec.getLsbD (dioCh wOutputs 1).diag 2 = false) ∧
    (6 < wOutputs.dio.ch.length ∧ (dioCh wOutputs 6).stage = false ∧ dioTarget wOutputs 6 (dioCh wOutputs 6) = false ∧
      (dioCh wOutputs 6).stood 2 wOutputs = true ∧ extFeedReports wOutputs 6 = true ∧ BitVec.getLsbD (dioCh wOutputs 6).diag 2 = true) ∧
    (0 < wPairWired.dio.ch.length ∧ (dioCh wPairWired 0).mode = DioMode.pairWired ∧ pairCommanded wPairWired 0 = some true ∧
      BitVec.getLsbD (dioCh wPairWired 0).diag 7 = false) ∧
    (1 < wPairWired.dio.ch.length ∧ (dioCh wPairWired 1).mode = DioMode.pairWired ∧ pairCommanded wPairWired 1 = some true ∧
      BitVec.getLsbD (dioCh wPairWired 1).diag 7 = true) ∧
    (0 < wOutputs.dio.ch.length ∧ (dioCh wOutputs 0).mode.hasStage = true ∧
      refreshLate (wOutputs.dio.groups.getD (0 / 8 : ℕ) { : DioGroup }).refreshMs wOutputs = true ∧ (dioCh wOutputs 0).commanded = false) ∧
    (6 < wOutputs.dio.ch.length ∧ (dioCh wOutputs 6).mode.hasStage = true ∧
      refreshLate (wOutputs.dio.groups.getD (6 / 8 : ℕ) { : DioGroup }).refreshMs wOutputs = true ∧ (dioCh wOutputs 6).commanded = true) ∧
    (0 < State.reset.dio.ch.length ∧ State.reset.pwr.railsOff = false ∧ State.reset.sys.mode ≠ Mode.harbour) :=
  by and_intros <;> decide +kernel

theorem witness_ConversionsReachTheChannel :
    0 < State.reset.ana.groups.length ∧
    (0 < wAnas.ana.ch.length ∧ (anaCh wAnas 0).mode.isOutput = true) ∧
    (2 < wAnas.ana.ch.length ∧ (anaCh wAnas 2).mode.isInput = true ∧ (fieldGroup wAnas (2 / 4 : ℕ)).st.dead = false ∧
      0 < (anaCh wAnas 2).discard) ∧
    (3 < wAnaLoops.ana.ch.length ∧ (anaCh wAnaLoops 3).mode.isInput = true ∧ (fieldGroup wAnaLoops (3 / 4 : ℕ)).st.dead = false ∧
      (anaCh wAnaLoops 3).discard = 0 ∧ (anaCh wAnaLoops 3).mode = AnaMode.voltageIn) ∧
    (0 < wAnaMeasures.ana.ch.length ∧ (anaCh wAnaMeasures 0).mode.isInput = true ∧ (fieldGroup wAnaMeasures (0 / 4 : ℕ)).st.dead = false ∧
      (anaCh wAnaMeasures 0).discard = 0 ∧
      ((anaCh wAnaMeasures 0).mode = AnaMode.currentPassive ∨ (anaCh wAnaMeasures 0).mode = AnaMode.currentPowered ∨
      (anaCh wAnaMeasures 0).mode = AnaMode.currentPair ∨ (anaCh wAnaMeasures 0).mode = AnaMode.hartMultidrop)) ∧
    (1 < wAnaMeasures.ana.ch.length ∧ (anaCh wAnaMeasures 1).mode.isInput = true ∧ (fieldGroup wAnaMeasures (1 / 4 : ℕ)).st.dead = false ∧
      (anaCh wAnaMeasures 1).discard = 0 ∧ (anaCh wAnaMeasures 1).mode = AnaMode.resistance) ∧
    (3 < wAnas.ana.ch.length ∧ (anaCh wAnas 3).mode.isInput = true ∧ (fieldGroup wAnas (3 / 4 : ℕ)).st.dead = false ∧
      (anaCh wAnas 3).discard = 0 ∧ (anaCh wAnas 3).mode = AnaMode.rtd) :=
  by and_intros <;> decide +kernel

theorem witness_AnalogueFaultsStandAndStick :
    (0 < wAnas.ana.ch.length ∧ (anaCh wAnas 0).mode.isOutput = true ∧
      wAnas.dio.refreshAt + (wAnas.ana.groups.getD (0 / 4 : ℕ) { : AnaGroup }).refreshMs * 1000000 ≤ wAnas.mono ∧
      (anaCh wAnas 0).commanded = false) ∧
    (3 < wAnas.ana.ch.length ∧ faultApplies InFault.brokenWire (anaCh wAnas 3) = true ∧
      (anaCh wAnas 3).shows (wAnas.ana.groups.getD (3 / 4 : ℕ) { : AnaGroup }).cjc InFault.brokenWire ≠ some !true ∧
      (InFault.brokenWire = InFault.brokenWire ∨ (anaCh wAnas 3).standing.getLsbD 4 = false)) ∧
    (2 < wAnas.ana.ch.length ∧ faultApplies InFault.overRange (anaCh wAnas 2) = true ∧
      (anaCh wAnas 2).shows (wAnas.ana.groups.getD (2 / 4 : ℕ) { : AnaGroup }).cjc InFault.overRange ≠ some !false ∧
      (InFault.overRange = InFault.brokenWire ∨ (anaCh wAnas 2).standing.getLsbD 4 = false)) ∧
    (0 < wAnaLoops.ana.ch.length ∧ ((anaCh wAnaLoops 0).mode = AnaMode.currentPowered ∨ (anaCh wAnaLoops 0).mode = AnaMode.hartMultidrop) ∧
      (anaCh wAnaLoops 0).denies true = false) ∧
    (2 < wAnaMeasures.ana.ch.length ∧ (OutCond.openLoop = OutCond.openLoop ∧ 7 = 7 ∧
      (anaCh wAnaMeasures 2).mode = AnaMode.currentOut ∨ OutCond.openLoop = OutCond.compliance ∧ 7 = 6 ∧
      (anaCh wAnaMeasures 2).mode = AnaMode.currentOut ∧
      (true = true → (anaCh wAnaMeasures 2).standing.getLsbD 7 = false) ∨ OutCond.openLoop = OutCond.outShort ∧ 7 = 8 ∧
      (anaCh wAnaMeasures 2).mode = AnaMode.voltageOut) ∧ (anaCh wAnaMeasures 2).outShows OutCond.openLoop ≠ some !true) :=
  by and_intros <;> decide +kernel

theorem witness_ColdJunctionsAndSilence :
    (0 < State.reset.ana.groups.length ∧ (fieldGroup State.reset 0).st.dead = true) ∧
    (0 < wAnas.ana.groups.length ∧ (fieldGroup wAnas 0).st.dead = false) ∧
    (0 < wAnas.ana.ch.length ∧ (anaCh wAnas 0).mode.isOutput = true ∧
      refreshLate (wAnas.ana.groups.getD (0 / 4 : ℕ) { : AnaGroup }).refreshMs wAnas = true ∧ (anaCh wAnas 0).commanded = false) ∧
    (1 < wAnas.ana.ch.length ∧ (anaCh wAnas 1).mode.isOutput = true ∧
      refreshLate (wAnas.ana.groups.getD (1 / 4 : ℕ) { : AnaGroup }).refreshMs wAnas = true ∧ (anaCh wAnas 1).commanded = true) :=
  by and_intros <;> decide +kernel

theorem witness_HartTransactionsRun :
    (∃ d ∈ hartDev wHart 0 0, hartRuns wHart 0 = true ∧ 0 < wHart.ana.ch.length ∧ hartNext wHart d = true ∧ hartSuspended wHart 0 = false ∧
      look 0 wHart.ana.tx = none) ∧
    (∃ d ∈ hartDev wHart 1 0, hartRuns wHart 1 = true ∧ 1 < wHart.ana.ch.length ∧ ∃ x ∈ look 1 wHart.ana.tx, x.slot = 0 ∧ x.handle = none ∧
      x.cmd = 3 ∧ hartQueue wHart 1 = none) ∧
    (∃ d ∈ hartDev wHart 1 0, hartRuns wHart 1 = true ∧ 1 < wHart.ana.ch.length ∧ ∃ x ∈ look 1 wHart.ana.tx, x.slot = 0 ∧ x.handle = none ∧
      x.attempt < 3 ∧ x.at_ + 305000000 ≤ wHart.mono ∧ hartSuspended wHart 1 = false) ∧
    (∃ d ∈ hartDev wHart 0 0, hartRuns wHart 0 = true ∧ 0 < wHart.ana.ch.length ∧ d.burst = true ∧ hartQueue wHart 0 = none) ∧
    (∃ d ∈ hartDev wHart 0 0, hartRuns wHart 0 = true ∧ 0 < wHart.ana.ch.length ∧ d.burst = true ∧ d.absent = false ∧
      d.heardAt + 3 * d.burstMs * 1000000 ≤ wHart.mono ∧ (∀ p ∈ wHart.sig.entries, isHartEntry 0 0 p.2 = false)) :=
  by and_intros <;> decide +kernel

theorem witness_FramesAreReceived :
    (1 ≤ 1 ∧ 1 ≤ wCan.can.length ∧ (canPort wCan 1).st.onBus = true ∧
      (canRx 0 16 [(1 : Byte), (2 : Byte), (3 : Byte), (4 : Byte)]).frame.format % 4 = 0) ∧
    (1 ≤ 1 ∧ 1 ≤ wCanCalm.can.length ∧ (canPort wCanCalm 1).st.onBus = true ∧ (canRx 0 256 [(1 : Byte)]).reserved = false ∧
      formatEnabled (canPort wCanCalm 1) (canRx 0 256 [(1 : Byte)]).frame.format = true ∧
      isReference (canPort wCanCalm 1).book (takenFrame (canRx 0 256 [(1 : Byte)]).frame) = false ∧
      List.find? (defMatches (takenFrame (canRx 0 256 [(1 : Byte)]).frame)) (canPort wCanCalm 1).defs = none ∧
      List.find? (filterMatches (takenFrame (canRx 0 256 [(1 : Byte)]).frame)) (canPort wCanCalm 1).filters = some aFilter ∧
      canQueue wCanCalm 1 (4 + aFilter.set) = some 2 ∧ (canPort wCanCalm 1).st = CanState.errorActive ∧ (canPort wCanCalm 1).tec < 128 ∧
      reserveUsed wCanCalm 2 < (queueAt wCanCalm 2).depth ∧ assignWaits wCanCalm 2 = false ∧ (queueAt wCanCalm 2).disabled = false ∧
      (canPort wCanCalm 1).rxec ≤ 127) ∧
    (1 ≤ 1 ∧ 1 ≤ wCan.can.length ∧ (canPort wCan 1).st.onBus = true ∧ (canRx 0 256 [(1 : Byte)]).reserved = false ∧
      formatEnabled (canPort wCan 1) (canRx 0 256 [(1 : Byte)]).frame.format = true ∧
      isReference (canPort wCan 1).book (takenFrame (canRx 0 256 [(1 : Byte)]).frame) = false ∧
      List.find? (defMatches (takenFrame (canRx 0 256 [(1 : Byte)]).frame)) (canPort wCan 1).defs = none ∧
      List.find? (filterMatches (takenFrame (canRx 0 256 [(1 : Byte)]).frame)) (canPort wCan 1).filters = some aFilter ∧
      canQueue wCan 1 (4 + aFilter.set) = some 2 ∧ (canPort wCan 1).st = CanState.errorActive ∧ (canPort wCan 1).tec < 128 ∧
      reserveUsed wCan 2 < (queueAt wCan 2).depth ∧ assignWaits wCan 2 = false ∧ (queueAt wCan 2).disabled = false ∧
      127 < (canPort wCan 1).rxec) ∧
    (1 ≤ 1 ∧ 1 ≤ wCanCalm.can.length ∧ (canPort wCanCalm 1).st.onBus = true ∧ (canRx 0 512 [(1 : Byte)]).reserved = false ∧
      formatEnabled (canPort wCanCalm 1) (canRx 0 512 [(1 : Byte)]).frame.format = true ∧
      isReference (canPort wCanCalm 1).book (takenFrame (canRx 0 512 [(1 : Byte)]).frame) = false ∧
      List.find? (defMatches (takenFrame (canRx 0 512 [(1 : Byte)]).frame)) (canPort wCanCalm 1).defs = none ∧
      List.find? (filterMatches (takenFrame (canRx 0 512 [(1 : Byte)]).frame)) (canPort wCanCalm 1).filters = none ∧
      (canPort wCanCalm 1).rxec ≤ 127) ∧
    (1 ≤ 1 ∧ 1 ≤ wCan.can.length ∧ (canPort wCan 1).st.onBus = true ∧ (canRx 0 512 [(1 : Byte)]).reserved = false ∧
      formatEnabled (canPort wCan 1) (canRx 0 512 [(1 : Byte)]).frame.format = true ∧
      isReference (canPort wCan 1).book (takenFrame (canRx 0 512 [(1 : Byte)]).frame) = false ∧
      List.find? (defMatches (takenFrame (canRx 0 512 [(1 : Byte)]).frame)) (canPort wCan 1).defs = none ∧
      List.find? (filterMatches (takenFrame (canRx 0 512 [(1 : Byte)]).frame)) (canPort wCan 1).filters = none ∧
      127 < (canPort wCan 1).rxec) ∧
    (1 ≤ 1 ∧ 1 ≤ wCanCalm.can.length ∧ (canPort wCanCalm 1).st.onBus = true ∧
      (canRx 0 16 [(1 : Byte), (2 : Byte), (3 : Byte), (4 : Byte)]).reserved = false ∧
      formatEnabled (canPort wCanCalm 1) (canRx 0 16 [(1 : Byte), (2 : Byte), (3 : Byte), (4 : Byte)]).frame.format = true ∧
      isReference (canPort wCanCalm 1).book (takenFrame (canRx 0 16 [(1 : Byte), (2 : Byte), (3 : Byte), (4 : Byte)]).frame) = false ∧
      ∃ d ∈ List.find? (defMatches (takenFrame (canRx 0 16 [(1 : Byte), (2 : Byte), (3 : Byte),
      (4 : Byte)]).frame)) (canPort wCanCalm 1).defs, (canPort wCanCalm 1).rxec ≤ 127) ∧
    (1 ≤ 1 ∧ 1 ≤ wCan.can.length ∧ (canPort wCan 1).st.onBus = true ∧
      (canRx 0 16 [(1 : Byte), (2 : Byte), (3 : Byte), (4 : Byte)]).reserved = false ∧
      formatEnabled (canPort wCan 1) (canRx 0 16 [(1 : Byte), (2 : Byte), (3 : Byte), (4 : Byte)]).frame.format = true ∧
      isReference (canPort wCan 1).book (takenFrame (canRx 0 16 [(1 : Byte), (2 : Byte), (3 : Byte), (4 : Byte)]).frame) = false ∧
      ∃ d ∈ List.find? (defMatches (takenFrame (canRx 0 16 [(1 : Byte), (2 : Byte), (3 : Byte), (4 : Byte)]).frame)) (canPort wCan 1).defs,
      127 < (canPort wCan 1).rxec) ∧
    (1 ≤ 1 ∧ 1 ≤ wCan.can.length ∧ (canPort wCan 1).st.onBus = true ∧ (canRx 0 16 [(1 : Byte)]).reserved = false ∧
      formatEnabled (canPort wCan 1) (canRx 0 16 [(1 : Byte)]).frame.format = true ∧
      isReference (canPort wCan 1).book (takenFrame (canRx 0 16 [(1 : Byte)]).frame) = false ∧
      ∃ d ∈ List.find? (defMatches (takenFrame (canRx 0 16 [(1 : Byte)]).frame)) (canPort wCan 1).defs,
      (takenFrame (canRx 0 16 [(1 : Byte)]).frame).length < d.length) ∧
    (1 ≤ 1 ∧ 1 ≤ wCan.can.length ∧ (canPort wCan 1).st.onBus = true ∧
      (canRx 0 16 [(1 : Byte), (2 : Byte), (3 : Byte), (4 : Byte)]).reserved = false ∧
      formatEnabled (canPort wCan 1) (canRx 0 16 [(1 : Byte), (2 : Byte), (3 : Byte), (4 : Byte)]).frame.format = true ∧
      isReference (canPort wCan 1).book (takenFrame (canRx 0 16 [(1 : Byte), (2 : Byte), (3 : Byte), (4 : Byte)]).frame) = false ∧
      ∃ d ∈ List.find? (defMatches (takenFrame (canRx 0 16 [(1 : Byte), (2 : Byte), (3 : Byte), (4 : Byte)]).frame)) (canPort wCan 1).defs,
      d.length ≤ (takenFrame (canRx 0 16 [(1 : Byte), (2 : Byte), (3 : Byte), (4 : Byte)]).frame).length) ∧
    (1 ≤ 1 ∧ 1 ≤ wCan.can.length ∧ (canPort wCan 1).st.onBus = true ∧
      ((canRx 2 1 []).reserved = true ∨ formatEnabled (canPort wCan 1) (canRx 2 1 []).frame.format = false)) :=
  by and_intros <;> decide +kernel

theorem witness_AttemptsOnTheBus :
    (1 ≤ 1 ∧ 1 ≤ wCan.can.length ∧ (canPort wCan 1).st.onBus = true ∧ canTxAllowed wCan = true ∧ (canPort wCan 1).listen = false ∧
      (canPort wCan 1).onBus = none ∧
      (bestEntry wCan (windowType (canPort wCan 1) != 2) (List.filter (fun x => ! [].contains x.handle) (offers wCan 1 (ntuNow wCan 1))) =
      some (desc 0 0 DescState.pending))) ∧
    (1 ≤ 1 ∧ 1 ≤ (wCanAttempt true).can.length ∧ (canPort (wCanAttempt true) 1).onBus = some 2 ∧
      descOf (wCanAttempt true) 2 = some (attempt true) ∧ (attempt true).owner ≠ Requester.program ∧ (attempt true).defn = none ∧
      (attempt true).st = DescState.attempt ∧ (TxEnd.lost = TxEnd.lost ∨ TxEnd.lost = TxEnd.error) ∧ (attempt true).cancel = true) ∧
    (1 ≤ 1 ∧ 1 ≤ wCanStandby.can.length ∧ (canPort wCanStandby 1).onBus = some 2 ∧ descOf wCanStandby 2 = some (attempt false) ∧
      (attempt false).owner ≠ Requester.program ∧ (attempt false).defn = none ∧ (attempt false).st = DescState.attempt ∧
      (TxEnd.lost = TxEnd.lost ∨ TxEnd.lost = TxEnd.error) ∧ (attempt false).cancel = false ∧ (attempt false).expiry = none ∧
      takesCommands wCanStandby = false) ∧
    (1 ≤ 1 ∧ 1 ≤ (wCanAttempt false).can.length ∧ (canPort (wCanAttempt false) 1).onBus = some 2 ∧
      descOf (wCanAttempt false) 2 = some (attempt false) ∧ (attempt false).owner ≠ Requester.program ∧ (attempt false).defn = none ∧
      (attempt false).st = DescState.attempt ∧ (TxEnd.lost = TxEnd.lost ∨ TxEnd.lost = TxEnd.error) ∧ (attempt false).cancel = false ∧
      (attempt false).expiry = none ∧ takesCommands (wCanAttempt false) = true ∧ (attempt false).oneShot = false) ∧
    (1 ≤ 1 ∧ 1 ≤ wCan.can.length ∧ descOf wCan 1 = some expiring ∧ expiring.owner ≠ Requester.program ∧ expiring.st = DescState.pending ∧
      expiring.expiry = some 5 ∧ 5 ≤ wCan.mono ∧ dropAttempt 1 wCan = wCan) :=
  by and_intros <;> decide +kernel

theorem witness_ErrorsBusOffAndRecovery :
    (1 ≤ 1 ∧ 1 ≤ wCan.can.length ∧ (canPort wCan 1).st.onBus = true ∧ 255 < (canPort wCan 1).tec + (canErr 300 10).tecAdd) ∧
    (1 ≤ 1 ∧ 1 ≤ wCan.can.length ∧ (canPort wCan 1).st.onBus = true ∧ (canPort wCan 1).tec + (canErr 8 0).tecAdd ≤ 255) ∧
    (1 ≤ 1 ∧ 1 ≤ (wCanState CanState.busOff).can.length ∧ (canPort (wCanState CanState.busOff) 1).st = CanState.busOff ∧
      (canPort (wCanState CanState.busOff) 1).waitRecover = true) ∧
    (1 ≤ 1 ∧ 1 ≤ (wCanState CanState.recovering).can.length ∧ (canPort (wCanState CanState.recovering) 1).st = CanState.recovering) ∧
    (1 ≤ 1 ∧ 1 ≤ (wCanState CanState.integrating).can.length ∧ (canPort (wCanState CanState.integrating) 1).st = CanState.integrating) :=
  by and_intros <;> decide +kernel

theorem witness_TheSignalBookRuns :
    (1 ≤ 1 ∧ 1 ≤ (wBook true [(0, 3)]).can.length ∧ potentialMaster (wBook true [(0, 3)]) 1 = true ∧
      (canPort (wBook true [(0, 3)]) 1).book.synced = true ∧ (canPort (wBook true [(0, 3)]) 1).book.gap = false ∧
      ntuPassed (wBook true [(0, 3)]) 1 (canPort (wBook true [(0, 3)]) 1).book.markAt (canPort (wBook true [(0,
      3)]) 1).book.cycleNtu = true) ∧
    (1 ≤ 1 ∧ 1 ≤ (wBook false []).can.length ∧ potentialMaster (wBook false []) 1 = true ∧
      (canPort (wBook false []) 1).book.synced = false ∧
      ntuPassed (wBook false []) 1 (canPort (wBook false []) 1).book.listenAt (2 * (canPort (wBook false []) 1).book.cycleNtu) = true) ∧
    (1 ≤ 1 ∧ 1 ≤ (wBook true [(0, 3)]).can.length ∧ (canPort (wBook true [(0, 3)]) 1).book.enabled = true ∧
      (canPort (wBook true [(0, 3)]) 1).book.synced = true ∧ (canPort (wBook true [(0, 3)]) 1).book.gap = false ∧
      ntuPassed (wBook true [(0, 3)]) 1 (canPort (wBook true [(0, 3)]) 1).book.markAt (2 * (canPort (wBook true [(0,
      3)]) 1).book.cycleNtu) = true) ∧
    (1 ≤ 1 ∧ 1 ≤ (wBook true [(0, 3)]).can.length ∧ (canPort (wBook true [(0, 3)]) 1).book.enabled = true ∧
      buildsBook (wBook true [(0, 3)]) = true ∧ 0 < (canPort (wBook true [(0, 3)]) 1).book.windows.length ∧
      ((canPort (wBook true [(0, 3)]) 1).book.synced = true →
      ntuPassed (wBook true [(0, 3)]) 1 (canPort (wBook true [(0,
      3)]) 1).book.markAt ((Option.map (fun x => x.start) (canPort (wBook true [(0, 3)]) 1).book.windows[0]?).getD 0) = true) ∧
      (canPort (wBook true [(0, 3)]) 1).book.synced = true ∧ (canPort (wBook true [(0, 3)]) 1).st.onBus = true) ∧
    (1 ≤ 1 ∧ 1 ≤ (wBook false []).can.length ∧ (canPort (wBook false []) 1).book.enabled = true ∧ buildsBook (wBook false []) = true ∧
      0 < (canPort (wBook false []) 1).book.windows.length ∧
      ((canPort (wBook false []) 1).book.synced = true →
      ntuPassed (wBook false []) 1 (canPort (wBook false []) 1).book.markAt ((Option.map (fun x => x.start) (canPort (wBook false [])
      1).book.windows[0]?).getD 0) = true) ∧
      ((canPort (wBook false []) 1).book.synced = false ∨ (canPort (wBook false []) 1).st.onBus = false) ∧
      scheduledIn (canPort (wBook false []) 1).book (canPort (wBook false []) 1).book.cycle 0 ≠ []) ∧
    (1 ≤ 1 ∧ 1 ≤ (wBook true [(0, 3)]).can.length ∧
      ((canPort (wBook true [(0, 3)]) 1).book.synced = true →
      ntuPassed (wBook true [(0, 3)]) 1 (canPort (wBook true [(0,
      3)]) 1).book.markAt ((Option.map (fun x => x.start) (canPort (wBook true [(0,
      3)]) 1).book.windows[0 + 1]?).getD (canPort (wBook true [(0, 3)]) 1).book.cycleNtu) = true) ∧
      (List.filter (fun x => x.1 == 0) (canPort (wBook true [(0, 3)]) 1).book.scheduled ≠ []) ∧
      (canPort (wBook true [(0, 3)]) 1).book.told = false) :=
  by and_intros <;> decide +kernel

theorem witness_QueueCommands :
    (queBank wCanStage Reader.sdk).ptr < field (queBank wCanStage Reader.sdk).head 0 12 ∧
    (BitVec.getLsbD (2147483648 : BitVec 32) 31 = true ∧ mayWrite wCan Reader.sdk winQue = true ∧
      enqueueCheck wCan (field (queBank wCan Reader.sdk).head 24 6) (stagedFrame (queBank wCan Reader.sdk)) = resOk ∧
      reserveUsed wCan (field (queBank wCan Reader.sdk).head 24 6) < (queueAt wCan (field (queBank wCan Reader.sdk).head 24 6)).depth ∧
      serialOff wCan (field (queBank wCan Reader.sdk).head 24 6) = false ∧
      hartOff wCan (field (queBank wCan Reader.sdk).head 24 6) = false) ∧
    (enqueueCheck wCan 0 (frameOf 16 [(1 : Byte), (2 : Byte), (3 : Byte), (4 : Byte)]) = resOk ∧
      reserveUsed wCan 0 < (queueAt wCan 0).depth ∧ serialOff wCan 0 = false ∧ hartOff wCan 0 = false) ∧
    (BitVec.getLsbD (2147483648 : BitVec 32) 31 = true ∧
      descOf wCan (field (2147483648 : BitVec 32) 0 11) = some (desc 0 0 DescState.pending) ∧
      (desc 0 0 DescState.pending).owner = Requester.ofReader Reader.sdk ∧ (desc 0 0 DescState.pending).st = DescState.pending ∧
      dropAttempt (field (2147483648 : BitVec 32) 0 11) wCan = wCan) ∧
    (BitVec.getLsbD (2147483648 : BitVec 32) 31 = true ∧
      (List.find? (fun d => d.queue == field (2147483648 : BitVec 32) 0 6 && !d.taken && mayTake (Requester.ofReader Reader.sdk) d)
      (wCanAttempt false).que.held = some (desc 0 0 DescState.retired))) ∧
    (BitVec.getLsbD (2147483648 : BitVec 32) 31 = true ∧
      descOf (wCanAttempt false) (field (2147483648 : BitVec 32) 0 11) = some (desc 0 0 DescState.retired) ∧
      (desc 0 0 DescState.retired).st = DescState.retired ∧ (desc 0 0 DescState.retired).owner = Requester.ofReader Reader.sdk) :=
  by and_intros <;> decide +kernel

theorem witness_RaisedRecordsAreStagedOrDropped :
    (if Severity.info = Severity.info ∨
      Severity.info = Severity.notice then State.reset.log.staged.length < 3840 else State.reset.log.staged.length < 4096) ∧
    (¬if Severity.info = Severity.info ∨
      Severity.info = Severity.notice then wStageFull.log.staged.length < 3840 else wStageFull.log.staged.length < 4096) :=
  by and_intros <;> decide +kernel

theorem witness_StoredRecordsTakeTheirSlot :
    ((wStore.log.accepting = true ∧ wStore.log.staged = [rec' 9 Severity.fault] ∧ (List.Pairwise (fun a b => a.1 < b.1) wStore.log.slots) ∧
      1 < 65536 ∧ slotTaken wStore.log 1 = false ∧ (∀ m < 1, slotTaken wStore.log m = true))) ∧
    ((wSlotsFull .info).log.accepting = true ∧ (wSlotsFull .info).log.staged = [rec' 9 .fault] ∧
      (wSlotsFull .info).log.slots.Pairwise (fun a b => a.1 < b.1) ∧ (∀ m, m < 65536 → slotTaken (wSlotsFull .info).log m = true) ∧
      look 0 (wSlotsFull .info).log.slots = some (rec' 1 .info) ∧ (rec' 1 .info).sev.code ≤ (rec' 9 .fault).sev.code ∧
      ∀ m q, look m (wSlotsFull .info).log.slots = some q → q.sev.code ≤ (rec' 9 .fault).sev.code → m ≠ 0 → (rec' 1 .info).seq < q.seq) ∧
    ((wSlotsFull .critical).log.accepting = true ∧ (wSlotsFull .critical).log.staged = [rec' 9 .fault] ∧
      (∀ m, m < 65536 → slotTaken (wSlotsFull .critical).log m = true) ∧
      ∀ m q, look m (wSlotsFull .critical).log.slots = some q → (rec' 9 .fault).sev.code < q.sev.code) :=
  ⟨by and_intros <;> decide +kernel, ⟨rfl, rfl, List.pairwise_singleton _ _, slotsFull_taken .info, rfl, by decide, fun m q h _ hm => by
    simp [wSlotsFull, look, Ne.symm hm] at h⟩, ⟨rfl, rfl, slotsFull_taken .critical, fun m q h => by
    by_cases hm : (0 : Nat) = m
    · simp [wSlotsFull, look, hm] at h; subst h; decide
    · simp [wSlotsFull, look, hm] at h⟩⟩

theorem witness_ApplicationRecords :
    (49152 ≤ BitVec.toNat (49152 : BitVec 16) ∧ State.reset.log.userEnable = true) ∧
    ((BitVec.toNat (0 : BitVec 16) < 49152 ∨ State.reset.log.userEnable = false) ∧
      longAgo (look 0 State.reset.log.refusedAt) 60000000000 State.reset.mono = true) ∧
    ((BitVec.toNat (0 : BitVec 16) < 49152 ∨ wNoUser.log.userEnable = false) ∧
      longAgo (look 0 wNoUser.log.refusedAt) 60000000000 wNoUser.mono = false) ∧
    (BitVec.getLsbD (2147483649 : BitVec 32) 31 = true ∧ 49152 ≤ (logBank State.reset Reader.sdk).code.toNat ∧
      State.reset.log.userEnable = true) ∧
    (BitVec.getLsbD (2147483649 : BitVec 32) 31 = true ∧
      ((logBank wNoUser Reader.sdk).code.toNat < 49152 ∨ wNoUser.log.userEnable = false)) :=
  by and_intros <;> decide +kernel

theorem witness_RecorderReadsAndTime :
    (railsOn wRun = true ∧ wRun.log.secBase + (1000000000 : ℤ) ≤ ↑wRun.mono) ∧
    BitVec.getLsbD (2147483649 : BitVec 32) 31 = true :=
  by and_intros <;> decide +kernel

theorem witness_PanelUpdatesRun :
    (State.reset.panel.band ≤ bandOf (-2500 : ℤ) ∧
    bandOf (-2500 : ℤ) < (wPanel none 450).panel.band ∧
    BitVec.getLsbD (1 : BitVec 32) 0 = true ∧
    (panelMay (wPanel none 450) = true ∧ railsOn (wPanel none 450) = true ∧
      ((wPanel none 450).panel.unknown = true ∨ (wPanel none 450).panel.shown ≠ Shown.picture (pictureOf (wPanel none 450)))) ∧
    wPanelHarbour.pwr.hbr ≠ HbrPhase.none ∧
    ((wPanel (some (upd 3)) 100).panel.update = some (upd 3) ∧ frameOver (wPanel (some (upd 3)) 100) = true ∧
      (wPanel (some (upd 3)) 100).pwr.hbr = HbrPhase.none ∧ (wPanel (some (upd 3)) 100).panel.vsSet * 97 ≤ 980 * 100 ∧
      980 * 100 ≤ (wPanel (some (upd 3)) 100).panel.vsSet * 103 ∧ (wPanel (some (upd 3)) 100).panel.frame + 1 < (upd 3).lengths.sum) ∧
    ((wPanel (some (upd 2)) 100).panel.update = some (upd 2) ∧ frameOver (wPanel (some (upd 2)) 100) = true ∧
      (wPanel (some (upd 2)) 100).pwr.hbr = HbrPhase.none ∧ (wPanel (some (upd 2)) 100).panel.vsSet * 97 ≤ 980 * 100 ∧
      980 * 100 ≤ (wPanel (some (upd 2)) 100).panel.vsSet * 103 ∧ (upd 2).lengths.sum ≤ (wPanel (some (upd 2)) 100).panel.frame + 1) ∧
    (wPanelBad.panel.update = some (upd 3) ∧ frameOver wPanelBad = true ∧ wPanelBad.pwr.hbr = HbrPhase.none ∧
      holdsWord wPanelBad Owner.panel (⟨2, 2, 3⟩ : Place) = true ∧ uncorrectable (⟨2, 2, 3⟩ : Place) wPanelBad = true)) ∧
    ((panelMay (wPanel none 450) = true ∧ railsOn (wPanel none 450) = true ∧ (wPanel none 450).panel.pending = true ∧
      (wPanel none 450).panel.update = none ∧ -2000 ≤ (wPanel none 450).panel.temp ∧ (wPanel none 450).panel.startedAt = none) ∧
      panelNeeds (updateFor (wPanel none 450)).lengths ≤ (wPanel none 450).pwr.energy * 10) ∧
    ((panelMay (wPanel none 100) = true ∧ railsOn (wPanel none 100) = true ∧ (wPanel none 100).panel.pending = true ∧
      (wPanel none 100).panel.update = none ∧ -2000 ≤ (wPanel none 100).panel.temp ∧ (wPanel none 100).panel.startedAt = none) ∧
      (wPanel none 100).pwr.energy * 10 < panelNeeds (updateFor (wPanel none 100)).lengths) :=
  ⟨by and_intros <;> decide +kernel, ⟨by decide +kernel, by rw [panel_without_wave]; decide⟩, ⟨by decide +kernel,
    by rw [panel_without_wave]; decide⟩⟩

theorem witness_MemoryKeepsItsForm :
    (∀ i ∈ ([.memoryAccess (acrossWords true), .memHandoverComplete, .scrubWord [3], .scrubWriteBack ⟨0, 2, 3⟩] : List Instr),
      Memory.wf wHandover = true ∧ ∃ t, exec i wHandover = .next t) :=
  fun i h => ⟨by decide +kernel, answered i _ (by revert i; decide +kernel)⟩

theorem witness_StoredBytesReadBack :
    (8 * 0 + 8 ≤ 16 * bankBytes ∧ Memory.wf (wMem []) = true ∧
      nativeMapped (wMem []) MemUnit.none (8 * 0 / bankBytes) (8 * 0 % bankBytes / 512) = true ∧
      accessAllowed (wMem []) Owner.cpu (8 * 0 / bankBytes) (8 * 0 % bankBytes / 512) true = true ∧
      ((wMem []).mem.inject.armed = false ∨ (wMem []).mem.inject.bank ≠ 8 * 0 / bankBytes) ∧ tableWord (wMem []) (8 * 0) = none) ∧
    (8 * 0 + 8 ≤ 16 * bankBytes ∧ Memory.wf (wMem []) = true ∧
      nativeMapped (wMem []) MemUnit.none (8 * 0 / bankBytes) (8 * 0 % bankBytes / 512) = true ∧ 0 + 1 ≤ 8 ∧ 1 ≤ 1 ∧
      accessAllowed (wMem []) Owner.cpu (8 * 0 / bankBytes) (8 * 0 % bankBytes / 512) false = true ∧
      errAt (wMem []) (placeOf (wMem []) (8 * 0)) = [] ∧ uncorrectable (placeOf (wMem []) (8 * 0)) (wMem []) = false ∧
      tableWord (wMem []) (8 * 0) = none) :=
  by and_intros <;> decide +kernel

theorem witness_OwnerFaultsChangeNoByte :
    (0 + 1 ≤ 8 ∧ 1 ≤ 1 ∧ 8 * 0 + 0 + 1 ≤ 16 * bankBytes ∧
      accessAllowed State.reset Owner.cpu (8 * 0 / bankBytes) (8 * 0 % bankBytes / 512) false = false) ∧
    (0 + 1 ≤ 8 ∧ 1 ≤ 1 ∧ 8 * 0 + 0 + 1 ≤ 16 * bankBytes ∧
      accessAllowed State.reset Owner.cpu (8 * 0 / bankBytes) (8 * 0 % bankBytes / 512) true = false ∧ railsOn State.reset = true ∧
      State.reset.sys.mode ≠ Mode.harbour) ∧
    (0 + 1 ≤ 8 ∧ 1 ≤ 1 ∧ 16 * bankBytes < 8 * 1048576 + 0 + 1) :=
  by and_intros <;> decide +kernel

theorem witness_ErrorsAreCorrectedOrReported :
    scrubRuns wMemOff = false ∧
    ((⟨0, 0, 1⟩ : Place) = (⟨wMemDark.mem.posBank, wMemDark.mem.posWord / 64, wMemDark.mem.posWord % 64⟩ : Place) ∧
      scrubRuns wMemDark = true ∧ scrubbed wMemDark (⟨0, 0, 1⟩ : Place).bank = false) ∧
    ((⟨0, 0, 1⟩ : Place) = (⟨(wMem []).mem.posBank, (wMem []).mem.posWord / 64, (wMem []).mem.posWord % 64⟩ : Place) ∧
      scrubRuns (wMem []) = true ∧ scrubbed (wMem []) (⟨0, 0, 1⟩ : Place).bank = true ∧
      (wMem []).mem.found.contains (⟨0, 0, 1⟩ : Place) = false ∧
      errAt (flipErr (⟨0, 0, 1⟩ : Place) [] (wMem [])) (⟨0, 0, 1⟩ : Place) = []) ∧
    ((⟨0, 2, 3⟩ : Place) = (⟨wMemFound.mem.posBank, wMemFound.mem.posWord / 64, wMemFound.mem.posWord % 64⟩ : Place) ∧
      scrubRuns wMemFound = true ∧ scrubbed wMemFound (⟨0, 2, 3⟩ : Place).bank = true ∧
      wMemFound.mem.found.contains (⟨0, 2, 3⟩ : Place) = true ∧ (⟨0, 2, 3⟩ : Place).bank < wMemFound.mem.banks.length) ∧
    ((⟨0, 0, 1⟩ : Place) = (⟨(wMem []).mem.posBank, (wMem []).mem.posWord / 64, (wMem []).mem.posWord % 64⟩ : Place) ∧
      scrubRuns (wMem []) = true ∧ scrubbed (wMem []) (⟨0, 0, 1⟩ : Place).bank = true ∧
      (wMem []).mem.found.contains (⟨0, 0, 1⟩ : Place) = false ∧ (⟨0, 0, 1⟩ : Place).bank < (wMem []).mem.banks.length ∧
      ((errAt (flipErr (⟨0, 0, 1⟩ : Place) [0] (wMem [])) (⟨0, 0, 1⟩ : Place)).length = 1 ∨
      (errAt (flipErr (⟨0, 0, 1⟩ : Place) [0] (wMem [])) (⟨0, 0, 1⟩ : Place)).length = 2)) ∧
    ((⟨0, 0, 1⟩ : Place) = { bank := (wMem [3, 70]).mem.posBank, row := (wMem [3, 70]).mem.posWord / 64, word := (wMem [3,
      70]).mem.posWord % 64 : Place } ∧ scrubRuns (wMem [3, 70]) = true ∧ scrubbed (wMem [3, 70]) (⟨0, 0, 1⟩ : Place).bank = true ∧
      (wMem [3, 70]).mem.found.contains (⟨0, 0, 1⟩ : Place) = false ∧ (⟨0, 0, 1⟩ : Place).bank < (wMem [3, 70]).mem.banks.length ∧
      (errAt (flipErr (⟨0, 0, 1⟩ : Place) [0] (wMem [3, 70])) (⟨0, 0, 1⟩ : Place)).length = 3) ∧
    ((List.find? (fun b => b.1 == (⟨0, 2, 3⟩ : Place)) wMemBack.mem.backs = some ((⟨0, 2, 3⟩ : Place), [0], [])) ∧
      uncorrectable (⟨0, 2, 3⟩ : Place) wMemBack = false ∧ (bankAt wMemBack (⟨0, 2, 3⟩ : Place).bank).clearing = false) ∧
    (wMem []).mem.weakDue = [weakRow] ∧
    State.reset.mem.weakDue = [] :=
  by and_intros <;> decide +kernel

theorem witness_BanksPassAndInjectionsArm :
    (BitVec.getLsbD (1 : BitVec 32) 0 = true ∧ (∃ n ≤ 15, field (1 : BitVec 32) 16 5 = n ∧
      (bankAt (wMem []) n).owner.code = field (1 : BitVec 32) 8 3) ∧ field (1 : BitVec 32) 8 3 ≠ 7 ∧ (wMem []).mem.handover.busy = false ∧
      (Reader.sdk = Reader.plant → (wMem []).sys.mode = Mode.stop)) ∧
    (BitVec.getLsbD (1 : BitVec 32) 0 = true ∧
      handoverRefused State.reset Reader.plant (field (1 : BitVec 32) 16 5) (field (1 : BitVec 32) 8 3) = true ∧
      (bankAt State.reset (field (1 : BitVec 32) 16 5)).owner.code ≠ field (1 : BitVec 32) 8 3) ∧
    (BitVec.getLsbD (66819 : BitVec 32) 0 = true ∧
      handoverRefused State.reset Reader.sdk (field (66819 : BitVec 32) 16 5) (field (66819 : BitVec 32) 8 3) = false ∧
      (bankAt State.reset (field (66819 : BitVec 32) 16 5)).owner.code ≠ field (66819 : BitVec 32) 8 3 ∧
      BitVec.getLsbD (66819 : BitVec 32) 1 = true ∧ field (66819 : BitVec 32) 16 5 < State.reset.mem.banks.length) ∧
    BitVec.getLsbD (0 : BitVec 32) 0 = false ∧
    (wHandover.mem.handover.busy = true ∧ wHandover.mem.handover.nowBank < wHandover.mem.banks.length ∧
      wHandover.mem.handover.nowClear = true) ∧
    (BitVec.getLsbD (2147483648 : BitVec 32) 31 = true ∧ wMemStop.sys.mode = Mode.stop) ∧
    (BitVec.getLsbD (2147483648 : BitVec 32) 31 = true ∧ State.reset.sys.mode ≠ Mode.stop) :=
  by and_intros <;> decide +kernel

theorem witness_RingFramesAndDirections :
    (ringPortUp (wRing Role.solo) (aForward none 1 false).x.port = true ∧
      ringPortUp (wRing Role.solo) (3 - (aForward none 1 false).x.port) = true ∧ (aForward none 1 false).x.hsr = none) ∧
    (ringPortUp (wRing Role.solo) (aForward none 1 true).x.port = true ∧
      ringPortUp (wRing Role.solo) (3 - (aForward none 1 true).x.port) = true ∧ (aForward none 1 true).x.hsr ≠ none ∧
      (aForward none 1 true).ptp = none) ∧
    (railsOn (wRing Role.solo) = true ∧ (wRing Role.solo).sys.mode ≠ Mode.harbour ∧ ringSends (wRing Role.solo) = true ∧
      longAgo (wRing Role.solo).ring.supAt 10000000 (wRing Role.solo).mono = true) ∧
    (∃ at_ ∈ (wRing Role.solo).ring.sup12, (wRing Role.solo).mono ≤ at_ + 1000000 ∧ (wRing Role.solo).ring.miss12 < 2) ∧
    (∃ at_ ∈ wRingBack.ring.sup12, wRingBack.mono ≤ at_ + 1000000 ∧ 2 ≤ wRingBack.ring.miss12) ∧
    (∃ at_ ∈ (wRingMiss 0).ring.sup21, (wRingMiss 0).mono ≤ at_ + 1000000 ∧ (wRingMiss 0).ring.miss21 < 2) ∧
    (∃ at_ ∈ (wRing Role.solo).ring.sup21, (wRing Role.solo).mono ≤ at_ + 1000000 ∧ 2 ≤ (wRing Role.solo).ring.miss21) ∧
    (∃ at_ ∈ (wRingMiss 0).ring.sup12, at_ + 1000000 ≤ (wRingMiss 0).mono ∧ (wRingMiss 0).ring.miss12 = 0) ∧
    (∃ at_ ∈ (wRingMiss 1).ring.sup12, at_ + 1000000 ≤ (wRingMiss 1).mono ∧ (wRingMiss 1).ring.miss12 = 1) ∧
    (State.reset.start.phase ≠ StartPhase.linkWait ∧ 0 < gigabit) ∧
    (State.reset.start.phase ≠ StartPhase.linkWait ∧ gigabit ≤ 3) ∧
    (wRing Role.solo).ring.link1 = true :=
  by and_intros <;> decide +kernel

theorem witness_StationsAreAdmittedAndHeard :
    (∃ h ∈ readHello (aRx true).src (helloOf 4), ringReceives (wRing Role.solo) (aRx true).port = true ∧ (aRx true).hsr ≠ none ∧
      hsrSecond (aRx true) (wRing Role.solo) = false ∧ h.owner = ownerId (wRing Role.solo) ∧ ringOwner (wRing Role.solo) = true ∧
      stationOf (wRing Role.solo) h.station = none) ∧
    (stationOf (wRing Role.solo) wasLost.num = some wasLost ∧ wasLost.st = StnState.admitting ∧ wasLost.held = none ∧
      wasLost.admitAt + 10000000 ≤ (wRing Role.solo).mono) ∧
    (ringReceives (wRing Role.solo) (aRx true).port = true ∧ (aRx true).hsr ≠ none ∧ 1 ≤ (aRx true).port ∧ (aRx true).port ≤ 2 ∧
      40 ≤ (inputOf 2).length ∧ (inputOf 2).length ≤ 1064 ∧ frameOk 35 (inputOf 2) = true ∧
      fld (inputOf 2) 2 2 = 40 + (readInput (inputOf 2)).dataLen ∧ (readInput (inputOf 2)).owner = ownerId (wRing Role.solo) ∧
      (∀ k < 3, accessAllowed (wRing Role.solo) Owner.ring 12 (((aRx true).port - 1) * 3 + k) true = true) ∧
      (wRing Role.solo).mem.inject.armed = false ∧ (readInput (inputOf 2)).highest ≤ (wRing Role.solo).pair.epoch ∧
      stationOf (wRing Role.solo) (readInput (inputOf 2)).station = some wasLost ∧
      (wasLost.st = StnState.live ∨ wasLost.st = StnState.admitting) ∧ wasLost.session = (readInput (inputOf 2)).session ∧
      wasLost.addr = some (aRx true).src ∧ (readInput (inputOf 2)).dataLen = wasLost.inLen ∧
      seqNext wasLost.lastSeq (readInput (inputOf 2)).seq = true ∧ wasLost.lastSeq ≠ some (readInput (inputOf 2)).seq ∧
      wasLost.st = StnState.admitting) ∧
    (ringReceives (wRing Role.active) (aRx true).port = true ∧ (aRx true).hsr ≠ none ∧ hsrSecond (aRx true) (wRing Role.active) = false ∧
      frameOk 34 (outputOf 1 9) = true ∧ fld (outputOf 1 9) 2 2 = 40 + fld (outputOf 1 9) 32 2 ∧
      fld (outputOf 1 9) 4 8 = ownerId (wRing Role.active) ∧
      (fld (outputOf 1 9) 12 1 = 0 ∨ (stationOf (wRing Role.active) (fld (outputOf 1 9) 12 1)).isSome = true) ∧
      (wRing Role.active).pair.epoch < fld (outputOf 1 9) 16 4 ∧
      ((wRing Role.active).sys.role = Role.active ∨ (wRing Role.active).sys.role = Role.standby)) ∧
    (BitVec.getLsbD (2147483650 : BitVec 32) 31 = true ∧ stationOf (wRing Role.solo) (field (2147483650 : BitVec 32) 0 7) = some wasLost) :=
  by and_intros <;> decide +kernel

theorem witness_TheCalendarTicks :
    (secondPassed (wCalendar lastSecond none) = true ∧ (wCalendar lastSecond none).rtc.commit.pending = false ∧
      (wCalendar lastSecond none).rtc.discipline = none ∧ (wCalendar lastSecond none).rtc.now = lastSecond) ∧
    (secondPassed (wCalendar dayEnd (some badCalendar)) = true ∧ (wCalendar dayEnd (some badCalendar)).rtc.commit.pending = true ∧
      (wCalendar dayEnd (some badCalendar)).rtc.copied.possible = false) ∧
    (secondPassed (wCalendar dayEnd (some goodCalendar)) = true ∧ (wCalendar dayEnd (some goodCalendar)).rtc.commit.pending = true ∧
      (wCalendar dayEnd (some goodCalendar)).rtc.copied.possible = true ∧
      (wCalendar dayEnd (some goodCalendar)).rtc.copied.setCalendar = true ∧ (wCalendar dayEnd (some goodCalendar)).pwr.railsOff = false) ∧
    (secondPassed wDark = true ∧ wDark.rtc.commit.pending = true ∧ wDark.rtc.copied.possible = true ∧ wDark.rtc.copied.setCalendar = true ∧
      wDark.pwr.railsOff = true) :=
  by and_intros <;> decide +kernel

theorem witness_TheBackupDomainMeasures :
    State.reset.rtc.curveOk = false ∧
    2700 ≤ 2700 ∧
    0 < 2700 ∧
    (wAsleep.rtc.wakeLevel = false ∧ wakeSensed wAsleep = true ∧ inHarbour wAsleep = true) ∧
    (State.reset.rtc.wakeLevel = false ∧ wakeSensed State.reset = true ∧ inHarbour State.reset = false ∧ State.reset.pwr.railsOff = false) ∧
    (wDark.rtc.wakeLevel = false ∧ wakeSensed wDark = true ∧ inHarbour wDark = false ∧ wDark.pwr.railsOff = true) ∧
    wakeSensed State.reset = true :=
  by and_intros <;> decide +kernel

theorem witness_TheClockFollowsItsMaster :
    ((ptpTakes (wClock TimeState.locked) aSync = true ∧ aSync.twoStep = false) ∧
    (ptpTakes (wClock TimeState.locked) twoStepSync = true ∧ twoStepSync.twoStep = true) ∧
    (ptpTakes (wClock TimeState.locked) aSync = true ∧ (wClock TimeState.locked).time.syncWait = some (aSync.seq, 4000000000, (12 : ℤ))) ∧
    ((wClock TimeState.locked).time.cfg.ptp = true ∧ (announceOf Bmca.follow 136).domain = (wClock TimeState.locked).time.cfg.domain ∧
      (announceOf Bmca.follow 136).port = ptpPort (wClock TimeState.locked) ∧ (announceOf Bmca.follow 136).decision = Bmca.follow ∧
      (hasMaster (wClock TimeState.locked) = false ∨ (announceOf Bmca.follow 136).master ≠ (wClock TimeState.locked).time.master)) ∧
    ((wClock TimeState.locked).time.cfg.ptp = true ∧ (announceOf Bmca.master 119).domain = (wClock TimeState.locked).time.cfg.domain ∧
      (announceOf Bmca.master 119).port = ptpPort (wClock TimeState.locked) ∧ (announceOf Bmca.master 119).decision = Bmca.master ∧
      (wClock TimeState.locked).time.cfg.gmCapable = true) ∧
    ((wClock TimeState.grandmaster).time.cfg.ptp = true ∧
      (announceOf Bmca.passive 119).domain = (wClock TimeState.grandmaster).time.cfg.domain ∧
      (announceOf Bmca.passive 119).port = ptpPort (wClock TimeState.grandmaster) ∧ (announceOf Bmca.passive 119).decision = Bmca.passive ∧
      (wClock TimeState.grandmaster).time.st = TimeState.grandmaster) ∧
    (wP2p.time.cfg.ptp = true ∧ aDelay.domain = wP2p.time.cfg.domain ∧ wP2p.time.cfg.p2p = true ∧ aDelay.port = 1) ∧
    (wP2p.time.cfg.ptp = true ∧ aDelay2.domain = wP2p.time.cfg.domain ∧ wP2p.time.cfg.p2p = true ∧ aDelay2.port = 2) ∧
    ((wClock TimeState.locked).time.cfg.ptp = true ∧ aDelay.domain = (wClock TimeState.locked).time.cfg.domain ∧
      (wClock TimeState.locked).time.cfg.p2p = false ∧ aDelay.port = ptpPort (wClock TimeState.locked))) ∧
    (∃ m, ptpTakes (wClock .locked) m = true ∧ m.twoStep = false ∧
      ((meanDelay (wClock .locked) : Int) - ((receiptAt (wClock .locked) m.port : Int) - m.origin - m.corr)).natAbs < 10000000) :=
  ⟨by and_intros <;> decide +kernel, ⟨{ aSync with origin := receiptAt (wClock .locked) 1, corr := -1500 }, by decide +kernel, rfl, by
    rw [show meanDelay (wClock .locked) = 1500 by decide +kernel]; simp [aSync]⟩⟩

theorem witness_TheGrandmasterServesAndPulsesFire :
    (wClock4.time.st = TimeState.grandmaster ∧ ptpSends wClock4 = true ∧ wClock4.time.cfg.port4 = true) ∧
    ((wClock TimeState.grandmaster).time.st = TimeState.grandmaster ∧ (wClock TimeState.grandmaster).time.cfg.p2p = false ∧
      ptpSends (wClock TimeState.grandmaster) = true) ∧
    (0 ≠ 4 ∧ ringPortUp (wClock TimeState.locked) 0 = true) ∧
    (wPeer4.time.cfg.port4 = true ∧ wPeer4.time.cfg.p2p = true ∧ ptpSends wPeer4 = true) ∧
    ((wClock TimeState.locked).time.cfg.ptp = true ∧
      ((wClock TimeState.locked).time.cfg.p2p = true ∨ hasMaster (wClock TimeState.locked) = true) ∧
      ptpSends (wClock TimeState.locked) = true ∧
      ((wClock TimeState.locked).time.cfg.port4 = false ∨ (wClock TimeState.locked).time.cfg.p2p = false ∨
      ringSends (wClock TimeState.locked) = false)) ∧
    (wPeer4.time.cfg.ptp = true ∧ (wPeer4.time.cfg.p2p = true ∨ hasMaster wPeer4 = true) ∧ ptpSends wPeer4 = true ∧
      wPeer4.time.cfg.port4 = true ∧ wPeer4.time.cfg.p2p = true ∧ ringSends wPeer4 = true) ∧
    (0 < (wPulses false).time.pulses.length ∧ 28 + 0 < (wPulses false).dio.ch.length ∧ (pulseAt (wPulses false) 0).next = some 1000 ∧
      1000 * 1000 ≤ (wPulses false).time.ns ∧ pulsesRun (wPulses false) = true ∧ pulseMay (wPulses false) 0 = true) ∧
    (0 < (wPulses true).time.pulses.length ∧ 28 + 0 < (wPulses true).dio.ch.length ∧ (pulseAt (wPulses true) 0).next = some 1000 ∧
      1000 * 1000 ≤ (wPulses true).time.ns ∧ pulsesRun (wPulses true) = true ∧ pulseMay (wPulses true) 0 = false) ∧
    (0 < (wPulses false).time.pulses.length ∧ 28 + 0 < (wPulses false).dio.ch.length ∧ (pulseAt (wPulses false) 0).next = some 1000 ∧
      1000 * 1000 ≤ (wPulses false).time.ns ∧ pulsesRun (wPulses false) = true ∧ (pulseAt (wPulses false) 0).force.mode = 2) ∧
    (1 < (wPulses false).time.pulses.length ∧ 28 + 1 < (wPulses false).dio.ch.length ∧ (pulseAt (wPulses false) 1).next = some 1000 ∧
      1000 * 1000 ≤ (wPulses false).time.ns ∧ pulsesRun (wPulses false) = true ∧ (pulseAt (wPulses false) 1).force.mode ≠ 2) ∧
    (0 < State.reset.time.pulses.length ∧ 28 + 0 < State.reset.dio.ch.length ∧ (pulseAt State.reset 0).offAt ≤ State.reset.mono) ∧
    (∃ at_ ∈ look 0 (wClock TimeState.locked).time.launches, at_ ≤ (wClock TimeState.locked).time.ns) :=
  by and_intros <;> decide +kernel

theorem witness_TimeIsHeldAndStepped :
    (hasMaster (wClock TimeState.locked) = true ∧
      ((wClock TimeState.locked).time.syncAt + syncPatience (wClock TimeState.locked).time.cfg ≤ (wClock TimeState.locked).mono ∨
      (wClock TimeState.locked).time.announceAt + announcePatience (wClock TimeState.locked).time.cfg ≤ (wClock TimeState.locked).mono)) ∧
    (hasMaster (wClock TimeState.holdover) = false ∧ announceLate (wClock TimeState.holdover) = true ∧
      (wClock TimeState.holdover).time.cfg.gmCapable = true) ∧
    ((wClock TimeState.holdover).time.st = TimeState.holdover ∧
      (wClock TimeState.holdover).time.holdSince + 10000000000 ≤ (wClock TimeState.holdover).mono) ∧
    (∃ d ∈ (wClock TimeState.locked).time.stepPending, t0Runs (wClock TimeState.locked) = false ∧
      (wClock TimeState.locked).time.stepAt ≤ (wClock TimeState.locked).mono) ∧
    ((wClock TimeState.locked).time.cfg.discipline = true ∧ (wClock TimeState.locked).time.everLocked = true ∧
      (wClock TimeState.locked).time.checkedAt + 3600000000000 ≤ (wClock TimeState.locked).mono ∧
      (wClock TimeState.locked).time.st = TimeState.locked ∧ (wClock TimeState.locked).time.utcValid = true ∧
      1000000000 < (calendarError (wClock TimeState.locked)).natAbs) ∧
    ((wClock TimeState.locked).time.driftHour < monoHour (wClock TimeState.locked) ∧
      (driftAdds (wClock TimeState.locked)).time.driftNs ≠ 0 ∧
      20000 < (divEven (driftAdds (wClock TimeState.locked)).time.driftSum (driftAdds (wClock TimeState.locked)).time.driftNs).natAbs ∧
      (divEven (driftAdds (wClock TimeState.locked)).time.driftSum (driftAdds (wClock TimeState.locked)).time.driftNs).natAbs ≤ 25000 ∧
      (wClock TimeState.locked).time.driftNotice = false) :=
  by and_intros <;> decide +kernel

theorem witness_LoopsTickAndEnable :
    (railsOn (wLoops Mode.run) = true ∧ (aTick 0 0).group < (wLoops Mode.run).eng.groups.length ∧
      ((wLoops Mode.run).eng.groups.getD (aTick 0 0).group { : LoopGroup }).nextTick ≤ (wLoops Mode.run).mono ∧
      fasterTicks (wLoops Mode.run) (aTick 0 0).group = false ∧ loopsCompute (wLoops Mode.run) = true ∧
      loopsOf (wLoops Mode.run) (aTick 0 0).group = [0, 1] ∧ (aTick 0 0).computed = 0 ∧
      (∀ n ∈ [0, 1], (loopAt (wLoops Mode.run) n).enabled = true ∧ (loopAt (wLoops Mode.run) n).armed = none ∧
      (loopAt (wLoops Mode.run) n).pendingOut = none) ∧
      ((wLoops Mode.run).eng.groups.getD (aTick 0 0).group { : LoopGroup }).missed = false) ∧
    (railsOn wLoopsLate = true ∧ (aTick 1 1).group < wLoopsLate.eng.groups.length ∧
      (wLoopsLate.eng.groups.getD (aTick 1 1).group { : LoopGroup }).nextTick ≤ wLoopsLate.mono ∧
      fasterTicks wLoopsLate (aTick 1 1).group = false ∧ loopsCompute wLoopsLate = true ∧ loopsOf wLoopsLate (aTick 1 1).group = [33] ∧
      0 < (aTick 1 1).computed ∧ contextAllowed wLoopsLate 33 = true ∧ contextErrors wLoopsLate 33 = [] ∧ wLoopsLate.hoist.loopsDue = [] ∧
      (loopAt wLoopsLate 33).enabled = true ∧ (loopAt wLoopsLate 33).armed = none ∧ (loopAt wLoopsLate 33).pendingOut = none ∧
      (loopAt wLoopsLate 33).inA.kind = 1 ∧ qClass (sigEntry wLoopsLate (loopAt wLoopsLate 33).inA.ref).quality = 0 ∧
      (loopAt wLoopsLate 33).badSafe = false) ∧
    ((loopBank (wLoops Mode.run) Reader.sdk).want).isSome = true :=
  by and_intros <;> decide +kernel

theorem witness_SafetyTicksOpenTheBrake :
    (railsOn State.reset = true ∧ longAgo State.reset.safe.tickAt 500000 State.reset.mono = true ∧
      (State.reset.safe.path = true ∨ (safeTick (15 : Byte) true).clocks = true ∨ (safeTick (15 : Byte) true).missed = true ∧
      3 ≤ State.reset.safe.missRun)) ∧
    (railsOn State.reset = true ∧ 0 < State.reset.safe.ch.length ∧ (true = true → fedOff State.reset 0 = false) ∧
      (true = true ∨ ((siAt State.reset 0).on SafePath.chip).filt = false ∨ (sPair State.reset (0 / 2 : ℕ)).mode ≠ PairMode.reset)) ∧
    (railsOn (wSafe FuncState.ready) = true ∧ 5 < (wSafe FuncState.ready).safe.ch.length ∧
      (false = true → fedOff (wSafe FuncState.ready) 5 = false) ∧ ((siAt (wSafe FuncState.ready) 5).on SafePath.chip).filt = true ∧
      (sPair (wSafe FuncState.ready) (5 / 2 : ℕ)).mode = PairMode.reset ∧
      (wSafe FuncState.ready).mono - ((siAt (wSafe FuncState.ready) 5).on SafePath.chip).rose < 100000000) ∧
    (railsOn (wSafe FuncState.ready) = true ∧ 5 < (wSafe FuncState.ready).safe.ch.length ∧
      (false = true → fedOff (wSafe FuncState.ready) 5 = false) ∧ ((siAt (wSafe FuncState.ready) 5).on SafePath.supervisor).filt = true ∧
      (sPair (wSafe FuncState.ready) (5 / 2 : ℕ)).mode = PairMode.reset ∧
      (wSafe FuncState.ready).mono - ((siAt (wSafe FuncState.ready) 5).on SafePath.supervisor).rose < 100000000) ∧
    (railsOn (wSafe FuncState.ready) = true ∧ 6 < (wSafe FuncState.ready).safe.ch.length ∧
      (false = true → fedOff (wSafe FuncState.ready) 6 = false) ∧ ((siAt (wSafe FuncState.ready) 6).on SafePath.chip).filt = true ∧
      (sPair (wSafe FuncState.ready) (6 / 2 : ℕ)).mode = PairMode.reset ∧
      5000000000 < (wSafe FuncState.ready).mono - ((siAt (wSafe FuncState.ready) 6).on SafePath.chip).rose) ∧
    (railsOn (wSafe FuncState.ready) = true ∧ 6 < (wSafe FuncState.ready).safe.ch.length ∧
      (false = true → fedOff (wSafe FuncState.ready) 6 = false) ∧ ((siAt (wSafe FuncState.ready) 6).on SafePath.supervisor).filt = true ∧
      (sPair (wSafe FuncState.ready) (6 / 2 : ℕ)).mode = PairMode.reset ∧
      5000000000 < (wSafe FuncState.ready).mono - ((siAt (wSafe FuncState.ready) 6).on SafePath.supervisor).rose) ∧
    (railsOn (wSafe FuncState.ready) = true ∧ 7 < (wSafe FuncState.ready).safe.ch.length ∧
      (false = true → fedOff (wSafe FuncState.ready) 7 = false) ∧ ((siAt (wSafe FuncState.ready) 7).on SafePath.chip).filt = true ∧
      (sPair (wSafe FuncState.ready) (7 / 2 : ℕ)).mode = PairMode.reset ∧
      100000000 ≤ (wSafe FuncState.ready).mono - ((siAt (wSafe FuncState.ready) 7).on SafePath.chip).rose ∧
      (wSafe FuncState.ready).mono - ((siAt (wSafe FuncState.ready) 7).on SafePath.chip).rose ≤ 5000000000 ∧
      ((siAt (wSafe FuncState.ready) 7).on SafePath.chip).resetFault = true) ∧
    (railsOn (wSafe FuncState.ready) = true ∧ 7 < (wSafe FuncState.ready).safe.ch.length ∧
      (false = true → fedOff (wSafe FuncState.ready) 7 = false) ∧ ((siAt (wSafe FuncState.ready) 7).on SafePath.supervisor).filt = true ∧
      (sPair (wSafe FuncState.ready) (7 / 2 : ℕ)).mode = PairMode.reset ∧
      100000000 ≤ (wSafe FuncState.ready).mono - ((siAt (wSafe FuncState.ready) 7).on SafePath.supervisor).rose ∧
      (wSafe FuncState.ready).mono - ((siAt (wSafe FuncState.ready) 7).on SafePath.supervisor).rose ≤ 5000000000 ∧
      ((siAt (wSafe FuncState.ready) 7).on SafePath.supervisor).resetFault = true) ∧
    (railsOn (wSafe FuncState.ready) = true ∧ 4 < (wSafe FuncState.ready).safe.ch.length ∧
      (false = true → fedOff (wSafe FuncState.ready) 4 = false) ∧ ((siAt (wSafe FuncState.ready) 4).on SafePath.chip).filt = true ∧
      (sPair (wSafe FuncState.ready) (4 / 2 : ℕ)).mode = PairMode.reset ∧
      100000000 ≤ (wSafe FuncState.ready).mono - ((siAt (wSafe FuncState.ready) 4).on SafePath.chip).rose ∧
      (wSafe FuncState.ready).mono - ((siAt (wSafe FuncState.ready) 4).on SafePath.chip).rose ≤ 5000000000 ∧
      ((siAt (wSafe FuncState.ready) 4).on SafePath.chip).resetFault = false) :=
  by and_intros <;> decide +kernel

theorem witness_TestPulsesAndBrakeOutputs :
    (0 < 2 ∧ (wSafe FuncState.ready).safe.present = true ∧
      (if 0 = 0 then (wSafe FuncState.ready).safe.tpEn0 else (wSafe FuncState.ready).safe.tpEn1) = true ∧
      (if 0 = 0 then (wSafe FuncState.ready).safe.tpOver0 else (wSafe FuncState.ready).safe.tpOver1) = false ∧
      (wSafe FuncState.ready).safe.resumed = true ∧ fDead (wSafe FuncState.ready) = false ∧ dropDue 0 (wSafe FuncState.ready) = true) ∧
    ((wSafe FuncState.ready).safe.present = true ∧
      (if 0 = 0 then (wSafe FuncState.ready).safe.tpEn0 else (wSafe FuncState.ready).safe.tpEn1) = true ∧
      fDead (wSafe FuncState.ready) = false) ∧
    (if 0 = 0 then (wSafe FuncState.ready).safe.tpOffAt0 else (wSafe FuncState.ready).safe.tpOffAt1) + 1000000000 ≤ (wSafe
      FuncState.ready).mono ∧
    ((sFunc (wSafe FuncState.check) 0).st = FuncState.check ∧ (sFunc (wSafe FuncState.check) 0).stood 4 (wSafe FuncState.check) = true ∧
      staticResult backPass = StaticEnd.pass ∧
      FuncState.check.next (pairDemand (wSafe FuncState.check) (sFunc (wSafe FuncState.check) 0) || fDead (wSafe FuncState.check))
      (faultBits (wSafe FuncState.check) (sFunc (wSafe FuncState.check) 0)) (effectiveRequest (wSafe FuncState.check) (sFunc (wSafe
      FuncState.check) 0)).1 = FuncState.check ∧ (sFunc (wSafe FuncState.check) 0).supSt = FuncState.check) ∧
    ((sFunc (wSafeDark FuncState.check) 0).st = FuncState.check ∧
      (sFunc (wSafeDark FuncState.check) 0).stood 4 (wSafeDark FuncState.check) = true ∧ staticResult backPass = StaticEnd.pass ∧
      FuncState.check.next (pairDemand (wSafeDark FuncState.check) (sFunc (wSafeDark FuncState.check) 0) || fDead (wSafeDark
      FuncState.check)) (faultBits (wSafeDark FuncState.check) (sFunc (wSafeDark FuncState.check) 0)) (effectiveRequest (wSafeDark
      FuncState.check) (sFunc (wSafeDark FuncState.check) 0)).1 ≠ FuncState.check) ∧
    ((sFunc (wSafe FuncState.check) 0).st = FuncState.check ∧ (sFunc (wSafe FuncState.check) 0).stood 4 (wSafe FuncState.check) = true ∧
      staticResult backStuck = StaticEnd.stuck) ∧
    ((sFunc (wSafe FuncState.check) 0).st = FuncState.check ∧ (sFunc (wSafe FuncState.check) 0).stood 4 (wSafe FuncState.check) = true ∧
      staticResult backOpen = StaticEnd.openLoad) ∧
    ((sFunc (wSafe FuncState.testing) 0).st = FuncState.testing ∧
      (sFunc (wSafe FuncState.testing) 0).stood 4 (wSafe FuncState.testing) = true ∧ staticResult backStuck ≠ StaticEnd.pass) ∧
    ((sFunc (wSafe FuncState.released) 0).st = FuncState.released ∧
      (sFunc (wSafe FuncState.released) 0).stood (sFunc (wSafe FuncState.released) 0).releaseMs (wSafe FuncState.released) = true) ∧
    ((sFunc (wSafeStatic FuncState.released) 0).st = FuncState.released ∧ 200 ≤ (sFunc (wSafeStatic FuncState.released) 0).lowTicks) ∧
    ((sFunc (wSafeStatic FuncState.released) 0).st = FuncState.released ∧ 20 ≤ (sFunc (wSafeStatic FuncState.released) 0).overTicks) ∧
    ((sFunc (wSafe FuncState.released) 0).st = FuncState.released ∧
      1 ≤ if true = true then (sFunc (wSafe FuncState.released) 0).darkHs else (sFunc (wSafe FuncState.released) 0).darkLs) ∧
    (sFunc (wSafe FuncState.released) 0).st = FuncState.released ∧
    (0 < (wSafeStatic FuncState.ready).safe.funcs.length ∧ (sFunc (wSafeStatic FuncState.ready) 0).sbcOn = false ∧
      20 ≤ (sFunc (wSafeStatic FuncState.ready) 0).offTicks) :=
  by and_intros <;> decide +kernel

theorem witness_BrakeTestsRun :
    (0 < 2 ∧ testMayStart (wSafe FuncState.ready) 0 = true) ∧
    (0 < 2 ∧ testMayStart State.reset 0 = false) ∧
    ((sFunc (wSafeDark FuncState.testing) 0).st = FuncState.testing ∧ 0 < 2 ∧
      ((pairDemand (wSafeDark FuncState.testing) (sFunc (wSafeDark FuncState.testing) 0) || fDead (wSafeDark FuncState.testing)) = true ∨
      otherFaults (faultBits (wSafeDark FuncState.testing) (sFunc (wSafeDark FuncState.testing) 0)) ≠ 0)) ∧
    ((sFunc (wSafe FuncState.testing) 0).st = FuncState.testing ∧ 0 < 2 ∧
      (pairDemand (wSafe FuncState.testing) (sFunc (wSafe FuncState.testing) 0) || fDead (wSafe FuncState.testing)) = false ∧
      otherFaults (faultBits (wSafe FuncState.testing) (sFunc (wSafe FuncState.testing) 0)) = 0 ∧
      (sFunc (wSafe FuncState.testing) 0).btFailed = false) ∧
    ((sFunc (wSafeDark FuncState.testing) 0).st = FuncState.testing ∧
      (sFunc (wSafeDark FuncState.testing) 0).stood (1000 * (sFunc (wSafeDark FuncState.testing) 0).timeoutS) (wSafeDark FuncState.testing)
      = true ∧ ((pairDemand (wSafeDark FuncState.testing) (sFunc (wSafeDark FuncState.testing) 0) || fDead (wSafeDark FuncState.testing)) =
      true ∨ otherFaults (faultBits (wSafeDark FuncState.testing) (sFunc (wSafeDark FuncState.testing) 0)) ≠ 0)) ∧
    ((sFunc (wSafe FuncState.testing) 0).st = FuncState.testing ∧
      (sFunc (wSafe FuncState.testing) 0).stood (1000 * (sFunc (wSafe FuncState.testing) 0).timeoutS) (wSafe FuncState.testing) = true ∧
      (pairDemand (wSafe FuncState.testing) (sFunc (wSafe FuncState.testing) 0) || fDead (wSafe FuncState.testing)) = false ∧
      otherFaults (faultBits (wSafe FuncState.testing) (sFunc (wSafe FuncState.testing) 0)) = 0 ∧
      (sFunc (wSafe FuncState.testing) 0).btFailed = false) ∧
    ((sFunc (wSafe FuncState.testing) 0).st = FuncState.testing ∧
      (sFunc (wSafe FuncState.testing) 0).stood 4 (wSafe FuncState.testing) = true) ∧
    ((sFunc (wSafeDark FuncState.testing) (wSafeDark FuncState.testing).safe.reqFunc).st = FuncState.testing ∧
      (sFunc (wSafeDark FuncState.testing) (wSafeDark FuncState.testing).safe.reqFunc).torque = true ∧
      ((pairDemand (wSafeDark FuncState.testing) (sFunc (wSafeDark FuncState.testing) (wSafeDark FuncState.testing).safe.reqFunc) || fDead
      (wSafeDark FuncState.testing)) = true ∨
      otherFaults (faultBits (wSafeDark FuncState.testing) (sFunc (wSafeDark FuncState.testing) (wSafeDark
      FuncState.testing).safe.reqFunc)) ≠ 0)) ∧
    ((sFunc (wSafe FuncState.testing) (wSafe FuncState.testing).safe.reqFunc).st = FuncState.testing ∧
      (sFunc (wSafe FuncState.testing) (wSafe FuncState.testing).safe.reqFunc).torque = true ∧
      (pairDemand (wSafe FuncState.testing) (sFunc (wSafe FuncState.testing) (wSafe FuncState.testing).safe.reqFunc) || fDead (wSafe
      FuncState.testing)) = false ∧
      otherFaults (faultBits (wSafe FuncState.testing) (sFunc (wSafe FuncState.testing) (wSafe FuncState.testing).safe.reqFunc)) = 0) ∧
    (sFunc State.reset State.reset.safe.reqFunc).torque = false ∧
    ((sFunc (wSafe FuncState.ready) 0).enabled = true ∧ (sFunc (wSafe FuncState.ready) 0).intervalH ≠ 0 ∧
      (sFunc (wSafe FuncState.ready) 0).intervalH ≤ (sFunc (wSafe FuncState.ready) 0).hours ∧
      (sFunc (wSafe FuncState.ready) 0).due = false) :=
  by and_intros <;> decide +kernel

theorem witness_InputsAndTheStore :
    inHarbour (wHarbour HbrPhase.entering) = true ∧
    ((wSupply true 300).pwr.source = Source.backup ∧ railsOn (wSupply true 300) = true) ∧
    State.reset.pwr.source ≠ Source.backup ∧
    (x2Feeds wMains = true ∧ railsOn wMains = true ∧ (wMains.pwr.x1 = true ∨ wMains.pwr.source = Source.mains)) ∧
    x2Feeds State.reset = false ∧
    State.reset.sys.mode ≠ Mode.harbour ∧
    (wHarbour HbrPhase.settling).sys.mode = Mode.harbour ∧
    (railsOn (wSupply true 300) = true ∧ (wSupply true 300).pwr.source = Source.backup) ∧
    (railsOn State.reset = true ∧ 40000 ≤ 93 * 432 ∧ 0 ≤ 2 * State.reset.pwr.esrFactory) ∧
    (railsOn State.reset = true ∧ (0 * 432 < 40000 ∨ 2 * State.reset.pwr.esrFactory < 0)) ∧
    (railsOn State.reset = true ∧ 0 * 432 < 30000) :=
  by and_intros <;> decide +kernel

theorem witness_PowerDownInOrder :
    ((wSupply true 300).pwr.railsOff = false ∧ (wSupply true 300).pwr.powerDown = false ∧ (wSupply true 300).pwr.holdupReady = true) ∧
    ((wSupply false 300).pwr.railsOff = false ∧ (wSupply false 300).pwr.powerDown = false ∧ (wSupply false 300).pwr.holdupReady = false ∧
      (wSupply false 300).log.accepting = true ∧ (250 ≤ (wSupply false 300).pwr.energy ∨ (wSupply false 300).pwr.rideAt.isSome = true)) ∧
    (wRide.pwr.railsOff = false ∧ wRide.pwr.powerDown = false ∧ ∃ t0 ∈ wRide.pwr.rideAt, t0 + 10000000 ≤ (wRide.mono : Int) ∧ wRide.log.accepting = true ∧
      (250 ≤ wRide.pwr.energy ∨ wRide.pwr.rideAt.isSome = true)) :=
  by and_intros <;> decide +kernel

theorem witness_FieldGroupsAreSupervised :
    (0 < 5 ∧ 0 < (wSupply true 300).pwr.groups.length ∧ supervises (wSupply true 300) 0 = true ∧
      (fieldGroup (wSupply true 300) 0).st = FieldState.normal) ∧
    (1 < 5 ∧ 1 < wGroups.pwr.groups.length ∧ supervises wGroups 1 = true ∧ (fieldGroup wGroups 1).st = FieldState.low) ∧
    (4 < 5 ∧ 4 < wGroups.pwr.groups.length ∧ supervises wGroups 4 = true ∧ (fieldGroup wGroups 4).st.dead = false) ∧
    (0 < 5 ∧ 0 < (wSupply true 300).pwr.groups.length ∧ supervises (wSupply true 300) 0 = true ∧
      (fieldGroup (wSupply true 300) 0).st.dead = false ∧ 0 < 4) ∧
    (0 < 5 ∧ 0 < State.reset.pwr.groups.length ∧ supervises State.reset 0 = true ∧ (fieldGroup State.reset 0).st = FieldState.lost) ∧
    (1 < 5 ∧ 1 < wGroupsBack.pwr.groups.length ∧ supervises wGroupsBack 1 = true ∧ (fieldGroup wGroupsBack 1).st = FieldState.qualifying ∧
      (1 = 4 ∨ (fieldGroup wGroupsBack 1).first = true ∨ wGroupsBack.pwr.force.policy.testBit 1 = true)) ∧
    (3 < 5 ∧ 3 < wGroups.pwr.groups.length ∧ supervises wGroups 3 = true ∧ (fieldGroup wGroups 3).st = FieldState.qualifying ∧ 3 ≠ 4 ∧
      (fieldGroup wGroups 3).first = false ∧ wGroups.pwr.force.policy.testBit 3 = false ∧ NoDioSink wGroups) ∧
    (4 < 5 ∧ 4 < wGroupsBack.pwr.groups.length ∧ supervises wGroupsBack 4 = true ∧ (fieldGroup wGroupsBack 4).st = FieldState.qualifying) ∧
    (0 < 5 ∧ 0 < wGroupsBack.pwr.groups.length ∧ 0 < 4 ∧ BitVec.getLsbD (1 : BitVec 32) 0 = true ∧
      (fieldGroup wGroupsBack 0).st = FieldState.awaitAck) ∧
    (0 < 5 ∧ 0 < State.reset.pwr.groups.length ∧ 0 < 4 ∧ BitVec.getLsbD (1 : BitVec 32) 0 = true ∧
      (fieldGroup State.reset 0).st ≠ FieldState.awaitAck) ∧
    (0 < 5 ∧ 0 < State.reset.pwr.groups.length ∧ 0 < 4 ∧ BitVec.getLsbD (0 : BitVec 32) 0 = false ∧
      ((fieldGroup State.reset 0).st ≠ FieldState.awaitAck ∨ NoDioSink State.reset)) ∧
    (0 < 5 ∧ 0 < State.reset.pwr.groups.length ∧ railsOn State.reset = true ∧ (fieldGroup State.reset 0).st ≠ FieldState.awaitAck) ∧
    (0 < 5 ∧ 0 < wGroups.pwr.groups.length ∧ railsOn wGroups = true ∧ wGroups.pwr.commit.pending = true) ∧
    (0 < 5 ∧ 0 < State.reset.pwr.groups.length ∧ railsOn State.reset = true ∧ State.reset.pwr.commit.pending = false) :=
  by unfold NoDioSink; and_intros <;> decide +kernel

theorem witness_HarbourWatchIsEnteredAndKept :
    ((wHarbour HbrPhase.none).pwr.hbr ≠ HbrPhase.entering ∧ harbourAllowed (wHarbour HbrPhase.none) = true ∧
      (wHarbour HbrPhase.none).olc.phase = OlcPhase.idle) ∧
    (State.reset.pwr.hbr ≠ HbrPhase.entering ∧ harbourAllowed State.reset = false) ∧
    ((wHarbour HbrPhase.none).pwr.force.autoEnter ≠ 0 ∧ (wHarbour HbrPhase.none).pwr.x1 = false ∧
      (wHarbour HbrPhase.none).pwr.hbr ≠ HbrPhase.entering ∧ harbourAllowed (wHarbour HbrPhase.none) = true) ∧
    ((wHarbour HbrPhase.entering).pwr.hbr = HbrPhase.entering ∧ cyclesEnded (wHarbour HbrPhase.entering) = true) ∧
    ((wHarbour HbrPhase.settling).pwr.hbr = HbrPhase.settling ∧
      settleEnd (wHarbour HbrPhase.settling) ≤ (wHarbour HbrPhase.settling).mono) ∧
    (wHarbourIdle.pwr.hbr = HbrPhase.reading ∧ roundComplete wHarbourIdle = true ∧ wHarbourIdle.pwr.force.analogue = 0 ∧
      wHarbourIdle.pwr.force.digital = 0) ∧
    (wHarbour HbrPhase.none).pwr.pwrOnState = true :=
  by and_intros <;> decide +kernel

theorem witness_HoistsAreSentAndTaken :
    ((wPair Role.active PairState.active).hoist.pacing = 255 ∧ hoistSends (wPair Role.active PairState.active) = true ∧
      (wPair Role.active PairState.active).hoist.seq = none) ∧
    (wHoisted.hoist.pacing = 255 ∧ hoistSends wHoisted = true ∧ (wHoisted.hoist.seq).isSome = true) ∧
    wMirrorTask.hoist.pacing ≠ 255 ∧
    (wNoHoist.hoist.pacing = 255 ∧ hoistSends wNoHoist = false ∧ hoistReceives wNoHoist = true ∧ wNoHoist.pair.silent = false ∧
      (Option.any (fun p => p.role == 2 && p.mode == 1) wNoHoist.pair.partner = true) ∧ wNoHoist.hoist.heardAt + 2000000 < wNoHoist.mono) ∧
    hoistReceives State.reset = false ∧
    (hoistReceives wMirrorBad = true ∧ holdsWord wMirrorBad Owner.mirror (⟨2, 2, 3⟩ : Place) = true ∧
      uncorrectable (⟨2, 2, 3⟩ : Place) wMirrorBad = true) ∧
    (hoistReceives (wPair Role.standby PairState.standby) = true ∧ frameOk 80 [] = false) ∧
    (hoistReceives (wPair Role.standby PairState.standby) = true ∧ frameOk 80 (fragment 5 0 0 [(1 : Byte), (2 : Byte)]) = true ∧
      21 ≤ fld (fragment 5 0 0 [(1 : Byte), (2 : Byte)]) 2 2 ∧ fld (fragment 5 0 0 [(1 : Byte), (2 : Byte)]) 12 2 = 0 ∧
      (fragment 5 0 0 [(1 : Byte), (2 : Byte)]).getD 14 (0 : Byte) &&& (1 : Byte) = (0 : Byte)) ∧
    (hoistReceives (wPair Role.standby PairState.standby) = true ∧ frameOk 80 (lastFragment 0 0) = true ∧ 21 ≤ fld (lastFragment 0 0) 2 2 ∧
      fld (lastFragment 0 0) 12 2 ≠ 0 ∧
      ((wPair Role.standby PairState.standby).hoist.fragSeq ≠ some (fld (lastFragment 0 0) 4 8) ∨
      (wPair Role.standby PairState.standby).hoist.fragNext ≠ fld (lastFragment 0 0) 12 2)) ∧
    (hoistReceives (wFragments 1 0) = true ∧ frameOk 80 (lastFragment 0 0) = true ∧ 21 ≤ fld (lastFragment 0 0) 2 2 ∧
      fld (lastFragment 0 0) 12 2 ≠ 0 ∧ (wFragments 1 0).hoist.fragSeq = some (fld (lastFragment 0 0) 4 8) ∧
      (wFragments 1 0).hoist.fragNext = fld (lastFragment 0 0) 12 2 ∧ (lastFragment 0 0).getD 14 (0 : Byte) &&& (1 : Byte) = (1 : Byte) ∧
      (wFragments 1 0).hoist.fragLate = false ∧
      ∃ b ∈ readBody (wFragments 1 0) ((wFragments 1 0).hoist.fragData ++ slice (lastFragment 0 0) 16 (fld (lastFragment 0 0) 2 2 - 20)),
      b.seq = fld (lastFragment 0 0) 4 8 ∧ inTime (wFragments 1 0) b = true ∧ b.gen = (wFragments 1 0).olc.gen ∧ b.overflow = true) ∧
    (hoistReceives (wFragments 0 7) = true ∧ frameOk 80 (lastFragment 0 0) = true ∧ 21 ≤ fld (lastFragment 0 0) 2 2 ∧
      fld (lastFragment 0 0) 12 2 ≠ 0 ∧ (wFragments 0 7).hoist.fragSeq = some (fld (lastFragment 0 0) 4 8) ∧
      (wFragments 0 7).hoist.fragNext = fld (lastFragment 0 0) 12 2 ∧ (lastFragment 0 0).getD 14 (0 : Byte) &&& (1 : Byte) = (1 : Byte) ∧
      (wFragments 0 7).hoist.fragLate = false ∧
      ∃ b ∈ readBody (wFragments 0 7) ((wFragments 0 7).hoist.fragData ++ slice (lastFragment 0 0) 16 (fld (lastFragment 0 0) 2 2 - 20)),
      b.seq = fld (lastFragment 0 0) 4 8 ∧ inTime (wFragments 0 7) b = true ∧ b.gen ≠ (wFragments 0 7).olc.gen) :=
  by and_intros <;> decide +kernel

theorem witness_TamperSourcesRespond :
    (0 < 5 ∧ (wTamper Response.lock false).sec.counts.length = 5 ∧ (wTamper Response.lock false).sec.standing.length = 5 ∧
      (wTamper Response.lock false).sec.standing.getD 0 false = false ∧ (wTamper Response.lock false).sec.response 0 ≠ Response.alert) ∧
    (0 < 5 ∧ State.reset.sec.counts.length = 5 ∧ State.reset.sec.standing.length = 5 ∧ State.reset.sec.standing.getD 0 false = false ∧
      State.reset.sec.response 0 = Response.alert) ∧
    (0 < 5 ∧ (wTamper Response.erase false).sec.counts.length = 5 ∧ (wTamper Response.erase false).sec.standing.length = 5 ∧
      (wTamper Response.erase false).sec.standing.getD 0 false = false ∧ (wTamper Response.erase false).sec.response 0 = Response.erase) ∧
    (0 < 5 ∧ State.reset.sec.counts.length = 5 ∧ State.reset.sec.standing.length = 5 ∧ State.reset.sec.standing.getD 0 false = false ∧
      railsOn State.reset = true) ∧
    (0 < 5 ∧ (wTamper Response.erase true).sec.counts.length = 5 ∧ (wTamper Response.erase true).sec.standing.length = 5 ∧
      (wTamper Response.erase true).sec.standing.getD 0 false = false ∧ railsOn (wTamper Response.erase true) = false) ∧
    (4 < 5 ∧ (wTamper Response.lock false).sec.counts.length = 5 ∧ (wTamper Response.lock false).sec.standing.length = 5 ∧
      (wTamper Response.lock false).sec.standing.getD 4 false = false ∧ (wTamper Response.lock false).sec.response 4 ≠ Response.alert) ∧
    (4 < 5 ∧ State.reset.sec.counts.length = 5 ∧ State.reset.sec.standing.length = 5 ∧ State.reset.sec.standing.getD 4 false = false ∧
      State.reset.sec.response 4 = Response.alert) ∧
    (4 < 5 ∧ (wTamper Response.erase false).sec.counts.length = 5 ∧ (wTamper Response.erase false).sec.standing.length = 5 ∧
      (wTamper Response.erase false).sec.standing.getD 4 false = false ∧ (wTamper Response.erase false).sec.response 4 = Response.erase) ∧
    (4 < 5 ∧ State.reset.sec.counts.length = 5 ∧ State.reset.sec.standing.length = 5 ∧ State.reset.sec.standing.getD 4 false = false ∧
      railsOn State.reset = true) ∧
    (4 < 5 ∧ (wTamper Response.erase true).sec.counts.length = 5 ∧ (wTamper Response.erase true).sec.standing.length = 5 ∧
      (wTamper Response.erase true).sec.standing.getD 4 false = false ∧ railsOn (wTamper Response.erase true) = false) ∧
    (2 < 5 ∧ (wTamper Response.lock false).sec.counts.length = 5 ∧ (wTamper Response.lock false).sec.standing.length = 5 ∧
      (wTamper Response.lock false).sec.standing.getD 2 false = false ∧ (wTamper Response.lock false).sec.armed = true ∧
      railsOn (wTamper Response.lock false) = true ∧ (wTamper Response.lock false).sec.response 2 ≠ Response.alert) ∧
    (2 < 5 ∧ (wTamper Response.alert false).sec.counts.length = 5 ∧ (wTamper Response.alert false).sec.standing.length = 5 ∧
      (wTamper Response.alert false).sec.standing.getD 2 false = false ∧ (wTamper Response.alert false).sec.armed = true ∧
      railsOn (wTamper Response.alert false) = true ∧ (wTamper Response.alert false).sec.response 2 = Response.alert) ∧
    (2 < 5 ∧ (wTamper Response.erase false).sec.counts.length = 5 ∧ (wTamper Response.erase false).sec.standing.length = 5 ∧
      (wTamper Response.erase false).sec.standing.getD 2 false = false ∧ (wTamper Response.erase false).sec.armed = true ∧
      railsOn (wTamper Response.erase false) = true ∧ (wTamper Response.erase false).sec.response 2 = Response.erase) ∧
    (2 < 5 ∧ (wTamper Response.alert false).sec.counts.length = 5 ∧ (wTamper Response.alert false).sec.standing.length = 5 ∧
      (wTamper Response.alert false).sec.standing.getD 2 false = false ∧ (wTamper Response.alert false).sec.armed = true ∧
      railsOn (wTamper Response.alert false) = true ∧ railsOn (wTamper Response.alert false) = true) ∧
    (3 < 5 ∧ (wTamper Response.lock false).sec.counts.length = 5 ∧ (wTamper Response.lock false).sec.standing.length = 5 ∧
      (wTamper Response.lock false).sec.standing.getD 3 false = false ∧ (wTamper Response.lock false).sec.armed = true ∧
      railsOn (wTamper Response.lock false) = true ∧ (wTamper Response.lock false).sec.response 3 ≠ Response.alert) ∧
    (3 < 5 ∧ (wTamper Response.alert false).sec.counts.length = 5 ∧ (wTamper Response.alert false).sec.standing.length = 5 ∧
      (wTamper Response.alert false).sec.standing.getD 3 false = false ∧ (wTamper Response.alert false).sec.armed = true ∧
      railsOn (wTamper Response.alert false) = true ∧ (wTamper Response.alert false).sec.response 3 = Response.alert) ∧
    (3 < 5 ∧ (wTamper Response.erase false).sec.counts.length = 5 ∧ (wTamper Response.erase false).sec.standing.length = 5 ∧
      (wTamper Response.erase false).sec.standing.getD 3 false = false ∧ (wTamper Response.erase false).sec.armed = true ∧
      railsOn (wTamper Response.erase false) = true ∧ (wTamper Response.erase false).sec.response 3 = Response.erase) ∧
    (3 < 5 ∧ (wTamper Response.alert false).sec.counts.length = 5 ∧ (wTamper Response.alert false).sec.standing.length = 5 ∧
      (wTamper Response.alert false).sec.standing.getD 3 false = false ∧ (wTamper Response.alert false).sec.armed = true ∧
      railsOn (wTamper Response.alert false) = true ∧ railsOn (wTamper Response.alert false) = true) ∧
    wGenerating.sec.standing.getD 0 false = true ∧
    State.reset.sec.armed = false ∧
    0 ≠ 1 ∧
    State.reset.sec.everKey = false ∧
    (wGenerating.sec.identity = Identity.generating ∧ railsOn wGenerating = true) :=
  by and_intros <;> decide +kernel

theorem witness_PennantsAndHandovers :
    (pairRuns wForeign = true ∧ ∃ c ∈ wForeign.pair.cmd, c.void = false) ∧
    (pairRuns (wPair Role.active PairState.active) = true ∧ (wPair Role.active PairState.active).pair.cmd = none ∧
      (wPair Role.active PairState.active).cyc.pendingReq = none) ∧
    ((discovers (wPair Role.active PairState.active) = true ∨ pairRuns (wPair Role.active PairState.active) = true) ∧
      frameOk 64 [] = false) ∧
    ((discovers (wPair Role.active PairState.active) = true ∨ pairRuns (wPair Role.active PairState.active) = true) ∧
      frameOk 64 (pennantBytes strangePennant) = true ∧ fld (pennantBytes strangePennant) 2 2 = 108 ∧
      (readPennant (pennantBytes strangePennant)).pairId ≠ (hdr (wPair Role.active PairState.active)).pairId ∧
      (wPair Role.active PairState.active).pair.foreign = false) ∧
    ((discovers wForeign = true ∨ pairRuns wForeign = true) ∧ frameOk 64 (pennantBytes strangePennant) = true ∧
      fld (pennantBytes strangePennant) 2 2 = 108 ∧ (readPennant (pennantBytes strangePennant)).pairId ≠ (hdr wForeign).pairId ∧
      wForeign.pair.foreign = true) ∧
    ((discovers (wPair Role.active PairState.active) = true ∨ pairRuns (wPair Role.active PairState.active) = true) ∧
      frameOk 64 (pennantBytes clashPennant) = true ∧ fld (pennantBytes clashPennant) 2 2 = 108 ∧
      (readPennant (pennantBytes clashPennant)).pairId = (hdr (wPair Role.active PairState.active)).pairId ∧
      (readPennant (pennantBytes clashPennant)).side = (wPair Role.active PairState.active).pair.side ∧
      (wPair Role.active PairState.active).pair.clash = false) ∧
    ((discovers (wDiscovers StartPhase.listening) = true ∨ pairRuns (wDiscovers StartPhase.listening) = true) ∧
      frameOk 64 (pennantBytes thePennant) = true ∧ fld (pennantBytes thePennant) 2 2 = 108 ∧
      (readPennant (pennantBytes thePennant)).pairId = (hdr (wDiscovers StartPhase.listening)).pairId ∧
      (readPennant (pennantBytes thePennant)).side ≠ (wDiscovers StartPhase.listening).pair.side ∧
      (readPennant (pennantBytes thePennant)).side = 3 - (wDiscovers StartPhase.listening).pair.side ∧
      discovers (wDiscovers StartPhase.listening) = true ∧
      ((wDiscovers StartPhase.listening).pair.silent = true ∨ (wDiscovers StartPhase.listening).pair.partner = none ∨
      ∃ q, (wDiscovers StartPhase.listening).pair.partner = some q ∧ q.seq < (readPennant (pennantBytes thePennant)).seq) ∧
      (wDiscovers StartPhase.listening).start.phase = StartPhase.listening) ∧
    ((discovers (wDiscovers StartPhase.querying) = true ∨ pairRuns (wDiscovers StartPhase.querying) = true) ∧
      frameOk 64 (pennantBytes thePennant) = true ∧ fld (pennantBytes thePennant) 2 2 = 108 ∧
      (readPennant (pennantBytes thePennant)).pairId = (hdr (wDiscovers StartPhase.querying)).pairId ∧
      (readPennant (pennantBytes thePennant)).side ≠ (wDiscovers StartPhase.querying).pair.side ∧
      (readPennant (pennantBytes thePennant)).side = 3 - (wDiscovers StartPhase.querying).pair.side ∧
      discovers (wDiscovers StartPhase.querying) = true ∧
      ((wDiscovers StartPhase.querying).pair.silent = true ∨ (wDiscovers StartPhase.querying).pair.partner = none ∨
      ∃ q, (wDiscovers StartPhase.querying).pair.partner = some q ∧ q.seq < (readPennant (pennantBytes thePennant)).seq) ∧
      (wDiscovers StartPhase.querying).start.phase = StartPhase.querying) ∧
    ((discovers (wPair Role.active PairState.active) = true ∨ pairRuns (wPair Role.active PairState.active) = true) ∧
      frameOk 64 (pennantBytes laterPennant) = true ∧ fld (pennantBytes laterPennant) 2 2 = 108 ∧
      (readPennant (pennantBytes laterPennant)).pairId = (hdr (wPair Role.active PairState.active)).pairId ∧
      (readPennant (pennantBytes laterPennant)).side ≠ (wPair Role.active PairState.active).pair.side ∧
      (readPennant (pennantBytes laterPennant)).side = 3 - (wPair Role.active PairState.active).pair.side ∧
      discovers (wPair Role.active PairState.active) = false ∧
      ((wPair Role.active PairState.active).pair.silent = true ∨ (wPair Role.active PairState.active).pair.partner = none ∨
      ∃ q, (wPair Role.active PairState.active).pair.partner = some q ∧ q.seq < (readPennant (pennantBytes laterPennant)).seq) ∧
      (wPair Role.active PairState.active).sys.role = Role.active ∧
      (wPair Role.active PairState.active).pair.epoch < (readPennant (pennantBytes laterPennant)).epoch) ∧
    State.reset.mono < State.reset.pair.partnerAt + 1600000 ∧
    (pairRuns (wPair Role.active PairState.active) = true ∧
      (wPair Role.active PairState.active).pair.partnerAt + 1600000 ≤ (wPair Role.active PairState.active).mono ∧
      (wPair Role.active PairState.active).pair.silent = false ∧ (wPair Role.active PairState.active).olc.phase = OlcPhase.idle ∧
      (wPair Role.active PairState.active).pair.st = PairState.active) ∧
    (pairRuns wForeign = true ∧ wForeign.pair.partnerAt + 1600000 ≤ wForeign.mono ∧ wForeign.pair.silent = false ∧
      wForeign.olc.phase = OlcPhase.idle ∧ wForeign.pair.st = PairState.releasing ∧ wForeign.pair.cmd = some theCommand) ∧
    (pairRuns (wPair Role.standby PairState.standby) = true ∧
      (wPair Role.standby PairState.standby).pair.partnerAt + 1600000 ≤ (wPair Role.standby PairState.standby).mono ∧
      (wPair Role.standby PairState.standby).pair.silent = false ∧ (wPair Role.standby PairState.standby).olc.phase = OlcPhase.idle ∧
      (wPair Role.standby PairState.standby).pair.st = PairState.standby ∧ (wPair Role.standby PairState.standby).pair.mismatch = false ∧
      (wPair Role.standby PairState.standby).pair.accepted = none) ∧
    (pairRuns wSilentNew = true ∧ wSilentNew.pair.partnerAt + 1600000 ≤ wSilentNew.mono ∧ wSilentNew.pair.silent = true ∧
      wSilentNew.pair.st = PairState.standby ∧ wSilentNew.pair.linkDown = false ∧ wSilentNew.pair.mismatch = false ∧
      wSilentNew.pair.accepted = none) ∧
    (handoverAllowed wHeard = true ∧ isPairSide wHeard = true) ∧
    (handoverAllowed (wPair Role.active PairState.active) = false ∧ isPairSide (wPair Role.active PairState.active) = true) ∧
    isPairSide State.reset = false ∧
    (wForeign.pair.st = PairState.releasing ∧ wForeign.pair.cmd = some theCommand ∧ theCommand.kind = 3 ∧ theCommand.acked = false ∧
      wForeign.mono < theCommand.asked + 100000000) ∧
    ((wOldWord wForeign).pair.st = PairState.releasing ∧ (wOldWord wForeign).pair.cmd = some theCommand ∧ theCommand.kind = 3 ∧
      theCommand.acked = false ∧ theCommand.asked + 100000000 ≤ (wOldWord wForeign).mono) :=
  by and_intros <;> first | with_reducible exact pennant_ok _ | decide +kernel

theorem witness_ASideAsksTheJack :
    ((wPair Role.standby PairState.query).start.phase = StartPhase.idle ∧ (wPair Role.standby PairState.query).pair.st = PairState.query ∧
      (wPair Role.standby PairState.query).pair.client.waiting = true ∧ (wPair Role.standby PairState.query).pair.client.attempts < 3) ∧
    ((wLastQuery false).start.phase = StartPhase.idle ∧ (wLastQuery false).pair.st = PairState.query ∧
      (wLastQuery false).pair.client.waiting = true ∧ 3 ≤ (wLastQuery false).pair.client.attempts ∧
      (wLastQuery false).pair.client.absentRec = false) ∧
    ((wLastQuery true).start.phase = StartPhase.idle ∧ (wLastQuery true).pair.st = PairState.query ∧
      (wLastQuery true).pair.client.waiting = true ∧ 3 ≤ (wLastQuery true).pair.client.attempts ∧
      (wLastQuery true).pair.client.absentRec = true) ∧
    (wNoWait.start.phase = StartPhase.idle ∧ wNoWait.pair.st = PairState.query ∧ wNoWait.pair.client.waiting = false) ∧
    ((wPair Role.standby PairState.standby).start.phase = StartPhase.idle ∧
      jackForMe 66 (jackOf 66 1 1 6 9) (wPair Role.standby PairState.standby) = true ∧
      ({ port := 4, src := 224, hsr := none : Rx }.port = 4 ∨
      ringReceives (wPair Role.standby PairState.standby) { port := 4, src := 224, hsr := none : Rx }.port = true ∧
      { port := 4, src := 224, hsr := none : Rx }.hsr ≠ none ∧
      hsrSecond { port := 4, src := 224, hsr := none : Rx } (wPair Role.standby PairState.standby) = false) ∧
      (readJack (jackOf 66 1 1 6 9)).arg = 1 ∧
      ((wPair Role.standby PairState.standby).pair.st = PairState.standby ∨
      (wPair Role.standby PairState.standby).pair.st = PairState.query ∨
      (wPair Role.standby PairState.standby).pair.st = PairState.noActive) ∧ (wPair Role.standby PairState.standby).pair.mismatch = false) ∧
    ((wPair Role.standby PairState.query).start.phase = StartPhase.idle ∧
      jackForMe 66 (jackOf 66 1 2 6 9) (wPair Role.standby PairState.query) = true ∧
      ({ port := 4, src := 224, hsr := none : Rx }.port = 4 ∨
      ringReceives (wPair Role.standby PairState.query) { port := 4, src := 224, hsr := none : Rx }.port = true ∧
      { port := 4, src := 224, hsr := none : Rx }.hsr ≠ none ∧
      hsrSecond { port := 4, src := 224, hsr := none : Rx } (wPair Role.standby PairState.query) = false) ∧
      (wPair Role.standby PairState.query).pair.st = PairState.query ∧ (wPair Role.standby PairState.query).sys.role ≠ Role.active ∧
      (wPair Role.standby PairState.query).pair.client.waiting = true ∧
      (readJack (jackOf 66 1 2 6 9)).num = (wPair Role.standby PairState.query).pair.client.queryNo.toNat ∧
      (readJack (jackOf 66 1 2 6 9)).arg = 2 ∧
      ((wPair Role.standby PairState.query).pair.silent = true ∨ (wPair Role.standby PairState.query).pair.partner = none)) ∧
    ((wPair Role.standby PairState.query).start.phase = StartPhase.idle ∧
      jackForMe 66 (jackOf 66 1 3 6 9) (wPair Role.standby PairState.query) = true ∧
      ({ port := 4, src := 224, hsr := none : Rx }.port = 4 ∨
      ringReceives (wPair Role.standby PairState.query) { port := 4, src := 224, hsr := none : Rx }.port = true ∧
      { port := 4, src := 224, hsr := none : Rx }.hsr ≠ none ∧
      hsrSecond { port := 4, src := 224, hsr := none : Rx } (wPair Role.standby PairState.query) = false) ∧
      (wPair Role.standby PairState.query).pair.st = PairState.query ∧ (wPair Role.standby PairState.query).sys.role ≠ Role.active ∧
      (wPair Role.standby PairState.query).pair.client.waiting = true ∧
      (readJack (jackOf 66 1 3 6 9)).num = (wPair Role.standby PairState.query).pair.client.queryNo.toNat ∧
      (readJack (jackOf 66 1 3 6 9)).arg = 3 ∧ { port := 4, src := 224, hsr := none : Rx }.port = 4) ∧
    (wSeen.start.phase = StartPhase.idle ∧ (aRx true).port ≠ 4 ∧ jackForMe 66 (jackOf 66 1 1 6 9) wSeen = true ∧
      ringReceives wSeen (aRx true).port = true ∧ (aRx true).hsr ≠ none ∧ hsrSecond (aRx true) wSeen = true) ∧
    ((wPair Role.standby PairState.noActive).start.phase = StartPhase.idle ∧ pairRuns (wPair Role.standby PairState.noActive) = true ∧
      (wPair Role.standby PairState.noActive).pair.st = PairState.noActive) ∧
    ((wOldWord (wSilent Role.standby PairState.standby)).start.phase = StartPhase.idle ∧
      pairRuns (wOldWord (wSilent Role.standby PairState.standby)) = true ∧
      (wOldWord (wSilent Role.standby PairState.standby)).pair.st = PairState.standby ∧
      (wOldWord (wSilent Role.standby PairState.standby)).pair.linkDown = true ∧
      (wOldWord (wSilent Role.standby PairState.standby)).pair.mismatch = false ∧
      (wOldWord (wSilent Role.standby PairState.standby)).pair.client.answerAt + 10000000 ≤ (wOldWord (wSilent Role.standby
      PairState.standby)).mono) ∧
    ((wSilent Role.standby PairState.standby).start.phase = StartPhase.idle ∧ pairRuns (wSilent Role.standby PairState.standby) = true ∧
      (wSilent Role.standby PairState.standby).pair.st = PairState.standby ∧
      (wSilent Role.standby PairState.standby).pair.linkDown = true ∧ (wSilent Role.standby PairState.standby).pair.mismatch = false ∧
      (wSilent Role.standby PairState.standby).mono < (wSilent Role.standby PairState.standby).pair.client.answerAt + 10000000) ∧
    ((wPair Role.active PairState.active).start.phase = StartPhase.idle ∧ pairRuns (wPair Role.active PairState.active) = true ∧
      ((wPair Role.active PairState.active).pair.client.notifyAt = none ∨
      ∃ n, (wPair Role.active PairState.active).pair.client.notifyAt = some n ∧
      (n + if (wPair Role.active PairState.active).pair.client.fastNotify = true then 10000000 else 1000000000) ≤ (wPair Role.active
      PairState.active).mono)) ∧
    ((wSilent Role.active PairState.active).start.phase = StartPhase.idle ∧ pairRuns (wSilent Role.active PairState.active) = true ∧
      ∃ n ∈ (wSilent Role.active PairState.active).pair.client.notifyAt,
      (wSilent Role.active PairState.active).mono < n + if (wSilent Role.active PairState.active).pair.client.fastNotify = true then
      10000000 else 1000000000) ∧
    ((wPair Role.active PairState.active).start.phase = StartPhase.idle ∧
      jackForMe 67 (jackOf 67 1 0 4 3) (wPair Role.active PairState.active) = true ∧ { port := 4, src := 224, hsr := none : Rx }.port = 4 ∧
      (wPair Role.active PairState.active).pwr.railsOff = false ∧
      ((wPair Role.active PairState.active).sys.mode = Mode.run ∨ (wPair Role.active PairState.active).sys.mode = Mode.stop) ∧
      (wPair Role.active PairState.active).cyc.configError = false) ∧
    ((wHalted Mode.halted).start.phase = StartPhase.idle ∧ jackForMe 67 (jackOf 67 1 0 4 3) (wHalted Mode.halted) = true ∧
      { port := 4, src := 224, hsr := none : Rx }.port = 4 ∧
      ((wHalted Mode.halted).sys.mode = Mode.halted ∨ (wHalted Mode.halted).sys.mode = Mode.harbour ∨
      (wHalted Mode.halted).cyc.configError = true)) ∧
    ((wHalted Mode.halted).start.phase = StartPhase.idle ∧ jackForMe 67 (jackOf 67 1 0 4 3) (wHalted Mode.halted) = true ∧
      { port := 4, src := 224, hsr := none : Rx }.port = 4 ∧ answersProbes (wHalted Mode.halted) = false) ∧
    ((wPair Role.active PairState.active).start.phase = StartPhase.idle ∧
      jackForMe 67 (jackOf 67 1 0 4 3) (wPair Role.active PairState.active) = true ∧ { port := 4, src := 224, hsr := none : Rx }.port = 4 ∧
      answersProbes (wPair Role.active PairState.active) = true ∧
      (readJack (jackOf 67 1 0 4 3)).epoch ≤ (wPair Role.active PairState.active).pair.epoch) ∧
    ((wPair Role.active PairState.active).start.phase = StartPhase.idle ∧
      jackForMe 70 (jackOf 70 1 0 2 4) (wPair Role.active PairState.active) = true ∧
      (readJack (jackOf 70 1 0 2 4)).num = (wPair Role.active PairState.active).pair.client.notifyNo.toNat ∧
      ({ port := 4, src := 224, hsr := none : Rx }.port = 4 ∨
      ringReceives (wPair Role.active PairState.active) { port := 4, src := 224, hsr := none : Rx }.port = true ∧
      { port := 4, src := 224, hsr := none : Rx }.hsr ≠ none ∧
      hsrSecond { port := 4, src := 224, hsr := none : Rx } (wPair Role.active PairState.active) = false) ∧
      { port := 4, src := 224, hsr := none : Rx }.port = 4) :=
  by and_intros <;> decide +kernel

theorem witness_TheJackGrantsOnce :
    (jackServes (wJack jackFresh) = true ∧ { port := 4, src := 224, hsr := none : Rx }.port = 4 ∧ frameOk 65 strangeQuery = true ∧
      fld strangeQuery 2 2 = 24 ∧ ((readJack strangeQuery).side = 1 ∨ (readJack strangeQuery).side = 2) ∧
      jackIndex (wJack jackFresh) (readJack strangeQuery).pairId = none) ∧
    (jackServes (wJack jackSpent) = true ∧ { port := 4, src := 224, hsr := none : Rx }.port = 4 ∧ frameOk 65 (jackOf 65 1 2 5 7) = true ∧
      fld (jackOf 65 1 2 5 7) 2 2 = 24 ∧ ((readJack (jackOf 65 1 2 5 7)).side = 1 ∨ (readJack (jackOf 65 1 2 5 7)).side = 2) ∧
      ∃ i ∈ jackIndex (wJack jackSpent) (readJack (jackOf 65 1 2 5 7)).pairId, 4294967294 ≤ (jackAt (wJack jackSpent) i).epoch) ∧
    (jackServes (wJack jackBusy) = true ∧ { port := 4, src := 224, hsr := none : Rx }.port = 4 ∧ frameOk 65 (jackOf 65 1 2 5 7) = true ∧
      fld (jackOf 65 1 2 5 7) 2 2 = 24 ∧ ((readJack (jackOf 65 1 2 5 7)).side = 1 ∨ (readJack (jackOf 65 1 2 5 7)).side = 2) ∧
      ∃ i ∈ jackIndex (wJack jackBusy) (readJack (jackOf 65 1 2 5 7)).pairId, (jackAt (wJack jackBusy) i).epoch < 4294967294 ∧
      (jackAt (wJack jackBusy) i).busy = true) ∧
    (jackServes (wJack jackGranted) = true ∧ { port := 4, src := 224, hsr := none : Rx }.port = 4 ∧ frameOk 65 (jackOf 65 1 2 5 7) = true ∧
      fld (jackOf 65 1 2 5 7) 2 2 = 24 ∧ ((readJack (jackOf 65 1 2 5 7)).side = 1 ∨ (readJack (jackOf 65 1 2 5 7)).side = 2) ∧
      ∃ i ∈ jackIndex (wJack jackGranted) (readJack (jackOf 65 1 2 5 7)).pairId, (jackAt (wJack jackGranted) i).epoch < 4294967294 ∧
      (jackAt (wJack jackGranted) i).busy = false ∧ (jackAt (wJack jackGranted) i).owner = 3 - (readJack (jackOf 65 1 2 5 7)).side ∧
      (jackAt (wJack jackGranted) i).granted = some 8000000 ∧ (wJack jackGranted).mono < 8000000 + 10000000) ∧
    (jackServes (wJack jackFresh) = true ∧ { port := 4, src := 224, hsr := none : Rx }.port = 4 ∧ frameOk 65 (jackOf 65 1 2 5 7) = true ∧
      fld (jackOf 65 1 2 5 7) 2 2 = 24 ∧ ((readJack (jackOf 65 1 2 5 7)).side = 1 ∨ (readJack (jackOf 65 1 2 5 7)).side = 2) ∧
      ∃ i ∈ jackIndex (wJack jackFresh) (readJack (jackOf 65 1 2 5 7)).pairId, (jackAt (wJack jackFresh) i).epoch < 4294967294 ∧
      (jackAt (wJack jackFresh) i).busy = false ∧
      ((jackAt (wJack jackFresh) i).owner ≠ 3 - (readJack (jackOf 65 1 2 5 7)).side ∨ (jackAt (wJack jackFresh) i).granted = none)) ∧
    (jackServes (wJack jackBusy) = true ∧ { port := 4, src := 224, hsr := none : Rx }.port = 4 ∧ frameOk 68 (jackOf 68 2 2 3 9) = true ∧
      fld (jackOf 68 2 2 3 9) 2 2 = 24 ∧ jackIndex (wJack jackBusy) (readJack (jackOf 68 2 2 3 9)).pairId = some 0 ∧
      (jackAt (wJack jackBusy) 0).busy = true ∧ (readJack (jackOf 68 2 2 3 9)).side = 3 - (jackAt (wJack jackBusy) 0).querier ∧
      (readJack (jackOf 68 2 2 3 9)).num = (jackAt (wJack jackBusy) 0).probeNo ∧ (readJack (jackOf 68 2 2 3 9)).arg = 2 ∧
      (jackAt (wJack jackBusy) 0).epoch ≤ (readJack (jackOf 68 2 2 3 9)).epoch) ∧
    (jackServes (wJack jackBusy) = true ∧ { port := 4, src := 224, hsr := none : Rx }.port = 4 ∧ frameOk 68 (jackOf 68 2 3 3 9) = true ∧
      fld (jackOf 68 2 3 3 9) 2 2 = 24 ∧ jackIndex (wJack jackBusy) (readJack (jackOf 68 2 3 3 9)).pairId = some 0 ∧
      (jackAt (wJack jackBusy) 0).busy = true ∧ (readJack (jackOf 68 2 3 3 9)).side = 3 - (jackAt (wJack jackBusy) 0).querier ∧
      (readJack (jackOf 68 2 3 3 9)).num = (jackAt (wJack jackBusy) 0).probeNo ∧ (readJack (jackOf 68 2 3 3 9)).arg ≠ 2) ∧
    (jackServes (wJack jackBusy) = true ∧ (jackAt (wJack jackBusy) 0).busy = true) ∧
    (jackServes (wJack jackFresh) = true ∧ { port := 4, src := 224, hsr := none : Rx }.port = 4 ∧ frameOk 69 (jackOf 69 1 2 5 9) = true ∧
      fld (jackOf 69 1 2 5 9) 2 2 = 24 ∧ ((readJack (jackOf 69 1 2 5 9)).side = 1 ∨ (readJack (jackOf 69 1 2 5 9)).side = 2) ∧
      jackIndex (wJack jackFresh) (readJack (jackOf 69 1 2 5 9)).pairId = some 0 ∧ (readJack (jackOf 69 1 2 5 9)).side = 1) ∧
    (jackServes (wJack jackFresh) = true ∧ { port := 4, src := 224, hsr := none : Rx }.port = 4 ∧ frameOk 69 (jackOf 69 2 2 5 9) = true ∧
      fld (jackOf 69 2 2 5 9) 2 2 = 24 ∧ ((readJack (jackOf 69 2 2 5 9)).side = 1 ∨ (readJack (jackOf 69 2 2 5 9)).side = 2) ∧
      jackIndex (wJack jackFresh) (readJack (jackOf 69 2 2 5 9)).pairId = some 0 ∧ (readJack (jackOf 69 2 2 5 9)).side = 2) ∧
    (jackServes (wJack jackFresh) = true ∧ { port := 4, src := 224, hsr := none : Rx }.port = 4 ∧ frameOk 69 (jackOf 69 1 2 5 9) = true ∧
      fld (jackOf 69 1 2 5 9) 2 2 = 24 ∧ ((readJack (jackOf 69 1 2 5 9)).side = 1 ∨ (readJack (jackOf 69 1 2 5 9)).side = 2) ∧
      jackIndex (wJack jackFresh) (readJack (jackOf 69 1 2 5 9)).pairId = some 0 ∧ (readJack (jackOf 69 1 2 5 9)).arg = 2 ∧
      (jackAt (wJack jackFresh) 0).epoch ≤ (readJack (jackOf 69 1 2 5 9)).epoch) ∧
    State.reset.mono < State.reset.pair.client.lastAnswer + 1500000000 ∧
    (wOldWord wHeard).pair.client.lastAnswer + 1500000000 ≤ (wOldWord wHeard).mono ∧
    0 < (wJack jackFresh).pair.jack.length :=
  by and_intros <;> decide +kernel

theorem witness_CyclesAreReleasedFrozenAndPosted :
    instantArrives State.reset 0 = false ∧
    (instantArrives (wTask 0 Mode.run 0) 0 = true ∧ (wTask 0 Mode.run 0).pair.cmd = none ∧ (wTask 0 Mode.run 0).pair.accepted = none ∧
      (wTask 0 Mode.run 0).cyc.pendingReq = none ∧ (wTask 0 Mode.run 0).sys.mode = Mode.run ∧
      (wTask 0 Mode.run 0).hoist.skipNext.contains (0, (taskAt (wTask 0 Mode.run 0) 0).nextM) = false ∧
      (taskAt (wTask 0 Mode.run 0) 0).cycleAt = none) ∧
    (instantArrives (wTask 4 Mode.run 0) 4 = true ∧ (wTask 4 Mode.run 0).pair.cmd = none ∧ (wTask 4 Mode.run 0).pair.accepted = none ∧
      (wTask 4 Mode.run 0).cyc.pendingReq = none ∧ (wTask 4 Mode.run 0).sys.mode = Mode.run ∧
      (wTask 4 Mode.run 0).hoist.skipNext.contains (4, (taskAt (wTask 4 Mode.run 0) 4).nextM) = false ∧
      ∃ t0 ∈ (taskAt (wTask 4 Mode.run 0) 4).cycleAt, (wTask 4 Mode.run 0).sys.level ≠ 1) ∧
    (instantArrives (wTask 4 Mode.run 1) 4 = true ∧ (wTask 4 Mode.run 1).pair.cmd = none ∧ (wTask 4 Mode.run 1).pair.accepted = none ∧
      (wTask 4 Mode.run 1).cyc.pendingReq = none ∧ (wTask 4 Mode.run 1).sys.mode = Mode.run ∧
      (wTask 4 Mode.run 1).hoist.skipNext.contains (4, (taskAt (wTask 4 Mode.run 1) 4).nextM) = false ∧
      ∃ t0 ∈ (taskAt (wTask 4 Mode.run 1) 4).cycleAt, (wTask 4 Mode.run 1).sys.level = 1 ∧ (taskAt (wTask 4 Mode.run 1) 4).held = none) ∧
    (instantArrives (wTask 5 Mode.run 1) 5 = true ∧ (wTask 5 Mode.run 1).pair.cmd = none ∧ (wTask 5 Mode.run 1).pair.accepted = none ∧
      (wTask 5 Mode.run 1).cyc.pendingReq = none ∧ (wTask 5 Mode.run 1).sys.mode = Mode.run ∧
      (wTask 5 Mode.run 1).hoist.skipNext.contains (5, (taskAt (wTask 5 Mode.run 1) 5).nextM) = false ∧
      ∃ t0 ∈ (taskAt (wTask 5 Mode.run 1) 5).cycleAt, (wTask 5 Mode.run 1).sys.level = 1 ∧ (taskAt (wTask 5 Mode.run 1) 5).held ≠ none) ∧
    (instantArrives (wTask 0 Mode.stop 0) 0 = true ∧ (wTask 0 Mode.stop 0).pair.cmd = none ∧ (wTask 0 Mode.stop 0).pair.accepted = none ∧
      (wTask 0 Mode.stop 0).cyc.pendingReq = none ∧ (wTask 0 Mode.stop 0).sys.mode ≠ Mode.run) ∧
    (∃ t0 ∈ (taskAt wCycBoth 1).cycleAt, (taskAt wCycBoth 1).started = false ∧ (heldBack wCycBoth 1 = true ∨ switchHolds wCycBoth = true)) ∧
    (∃ t0 ∈ (taskAt wFreezeBad 1).cycleAt, (taskAt wFreezeBad 1).started = false ∧ heldBack wFreezeBad 1 = false ∧
      switchHolds wFreezeBad = false ∧ wFreezeBad.sys.mode ≠ Mode.halted ∧ wFreezeBad.hoist.memDue.any (memDueAt wFreezeBad 1) = false ∧
      ∃ p ∈ (blockRead Owner.cpu (freezeErrors wFreezeBad 1) wFreezeBad).1, railsOn wFreezeBad = true ∧
      wFreezeBad.sys.mode ≠ Mode.harbour) ∧
    (∃ t0 ∈ (taskAt wCycBoth 0).cycleAt, (taskAt wCycBoth 0).started = false ∧ heldBack wCycBoth 0 = false ∧ switchHolds wCycBoth = false ∧
      wCycBoth.sys.mode ≠ Mode.halted ∧ wCycBoth.hoist.memDue.any (memDueAt wCycBoth 0) = false ∧ freezeErrors wCycBoth 0 = []) ∧
    cycleExpired (wTask 4 Mode.run 1) (writePointOf 4).task = true ∧
    (∃ t0 ∈ (taskAt (wStoring true) storePoint.task).cycleAt, (taskAt (wStoring true) storePoint.task).started = true ∧
      heldBack (wStoring true) storePoint.task = false ∧ instantMissed (wStoring true) = false ∧
      cycleExpired (wStoring true) storePoint.task = false ∧
      (forAll storePoint.stores (storeInstance storePoint.task) (wStoring true)).sys.mode = Mode.halted) ∧
    (∃ t0 ∈ (taskAt (wStoring false) storePoint.task).cycleAt, (taskAt (wStoring false) storePoint.task).started = true ∧
      heldBack (wStoring false) storePoint.task = false ∧ instantMissed (wStoring false) = false ∧
      cycleExpired (wStoring false) storePoint.task = false ∧
      (forAll storePoint.stores (storeInstance storePoint.task) (wStoring false)).sys.mode ≠ Mode.halted ∧
      (taskAt (wStoring false) storePoint.task).held = none) ∧
    (∃ t0 ∈ (taskAt (wTask 3 Mode.run 0) (writePointOf 3).task).cycleAt,
      (taskAt (wTask 3 Mode.run 0) (writePointOf 3).task).started = true ∧ heldBack (wTask 3 Mode.run 0) (writePointOf 3).task = false ∧
      instantMissed (wTask 3 Mode.run 0) = false ∧ cycleExpired (wTask 3 Mode.run 0) (writePointOf 3).task = false ∧
      (forAll (writePointOf 3).stores (storeInstance (writePointOf 3).task) (wTask 3 Mode.run 0)).sys.mode ≠ Mode.halted ∧
      (taskAt (wTask 3 Mode.run 0) (writePointOf 3).task).skipped = 0) ∧
    (∃ t0 ∈ (taskAt (wStoring false) storePoint.task).cycleAt, (taskAt (wStoring false) storePoint.task).started = true ∧
      heldBack (wStoring false) storePoint.task = false ∧ instantMissed (wStoring false) = false ∧
      cycleExpired (wStoring false) storePoint.task = false ∧
      (forAll storePoint.stores (storeInstance storePoint.task) (wStoring false)).sys.mode ≠ Mode.halted ∧ (wStoring false).sys.level ≠ 1 ∧
      (taskAt (wStoring false) storePoint.task).skipped ≠ 0 ∧ (taskAt (wStoring false) storePoint.task).escalate ≠ 0 ∧
      (taskAt (wStoring false) storePoint.task).escalate ≤ min ((taskAt (wStoring false) storePoint.task).consec + 1) 255) ∧
    (railsOn wCycBoth = true ∧ wCycBoth.sys.pll = true) ∧
    (clockRequested State.reset Clock.core = false ∧ clockHeld State.reset Clock.core = false ∧ Steady State.reset) ∧
    (wCycBoth.pwr.railsOff = false ∧ wCycBoth.sys.pll = true) :=
  by unfold Steady; and_intros <;> decide +kernel

theorem witness_ModesAndHalts :
    ((wCyc Mode.stop 0).cyc.pendingReq = none ∧ (wCyc Mode.stop 0).pair.cmd = none ∧ (wCyc Mode.stop 0).sys.role = Role.solo ∧
      (wCyc Mode.stop 0).olc.phase = OlcPhase.idle ∧ ((wCyc Mode.stop 0).sys.mode = Mode.stop ∨ (wCyc Mode.stop 0).sys.mode = Mode.hold) ∧
      (wCyc Mode.stop 0).cyc.configError = false) ∧
    (wCycBoth.cyc.pendingReq = none ∧ wCycBoth.pair.cmd = none ∧ wCycBoth.sys.role = Role.solo ∧ wCycBoth.olc.phase = OlcPhase.idle ∧
      (wCycBoth.sys.mode = Mode.run ∨ wCycBoth.sys.mode = Mode.hold)) ∧
    (wCycBoth.cyc.pendingReq = none ∧ wCycBoth.pair.cmd = none ∧ wCycBoth.sys.role = Role.solo ∧ wCycBoth.olc.phase = OlcPhase.idle ∧
      (wCycBoth.sys.mode = Mode.stop ∨ wCycBoth.sys.mode = Mode.run) ∧ wCycBoth.cyc.configError = false ∧
      (hdr wCycBoth).flags.testBit 1 = true) ∧
    ((wReq Mode.run 1).cyc.pendingReq ≠ none ∧ (0 = 0 ∨ 5 ≤ 0)) ∧
    (State.reset.cyc.pendingReq = none ∧ State.reset.pair.cmd = none ∧ State.reset.sys.mode ≠ Mode.stop ∧
      State.reset.sys.mode ≠ Mode.hold) ∧
    (wConfigError.cyc.pendingReq = none ∧ wConfigError.pair.cmd = none ∧ wConfigError.sys.mode = Mode.stop ∧
      wConfigError.cyc.configError = true) ∧
    (State.reset.cyc.pendingReq = none ∧ State.reset.pair.cmd = none ∧ State.reset.sys.mode ≠ Mode.run ∧ State.reset.sys.mode ≠ Mode.hold) ∧
    (State.reset.cyc.pendingReq = none ∧ State.reset.pair.cmd = none ∧ (0 = 0 ∨ 5 ≤ 0)) ∧
    (wNotDue.pair.cmd = none ∧ wNotDue.pair.accepted = none ∧ wNotDue.cyc.pendingReq = some laterReq ∧ laterReq.byPair = false ∧
      wNotDue.mono < laterReq.due) ∧
    ((wReq Mode.stop 1).pair.cmd = none ∧ (wReq Mode.stop 1).pair.accepted = none ∧
      (wReq Mode.stop 1).cyc.pendingReq = some (modeReqOf 1) ∧ (modeReqOf 1).byPair = false ∧ (modeReqOf 1).due ≤ (wReq Mode.stop 1).mono ∧
      (modeReqOf 1).code = 1 ∧ (wReq Mode.stop 1).sys.mode = Mode.stop) ∧
    ((wReq Mode.run 2).pair.cmd = none ∧ (wReq Mode.run 2).pair.accepted = none ∧ (wReq Mode.run 2).cyc.pendingReq = some (modeReqOf 2) ∧
      (modeReqOf 2).byPair = false ∧ (modeReqOf 2).due ≤ (wReq Mode.run 2).mono ∧ ((modeReqOf 2).code = 2 ∧
      Mode.stop = Mode.stop ∨ (modeReqOf 2).code = 3 ∧ Mode.stop = Mode.hold ∧ holdAllowed (wReq Mode.run 2) = true) ∧
      (wReq Mode.run 2).sys.mode = Mode.run) ∧
    (wHoldOff.pair.cmd = none ∧ wHoldOff.pair.accepted = none ∧ wHoldOff.cyc.pendingReq = some (modeReqOf 3) ∧
      (modeReqOf 3).byPair = false ∧ (modeReqOf 3).due ≤ wHoldOff.mono ∧ (modeReqOf 3).code = 3 ∧ holdAllowed wHoldOff = false) ∧
    cyclesRun State.reset = false ∧
    (railsOn (wTask 6 Mode.run 0) = true ∧ (wTask 6 Mode.run 0).sys.mode ≠ Mode.harbour ∧ (wTask 6 Mode.run 0).sys.mode ≠ Mode.halted ∧
      ∃ t0 ∈ (taskAt (wTask 6 Mode.run 0) 6).cycleAt, (wTask 6 Mode.run 0).sys.level ≠ 1 ∧
      t0 + min (10 * (taskAt (wTask 6 Mode.run 0) 6).period * 1000000) 2000000000 < (wTask 6 Mode.run 0).mono) ∧
    (railsOn (wTask 4 Mode.run 1) = true ∧ (wTask 4 Mode.run 1).sys.mode ≠ Mode.harbour ∧ (wTask 4 Mode.run 1).sys.mode ≠ Mode.halted ∧
      ∃ t0 ∈ (taskAt (wTask 4 Mode.run 1) 4).cycleAt, (wTask 4 Mode.run 1).sys.level = 1 ∧
      t0 + ((taskAt (wTask 4 Mode.run 1) 4).period + (taskAt (wTask 4 Mode.run 1) 4).wdMargin) * 1000000 ≤ (wTask 4 Mode.run 1).mono) ∧
    cycleExpired State.reset 0 = false ∧
    (wCyc Mode.run 1).sys.level = 1 ∧
    State.reset.sys.level ≠ 1 :=
  by and_intros <;> decide +kernel

theorem witness_ForcesAndNativeCalls :
    (forcePermitted wCycBoth = true ∧ wCycBoth.cyc.forceSel ≠ 0 ∧ sigDefined wCycBoth wCycBoth.cyc.forceSel = true ∧
      wCycBoth.cyc.forces.length < 256) ∧
    (forcePermitted State.reset = false ∨ State.reset.cyc.forceSel = 0 ∨ sigDefined State.reset State.reset.cyc.forceSel = false) ∧
    ((wForce [(9000100, ForceOp.put 1 (77 : Datum))] []).cyc.forceOps = [(9000100, ForceOp.put 1 (77 : Datum))] ∧
      (wForce [(9000100, ForceOp.put 1 (77 : Datum))] []).mono < 9000100) ∧
    ((wForce [(0, ForceOp.put 1 (77 : Datum))] []).cyc.forceOps = [(0, ForceOp.put 1 (77 : Datum))] ∧
      0 ≤ (wForce [(0, ForceOp.put 1 (77 : Datum))] []).mono ∧ look 1 (wForce [(0, ForceOp.put 1 (77 : Datum))] []).cyc.forces = none ∧
      (wForce [(0, ForceOp.put 1 (77 : Datum))] []).cyc.forces.length < 256 ∧
      sigDefined (wForce [(0, ForceOp.put 1 (77 : Datum))] []) 1 = true ∧
      sourceItem (wForce [(0, ForceOp.put 1 (77 : Datum))] []) (sigEntry (wForce [(0, ForceOp.put 1 (77 : Datum))] []) 1) = none) ∧
    ((wForce [(0, ForceOp.release 1)] [(1, aForce)]).cyc.forceOps = [(0, ForceOp.release 1)] ∧
      0 ≤ (wForce [(0, ForceOp.release 1)] [(1, aForce)]).mono ∧
      look 1 (wForce [(0, ForceOp.release 1)] [(1, aForce)]).cyc.forces = some aForce ∧
      sigDefined (wForce [(0, ForceOp.release 1)] [(1, aForce)]) 1 = true ∧
      sourceItem (wForce [(0, ForceOp.release 1)] [(1, aForce)]) (sigEntry (wForce [(0, ForceOp.release 1)] [(1, aForce)]) 1) = none) ∧
    ((nativeAt wCycBoth 0).banks.testBit 0 = true ∧ 0 ≠ 10 ∧ (bankAt wCycBoth 0).owner = Owner.cpu ∧ 0 + 0 ≤ 1024) ∧
    ((nativeAt State.reset 0).banks.testBit 0 = false ∨ 0 = 10 ∨ (bankAt State.reset 0).owner ≠ Owner.cpu ∨ 1024 < 0 + 0) ∧
    (wCycBoth.cyc.pendingReq = none ∧ wCycBoth.pair.cmd = none ∧ wCycBoth.sys.role = Role.solo ∧ wCycBoth.olc.phase = OlcPhase.idle ∧
      wCycBoth.sys.mode = Mode.run) :=
  by and_intros <;> decide +kernel

theorem witness_StartsEndInTheirResult :
    (coldStartDue State.reset = true ∧ (startIn false true none).locked = false) ∧
    (coldStartDue State.reset = true ∧ (startIn true false none).locked = true ∧ (startIn true false none).coder = false ∧
      (startIn true false none).domainLost = false) ∧
    coldStartDue (wRestart Mode.stop) = false ∧
    ((wRestart Mode.stop).cyc.pendingReq = none ∧
      ((wRestart Mode.stop).sys.mode = Mode.stop ∨ (wRestart Mode.stop).sys.mode = Mode.halted) ∧
      (startIn false true none).locked = false) ∧
    ((wRestart Mode.stop).cyc.pendingReq = none ∧
      ((wRestart Mode.stop).sys.mode = Mode.stop ∨ (wRestart Mode.stop).sys.mode = Mode.halted) ∧ (startIn true false none).locked = true ∧
      (startIn true false none).coder = false ∧ (startIn true false none).domainLost = false) ∧
    (State.reset.cyc.pendingReq = none ∧ State.reset.sys.mode ≠ Mode.stop ∧ State.reset.sys.mode ≠ Mode.halted) ∧
    ((wWake true [WakeSource.wakeInput]).sys.mode = Mode.harbour ∧
      ∃ w ∈ List.find? (fun v => wakeAction (wWake true [WakeSource.wakeInput]) v == 2) (wWake true [WakeSource.wakeInput]).pwr.wakeWait,
      (wWake true [WakeSource.wakeInput]).pwr.retentionLost = true ∧ (startIn false true none).locked = false) ∧
    ((wWake true [WakeSource.wakeInput]).sys.mode = Mode.harbour ∧
      ∃ w ∈ List.find? (fun v => wakeAction (wWake true [WakeSource.wakeInput]) v == 2) (wWake true [WakeSource.wakeInput]).pwr.wakeWait,
      (wWake true [WakeSource.wakeInput]).pwr.retentionLost = true ∧ (startIn true false none).locked = true ∧
      (startIn true false none).coder = false ∧ (startIn true false none).domainLost = false) ∧
    ((wWake false [WakeSource.alarm0]).sys.mode = Mode.harbour ∧
      (List.find? (fun v => wakeAction (wWake false [WakeSource.alarm0]) v == 2) (wWake false [WakeSource.alarm0]).pwr.wakeWait = none) ∧
      (List.find? (fun v => wakeAction (wWake false [WakeSource.alarm0]) v == 1) (wWake false [WakeSource.alarm0]).pwr.wakeWait = some
      WakeSource.alarm0) ∧ (wWake false [WakeSource.alarm0]).pwr.retentionLost = false ∧
      (wWake false [WakeSource.alarm0]).pwr.hbr = HbrPhase.asleep) :=
  by and_intros <;> decide +kernel

theorem witness_RolesAreTakenAndTheKeyLeaves :
    ((wLinkWait 0 1).start.phase = StartPhase.linkWait ∧ ((hdr (wLinkWait 0 1)).kind = 0 ∧
      Role.solo = Role.solo ∨ (hdr (wLinkWait 0 1)).kind = 3 ∧ Role.solo = Role.jack) ∧ (hdr (wLinkWait 0 1)).flags.testBit 0 = true) ∧
    ((wLinkWait 0 0).start.phase = StartPhase.linkWait ∧ ((hdr (wLinkWait 0 0)).kind = 0 ∧
      Role.solo = Role.solo ∨ (hdr (wLinkWait 0 0)).kind = 3 ∧ Role.solo = Role.jack) ∧ (hdr (wLinkWait 0 0)).flags.testBit 0 = false) ∧
    ((wLinkWait 1 0).start.phase = StartPhase.linkWait ∧ ((hdr (wLinkWait 1 0)).kind = 1 ∨ (hdr (wLinkWait 1 0)).kind = 2)) ∧
    ((wListen []).start.phase = StartPhase.listening ∧ (∀ p ∈ (wListen []).start.heard, p.role ≠ 2)) ∧
    ((wListen [otherActive]).start.phase = StartPhase.listening ∧ (wListen [otherActive]).start.heard = [otherActive] ∧
      otherActive.role = 2 ∧ (otherActive.digest ≠ (wListen [otherActive]).olc.digest ∨
      otherActive.gen ≠ (wListen [otherActive]).olc.gen)) ∧
    ((wListen [heardT0]).start.phase = StartPhase.listening ∧ (wListen [heardT0]).start.heard = [heardT0] ∧ heardT0.role = 2 ∧
      heardT0.side ≠ (wListen [heardT0]).pair.side ∧ heardT0.digest = (wListen [heardT0]).olc.digest ∧
      heardT0.gen = (wListen [heardT0]).olc.gen ∧ heardT0.nextT0 ≠ 0) ∧
    startRuns (wLinkWait 0 0) = true ∧
    startRuns State.reset = false ∧
    (keySensed (wRestart Mode.stop) = true ∧ (wRestart Mode.stop).start.keyOut = false) ∧
    (keySensed wOutAlready = true ∧ wOutAlready.start.keyOut = true ∧ wOutAlready.sys.mode ≠ Mode.run ∧
      wOutAlready.olc.phase = OlcPhase.idle) ∧
    (wBadCopy.sys.mode = Mode.run ∧ wBadCopy.olc.phase = OlcPhase.idle ∧ keyWritable wBadCopy = true ∧
      wBadCopy.start.bad = [badDirectory] ∧ repairOf wBadCopy badDirectory = some (theRepair.1, theRepair.2) ∧ Key.wf wBadCopy = true) ∧
    (wBadCopy.sys.mode = Mode.run ∧ wBadCopy.olc.phase = OlcPhase.idle ∧ keyWritable wBadCopy = true ∧
      wBadCopy.start.bad = [badDirectory] ∧ repairOf wBadCopy badDirectory = some (theRepair.1, theRepair.2)) :=
  by and_intros <;> decide +kernel

theorem witness_ThePlantPortAdmits :
    ((plantUp (wPlant Role.solo someSessions) = true ∧ vidTaken (wPlant Role.solo someSessions) 0 = true) ∧
    (plantUp State.reset = false ∨ vidTaken State.reset { ip := 9, mac := 85 : PlantPeer }.vid = false) ∧
    (plantUp (wPlant Role.solo someSessions) = true ∧
      vidTaken (wPlant Role.solo someSessions) { ip := 9, mac := 85 : PlantPeer }.vid = true ∧
      (wPlant Role.solo someSessions).plant.sessions.length = 4 ∧ 3 < 4 ∧ (sessionAt (wPlant Role.solo someSessions) 3).st = 0 ∧
      (∀ j < 3, (sessionAt (wPlant Role.solo someSessions) j).st ≠ 0)) ∧
    (plantUp wFull = true ∧ vidTaken wFull { ip := 9, mac := 85 : PlantPeer }.vid = true ∧ wFull.plant.sessions.length = 4 ∧
      (∀ j < 4, (sessionAt wFull j).st ≠ 0)) ∧
    ((sessionAt (wPlant Role.solo someSessions) 2).st = 1 ∧ (wPlant Role.solo someSessions).rtc.valid = false) ∧
    ((sessionAt (wLocked true) 2).st = 1 ∧ tlsAgrees (wLocked true) aClient = none) ∧
    ((sessionAt (wPlant Role.solo someSessions) 2).st = 1 ∧ (tlsAgrees (wPlant Role.solo someSessions) aClient).isSome = true) ∧
    ((sessionAt (wPlant Role.solo someSessions) 2).st = 1 ∧ admits (wPlant Role.solo someSessions) aClient = none) ∧
    State.reset.mono < (sessionAt State.reset 0).heardAt + 120000000000 ∧
    (sessionAt wIdleSessions 0).heardAt + 120000000000 ≤ wIdleSessions.mono ∧
    sessionReads (wPlant Role.solo someSessions) (plantReq 0 true) = true) ∧
    (∀ x ∈ [svcIdentify, svcRegRead, svcRegWrite, svcLogBulk, svcDictionary, svcKeyRead, svcOlcPiece, svcEnrol, svcIdentity, svcReauthorise,
      svcMessage, svcMessageSend], sessionReads (wPlant .solo someSessions) (plantReq 0 false) = true ∧
      serviceCheck (wPlant .solo someSessions) x (plantReq 0 false) ≠ .ok) :=
  ⟨by and_intros <;> decide +kernel, by decide +kernel⟩

theorem witness_ServicesAnswer :
    (sessionReads (wPlant Role.solo someSessions) (plantReq 0 true) = true ∧
      serviceCheck (wPlant Role.solo someSessions) svcLogBulk (plantReq 0 true) = PStatus.ok ∧ 1 ≤ 1 ∧ 1 ≤ 512 ∧ 0 + 1 ≤ slotTotal ∧
      ((List.flatMap (fun i => slotBytes (wPlant Role.solo someSessions) (0 + i)) (List.range 1)).length ≤ bodyMax)) ∧
    (sessionReads (wPlant Role.solo someSessions) (plantReq 0 true) = true ∧
      serviceCheck (wPlant Role.solo someSessions) svcDictionary (plantReq 0 true) = PStatus.ok ∧
      ((List.flatMap (fun i => Config.dictionaryEntry (wPlant Role.solo someSessions).sys.level (0 + i)) (List.range 0)).length ≤ bodyMax))
      ∧
    (sessionReads (wPlant Role.solo someSessions) (plantReq 0 true) = true ∧
      serviceCheck (wPlant Role.solo someSessions) svcKeyRead (plantReq 0 true) = PStatus.ok ∧ 0 ≤ 1 ∧ 0 ≤ 65536 ∧ 0 + 0 ≤ setBytes ∧
      keyThere (wPlant Role.solo someSessions) = true ∧ (keyBytes (wPlant Role.solo someSessions) (setBase 0 + 0) 0).length ≤ bodyMax) ∧
    (sessionReads wNoCarrier (plantReq 0 true) = true ∧ serviceCheck wNoCarrier svcKeyRead (plantReq 0 true) = PStatus.ok ∧ 0 ≤ 1 ∧
      0 ≤ 65536 ∧ 0 + 0 ≤ setBytes ∧ keyThere wNoCarrier = false) ∧
    (sessionReads (wPlant Role.solo someSessions) (plantReq 0 true) = true ∧
      serviceCheck (wPlant Role.solo someSessions) svcEnrol (plantReq 0 true) = PStatus.ok ∧
      signerCertOk (wPlant Role.solo someSessions) [(1 : Byte), (2 : Byte), (3 : Byte)] = false) ∧
    (sessionReads (wPlant Role.solo someSessions) (plantReq 0 true) = true ∧
      serviceCheck (wPlant Role.solo someSessions) svcIdentity (plantReq 0 true) = PStatus.ok ∧
      (wPlant Role.solo someSessions).sec.hasKey = true) ∧
    (sessionReads wNoPrivate (plantReq 0 true) = true ∧ serviceCheck wNoPrivate svcIdentity (plantReq 0 true) = PStatus.ok ∧
      wNoPrivate.sec.hasKey = false) ∧
    (sessionReads (wPlant Role.solo someSessions) (plantReq 0 true) = true ∧
      serviceCheck (wPlant Role.solo someSessions) svcIdentity (plantReq 0 true) = PStatus.ok ∧
      (0 ≠ (wPlant Role.solo someSessions).sec.idX ∨ 0 ≠ (wPlant Role.solo someSessions).sec.idY)) ∧
    (sessionReads (wPlant Role.solo someSessions) (plantReq 0 true) = true ∧
      serviceCheck (wPlant Role.solo someSessions) svcReauthorise (plantReq 0 true) = PStatus.ok ∧
      lockStands (wPlant Role.solo someSessions) = false) ∧
    (sessionReads (wLocked true) (plantReq 0 true) = true ∧ serviceCheck (wLocked true) svcReauthorise (plantReq 0 true) = PStatus.ok ∧
      lockStands (wLocked true) = true) ∧
    (sessionReads (wPlant Role.solo someSessions) (plantReq 0 true) = true ∧
      serviceCheck (wPlant Role.solo someSessions) svcMessage (plantReq 0 true) = PStatus.ok ∧ 0 < 4) ∧
    (sessionReads (wPlant Role.standby someSessions) (plantReq 0 true) = true ∧
      serviceCheck (wPlant Role.standby someSessions) svcMessageSend (plantReq 0 true) = PStatus.ok ∧ 0 < 4 ∧
      [(1 : Byte), (2 : Byte), (3 : Byte)].length ≤ 1024 ∧ (wPlant Role.standby someSessions).sys.role = Role.standby) ∧
    (sessionReads (wPlant Role.solo someSessions) (plantReq 0 true) = true ∧
      serviceCheck (wPlant Role.solo someSessions) svcMessageSend (plantReq 0 true) = PStatus.ok ∧ 0 < 4 ∧
      [(1 : Byte), (2 : Byte), (3 : Byte)].length ≤ 1024 ∧ (wPlant Role.solo someSessions).sys.role ≠ Role.standby ∧
      queueOf (wPlant Role.solo someSessions) userPlant 0 1 = some 0 ∧
      reserveUsed (wPlant Role.solo someSessions) 0 < (queueAt (wPlant Role.solo someSessions) 0).depth ∧
      assignWaits (wPlant Role.solo someSessions) 0 = false ∧ (queueAt (wPlant Role.solo someSessions) 0).disabled = false) ∧
    (sessionReads (wPlant Role.solo someSessions) (plantReq 0 true) = true ∧
      queueOf (wPlant Role.solo someSessions) userPlant 0 0 = some 1 ∧
      (List.find? (fun d => d.queue == 1 && d.st == DescState.pending) (wPlant Role.solo someSessions).que.held = some (desc 0 1
      DescState.pending)) ∧ descOf (wPlant Role.solo someSessions) (desc 0 1 DescState.pending).handle = some (desc 0 1 DescState.pending)
      ∧ (desc 0 1 DescState.pending).expiry = none ∧ (desc 0 1 DescState.pending).owner ≠ Requester.program ∧
      dropAttempt (desc 0 1 DescState.pending).handle (wPlant Role.solo someSessions) = wPlant Role.solo someSessions) ∧
    (sessionReads wFull (plantReq 0 true) = true ∧ queueOf wFull userPlant 0 0 = some 1 ∧
      (List.find? (fun d => d.queue == 1 && d.st == DescState.pending) wFull.que.held = some (desc 0 1 DescState.pending)) ∧
      descOf wFull (desc 0 1 DescState.pending).handle = some (desc 0 1 DescState.pending) ∧ (desc 0 1 DescState.pending).expiry = none ∧
      (desc 0 1 DescState.pending).owner ≠ Requester.program ∧ channelHolders wFull 0 = []) ∧
    (sessionReads (wPlant Role.solo someSessions) (plantReq 0 true) = true ∧
      queueOf (wPlant Role.solo someSessions) userPlant 0 0 = some 1 ∧
      (List.find? (fun d => d.queue == 1 && d.st == DescState.pending) (wPlant Role.solo someSessions).que.held = some (desc 0 1
      DescState.pending)) ∧ descOf (wPlant Role.solo someSessions) (desc 0 1 DescState.pending).handle = some (desc 0 1 DescState.pending)
      ∧ (desc 0 1 DescState.pending).expiry = none ∧ (desc 0 1 DescState.pending).owner ≠ Requester.program ∧
      channelHolders (wPlant Role.solo someSessions) 0 ≠ []) :=
  by and_intros <;> decide +kernel

theorem witness_OnlineChangesRunTheirPhases :
    (sessionReads (wOlc OlcPhase.idle) (plantReq 0 true) = true ∧
      serviceCheck (wOlc OlcPhase.idle) svcOlcPiece (plantReq 0 true) = PStatus.ok ∧ partFits aPiece.part = true ∧
      (wOlc OlcPhase.idle).olc.phase = OlcPhase.idle ∧ olcCondition (wOlc OlcPhase.idle) = none ∧
      (wOlc OlcPhase.idle).sys.role = Role.solo ∧ aPiece.last = false ∧
      aPiece.part = OlcPart.data 512 [(1 : Byte), (2 : Byte), (3 : Byte)]) ∧
    (sessionReads wOlcDown (plantReq 0 true) = true ∧ serviceCheck wOlcDown svcOlcPiece (plantReq 0 true) = PStatus.ok ∧
      partFits aPiece.part = true ∧ wOlcDown.olc.phase = OlcPhase.idle ∧ olcCondition wOlcDown = some 3) ∧
    (sessionReads (wOlc OlcPhase.receiving) (plantReq 0 true) = true ∧
      serviceCheck (wOlc OlcPhase.receiving) svcOlcPiece (plantReq 0 true) = PStatus.ok ∧ partFits aPiece.part = true ∧
      (wOlc OlcPhase.receiving).olc.phase = OlcPhase.receiving ∧ (wOlc OlcPhase.receiving).olc.session = some (plantReq 0 true).session ∧
      (wOlc OlcPhase.receiving).sys.role = Role.solo ∧ aPiece.last = false ∧
      aPiece.part = OlcPart.data 512 [(1 : Byte), (2 : Byte), (3 : Byte)]) ∧
    (sessionReads wOlcReceives (plantReq 0 true) = true ∧ serviceCheck wOlcReceives svcOlcPiece (plantReq 0 true) = PStatus.ok ∧
      partFits aPiece.part = true ∧ wOlcReceives.olc.phase = OlcPhase.receiving ∧
      wOlcReceives.olc.session = some (plantReq 0 true).session ∧ wOlcReceives.sys.role ≠ Role.solo ∧ wOlcReceives.sys.role ≠ Role.active) ∧
    (sessionReads (wOlc OlcPhase.preparing) (plantReq 0 true) = true ∧
      serviceCheck (wOlc OlcPhase.preparing) svcOlcPiece (plantReq 0 true) = PStatus.ok ∧ partFits aPiece.part = true ∧
      (wOlc OlcPhase.preparing).olc.phase ≠ OlcPhase.idle ∧
      ((wOlc OlcPhase.preparing).olc.phase ≠ OlcPhase.receiving ∨ (wOlc OlcPhase.preparing).olc.session ≠ some (plantReq 0 true).session)) ∧
    (wOlcStandby.sys.role = Role.standby ∧ keyWritable wOlcStandby = true ∧
      aPiece.part = OlcPart.data 512 [(1 : Byte), (2 : Byte), (3 : Byte)] ∧ partFits aPiece.part = true ∧ aPiece.last = false ∧
      (wOlcStandby.olc.phase = OlcPhase.idle ∨ wOlcStandby.olc.phase = OlcPhase.receiving)) ∧
    ((wOlc OlcPhase.staged).olc.phase = OlcPhase.staged ∧ newSet (wOlc OlcPhase.staged) [] = none) ∧
    State.reset.olc.phase ≠ OlcPhase.staged ∧
    (wOlc OlcPhase.receiving).olc.phase.before = true ∧
    State.reset.olc.phase.before = false ∧
    ((wOlc OlcPhase.preparing).olc.phase = OlcPhase.preparing ∧ newSet (wOlc OlcPhase.preparing) [] = none) ∧
    (olcDue (wOlc OlcPhase.announced) = some (9000000, true) ∧ 9000000 ≤ (wOlc OlcPhase.announced).mono ∧
      (wOlc OlcPhase.announced).olc.phase = OlcPhase.announced ∧
      (cycleAcross (wOlc OlcPhase.announced) 9000000 = false ∨ olcOwn (wOlc OlcPhase.announced) = false) ∧
      (forAll (List.range 8) applyMemDue (wOlc OlcPhase.announced)).sys.mode ≠ Mode.halted ∧ newSet (wOlc OlcPhase.announced) [] = none) ∧
    (olcDue wOlcAcross = some (9000000, true) ∧ 9000000 ≤ wOlcAcross.mono ∧ wOlcAcross.olc.phase = OlcPhase.announced ∧
      cycleAcross wOlcAcross 9000000 = true ∧ olcOwn wOlcAcross = true ∧ wOlcAcross.sys.role ≠ Role.standby ∧
      (if wOlcAcross.sys.mode = Mode.stop then nextMs wOlcAcross.mono else t0Ahead wOlcAcross 1) ≤ wOlcAcross.olc.preparedAt + 60000000000)
      ∧
    ((wOlcLate.olc.phase = OlcPhase.prepared ∨ wOlcLate.olc.phase = OlcPhase.announced) ∧
      wOlcLate.olc.preparedAt + 60000000000 ≤ wOlcLate.mono) ∧
    State.reset.mono < State.reset.olc.preparedAt + 60000000000 ∧
    ((wConfirm 0).olc.phase = OlcPhase.confirming ∧ keyWritable (wConfirm 0) = true) ∧
    ((wConfirm 0).olc.phase = OlcPhase.confirming ∧ keyWritable (wConfirm 0) = true ∧ (wConfirm 0).olc.retries < 3) ∧
    ((wConfirm 3).olc.phase = OlcPhase.confirming ∧ keyWritable (wConfirm 3) = true ∧ 3 ≤ (wConfirm 3).olc.retries) :=
  by and_intros <;> decide +kernel

theorem witness_SerialLinesTransact :
    (1 ≤ 1 ∧ 1 ≤ (wSerial none).ser.lines.length ∧ (serLine (wSerial none) 1).role = 1 ∧ (serLine (wSerial none) 1).tx = none ∧
      serTxAllowed (wSerial none) = true ∧ waitingEntry (wSerial none) 1 = none ∧ nextDue (wSerial none) 1 = some masterItem) ∧
    (1 ≤ 1 ∧ 1 ≤ (wSerial none).ser.lines.length ∧ (serLine (wSerial none) 1).role = 1 ∧ (serFrameOf false 9 []).crcOk = false) ∧
    (1 ≤ 1 ∧ 1 ≤ (wSerial (some (serTx 1))).ser.lines.length ∧ (serLine (wSerial (some (serTx 1))) 1).role = 1 ∧
      (serFrameOf true 9 [(3 : Byte), (2 : Byte), (7 : Byte), (8 : Byte)]).crcOk = true ∧
      (serLine (wSerial (some (serTx 1))) 1).tx = some (serTx 1) ∧ (serTx 1).handle = none ∧
      (serFrameOf true 9 [(3 : Byte), (2 : Byte), (7 : Byte), (8 : Byte)]).addr = (serTx 1).slave ∧
      fld (serFrameOf true 9 [(3 : Byte), (2 : Byte), (7 : Byte), (8 : Byte)]).pdu 0 1 = (serTx 1).function ∧ (serTx 1).function < 128 ∧
      (List.find? (fun t => t.item == (serTx 1).item) (serLine (wSerial (some (serTx 1))) 1).trans = some masterItem) ∧
      replyFits masterItem (serFrameOf true 9 [(3 : Byte), (2 : Byte), (7 : Byte), (8 : Byte)]).pdu = true ∧
      serReads masterItem.function = true ∧ masterItem.item < 64) ∧
    (1 ≤ 1 ∧ 1 ≤ wSerialEarly.ser.lines.length ∧ (serLine wSerialEarly 1).tx = some (serTx 1) ∧ (serTx 1).handle = none ∧
      (List.find? (fun t => t.item == (serTx 1).item) (serLine wSerialEarly 1).trans = some masterItem) ∧
      wSerialEarly.mono < (serTx 1).at_ + masterItem.timeoutMs * 1000000) ∧
    (1 ≤ 1 ∧ 1 ≤ (wSerial (some (serTx 1))).ser.lines.length ∧ (serLine (wSerial (some (serTx 1))) 1).tx = some (serTx 1) ∧
      (serTx 1).handle = none ∧
      (List.find? (fun t => t.item == (serTx 1).item) (serLine (wSerial (some (serTx 1))) 1).trans = some masterItem) ∧
      (serTx 1).at_ + masterItem.timeoutMs * 1000000 ≤ (wSerial (some (serTx 1))).mono ∧
      (look masterItem.item (serLine (wSerial (some (serTx 1))) 1).failRun).getD 0 + 1 < (serLine (wSerial (some (serTx 1))) 1).failLimit ∧
      (serTx 1).attempt ≤ (serLine (wSerial (some (serTx 1))) 1).force.retries ∧ mayRepeat (wSerial (some (serTx 1))) masterItem = true) ∧
    (1 ≤ 1 ∧ 1 ≤ (wSerial (some (serTx 2))).ser.lines.length ∧ (serLine (wSerial (some (serTx 2))) 1).tx = some (serTx 2) ∧
      (serTx 2).handle = none ∧
      (List.find? (fun t => t.item == (serTx 2).item) (serLine (wSerial (some (serTx 2))) 1).trans = some masterItem) ∧
      (serTx 2).at_ + masterItem.timeoutMs * 1000000 ≤ (wSerial (some (serTx 2))).mono ∧
      (look masterItem.item (serLine (wSerial (some (serTx 2))) 1).failRun).getD 0 + 1 < (serLine (wSerial (some (serTx 2))) 1).failLimit ∧
      ((serLine (wSerial (some (serTx 2))) 1).force.retries < (serTx 2).attempt ∨
      mayRepeat (wSerial (some (serTx 2))) masterItem = false)) ∧
    (1 ≤ 2 ∧ 2 ≤ (wSerial none).ser.lines.length ∧ (serLine (wSerial none) 2).role = 2 ∧ (serFrameOf true 17 [(43 : Byte)]).crcOk = true ∧
      (serFrameOf true 17 [(43 : Byte)]).addr = (serLine (wSerial none) 2).slaveAddr ∧ (serFrameOf true 17 [(43 : Byte)]).addr ≠ 0 ∧
      serTxAllowed (wSerial none) = true ∧ serRxQueue (wSerial none) 2 = none ∧
      tableOf (fld (serFrameOf true 17 [(43 : Byte)]).pdu 0 1) = none) ∧
    (1 ≤ 2 ∧ 2 ≤ (wSerial none).ser.lines.length ∧ (serLine (wSerial none) 2).role = 2 ∧
      (serFrameOf true 17 [(3 : Byte), (0 : Byte), (5 : Byte), (0 : Byte), (1 : Byte)]).crcOk = true ∧
      (serFrameOf true 17 [(3 : Byte), (0 : Byte), (5 : Byte), (0 : Byte), (1 : Byte)]).addr = (serLine (wSerial none) 2).slaveAddr ∧
      (serFrameOf true 17 [(3 : Byte), (0 : Byte), (5 : Byte), (0 : Byte), (1 : Byte)]).addr ≠ 0 ∧ serTxAllowed (wSerial none) = true ∧
      serRxQueue (wSerial none) 2 = none ∧
      ∃ tb ∈ tableOf (fld (serFrameOf true 17 [(3 : Byte), (0 : Byte), (5 : Byte), (0 : Byte), (1 : Byte)]).pdu 0 1),
      Machine.slaveItem (serLine (wSerial none) 2) tb (serFrameOf true 17 [(3 : Byte), (0 : Byte), (5 : Byte), (0 : Byte),
      (1 : Byte)]).pdu = none) ∧
    (1 ≤ 2 ∧ 2 ≤ (wSerial none).ser.lines.length ∧ (serLine (wSerial none) 2).role = 2 ∧
      (serFrameOf true 17 [(3 : Byte), (0 : Byte), (0 : Byte), (0 : Byte), (1 : Byte)]).crcOk = true ∧
      (serFrameOf true 17 [(3 : Byte), (0 : Byte), (0 : Byte), (0 : Byte), (1 : Byte)]).addr = (serLine (wSerial none) 2).slaveAddr ∧
      (serFrameOf true 17 [(3 : Byte), (0 : Byte), (0 : Byte), (0 : Byte), (1 : Byte)]).addr ≠ 0 ∧ serTxAllowed (wSerial none) = true ∧
      serRxQueue (wSerial none) 2 = none ∧
      tableOf (fld (serFrameOf true 17 [(3 : Byte), (0 : Byte), (0 : Byte), (0 : Byte), (1 : Byte)]).pdu 0 1) = some 3 ∧
      Machine.slaveItem (serLine (wSerial none) 2) 3 (serFrameOf true 17 [(3 : Byte), (0 : Byte), (0 : Byte), (0 : Byte),
      (1 : Byte)]).pdu = some (Tests.slaveItem 3 true) ∧
      writePart (serFrameOf true 17 [(3 : Byte), (0 : Byte), (0 : Byte), (0 : Byte), (1 : Byte)]).pdu = none ∧
      readPart (serFrameOf true 17 [(3 : Byte), (0 : Byte), (0 : Byte), (0 : Byte), (1 : Byte)]).pdu = some (0, 1)) ∧
    (1 ≤ 2 ∧ 2 ≤ wSerialEarly.ser.lines.length ∧
      wSerialEarly.mono < (look 0 (serLine wSerialEarly 2).lastSent).getD 0 + (serLine wSerialEarly 2).writeTimeoutMs * 1000000) ∧
    (1 ≤ 2 ∧ 2 ≤ (wSerial none).ser.lines.length ∧ 1 < 64 ∧ (serLine (wSerial none) 2).role = 2 ∧
      (serLine (wSerial none) 2).writeTimeoutMs ≠ 0 ∧
      (look 1 (serLine (wSerial none) 2).lastSent).getD 0 + (serLine (wSerial none) 2).writeTimeoutMs * 1000000 ≤ (wSerial none).mono ∧
      (((serLine (wSerial none) 2).maps.any fun m => m.item == 1 && m.writable) = true) ∧
      (serLine (wSerial none) 2).failed.getLsbD 1 = false) :=
  by and_intros <;> decide +kernel

theorem witness_CommitsTakeWholeSets :
    (∀ b ∈ theBlocks, blockThere (wCommit true true) b = true ∧ (commitOf (wCommit true true) b).pending = true) ∧
    (∀ b ∈ theBlocks, blockThere (wCommit false true) b = true ∧ (commitOf (wCommit false true) b).pending = false ∧
      (8 : Word).setWidth 16 = (commitOf (wCommit false true) b).gen + 1 ∧
        (7 : Word).setWidth 16 ≠ (commitOf (wCommit false true) b).gen + 1) ∧
    (loopsCompute (wCommit false true) = false ∧ (loopAt (wCommit false true) 33).dirty = true ∧
      ((loopAt (wCommit true true) 33).copied).isSome = true ∧ heldBy (wCommit true true) (wCommit true true).que.copied.queue = 0) ∧
    ((canPort (wCommit true true) 1).onBus = none ∧ canSetOk (canPort (wCommit true true) 1).copied = true ∧
      canSetOk (canPort (wCommit true false) 1).copied = false ∧ (serLine (wCommit true true) 1).tx = none ∧
      (serLine (wCommit true true) 1).copied.ok = true ∧ (serLine (wCommit true false) 1).copied.ok = false) :=
  ⟨by decide +kernel, by decide +kernel, by decide +kernel, by decide +kernel⟩

theorem witness_NarrowAccessesAreRefused :
    ((halfAccess.word = false ∨ halfAccess.addr % 4 ≠ 0) ∧
      (Instr.sdkRegRead 1 halfAccess = Instr.sdkRegRead 1 halfAccess ∨
      Instr.sdkRegRead 1 halfAccess = Instr.sdkRegWrite 1 halfAccess (8 : Word) (startIn true true none))) ∧
    ((halfAccess.word = false ∨ halfAccess.addr % 4 ≠ 0) ∧ sessionReads wRegs (plantReq 0 true) = true ∧
      serviceCheck wRegs svcRegRead (plantReq 0 true) = PStatus.ok ∧ 1 ≤ 1 ∧ 1 ≤ 256) ∧
    ((halfAccess.word = false ∨ halfAccess.addr % 4 ≠ 0) ∧ sessionReads wRegs (plantReq 0 true) = true ∧
      serviceCheck wRegs svcRegWrite (plantReq 0 true) = PStatus.ok) :=
  by and_intros <;> decide +kernel

theorem witness_RegistersAreReadAndWritten :
    (0 % 4 = 0 ∧ isRestart 0 (8 : Word) = false) ∧
    (45056 % 4 = 0 ∧ isRestart 45056 (8 : Word) = false ∧ ownsWindow State.reset 0 45056 true = true ∧ inSafe 45056 = false) ∧
    (45056 ≤ 45056 ∧ 45056 % 4 = 0) ∧
    (45056 % 4 = 0 ∧ ownsWindow State.reset 0 45056 false = true) ∧
    (0 % 4 = 0 ∧ ownsWindow State.reset 0 0 false = false) ∧
    (8232 % 4 = 0 ∧ ownsWindow State.reset 0 8232 true = false ∧ isSigGo 8232 (2147549250 : Word) = true) ∧
    (0 % 4 = 0 ∧ (ownsWindow State.reset 0 0 true = false ∨ inSafe 0 = true ∧ isTestRequest 0 = false) ∧ isSigGo 0 (8 : Word) = false) ∧
    ownsWindow wRegs 0 8200 true = true ∧
    (sessionReads wRegs (plantReq 0 true) = true ∧ serviceCheck wRegs svcIdentify (plantReq 0 true) = PStatus.ok) ∧
    (sessionReads wRegs (plantReq 0 true) = true ∧ serviceCheck wRegs svcRegRead (plantReq 0 true) = PStatus.ok ∧ 0 % 4 = 0) ∧
    (sessionReads wRegs (plantReq 0 true) = true ∧ serviceCheck wRegs svcRegWrite (plantReq 0 true) = PStatus.ok ∧ 30720 % 4 = 0 ∧
      plantMayWrite wRegs (sessionAt wRegs (plantReq 0 true).session) 30720 (8 : Word) = false ∧ isSigGo 30720 (8 : Word) = false) ∧
    (sessionReads wRegs (plantReq 1 true) = true ∧ serviceCheck wRegs svcRegWrite (plantReq 1 true) = PStatus.ok ∧ 8232 % 4 = 0 ∧
      plantMayWrite wRegs (sessionAt wRegs (plantReq 1 true).session) 8232 (2147549250 : Word) = false ∧
      isSigGo 8232 (2147549250 : Word) = true) ∧
    (sessionReads wRegs (plantReq 0 true) = true ∧ serviceCheck wRegs svcRegWrite (plantReq 0 true) = PStatus.ok ∧ 8200 % 4 = 0 ∧
      plantMayWrite wRegs (sessionAt wRegs (plantReq 0 true).session) 8200 (8 : Word) = true) ∧
    BitVec.getLsbD (2147549250 : Word) 31 = true ∧
    BitVec.getLsbD (8 : Word) 31 = false ∧
    (BitVec.getLsbD (2147549250 : Word) 31 = true ∧ sigWriteRefused wRegs Reader.sdk (field (2147549250 : Word) 16 12) = false ∧
      (sigEntry wRegs (field (2147549250 : Word) 16 12)).forced = false) ∧
    (BitVec.getLsbD (2147549250 : Word) 31 = true ∧ sigWriteRefused State.reset Reader.sdk (field (2147549250 : Word) 16 12) = true) :=
  by and_intros <;> decide +kernel

theorem witness_IdleStepAdvancesTime :
    (State.reset.pending = [] ∧ State.reset.pwr.railsOff = false ∧ State.reset.sys.mode ≠ .harbour) ∧
    (wAsleep.pending = [] ∧ wRailsOff.pending = [] ∧ wRailsOff.pwr.railsOff = true) ∧
    ((wWake false []).pending = [] ∧ (wWake false []).pwr.railsOff = false ∧ (wWake false []).sys.mode = .harbour ∧
      (wWake false []).pwr.hbr = .asleep ∧ (wWake false []).monoFrac < 32768) ∧
    ((wHarbour .settling).pending = [] ∧ (wHarbour .settling).pwr.railsOff = false ∧ (wHarbour .settling).sys.mode = .harbour ∧
      (wHarbour .settling).pwr.hbr ≠ .asleep ∧ (wHarbour .settling).monoFrac < 32768) := by decide +kernel

/-- A steady state with a command in its queue. -/
def wQueued : State := { State.reset with pending := [.modeReqStop .sdk] }

theorem witness_StepRunsTheFrontCommand : ∀ m, Instr.keyOut ≠ .memoryAccess m := fun m h => by cases h

theorem witness_EveryStepKeepsSteady : Steady wQueued ∧ ∃ t, step wQueued = .next t :=
  ⟨by unfold Steady; decide +kernel, _, rfl⟩

/-- The outputs of `wOutputs` in HARBOUR, HALTED, and with group A AWAIT_ACK or LOST. -/
def wHeldOff (mode : Mode) (st : FieldState) : State :=
  follow { wOutputs with sys := { wOutputs.sys with mode := mode }, pwr := { groups := { st := st } :: List.replicate 4 {} } }

theorem witness_OutputsOffWhereNothingMayDrive :
    (∀ m ∈ [Mode.run, .harbour, .halted], ∀ g ∈ [FieldState.normal, .awaitAck, .lost],
      Steady (wHeldOff m g) ∧ (∃ t, step (wHeldOff m g) = .next t) ∧ 1 < (wHeldOff m g).dio.ch.length) ∧
    ((dioCh wOutputs 4).mode.isInput = true ∧ (dioCh wOutputs 1).mode.isOutput = true ∧ (dioCh wOutputs 1).ostate = .shortWait) := by
  refine ⟨fun m hm g hg => ⟨?_, ⟨_, rfl⟩, ?_⟩, by decide +kernel⟩
  · revert m g; unfold Steady; decide +kernel
  · revert m g; decide +kernel

end Sys2Proof.Tests
end

section
/-! PROOFS. Accesses that are not one aligned word (01_station_overview.md R26): what a reader gets for one, and that nothing but the
answer and the plant port's own counts changes. -/

namespace Sys2Proof.Machine

/-- R26 in the model's terms. -/
theorem aligned_eq_false_iff (a : RegAt) : aligned a = false ↔ a.word = false ∨ a.addr % 4 ≠ 0 := by
  rw [aligned, Bool.and_eq_false_iff, beq_eq_false_iff_ne]

/-- The stages and clocks read neither the plant port nor what was sent. -/
theorem follow_replacing_plant_sent (s : State) (p : Plant) (l : List Sent) :
    follow { s with plant := p, sent := l } = { follow s with plant := p, sent := l } := by
  have hreq : ∀ c, clockRequested (refreshStages { s with plant := p, sent := l }) c = clockRequested (refreshStages s) c :=
    fun c => by cases c <;> rfl
  have hheld : ∀ c, clockHeld (refreshStages { s with plant := p, sent := l }) c = clockHeld (refreshStages s) c := fun _ => rfl
  unfold follow grantClocks
  simp only [hreq, hheld]
  rfl

theorem answer_replacing_plant_sent (s : State) (p : Plant) (l : List Sent) :
    answer { s with plant := p, sent := l } = .next { follow s with plant := p, sent := l } :=
  congrArg _ (follow_replacing_plant_sent s p l)

/-- A command that only answers, and counts at the plant port: its answer is the newest sent, and all but the port is as without it. -/
theorem exists_next_of_answered {c : Instr} {s t : State} {p : Plant} {e : Sent} (hc : exec c s = answer t)
    (ht : t = { s with plant := p, sent := e :: s.sent }) :
    ∃ u, exec c s = .next u ∧ u.sent = e :: s.sent ∧ { u with plant := s.plant, sent := s.sent } = follow s := by
  subst ht
  exact ⟨_, hc.trans (answer_replacing_plant_sent s p _), rfl, rfl⟩

/-! ### One response of the plant port (R479) -/

/-- A body that one response holds goes out in one. -/
theorem responses_of_length_le (service : Nat) (r : PlantReq) (status : Nat) {body : List Byte} (s : State)
    (h : body.length ≤ bodyMax) :
    responses service r status body s =
      sessionSend .plant r.session r.number (responseHead service r.number body.length status ++ body) s := by
  have hlast : (body.length - 1) / bodyMax = 0 := Nat.div_eq_of_lt (by unfold bodyMax at *; omega)
  have hpart : slice body 0 (min bodyMax body.length) = body := by
    rw [Nat.min_eq_right h]; exact List.take_length
  simp [responses, forAll, hlast, hpart]

/-- A request of an open session is answered by one frame, where one response holds the body, and nothing but the port changes. -/
theorem respondPlant_of_open (service : Nat) {r : PlantReq} (st : PStatus) {body : List Byte} {s : State}
    (ho : (sessionAt s r.session).st = 2) (hb : body.length ≤ bodyMax) :
    ∃ p, respondPlant service r st body s = { s with
      plant := p
      sent := { kind := .plant, unit := r.session, num := r.number, body := responseHead service r.number body.length st.code ++ body,
                eth := some (plantEth s (sessionAt s r.session).mac) } :: s.sent } := by
  simp only [respondPlant, ho, ne_eq, not_true_eq_false, if_false, responses_of_length_le _ _ _ _ hb]
  split
  · exact ⟨_, rfl⟩
  · exact ⟨_, rfl⟩

theorem sessionReads_open {s : State} {r : PlantReq} (h : sessionReads s r = true) : (sessionAt s r.session).st = 2 := by
  simp only [sessionReads, Bool.and_eq_true, beq_iff_eq] at h
  obtain ⟨hopen, -⟩ := h
  exact hopen

/-- A request that passes its service's conditions is done, and its outcome answered. -/
theorem serve_of_ok {x : Service} {r : PlantReq} {s : State} (act : State → PStatus × List Byte × State)
    (hr : sessionReads s r = true) (hc : serviceCheck s x r = .ok) :
    serve x r act s = respondPlant x.code r (act s).1 (act s).2.1 (act s).2.2 := by
  simp only [serve, hr, hc, if_true]

/-! ### A narrow or unaligned access, by who makes it -/

section
variable {s : State} {a : RegAt} (ha : aligned a = false)
include ha

theorem exec_registerWrite_of_not_aligned (r : Reader) (v : Word) (x : StartIn) :
    exec (.registerWrite r a v x) s = answer s := by
  simp only [exec, execRegisterWrite, ha, Bool.false_eq_true, if_false]

theorem exec_sdkRegRead_of_not_aligned (native : Nat) :
    exec (.sdkRegRead native a) s = answer (sdkReturns native 1 [] s) := by
  simp only [exec, execSdkRegRead, sdkRegRead, ha, Bool.not_false, if_true]

theorem exec_sdkRegWrite_of_not_aligned (native : Nat) (v : Word) (x : StartIn) :
    exec (.sdkRegWrite native a v x) s = answer (sdkReturns native 1 [] s) := by
  simp only [exec, execSdkRegWrite, sdkRegWrite, ha, Bool.not_false, if_true]

theorem regRead_of_not_aligned {n : Nat} (h1 : 1 ≤ n) (h2 : n ≤ 256) : regRead a n s = (.accessError, [], s) := by
  have hn : ¬ (n = 0 ∨ 256 < n) := by omega
  simp only [regRead, hn, ha, Bool.not_false, if_false, if_true]

/-- One refused pair on an open session: its status in the body, and the port's count of the refusal (R479, R480). -/
theorem regWrite_of_not_aligned {k : Nat} (v : Word) (x : StartIn) (ho : (sessionAt s k).st = 2) :
    regWrite k [{ reg := a, value := v }] x s = (.ok, [4, 0], plantRefuse 2 s) := by
  have hpairs : regWritePairs x k (sessionAt s k) [{ reg := a, value := v }] s = ([.accessError], s) := by
    simp [regWritePairs, regWritePair, ho, ha]
  simp only [regWrite, hpairs]
  rfl

theorem exec_regRead_of_not_aligned {r : PlantReq} {n : Nat} (hr : sessionReads s r = true)
    (hc : serviceCheck s svcRegRead r = .ok) (h1 : 1 ≤ n) (h2 : n ≤ 256) :
    exec (.regRead r a n) s = answer (respondPlant svcRegRead.code r .accessError [] s) := by
  simp only [exec, execRegRead, serve_of_ok _ hr hc, regRead_of_not_aligned ha h1 h2]

theorem exec_regWrite_of_not_aligned {r : PlantReq} (v : Word) (x : StartIn) (hr : sessionReads s r = true)
    (hc : serviceCheck s svcRegWrite r = .ok) :
    exec (.regWrite r [{ reg := a, value := v }] x) s = answer (respondPlant svcRegWrite.code r .ok [4, 0] (plantRefuse 2 s)) := by
  simp only [exec, execRegWrite, serve_of_ok _ hr hc, regWrite_of_not_aligned ha v x (sessionReads_open hr)]

end

/-- Settles O59: the access is turned away before it reaches a register, so only the answer and the plant port's counts are left, and
the stages and clocks read neither. -/
theorem narrowAccessesAreRefused : Obligations.NarrowAccessesAreRefused := by
  unfold Obligations.NarrowAccessesAreRefused
  intro s a hna
  have ha : aligned a = false := (aligned_eq_false_iff a).2 hna
  refine ⟨fun r v x => exec_registerWrite_of_not_aligned ha r v x, ?sdk, fun r hr => ⟨?read, ?write⟩⟩
  case sdk =>
    intro native v x c hc
    have hexec : exec c s = answer (sdkReturns native 1 [] s) := by
      obtain rfl | rfl := hc
      · exact exec_sdkRegRead_of_not_aligned ha native
      · exact exec_sdkRegWrite_of_not_aligned ha native v x
    exact ⟨_, hexec.trans (answer_replacing_plant_sent s s.plant _), rfl, rfl⟩
  case read =>
    intro n hc h1 h2
    obtain ⟨p, hp⟩ := respondPlant_of_open svcRegRead.code .accessError (body := []) (sessionReads_open hr) (Nat.zero_le _)
    exact exists_next_of_answered (exec_regRead_of_not_aligned ha hr hc h1 h2) hp
  case write =>
    intro v x hc
    have ho : (sessionAt (plantRefuse 2 s) r.session).st = 2 := sessionReads_open hr
    obtain ⟨p, hp⟩ := respondPlant_of_open svcRegWrite.code .ok (body := [4, 0]) ho (by decide)
    exact exists_next_of_answered (exec_regWrite_of_not_aligned ha v x hr hc) hp

end Sys2Proof.Machine
end

section
/-! PROOFS. RECORD_STORE (18_event_recorder.md R466, R467): the slot a staged record takes, and what storing it there changes. -/

namespace Sys2Proof.Machine

/-! ### Keyed tables: what `put` leaves to `look` -/

section
variable {α : Type}

@[simp] theorem look_put_same (k : Nat) (a : α) (l : List (Nat × α)) : look k (put k a l) = some a := by
  induction l with
  | nil => simp [put, look]
  | cons p l ih =>
    obtain ⟨i, b⟩ := p
    simp only [put]
    split_ifs with hlt heq
    · simp [look]
    · simp [look]
    · simp [look, heq, ih]

theorem look_put_other {k m : Nat} (hm : m ≠ k) (a : α) (l : List (Nat × α)) : look m (put k a l) = look m l := by
  induction l with
  | nil => simp [put, look, hm.symm]
  | cons p l ih =>
    obtain ⟨i, b⟩ := p
    simp only [put]
    split_ifs with hlt heq
    · simp [look, hm.symm]
    · simp [look, heq, hm.symm]
    · simp [look, ih]

theorem mem_of_look {k : Nat} {a : α} {l : List (Nat × α)} (h : look k l = some a) : (k, a) ∈ l := by
  induction l with
  | nil => simp [look] at h
  | cons p l ih =>
    obtain ⟨i, b⟩ := p
    simp only [look] at h
    split_ifs at h with hik
    · rw [hik, Option.some.inj h]
      exact List.mem_cons_self
    · exact List.mem_cons_of_mem _ (ih h)

/-- Keys in strictly rising order are met once each, so what stands in the table is what a look finds. -/
theorem look_of_mem {k : Nat} {a : α} {l : List (Nat × α)} (hl : l.Pairwise (fun x y => x.1 < y.1)) (h : (k, a) ∈ l) :
    look k l = some a := by
  induction l with
  | nil => simp at h
  | cons p l ih =>
    obtain ⟨hfirst, hrest⟩ := List.pairwise_cons.1 hl
    obtain rfl | hmem := List.mem_cons.1 h
    · simp [look]
    · have hne : p.1 ≠ k := (hfirst _ hmem).ne
      simp [look, hne, ih hrest hmem]

end

/-! ### The lowest-numbered empty slot -/

theorem firstNot_of_all {p : Nat → Bool} {fuel n : Nat} (h : ∀ m, n ≤ m → m < n + fuel → p m = true) :
    firstNot p fuel n = none := by
  induction fuel generalizing n with
  | zero => rfl
  | succ fuel ih =>
    have hn : p n = true := h n (by omega) (by omega)
    simp only [firstNot, hn, if_true]
    exact ih fun m h1 h2 => h m (by omega) (by omega)

theorem firstNot_of_lowest {p : Nat → Bool} {fuel n k : Nat} (hk : p k = false) (hnk : n ≤ k) (hlt : k < n + fuel)
    (h : ∀ m, n ≤ m → m < k → p m = true) : firstNot p fuel n = some k := by
  induction fuel generalizing n with
  | zero => omega
  | succ fuel ih =>
    obtain rfl | hlt' := hnk.eq_or_lt
    · simp [firstNot, hk]
    · have hn : p n = true := h n le_rfl hlt'
      simp only [firstNot, hn, if_true]
      exact ih (by omega) (by omega) fun m h1 h2 => h m (by omega) h2

theorem slotFor_of_lowest_empty (sev : Severity) {l : Log} {n : Nat} (hn : n < 65536) (hempty : slotTaken l n = false)
    (hbelow : ∀ m, m < n → slotTaken l m = true) : slotFor sev l = some n := by
  have h : emptySlot l = some n :=
    firstNot_of_lowest hempty (Nat.zero_le n) (by unfold slotTotal; omega) fun m _ hm => hbelow m hm
  simp only [slotFor, h]

theorem slotFor_of_full (sev : Severity) {l : Log} (hfull : ∀ m, m < 65536 → slotTaken l m = true) :
    slotFor sev l = oldestBelow sev l := by
  have h : emptySlot l = none :=
    firstNot_of_all fun m _ hm => hfull m (by unfold slotTotal at hm; omega)
  simp only [slotFor, h]

/-! ### The oldest record at or below a severity -/

/-- One slot of the search of `oldestBelow`: the older of the best so far and the slot's record, where that one may be overwritten. -/
def keepOlder (sev : Severity) (best : Option (Nat × Nat)) (p : Nat × LogRec) : Option (Nat × Nat) :=
  if p.2.sev.code ≤ sev.code then
    match best with
    | none => some (p.1, p.2.seq)
    | some b => if p.2.seq < b.2 then some (p.1, p.2.seq) else some b
  else best

theorem oldestBelow_eq_foldl (sev : Severity) (l : Log) :
    oldestBelow sev l = (l.slots.foldl (keepOlder sev) none).map (·.1) := rfl

/-- A record older than the best so far becomes the best. -/
theorem keepOlder_of_older {sev : Severity} {p : Nat × LogRec} {best : Option (Nat × Nat)} (hsev : p.2.sev.code ≤ sev.code)
    (h : ∀ b ∈ best, p.2.seq < b.2) : keepOlder sev best p = some (p.1, p.2.seq) := by
  cases best with
  | none => simp [keepOlder, hsev]
  | some b => simp [keepOlder, hsev, h b rfl]

/-- The best so far stays before a record that may not be overwritten or is no older. -/
theorem keepOlder_of_newer {sev : Severity} {p : Nat × LogRec} {b : Nat × Nat} (h : p.2.sev.code ≤ sev.code → b.2 ≤ p.2.seq) :
    keepOlder sev (some b) p = some b := by
  by_cases hsev : p.2.sev.code ≤ sev.code
  · simp [keepOlder, hsev, (h hsev).not_gt]
  · simp [keepOlder, hsev]

/-- The best is either what it was or the slot's record, which then may be overwritten. -/
theorem keepOlder_cases (sev : Severity) (best : Option (Nat × Nat)) (p : Nat × LogRec) :
    keepOlder sev best p = best ∨ p.2.sev.code ≤ sev.code ∧ keepOlder sev best p = some (p.1, p.2.seq) := by
  unfold keepOlder
  split
  case isFalse => exact .inl rfl
  case isTrue hsev =>
    cases best with
    | none => exact .inr ⟨hsev, rfl⟩
    | some b =>
      by_cases hlt : p.2.seq < b.2
      · exact .inr ⟨hsev, if_pos hlt⟩
      · exact .inl (if_neg hlt)

theorem newer_of_keepOlder {sev : Severity} {best : Option (Nat × Nat)} {p : Nat × LogRec} {x : Nat}
    (hbest : ∀ b ∈ best, x < b.2) (hp : p.2.sev.code ≤ sev.code → x < p.2.seq) : ∀ b ∈ keepOlder sev best p, x < b.2 := by
  obtain h | ⟨hsev, h⟩ := keepOlder_cases sev best p
  · rwa [h]
  · rw [h]
    rintro b ⟨⟩
    exact hp hsev

/-- The search ends at the one record that is older than every other it may choose: until it is met every best is newer, and after
that it stays the best. -/
theorem foldl_keepOlder_of_oldest {sev : Severity} {n : Nat} {o : LogRec} {l : List (Nat × LogRec)} {best : Option (Nat × Nat)}
    (ho : o.sev.code ≤ sev.code) (hl : ∀ p ∈ l, p.2.sev.code ≤ sev.code → p ≠ (n, o) → o.seq < p.2.seq)
    (h : best = some (n, o.seq) ∨ (n, o) ∈ l ∧ ∀ b ∈ best, o.seq < b.2) :
    l.foldl (keepOlder sev) best = some (n, o.seq) := by
  induction l generalizing best with
  | nil => simpa using h
  | cons p l ih =>
    obtain ⟨hp, hrest⟩ := List.forall_mem_cons.1 hl
    refine ih hrest ?_
    by_cases hpo : p = (n, o)
    · subst hpo
      left
      obtain rfl | ⟨-, hnewer⟩ := h
      · exact keepOlder_of_newer fun _ => le_rfl
      · exact keepOlder_of_older ho hnewer
    · obtain rfl | ⟨hmem, hnewer⟩ := h
      · exact .inl (keepOlder_of_newer fun hsev => (hp hsev hpo).le)
      · exact .inr ⟨(List.mem_cons.1 hmem).resolve_left (Ne.symm hpo), newer_of_keepOlder hnewer fun hsev => hp hsev hpo⟩

section
variable {sev : Severity} {l : Log}

theorem oldestBelow_of_oldest {n : Nat} {o : LogRec} (hl : l.slots.Pairwise (fun x y => x.1 < y.1))
    (hn : look n l.slots = some o) (ho : o.sev.code ≤ sev.code)
    (hold : ∀ m q, look m l.slots = some q → q.sev.code ≤ sev.code → m ≠ n → o.seq < q.seq) : oldestBelow sev l = some n := by
  have hother : ∀ p ∈ l.slots, p.2.sev.code ≤ sev.code → p ≠ (n, o) → o.seq < p.2.seq := by
    rintro ⟨m, q⟩ hmem hsev hne
    have hq : look m l.slots = some q := look_of_mem hl hmem
    refine hold m q hq hsev ?_
    rintro rfl
    exact hne (by rw [Option.some.inj (hq.symm.trans hn)])
  rw [oldestBelow_eq_foldl, foldl_keepOlder_of_oldest ho hother (.inr ⟨mem_of_look hn, by simp⟩)]
  rfl

theorem oldestBelow_of_all_above (hl : l.slots.Pairwise (fun x y => x.1 < y.1))
    (h : ∀ m q, look m l.slots = some q → sev.code < q.sev.code) : oldestBelow sev l = none := by
  have hnone : l.slots.foldl (keepOlder sev) none = none := by
    refine List.foldlRecOn (motive := (· = none)) l.slots (keepOlder sev) rfl ?_
    rintro best rfl ⟨m, q⟩ hmem
    exact if_neg (h m q (look_of_mem hl hmem)).not_ge
  rw [oldestBelow_eq_foldl, hnone]
  rfl

end

/-! ### What RECORD_STORE does, by the slot the record takes -/

/-- The stages and clocks read nothing of the recorder. -/
theorem follow_replacing_log (s : State) (l : Log) : follow { s with log := l } = { follow s with log := l } := rfl

/-- A command that changes the recorder alone. -/
theorem exists_next_of_log {c : Instr} {s u : State} {l : Log} (hc : exec c s = answer u) (hu : u = { s with log := l }) :
    ∃ t, exec c s = .next t ∧ t.log = l ∧ { t with log := s.log } = follow s := by
  subst hu
  exact ⟨_, hc, rfl, follow_replacing_log s l ▸ rfl⟩

theorem exec_recordStore (how : StoreEnd) (s : State) : exec (.recordStore how) s = answer (recordStore how s) := rfl

/-- The log once a record left staging for the slot it takes, or was dropped where it takes none. -/
def logStored (r : LogRec) (rest : List LogRec) (l : Log) : Option Nat → Log
  | some n => Log.indexed { l with rebuilding := false, staged := rest, slots := put n r l.slots }
  | none => dropRecord r.sev [0] { l with rebuilding := false, staged := rest }

section
variable {s : State} {r : LogRec} {rest : List LogRec} (hacc : s.log.accepting = true) (hst : s.log.staged = r :: rest)
include hacc hst

theorem recordStore_stored : recordStore .stored s = { s with log := logStored r rest s.log (slotFor r.sev s.log) } := by
  have hslot : slotFor r.sev (onLog (fun l => { l with rebuilding := false }) s).log = slotFor r.sev s.log := rfl
  simp only [recordStore, onLog_log, hst, hacc, Bool.not_true, Bool.false_eq_true, if_false] at hslot ⊢
  rw [hslot]
  cases slotFor r.sev s.log with
  | none => simp only [logStored, onLog, hst, hacc]
  | some n => simp only [logStored, onLog, hst, hacc]

/-- The answer to RECORD_STORE, by the slot that the record takes. -/
theorem exec_recordStore_stored {k : Option Nat} (hk : slotFor r.sev s.log = k) :
    ∃ t, exec (.recordStore .stored) s = .next t ∧ t.log = logStored r rest s.log k ∧ { t with log := s.log } = follow s :=
  exists_next_of_log (exec_recordStore .stored s) (hk ▸ recordStore_stored hacc hst)

/-- Stored in its slot, the record leaves staging and every other slot stays. -/
theorem recordStore_takes_slot {n : Nat} (hn : slotFor r.sev s.log = some n) :
    ∃ t, exec (.recordStore .stored) s = .next t ∧ look n t.log.slots = some r ∧ t.log.staged = rest ∧
      (∀ m, m ≠ n → look m t.log.slots = look m s.log.slots) ∧ t.log.dropped = s.log.dropped ∧
      { t with log := s.log } = follow s := by
  obtain ⟨t, hexec, hlog, hfollow⟩ := exec_recordStore_stored hacc hst hn
  exact ⟨t, hexec, hlog ▸ look_put_same n r _, hlog ▸ rfl, fun m hm => hlog ▸ look_put_other hm r _, hlog ▸ rfl, hfollow⟩

/-- With no slot to take, the record is counted as dropped and no slot changes. -/
theorem recordStore_drops (hn : slotFor r.sev s.log = none) :
    ∃ t, exec (.recordStore .stored) s = .next t ∧ t.log.slots = s.log.slots ∧ t.log.staged = rest ∧
      t.log.dropped = s.log.dropped.modify r.sev.code (satInc 32) ∧ t.log.flags.getLsbD 0 = true ∧
      { t with log := s.log } = follow s := by
  obtain ⟨t, hexec, hlog, hfollow⟩ := exec_recordStore_stored hacc hst hn
  exact ⟨t, hexec, hlog ▸ rfl, hlog ▸ rfl, hlog ▸ rfl, hlog ▸ setBit_get _ 0 (by decide), hfollow⟩

end

/-- Settles O20: the search for a slot finds the lowest-numbered empty one, else that of the oldest record it may overwrite, else none,
and RECORD_STORE changes what that slot holds alone. -/
theorem storedRecordsTakeTheirSlot : Obligations.StoredRecordsTakeTheirSlot := by
  unfold Obligations.StoredRecordsTakeTheirSlot
  intro s r rest hacc hst hsorted
  refine ⟨fun n hn hempty hbelow => ?empty, fun n o hfull hn ho hold => ?overwrite, fun hfull habove => ?drop⟩
  case empty => exact recordStore_takes_slot hacc hst (slotFor_of_lowest_empty r.sev hn hempty hbelow)
  case overwrite =>
    exact recordStore_takes_slot hacc hst ((slotFor_of_full r.sev hfull).trans (oldestBelow_of_oldest hsorted hn ho hold))
  case drop =>
    exact recordStore_drops hacc hst ((slotFor_of_full r.sev hfull).trans (oldestBelow_of_all_above hsorted habove))

end Sys2Proof.Machine
end

section
/-! PROOFS. The step of the module: the queue's front command, the idle step of the time base (05_program_cycle.md R150, 12_network_time.md
R308), and that the stages and clocks stand after every step (01_station_overview.md R31, 14_digital_channels.md R368, R376). -/

namespace Sys2Proof.Machine

/-! ### Step and exec -/

theorem step_of_empty {s : State} (h : s.pending = []) : step s = .next (idle s) := by
  simp only [step, h]

theorem step_of_cons {s : State} {c : Instr} {rest : List Instr} (h : s.pending = c :: rest) :
    step s = exec c { s with pending := rest } := by
  simp only [step, h]

theorem answer_next (u : State) : ∃ t, answer u = .next t := ⟨_, rfl⟩

/-- A command that answers ends steady: what follows has followed. -/
theorem steady_of_exec {c : Instr} {s t : State} (h : exec c s = .next t) : Steady t := by
  obtain ⟨u, hu⟩ | hfault := exec_answers c s
  · obtain rfl : follow u = t := Host.Outcome.next.inj (hu.symm.trans h)
    exact follow_idem u
  · exact nomatch hfault.symm.trans h

/-- Only an access at an address without a bank does not complete. -/
theorem exec_completes {c : Instr} (h : ∀ m, c ≠ .memoryAccess m) (s : State) : ∃ t, exec c s = .next t := by
  cases c
  case memoryAccess m => exact absurd rfl (h m)
  case hoistFragment l bad => cases bad <;> exact ⟨_, rfl⟩
  all_goals exact ⟨_, rfl⟩

/-- Settles O1: both halves are the definitions of `step` and of the commands' meanings. -/
theorem stepRunsTheFrontCommand : Obligations.StepRunsTheFrontCommand :=
  fun _ s => ⟨fun _ => rfl, fun h => exec_completes h s⟩

end Sys2Proof.Machine
end

section
/-! PROOFS. Steady states: what follows a state stands in every part, the passing of time included (01_station_overview.md R31,
14_digital_channels.md R368, R376, 15_analogue_channels.md R398, 05_program_cycle.md R150). -/

namespace Sys2Proof.Machine

/-- A steady state is one whose stages stand and whose clocks stand. -/
theorem refreshStages_of_steady {s : State} (h : Steady s) : refreshStages s = s := by
  have hs : grantClocks (refreshStages s) = s := h
  calc refreshStages s = refreshStages (grantClocks (refreshStages s)) := by rw [hs]
    _ = grantClocks (refreshStages s) := by rw [← grantClocks_refresh, refreshStages_idem]
    _ = s := hs

theorem grantClocks_of_steady {s : State} (h : Steady s) : grantClocks s = s := by
  have hs : grantClocks (refreshStages s) = s := h
  rwa [refreshStages_of_steady h] at hs

theorem steady_of_parts {s : State} (hst : refreshStages s = s) (hcl : grantClocks s = s) : Steady s := by
  unfold Steady follow
  rw [hst, hcl]

/-- A state at another time: the monotonic base, network time and the record of seconds differ. -/
def State.atTime (s : State) (mono frac : Nat) (tm : Time) (l : Log) : State :=
  { s with mono := mono, monoFrac := frac, time := tm, log := l }

section
variable {s : State} (mono frac : Nat) (tm : Time) (l : Log)

/-- The base is read only where a stage changes. -/
theorem dioStep_atTime {n : Nat} {c : DioCh} (h : dioStep s n c = c) : dioStep (s.atTime mono frac tm l) n c = c := by
  have hstage : (dioStep s n c).stage = c.stage := by rw [h]
  have hon : (dioStep (s.atTime mono frac tm l) n c).stage = c.stage := hstage
  calc dioStep (s.atTime mono frac tm l) n c
      = { dioStep s n c with
          since := if (dioStep (s.atTime mono frac tm l) n c).stage == c.stage then c.since else mono } := rfl
    _ = c := by rw [hon, h]; simp

theorem refreshStages_atTime (h : refreshStages s = s) : refreshStages (s.atTime mono frac tm l) = s.atTime mono frac tm l := by
  have hd : s.dio.ch.mapIdx (dioStep s) = s.dio.ch := congrArg (fun x : State => x.dio.ch) h
  have ha : s.ana.ch.mapIdx (anaStep s) = s.ana.ch := congrArg (fun x : State => x.ana.ch) h
  have hd' : s.dio.ch.mapIdx (dioStep (s.atTime mono frac tm l)) = s.dio.ch := by
    refine List.ext_getElem (by simp) fun i h1 h2 => ?_
    have hi : dioStep s i s.dio.ch[i] = s.dio.ch[i] := by
      rw [← List.getElem_mapIdx (f := dioStep s) (h := by simpa using h2)]
      simp only [hd]
    rw [List.getElem_mapIdx, dioStep_atTime mono frac tm l hi]
  show ({ s.atTime mono frac tm l with
    dio := { s.dio with ch := s.dio.ch.mapIdx (dioStep (s.atTime mono frac tm l)) }
    ana := { s.ana with ch := s.ana.ch.mapIdx (anaStep s) } } : State) = _
  rw [hd', ha]
  rfl

theorem grantClocks_atTime (hcfg : tm.cfg = s.time.cfg) (h : grantClocks s = s) :
    grantClocks (s.atTime mono frac tm l) = s.atTime mono frac tm l := by
  have hreq : ∀ c, clockRequested (s.atTime mono frac tm l) c = clockRequested s c := fun c => by
    cases c
    case network => simp only [clockRequested, State.atTime, hcfg, railsOn]
    all_goals rfl
  have hheld : ∀ c, clockHeld (s.atTime mono frac tm l) c = clockHeld s c := fun _ => rfl
  have hgrant : grantClocks (s.atTime mono frac tm l) = (grantClocks s).atTime mono frac tm l := by
    unfold grantClocks
    simp only [hreq, hheld]
    rfl
  rw [hgrant, h]

theorem steady_atTime (hcfg : tm.cfg = s.time.cfg) (h : Steady s) : Steady (s.atTime mono frac tm l) :=
  steady_of_parts (refreshStages_atTime mono frac tm l (refreshStages_of_steady h))
    (grantClocks_atTime mono frac tm l hcfg (grantClocks_of_steady h))

end

/-! ### The idle step (R150, R308, R461) -/

/-- A slow step moves the base alone. -/
theorem slowTick_eq (s : State) : slowTick s = { s with mono := (slowTick s).mono, monoFrac := (slowTick s).monoFrac } := by
  by_cases hf : s.monoFrac + 18944 < 32768
  · simp only [slowTick, hf, if_true]
  · simp only [slowTick, hf, if_false]

/-- The period of the always-on clock in 1/32,768 ns: the base advances by it, the fraction carried on. -/
theorem slowTick_period (s : State) :
    (slowTick s).mono * 32768 + (slowTick s).monoFrac = s.mono * 32768 + s.monoFrac + 1000000000 := by
  by_cases hf : s.monoFrac + 18944 < 32768
  · simp only [slowTick, hf, if_true]
    omega
  · simp only [slowTick, hf, if_false]
    omega

theorem slowTick_monoFrac_lt {s : State} (h : s.monoFrac < 32768) : (slowTick s).monoFrac < 32768 := by
  by_cases hf : s.monoFrac + 18944 < 32768
  · simp only [slowTick, hf, if_true]
  · simp only [slowTick, hf, if_false]
    omega

theorem idle_of_railsOff {s : State} (h : s.pwr.railsOff = true) : idle s = s := by
  simp only [idle, h, if_true]

theorem idle_of_not_harbour {s : State} (hr : s.pwr.railsOff = false) (hm : s.sys.mode ≠ .harbour) : idle s = fastTick s := by
  simp only [idle, hr, hm, Bool.false_eq_true, if_false]

/-- The record of seconds once harbour watch has moved the base: asleep, the second in progress moves with it. -/
def logAtSlow (s : State) : Log :=
  { s.log with secBase := if s.pwr.hbr = .asleep then s.log.secBase + ((slowTick s).mono - s.mono) else s.log.secBase }

theorem idle_of_harbour {s : State} (hr : s.pwr.railsOff = false) (hm : s.sys.mode = .harbour) :
    idle s = s.atTime (slowTick s).mono (slowTick s).monoFrac s.time (logAtSlow s) := by
  simp only [idle, hr, hm, Bool.false_eq_true, if_false, if_true, logAtSlow]
  split_ifs
  · rw [slowTick_eq s]
    rfl
  · exact slowTick_eq s

/-- An idle step moves the time and nothing that the stages or the clocks read. -/
theorem idle_eq_atTime (s : State) : ∃ mono frac tm l, tm.cfg = s.time.cfg ∧ idle s = s.atTime mono frac tm l := by
  by_cases hr : s.pwr.railsOff = true
  · exact ⟨s.mono, s.monoFrac, s.time, s.log, rfl, idle_of_railsOff hr⟩
  replace hr : s.pwr.railsOff = false := by simpa using hr
  by_cases hm : s.sys.mode = .harbour
  · exact ⟨_, _, _, _, rfl, idle_of_harbour hr hm⟩
  · exact ⟨(fastTick s).mono, s.monoFrac, (fastTick s).time, s.log, rfl, idle_of_not_harbour hr hm⟩

theorem steady_idle {s : State} (h : Steady s) : Steady (idle s) := by
  obtain ⟨mono, frac, tm, l, hcfg, hidle⟩ := idle_eq_atTime s
  rw [hidle]
  exact steady_atTime mono frac tm l hcfg h

/-- Settles O3: a command ends in what follows it, which follows once, and an idle step only moves the time. -/
theorem everyStepKeepsSteady : Obligations.EveryStepKeepsSteady := by
  unfold Obligations.EveryStepKeepsSteady
  intro s t hs hstep
  cases hp : s.pending with
  | nil =>
    obtain rfl : idle s = t := Host.Outcome.next.inj ((step_of_empty hp).symm.trans hstep)
    exact steady_idle hs
  | cons c rest =>
    rw [step_of_cons hp] at hstep
    exact steady_of_exec hstep

/-- Settles O4: the state after reset is a closed value, in which nothing follows. -/
theorem resetIsSteady : Obligations.ResetIsSteady := by
  unfold Obligations.ResetIsSteady Steady
  exact ⟨by decide +kernel, by decide +kernel, by decide +kernel, rfl⟩

/-- Settles O2, by what an idle step is without power, in harbour watch and otherwise. -/
theorem idleStepAdvancesTime : Obligations.IdleStepAdvancesTime := by
  unfold Obligations.IdleStepAdvancesTime
  intro s hp
  refine ⟨idle s, step_of_empty hp, ?_⟩
  cases hr : s.pwr.railsOff with
  | true =>
    rw [idle_of_railsOff hr]
    exact ⟨rfl, fun _ => rfl, nofun, nofun, nofun⟩
  | false =>
    by_cases hm : s.sys.mode = .harbour
    · rw [idle_of_harbour hr hm]
      refine ⟨rfl, nofun, fun _ h => absurd hm h, fun _ _ => ?second, fun _ _ hf => ⟨?frac, rfl, ?period⟩⟩
      case second => simp only [State.atTime, logAtSlow]
      case frac => simpa only [State.atTime] using slowTick_monoFrac_lt hf
      case period => simpa only [State.atTime] using slowTick_period s
    · rw [idle_of_not_harbour hr hm]
      refine ⟨rfl, nofun, fun _ _ => ⟨?mono, rfl⟩, fun _ h => absurd h hm, fun _ h => absurd h hm⟩
      case mono => simp only [fastTick, onTime]

end Sys2Proof.Machine
end

section
/-! PROOFS. The stages of the digital outputs: where a rule holds them off (14_digital_channels.md R368 to R377,
03_supplies_and_harbour_watch.md R72, R74). -/

namespace Sys2Proof.Machine

/-- A step from a steady state ends steady, so every stage stands as its channel and the state give it. -/
theorem stage_after_step {s t : State} {n : Nat} (hs : Steady s) (h : step s = .next t) (hn : n < t.dio.ch.length) :
    (dioCh t n).stage = dioTarget t n (dioCh t n) :=
  stage_of_steady t (everyStepKeepsSteady s t hs h) n hn

section
variable {t : State} {n : Nat} {c : DioCh}

theorem dioTarget_input (h : c.mode.isInput = true) : dioTarget t n c = false := by
  unfold dioTarget
  cases hm : c.mode <;> simp [hm, DioMode.isInput] at h ⊢

/-- What holds an output's stage off, whatever it is commanded to (R72, R74, R370, R376, R377). -/
def HeldOff (t : State) (n : Nat) (c : DioCh) : Prop :=
  t.sys.mode = .harbour ∨ dioReleased c = true ∨ (fieldGroup t (n / 8)).st = .awaitAck ∨
  (fieldGroup t (n / 8)).st.dead = true ∧ c.policy ≠ .hold ∨
  (fieldGroup t (n / 8)).st.dead = false ∧
    (c.ostate = .shortWait ∨ c.ostate = .latched ∨ t.sys.mode = .halted ∧ c.policy ≠ .safeOn)

/-- The rules that come before a command, in the order in which they hold an output's stage off. -/
theorem dioTarget_heldOff (ho : c.mode.isOutput = true) (h : HeldOff t n c) : dioTarget t n c = false := by
  have hmode : c.mode = .output ∨ c.mode = .pairWired := by
    cases hm : c.mode <;> simp [hm, DioMode.isOutput] at ho ⊢
  have hawait : FieldState.awaitAck.dead = false := rfl
  obtain hm | hm := hmode <;> obtain h | h | h | ⟨h, h'⟩ | ⟨h, h' | h' | ⟨h', h''⟩⟩ := h <;> simp [dioTarget, *]

end

/-- Settles O5: after any step the stage is what `dioTarget` gives, which is off wherever a rule holds it off. -/
theorem outputsOffWhereNothingMayDrive : Obligations.OutputsOffWhereNothingMayDrive := by
  unfold Obligations.OutputsOffWhereNothingMayDrive
  intro s t n hs hstep hn c g
  have hstage : c.stage = dioTarget t n c := stage_after_step hs hstep hn
  refine ⟨fun hin => hstage.trans (dioTarget_input hin), fun hout => ?_⟩
  have off (h : HeldOff t n c) : c.stage = false := hstage.trans (dioTarget_heldOff hout h)
  exact
    ⟨fun hm => off (.inl hm),
     fun ho hd => off (.inr (.inr (.inr (.inr ⟨hd, ho.imp_right .inl⟩)))),
     fun hg => off (.inr (.inr (.inl hg))),
     fun hr => off (.inr (.inl hr)),
     fun hd hp => off (.inr (.inr (.inr (.inl ⟨hd, hp⟩)))),
     fun hm hd hp => off (.inr (.inr (.inr (.inr ⟨hd, .inr (.inr ⟨hm, hp⟩)⟩))))⟩

end Sys2Proof.Machine
end

section
/-! PROOFS. What a settled command leaves of the digital channels beside what it delivers: a standing feed, a low readback and a pulse end
in the outputs' check alone (14_digital_channels.md R369, R370, R372, R375). -/

namespace Sys2Proof.Machine

/-- What a settled command answers, by name. -/
theorem settled_follow (s u : State) : Settled u (follow (settle s u)) := by
  obtain ⟨t, ht, hs⟩ := settled s u
  cases ht
  exact hs

/-! ### A delivery -/

/-- A digital channel without what a delivery or a refresh changes. -/
def DioCh.undelivered (c : DioCh) : DioCh :=
  { c with
    command := false, posted := false, latchedOff := false, relOther := false, ostate := .normal, retries := 0, clearBit := false
    restoreBit := false, stage := false, held := none, switches := 0, since := 0 }

/-- The channels without what a delivery changes. -/
def dioUndelivered (s : State) : List DioCh := s.dio.ch.map DioCh.undelivered

theorem onDioCh_undelivered (n : Nat) (f : DioCh → DioCh) (h : ∀ c, (f c).undelivered = c.undelivered) (s : State) :
    dioUndelivered (onDioCh n f s) = dioUndelivered s :=
  map_modify_keep DioCh.undelivered f h s.dio.ch n

theorem refreshStages_undelivered (s : State) : dioUndelivered (refreshStages s) = dioUndelivered s :=
  map_mapIdx_keep DioCh.undelivered (dioStep s) (fun _ _ => rfl) s.dio.ch

theorem dioClear_undelivered (n : Nat) (s : State) : dioUndelivered (dioClear n s) = dioUndelivered s := by
  unfold dioClear
  split_ifs
  · rfl
  · rfl
  · rw [refreshStages_undelivered]
    exact onDioCh_undelivered n _ (fun c => by split <;> rfl) s

theorem restoreGroup_undelivered (g : Nat) (s : State) : dioUndelivered (restoreGroup g s) = dioUndelivered s := by
  unfold restoreGroup
  split_ifs
  · rw [outputsReturn, refreshStages_undelivered]
    exact map_mapIdx_keep DioCh.undelivered (fun n c => if n / 8 = g then { c with posted := false, latchedOff := true } else c)
      (fun _ _ => by split <;> rfl) s.dio.ch
  · rfl

theorem dioItem_undelivered (n item : Nat) (b : Bool) (s : State) : dioUndelivered (dioItem n item b s) = dioUndelivered s := by
  unfold dioItem
  dsimp only
  split_ifs
  · rw [dioClear_undelivered]
    exact onDioCh_undelivered n _ (by intro c; rfl) s
  · exact onDioCh_undelivered n _ (by intro c; rfl) s
  · rw [restoreGroup_undelivered]
    exact onDioCh_undelivered n _ (by intro c; rfl) s
  · exact onDioCh_undelivered n _ (by intro c; rfl) s
  · rw [dioCommand, refreshStages_undelivered]
    exact onDioCh_undelivered n _ (fun c => by split <;> rfl) s
  · rfl

theorem anaCommand_undelivered (n : Nat) (k : Int) (s : State) : dioUndelivered (anaCommand n k s) = dioUndelivered s := by
  rw [anaCommand, refreshStages_undelivered]
  rfl

theorem sinkTakes_undelivered (k : Sink) (e : SigEntry) (s : State) : dioUndelivered (sinkTakes k e s) = dioUndelivered s := by
  unfold sinkTakes
  split
  · exact dioItem_undelivered _ _ _ s
  · dsimp only
    split_ifs
    · exact anaCommand_undelivered _ _ s
    · unfold anaCommandNum
      split
      · exact anaCommand_undelivered _ _ s
      · exact anaCommand_undelivered _ _ _
    · rfl
  · rfl

/-! ### Due writes and conditions -/

section
variable {β : Type} (m : State → β) (hsink : ∀ k e s, m (sinkTakes k e s) = m s)
  (hentry : ∀ i f s, m (onEntry i f (touchEntry i s)) = m s) (hcyc : ∀ f s, m (onCyc f s) = m s)
include hsink

theorem deliver_keeps (i : Nat) (s : State) : m (deliver i s) = m s :=
  forAll_keeps m _ _ (fun _ _ => hsink _ _ _) s

include hentry hcyc

theorem writeEntry_keeps (i : Nat) (v : Datum) (q : Byte) (s : State) : m (writeEntry i v q s) = m s := by
  unfold writeEntry
  split_ifs
  · rw [deliver_keeps m hsink, hentry, hcyc]
  · rw [deliver_keeps m hsink, hentry]
  · rfl

theorem drain_keeps (n : Nat) (l : List Due) (s : State) : m (drain n l s) = m s := by
  induction n generalizing l s with
  | zero => cases l <;> rfl
  | succ n ih =>
    cases l with
    | nil => rfl
    | cons d r => exact (ih _ _).trans (writeEntry_keeps m hsink hentry hcyc _ _ _ s)

end

theorem settle_undelivered (s u : State) : dioUndelivered (settle s u) = dioUndelivered (outputsCheck (pulsesCheck u)) :=
  (markConditions_keeps dioUndelivered (fun _ _ _ => rfl) _).trans
    ((drain_keeps dioUndelivered sinkTakes_undelivered (fun _ _ _ => rfl) (fun _ _ => rfl) _ _ _).trans (refreshStages_undelivered _))

/-- A channel after a settled command, but for what deliveries and refreshes change. -/
theorem dioCh_settled_undelivered (s u : State) (n : Nat) :
    (dioCh (follow (settle s u)) n).undelivered = (dioCh (outputsCheck (pulsesCheck u)) n).undelivered :=
  dioCh_of_map _ _ _ ((refreshStages_undelivered (settle s u)).trans (settle_undelivered s u)) n

/-! ### The outputs' check after the pulses' check -/

theorem dioCh_pulsesCheck (u : State) (n : Nat) :
    dioCh (pulsesCheck u) n = if pulsesRun u then dioCh u n else { dioCh u n with pulse := false } := by
  unfold pulsesCheck
  split_ifs
  · rfl
  · exact getD_map (fun c : DioCh => { c with pulse := false }) u.dio.ch n {}

theorem dioCh_outputsCheck {u : State} {n : Nat} (h : n < u.dio.ch.length) :
    dioCh (outputsCheck u) n = dioCheck u n (dioCh u n) := by
  simp [dioCh, outputsCheck, List.getD_eq_getElem?_getD, h]

theorem pulsesCheck_dio_length (u : State) : (pulsesCheck u).dio.ch.length = u.dio.ch.length := by
  unfold pulsesCheck
  split <;> simp

/-- What the pulses' check leaves: all but network time and the digital channels. -/
theorem pulsesCheck_frame (u : State) : pulsesCheck u = { u with time := (pulsesCheck u).time, dio := (pulsesCheck u).dio } := by
  unfold pulsesCheck
  split <;> rfl

theorem extNow_settled {s u : State} {n : Nat} (h : n < u.dio.ch.length) :
    (dioCh (follow (settle s u)) n).extNow =
      ((dioCh u n).extNow && !dioTarget (pulsesCheck u) n (dioCh (pulsesCheck u) n) && extFeedReports (pulsesCheck u) n) := by
  have hch := congrArg DioCh.extNow (dioCh_settled_undelivered s u n)
  rw [dioCh_outputsCheck ((pulsesCheck_dio_length u).symm ▸ h)] at hch
  have hext : (dioCh (pulsesCheck u) n).extNow = (dioCh u n).extNow := by
    rw [dioCh_pulsesCheck]
    split <;> rfl
  exact hch.trans (by simp only [DioCh.undelivered, dioCheck, hext])

theorem lowNow_settled {s u : State} {n : Nat} (h : n < u.dio.ch.length) :
    (dioCh (follow (settle s u)) n).lowNow = ((dioCh u n).lowNow && pairCommanded u n == some true) := by
  have hch := congrArg DioCh.lowNow (dioCh_settled_undelivered s u n)
  rw [dioCh_outputsCheck ((pulsesCheck_dio_length u).symm ▸ h)] at hch
  have hlow : (dioCh (pulsesCheck u) n).lowNow = (dioCh u n).lowNow := by
    rw [dioCh_pulsesCheck]
    split <;> rfl
  have hpair : pairCommanded (pulsesCheck u) n = pairCommanded u n := by rw [pulsesCheck_frame]; rfl
  exact hch.trans (by simp only [DioCh.undelivered, dioCheck, hlow, hpair])

end Sys2Proof.Machine
end

section
/-! PROOFS. The commands of the digital channels (14_digital_channels.md R365 to R376). -/

namespace Sys2Proof.Machine

/-! ### What a channel's inward side holds -/

@[simp] theorem DioCh.inward_mode (c : DioCh) : c.inward.mode = c.mode := rfl
@[simp] theorem DioCh.inward_policy (c : DioCh) : c.inward.policy = c.policy := rfl
@[simp] theorem DioCh.inward_level (c : DioCh) : c.inward.level = c.level := rfl
@[simp] theorem DioCh.inward_readback (c : DioCh) : c.inward.readback = c.readback := rfl
@[simp] theorem DioCh.inward_foundAt (c : DioCh) : c.inward.foundAt = c.foundAt := rfl
@[simp] theorem DioCh.inward_diag (c : DioCh) : c.inward.diag = c.diag := rfl
@[simp] theorem DioCh.inward_relDemand0 (c : DioCh) : c.inward.relDemand0 = c.relDemand0 := rfl
@[simp] theorem DioCh.inward_relDemand1 (c : DioCh) : c.inward.relDemand1 = c.relDemand1 := rfl
@[simp] theorem DioCh.inward_silent (c : DioCh) : c.inward.silent = c.silent := rfl
@[simp] theorem DioCh.inward_silentRec (c : DioCh) : c.inward.silentRec = c.silentRec := rfl
@[simp] theorem DioCh.inward_commanded (c : DioCh) : c.inward.commanded = c.commanded := rfl
@[simp] theorem DioCh.inward_valid (c : DioCh) : c.inward.valid = c.valid := rfl

/-! ### Frames -/

/-- A settled command that leaves all but the digital channels: what follows it is all that changes beside them. -/
theorem frame_dio {s u : State} (h : { u with dio := s.dio } = s) :
    ({ follow (settle s u) with dio := s.dio } : State).rest = s.rest :=
  ((settled_follow s u).wdio s.dio).trans (congrArg State.rest h)

/-- The same of a command that records an event too. -/
theorem frame_dio_log {s u : State} (h : { u with dio := s.dio, log := s.log } = s) :
    ({ follow (settle s u) with dio := s.dio, log := s.log } : State).rest = s.rest :=
  ((settled_follow s u).wdiolog s.dio s.log).trans (congrArg State.rest h)

/-- Another channel's inward side stays where the command changes one channel. -/
theorem inward_of_other {s u : State} {n m : Nat} {f : DioCh → DioCh} (hu : u.dio.ch = s.dio.ch.modify n f) (h : n ≠ m) :
    (dioCh (follow (settle s u)) m).inward = (dioCh s m).inward := by
  have hm : dioCh u m = dioCh s m := by
    rw [← dioCh_onDioCh_ne s n m f h, dioCh, hu]
    rfl
  rw [(settled_follow s u).dio, hm]

/-! ### DIO_DEBOUNCE (R365, R366) -/

/-- Settles O6: the level or the readback is the channel's inward side; a feed that stands and a readback that is low only end. -/
theorem digitalLevelsFollow : Obligations.DigitalLevelsFollow := by
  unfold Obligations.DigitalLevelsFollow
  intro s n level hn
  set u := dioLevel n level s with hu
  have hch : dioCh u n = if (dioCh s n).mode.isInput
      then { dioCh s n with level := level, valid := !(fieldGroup s (n / 8)).st.dead }
      else { dioCh s n with readback := level, extNow := (dioCh s n).extNow && level, lowNow := (dioCh s n).lowNow && !level } :=
    dioCh_onDioCh s n _ hn
  have hlen : n < u.dio.ch.length := by simpa [hu, dioLevel, onDioCh] using hn
  have hin := (settled_follow s u).dio n
  refine ⟨follow (settle s u), rfl, fun hi => ?input, fun hi => ?output, fun m hm => inward_of_other rfl hm, frame_dio rfl⟩
  case input =>
    rw [if_pos hi] at hch
    rw [hch] at hin
    exact ⟨by simpa using congrArg DioCh.level hin, by simpa using congrArg DioCh.valid hin,
      by simpa using congrArg DioCh.readback hin⟩
  case output =>
    rw [if_neg (by simp [hi])] at hch
    have hext := extNow_settled (s := s) hlen
    have hlow := lowNow_settled (s := s) hlen
    rw [hch] at hin hext hlow
    refine ⟨by simpa using congrArg DioCh.readback hin, by simpa using congrArg DioCh.level hin, fun h => ?_, fun h => ?_⟩
    · rw [hext] at h
      simp only [Bool.and_eq_true] at h
      obtain ⟨⟨hboth, -⟩, -⟩ := h
      exact hboth
    · rw [hlow] at h
      simp only [Bool.and_eq_true, Bool.not_eq_true'] at h
      obtain ⟨hboth, -⟩ := h
      exact hboth

/-! ### What a channel keeps where no delivery reaches one -/

/-- Without a sink on a digital channel, a settled command leaves its output state but for a retry whose command is off. -/
theorem still_settled {s u : State} (h : NoDioSink u) {n : Nat} (hn : n < u.dio.ch.length) :
    (dioCh (follow (settle s u)) n).still = (dioCheck (pulsesCheck u) n (dioCh (pulsesCheck u) n)).still := by
  rw [(settled_follow s u).dioStill h n, dioCh_outputsCheck ((pulsesCheck_dio_length u).symm ▸ hn)]

theorem ostate_settled {s u : State} (h : NoDioSink u) {n : Nat} (hn : n < u.dio.ch.length) (ho : (dioCh u n).ostate ≠ .retry) :
    (dioCh (follow (settle s u)) n).ostate = (dioCh u n).ostate := by
  have hp : (dioCh (pulsesCheck u) n).ostate = (dioCh u n).ostate := by
    rw [dioCh_pulsesCheck]
    split <;> rfl
  refine (congrArg DioCh.ostate (still_settled (s := s) h hn)).trans ?_
  simp only [DioCh.still, dioCheck, hp, beq_eq_false_iff_ne.2 ho, Bool.false_and, Bool.false_eq_true, if_false]

theorem retries_settled {s u : State} (h : NoDioSink u) {n : Nat} (hn : n < u.dio.ch.length) :
    (dioCh (follow (settle s u)) n).retries = (dioCh u n).retries := by
  refine (congrArg DioCh.retries (still_settled (s := s) h hn)).trans ?_
  rw [dioCh_pulsesCheck]
  split <;> rfl

/-- A command that changes one channel and leaves it in a state other than RETRY leaves it as it changed it. -/
theorem ostate_retries_of_changed {s u : State} {n : Nat} {f : DioCh → DioCh} (hu : u.dio.ch = s.dio.ch.modify n f) (hsig : u.sig = s.sig)
    (h : NoDioSink s) (hn : n < s.dio.ch.length) (ho : (f (dioCh s n)).ostate ≠ .retry) :
    (dioCh (follow (settle s u)) n).ostate = (f (dioCh s n)).ostate ∧
      (dioCh (follow (settle s u)) n).retries = (f (dioCh s n)).retries := by
  have hch : dioCh u n = f (dioCh s n) := by
    rw [← dioCh_onDioCh s n f hn, dioCh, hu]
    rfl
  have hsink : NoDioSink u := by rwa [NoDioSink, hsig]
  have hlen : n < u.dio.ch.length := by rwa [hu, List.length_modify]
  exact ⟨by rw [ostate_settled hsink hlen (by rwa [hch]), hch], by rw [retries_settled hsink hlen, hch]⟩

/-- A shorted output of a group that is neither LOST nor QUALIFYING is off (R370). -/
theorem dioTarget_shortWait {t : State} {n : Nat} {c : DioCh} (ho : c.ostate = .shortWait)
    (hg : (fieldGroup t (n / 8)).st.dead = false) : dioTarget t n c = false := by
  by_cases hout : c.mode.isOutput = true
  · exact dioTarget_heldOff hout (.inr (.inr (.inr (.inr ⟨hg, .inl ho⟩))))
  · cases hm : c.mode <;> simp [hm, DioMode.isOutput, dioTarget, ho] at hout ⊢

/-! ### DIO_SHORT (R370) -/

/-- The channel once a short is found on it. -/
def DioCh.shorted (thermal : Bool) (now : Nat) (c : DioCh) : DioCh :=
  { c with
    ostate := .shortWait, retries := 0, readback := false, foundAt := some now
    diag := if thermal then setBit (setBit c.diag 3 true) 4 true else setBit c.diag 3 true }

theorem dioShort_found {s : State} {n : Nat} (thermal : Bool) (hruns : dioRuns370 s (dioCh s n) = true)
    (ho : (dioCh s n).ostate = .normal) (hon : (dioCh s n).stage = true) (hstood : (dioCh s n).stood 2 s = true) :
    dioShort n thermal s = raise .dioShort .fault n 0 0 0
      (onDio (fun d => { d with flags := flag 1 d.flags }) (onDioCh n (DioCh.shorted thermal s.mono) s)) := by
  simp only [dioShort, hruns, ho, hon, hstood, beq_self_eq_true, Bool.and_self, if_true]
  rfl

theorem shorted_diag_short (thermal : Bool) (now : Nat) (c : DioCh) : (c.shorted thermal now).diag.getLsbD 3 = true := by
  cases thermal
  · exact setBit_get c.diag 3 (by decide)
  · exact (setBit_get_ne _ 4 3 (by decide) true).trans (setBit_get c.diag 3 (by decide))

theorem shorted_diag_thermal (now : Nat) (c : DioCh) : (c.shorted true now).diag.getLsbD 4 = true :=
  setBit_get (setBit c.diag 3 true) 4 (by decide)

/-- Settles O7: what a short found writes is inward of the channel, and a channel in SHORT_WAIT is off. -/
theorem shortEntersShortWait : Obligations.ShortEntersShortWait := by
  unfold Obligations.ShortEntersShortWait
  intro s n thermal hn hruns ho hon hstood
  have hu := dioShort_found thermal hruns ho hon hstood
  set u := dioShort n thermal s
  have hch : dioCh u n = (dioCh s n).shorted thermal s.mono := by
    rw [hu]
    exact dioCh_onDioCh s n _ hn
  have hlen : n < u.dio.ch.length := by simpa [hu, onDioCh] using hn
  have hset := settled_follow s u
  have hdiag : (dioCh (follow (settle s u)) n).diag = ((dioCh s n).shorted thermal s.mono).diag := by
    simpa [hch] using congrArg DioCh.diag (hset.dio n)
  refine ⟨follow (settle s u), rfl, ?short, ?thermal, ?flag, ?log, fun m hm => ?others,
    frame_dio_log (by rw [hu]; rfl), fun hsink => ?state⟩
  case short => rw [hdiag, shorted_diag_short]
  case thermal =>
    rintro rfl
    rw [hdiag, shorted_diag_thermal]
  case flag =>
    rw [hset.dioFlags 1 (by decide), hu]
    exact setBit_get s.dio.flags 1 (by decide)
  case log =>
    rw [hset.log, hu]
    exact raise_log _ _ _ _ _ _ _ _ rfl rfl
  case others => exact inward_of_other (f := DioCh.shorted thermal s.mono) (by rw [hu]; rfl) hm
  case state =>
    have hsink : NoDioSink u := by rwa [hu]
    have hwait : (dioCh (follow (settle s u)) n).ostate = .shortWait := by
      rw [ostate_settled hsink hlen (by rw [hch]; exact nofun), hch]
      rfl
    refine ⟨hwait, ?_, ?_, fun hg => ?_⟩
    · rw [retries_settled hsink hlen, hch]
      rfl
    · simpa [hch, DioCh.shorted] using congrArg DioCh.readback (hset.dio n)
    · rw [stage_of_steady _ hset.steady n (hset.dioLen.symm ▸ hlen), dioTarget_shortWait hwait hg]

/-! ### What an output is commanded to, its output state apart -/

/-- Only a timed pulse channel reads its pulse. -/
theorem dioTarget_pulse {t : State} {n : Nat} {c : DioCh} (h : c.mode ≠ .timedPulse) (b : Bool) :
    dioTarget t n { c with pulse := b } = dioTarget t n c := by
  cases hm : c.mode <;> simp [dioTarget, hm] at h ⊢ <;> rfl

/-- The pulses' check changes what an output is commanded to only where it ends a pulse. -/
theorem dioWants_pulsesCheck {u : State} {n : Nat} (h : (dioCh u n).mode = .timedPulse → pulsesRun u = true) :
    dioWants (pulsesCheck u) n = dioWants u n := by
  by_cases hrun : pulsesRun u = true
  · simp only [pulsesCheck, hrun, if_true]
  · have hch : dioCh (pulsesCheck u) n = { dioCh u n with pulse := false } := by rw [dioCh_pulsesCheck, if_neg hrun]
    have hmode : (dioCh u n).mode ≠ .timedPulse := fun hm => hrun (h hm)
    unfold dioWants
    rw [hch, pulsesCheck_frame]
    exact dioTarget_pulse (c := { dioCh u n with ostate := .normal }) hmode false

/-! ### DIO_RETRY and DIO_RETRY_CHECK (R370, R374) -/

/-- The channel once it tries again. -/
def DioCh.retried (c : DioCh) : DioCh := { c with ostate := .retry, retries := min (c.retries + 1) 10 }

theorem dioRetry_of_wait {s : State} {n : Nat} (hruns : dioRuns370 s (dioCh s n) = true) (ho : (dioCh s n).ostate = .shortWait)
    (hstood : (dioCh s n).stood 100 s = true) (hw : dioWants s n = true) (hg : (fieldGroup s (n / 8)).st.off = false) :
    dioRetry n s = onDioCh n DioCh.retried s := by
  simp only [dioRetry, hruns, ho, hstood, hw, hg, beq_self_eq_true, Bool.not_false, Bool.and_self, if_true]
  rfl

/-- A retry stays while its command is on. -/
theorem retry_settled {s u : State} {n : Nat} (h : NoDioSink u) (hn : n < u.dio.ch.length) (ho : (dioCh u n).ostate = .retry)
    (hw : dioWants (pulsesCheck u) n = true) : (dioCh (follow (settle s u)) n).ostate = .retry := by
  have hp : (dioCh (pulsesCheck u) n).ostate = .retry := by
    rw [dioCh_pulsesCheck]
    split <;> exact ho
  refine (congrArg DioCh.ostate (still_settled (s := s) h hn)).trans ?_
  simp only [DioCh.still, dioCheck, hp, hw, Bool.not_true, Bool.and_false, Bool.false_eq_true, if_false]

section
variable {s : State} {n : Nat} (ho : (dioCh s n).ostate = .retry) (hstood : (dioCh s n).stood 2 s = true)
  (hw : dioWants s n = true) (hg : (fieldGroup s (n / 8)).st.off = false)
include ho hstood hw hg

theorem dioRetryCheck_high : dioRetryCheck n true s =
    raise .dioRecovered .notice n 0 0 0 (onDioCh n (fun c => { c with ostate := .normal, retries := 0, readback := true }) s) := by
  simp [dioRetryCheck, ho, hstood, hw, hg]

theorem dioRetryCheck_low (h : (dioCh s n).retries < 10) : dioRetryCheck n false s =
    onDioCh n (fun c => { c with ostate := .shortWait, readback := false, foundAt := some s.mono }) s := by
  simp [dioRetryCheck, ho, hstood, hw, hg, h]

theorem dioRetryCheck_last (h : 10 ≤ (dioCh s n).retries) : dioRetryCheck n false s =
    raise .dioLatched .fault n 0 0 0 (onDio (fun d => { d with flags := flag 2 d.flags })
      (onDioCh n (fun c => { c with ostate := .latched, readback := false, foundAt := some s.mono }) s)) := by
  simp [dioRetryCheck, ho, hstood, hw, hg, h.not_gt]

end

/-! ### DIO_CLEAR (R371) -/

/-- Whether a clear of channel `n` is taken: its group is supplied and no short was found in this check of 100 µs. -/
def clearTaken (s : State) (n : Nat) : Bool :=
  !(fieldGroup s (n / 8)).st.off && !((dioCh s n).foundAt.any fun t => t / 100000 == s.mono / 100000)

/-- The channel once a clear is taken. -/
def DioCh.cleared (c : DioCh) : DioCh :=
  if c.ostate == .shortWait || c.ostate == .latched then { c with ostate := .normal, retries := 0 } else c

theorem cleared_still (c : DioCh) : c.cleared.still = c.still.cleared := by
  unfold DioCh.cleared DioCh.still
  dsimp only
  split <;> rfl

theorem dioCh_refreshStages_still (s : State) (n : Nat) : (dioCh (refreshStages s) n).still = (dioCh s n).still :=
  dioCh_of_map _ _ _ (refreshStages_dioStill s) n

/-- A clear changes its own channel, and only where it is taken. -/
theorem dioClear_still {s : State} {m n : Nat} (hn : n < s.dio.ch.length) :
    (dioCh (dioClear m s) n).still = if n = m ∧ clearTaken s m = true then (dioCh s n).still.cleared else (dioCh s n).still := by
  unfold dioClear
  cases hoff : (fieldGroup s (m / 8)).st.off with
  | true => simp [clearTaken, hoff, dioCh, onDio]
  | false =>
    by_cases hfound : ((dioCh s m).foundAt.any fun t => t / 100000 == s.mono / 100000) = true
    · simp [clearTaken, hoff, hfound]
    · have htaken : clearTaken s m = true := by simp [clearTaken, hoff, hfound]
      simp only [Bool.false_eq_true, if_false, hfound, htaken, and_true, dioCh_refreshStages_still]
      obtain rfl | hne := eq_or_ne n m
      · rw [if_pos rfl, dioCh_onDioCh s n _ hn]
        exact cleared_still (dioCh s n)
      · rw [if_neg hne, dioCh_onDioCh_ne s m n _ hne.symm]

theorem dioClear_length (m : Nat) (s : State) : (dioClear m s).dio.ch.length = s.dio.ch.length := by
  simpa [dioUndelivered] using congrArg List.length (dioClear_undelivered m s)

theorem dioClear_groups (m : Nat) (s : State) : (dioClear m s).pwr = s.pwr := by
  unfold dioClear
  split_ifs <;> rfl

theorem dioClear_mono (m : Nat) (s : State) : (dioClear m s).mono = s.mono := by
  unfold dioClear
  split_ifs <;> rfl

theorem clearTaken_dioClear (m n : Nat) (s : State) : clearTaken (dioClear m s) n = clearTaken s n := by
  have hch := dioCh_of_map DioCh.undelivered _ _ (dioClear_undelivered m s) n
  have hfound : (dioCh (dioClear m s) n).foundAt = (dioCh s n).foundAt := by
    have hfoundAt := congrArg DioCh.foundAt hch
    exact hfoundAt
  simp only [clearTaken, fieldGroup, dioClear_groups, dioClear_mono, hfound]

/-- One after the other, the clears that a mask names act on their own channels. -/
theorem dioClears_still {mask : Word} {l : List Nat} (hl : l.Nodup) {s : State} {n : Nat} (hn : n < s.dio.ch.length) :
    (dioCh (forAll l (fun m t => if mask.getLsbD m then dioClear m t else t) s) n).still =
      if n ∈ l ∧ mask.getLsbD n = true ∧ clearTaken s n = true then (dioCh s n).still.cleared else (dioCh s n).still := by
  induction l generalizing s with
  | nil => simp [forAll]
  | cons m l ih =>
    obtain ⟨hm, hl⟩ := List.nodup_cons.1 hl
    show (dioCh (forAll l _ (if mask.getLsbD m then dioClear m s else s)) n).still = _
    cases hbit : mask.getLsbD m with
    | false =>
      simp only [Bool.false_eq_true, if_false, ih hl hn]
      obtain rfl | hne := eq_or_ne n m
      · simp [hbit]
      · simp [hne]
    | true =>
      rw [if_pos rfl, ih hl (by rwa [dioClear_length]), dioClear_still hn, clearTaken_dioClear]
      obtain rfl | hne := eq_or_ne n m
      · simp [hm, hbit]
      · simp [hne]

theorem dioClearMask_still {mask : Word} {s : State} {n : Nat} (h32 : n < 32) (hn : n < s.dio.ch.length) :
    (dioCh (dioClearMask mask s) n).still =
      if mask.getLsbD n = true ∧ clearTaken s n = true then (dioCh s n).still.cleared else (dioCh s n).still := by
  rw [dioClearMask, dioClears_still List.nodup_range hn]
  simp [h32]

theorem dioClearMask_beyond (mask : Word) (s : State) : (dioClearMask mask s).beyondField = s.beyondField :=
  forAll_keeps State.beyondField _ _ (fun m t => by
    split
    · exact dioClear_beyond m t
    · rfl) s

theorem dioClearMask_length (mask : Word) (s : State) : (dioClearMask mask s).dio.ch.length = s.dio.ch.length :=
  forAll_keeps (fun t => t.dio.ch.length) _ _ (fun m t => by
    split
    · exact dioClear_length m t
    · rfl) s

/-- What `rest` shows is what `beyondField` shows. -/
theorem rest_of_beyond {s u : State} (h : u.beyondField = s.beyondField) : u.rest = s.rest := by
  have hr : ∀ x : State, x.rest = { x.beyondField with sys := { x.beyondField.sys with run := [], refClock := false } } := fun _ => rfl
  rw [hr, hr, h]

/-- A settled command whose own effect stays within what deliveries change. -/
theorem frame_dio_of_rest {s u : State} (h : u.rest = s.rest) : ({ follow (settle s u) with dio := s.dio } : State).rest = s.rest :=
  congrArg (fun x : State => { x with dio := s.rest.dio }) ((settled_follow s u).rest.trans h)

theorem cleared_ostate (c : DioCh) :
    c.cleared.ostate = if c.ostate = .shortWait ∨ c.ostate = .latched then .normal else c.ostate := by
  unfold DioCh.cleared
  simp only [Bool.or_eq_true, beq_iff_eq]
  split <;> rfl

theorem cleared_retries {c : DioCh} (h : c.ostate = .shortWait ∨ c.ostate = .latched) : c.cleared.retries = 0 := by
  unfold DioCh.cleared
  simp only [Bool.or_eq_true, beq_iff_eq, if_pos h]

theorem clearTaken_iff {s : State} {n : Nat} : clearTaken s n = true ↔ (fieldGroup s (n / 8)).st.off = false ∧
    ((dioCh s n).foundAt.any fun x => x / 100000 == s.mono / 100000) = false := by
  simp only [clearTaken, Bool.and_eq_true, Bool.not_eq_true']

section
variable {s : State} {n : Nat} (mask : Word) (hsink : NoDioSink s) (h32 : n < 32) (hn : n < s.dio.ch.length)
include hsink h32 hn

theorem dioClear_ostate (ho : (dioCh s n).ostate ≠ .retry) :
    (dioCh (follow (settle s (dioClearMask mask s))) n).ostate =
      if mask.getLsbD n = true ∧ clearTaken s n = true ∧ ((dioCh s n).ostate = .shortWait ∨ (dioCh s n).ostate = .latched)
      then .normal else (dioCh s n).ostate := by
  have hu : (dioCh (dioClearMask mask s) n).ostate =
      if mask.getLsbD n = true ∧ clearTaken s n = true ∧ ((dioCh s n).ostate = .shortWait ∨ (dioCh s n).ostate = .latched)
      then .normal else (dioCh s n).ostate := by
    have hstill := congrArg DioCh.ostate (dioClearMask_still (mask := mask) h32 hn)
    rw [apply_ite DioCh.ostate, ← cleared_still] at hstill
    refine hstill.trans ?_
    show (if _ then (dioCh s n).cleared.ostate else (dioCh s n).ostate) = _
    rw [cleared_ostate, ← ite_and]
    simp only [and_assoc]
  have hsink' : NoDioSink (dioClearMask mask s) := by
    unfold NoDioSink
    rwa [sinks_beyond, dioClearMask_beyond, ← sinks_beyond]
  rw [ostate_settled hsink' ((dioClearMask_length mask s).symm ▸ hn), hu]
  rw [hu]
  split
  · exact nofun
  · exact ho

theorem dioClear_retries (hbit : mask.getLsbD n = true) (ht : clearTaken s n = true)
    (ho : (dioCh s n).ostate = .shortWait ∨ (dioCh s n).ostate = .latched) :
    (dioCh (follow (settle s (dioClearMask mask s))) n).retries = 0 := by
  have hsink' : NoDioSink (dioClearMask mask s) := by
    unfold NoDioSink
    rwa [sinks_beyond, dioClearMask_beyond, ← sinks_beyond]
  rw [retries_settled hsink' ((dioClearMask_length mask s).symm ▸ hn)]
  have hstill := congrArg DioCh.retries (dioClearMask_still (mask := mask) h32 hn)
  rw [if_pos ⟨hbit, ht⟩, ← cleared_still] at hstill
  exact hstill.trans (cleared_retries ho)

end

/-- Settles O8: a retry by what the channel is commanded to, its check by the readback and the retries made, a clear channel by channel. -/
theorem retriesOfAShortedOutput : Obligations.RetriesOfAShortedOutput := by
  unfold Obligations.RetriesOfAShortedOutput
  intro s hsink
  refine ⟨fun n hn hruns ho hstood hw hlt hg hpulse => ?retry, fun n high hn ho hstood hw hg => ?check, fun mask => ?clear⟩
  case retry =>
    have hu := dioRetry_of_wait hruns ho hstood hw hg
    set u := dioRetry n s
    have hch : dioCh u n = (dioCh s n).retried := by rw [hu, dioCh_onDioCh s n _ hn]
    have hlen : n < u.dio.ch.length := by simpa [hu, onDioCh] using hn
    have hsink' : NoDioSink u := by rwa [hu]
    have hwants : dioWants u n = true := by
      rw [← hw]
      unfold dioWants
      rw [hch, hu]
      rfl
    have hwants' : dioWants (pulsesCheck u) n = true := by
      rw [dioWants_pulsesCheck, hwants]
      intro hm
      rw [hch] at hm
      rw [← hpulse hm, hu]
      rfl
    refine ⟨follow (settle s u), rfl, retry_settled hsink' hlen (by rw [hch]; rfl) hwants', ?_, frame_dio (by rw [hu]; rfl)⟩
    rw [retries_settled hsink' hlen, hch]
    exact Nat.min_eq_left (by omega)
  case check =>
    cases high with
    | true =>
      have hu := dioRetryCheck_high ho hstood hw hg
      have hch := ostate_retries_of_changed (u := dioRetryCheck n true s) (by rw [hu]; rfl) (by rw [hu]; rfl) hsink hn (by exact nofun)
      refine ⟨_, rfl, frame_dio_log (by rw [hu]; rfl), fun _ => ⟨hch.1, hch.2, ?_⟩, nofun, nofun⟩
      rw [(settled_follow s _).log, hu]
      exact raise_log _ _ _ _ _ _ _ _ rfl rfl
    | false =>
      by_cases hlt : (dioCh s n).retries < 10
      · have hu := dioRetryCheck_low ho hstood hw hg hlt
        have hch := ostate_retries_of_changed (u := dioRetryCheck n false s) (by rw [hu]; rfl) (by rw [hu]; rfl) hsink hn (by exact nofun)
        refine ⟨_, rfl, frame_dio_log (by rw [hu]; rfl), nofun, fun _ _ => ⟨hch.1, hch.2, ?_⟩, fun _ h => absurd hlt h.not_gt⟩
        rw [(settled_follow s _).log, hu]
        rfl
      · have hu := dioRetryCheck_last ho hstood hw hg (by omega)
        have hch := ostate_retries_of_changed (u := dioRetryCheck n false s) (by rw [hu]; rfl) (by rw [hu]; rfl) hsink hn (by exact nofun)
        refine ⟨_, rfl, frame_dio_log (by rw [hu]; rfl), nofun, fun _ h => absurd h hlt, fun _ _ => ⟨hch.1, ?_⟩⟩
        rw [(settled_follow s _).log, hu]
        exact raise_log _ _ _ _ _ _ _ _ rfl rfl
  case clear =>
    have hbeyond := dioClearMask_beyond mask s
    refine ⟨follow (settle s (dioClearMask mask s)), rfl, ?_, frame_dio_of_rest (rest_of_beyond hbeyond), fun n h32 hn => ⟨?_, ?_⟩⟩
    · rw [(settled_follow s _).log]
      have hlog := congrArg State.log hbeyond
      exact hlog
    · intro ho
      rw [dioClear_ostate mask hsink h32 hn ho]
      simp only [clearTaken_iff, and_assoc]
    · intro hbit hg hf ho
      exact dioClear_retries mask hsink h32 hn hbit (clearTaken_iff.2 ⟨hg, hf⟩) ho

end Sys2Proof.Machine
end

section
/-! PROOFS. External feeds, low partners and the refresh of the digital stages (14_digital_channels.md R372, R375, R376). -/

namespace Sys2Proof.Machine

/-- A stage that is off stays so where the pulses' check ends its pulse. -/
theorem dioTarget_pulse_off {t : State} {n : Nat} {c : DioCh} (h : dioTarget t n c = false) :
    dioTarget t n { c with pulse := false } = false := by
  by_cases hm : c.mode = .timedPulse
  · simp [dioTarget, hm]
  · rw [dioTarget_pulse hm, h]

/-- What a channel is driven to after the pulses' check, where it is off before. -/
theorem dioTarget_pulsesCheck_off {u : State} {n : Nat} (h : dioTarget u n (dioCh u n) = false) :
    dioTarget (pulsesCheck u) n (dioCh (pulsesCheck u) n) = false := by
  rw [dioCh_pulsesCheck, pulsesCheck_frame]
  split
  · exact h
  · exact dioTarget_pulse_off h

theorem extFeedReports_pulsesCheck (u : State) (n : Nat) : extFeedReports (pulsesCheck u) n = extFeedReports u n := by
  have hmode : (dioCh (pulsesCheck u) n).mode = (dioCh u n).mode := by rw [dioCh_pulsesCheck]; split <;> rfl
  have hposted : (dioCh (pulsesCheck u) n).posted = (dioCh u n).posted := by rw [dioCh_pulsesCheck]; split <;> rfl
  have hrole : (pulsesCheck u).sys = u.sys := by rw [pulsesCheck_frame]
  have hpair : pairCommanded (pulsesCheck u) n = pairCommanded u n := by rw [pulsesCheck_frame]; rfl
  simp only [extFeedReports, hmode, hposted, hrole, hpair]

/-! ### DIO_EXT_FEED and DIO_PARTNER_LOW (R372, R375) -/

/-- A condition that begins on a channel with `mark`: bit `b` of its diagnostics, flag `f` and event `e` follow until the bit is cleared. -/
def reportOnce (n b f : Nat) (e : Ev) (mark : DioCh → DioCh) (s : State) : State :=
  if (dioCh s n).diag.getLsbD b then onDioCh n mark s
  else raise e .notice n 0 0 0 (onDio (fun d => { d with flags := flag f d.flags })
    (onDioCh n (fun c => { c with diag := setBit c.diag b true }) (onDioCh n mark s)))

/-- A foreign feed is seen. -/
def DioCh.fed (c : DioCh) : DioCh := { c with readback := true, extNow := true }

/-- The partner's low output is seen. -/
def DioCh.lowSeen (c : DioCh) : DioCh := { c with readback := false, lowNow := true }

theorem dioExtFeed_found {s : State} {n : Nat} (hoff : (dioCh s n).stage = false) (hstood : (dioCh s n).stood 2 s = true)
    (hrep : extFeedReports s n = true) :
    dioExtFeed n s = reportOnce n 2 0 .dioExtFeed DioCh.fed s := by
  simp only [dioExtFeed, hoff, hstood, hrep, Bool.not_false, Bool.and_self, if_true]
  rfl

theorem dioPartnerLow_found {s : State} {n : Nat} (hm : (dioCh s n).mode = .pairWired) (hpair : pairCommanded s n = some true) :
    dioPartnerLow n s = reportOnce n 7 3 .dioPartnerLow DioCh.lowSeen s := by
  simp only [dioPartnerLow, hm, hpair, beq_self_eq_true, Bool.and_self, if_true]
  rfl

section
variable {s : State} {n b f : Nat} {e : Ev} {mark : DioCh → DioCh}

/-- A record is the recorder's alone. -/
theorem raise_frame (e : Ev) (sev : Severity) (u p q r : Nat) (x : State) :
    raise e sev u p q r x = { x with log := (raise e sev u p q r x).log } := rfl

/-- What a report leaves: all but the channels, their flags and the log. -/
theorem reportOnce_frame : { reportOnce n b f e mark s with dio := s.dio, log := s.log } = s := by
  by_cases h : (dioCh s n).diag.getLsbD b = true
  · rw [reportOnce, if_pos h]
    rfl
  · rw [reportOnce, if_neg h, raise_frame]
    rfl

section
variable {u : State} (h : { u with dio := s.dio, log := s.log } = s)
include h

theorem dioTarget_of_frame (n : Nat) (c : DioCh) : dioTarget u n c = dioTarget s n c := by
  conv_rhs => rw [← h]
  rfl

theorem pairCommanded_of_frame (n : Nat) : pairCommanded u n = pairCommanded s n := by
  conv_rhs => rw [← h]
  rfl

theorem extFeedReports_of_frame {n : Nat} (hm : (dioCh u n).mode = (dioCh s n).mode) (hp : (dioCh u n).posted = (dioCh s n).posted) :
    extFeedReports u n = extFeedReports s n := by
  have hrole : u.sys = s.sys := by rw [← h]
  simp only [extFeedReports, hm, hp, hrole, pairCommanded_of_frame h]

end

theorem dioCh_reportOnce (hn : n < s.dio.ch.length) :
    dioCh (reportOnce n b f e mark s) n =
      if (dioCh s n).diag.getLsbD b then mark (dioCh s n)
      else { mark (dioCh s n) with diag := setBit (mark (dioCh s n)).diag b true } := by
  have hmark : dioCh (onDioCh n mark s) n = mark (dioCh s n) := dioCh_onDioCh s n mark hn
  unfold reportOnce
  split
  · exact hmark
  · rw [← hmark]
    exact dioCh_onDioCh (onDioCh n mark s) n (fun c => { c with diag := setBit c.diag b true }) (by simpa [onDioCh] using hn)

theorem reportOnce_length : (reportOnce n b f e mark s).dio.ch.length = s.dio.ch.length := by
  unfold reportOnce
  split <;> simp [onDioCh, onDio]

theorem reportOnce_log_first (h : (dioCh s n).diag.getLsbD b = false) :
    (reportOnce n b f e mark s).log = (raise e .notice n 0 0 0 s).log := by
  rw [reportOnce, if_neg (by simp [h])]
  exact raise_log _ _ _ _ _ _ _ _ rfl rfl

theorem reportOnce_log_again (h : (dioCh s n).diag.getLsbD b = true) : (reportOnce n b f e mark s).log = s.log := by
  rw [reportOnce, if_pos h]
  rfl

theorem reportOnce_flag (hf : f < 32) (h : (dioCh s n).diag.getLsbD b = false) :
    (reportOnce n b f e mark s).dio.flags.getLsbD f = true := by
  rw [reportOnce, if_neg (by simp [h])]
  exact setBit_get s.dio.flags f hf

/-- After a settled report the bit is set; flag and record follow once. -/
theorem settled_reportOnce (hn : n < s.dio.ch.length) (hb : b < 8) (hf : f < 32) (hf6 : f ≠ 6)
    (hmark : ∀ c, (mark c).diag = c.diag) :
    let t := follow (settle s (reportOnce n b f e mark s))
    (dioCh t n).diag.getLsbD b = true ∧ ({ t with dio := s.dio, log := s.log } : State).rest = s.rest ∧
      ((dioCh s n).diag.getLsbD b = false →
        t.dio.flags.getLsbD f = true ∧ t.log = (raise e .notice n 0 0 0 s).log) ∧
      ((dioCh s n).diag.getLsbD b = true → t.log = s.log) := by
  intro t
  have hset := settled_follow s (reportOnce n b f e mark s)
  refine ⟨?_, frame_dio_log reportOnce_frame, fun h => ⟨?_, ?_⟩, fun h => ?_⟩
  · have hdiag : (dioCh t n).diag = (dioCh (reportOnce n b f e mark s) n).diag := by simpa using congrArg DioCh.diag (hset.dio n)
    rw [hdiag, dioCh_reportOnce hn]
    split
    · rwa [hmark]
    · exact setBit_get _ b hb
  · rw [hset.dioFlags f hf6, reportOnce_flag hf h]
  · rw [hset.log, reportOnce_log_first h]
  · rw [hset.log, reportOnce_log_again h]

/-- A feed that is seen on a stage that is off stands while it is reported. -/
theorem fed_stands (hn : n < s.dio.ch.length) (htarget : dioTarget s n (dioCh s n) = false) (hrep : extFeedReports s n = true) :
    (dioCh (follow (settle s (reportOnce n b f e DioCh.fed s))) n).extNow = true := by
  have hframe := reportOnce_frame (s := s) (n := n) (b := b) (f := f) (e := e) (mark := DioCh.fed)
  have hch : ∃ d, dioCh (reportOnce n b f e DioCh.fed s) n = { (dioCh s n).fed with diag := d } := by
    rw [dioCh_reportOnce hn]
    split <;> exact ⟨_, rfl⟩
  obtain ⟨d, hch⟩ := hch
  have hlen : n < (reportOnce n b f e DioCh.fed s).dio.ch.length := by rwa [reportOnce_length]
  generalize reportOnce n b f e DioCh.fed s = u at hframe hch hlen
  have htarget' : dioTarget u n (dioCh u n) = false := by
    rw [dioTarget_of_frame hframe, hch]
    exact htarget
  rw [extNow_settled hlen, dioTarget_pulsesCheck_off htarget', extFeedReports_pulsesCheck,
    extFeedReports_of_frame hframe (by rw [hch]; rfl) (by rw [hch]; rfl), hrep, hch]
  rfl

/-- A low readback that is seen stands while the active commands the channel on. -/
theorem lowSeen_stands (hn : n < s.dio.ch.length) (hpair : pairCommanded s n = some true) :
    (dioCh (follow (settle s (reportOnce n b f e DioCh.lowSeen s))) n).lowNow = true := by
  have hlow : (dioCh (reportOnce n b f e DioCh.lowSeen s) n).lowNow = true := by
    rw [dioCh_reportOnce hn]
    split <;> rfl
  rw [lowNow_settled (by rwa [reportOnce_length]), hlow, pairCommanded_of_frame reportOnce_frame, hpair]
  rfl

end

/-! ### The refresh (R376) -/

/-- A stage that no refresh has reached: LOGIC_SILENT unless a command preceded it. -/
def DioCh.silenced (c : DioCh) : DioCh :=
  if c.commanded then { c with silent := true } else { c with silent := true, silentRec := true, diag := setBit c.diag 5 true }

theorem silenced_silent (c : DioCh) : c.silenced.silent = true := by
  unfold DioCh.silenced
  split <;> rfl

theorem dioCh_dioSilence {s : State} {n : Nat} (hn : n < s.dio.ch.length) (hm : (dioCh s n).mode.hasStage = true) :
    dioCh (dioSilence n s) n = (dioCh s n).silenced := by
  rw [dioSilence, dioCh_onDioCh s n _ hn]
  exact if_pos hm

/-- A stage that a refresh has reached. -/
def DioCh.refreshed (c : DioCh) : DioCh := { c with silent := false, commanded := false }

theorem dioCh_stagesRefreshed (s : State) (n : Nat) : dioCh (stagesRefreshed s) n = (dioCh s n).refreshed :=
  getD_map DioCh.refreshed s.dio.ch n {}

/-- Settles O9: both reports are one rule, and a refresh or its lack writes what is inward of the channels. -/
theorem foreignFeedsAreReported : Obligations.ForeignFeedsAreReported := by
  unfold Obligations.ForeignFeedsAreReported
  intro s n hn
  refine ⟨fun hoff htarget hstood hrep => ?feed, fun hm hpair => ?partner, fun hm hlate => ?timeout, fun hrails hmode => ?refresh⟩
  case feed =>
    have hu := dioExtFeed_found hoff hstood hrep
    obtain ⟨hdiag, hrest, hfirst, hagain⟩ := settled_reportOnce (b := 2) (f := 0) (e := .dioExtFeed) (mark := DioCh.fed) hn
      (by decide) (by decide) (by decide) fun _ => rfl
    exact ⟨_, congrArg (fun u => answer (settle s u)) hu, hdiag, fed_stands hn htarget hrep, hrest, hfirst, hagain⟩
  case partner =>
    have hu := dioPartnerLow_found hm hpair
    obtain ⟨hdiag, hrest, hfirst, hagain⟩ := settled_reportOnce (b := 7) (f := 3) (e := .dioPartnerLow) (mark := DioCh.lowSeen) hn
      (by decide) (by decide) (by decide) fun _ => rfl
    exact ⟨_, congrArg (fun u => answer (settle s u)) hu, hdiag, lowSeen_stands hn hpair, hrest, hfirst, hagain⟩
  case timeout =>
    have hset := (settled_follow s (dioSilence n s)).dio n
    rw [dioCh_dioSilence hn hm] at hset
    have hsilent := congrArg DioCh.silent hset
    have hrec := congrArg DioCh.silentRec hset
    have hdiag := congrArg DioCh.diag hset
    refine ⟨_, congrArg answer (if_pos hlate), ?_, fun hc => ⟨?_, ?_⟩, fun hc => ?_, frame_dio rfl⟩
    · simpa [silenced_silent] using hsilent
    · rw [DioCh.inward_diag, DioCh.inward_diag, DioCh.silenced, hc] at hdiag
      rw [hdiag]
      exact setBit_get (dioCh s n).diag 5 (by decide)
    · simpa [DioCh.silenced, hc] using hrec
    · simpa [DioCh.silenced, hc] using hdiag
  case refresh =>
    have hawake : (s.pwr.railsOff || s.sys.mode == .harbour) = false := by simp [hrails, hmode]
    have hset := (settled_follow s (stagesRefreshed s)).dio n
    rw [dioCh_stagesRefreshed] at hset
    refine ⟨_, congrArg answer (if_neg (by simp [hawake])), ?_, ?_, ?_⟩
    · simpa [DioCh.refreshed] using congrArg DioCh.silent hset
    · simpa [DioCh.refreshed] using congrArg DioCh.commanded hset
    · exact (settled_follow s (stagesRefreshed s)).wdioana s.dio s.ana

end Sys2Proof.Machine
end

section
/-! PROOFS. What a settled command shows beyond what deliveries change, read part by part off `State.rest`. -/

namespace Sys2Proof.Machine

/-! ### Parts of `State.rest` -/

section
variable {t v : State} (h : t.rest = v.rest)
include h

theorem dioCh_of_rest (n : Nat) : (dioCh t n).inward = (dioCh v n).inward :=
  dioCh_of_map DioCh.inward t v (congrArg (fun d : Dio => d.ch) (congrArg State.dio h)) n

theorem anaCh_of_rest (n : Nat) : (anaCh t n).inward = (anaCh v n).inward :=
  anaCh_of_map AnaCh.inward t v (congrArg (fun a : Ana => a.ch) (congrArg State.ana h)) n

theorem ana_groups_of_rest : t.ana.groups = v.ana.groups := by
  have e := congrArg (fun a : Ana => a.groups) (congrArg State.ana h)
  exact e

theorem ana_flags_of_rest : t.ana.flags = v.ana.flags := by
  have e := congrArg (fun a : Ana => a.flags) (congrArg State.ana h)
  exact e

theorem ana_devs_of_rest : t.ana.devs = v.ana.devs := by
  have e := congrArg (fun a : Ana => a.devs) (congrArg State.ana h)
  exact e

theorem ana_tx_of_rest : t.ana.tx = v.ana.tx := by
  have e := congrArg (fun a : Ana => a.tx) (congrArg State.ana h)
  exact e

theorem log_of_rest : t.log = v.log := by
  have e := congrArg State.log h
  exact e

theorem sent_of_rest : t.sent = v.sent := by
  have e := congrArg State.sent h
  exact e

end

/-- A settled command shows what a state shows that differs from its own by deliveries alone. -/
theorem rest_settled {s u v : State} (h : u.beyondField = v.beyondField) : (follow (settle s u)).rest = v.rest :=
  (settled_follow s u).rest.trans (rest_of_beyond h)

/-- The analogue part exchanged in what is shown. -/
theorem rest_with_ana (x : State) (a : Ana) : ({ x with ana := a } : State).rest = { x.rest with ana := ({ x with ana := a } : State).rest.ana } := rfl

theorem frame_ana_of_rest {s t v : State} (h : t.rest = v.rest) (hv : ({ v with ana := s.ana } : State).rest = s.rest) :
    ({ t with ana := s.ana } : State).rest = s.rest := by
  rw [← hv]
  exact congrArg (fun x : State => { x with ana := s.rest.ana }) h

/-! ### What an analogue channel's inward side holds -/

@[simp] theorem AnaCh.inward_mode (c : AnaCh) : c.inward.mode = c.mode := rfl
@[simp] theorem AnaCh.inward_value (c : AnaCh) : c.inward.value = c.value := rfl
@[simp] theorem AnaCh.inward_readback (c : AnaCh) : c.inward.readback = c.readback := rfl
@[simp] theorem AnaCh.inward_valid (c : AnaCh) : c.inward.valid = c.valid := rfl
@[simp] theorem AnaCh.inward_discard (c : AnaCh) : c.inward.discard = c.discard := rfl
@[simp] theorem AnaCh.inward_standing (c : AnaCh) : c.inward.standing = c.standing := rfl
@[simp] theorem AnaCh.inward_silent (c : AnaCh) : c.inward.silent = c.silent := rfl
@[simp] theorem AnaCh.inward_silentRec (c : AnaCh) : c.inward.silentRec = c.silentRec := rfl
@[simp] theorem AnaCh.inward_hartCount (c : AnaCh) : c.inward.hartCount = c.hartCount := rfl

/-- All sticky bits but CLAMPED are inward. -/
theorem diag_of_inward {c d : AnaCh} (h : c.inward = d.inward) {b : Nat} (hb : b ≠ 12) : c.diag.getLsbD b = d.diag.getLsbD b := by
  have e := congrArg (fun x : AnaCh => x.diag.getLsbD b) h
  have hset (x : AnaCh) : x.inward.diag.getLsbD b = x.diag.getLsbD b := setBit_get_ne x.diag 12 b hb.symm true
  rwa [hset, hset] at e

end Sys2Proof.Machine
end

section
/-! PROOFS. Conversions, faults, cold junctions and silence of the analogue channels (15_analogue_channels.md R386 to R398). -/

namespace Sys2Proof.Machine

/-! ### The nearest temperature (R394) -/

/-- Whether a temperature is not further from a resistance than the one below it. -/
abbrev notBelow (rZero mohm u : Int) : Prop := rZero * (vanDusen (u - 1) + vanDusen u) ≤ 2 * 10 ^ 27 * mohm

/-- The bisection keeps its lower bound at a temperature that passes and its upper bound at one that fails, but for the ends. -/
theorem nearestTemp_bounds (r m : Int) (bits : Nat) (t : Int) :
    (nearestTemp r m bits t = t ∨ notBelow r m (nearestTemp r m bits t)) ∧
      (nearestTemp r m bits t + 1 = t + 2 ^ bits ∨ ¬ notBelow r m (nearestTemp r m bits t + 1)) := by
  induction bits generalizing t with
  | zero => exact ⟨.inl rfl, .inl rfl⟩
  | succ bits ih =>
    obtain ⟨hlow, hhigh⟩ := ih (if notBelow r m (t + 2 ^ bits) then t + 2 ^ bits else t)
    have hstep : nearestTemp r m (bits + 1) t = nearestTemp r m bits (if notBelow r m (t + 2 ^ bits) then t + 2 ^ bits else t) := rfl
    rw [hstep]
    generalize nearestTemp r m bits (if notBelow r m (t + 2 ^ bits) then t + 2 ^ bits else t) = x at hlow hhigh
    by_cases hp : notBelow r m (t + 2 ^ bits)
    · rw [if_pos hp] at hlow hhigh
      refine ⟨.inr (hlow.elim (fun h => h ▸ hp) id), hhigh.imp_left fun h => ?_⟩
      rw [h, pow_succ]
      omega
    · rw [if_neg hp] at hlow hhigh
      exact ⟨hlow, .inr (hhigh.elim (fun h => h ▸ hp) id)⟩

/-- Within the range of an RTD the nearest temperature is bracketed by its neighbours (R394). -/
theorem rtd_nearest {c : AnaCh} {cjc raw : Int} (hm : c.mode = .rtd) (hlow : -200000 < c.counts cjc raw)
    (hhigh : c.counts cjc raw < 850000) :
    notBelow c.rZero (c.element raw) (c.counts cjc raw) ∧ ¬ notBelow c.rZero (c.element raw) (c.counts cjc raw + 1) := by
  have hv : c.counts cjc raw = max (-200000) (min 850000 (nearestTemp c.rZero (c.element raw) 21 (-240000))) := by
    simp only [AnaCh.counts, AnaCh.limits, AnaCh.measured, hm]
  obtain ⟨hl, hh⟩ := nearestTemp_bounds c.rZero (c.element raw) 21 (-240000)
  generalize nearestTemp c.rZero (c.element raw) 21 (-240000) = x at hl hh hv
  obtain rfl : x = c.counts cjc raw := by omega
  exact ⟨hl.resolve_left (by omega), hh.resolve_left (by norm_num; omega)⟩

/-! ### ANA_CONVERSION (R386 to R388) -/

theorem writeAnaValue_beyond (n : Nat) (s : State) : (writeAnaValue n s).beyondField = s.beyondField := updateWhere_beyond _ _ s
theorem writeAnaReadback_beyond (n : Nat) (s : State) : (writeAnaReadback n s).beyondField = s.beyondField := updateWhere_beyond _ _ s

/-- A channel once a valid conversion has reached it: its value in counts, and its raw reading where its mode keeps one. -/
def AnaCh.converted (counts raw : Int) (round : List Int) (c : AnaCh) : AnaCh :=
  { c with value := counts, valid := true, round := round, readback := if c.keepsRaw then raw else c.readback }

/-- What a conversion does to its channel, deliveries apart: one update of that channel. -/
theorem anaConversion_beyond (s : State) (n : Nat) (raw : Int) : ∃ f : AnaCh → AnaCh,
    (anaConversion n raw s).beyondField = (onAnaCh n f s).beyondField ∧
      ((anaCh s n).mode.isOutput = true → f = fun c => { c with readback := raw }) ∧
      ((anaCh s n).mode.isInput = true → (fieldGroup s (n / 4)).st.dead = false →
        (0 < (anaCh s n).discard → f = fun c => { c with discard := c.discard - 1 }) ∧
        ((anaCh s n).discard = 0 → ∃ round, f (anaCh s n) =
          (anaCh s n).converted ((anaCh s n).counts (s.ana.groups.getD (n / 4) {}).cjc raw) raw round)) := by
  unfold anaConversion
  dsimp only
  split_ifs with hout hoff hdiscard hraw
  · exact ⟨_, writeAnaReadback_beyond _ _, fun _ => rfl, fun hin => by simp [AnaMode.isInput, hout] at hin⟩
  · refine ⟨id, ?_, fun h => absurd h hout, fun hin hdead => ?_⟩
    · simp [onAnaCh, onAna]
    · simp [hdead] at hoff
      simp [AnaMode.isInput, hoff] at hin
  · exact ⟨_, rfl, fun h => absurd h hout, fun _ _ => ⟨fun _ => rfl, fun h => absurd hdiscard (by omega)⟩⟩
  · exact ⟨_, (writeAnaReadback_beyond _ _).trans (writeAnaValue_beyond _ _), fun h => absurd h hout,
      fun _ _ => ⟨fun h => absurd h hdiscard, fun _ => ⟨_, rfl⟩⟩⟩
  · exact ⟨_, writeAnaValue_beyond _ _, fun h => absurd h hout, fun _ _ => ⟨fun h => absurd h hdiscard, fun _ => ⟨_, rfl⟩⟩⟩

/-! ### What the analogue commands leave alone -/

/-- What an analogue command leaves: what is shown beside the analogue part, and the settings and readings of its groups. -/
def anaFrame (a : Ana) (x : State) : State × List AnaGroup := (({ x with ana := a } : State).rest, x.ana.groups)

theorem anaFrame_of_beyond {a : Ana} {x y : State} (h : x.beyondField = y.beyondField) : anaFrame a x = anaFrame a y :=
  Prod.ext (congrArg (fun z : State => { z with ana := ({ x with ana := a } : State).rest.ana }) (rest_of_beyond h))
    (ana_groups_of_rest (rest_of_beyond h))

theorem anaFrame_onAnaCh (a : Ana) (n : Nat) (f : AnaCh → AnaCh) (s : State) : anaFrame a (onAnaCh n f s) = anaFrame a s := rfl

theorem anaFrame_anaCondition (a : Ana) (n b : Nat) (stands : Bool) (extra : Option Nat) (s : State) :
    anaFrame a (anaCondition n b stands extra s) = anaFrame a s := by
  unfold anaCondition
  dsimp only
  split <;> rfl

/-- What the frame of a settled command says of its answer. -/
theorem rest_of_anaFrame {s u : State} (h : anaFrame s.ana u = anaFrame s.ana s) :
    ({ follow (settle s u) with ana := s.ana } : State).rest = s.rest :=
  ((settled_follow s u).wana s.ana).trans (congrArg Prod.fst h)

/-! ### CJC_READ (R395, R410) -/

/-- A group with its cold junction and its loop supply read. -/
def AnaGroup.read (cjc : Int) (fault : Bool) (volts : Nat) (x : AnaGroup) : AnaGroup :=
  { x with cjc := cjc, cjcFault := fault, loopSupply := volts }

/-- The groups with one of them read. -/
def Ana.groupRead (g : Nat) (f : AnaGroup → AnaGroup) (a : Ana) : Ana := { a with groups := a.groups.modify g f }

theorem cjcRead_frame (s : State) (g : Nat) (internal : Int) :
    ({ cjcRead g internal s with ana := s.ana } : State).rest = s.rest ∧ (cjcRead g internal s).ana.groups =
      s.ana.groups.modify g (AnaGroup.read (cjcInForce s g internal) (cjcFaulty s g internal) (loopVolts g s).1) := by
  have hvolts : anaFrame s.ana (loopVolts g s).2 = anaFrame s.ana s := by
    unfold loopVolts
    split <;> rfl
  have hforce : cjcInForce (loopVolts g s).2 g internal = cjcInForce s g internal := by
    unfold loopVolts
    split <;> rfl
  set v := onAna (Ana.groupRead g (AnaGroup.read (cjcInForce s g internal) (cjcFaulty s g internal) (loopVolts g s).1))
    (loopVolts g s).2 with hv
  have hframe : anaFrame s.ana (cjcRead g internal s) = anaFrame s.ana v := by
    unfold cjcRead
    dsimp only
    rw [hforce]
    split
    · rfl
    · refine forAll_keeps (anaFrame s.ana) _ _ (fun k t => ?_) v
      split
      · split
        · exact (anaFrame_of_beyond (writeAnaValue_beyond _ _)).trans (anaFrame_anaCondition _ _ _ _ _ _)
        · exact anaFrame_anaCondition _ _ _ _ _ _
      · rfl
  have hgroups : (loopVolts g s).2.ana.groups = s.ana.groups := congrArg Prod.snd hvolts
  exact ⟨(congrArg Prod.fst hframe).trans (congrArg Prod.fst hvolts), (congrArg Prod.snd hframe).trans (by rw [← hgroups]; rfl)⟩

/-- The groups after a settled CJC_READ: the one that was read has its readings, any other is as before. -/
theorem cjcRead_groups (s : State) (g : Nat) (internal : Int) : (follow (settle s (cjcRead g internal s))).ana.groups =
    s.ana.groups.modify g (AnaGroup.read (cjcInForce s g internal) (cjcFaulty s g internal) (loopVolts g s).1) :=
  (ana_groups_of_rest (settled_follow s _).rest).trans (cjcRead_frame s g internal).2

theorem cjcRead_group {s : State} {g : Nat} (internal : Int) (hg : g < s.ana.groups.length) :
    (follow (settle s (cjcRead g internal s))).ana.groups.getD g {} =
      (s.ana.groups.getD g {}).read (cjcInForce s g internal) (cjcFaulty s g internal) (loopVolts g s).1 := by
  rw [cjcRead_groups]
  simp [List.getD_eq_getElem?_getD, hg]

theorem cjcRead_group_other {s : State} {g m : Nat} (internal : Int) (h : g ≠ m) :
    (follow (settle s (cjcRead g internal s))).ana.groups.getD m {} = s.ana.groups.getD m {} := by
  rw [cjcRead_groups]
  simp [List.getD_eq_getElem?_getD, h]

theorem rest_cjcRead (s : State) (g : Nat) (internal : Int) :
    ({ follow (settle s (cjcRead g internal s)) with ana := s.ana } : State).rest = s.rest :=
  ((settled_follow s _).wana s.ana).trans (cjcRead_frame s g internal).1

theorem loopVolts_dead {s : State} {g : Nat} (h : (fieldGroup s g).st.dead = true) : (loopVolts g s).1 = 0 := by
  rw [loopVolts, if_pos h]

theorem loopVolts_supplied {s : State} {g : Nat} (h : (fieldGroup s g).st.dead = false) :
    210 ≤ (loopVolts g s).1 ∧ (loopVolts g s).1 ≤ 225 := by
  rw [loopVolts, if_neg (by simp [h])]
  simp only [freed]
  omega

/-! ### The counts of each mode (R383, R384, R394) -/

section
variable {c : AnaCh} {cjc raw : Int}

theorem counts_voltage (h : c.mode = .voltageIn) : c.counts cjc raw = max (-11000000) (min 11000000 raw) := by
  simp only [AnaCh.counts, AnaCh.limits, AnaCh.measured, h]

theorem counts_current (h : c.mode = .currentPassive ∨ c.mode = .currentPowered ∨ c.mode = .currentPair ∨ c.mode = .hartMultidrop) :
    c.counts cjc raw = max 0 (min 25000000 raw) := by
  obtain h | h | h | h := h <;> simp only [AnaCh.counts, AnaCh.limits, AnaCh.measured, h]

theorem counts_resistance (h : c.mode = .resistance) : c.counts cjc raw = max 0 (min 4000000 (c.element raw)) := by
  simp only [AnaCh.counts, AnaCh.limits, AnaCh.measured, h]

theorem keepsRaw_iff : c.keepsRaw = true ↔ c.mode = .rtd ∨ c.mode = .resistance ∨ c.mode = .thermocouple := by
  simp [AnaCh.keepsRaw, or_assoc]

theorem converted_readback (round : List Int) (counts : Int) : (c.converted counts raw round).readback =
    if c.mode = .rtd ∨ c.mode = .resistance ∨ c.mode = .thermocouple then raw else c.readback := by
  simp only [AnaCh.converted, keepsRaw_iff]

end

/-- Settles O10: a conversion is one update of its channel, whose counts are those of its mode. -/
theorem conversionsReachTheChannel : Obligations.ConversionsReachTheChannel := by
  unfold Obligations.ConversionsReachTheChannel
  intro s n raw
  refine ⟨fun g hg => ⟨_, rfl, rest_cjcRead s g raw, ?_, ?_⟩, fun hn => ?_⟩
  · rw [cjcRead_group raw hg]
    rfl
  · rw [cjcRead_group raw hg]
    rfl
  obtain ⟨f, hbeyond, hout, hin⟩ := anaConversion_beyond s n raw
  have hrest : (follow (settle s (anaConversion n raw s))).rest = (onAnaCh n f s).rest := rest_settled hbeyond
  have hch : (anaCh (follow (settle s (anaConversion n raw s))) n).inward = (f (anaCh s n)).inward := by
    rw [anaCh_of_rest hrest, anaCh_onAnaCh s n f hn]
  have hvalue := congrArg AnaCh.value hch
  have hreadback := congrArg AnaCh.readback hch
  refine ⟨_, rfl, frame_ana_of_rest hrest rfl, fun ho => ?output, fun hi hd hpos => ?dropped, fun hi hd hzero => ?taken⟩
  case output =>
    rw [hout ho] at hvalue hreadback
    exact ⟨by simpa using hreadback, by simpa using hvalue⟩
  case dropped =>
    have hdiscard := congrArg AnaCh.discard hch
    rw [(hin hi hd).1 hpos] at hvalue hdiscard
    exact ⟨by simpa using hdiscard, by simpa using hvalue⟩
  case taken =>
    obtain ⟨round, hf⟩ := (hin hi hd).2 hzero
    have hvalid := congrArg AnaCh.valid hch
    rw [hf] at hvalue hreadback hvalid
    intro c v ohms
    have hv : v = c.counts (s.ana.groups.getD (n / 4) {}).cjc raw := by simpa [AnaCh.converted] using hvalue
    refine ⟨hv, by simpa [AnaCh.converted] using hvalid, fun hm => hv.trans (counts_voltage hm), fun hm => hv.trans (counts_current hm),
      fun hm => hv.trans (counts_resistance hm), fun hm hlow hhigh => ?rtd, ?readback⟩
    case rtd =>
      rw [hv] at hlow hhigh ⊢
      obtain ⟨hbelow, habove⟩ := rtd_nearest hm hlow hhigh
      refine ⟨hbelow, ?_⟩
      unfold notBelow at habove
      rw [not_le, add_sub_cancel_right] at habove
      exact habove
    case readback =>
      rw [AnaCh.inward_readback, AnaCh.inward_readback, converted_readback] at hreadback
      exact hreadback

/-! ### ANA_REFRESH_TIMEOUT (R398) -/

/-- An output that no refresh has reached: LOGIC_SILENT unless a command preceded it. -/
def AnaCh.silenced (c : AnaCh) : AnaCh :=
  if c.commanded then { c with silent := true } else { c with silent := true, silentRec := true, diag := setBit c.diag 11 true }

theorem anaCh_anaSilence {s : State} {n : Nat} (hn : n < s.ana.ch.length) (hout : (anaCh s n).mode.isOutput = true) :
    anaCh (anaSilence n s) n = (anaCh s n).silenced := by
  rw [anaSilence, anaCh_onAnaCh s n _ hn]
  exact if_pos hout

theorem settled_anaSilence {s : State} {n : Nat} (hn : n < s.ana.ch.length) (hout : (anaCh s n).mode.isOutput = true) :
    let t := follow (settle s (anaSilence n s))
    ({ t with ana := s.ana } : State).rest = s.rest ∧ (anaCh t n).silent = true ∧
      ((anaCh s n).commanded = false → (anaCh t n).diag.getLsbD 11 = true ∧ (anaCh t n).silentRec = true) ∧
      ((anaCh s n).commanded = true → (anaCh t n).diag.getLsbD 11 = (anaCh s n).diag.getLsbD 11) := by
  intro t
  have hch : (anaCh t n).inward = ((anaCh s n).silenced).inward := by
    rw [(settled_follow s (anaSilence n s)).ana, anaCh_anaSilence hn hout]
  have hdiag : (anaCh t n).diag.getLsbD 11 = _ := diag_of_inward hch (by decide)
  have hrec := congrArg AnaCh.silentRec hch
  have hsilent := congrArg AnaCh.silent hch
  refine ⟨(settled_follow s _).wana s.ana, ?_, fun hc => ⟨?_, ?_⟩, fun hc => ?_⟩
  · simp only [AnaCh.inward_silent] at hsilent
    rw [hsilent, AnaCh.silenced]
    split <;> rfl
  · rw [hdiag, AnaCh.silenced, if_neg (by simp [hc])]
    exact setBit_get (anaCh s n).diag 11 (by decide)
  · simpa [AnaCh.silenced, hc] using hrec
  · rw [hdiag, AnaCh.silenced, if_pos hc]

/-! ### Conditions (R392, R393, R397) -/

theorem setBit_same {w : Nat} (x : BitVec w) {n : Nat} (h : n < w) (b : Bool) : (setBit x n b).getLsbD n = b := by
  cases b
  · simp [setBit, h]
  · exact setBit_get x n h

/-- A channel on which a condition begins or ends. -/
def AnaCh.condition (b : Nat) (stands : Bool) (c : AnaCh) : AnaCh :=
  { c with standing := setBit c.standing b stands, diag := if stands then setBit c.diag b true else c.diag }

section
variable {s u : State} {n b : Nat} {stands : Bool} {extra : Option Nat} {g : AnaCh → AnaCh}

theorem anaCh_anaCondition (hn : n < s.ana.ch.length) :
    anaCh (anaCondition n b stands extra s) n = (anaCh s n).condition b stands := by
  rw [← anaCh_onAnaCh s n (AnaCh.condition b stands) hn]
  cases stands <;> rfl

theorem anaCondition_length : (anaCondition n b stands extra s).ana.ch.length = s.ana.ch.length := by
  unfold anaCondition
  dsimp only
  split <;> simp [onAnaCh]

/-- The flags of a condition that begins. -/
theorem anaCondition_flags : (anaCondition n b true extra s).ana.flags =
    match extra with
    | none => flag 0 s.ana.flags
    | some x => flag x (flag 0 s.ana.flags) := rfl

theorem flag_keeps {w : Word} {n : Nat} (k : Nat) (h : w.getLsbD n = true) : (flag k w).getLsbD n = true := by
  obtain rfl | hne := eq_or_ne k n
  · exact setBit_get w k (BitVec.lt_of_getLsbD h)
  · rwa [flag, setBit_get_ne w k n hne]

/-- What a condition writes, once it is settled; `g` is what else it ends of the standing bits. -/
theorem settled_condition (hn : n < s.ana.ch.length) (hu : u.beyondField = (onAnaCh n g (anaCondition n b stands extra s)).beyondField)
    (hg : ∀ c, (g c).diag = c.diag) (hb : b < 12) :
    let t := follow (settle s u)
    ({ t with ana := s.ana } : State).rest = s.rest ∧
      (anaCh t n).standing = (g ((anaCh s n).condition b stands)).standing ∧
      (stands = true → (anaCh t n).diag.getLsbD b = true ∧ t.ana.flags.getLsbD 0 = true) ∧
      (∀ x, stands = true → extra = some x → x < 32 → t.ana.flags.getLsbD x = true) ∧
      (stands = false → (anaCh t n).diag.setWidth 12 = (anaCh s n).diag.setWidth 12) := by
  intro t
  have hrest : t.rest = (onAnaCh n g (anaCondition n b stands extra s)).rest := rest_settled hu
  have hch : (anaCh t n).inward = (g ((anaCh s n).condition b stands)).inward := by
    rw [anaCh_of_rest hrest, anaCh_onAnaCh _ n g (by rwa [anaCondition_length]), anaCh_anaCondition hn]
  have hflags : t.ana.flags = (anaCondition n b stands extra s).ana.flags := by
    have e := ana_flags_of_rest hrest
    exact e
  refine ⟨frame_ana_of_rest hrest (congrArg Prod.fst (anaFrame_anaCondition s.ana n b stands extra s)), ?_, ?_, ?_, ?_⟩
  · simpa using congrArg AnaCh.standing hch
  · rintro rfl
    rw [diag_of_inward hch (by omega), hg, hflags, anaCondition_flags]
    refine ⟨setBit_get (anaCh s n).diag b (by omega), ?_⟩
    cases extra with
    | none => exact setBit_get s.ana.flags 0 (by decide)
    | some x => exact flag_keeps x (setBit_get s.ana.flags 0 (by decide))
  · rintro x rfl rfl hx
    rw [hflags, anaCondition_flags]
    exact setBit_get _ x hx
  · rintro rfl
    apply BitVec.eq_of_getLsbD_eq
    intro i hi
    rw [BitVec.getLsbD_setWidth, BitVec.getLsbD_setWidth, diag_of_inward hch (by omega), hg]
    rfl

end

theorem all_beq_of_ne {o : Option Bool} {b : Bool} (h : o ≠ some (!b)) : o.all (· == b) = true := by
  cases o with
  | none => rfl
  | some x => cases x <;> cases b <;> simp at h ⊢

theorem onAnaCh_id (n : Nat) (s : State) : onAnaCh n id s = s := by
  simp [onAnaCh, onAna]

/-- What an input fault that begins ends besides: BROKEN_WIRE the range faults (R393). -/
def alsoEnds (f : InFault) (stands : Bool) (c : AnaCh) : AnaCh :=
  if stands && f == .brokenWire then { c with standing := setBit (setBit c.standing 2 false) 3 false } else c

theorem alsoEnds_diag (f : InFault) (stands : Bool) (c : AnaCh) : (alsoEnds f stands c).diag = c.diag := by
  unfold alsoEnds
  split <;> rfl

theorem faultBit_lt (f : InFault) : faultBit f < 12 := by cases f <;> decide

theorem alsoEnds_standing (f : InFault) (stands : Bool) (c : AnaCh) :
    (alsoEnds f stands c).standing.getLsbD (faultBit f) = c.standing.getLsbD (faultBit f) := by
  unfold alsoEnds
  split
  case isTrue h =>
    obtain ⟨-, hf⟩ : stands = true ∧ f = .brokenWire := by simpa using h
    subst hf
    exact (setBit_get_ne _ 3 4 (by decide) false).trans (setBit_get_ne _ 2 4 (by decide) false)
  case isFalse => rfl

theorem alsoEnds_range (c : AnaCh) :
    (alsoEnds .brokenWire true c).standing.getLsbD 2 = false ∧ (alsoEnds .brokenWire true c).standing.getLsbD 3 = false :=
  ⟨(setBit_get_ne _ 3 2 (by decide) false).trans (setBit_same c.standing (by decide) false), setBit_same _ (by decide) false⟩

section
variable {s : State} {n : Nat} {stands : Bool}

/-- An input fault that its channel takes, deliveries apart. -/
theorem anaInputFault_beyond {f : InFault} (happlies : faultApplies f (anaCh s n) = true)
    (hshows : (anaCh s n).shows (s.ana.groups.getD (n / 4) {}).cjc f ≠ some (!stands))
    (hsupp : f = .brokenWire ∨ (anaCh s n).standing.getLsbD 4 = false) :
    (anaInputFault n f stands s).beyondField =
      (onAnaCh n (alsoEnds f stands) (anaCondition n (faultBit f) stands none s)).beyondField := by
  have hfree : (stands && f != .brokenWire && (anaCh s n).standing.getLsbD 4) = false := by
    obtain rfl | h := hsupp
    · simp
    · rw [h, Bool.and_false]
  have hends : (if stands && f == .brokenWire then
      onAnaCh n (fun c => { c with standing := setBit (setBit c.standing 2 false) 3 false }) (anaCondition n (faultBit f) stands none s)
      else anaCondition n (faultBit f) stands none s) =
      onAnaCh n (alsoEnds f stands) (anaCondition n (faultBit f) stands none s) := by
    unfold alsoEnds
    split
    · rfl
    · exact (onAnaCh_id n _).symm
  simp only [anaInputFault, happlies, all_beq_of_ne hshows, Bool.and_self, if_true, hfree, Bool.false_eq_true, if_false, hends]
  split
  · exact writeAnaValue_beyond n _
  · rfl

theorem anaLoopLimit_beyond (hm : (anaCh s n).mode = .currentPowered ∨ (anaCh s n).mode = .hartMultidrop)
    (hdenies : (anaCh s n).denies stands = false) :
    (anaLoopLimit n stands s).beyondField = (onAnaCh n id (anaCondition n 5 stands (some 1) s)).beyondField := by
  have htakes : (((anaCh s n).mode == .currentPowered || (anaCh s n).mode == .hartMultidrop) && !(anaCh s n).denies stands) = true := by
    simp [hm, hdenies]
  rw [onAnaCh_id]
  simp only [anaLoopLimit, htakes, if_true]
  split
  · exact writeAnaValue_beyond n _
  · rfl

/-- OPEN_LOOP that begins ends COMPLIANCE (R397). -/
def complianceEnds (stands : Bool) (c : AnaCh) : AnaCh := if stands then { c with standing := setBit c.standing 6 false } else c

theorem complianceEnds_diag (stands : Bool) (c : AnaCh) : (complianceEnds stands c).diag = c.diag := by
  cases stands <;> rfl

theorem complianceEnds_standing (c : AnaCh) : (complianceEnds stands c).standing.getLsbD 7 = c.standing.getLsbD 7 := by
  cases stands
  · rfl
  · exact setBit_get_ne _ 6 7 (by decide) false

theorem anaOutputDiag_openLoop (hm : (anaCh s n).mode = .currentOut)
    (hshown : ((anaCh s n).outShows .openLoop).all (· == stands) = true) :
    anaOutputDiag n .openLoop stands s = onAnaCh n (complianceEnds stands) (anaCondition n 7 stands none s) := by
  simp only [anaOutputDiag, hshown, hm, Bool.not_true, Bool.false_eq_true, if_false, beq_self_eq_true, if_true]
  cases stands
  · exact (onAnaCh_id n _).symm
  · rfl

theorem anaOutputDiag_compliance (hm : (anaCh s n).mode = .currentOut)
    (hshown : ((anaCh s n).outShows .compliance).all (· == stands) = true)
    (hopen : stands = true → (anaCh s n).standing.getLsbD 7 = false) :
    anaOutputDiag n .compliance stands s = onAnaCh n id (anaCondition n 6 stands (some 2) s) := by
  have hfree : (stands && (anaCh s n).standing.getLsbD 7) = false := by
    cases stands
    · rfl
    · exact hopen rfl
  simp only [anaOutputDiag, hshown, hm, hfree, Bool.not_true, Bool.false_eq_true, if_false, beq_self_eq_true, Bool.not_false,
    Bool.and_self, if_true, onAnaCh_id]

theorem anaOutputDiag_outShort (hm : (anaCh s n).mode = .voltageOut)
    (hshown : ((anaCh s n).outShows .outShort).all (· == stands) = true) :
    anaOutputDiag n .outShort stands s = onAnaCh n id (anaCondition n 8 stands none s) := by
  simp only [anaOutputDiag, hshown, hm, Bool.not_true, Bool.false_eq_true, if_false, beq_self_eq_true, if_true, onAnaCh_id]

end

/-- Settles O12: what CJC_READ puts in force in its group, and what a stage without refresh shows. -/
theorem coldJunctionsAndSilence : Obligations.ColdJunctionsAndSilence := by
  unfold Obligations.ColdJunctionsAndSilence
  intro s n
  refine ⟨fun internal hn => ⟨_, rfl, rest_cjcRead s n internal, ?_, ?_, ?_, ?_, fun m => cjcRead_group_other internal⟩,
    fun hn hout hlate => ?silent⟩
  · rw [cjcRead_group internal hn]
    rfl
  · rw [cjcRead_group internal hn]
    rfl
  · rw [cjcRead_group internal hn]
    exact loopVolts_dead
  · rw [cjcRead_group internal hn]
    exact loopVolts_supplied
  case silent =>
    obtain ⟨hrest, hsilent, hfirst, hagain⟩ := settled_anaSilence hn hout
    exact ⟨_, congrArg answer (if_pos hlate), hrest, hsilent, hfirst, hagain⟩

/-- Settles O11: every condition is one rule, the bits it writes, with what BROKEN_WIRE and OPEN_LOOP end besides. -/
theorem analogueFaultsStandAndStick : Obligations.AnalogueFaultsStandAndStick := by
  unfold Obligations.AnalogueFaultsStandAndStick
  intro s n stands hn
  refine ⟨fun hout hlate => ?silent, fun f happlies hshows hsupp => ?fault, fun hm hdenies => ?limit, fun k b hk hshows => ?output⟩
  case silent =>
    obtain ⟨hrest, hsilent, hfirst, -⟩ := settled_anaSilence hn hout
    have hlate' : refreshLate (s.ana.groups.getD (n / 4) {}).refreshMs s = true := by
      simp only [refreshLate, hlate, decide_true, Bool.or_true]
    exact ⟨_, congrArg answer (if_pos hlate'), hsilent, fun hc => (hfirst hc).1, hrest⟩
  case fault =>
    obtain ⟨hrest, hstand, hbegins, -, hends⟩ := settled_condition hn (anaInputFault_beyond happlies hshows hsupp)
      (alsoEnds_diag f stands) (faultBit_lt f)
    refine ⟨_, rfl, hrest, ?_, hbegins, ?_, hends⟩
    · rw [hstand, alsoEnds_standing]
      exact setBit_same _ ((faultBit_lt f).trans (by decide)) stands
    · rintro rfl rfl
      rw [hstand]
      exact alsoEnds_range _
  case limit =>
    obtain ⟨hrest, hstand, hbegins, hflag, -⟩ := settled_condition hn (anaLoopLimit_beyond hm hdenies) (fun _ => rfl) (by decide)
    refine ⟨_, rfl, hrest, ?_, fun hst => ⟨(hbegins hst).1, (hbegins hst).2, hflag 1 hst rfl (by decide)⟩⟩
    rw [hstand]
    exact setBit_same _ (by decide) stands
  case output =>
    have hshown : ((anaCh s n).outShows k).all (· == stands) = true := all_beq_of_ne hshows
    obtain ⟨rfl, rfl, hm⟩ | ⟨rfl, rfl, hm, hopen⟩ | ⟨rfl, rfl, hm⟩ := hk
    · obtain ⟨hrest, hstand, hbegins, -, -⟩ := settled_condition hn (congrArg State.beyondField (anaOutputDiag_openLoop hm hshown))
        (complianceEnds_diag stands) (by decide)
      refine ⟨_, rfl, hrest, ?_, hbegins, ?_⟩
      · rw [hstand, complianceEnds_standing]
        exact setBit_same _ (by decide) stands
      · rintro rfl -
        rw [hstand]
        exact setBit_same _ (by decide) false
    · obtain ⟨hrest, hstand, hbegins, -, -⟩ := settled_condition hn (congrArg State.beyondField
        (anaOutputDiag_compliance hm hshown hopen)) (fun _ => rfl) (by decide)
      refine ⟨_, rfl, hrest, ?_, hbegins, nofun⟩
      rw [hstand]
      exact setBit_same _ (by decide) stands
    · obtain ⟨hrest, hstand, hbegins, -, -⟩ := settled_condition hn (congrArg State.beyondField
        (anaOutputDiag_outShort hm hshown)) (fun _ => rfl) (by decide)
      refine ⟨_, rfl, hrest, ?_, hbegins, nofun⟩
      rw [hstand]
      exact setBit_same _ (by decide) stands

end Sys2Proof.Machine
end

section
/-! PROOFS. The absence of a source and the stale phase its entries enter (07_signal_table.md R192): nothing beside the signal table and the
recorder changes but what deliveries change. -/

namespace Sys2Proof.Machine

/-- What is shown beyond what deliveries change, the signal table apart. -/
def State.besideSig (x : State) : State := { x.beyondField with sig := {} }

theorem besideSig_of_beyond {x y : State} (h : x.beyondField = y.beyondField) : x.besideSig = y.besideSig :=
  congrArg (fun z : State => { z with sig := {} }) h

/-- What a state shows with its signal table exchanged. -/
theorem rest_of_besideSig {x y : State} (h : x.besideSig = y.besideSig) (g : Sig) :
    ({ x with sig := g } : State).rest = ({ y with sig := g } : State).rest :=
  congrArg (fun z : State => { z with
    sig := ({ x with sig := g } : State).rest.sig
    sys := { z.sys with run := [], refClock := false } }) h

/-- A choice keeps what both its branches keep. -/
theorem keeps_ite {β : Type} (m : State → β) {c : Prop} [Decidable c] {a b : State} {x : β} (ha : m a = x) (hb : m b = x) :
    m (if c then a else b) = x := by
  split
  · exact ha
  · exact hb

theorem staleStep_inward (e : SigEntry) : e.staleStep.inward = e.inward := by
  unfold SigEntry.staleStep
  split_ifs <;> rfl

theorem staleStepAt_beyond (i : Nat) (s : State) : (staleStepAt i s).beyondField = s.beyondField := by
  have hmark (f : SigEntry → SigEntry) (hf : ∀ e, (f e).inward = e.inward) := onEntry_beyond i f hf s
  have hstep : (onEntry i SigEntry.staleStep (touchEntry i s)).beyondField = s.beyondField :=
    (onEntry_beyond i _ staleStep_inward _).trans (touchEntry_beyond i s)
  unfold staleStepAt
  refine keeps_ite State.beyondField (keeps_ite State.beyondField ?_ ?_)
    (keeps_ite State.beyondField hstep ((deliver_beyond i _).trans hstep))
  · exact hmark _ (by intro e; rfl)
  · rw [deliver_beyond, aside_beyond]
    exact hmark _ (by intro e; rfl)

theorem enterStale_besideSig (i : Nat) (s : State) : (enterStale i s).besideSig = s.besideSig := by
  have hentered (f : SigEntry → SigEntry) (x : State) (hf : ∀ e, (f e).inward = e.inward) :
      (onEntry i f (touchEntry i x)).besideSig = x.besideSig :=
    besideSig_of_beyond ((onEntry_beyond i f hf _).trans (touchEntry_beyond i x))
  have hflag (f : Sig → Sig) : (onSig f s).besideSig = s.besideSig := rfl
  unfold enterStale
  rw [besideSig_of_beyond (staleStepAt_beyond i _)]
  refine keeps_ite State.besideSig ?_ ?_
  · exact (hentered _ _ (by intro e; rfl)).trans (hflag _)
  · rw [besideSig_of_beyond (deliver_beyond i _)]
    exact (hentered _ _ (by intro e; rfl)).trans (hflag _)

/-- A record depends on the recorder and the time alone. -/
theorem raise_besideSig {x y : State} (h : x.besideSig = y.besideSig) (e : Ev) (sev : Severity) (u p q r : Nat) :
    (raise e sev u p q r x).besideSig = (raise e sev u p q r y).besideSig := by
  have hlog : x.log = y.log := by
    have hl := congrArg State.log h
    exact hl
  have hmono : x.mono = y.mono := by
    have hm := congrArg State.mono h
    exact hm
  have hraised := raise_log e sev u p q r x y hlog hmono
  have hr : ∀ z : State, (raise e sev u p q r z).besideSig = { z.besideSig with log := (raise e sev u p q r z).log } := fun _ => rfl
  rw [hr, hr, h, hraised]

/-- A declared absence changes nothing beside the table where no entry enters the phase, and else records SIGNAL_STALE. -/
theorem declareAbsent_besideSig (which : SigEntry → Bool) (s : State) : ∃ v, (v = s ∨ ∃ i, v = raise .signalStale .notice 0xFF i 0 0 s) ∧
    (declareAbsent which s).besideSig = v.besideSig := by
  unfold declareAbsent
  dsimp only
  split
  · exact ⟨s, .inl rfl, rfl⟩
  · exact ⟨_, .inr ⟨_, rfl⟩, raise_besideSig (forAll_keeps State.besideSig _ _ enterStale_besideSig s) _ _ _ _ _ _⟩

/-- No entry of the source: nothing changes. -/
theorem declareAbsent_of_none {which : SigEntry → Bool} {s : State} (h : ∀ p ∈ s.sig.entries, which p.2 = false) :
    declareAbsent which s = s := by
  have hnil : (s.sig.entries.filter fun p => which p.2 && !p.2.stale) = [] := by
    rw [List.filter_eq_nil_iff]
    intro p hp
    simp [h p hp]
  simp only [declareAbsent, hnil, List.map_nil]

theorem raise_nextSeq (e : Ev) (sev : Severity) (u p q r : Nat) (s : State) : (raise e sev u p q r s).log.nextSeq = s.log.nextSeq + 1 := by
  unfold raise raiseRecord
  simp only [onLog_log]
  split <;> rfl

theorem declareAbsent_nextSeq (which : SigEntry → Bool) (s : State) : s.log.nextSeq ≤ (declareAbsent which s).log.nextSeq := by
  obtain ⟨v, hv, hbeside⟩ := declareAbsent_besideSig which s
  have hlog : (declareAbsent which s).log = v.log := by
    have hl := congrArg State.log hbeside
    exact hl
  rw [hlog]
  obtain rfl | ⟨i, rfl⟩ := hv
  · exact le_rfl
  · rw [raise_nextSeq]
    exact Nat.le_succ _

end Sys2Proof.Machine
end

section
/-! PROOFS. HART transactions: polls, answers, timeouts, bursts and absence (15_analogue_channels.md R401 to R405). -/

namespace Sys2Proof.Machine

/-! ### Tables -/

theorem look_del_same {α : Type} (k : Nat) (l : List (Nat × α)) : look k (del k l) = none := by
  induction l with
  | nil => rfl
  | cons p l ih =>
    by_cases hp : p.1 = k
    · simpa [del, hp] using ih
    · obtain ⟨i, a⟩ := p
      simp only [del, List.filter_cons, bne_iff_ne, ne_eq, show ¬ i = k from hp, not_false_iff, if_true, look, if_false]
      exact ih

/-! ### Devices -/

/-- An update of a device that keeps its place is found there. -/
theorem hartDev_onHartDev (n slot : Nat) (f : HartDev → HartDev) (s : State)
    (hf : ∀ d, (f d).channel = d.channel ∧ (f d).slot = d.slot) :
    hartDev (onHartDev n slot f s) n slot = (hartDev s n slot).map f := by
  simp only [hartDev, onHartDev, onAna, List.find?_map]
  have hp : ((fun d : HartDev => d.channel == n && d.slot == slot) ∘ fun d => if d.channel = n ∧ d.slot = slot then f d else d) =
      fun d => d.channel == n && d.slot == slot := by
    funext d
    simp only [Function.comp_apply]
    split
    · rw [(hf d).1, (hf d).2]
    · rfl
  rw [hp]
  cases hd : s.ana.devs.find? fun d => d.channel == n && d.slot == slot with
  | none => rfl
  | some d =>
    have hplace : d.channel = n ∧ d.slot = slot := by simpa using List.find?_some hd
    simp [hplace]

/-- A device is found by the analogue part alone. -/
theorem hartDev_of_devs {s t : State} (h : t.ana.devs = s.ana.devs) (n slot : Nat) : hartDev t n slot = hartDev s n slot := by
  rw [hartDev, h]
  rfl

/-- A device whose poll starts now. -/
def HartDev.polled (now : Nat) (d : HartDev) : HartDev := { d with due := now + d.pollMs * 1000000 }

theorem hartDev_polled {s : State} {n slot : Nat} {d : HartDev} (hd : hartDev s n slot = some d) (now : Nat) :
    hartDev (onHartDev n slot (HartDev.polled now) s) n slot = some (d.polled now) := by
  have hplace (d : HartDev) : (d.polled now).channel = d.channel ∧ (d.polled now).slot = d.slot := by
    unfold HartDev.polled
    exact ⟨rfl, rfl⟩
  rw [hartDev_onHartDev n slot (HartDev.polled now) s hplace, hd, Option.map_some]

/-- A poll changes no address. -/
theorem hartAddress_polled (now : Nat) (d : HartDev) : hartAddress (some (d.polled now)) = hartAddress (some d) := by
  have hlong : (d.polled now).longAddr = d.longAddr := by
    unfold HartDev.polled
    rfl
  have hpoll : (d.polled now).pollAddr = d.pollAddr := by
    unfold HartDev.polled
    rfl
  simp only [hartAddress, hlong, hpoll]

theorem hartDev_follow (s : State) (n slot : Nat) : hartDev (follow s) n slot = hartDev s n slot := rfl

theorem hartDev_hartSend (n : Nat) (t : HartTx) (data : List Byte) (s : State) (m slot : Nat) :
    hartDev (hartSend n t data s) m slot = hartDev s m slot := rfl

theorem hartSend_sent (n : Nat) (t : HartTx) (data : List Byte) (s : State) : (hartSend n t data s).sent =
    { kind := .hart, unit := n, num := t.handle.getD t.slot,
      body := hartAddress (hartDev s n t.slot) ++ BitVec.ofNat 8 t.cmd :: data } :: s.sent := rfl

/-! ### What is heard -/

theorem hartAnswered_beyond (n slot : Nat) (r : HartReply) (s : State) :
    (hartAnswered n slot r s).beyondField = (hartHeard n slot s).beyondField := updateWhere_beyond _ _ _

theorem hartDev_hartHeard (n slot : Nat) (s : State) : hartDev (hartHeard n slot s) n slot =
    (hartDev s n slot).map fun d => { d with absent := false, failed := 0, heardAt := s.mono } :=
  hartDev_onHartDev n slot _ _ (fun _ => ⟨rfl, rfl⟩)

/-- The devices and channels, and what is shown beside the analogue part and what was sent: what the line's traffic leaves. -/
def besideLine (s x : State) : List HartDev × List AnaCh × State :=
  (x.ana.devs, x.ana.ch.map AnaCh.inward, ({ x with ana := s.ana, sent := s.sent } : State).rest)

theorem besideLine_of_rest {x y : State} (h : x.rest = y.rest) (s : State) : besideLine s x = besideLine s y :=
  Prod.ext (ana_devs_of_rest h) (Prod.ext (congrArg (fun z : State => z.ana.ch) h)
    (congrArg (fun z : State => { z with ana := s.rest.ana, sent := s.sent }) h))

theorem besideLine_hartAnswered (n slot : Nat) (r : HartReply) (s : State) :
    besideLine s (hartAnswered n slot r s) = besideLine s (hartHeard n slot s) :=
  besideLine_of_rest (rest_of_beyond (hartAnswered_beyond n slot r s)) s

/-- What a device that was heard leaves once it is settled, whatever goes out on the line then. -/
theorem settled_heard {s u : State} {n slot : Nat} {d : HartDev} (hd : hartDev s n slot = some d) (hn : n < s.ana.ch.length)
    (hu : besideLine s u = besideLine s (hartHeard n slot s)) :
    let t := follow (settle s u)
    ({ t with ana := s.ana, sent := s.sent } : State).rest = s.rest ∧
      (hartDev t n slot).map (fun d => (d.absent, d.failed)) = some (false, 0) ∧
      (anaCh t n).hartCount = satInc 16 (anaCh s n).hartCount := by
  intro t
  have ht : besideLine s t = besideLine s (hartHeard n slot s) := (besideLine_of_rest (settled_follow s u).rest s).trans hu
  obtain ⟨hdevs, hside⟩ := Prod.ext_iff.1 ht
  obtain ⟨hch, hrest⟩ := Prod.ext_iff.1 hside
  refine ⟨hrest, ?_, ?_⟩
  · rw [hartDev_of_devs hdevs, hartDev_hartHeard, hd]
    rfl
  · have hinward := anaCh_of_map AnaCh.inward t (hartHeard n slot s) hch n
    have hheard : anaCh (hartHeard n slot s) n = { anaCh s n with hartCount := satInc 16 (anaCh s n).hartCount } :=
      anaCh_onAnaCh s n _ hn
    rw [hheard] at hinward
    simpa using congrArg AnaCh.hartCount hinward

theorem hartIdle_beyond (n : Nat) {x y : State} (h : x.beyondField = y.beyondField) :
    (hartIdle n x).beyondField = (hartIdle n y).beyondField :=
  congrArg (fun z : State => { z with ana := { z.ana with tx := del n z.ana.tx } }) h

/-- Without a queue on the channel nothing waits for the line. -/
theorem hartAfterPoll_of_no_queue {s u : State} {n : Nat} (hq : hartQueue s n = none) (hu : u.que = s.que) :
    hartAfterPoll n u = hartIdle n u := by
  have hqueue : hartQueue u n = none := by
    rw [← hq]
    simp only [hartQueue, queueOf, queueAt, hu]
  simp only [hartAfterPoll, hartWaits, hqueue, Option.bind_none]

theorem hartAnswered_que (n slot : Nat) (r : HartReply) (s : State) : (hartAnswered n slot r s).que = s.que := by
  have h := congrArg State.que (hartAnswered_beyond n slot r s)
  exact h

theorem hartAnswered_sent (n slot : Nat) (r : HartReply) (s : State) : (hartAnswered n slot r s).sent = s.sent := by
  have h := congrArg State.sent (hartAnswered_beyond n slot r s)
  exact h

theorem hartDev_hartAnswered (n slot : Nat) (r : HartReply) (s : State) : hartDev (hartAnswered n slot r s) n slot =
    (hartDev s n slot).map fun d => { d with absent := false, failed := 0, heardAt := s.mono } := by
  have hdevs : (hartAnswered n slot r s).ana.devs = (hartHeard n slot s).ana.devs :=
    ana_devs_of_rest (rest_of_beyond (hartAnswered_beyond n slot r s))
  rw [hartDev_of_devs hdevs, hartDev_hartHeard]

theorem frame_ana_sent_of_rest {s t v : State} (h : t.rest = v.rest)
    (hv : ({ v with ana := s.ana, sent := s.sent } : State).rest = s.rest) :
    ({ t with ana := s.ana, sent := s.sent } : State).rest = s.rest :=
  (congrArg (fun z : State => { z with ana := s.rest.ana, sent := s.sent }) h).trans hv

/-! ### One transaction (R401, R402) -/

section
variable {s : State} {n slot : Nat} {d : HartDev} (hd : hartDev s n slot = some d)
include hd

/-- A poll of the device that is due goes out. -/
theorem hartPoll_of_due (hnext : hartNext s d = true) (hruns : hartRuns s n = true) (hsusp : hartSuspended s n = false)
    (hidle : look n s.ana.tx = none) : hartPoll n slot s =
      hartSend n { slot := slot, handle := none, attempt := 1, cmd := if d.longAddr = 0 then 0 else 3, at_ := s.mono } []
        (onHartDev n slot (HartDev.polled s.mono) s) := by
  simp only [hartPoll, hd, hidle, hnext, hruns, hsusp, Bool.not_false, Bool.and_self, if_true]
  rfl

omit hd in
theorem hartTimeout_again {x : HartTx} (hx : look n s.ana.tx = some x) (hh : x.handle = none)
    (hlt : x.attempt < 3) (hat : x.at_ + 305000000 ≤ s.mono) (hsusp : hartSuspended s n = false) :
    hartTimeout n s = hartSend n { x with attempt := x.attempt + 1, at_ := s.mono } [] s := by
  simp [hartTimeout, hx, hh, hlt, hat.not_gt, hsusp]

/-- A burst frame, by what it leaves on the line. -/
theorem hartBurst_cases (r : HartReply) (hb : d.burst = true) (hruns : hartRuns s n = true) (hq : hartQueue s n = none) :
    besideLine s (hartBurst n slot r s) = besideLine s (hartHeard n slot s) ∧
      (hartBurst n slot r s).sent =
        if d.longAddr = 0 ∧ d.poll = false ∧ hartSuspended s n = false ∧ look n s.ana.tx = none then
          { kind := .hart, unit := n, num := slot, body := hartAddress (some d) ++ [0] } :: s.sent else s.sent := by
  have hheard := besideLine_hartAnswered n slot r s
  have hsent := hartAnswered_sent n slot r s
  simp only [hartBurst, hd, hb, hruns, Bool.and_self, if_true]
  cases htx : look n s.ana.tx with
  | some x => simpa using ⟨hheard, hsent⟩
  | none =>
    simp only [Option.isSome_none, Bool.false_eq_true, if_false, Bool.not_eq_true', and_true]
    split
    · refine ⟨hheard, ?_⟩
      simp only [hartContact, hartSend, send, hartDev_hartAnswered, hd, onAna, hsent]
      rfl
    · split
      · rw [hartAfterPoll_of_no_queue hq (hartAnswered_que n slot r s)]
        exact ⟨hheard, hsent⟩
      · exact ⟨hheard, hsent⟩

/-! ### Absence (R403) -/

/-- A device declared absent: its bit, its flag and its record, before its entries enter the stale phase. -/
def hartMissing (n slot : Nat) (s : State) : State :=
  raise .hartDeviceAbsent .notice n n slot 0 (onAna (fun a => { a with flags := flag 3 a.flags })
    (onAnaCh n (fun c => { c with diag := setBit c.diag 10 true }) (onHartDev n slot (fun d => { d with absent := true }) s)))

theorem hartAbsent_of_present (hpresent : d.absent = false) :
    hartAbsent n slot s = declareAbsent (isHartEntry n slot) (hartMissing n slot s) := by
  simp only [hartAbsent, hd, hpresent, Bool.false_eq_true, if_false]
  rfl

end

section
variable (s : State) (n slot : Nat)

theorem anaCh_hartMissing (hn : n < s.ana.ch.length) :
    anaCh (hartMissing n slot s) n = { anaCh s n with diag := setBit (anaCh s n).diag 10 true } :=
  anaCh_onAnaCh s n _ hn

theorem hartDev_hartMissing : hartDev (hartMissing n slot s) n slot = (hartDev s n slot).map fun d => { d with absent := true } :=
  hartDev_onHartDev n slot _ s (fun _ => ⟨rfl, rfl⟩)

/-- What a device declared absent leaves, once it is settled. -/
theorem settled_hartMissing {t : State} (ht : t.rest = (declareAbsent (isHartEntry n slot) (hartMissing n slot s)).rest) :
    t.ana.devs = (hartMissing n slot s).ana.devs ∧ t.ana.ch.map AnaCh.inward = (hartMissing n slot s).ana.ch.map AnaCh.inward ∧
      t.ana.flags = (hartMissing n slot s).ana.flags ∧
      t.log = (declareAbsent (isHartEntry n slot) (hartMissing n slot s)).log ∧
      ({ t with ana := s.ana, log := s.log, sig := s.sig } : State).rest = s.rest := by
  obtain ⟨v, hv, hbeside⟩ := declareAbsent_besideSig (isHartEntry n slot) (hartMissing n slot s)
  have hana : t.rest.ana = (hartMissing n slot s).rest.ana := by
    have ht' := congrArg State.ana ht
    have hb := congrArg State.ana hbeside
    refine ht'.trans (hb.trans ?_)
    obtain rfl | ⟨i, rfl⟩ := hv <;> rfl
  have hframe : ({ v with ana := s.ana, log := s.log, sig := s.sig } : State).rest = s.rest := by
    obtain rfl | ⟨i, rfl⟩ := hv
    · rw [hartMissing, raise_frame]
      rfl
    · rw [raise_frame, hartMissing, raise_frame]
      rfl
  have hdevs := congrArg Ana.devs hana
  have hch := congrArg Ana.ch hana
  have hflags := congrArg Ana.flags hana
  refine ⟨hdevs, hch, hflags, log_of_rest ht, ?_⟩
  calc ({ t with ana := s.ana, log := s.log, sig := s.sig } : State).rest
      = ({ declareAbsent (isHartEntry n slot) (hartMissing n slot s) with ana := s.ana, log := s.log, sig := s.sig } : State).rest :=
        congrArg (fun z : State => { z with ana := s.rest.ana, log := s.log, sig := s.rest.sig }) ht
    _ = ({ v with ana := s.ana, log := s.log, sig := s.sig } : State).rest :=
        congrArg (fun z : State => { z with ana := s.rest.ana, log := s.log }) (rest_of_besideSig hbeside s.sig)
    _ = s.rest := hframe

end

/-- Settles O13: a poll and another attempt send one frame; an answer and a burst frame are heard; an absence is declared. -/
theorem hartTransactionsRun : Obligations.HartTransactionsRun := by
  unfold Obligations.HartTransactionsRun
  intro s n slot d hd hruns hn again
  refine ⟨fun hnext hsusp hidle => ?poll, fun r x hx hslot hh hcmd hq => ?answer, fun x hx hslot hh hlt hat hsusp => ?timeout,
    fun r hb hq => ?burst, fun hb hpresent hat => ?absent⟩
  case poll =>
    refine ⟨_, congrArg answer (hartPoll_of_due hd hnext hruns hsusp hidle), ?_, look_put_same _ _ _, ?_,
      frame_ana_sent_of_rest (follow_rest _) rfl⟩
    · rw [follow_sent, hartSend_sent, hartDev_polled hd, hartAddress_polled]
      rfl
    · rw [hartDev_follow, hartDev_hartSend, hartDev_polled hd, Option.map_some, HartDev.polled]
  case answer =>
    obtain rfl := hslot
    have hu : hartResponse n r s = hartIdle n (hartAnswered n x.slot r s) := by
      simp only [hartResponse, hx, hh, hartPolled, hcmd, if_true, hartAfterPoll_of_no_queue hq (hartAnswered_que n x.slot r s)]
    obtain ⟨-, hdev, hcount⟩ := settled_heard (u := hartResponse n r s) hd hn (by rw [hu]; exact besideLine_hartAnswered n x.slot r s)
    have hrest : (follow (settle s (hartResponse n r s))).rest = (hartIdle n (hartHeard n x.slot s)).rest := by
      rw [hu]
      exact rest_settled (hartIdle_beyond n (hartAnswered_beyond n x.slot r s))
    refine ⟨_, rfl, frame_ana_of_rest hrest rfl, ?_, hdev, hcount⟩
    rw [ana_tx_of_rest hrest]
    exact look_del_same n _
  case timeout =>
    obtain rfl := hslot
    have hset := settled_follow s (hartTimeout n s)
    rw [hartTimeout_again hx hh hlt hat hsusp] at hset
    refine ⟨_, congrArg (fun u => answer (settle s u)) (hartTimeout_again hx hh hlt hat hsusp), ?_, ?_,
      frame_ana_sent_of_rest hset.rest rfl⟩
    · rw [hset.sent, hartSend_sent, hh, hd]
      rfl
    · rw [ana_tx_of_rest hset.rest]
      exact look_put_same _ _ _
  case burst =>
    obtain ⟨hu, hsent⟩ := hartBurst_cases hd r hb hruns hq
    obtain ⟨hrest, hdev, hcount⟩ := settled_heard hd hn hu
    exact ⟨_, rfl, hrest, (settled_follow s _).sent.trans hsent, hdev, hcount⟩
  case absent =>
    have htakes : (d.burst && hartRuns s n && decide (d.heardAt + 3 * d.burstMs * 1000000 ≤ s.mono)) = true := by
      simp only [hb, hruns, hat, decide_true, Bool.and_self]
    have hexec : exec (.hartBurstAbsent n slot) s =
        .next (follow (settle s (declareAbsent (isHartEntry n slot) (hartMissing n slot s)))) := by
      simp only [exec, execHartBurstAbsent, hd, htakes, if_true, hartAbsent_of_present hd hpresent, answer]
    have hrest := (settled_follow s (declareAbsent (isHartEntry n slot) (hartMissing n slot s))).rest
    generalize follow (settle s (declareAbsent (isHartEntry n slot) (hartMissing n slot s))) = t at hexec hrest
    obtain ⟨hdevs, hch, hflags, hlog, hframe⟩ := settled_hartMissing s n slot hrest
    have hdiag : (anaCh t n).diag.getLsbD 10 = true := by
      rw [diag_of_inward (anaCh_of_map AnaCh.inward _ _ hch n) (by decide), anaCh_hartMissing s n slot hn]
      exact setBit_get (anaCh s n).diag 10 (by decide)
    refine ⟨_, hexec, ?_, hdiag, ?_, ?_, fun hnone => ?_, hframe⟩
    · rw [hartDev_of_devs hdevs, hartDev_hartMissing, hd]
      rfl
    · rw [hflags]
      exact setBit_get s.ana.flags 3 (by decide)
    · rw [hlog]
      have hraised : (hartMissing n slot s).log.nextSeq = s.log.nextSeq + 1 := raise_nextSeq _ _ _ _ _ _ _
      have hle := declareAbsent_nextSeq (isHartEntry n slot) (hartMissing n slot s)
      omega
    · rw [hlog, declareAbsent_of_none (s := hartMissing n slot s) hnone]
      exact raise_log _ _ _ _ _ _ _ _ rfl rfl

end Sys2Proof.Machine
end

section
/-! PROOFS. Records raised, application records, and the recorder's latched reads and seconds (18_event_recorder.md R461 to R474). -/

namespace Sys2Proof.Machine

/-! ### Raising a record (R464, R465) -/

/-- Settles O19: a record is staged where its severity has a place, and dropped and counted otherwise. -/
theorem raisedRecordsAreStagedOrDropped : Obligations.RaisedRecordsAreStagedOrDropped := by
  unfold Obligations.RaisedRecordsAreStagedOrDropped
  intro s e sev unit p1 p2 p3 t room
  have hroom : stagingTakes sev s.log.staged.length = true ↔ room := by
    cases sev <;> simp [stagingTakes, room]
  have ht : t.log = if stagingTakes sev s.log.staged.length then _ else _ := rfl
  refine ⟨raise_nextSeq e sev unit p1 p2 p3 s, rfl, ?slots, fun h => ?staged, fun h => ?dropped⟩
  case slots =>
    rw [ht]
    split <;> rfl
  case staged =>
    rw [if_pos (hroom.2 h)] at ht
    rw [ht]
    refine ⟨_, rfl, rfl, rfl, rfl, rfl, rfl, rfl, rfl, rfl, rfl, rfl, rfl, ?_⟩
    cases s.log.accepting <;> rfl
  case dropped =>
    rw [if_neg (fun hr => h (hroom.1 hr))] at ht
    rw [ht]
    exact ⟨rfl, rfl, flag_keeps 1 (setBit_get s.log.flags 0 (by decide)), setBit_get _ 1 (by decide)⟩

/-- What staging holds once a record is raised. -/
theorem raiseRecord_staged (code : EvCode) (sev : Severity) (flags source unit p1 p2 p3 : Nat) (s : State) :
    (raiseRecord code sev flags source unit p1 p2 p3 s).log.staged =
      if stagingTakes sev s.log.staged.length then s.log.staged ++
        [{ seq := s.log.nextSeq, code := code, opsec := s.log.opsec, frac := opFraction s, power := s.log.power, sev := sev,
           flags := flags ||| bit (!s.log.accepting), source := source, unit := unit, p1 := p1, p2 := p2, p3 := p3 }]
      else s.log.staged := by
  unfold raiseRecord
  simp only [onLog_log]
  split <;> rfl

/-- A record leaves the flags that are set. -/
theorem raise_keeps_flag {s : State} {n : Nat} (h : s.log.flags.getLsbD n = true) (e : Ev) (sev : Severity) (u p q r : Nat) :
    (raise e sev u p q r s).log.flags.getLsbD n = true := by
  unfold raise raiseRecord
  simp only [onLog_log]
  split
  · exact h
  · exact flag_keeps 1 (flag_keeps 0 h)

theorem raise_refusedAt (e : Ev) (sev : Severity) (u p q r : Nat) (s : State) :
    (raise e sev u p q r s).log.refusedAt = s.log.refusedAt := by
  unfold raise raiseRecord
  simp only [onLog_log]
  split <;> rfl

/-- A command that changes the recorder alone leaves what follows as it was. -/
theorem follow_of_log {s u : State} (h : { u with log := s.log } = s) : { follow u with log := s.log } = follow s :=
  (follow_replacing_log u s.log).symm.trans (congrArg follow h)

/-! ### Application records (R469) -/

theorem userRefusal_none {code : BitVec 16} {s : State} (hcode : 0xC000 ≤ code.toNat) (hen : s.log.userEnable = true) :
    userRefusal code s = none := by
  simp only [userRefusal, hcode.not_gt, if_false, hen, Bool.not_true, Bool.false_eq_true]

theorem userRefusal_some {code : BitVec 16} {s : State} (h : code.toNat < 0xC000 ∨ s.log.userEnable = false) :
    ∃ cause, userRefusal code s = some cause := by
  unfold userRefusal
  split_ifs with hlt hen
  · exact ⟨1, rfl⟩
  · exact ⟨2, rfl⟩
  · exact absurd h (by simpa [hlt] using hen)

/-- A refusal noted for its requester: USER_REFUSED, and the instant of the record. -/
def refusalNoted (q : Requester) (s : State) : State :=
  onLog (fun l => { l with refusedAt := put q.code s.mono l.refusedAt }) (onLog (fun l => { l with flags := flag 2 l.flags }) s)

section
variable {q : Requester} {code : BitVec 16} {s : State} (sev : Nat) (p1 p2 p3 : Word)

/-- A request that is in order raises its record. -/
theorem userRecord_of_allowed (hcode : 0xC000 ≤ code.toNat) (hen : s.log.userEnable = true) :
    userRecord q code sev p1 p2 p3 s =
      (true, raiseRecord (.app code) (severityOf (min sev s.log.userMaxSev)) 4 5 q.code p1.toNat p2.toNat p3.toNat s) := by
  simp only [userRecord, userRefusal_none hcode hen]

/-- A request that is refused: USER_REFUSED, and once in 60 s for its requester a record. -/
theorem userRecord_of_refused (h : code.toNat < 0xC000 ∨ s.log.userEnable = false) : ∃ l : Log,
    userRecord q code sev p1 p2 p3 s = (false, { s with log := l }) ∧ l.flags.getLsbD 2 = true ∧
      (longAgo (look q.code s.log.refusedAt) 60000000000 s.mono = true →
        l.nextSeq = s.log.nextSeq + 1 ∧ look q.code l.refusedAt = some s.mono) ∧
      (longAgo (look q.code s.log.refusedAt) 60000000000 s.mono = false → l.nextSeq = s.log.nextSeq) := by
  obtain ⟨cause, hcause⟩ := userRefusal_some h
  have hflag : (flag 2 s.log.flags).getLsbD 2 = true := setBit_get s.log.flags 2 (by decide)
  have hns : 60 * nsPerSec = 60000000000 := rfl
  simp only [userRecord, hcause, onLog_log, onLog_mono, hns]
  split
  case isTrue hlong =>
    refine ⟨(raise .logUserRefused .notice 0xFF q.code cause 0 (refusalNoted q s)).log, rfl, raise_keeps_flag hflag _ _ _ _ _ _,
      fun _ => ⟨raise_nextSeq _ _ _ _ _ _ _, ?_⟩, fun hshort => absurd hlong (by simp [hshort])⟩
    rw [raise_refusedAt]
    exact look_put_same _ _ _
  case isFalse hshort => exact ⟨_, rfl, hflag, fun hlong => absurd hlong hshort, fun _ => rfl⟩

end

/-! ### The banked registers -/

theorem logBank_onLogBank_same (r : Reader) (f : LogBank → LogBank) (s : State) : logBank (onLogBank r f s) r = f (logBank s r) := by
  cases r <;> rfl

theorem logBank_onLogBank_other {r q : Reader} (h : q ≠ r) (f : LogBank → LogBank) (s : State) :
    logBank (onLogBank r f s) q = logBank s q := by
  cases r <;> cases q <;> simp_all [onLogBank, logBank, onLog]

/-- The banks of the readers are the recorder's. -/
theorem onLogBank_eq (r : Reader) (f : LogBank → LogBank) (s : State) : onLogBank r f s = { s with log := (onLogBank r f s).log } := rfl

theorem logBank_follow (s : State) (r : Reader) : logBank (follow s) r = logBank s r := by
  cases r <;> rfl

/-- SEVERITY is written before a GO is judged. -/
def severitySet (r : Reader) (v : Word) (s : State) : State := onLogBank r (fun b => { b with sev := field v 0 2 }) s

theorem writeLogUser_go {r : Reader} {v : Word} (hgo : v.getLsbD 31 = true) (s : State) : writeLogUser r v s =
    onLogBank r (fun b => { b with
      refused := !(userRecord (.ofReader r) (logBank s r).code (field v 0 2) (logBank s r).p1 (logBank s r).p2 (logBank s r).p3
        (severitySet r v s)).1 })
      (userRecord (.ofReader r) (logBank s r).code (field v 0 2) (logBank s r).p1 (logBank s r).p2 (logBank s r).p3
        (severitySet r v s)).2 := by
  simp only [writeLogUser, hgo, if_true, logBank_onLogBank_same]
  rfl

theorem onLogBank_staged (r : Reader) (f : LogBank → LogBank) (s : State) : (onLogBank r f s).log.staged = s.log.staged := by
  cases r <;> rfl

theorem requester_code_ofReader (r : Reader) : (Requester.ofReader r).code = match r with | .sdk => 1 | .plant => 2 := by
  cases r <;> rfl

/-- Settles O21: a request is allowed or refused, whoever makes it, and a register's GO keeps its answer. -/
theorem applicationRecords : Obligations.ApplicationRecords := by
  unfold Obligations.ApplicationRecords
  intro s r code sev p1 p2 p3 v
  refine ⟨fun hcode hen => ?block, fun h => ?blockRefused, fun hgo hcode hen => ?go, fun hgo h => ?goRefused⟩
  case block =>
    have hu := userRecord_of_allowed (q := .program) sev p1 p2 p3 hcode hen
    exact ⟨_, congrArg (fun x : Bool × State => answer x.2) hu, follow_of_log rfl, rfl⟩
  case blockRefused =>
    obtain ⟨l, hu, hflag, hlong, hshort⟩ := userRecord_of_refused (q := .program) sev p1 p2 p3 h
    exact ⟨_, congrArg (fun x : Bool × State => answer x.2) hu, follow_of_log rfl, hflag, hlong, hshort⟩
  case go =>
    have hen' : (severitySet r v s).log.userEnable = true := by cases r <;> exact hen
    have hu := writeLogUser_go (r := r) hgo s
    rw [userRecord_of_allowed (field v 0 2) (logBank s r).p1 (logBank s r).p2 (logBank s r).p3 hcode hen',
      requester_code_ofReader] at hu
    refine ⟨_, congrArg answer hu, follow_of_log rfl, ?_, ?_⟩
    · rw [logBank_follow, logBank_onLogBank_same]
      rfl
    · rw [follow_log, onLogBank_staged, raiseRecord_staged, raiseRecord_staged]
      cases r <;> rfl
  case goRefused =>
    have h' : (logBank s r).code.toNat < 0xC000 ∨ (severitySet r v s).log.userEnable = false := by cases r <;> exact h
    obtain ⟨l, hl, hflag, -, -⟩ := userRecord_of_refused (q := .ofReader r) (field v 0 2) (logBank s r).p1 (logBank s r).p2
      (logBank s r).p3 h'
    have hu := writeLogUser_go (r := r) hgo s
    rw [hl] at hu
    refine ⟨_, congrArg answer hu, follow_of_log rfl, ?_, ?_⟩
    · rw [logBank_follow, logBank_onLogBank_same]
      rfl
    · cases r <;> exact hflag

/-- A write of a reader's bank changes that bank alone. -/
theorem answer_onLogBank (r : Reader) (f : LogBank → LogBank) (s : State) : ∃ t, answer (onLogBank r f s) = .next t ∧
    logBank t r = f (logBank s r) ∧ (∀ q, q ≠ r → logBank t q = logBank s q) ∧ { t with log := s.log } = follow s :=
  ⟨_, rfl, (logBank_follow _ r).trans (logBank_onLogBank_same r f s),
    fun q hq => (logBank_follow _ q).trans (logBank_onLogBank_other hq f s), rfl⟩

/-- Settles O22: a tick of the seconds, and a latch for each read. -/
theorem recorderReadsAndTime : Obligations.RecorderReadsAndTime := by
  unfold Obligations.RecorderReadsAndTime
  intro s r v
  refine ⟨fun hon hsec => ?tick, fun hlatch => ?latch, ?seq, ?opsec⟩
  case tick =>
    have htakes : (railsOn s && decide (s.log.secBase + nsPerSec ≤ (s.mono : Int))) = true := by
      simp only [hon, Bool.true_and, decide_eq_true_eq]
      exact hsec
    exact ⟨_, congrArg answer (if_pos htakes), rfl, rfl, rfl, rfl, rfl, rfl⟩
  case latch =>
    have hu : writeLogSel r v s =
        onLogBank r (fun b => { b with sel := field v 0 16, latched := true, copy := look (field v 0 16) s.log.slots }) s := by
      simp only [writeLogSel, hlatch, if_true]
    obtain ⟨t, ht, hbank, hother, hframe⟩ := answer_onLogBank r
      (fun b => { b with sel := field v 0 16, latched := true, copy := look (field v 0 16) s.log.slots }) s
    exact ⟨t, (congrArg answer hu).trans ht, hbank ▸ rfl, hbank ▸ rfl, hbank ▸ rfl, hother, hframe⟩
  case seq =>
    obtain ⟨t, ht, hbank, hother, hframe⟩ := answer_onLogBank r (fun b => { b with seqHi := s.log.nextSeq / 2 ^ 32 % 2 ^ 16 }) s
    exact ⟨t, ht, hbank ▸ rfl, hother, hframe⟩
  case opsec =>
    obtain ⟨t, ht, hbank, hother, hframe⟩ := answer_onLogBank r (fun b => { b with frac := opFraction s, power := s.log.power }) s
    exact ⟨t, ht, hbank ▸ rfl, hbank ▸ rfl, hother, hframe⟩

end Sys2Proof.Machine
end

section
/-! PROOFS. The status panel's commands (20_status_panel.md R502 to R515). -/

namespace Sys2Proof.Machine

/-! ### What an uncorrectable word touches (R106 to R108) -/

theorem weakFound_frame {s x : State} (h : { x with mem := s.mem, log := s.log } = s) (k : Nat) (p : Place) :
    { weakFound k p x with mem := s.mem, log := s.log } = s := by
  unfold weakFound
  split
  · exact h
  · rw [raise_frame]
    exact h

/-- An uncorrectable word that an owner meets changes the memory's book and the recorder alone. -/
theorem ueFound_frame (o : Owner) (p : Place) (s : State) : { ueFound o p s with mem := s.mem, log := s.log } = s := by
  unfold ueFound reportUe
  exact weakFound_frame rfl 1 p

theorem ueFound_panel (o : Owner) (p : Place) (s : State) : (ueFound o p s).panel = s.panel := by
  have h := congrArg State.panel (ueFound_frame o p s)
  exact h

/-- A word of the owner's own that is uncorrectable is met as such. -/
theorem metBad_of_uncorrectable {o : Owner} {p : Place} {s : State} (hh : holdsWord s o p = true) (hu : uncorrectable p s = true) :
    metBad o p s = some (ueFound o p s) := by
  simp only [metBad, codeRead, hh, hu, if_true]

/-! ### What follows a change of the panel -/

/-- A command that changes the panel, the recorder and the memory's book alone leaves what follows as it was. -/
theorem follow_of_panel {s u : State} (h : { u with panel := s.panel, log := s.log, mem := s.mem } = s) :
    { follow u with panel := s.panel, log := s.log, mem := s.mem } = follow s :=
  congrArg follow h

theorem follow_of_panelLog {s u : State} (h : { u with panel := s.panel, log := s.log } = s) :
    { follow u with panel := s.panel, log := s.log } = follow s :=
  congrArg follow h

theorem follow_onPanel (f : Panel → Panel) (s : State) : { follow (onPanel f s) with panel := s.panel } = follow s := rfl

/-! ### The end and the stop of an update (R509 to R511) -/

/-- The panel at the end of an update. -/
def Panel.ended (u : PanelUpdate) (far : Bool) (p : Panel) : Panel :=
  { p with
    update := none, inProgress := false, frame := 0, shown := u.draws, shownPower := u.power, shownOpsec := u.opsec
    unknown := p.unknown && !u.recovery, driveRun := 0
    updates := satInc 32 p.updates
    correctiveDue := p.correctiveDue || far
    flags := if far then flag 2 p.flags else p.flags }

theorem panelEnd_eq (u : PanelUpdate) (s : State) :
    ∃ far, panelEnd u s =
      if u.recovery then
        raise .panelRecovered .notice 0xFF 0 0 0 (onPanel (fun p => { p with flags := flag 0 p.flags }) (onPanel (Panel.ended u far) s))
      else onPanel (Panel.ended u far) s :=
  ⟨_, rfl⟩

theorem panelEnd_panel (u : PanelUpdate) (s : State) :
    (panelEnd u s).panel.update = none ∧ (panelEnd u s).panel.shown = u.draws ∧
      (panelEnd u s).panel.unknown = (s.panel.unknown && !u.recovery) ∧
      (panelEnd u s).panel.updates = satInc 32 s.panel.updates ∧
      (panelEnd u s).panel.vsMeas = s.panel.vsMeas ∧ (panelEnd u s).panel.vsOutRun = s.panel.vsOutRun := by
  obtain ⟨far, he⟩ := panelEnd_eq u s
  rw [he]
  split <;> exact ⟨rfl, rfl, rfl, rfl, rfl, rfl⟩

theorem panelEnd_frame (u : PanelUpdate) (s : State) : { panelEnd u s with panel := s.panel, log := s.log } = s := by
  obtain ⟨far, he⟩ := panelEnd_eq u s
  rw [he]
  split
  · rw [raise_frame]
    rfl
  · rfl

/-- The panel once its driver has stopped at an uncorrectable word. -/
theorem panelStops_panel {s : State} (h : s.panel.update.isSome = true) :
    (panelStops true s).panel.update = none ∧ (panelStops true s).panel.unknown = true ∧ (panelStops true s).panel.noUpdate = true ∧
      (panelStops true s).panel.flags.getLsbD 1 = true ∧ (panelStops true s).panel.shown = s.panel.shown := by
  rw [panelStops, if_pos h, raise_panel]
  exact ⟨rfl, rfl, Bool.or_true _, setBit_get _ 1 (by decide), rfl⟩

theorem panelStops_frame (m : Bool) (s : State) : { panelStops m s with panel := s.panel, log := s.log } = s := by
  unfold panelStops
  split
  · rw [raise_frame]
    rfl
  · rfl

/-! ### A frame (R506, R509, R511) -/

/-- The panel with V_S measured within its bounds. -/
def Panel.measured (vs : Nat) (p : Panel) : Panel := { p with vsMeas := vs, vsOutRun := 0 }

section
variable {s : State} {u : PanelUpdate} {vs : Nat} (hu : s.panel.update = some u) (hf : frameOver s = true) (hh : s.pwr.hbr = .none)
include hu hf hh

theorem update_of_frame : (s.panel.update.filter fun _ => frameOver s && s.pwr.hbr == .none) = some u := by
  rw [hu, hf, hh]
  rfl

/-- A frame with V_S in its bounds moves on, or ends the update at its last. -/
theorem panelFrame_of_good (hlo : s.panel.vsSet * 97 ≤ vs * 100) (hhi : vs * 100 ≤ s.panel.vsSet * 103) :
    panelFrame vs none s =
      if s.panel.frame + 1 < u.lengths.sum then onPanel (fun p => { p with frame := p.frame + 1 }) (onPanel (Panel.measured vs) s)
      else panelEnd u (onPanel (Panel.measured vs) s) := by
  have hout : (decide (vs * 100 < s.panel.vsSet * 97) || decide (s.panel.vsSet * 103 < vs * 100)) = false := by
    rw [decide_eq_false hlo.not_gt, decide_eq_false hhi.not_gt]
    rfl
  unfold panelFrame
  rw [update_of_frame hu hf hh]
  simp only [Option.bind_none, hout]
  rfl

/-- A frame that meets an uncorrectable word of the panel's own abandons the update. -/
theorem panelFrame_of_bad {p : Place} (hp : holdsWord s .panel p = true) (hb : uncorrectable p s = true) :
    panelFrame vs (some p) s = panelStops true (ueFound .panel p s) := by
  unfold panelFrame
  rw [update_of_frame hu hf hh]
  simp only [Option.bind_some, metBad_of_uncorrectable hp hb]

end

/-- Nothing is driven in harbour watch. -/
theorem panelFrame_of_harbour {s : State} (h : s.pwr.hbr ≠ .none) (vs : Nat) (p : Option Place) : panelFrame vs p s = s := by
  have hn : (s.panel.update.filter fun _ => frameOver s && s.pwr.hbr == .none) = none := by
    rw [Option.filter_eq_none_iff]
    intro u _
    simp only [beq_eq_false_iff_ne.2 h, Bool.and_false, Bool.false_eq_true, not_false_eq_true]
  unfold panelFrame
  rw [hn]

/-! ### The start (R503, R508) -/

/-- The conditions under which an update starts, but for its energy. -/
theorem panelStart_of_may {s : State} (hm : panelMay s = true) (hr : railsOn s = true)
    (hd : s.panel.pending = true ∨ s.panel.correctiveDue = true) (hn : s.panel.update = none) (ht : -2000 ≤ s.panel.temp)
    (hi : ∀ x, s.panel.startedAt = some x → x + s.panel.minInterval * 1000000000 ≤ s.mono) :
    (panelMay s && railsOn s && (s.panel.pending || s.panel.correctiveDue) && s.panel.update.isNone && decide (-2000 ≤ s.panel.temp)
      && s.panel.startedAt.all (fun (t : Int) => decide (t + s.panel.minInterval * nsPerSec ≤ (s.mono : Int)))) = true := by
  have hdue : (s.panel.pending || s.panel.correctiveDue) = true := by simpa using hd
  have hall : s.panel.startedAt.all (fun (t : Int) => decide (t + s.panel.minInterval * nsPerSec ≤ (s.mono : Int))) = true :=
    (Option.all_eq_true _ _).2 fun x hx => decide_eq_true (hi x hx)
  simp only [hm, hr, hdue, hn, Option.isNone_none, decide_eq_true ht, hall, Bool.and_self]

/-- Settles O23: each command of the panel by its own branch. -/
theorem panelUpdatesRun : Obligations.PanelUpdatesRun := by
  unfold Obligations.PanelUpdatesRun
  intro s
  refine ⟨fun x => ?temp, fun v hv => ?request, fun hm hr hd => ?compare, fun hm hr hd hn ht hi => ⟨fun he F V => ?starts, fun he F V => ?defers⟩,
    fun vs p h => ?harbour, fun u vs hu hf hh => ⟨fun hlo hhi => ?drives, fun p hp hb => ?abandons⟩⟩
  case temp =>
    exact ⟨_, rfl, rfl, fun h => if_pos h, fun h => if_neg (Nat.not_le.2 h), follow_onPanel _ s⟩
  case request =>
    have hq : panelRequest v s = onPanel (fun p => { p with correctiveDue := true }) s := if_pos hv
    exact ⟨_, congrArg answer hq, rfl, follow_onPanel _ s⟩
  case compare =>
    have hc : panelCompare s = onPanel (fun p => { p with pending := true }) s := by
      refine if_pos ?_
      rw [hm, hr]
      simpa using hd
    exact ⟨_, congrArg answer hc, rfl, follow_onPanel _ s⟩
  case starts =>
    have hp := (if_pos (panelStart_of_may hm hr hd hn ht hi) : panelStart s = _).trans (if_neg he.not_gt)
    exact ⟨_, congrArg answer hp, rfl, rfl, rfl, rfl, rfl, rfl, follow_onPanel _ s⟩
  case defers =>
    have hp := (if_pos (panelStart_of_may hm hr hd hn ht hi) : panelStart s = _).trans (if_pos he)
    exact ⟨_, congrArg answer hp, rfl, follow_onPanel _ s⟩
  case harbour => exact congrArg answer (panelFrame_of_harbour h vs p)
  case drives =>
    have hg := panelFrame_of_good hu hf hh hlo hhi
    by_cases hl : s.panel.frame + 1 < u.lengths.sum
    · rw [if_pos hl] at hg
      exact ⟨_, congrArg answer hg, rfl, rfl, fun _ => ⟨hu, rfl⟩, fun h => absurd hl h.not_gt, follow_of_panelLog rfl⟩
    · rw [if_neg hl] at hg
      obtain ⟨hup, hsh, hun, hct, hms, hrun⟩ := panelEnd_panel u (onPanel (Panel.measured vs) s)
      refine ⟨_, congrArg answer hg, hms, hrun, fun h => absurd h hl, fun _ => ⟨hup, hsh, hun, hct⟩, ?_⟩
      have hfr := congrArg (fun z : State => { z with panel := s.panel }) (panelEnd_frame u (onPanel (Panel.measured vs) s))
      exact follow_of_panelLog hfr
  case abandons =>
    have hb' : (ueFound .panel p s).panel.update.isSome = true := by
      rw [ueFound_panel, hu]
      rfl
    obtain ⟨hup, hun, hno, hfl, hsh⟩ := panelStops_panel hb'
    refine ⟨_, congrArg answer (panelFrame_of_bad hu hf hh hp hb), hup, hun, hno, hfl, ?_, follow_of_panel ?_⟩
    · exact hsh.trans (congrArg Panel.shown (ueFound_panel .panel p s))
    · have hfr := congrArg (fun z : State => { z with panel := s.panel, log := s.log, mem := s.mem })
        (panelStops_frame true (ueFound .panel p s))
      have hfu := congrArg (fun z : State => { z with panel := s.panel }) (ueFound_frame .panel p s)
      exact hfr.trans hfu

end Sys2Proof.Machine
end

section
/-! PROOFS. What the queues, the ports and a halt change beside themselves (05_program_cycle.md R139 to R141, 13_can_ports.md R331 to R351). -/

namespace Sys2Proof.Machine

/-! ### Descriptors and status entries -/

theorem queBoundary_frame (s : State) : { queBoundary s with que := s.que } = s := by
  unfold queBoundary
  dsimp only
  split <;> rfl

theorem fill_frame (q : Nat) (f : CanFrame) (flags ts : Nat) (client : Option Nat) (s : State) :
    { fill q f flags ts client s with can := s.can, que := s.que } = s := by
  unfold fill
  dsimp only
  split
  · rfl
  · split <;> rfl

theorem statusEntry_frame (p kind code w ph : Nat) (s : State) :
    { statusEntry p kind code w ph s with can := s.can, que := s.que } = s := by
  unfold statusEntry
  split
  · rfl
  · exact fill_frame _ _ _ _ _ s

theorem canGo_frame (p : Nat) (st : CanState) (s : State) : { canGo p st s with can := s.can, que := s.que } = s := by
  unfold canGo
  split
  · rfl
  · exact congrArg (fun z : State => { z with can := s.can, que := s.que })
      (statusEntry_frame p 2 st.code 0 0 (onCan p (fun c => { c with st := st }) s))

/-- The state beside the queues, the ports, and the transactions and lines that wait for a descriptor. -/
def State.besideQueues (s : State) : State :=
  { s with que := State.reset.que, can := [], ana := { s.ana with tx := [] }, ser := { s.ser with lines := [] } }

theorem besideQueues_of_frame {s u : State} (h : { u with can := s.can, que := s.que } = s) : u.besideQueues = s.besideQueues := by
  have e := congrArg State.besideQueues h
  exact e

theorem canGo_besideQueues (p : Nat) (st : CanState) (s : State) : (canGo p st s).besideQueues = s.besideQueues :=
  besideQueues_of_frame (canGo_frame p st s)

theorem freeDesc_besideQueues (h : Nat) (s : State) : (freeDesc h s).besideQueues = s.besideQueues := by
  have e := congrArg State.besideQueues
    (queBoundary_frame (onQue (fun e => { e with held := e.held.filter fun d => d.handle != h }) s))
  exact e

theorem retire_besideQueues (h result : Nat) (reply : Option (List Byte)) (s : State) :
    (retire h result reply s).besideQueues = s.besideQueues := by
  have hdrop : (dropAttempt h s).besideQueues = s.besideQueues := rfl
  unfold retire
  dsimp only
  split
  · exact hdrop
  · split_ifs
    · exact hdrop
    · exact (freeDesc_besideQueues h _).trans hdrop
    · exact hdrop

theorem retireAll_besideQueues (which : Queue → Bool) (result : Nat) (s : State) :
    (retireAll which result s).besideQueues = s.besideQueues :=
  forAll_keeps State.besideQueues _ (fun (d : Desc) t => retire d.handle result none t)
    (fun d t => retire_besideQueues d.handle result none t) s

theorem canAllOff_besideQueues (s : State) : (canAllOff s).besideQueues = s.besideQueues :=
  forAll_keeps _ _ _ (fun p t => canGo_besideQueues p .off (onCan p (fun c => { c with onBus := none }) t)) s

/-! ### A halt: the banks, the cycle and the mode (R139 to R141) -/

/-- What the parts of a halt after the mode keep: the banks, the cycle and the mode. -/
def State.core (s : State) : Mem × Cyc × Mode := (s.mem, s.cyc, s.sys.mode)

theorem core_of_besideQueues {s u : State} (h : u.besideQueues = s.besideQueues) : u.core = s.core := by
  have e := congrArg State.core h
  exact e

theorem hartStops_core (s : State) : (hartStops s).core = s.core := rfl

theorem busesStop_core (s : State) : (busesStop s).core = s.core :=
  (hartStops_core _).trans (core_of_besideQueues (canAllOff_besideQueues _))

theorem launchesDrop_core (s : State) : (launchesDrop s).core = s.core := rfl

theorem dropRole_core (s : State) : (dropRole s).core = s.core := by
  refine (launchesDrop_core _).trans ?_
  exact (keeps_ite State.core (core_of_besideQueues (retireAll_besideQueues (fun x => x.user == userHart) retRoleLost s)) rfl :
    (if s.sys.role == .active then retireAll (fun x => x.user == userHart) retRoleLost s else s).core = s.core)

theorem onDioCh_core (n : Nat) (f : DioCh → DioCh) (s : State) : (onDioCh n f s).core = s.core := rfl

theorem releaseHold_core (n : Nat) (mark : DioCh → DioCh) (s : State) : (releaseHold n mark s).core = s.core :=
  keeps_ite State.core rfl rfl

theorem releaseHolds_core (which : Nat → DioCh → Bool) (mark : DioCh → DioCh) (s : State) :
    (releaseHolds which mark s).core = s.core := by
  refine forAll_keeps _ _ _ (fun n t => ?_) s
  dsimp only
  split
  · exact releaseHold_core n mark t
  · rfl

theorem sendOutput_core (safe : Bool) (data : List Byte) (cycle launch : Nat) (x : Station) (s : State) :
    (sendOutput safe data cycle launch x s).core = s.core := by
  unfold sendOutput ringSend
  exact keeps_ite State.core rfl rfl

theorem ringSafeOnce_core (s : State) : (ringSafeOnce s).core = s.core :=
  forAll_keeps _ _ _ (fun x t => sendOutput_core true _ _ _ x t) s

theorem sendPennant_core (cmd arg num at_ new : Nat) (s : State) : (sendPennant cmd arg num at_ new s).core = s.core := rfl

theorem handoverNow_core (s : State) : (handoverNow s).core = s.core :=
  keeps_ite State.core
    ((sendPennant_core ..).trans ((sendPennant_core ..).trans (sendPennant_core ..))) rfl

/-- The memory's bytes and its counts: what neither a halt nor a refused access to a table changes. -/
structure Store where
  cells     : List Host.Cell
  instances : List Instance
  faults    : Nat
  flags     : Word

def State.store (s : State) : Store :=
  { cells := s.mem.cells, instances := s.cyc.instances, faults := s.mem.ownerFaults, flags := s.mem.flags }

theorem store_of_core {s u : State} (h : u.core = s.core) : u.store = s.store := by
  have e := congrArg (fun c : Mem × Cyc × Mode =>
    ({ cells := c.1.cells, instances := c.2.1.instances, faults := c.1.ownerFaults, flags := c.1.flags } : Store)) h
  exact e

theorem store_of_beyond {s u : State} (h : u.beyondField = s.beyondField) : u.store = s.store := by
  have e := congrArg State.store h
  exact e

theorem olcAbandon_store (code : Nat) (s : State) : (olcAbandon code s).store = s.store := by
  unfold olcAbandon
  split <;> rfl

theorem setMode_store (m : Mode) (s : State) : (setMode m s).store = s.store := by
  unfold setMode keyTamperEnds
  split <;> split <;> rfl

/-! ### The steps of a halt -/

/-- The first steps of a halt: the cause, HANDOVER_NOW and the SAFE frames. -/
def haltCalled (cause : Nat) (s : State) : State :=
  let s := onCyc (fun c => { c with haltCause := cause, haltPower := s.log.power, pendingReq := none }) s
  let s := if cause = 8 then s else handoverNow s
  if s.sys.role = .solo then ringSafeOnce s else s

/-- The steps of a halt up to the mode: the record, the cycles and a change that stood. -/
def haltNoted (cause task : Nat) (s : State) : State :=
  let s := raise .halt .critical 0xFF cause task 0 (haltCalled cause s)
  let s := olcAbandon olcAbandoned (stopTasks s)
  let s := onStart (fun t => { t with phase := .idle }) s
  onSafe (fun x => { x with funcs := x.funcs.map fun f => { f with hsOn := false, holdPhase := false, duty := 0 } }) s

/-- The last steps of a halt: the role goes, the buses stop, and every held output is released. -/
def haltEnded (s : State) : State := releaseAllHolds (busesStop (dropRole s))

theorem haltNow_of_running {s : State} (h : s.sys.mode ≠ .halted) (cause task : Nat) :
    haltNow cause task s = haltEnded (setMode .halted (haltNoted cause task s)) := if_neg h

theorem releaseAllHolds_core (s : State) : (releaseAllHolds s).core = s.core :=
  releaseHolds_core (fun _ _ => true) (fun c => { c with relOther := true }) s

theorem haltEnded_core (s : State) : (haltEnded s).core = s.core :=
  (releaseAllHolds_core _).trans ((busesStop_core _).trans (dropRole_core s))

theorem haltCalled_core (cause : Nat) (s : State) :
    (haltCalled cause s).core =
      (onCyc (fun c => { c with haltCause := cause, haltPower := s.log.power, pendingReq := none }) s).core := by
  refine (keeps_ite State.core (ringSafeOnce_core _) rfl).trans ?_
  exact keeps_ite State.core rfl (handoverNow_core _)

theorem haltNoted_store (cause task : Nat) (s : State) : (haltNoted cause task s).store = s.store := by
  have hc : (stopTasks (raise .halt .critical 0xFF cause task 0 (haltCalled cause s))).store = (haltCalled cause s).store := rfl
  exact (olcAbandon_store olcAbandoned _).trans (hc.trans ((store_of_core (haltCalled_core cause s)).trans rfl))

theorem haltNow_store (cause task : Nat) (s : State) : (haltNow cause task s).store = s.store := by
  by_cases h : s.sys.mode = .halted
  · rw [haltNow, if_pos h]
  · rw [haltNow_of_running h]
    exact (store_of_core (haltEnded_core _)).trans ((setMode_store _ _).trans (haltNoted_store cause task s))

theorem coresHalt_store (cause task : Nat) (s : State) : (coresHalt cause task s).store = s.store :=
  keeps_ite State.store (haltNow_store cause task s) rfl

theorem setMode_mode (m : Mode) (s : State) : (setMode m s).sys.mode = m := rfl

theorem mode_of_core {s u : State} (h : u.core = s.core) : u.sys.mode = s.sys.mode := by
  have e := congrArg (fun c : Mem × Cyc × Mode => c.2.2) h
  exact e

theorem haltNow_mode (cause task : Nat) (s : State) : (haltNow cause task s).sys.mode = .halted := by
  by_cases h : s.sys.mode = .halted
  · rw [haltNow, if_pos h, h]
  · rw [haltNow_of_running h]
    exact mode_of_core (haltEnded_core _)

end Sys2Proof.Machine
end

section
/-! PROOFS. Accesses to the memory banks: the stored bytes, owner faults, and the canonical form (04_memory.md R94 to R107). -/

namespace Sys2Proof.Machine

/-! ### What an owner's degradation keeps (R106) -/

theorem queueHalts_store (q : Nat) (s : State) : (queueHalts q s).store = s.store := by
  have h : (forAll (s.que.held.filter fun d => d.queue == q && d.st == .attempt) (fun d t => retire d.handle retMemError none t) s).besideQueues
      = s.besideQueues :=
    forAll_keeps State.besideQueues _ (fun (d : Desc) t => retire d.handle retMemError none t)
      (fun d t => retire_besideQueues d.handle retMemError none t) s
  exact store_of_core (core_of_besideQueues h)

theorem loopHalts_store (n : Nat) (s : State) : (loopHalts n s).store = s.store := by
  unfold loopHalts
  split
  · rfl
  · dsimp only
    split
    · rfl
    · exact (store_of_beyond (writeEntry_beyond _ _ _ _)).trans rfl

theorem becomeStale_store (cause : Nat) (s : State) : (becomeStale cause s).store = s.store :=
  keeps_ite State.store rfl rfl

theorem ownerDegrades_store (o : Owner) (u : MemUnit) (cause : Nat) (s : State) : (ownerDegrades o u cause s).store = s.store := by
  cases o with
  | cpu => exact coresHalt_store cause _ s
  | loop => cases u with
    | loop n => exact loopHalts_store n s
    | _ => rfl
  | ring => cases u <;> rfl
  | mirror => exact keeps_ite State.store (becomeStale_store 2 _) rfl
  | canQueue => cases u with
    | queue q => exact queueHalts_store q s
    | _ => rfl
  | recorder => rfl
  | panel => exact keeps_ite State.store rfl rfl
  | test => rfl

/-! ### The canonical form (R94) -/

theorem wf_of_store {s u : State} (h : u.store = s.store) (hw : Memory.wf s = true) : Memory.wf u = true := by
  have e := congrArg (fun x : Store => cellsWf 0 x.cells) h
  exact e.trans hw

theorem wf_of_cells {s u : State} (h : u.mem.cells = s.mem.cells) : Memory.wf u = Memory.wf s := congrArg (cellsWf 0) h

theorem weakFound_cells (k : Nat) (p : Place) (s : State) : (weakFound k p s).mem.cells = s.mem.cells :=
  keeps_ite (fun z : State => z.mem.cells) rfl rfl

/-- An uncorrectable word in the banks' book. -/
def ueBooked (source : Nat) (p : Place) (s : State) : State :=
  onMem (fun m => { m with flags := flag 1 m.flags, lastUe := locOf s p source, found := p :: m.found.filter (· != p) })
    (onBank p.bank (fun b => { b with ue := satInc 32 b.ue }) s)

/-- The record of an uncorrectable word. -/
def ueNoted (source : Nat) (sev : Severity) (rec_ : Bool) (p : Place) (s : State) : State :=
  if rec_ then raise .memUncorrectable sev 0xFF (locOf s p source).bank (locOf s p source).row source (ueBooked source p s)
  else ueBooked source p s

theorem reportUe_eq (source : Nat) (sev : Severity) (b : Bool) (p : Place) (s : State) :
    reportUe source sev b p s = weakFound 1 p (ueNoted source sev b p s) := rfl

theorem ueNoted_mem (source : Nat) (sev : Severity) (b : Bool) (p : Place) (s : State) :
    (ueNoted source sev b p s).mem = (ueBooked source p s).mem := keeps_ite State.mem rfl rfl

theorem reportUe_cells (source : Nat) (sev : Severity) (b : Bool) (p : Place) (s : State) :
    (reportUe source sev b p s).mem.cells = s.mem.cells := by
  rw [reportUe_eq, weakFound_cells, ueNoted_mem]
  rfl

/-- A correction in the banks' book. -/
def ceBooked (source : Nat) (p : Place) (pos left : List Nat) (s : State) : State :=
  onMem (fun m =>
    { m with
      flags := flag 0 m.flags, lastCe := locOf s p source, ceClass := pos.length
      cePosA := pos.headD 0x7F, cePosB := (pos.drop 1).headD 0x7F
      rowsSeen := if !s.mem.rowsSeen.contains (p.bank, p.row) then (p.bank, p.row) :: m.rowsSeen else m.rowsSeen
      corrected := ((pos.map fun k => (p, k, false)) ++ m.corrected).take 256
      backs := (p, pos, left) :: m.backs.filter fun b => b.1 != p })
    (onBank p.bank (fun b => { b with ce := satInc 32 b.ce }) s)

/-- The record of the first correction in a row. -/
def ceNoted (source : Nat) (p : Place) (pos left : List Nat) (s : State) : State :=
  if !s.mem.rowsSeen.contains (p.bank, p.row) then raise .memCorrected .info p.bank 0 0 0 (ceBooked source p pos left s)
  else ceBooked source p pos left s

theorem ceNoted_mem (source : Nat) (p : Place) (pos left : List Nat) (s : State) :
    (ceNoted source p pos left s).mem = (ceBooked source p pos left s).mem := keeps_ite State.mem rfl rfl

/-- Whether a correction repeats one of the same position after its write-back (R108). -/
def ceAgain (p : Place) (pos : List Nat) (s : State) : Bool :=
  match pos with
  | [k] => s.mem.corrected.any fun c => c.1 == p && c.2.1 == k && c.2.2
  | _ => false

theorem reportCe_eq (source : Nat) (p : Place) (pos left : List Nat) (s : State) :
    reportCe source p pos left s =
      if 2 ≤ pos.length then weakFound 2 p (ceNoted source p pos left s)
      else if ceAgain p pos s then weakFound 3 p (ceNoted source p pos left s)
      else ceNoted source p pos left s := rfl

/-- A correction is booked, and its row may be found weak. -/
theorem reportCe_cases (source : Nat) (p : Place) (pos left : List Nat) (s : State) :
    reportCe source p pos left s = ceNoted source p pos left s ∨
      ∃ k, reportCe source p pos left s = weakFound k p (ceNoted source p pos left s) := by
  rw [reportCe_eq]
  split_ifs
  · exact .inr ⟨2, rfl⟩
  · exact .inr ⟨3, rfl⟩
  · exact .inl rfl

theorem reportCe_cells (source : Nat) (p : Place) (pos left : List Nat) (s : State) :
    (reportCe source p pos left s).mem.cells = s.mem.cells := by
  have hn : (ceNoted source p pos left s).mem.cells = s.mem.cells := by
    rw [ceNoted_mem]
    rfl
  obtain h | ⟨k, h⟩ := reportCe_cases source p pos left s
  · rw [h, hn]
  · rw [h, weakFound_cells, hn]

/-- A read through the code takes free values alone. -/
theorem codeRead_frame (p : Place) (s : State) : { (codeRead p s).2 with free := s.free } = s := by
  unfold codeRead freed
  dsimp only
  split_ifs <;> rfl

theorem codeRead_cells (p : Place) (s : State) : (codeRead p s).2.mem.cells = s.mem.cells := by
  have e := congrArg (fun z : State => z.mem.cells) (codeRead_frame p s)
  exact e

theorem wordAccess_wf (o : Owner) (u : MemUnit) (base : Nat) (wr : Option (Nat × List Byte)) {s : State} (h : Memory.wf s = true) :
    Memory.wf (wordAccess o u base wr s).2 = true := by
  unfold wordAccess
  dsimp only
  split
  · exact wf_of_store (ownerDegrades_store o u 2 _) h
  · split
    · exact storeWord_wf _ _ true s h
    · have hr : Memory.wf (codeRead (placeOf s base) s).2 = true := (wf_of_cells (codeRead_cells _ s)).trans h
      split <;> rename_i hc <;> rw [hc] at hr
      · refine wf_of_store (ownerDegrades_store o u 1 _) ?_
        exact (wf_of_cells (reportUe_cells _ _ _ _ _)).trans hr
      · have hce : ∀ (b : Bool) pos left x, Memory.wf x = true →
            Memory.wf (if b = true then x else reportCe o.code (placeOf s base) pos left x) = true :=
          fun b pos left x hx => by
            split
            · exact hx
            · exact (wf_of_cells (reportCe_cells _ _ _ _ _)).trans hx
        split
        · exact hce _ _ _ _ hr
        · exact storeWord_wf _ _ false _ (hce _ _ _ _ hr)

theorem applyFlips_wf (l : List (Nat × Nat)) {s : State} (h : Memory.wf s = true) : Memory.wf (applyFlips l s) = true := by
  have e : (applyFlips l s).mem.cells = s.mem.cells :=
    forAll_keeps (fun z : State => z.mem.cells) l (fun f t => flipErr (placeOf t f.1) [f.2] t) (fun _ t => setErr_cells _ _ t) s
  exact (wf_of_cells e).trans h

theorem memoryAccess_wf (a : MemAccess) {s : State} (h : Memory.wf s = true) : Memory.wf (memoryAccess a s) = true := by
  have h0 : Memory.wf (applyFlips a.flips (startClock .core s)) = true := applyFlips_wf _ h
  have h1 := fun wr => wordAccess_wf a.owner a.unit (a.addr / 8 * 8) wr h0
  unfold memoryAccess
  dsimp only
  have h2 : ∀ (c : Prop) [Decidable c] (x : List Byte × State) (b : Nat) wr, Memory.wf x.2 = true →
      Memory.wf (if c then ([], x.2) else wordAccess a.owner a.unit b wr x.2).2 = true := by
    intro c _ x b wr hx
    split
    · exact hx
    · exact wordAccess_wf _ _ _ _ hx
  split
  · exact h2 _ _ _ _ (h1 _)
  · exact h2 _ _ _ _ (h1 _)

theorem follow_core (s : State) : (follow s).core = s.core := rfl

theorem settle_wf {s u : State} (h : Memory.wf u = true) : Memory.wf (follow (settle s u)) = true :=
  wf_of_store (u := follow (settle s u)) ((store_of_core (follow_core _)).trans (store_of_beyond (settle_beyond s u))) h

/-! ### The scrubber and a handover -/

theorem scrubAdvance_cells (s : State) : (scrubAdvance s).mem.cells = s.mem.cells := by
  unfold scrubAdvance
  dsimp only
  split_ifs <;> rfl

theorem memBoundary_cells (s : State) : (memBoundary s).mem.cells = s.mem.cells :=
  keeps_ite (fun z : State => z.mem.cells) rfl rfl

/-- The scrubber's state as it reads its next word. -/
def scrubBegun (s : State) : State := memBoundary (startClock .core s)

/-- The place that the scrubber reads next. -/
def scrubPlace (s : State) : Place := { bank := s.mem.posBank, row := s.mem.posWord / 64, word := s.mem.posWord % 64 }

theorem scrubPlace_begun (s : State) : scrubPlace (scrubBegun s) = scrubPlace s := keeps_ite scrubPlace rfl rfl

/-- What the scrubber makes of the word it reads. -/
def scrubRead (p : Place) (s : State) : State :=
  match codeRead p s with
  | (.bad, s) =>
    let first := !s.mem.scrubUe.contains p
    reportUe scrubSource .fault first p (if first then onMem (fun m => { m with scrubUe := p :: m.scrubUe }) s else s)
  | (.good pos left, s) => if pos.isEmpty then s else reportCe scrubSource p pos left s

theorem scrubWord_of_stopped {s : State} (h : scrubRuns s = false) (l : List Nat) : scrubWord l s = s := by
  rw [scrubWord, h]
  rfl

theorem scrubWord_eq (l : List Nat) (s : State) :
    scrubWord l s =
      if !scrubRuns s then s
      else if !scrubbed (scrubBegun s) (scrubPlace (scrubBegun s)).bank then scrubAdvance (scrubBegun s)
      else scrubAdvance (scrubRead (scrubPlace (scrubBegun s)) (flipErr (scrubPlace (scrubBegun s)) l (scrubBegun s))) := rfl

theorem scrubRead_cells (p : Place) (s : State) : (scrubRead p s).mem.cells = s.mem.cells := by
  have hr := codeRead_cells p s
  unfold scrubRead
  split <;> rename_i hc <;> rw [hc] at hr
  · exact (reportUe_cells _ _ _ _ _).trans (keeps_ite (fun z : State => z.mem.cells) hr hr)
  · exact keeps_ite (fun z : State => z.mem.cells) hr ((reportCe_cells _ _ _ _ _).trans hr)

theorem scrubWord_cells (l : List Nat) (s : State) : (scrubWord l s).mem.cells = s.mem.cells := by
  have hb : (scrubBegun s).mem.cells = s.mem.cells := memBoundary_cells _
  rw [scrubWord_eq]
  split_ifs
  · rfl
  · exact (scrubAdvance_cells _).trans hb
  · exact (scrubAdvance_cells _).trans ((scrubRead_cells _ _).trans ((setErr_cells _ _ _).trans hb))

theorem scrubWriteBack_cells (p : Place) (s : State) : (scrubWriteBack p s).mem.cells = s.mem.cells := by
  unfold scrubWriteBack
  split
  · rfl
  · exact keeps_ite (fun z : State => z.mem.cells) rfl (setErr_cells _ _ _)

theorem handoverComplete_wf {s : State} (h : Memory.wf s = true) : Memory.wf (handoverComplete s) = true := by
  have hc : Memory.wf (if s.mem.handover.nowClear = true then clearBank s.mem.handover.nowBank s else s) = true :=
    keeps_ite Memory.wf (clearBank_wf _ s h) h
  have ha : ∀ n f x, Memory.wf (onAnswering n f x) = Memory.wf x := fun n f x =>
    wf_of_cells (keeps_ite (fun z : State => z.mem.cells) rfl rfl : (if x.mem.folded = some n then onBank 16 f x else x).mem.cells = x.mem.cells)
  unfold handoverComplete
  dsimp only
  split
  · exact (ha _ _ _).trans hc
  · exact h

/-- Settles O24: every store is put in canonical form, and the other operations leave the bytes. -/
theorem memoryKeepsItsForm : Obligations.MemoryKeepsItsForm := by
  unfold Obligations.MemoryKeepsItsForm
  refine ⟨rfl, fun s t h => ⟨fun a he => ?_, fun he => ?_, fun l he => ?_, fun p he => ?_⟩⟩
  · change execMemoryAccess a s = _ at he
    unfold execMemoryAccess at he
    split at he
    · obtain rfl := Host.Outcome.next.inj he
      exact settle_wf (memoryAccess_wf a h)
    · cases he
  · obtain rfl := Host.Outcome.next.inj he
    exact handoverComplete_wf h
  · obtain rfl := Host.Outcome.next.inj he
    exact (wf_of_cells (scrubWord_cells l s)).trans h
  · obtain rfl := Host.Outcome.next.inj he
    exact (wf_of_cells (scrubWriteBack_cells p s)).trans h

end Sys2Proof.Machine
end

section
/-! PROOFS. Refused accesses, and an access beside the signal table's 4,096 entries (04_memory.md R94 to R98, R107, R113). -/

namespace Sys2Proof.Machine

/-! ### An access oneWord one word -/

/-- An access of 1 to 8 bytes oneWord one word. -/
def oneWord (o : Owner) (u : MemUnit) (wr : Bool) (addr n : Nat) (data : List Byte) : MemAccess :=
  { owner := o, unit := u, write := wr, addr := addr, size := n, data := data, flips := [] }

section
variable (o : Owner) (u : MemUnit) (w : Nat) {lane n : Nat} (data : List Byte) (s : State)

theorem word_of_lane (h : lane < 8) : (8 * w + lane) / 8 * 8 = 8 * w ∧ (8 * w + lane) % 8 = lane := by omega

/-- A write oneWord one word is one word access. -/
theorem memoryAccess_write (hl : lane + n ≤ 8) (hn : 1 ≤ n) :
    memoryAccess (oneWord o u true (8 * w + lane) n data) s =
      (wordAccess o u (8 * w) (some (lane, (data ++ List.replicate 8 0).take n)) (startClock .core s)).2 := by
  obtain ⟨hb, hm⟩ := word_of_lane w (lane := lane) (by omega)
  have hmin : min n (8 - lane) = n := by omega
  simp only [memoryAccess, oneWord, hb, hm, hmin, if_pos hl, if_true]
  rfl

/-- A read oneWord one word is one word access, and sends the bytes. -/
theorem memoryAccess_read (hl : lane + n ≤ 8) (hn : 1 ≤ n) :
    memoryAccess (oneWord o u false (8 * w + lane) n data) s =
      send .memRead o.code (8 * w + lane)
        (slice (wordAccess o u (8 * w) none (startClock .core s)).1 lane n) (wordAccess o u (8 * w) none (startClock .core s)).2 := by
  obtain ⟨hb, hm⟩ := word_of_lane w (lane := lane) (by omega)
  have hmin : min n (8 - lane) = n := by omega
  simp only [memoryAccess, oneWord, hb, hm, hmin, if_pos hl, Bool.false_eq_true, if_false, List.take_nil, List.append_nil]
  rfl

theorem exec_memoryAccess_inBanks {a : MemAccess} (h : a.addr + a.size ≤ 16 * bankBytes) :
    exec (.memoryAccess a) s = answer (settle s (memoryAccess a s)) := if_pos h

/-! ### An access that is refused (R97, R98) -/

/-- A refused access is an owner fault, and its owner degrades. -/
theorem wordAccess_refused (base : Nat) {wr : Option (Nat × List Byte)} {b : Bool} (hw : wr.isSome = b)
    (h : accessAllowed s o (base / bankBytes) (base % bankBytes / 0x200) b = false) :
    wordAccess o u base wr s = (List.replicate 8 0, ownerDegrades o u 2 (ownerFault o (placeOf s base) s)) := by
  simp only [wordAccess, hw, h, Bool.false_and, Bool.not_false, if_true]

/-- What an owner fault leaves, and what it counts. -/
structure Faulted (o : Owner) (s t : State) : Prop where
  cells     : t.mem.cells = s.mem.cells
  instances : t.cyc.instances = s.cyc.instances
  faults    : t.mem.ownerFaults = satInc 32 s.mem.ownerFaults
  flagged   : t.mem.flags.getLsbD 2 = true
  halted    : o = .cpu → railsOn s = true → s.sys.mode ≠ .harbour → t.sys.mode = .halted

theorem ownerFault_faulted (p : Place) :
    Faulted o s (ownerDegrades o u 2 (ownerFault o p s)) := by
  have hs := ownerDegrades_store o u 2 (ownerFault o p s)
  refine ⟨congrArg Store.cells hs, congrArg Store.instances hs, congrArg Store.faults hs, ?_, ?_⟩
  · have e := congrArg (fun x : Store => x.flags.getLsbD 2) hs
    exact e.trans (setBit_get _ 2 (by decide))
  · rintro rfl hr hm
    have hc : (railsOn (ownerFault .cpu p s) && (ownerFault .cpu p s).sys.mode != .harbour) = true := by
      change (railsOn s && s.sys.mode != .harbour) = true
      rw [hr]
      simpa using hm
    exact (congrArg (fun z : State => z.sys.mode) (if_pos hc)).trans (haltNow_mode 2 _ _)

/-- A settled state keeps what a refused access left. -/
theorem Faulted.settled {v r t : State} (h : Faulted o s v) (hs : Settled r t) (hr : { r with sent := v.sent } = v) :
    Faulted o s t := by
  have hrest := hs.rest
  have hst : t.store = v.store := by
    have e := congrArg State.store (hrest.trans rfl : t.rest = r.rest)
    have e' := congrArg State.store hr
    exact e.trans e'
  have hm : t.sys.mode = v.sys.mode := by
    have e := congrArg (fun z : State => z.sys.mode) hr
    exact hs.mode.trans e
  obtain ⟨hcells, hinst, hfaults, hflag, hhalt⟩ := h
  exact ⟨(congrArg Store.cells hst).trans hcells, (congrArg Store.instances hst).trans hinst, (congrArg Store.faults hst).trans hfaults,
    (congrArg (fun x : Store => x.flags.getLsbD 2) hst).trans hflag, fun ho hr hm' => hm.trans (hhalt ho hr hm')⟩

end

/-- Settles O26: a refused word access keeps the store but for its count and flag; its owner degrades beside the bytes. -/
theorem ownerFaultsChangeNoByte : Obligations.OwnerFaultsChangeNoByte := by
  unfold Obligations.OwnerFaultsChangeNoByte
  intro s o u wr w lane n data hl hn
  refine ⟨fun hb hno => ?_, fun hb => if_neg (Nat.not_le.2 hb)⟩
  have hx : exec (.memoryAccess (oneWord o u wr (8 * w + lane) n data)) s =
      answer (settle s (memoryAccess (oneWord o u wr (8 * w + lane) n data) s)) := exec_memoryAccess_inBanks s hb
  have hf : Faulted o s (ownerDegrades o u 2 (ownerFault o (placeOf (startClock .core s) (8 * w)) (startClock .core s))) := by
    obtain ⟨hcells, hinst, hfaults, hflag, hhalt⟩ := ownerFault_faulted o u (startClock .core s) (placeOf (startClock .core s) (8 * w))
    exact ⟨hcells, hinst, hfaults, hflag, hhalt⟩
  refine ⟨_, hx, ?_⟩
  cases wr with
  | true =>
    rw [memoryAccess_write o u w data s hl hn, wordAccess_refused o u (startClock .core s) (8 * w) (wr := some (lane, _)) (b := true) rfl hno]
    obtain ⟨hcells, hinst, hfaults, hflag, hhalt⟩ := hf.settled o s (settled_follow s _) rfl
    exact ⟨hcells, hinst, hfaults, hflag, nofun, hhalt⟩
  | false =>
    have hbody : slice (List.replicate 8 (0 : Byte)) lane n = List.replicate n 0 := by
      rw [slice, List.drop_replicate, List.take_replicate]
      congr 1
      omega
    rw [memoryAccess_read o u w data s hl hn,
      wordAccess_refused o u (startClock .core s) (8 * w) (wr := none) (b := false) rfl hno, hbody]
    have hset := settled_follow s (send .memRead o.code (8 * w + lane) (List.replicate n 0)
      (ownerDegrades o u 2 (ownerFault o (placeOf (startClock .core s) (8 * w)) (startClock .core s))))
    obtain ⟨hcells, hinst, hfaults, hflag, hhalt⟩ := hf.settled o s hset rfl
    have hsent := congrArg (fun z : State => z.sent) hset.rest
    exact ⟨hcells, hinst, hfaults, hflag, fun _ => ⟨_, hsent⟩, hhalt⟩

/-! ### An entry beside the table -/

/-- A module whose signal table holds entry 98,304, beyond the 4,096 that the table has room for: its words would lie in B16, which here
answers at B0's addresses, and an injection is armed for B16. -/
def besideTable : State :=
  { State.reset with
    mem := { State.reset.mem with
      banks := List.replicate 17 { owner := .mirror }, folded := some 0
      inject := { armed := true, bank := 16, posA := 3, posB := 0x7F, posC := 0x7F } }
    sig := { State.reset.sig with entries := [(98304, { ({} : SigEntry) with cond := some 1 })] } }

/-- A write of a word's eight zero bytes by the mirror channel. -/
def zeroWord : MemAccess := oneWord .mirror .none true 0 8 (List.ofFn fun _ : Fin 8 => (0 : Byte))

/-- Whether a command leaves the word at address 0 with a position in error. -/
def leavesError (o : Out) (p : Place) : Bool :=
  match o with
  | .next t => !(errAt t p).isEmpty
  | _ => false

theorem besideTable_leavesError : leavesError (exec (.memoryAccess zeroWord) besideTable) (placeOf besideTable 0) = true := by
  rfl

/-- Refutes O25: the condition of an entry beyond the table's 4,096 ends as the write settles, and its word, stored at the place that B0
reads, takes the injection that was armed for another bank's addresses. -/
theorem not_storedBytesReadBack : ¬ Obligations.StoredBytesReadBack := by
  unfold Obligations.StoredBytesReadBack
  intro h
  obtain ⟨hw, -⟩ := h besideTable .mirror .none 0 (by decide) (by decide) (by decide)
  obtain ⟨t, ht, he, -⟩ := hw (fun _ => 0) (by decide) (.inr (by decide))
  have hl := besideTable_leavesError
  rw [show exec (.memoryAccess zeroWord) besideTable = .next t from ht, leavesError, he] at hl
  exact absurd hl (by decide)

end Sys2Proof.Machine
end

section
/-! PROOFS. The scrubber, the weak-row record, handovers and injections (04_memory.md R99, R104 to R109, R113). -/

namespace Sys2Proof.Machine

/-! ### What a report leaves in the banks' book -/

/-- A weak row changes neither the banks' counts nor what waits. -/
structure BookKept (s t : State) : Prop where
  banks   : t.mem.banks = s.mem.banks
  backs   : t.mem.backs = s.mem.backs
  errs    : t.mem.errs = s.mem.errs
  found   : t.mem.found = s.mem.found
  scrubUe : t.mem.scrubUe = s.mem.scrubUe
  class'  : t.mem.ceClass = s.mem.ceClass
  cells   : t.mem.cells = s.mem.cells
  flags   : ∀ n, s.mem.flags.getLsbD n = true → t.mem.flags.getLsbD n = true
  beside  : { t with mem := s.mem, log := s.log } = s

theorem BookKept.trans {s t u : State} (h : BookKept s t) (g : BookKept t u) : BookKept s u :=
  ⟨g.banks.trans h.banks, g.backs.trans h.backs, g.errs.trans h.errs, g.found.trans h.found, g.scrubUe.trans h.scrubUe,
    g.class'.trans h.class', g.cells.trans h.cells, fun n hn => g.flags n (h.flags n hn), by
      have e := congrArg (fun z : State => { z with mem := s.mem, log := s.log }) g.beside
      exact e.trans h.beside⟩

theorem weakFound_bookKept (k : Nat) (p : Place) (s : State) : BookKept s (weakFound k p s) := by
  have hb := weakFound_frame (s := s) (x := s) rfl k p
  unfold weakFound at hb ⊢
  split
  · exact ⟨rfl, rfl, rfl, rfl, rfl, rfl, rfl, fun _ h => h, rfl⟩
  · rename_i hc
    rw [if_neg hc] at hb
    exact ⟨rfl, rfl, rfl, rfl, rfl, rfl, rfl, fun _ h => flag_keeps 3 h, hb⟩

/-- The memory's book with the scrubber moved on, and a sweep that ends counted and judged. -/
def Mem.moved (x : Nat × Nat × Bool) (late harbour : Bool) (mono : Nat) (m : Mem) : Mem :=
  let m := { m with posBank := x.1, posWord := x.2.1 }
  if x.2.2 then
    { m with sweeps := satInc 32 m.sweeps, sweepDone := true, sweepAt := mono, firstFast := false
             roundSwept := harbour
             flags := if late then flag 5 m.flags else m.flags }
  else m

theorem scrubAdvance_eq (s : State) : ∃ x late harbour, scrubAdvance s = onMem (Mem.moved x late harbour s.mono) s := by
  refine ⟨if s.mem.posWord + 1 < 69632 ∧ scrubbed s s.mem.posBank then (s.mem.posBank, s.mem.posWord + 1, false)
      else ((nextBank s 18 (s.mem.posBank + 1) false).1, 0, (nextBank s 18 (s.mem.posBank + 1) false).2),
    decide (sweepSeconds s.mem * nsPerSec * 3 < (s.mono - s.mem.sweepAt) * 2), s.sys.mode == .harbour, ?_⟩
  unfold scrubAdvance
  dsimp only
  split <;> rfl

theorem onMem_moved_bookKept (x : Nat × Nat × Bool) (late harbour : Bool) (mono : Nat) (s : State) :
    BookKept s (onMem (Mem.moved x late harbour mono) s) := by
  obtain ⟨b, w, wrap⟩ := x
  cases wrap
  · exact ⟨rfl, rfl, rfl, rfl, rfl, rfl, rfl, fun _ h => h, rfl⟩
  · cases late
    · exact ⟨rfl, rfl, rfl, rfl, rfl, rfl, rfl, fun _ h => h, rfl⟩
    · exact ⟨rfl, rfl, rfl, rfl, rfl, rfl, rfl, fun _ h => flag_keeps 5 h, rfl⟩

theorem scrubAdvance_bookKept (s : State) : BookKept s (scrubAdvance s) := by
  obtain ⟨x, late, harbour, h⟩ := scrubAdvance_eq s
  rw [h]
  exact onMem_moved_bookKept x late harbour s.mono s

theorem reportCe_bookKept (source : Nat) (p : Place) (pos left : List Nat) (s : State) :
    BookKept (ceNoted source p pos left s) (reportCe source p pos left s) := by
  obtain h | ⟨k, h⟩ := reportCe_cases source p pos left s
  · rw [h]
    exact ⟨rfl, rfl, rfl, rfl, rfl, rfl, rfl, fun _ h => h, rfl⟩
  · rw [h]
    exact weakFound_bookKept k p _

theorem reportUe_bookKept (source : Nat) (sev : Severity) (b : Bool) (p : Place) (s : State) :
    BookKept (ueNoted source sev b p s) (reportUe source sev b p s) := weakFound_bookKept 1 p _

theorem ceNoted_frame (source : Nat) (p : Place) (pos left : List Nat) (s : State) :
    { ceNoted source p pos left s with mem := s.mem, log := s.log } = s := by
  unfold ceNoted
  split
  · rw [raise_frame]
    rfl
  · rfl

theorem ueNoted_frame (source : Nat) (sev : Severity) (b : Bool) (p : Place) (s : State) :
    { ueNoted source sev b p s with mem := s.mem, log := s.log } = s := by
  unfold ueNoted
  split
  · rw [raise_frame]
    rfl
  · rfl

/-! ### What the scrubber reads -/

theorem bankAt_onBank_same {n : Nat} {s : State} (h : n < s.mem.banks.length) (f : Bank → Bank) :
    bankAt (onBank n f s) n = f (bankAt s n) := by
  simp [bankAt, onBank, List.getD_eq_getElem?_getD, h]

theorem bankAt_of_banks {s t : State} (h : t.mem.banks = s.mem.banks) (n : Nat) : bankAt t n = bankAt s n := by
  rw [bankAt, bankAt, h]

section
variable {s : State} {p : Place}

/-- A word with at most two positions in error, not found uncorrectable, reads with them corrected. -/
theorem codeRead_of_good (hf : s.mem.found.contains p = false) (hl : (errAt s p).length ≤ 2) :
    codeRead p s = (.good ((errAt s p).mergeSort (· ≤ ·)) [], s) := by
  have hu : uncorrectable p s = false := by
    have : ((errAt s p).length == 3) = false := beq_false_of_ne (by omega)
    rw [uncorrectable, hf, this]
    rfl
  simp only [codeRead, hu, Bool.false_eq_true, if_false, if_pos hl]

theorem codeRead_of_bad (hu : uncorrectable p s = true) : codeRead p s = (.bad, s) := by
  simp only [codeRead, hu, if_true]

theorem uncorrectable_of_found (h : s.mem.found.contains p = true) : uncorrectable p s = true := by
  rw [uncorrectable, h, Bool.true_or]

theorem uncorrectable_of_three (h : (errAt s p).length = 3) : uncorrectable p s = true := by
  rw [uncorrectable, h, beq_self_eq_true, Bool.or_true]

theorem uncorrectable_of_book {t : State} (hf : t.mem.found = s.mem.found) (he : t.mem.errs = s.mem.errs) :
    uncorrectable p t = uncorrectable p s := by
  rw [uncorrectable, uncorrectable, errAt, errAt, hf, he]

/-- A word without error is read in silence. -/
theorem scrubRead_of_clean (hf : s.mem.found.contains p = false) (he : errAt s p = []) : scrubRead p s = s := by
  rw [scrubRead, codeRead_of_good hf (by rw [he]; decide), he, List.mergeSort_nil]
  rfl

/-- A word with one or two positions in error is reported as corrected. -/
theorem scrubRead_of_corrected (hf : s.mem.found.contains p = false) (he : (errAt s p).length = 1 ∨ (errAt s p).length = 2) :
    scrubRead p s = reportCe scrubSource p ((errAt s p).mergeSort (· ≤ ·)) [] s := by
  have hne : ((errAt s p).mergeSort (· ≤ ·)).isEmpty = false := by
    rw [List.isEmpty_eq_false_iff, ← List.length_pos_iff, List.length_mergeSort]
    omega
  rw [scrubRead, codeRead_of_good hf (by omega)]
  simp only [hne, Bool.false_eq_true, if_false]

/-- The book with a word in the list of those that the scrubber has reported. -/
def scrubListed (p : Place) (s : State) : State :=
  if !s.mem.scrubUe.contains p then onMem (fun m => { m with scrubUe := p :: m.scrubUe }) s else s

theorem scrubRead_of_bad (hu : uncorrectable p s = true) :
    scrubRead p s = reportUe scrubSource .fault (!s.mem.scrubUe.contains p) p (scrubListed p s) := by
  rw [scrubRead, codeRead_of_bad hu]
  rfl

/-- What the report of an uncorrectable word leaves. -/
structure UeReported (p : Place) (s t : State) : Prop where
  ue      : p.bank < s.mem.banks.length → (bankAt t p.bank).ue = satInc 32 (bankAt s p.bank).ue
  ce      : p.bank < s.mem.banks.length → (bankAt t p.bank).ce = (bankAt s p.bank).ce
  flagged : t.mem.flags.getLsbD 1 = true
  cells   : t.mem.cells = s.mem.cells
  listed  : p ∈ t.mem.scrubUe
  bad     : uncorrectable p t = true
  beside  : { t with mem := s.mem, log := s.log } = s

theorem scrubListed_kept (p : Place) (s : State) :
    (scrubListed p s).mem.banks = s.mem.banks ∧ (scrubListed p s).mem.cells = s.mem.cells ∧ p ∈ (scrubListed p s).mem.scrubUe ∧
      { scrubListed p s with mem := s.mem, log := s.log } = s := by
  unfold scrubListed
  split
  · exact ⟨rfl, rfl, List.mem_cons_self, rfl⟩
  · rename_i h
    exact ⟨rfl, rfl, by simpa using h, rfl⟩

theorem scrubRead_reported (hu : uncorrectable p s = true) : UeReported p s (scrubRead p s) := by
  rw [scrubRead_of_bad hu]
  obtain ⟨hbanks, hcells, hin, hbeside⟩ := scrubListed_kept p s
  generalize hv : scrubListed p s = v at *
  obtain ⟨kbanks, -, -, kfound, kscrub, -, kcells, kflags, kbeside⟩ :=
    reportUe_bookKept scrubSource .fault (!s.mem.scrubUe.contains p) p v
  have hm := ueNoted_mem scrubSource .fault (!s.mem.scrubUe.contains p) p v
  have hbank : p.bank < s.mem.banks.length →
      bankAt (reportUe scrubSource .fault (!s.mem.scrubUe.contains p) p v) p.bank = { bankAt s p.bank with ue := satInc 32 (bankAt s p.bank).ue } := by
    intro hlt
    rw [bankAt_of_banks kbanks, bankAt_of_banks (congrArg Mem.banks hm), ← bankAt_of_banks hbanks]
    exact bankAt_onBank_same (hbanks ▸ hlt) _
  refine ⟨fun h => (congrArg Bank.ue (hbank h)).trans rfl, fun h => (congrArg Bank.ce (hbank h)).trans rfl, ?_, ?_, ?_, ?_, ?_⟩
  · exact kflags 1 (by rw [hm]; exact setBit_get _ 1 (by decide))
  · exact (kcells.trans (congrArg Mem.cells hm)).trans hcells
  · rw [kscrub, hm]
    exact hin
  · refine uncorrectable_of_found ?_
    rw [kfound, hm]
    simp [ueBooked]
  · have e := congrArg (fun z : State => { z with mem := s.mem, log := s.log }) kbeside
    have e' := congrArg (fun z : State => { z with mem := s.mem, log := s.log })
      (ueNoted_frame scrubSource .fault (!s.mem.scrubUe.contains p) p v)
    exact (e.trans e').trans hbeside

/-- What the report of a correction leaves. -/
structure CeReported (p : Place) (pos : List Nat) (s t : State) : Prop where
  ce      : p.bank < s.mem.banks.length → (bankAt t p.bank).ce = satInc 32 (bankAt s p.bank).ce
  ue      : p.bank < s.mem.banks.length → (bankAt t p.bank).ue = (bankAt s p.bank).ue
  flagged : t.mem.flags.getLsbD 0 = true
  back    : (p, pos, []) ∈ t.mem.backs
  class'  : t.mem.ceClass = pos.length
  cells   : t.mem.cells = s.mem.cells
  beside  : { t with mem := s.mem, log := s.log } = s

theorem reportCe_reported (source : Nat) (pos : List Nat) : CeReported p pos s (reportCe source p pos [] s) := by
  obtain ⟨kbanks, kbacks, -, -, -, kclass, kcells, kflags, kbeside⟩ := reportCe_bookKept source p pos [] s
  have hm := ceNoted_mem source p pos [] s
  have hbank : p.bank < s.mem.banks.length →
      bankAt (reportCe source p pos [] s) p.bank = { bankAt s p.bank with ce := satInc 32 (bankAt s p.bank).ce } := by
    intro hlt
    rw [bankAt_of_banks kbanks, bankAt_of_banks (congrArg Mem.banks hm)]
    exact bankAt_onBank_same hlt _
  refine ⟨fun h => (congrArg Bank.ce (hbank h)).trans rfl, fun h => (congrArg Bank.ue (hbank h)).trans rfl, ?_, ?_, ?_, ?_, ?_⟩
  · exact kflags 0 (by rw [hm]; exact setBit_get _ 0 (by decide))
  · rw [kbacks, hm]
    exact List.mem_cons_self
  · rw [kclass, hm]
    rfl
  · exact (kcells.trans (congrArg Mem.cells hm)).trans rfl
  · have e := congrArg (fun z : State => { z with mem := s.mem, log := s.log }) kbeside
    exact e.trans (ceNoted_frame source p pos [] s)

end

/-! ### A step of the scrubber -/

theorem scrubBegun_frame (s : State) : { scrubBegun s with mem := s.mem } = startClock .core s := by
  unfold scrubBegun memBoundary
  split <;> rfl

/-- The boundary of MEM_COMMIT changes the period and PENDING alone. -/
theorem scrubBegun_mem (s : State) :
    (scrubBegun s).mem = { s.mem with period := (scrubBegun s).mem.period, commit := (scrubBegun s).mem.commit } := by
  unfold scrubBegun memBoundary
  split <;> rfl

theorem scrubbed_of_mem {s t : State} (hb : t.mem.banks = s.mem.banks) (hm : t.sys.mode = s.sys.mode) (n : Nat) :
    scrubbed t n = scrubbed s n := by
  rw [scrubbed, scrubbed, bankAt_of_banks hb, hm]

theorem scrubBegun_banks (s : State) : (scrubBegun s).mem.banks = s.mem.banks := by rw [scrubBegun_mem]

theorem scrubBegun_scrubbed (s : State) (n : Nat) : scrubbed (scrubBegun s) n = scrubbed s n := by
  have hm := congrArg (fun z : State => z.sys.mode) (scrubBegun_frame s)
  exact scrubbed_of_mem (scrubBegun_banks s) hm n

/-- The scrubber's state with the flips of the word that it reads. -/
def scrubFlipped (l : List Nat) (s : State) : State := flipErr (scrubPlace s) l (scrubBegun s)

theorem scrubFlipped_frame (l : List Nat) (s : State) : { scrubFlipped l s with mem := s.mem } = startClock .core s := scrubBegun_frame s

theorem scrubFlipped_errs (l : List Nat) (s : State) : (scrubFlipped l s).mem.errs = (flipErr (scrubPlace s) l s).mem.errs := by
  have he : (scrubBegun s).mem.errs = s.mem.errs := by rw [scrubBegun_mem]
  simp only [scrubFlipped, flipErr, setErr, errAt, onMem_mem, he]
  rfl

theorem errAt_scrubFlipped (l : List Nat) (s : State) (p : Place) : errAt (scrubFlipped l s) p = errAt (flipErr (scrubPlace s) l s) p := by
  rw [errAt, errAt, scrubFlipped_errs]

/-- The flips leave all of the book but the positions in error. -/
theorem scrubFlipped_mem (l : List Nat) (s : State) :
    (scrubFlipped l s).mem.banks = s.mem.banks ∧ (scrubFlipped l s).mem.found = s.mem.found ∧
      (scrubFlipped l s).mem.cells = s.mem.cells ∧ (scrubFlipped l s).mem.backs = s.mem.backs := by
  have h := scrubBegun_mem s
  exact ⟨(congrArg Mem.banks h).trans rfl, (congrArg Mem.found h).trans rfl, (congrArg Mem.cells h).trans rfl, (congrArg Mem.backs h).trans rfl⟩

section
variable {s : State} (l : List Nat) (hr : scrubRuns s = true)
include hr

theorem scrubWord_of_skipped (h : scrubbed s s.mem.posBank = false) : scrubWord l s = scrubAdvance (scrubBegun s) := by
  rw [scrubWord_eq, hr, scrubPlace_begun, scrubBegun_scrubbed, show (scrubPlace s).bank = s.mem.posBank from rfl, h]
  rfl

theorem scrubWord_of_read (h : scrubbed s s.mem.posBank = true) :
    scrubWord l s = scrubAdvance (scrubRead (scrubPlace s) (scrubFlipped l s)) := by
  rw [scrubWord_eq, hr, scrubPlace_begun, scrubBegun_scrubbed, show (scrubPlace s).bank = s.mem.posBank from rfl, h]
  rfl

end

/-- A command that changes the banks' book and the recorder alone leaves what follows as it was. -/
theorem follow_of_mem {s u : State} (h : { u with mem := s.mem, log := s.log } = s) : { follow u with mem := s.mem, log := s.log } = follow s :=
  congrArg follow h

/-- The frame of a scrubber step: beside the book and the recorder the core clock has started. -/
theorem scrubbed_frame {l : List Nat} {s u : State} (h : { u with mem := (scrubFlipped l s).mem, log := (scrubFlipped l s).log } = scrubFlipped l s) :
    { follow (scrubAdvance u) with mem := s.mem, log := s.log } = follow (startClock .core s) := by
  have e := congrArg (fun z : State => { z with mem := s.mem, log := s.log }) (scrubAdvance_bookKept u).beside
  have e' := congrArg (fun z : State => { z with mem := s.mem, log := s.log }) h
  have e'' := congrArg (fun z : State => { z with log := s.log }) (scrubFlipped_frame l s)
  exact congrArg follow (e.trans (e'.trans e''))

theorem follow_replacing_mem {s u v : State} (h : { u with mem := s.mem } = v) : { follow u with mem := s.mem } = follow v :=
  congrArg follow h

theorem scrubAdvance_beside (m : Mem) (s : State) : { scrubAdvance s with mem := m } = { s with mem := m } := by
  obtain ⟨x, late, harbour, h⟩ := scrubAdvance_eq s
  rw [h]
  rfl

/-- A bank that the scrubber does not read is passed over. -/
theorem scrubWord_skipped {s : State} (l : List Nat) (hr : scrubRuns s = true) (hs : scrubbed s s.mem.posBank = false) :
    ∃ t, exec (.scrubWord l) s = .next t ∧ t.mem.banks = s.mem.banks ∧ t.mem.errs = s.mem.errs ∧ t.mem.cells = s.mem.cells ∧
      { t with mem := s.mem } = follow (startClock .core s) := by
  obtain ⟨abanks, -, aerrs, -, -, -, acells, -, -⟩ := scrubAdvance_bookKept (scrubBegun s)
  have hm := scrubBegun_mem s
  exact ⟨_, congrArg answer (scrubWord_of_skipped l hr hs), (abanks.trans (congrArg Mem.banks hm)).trans rfl,
    (aerrs.trans (congrArg Mem.errs hm)).trans rfl, (acells.trans (congrArg Mem.cells hm)).trans rfl,
    follow_replacing_mem ((scrubAdvance_beside s.mem _).trans (scrubBegun_frame s))⟩

/-- A word without error is passed in silence. -/
theorem scrubWord_clean {s : State} {l : List Nat} (hr : scrubRuns s = true) (hs : scrubbed s s.mem.posBank = true)
    (hf : s.mem.found.contains (scrubPlace s) = false) (he : errAt (scrubFlipped l s) (scrubPlace s) = []) :
    ∃ t, exec (.scrubWord l) s = .next t ∧ t.mem.banks = s.mem.banks ∧ t.mem.errs = (flipErr (scrubPlace s) l s).mem.errs ∧
      t.mem.cells = s.mem.cells ∧ t.mem.backs = s.mem.backs ∧ { t with mem := s.mem } = follow (startClock .core s) := by
  obtain ⟨fbanks, ffound, fcells, fbacks⟩ := scrubFlipped_mem l s
  have hclean := scrubRead_of_clean (s := scrubFlipped l s) (p := scrubPlace s) (by rw [ffound]; exact hf) he
  obtain ⟨abanks, abacks, aerrs, -, -, -, acells, -, -⟩ := scrubAdvance_bookKept (scrubFlipped l s)
  exact ⟨_, congrArg answer ((scrubWord_of_read l hr hs).trans (congrArg scrubAdvance hclean)), abanks.trans fbanks,
    aerrs.trans (scrubFlipped_errs l s), acells.trans fcells, abacks.trans fbacks,
    follow_replacing_mem ((scrubAdvance_beside s.mem _).trans (scrubFlipped_frame l s))⟩

/-- What a step of the scrubber leaves of a word that it finds uncorrectable. -/
theorem scrubWord_reported {s : State} {l : List Nat} (hr : scrubRuns s = true) (hs : scrubbed s s.mem.posBank = true)
    (hu : uncorrectable (scrubPlace s) (scrubFlipped l s) = true) (hb : s.mem.posBank < s.mem.banks.length) :
    ∃ t, exec (.scrubWord l) s = .next t ∧ (bankAt t s.mem.posBank).ue = satInc 32 (bankAt s s.mem.posBank).ue ∧
      (bankAt t s.mem.posBank).ce = (bankAt s s.mem.posBank).ce ∧ t.mem.flags.getLsbD 1 = true ∧ t.mem.cells = s.mem.cells ∧
      scrubPlace s ∈ t.mem.scrubUe ∧ uncorrectable (scrubPlace s) t = true ∧
      { t with mem := s.mem, log := s.log } = follow (startClock .core s) := by
  obtain ⟨fbanks, -, fcells, -⟩ := scrubFlipped_mem l s
  obtain ⟨hue, hce, hflag, hcells, hin, hbad, hbeside⟩ := scrubRead_reported hu
  obtain ⟨abanks, -, aerrs, afound, ascrub, -, acells, aflags, -⟩ := scrubAdvance_bookKept (scrubRead (scrubPlace s) (scrubFlipped l s))
  have hb' : (scrubPlace s).bank < (scrubFlipped l s).mem.banks.length := fbanks ▸ hb
  have hbank : ∀ n, bankAt (follow (scrubAdvance (scrubRead (scrubPlace s) (scrubFlipped l s)))) n =
      bankAt (scrubRead (scrubPlace s) (scrubFlipped l s)) n := fun n => bankAt_of_banks abanks n
  refine ⟨_, congrArg answer (scrubWord_of_read l hr hs), ?_, ?_, aflags 1 hflag, (acells.trans hcells).trans fcells, ?_, ?_,
    scrubbed_frame hbeside⟩
  · rw [hbank, ← bankAt_of_banks fbanks]
    exact hue hb'
  · rw [hbank, ← bankAt_of_banks fbanks]
    exact hce hb'
  · exact ascrub ▸ hin
  · exact (uncorrectable_of_book (t := follow (scrubAdvance _)) afound aerrs).trans hbad

/-- What a step of the scrubber leaves of a word that it corrects. -/
theorem scrubWord_corrected {s : State} {l : List Nat} (hr : scrubRuns s = true) (hs : scrubbed s s.mem.posBank = true)
    (hf : s.mem.found.contains (scrubPlace s) = false) (hb : s.mem.posBank < s.mem.banks.length)
    (he : (errAt (scrubFlipped l s) (scrubPlace s)).length = 1 ∨ (errAt (scrubFlipped l s) (scrubPlace s)).length = 2) :
    ∃ t, exec (.scrubWord l) s = .next t ∧ (bankAt t s.mem.posBank).ce = satInc 32 (bankAt s s.mem.posBank).ce ∧
      (bankAt t s.mem.posBank).ue = (bankAt s s.mem.posBank).ue ∧ t.mem.flags.getLsbD 0 = true ∧
      (scrubPlace s, (errAt (scrubFlipped l s) (scrubPlace s)).mergeSort (· ≤ ·), []) ∈ t.mem.backs ∧
      t.mem.ceClass = (errAt (scrubFlipped l s) (scrubPlace s)).length ∧ t.mem.cells = s.mem.cells ∧
      { t with mem := s.mem, log := s.log } = follow (startClock .core s) := by
  obtain ⟨fbanks, ffound, fcells, -⟩ := scrubFlipped_mem l s
  have hread := scrubRead_of_corrected (s := scrubFlipped l s) (p := scrubPlace s) (by rw [ffound]; exact hf) he
  have hw := (scrubWord_of_read l hr hs).trans (congrArg scrubAdvance hread)
  obtain ⟨hce, hue, hflag, hback, hclass, hcells, hbeside⟩ :=
    reportCe_reported (s := scrubFlipped l s) (p := scrubPlace s) scrubSource ((errAt (scrubFlipped l s) (scrubPlace s)).mergeSort (· ≤ ·))
  generalize reportCe _ _ _ _ _ = v at *
  obtain ⟨abanks, abacks, -, -, -, aclass, acells, aflags, -⟩ := scrubAdvance_bookKept v
  have hb' : (scrubPlace s).bank < (scrubFlipped l s).mem.banks.length := fbanks ▸ hb
  have hbank : ∀ n, bankAt (follow (scrubAdvance v)) n = bankAt v n := fun n => bankAt_of_banks abanks n
  refine ⟨_, congrArg answer hw, ?_, ?_, aflags 0 hflag, ?_, ?_, (acells.trans hcells).trans fcells, scrubbed_frame hbeside⟩
  · rw [hbank, ← bankAt_of_banks fbanks]
    exact hce hb'
  · rw [hbank, ← bankAt_of_banks fbanks]
    exact hue hb'
  · exact abacks ▸ hback
  · exact (aclass.trans hclass).trans (List.length_mergeSort _)

/-! ### The write-back and the weak rows -/

theorem errAt_setErr (p : Place) (l : List Nat) (s : State) : errAt (setErr p l s) p = l := by
  have hnone : (s.mem.errs.filter fun e => e.1 != p).find? (fun e => e.1 == p) = none := by
    simp [List.find?_eq_none]
  unfold errAt setErr
  simp only [onMem_mem]
  cases l with
  | nil => simp only [List.isEmpty_nil, if_true, hnone]; rfl
  | cons k r => simp only [List.isEmpty_cons, Bool.false_eq_true, if_false, List.find?_cons, beq_self_eq_true]; rfl

/-- A write-back of a word that waits and is neither uncorrectable nor being cleared. -/
theorem scrubWriteBack_kept {s : State} {p : Place} {pos l : List Nat} (hf : s.mem.backs.find? (fun b => b.1 == p) = some (p, pos, l))
    (hu : uncorrectable p s = false) (hc : (bankAt s p.bank).clearing = false) :
    ∃ t, exec (.scrubWriteBack p) s = .next t ∧ errAt t p = l ∧ t.mem.backs.find? (fun b => b.1 == p) = none ∧
      t.mem.corrected = pos.foldl (fun l k => markBack p k l) s.mem.corrected ∧ { t with mem := s.mem } = follow s := by
  have hw : scrubWriteBack p s =
      setErr p l (onMem (fun m => { m with corrected := pos.foldl (fun l k => markBack p k l) m.corrected })
        (onMem (fun m => { m with backs := m.backs.filter fun b => b.1 != p }) s)) := by
    simp only [scrubWriteBack, hf, hu, hc, Bool.or_self, Bool.false_eq_true, if_false]
  have hn : (s.mem.backs.filter fun b => b.1 != p).find? (fun b => b.1 == p) = none := by simp [List.find?_eq_none]
  exact ⟨_, congrArg answer hw, errAt_setErr p l _, hn, rfl, follow_replacing_mem rfl⟩

theorem weakRecordWrite_of_due {s : State} {w : WeakEntry} {rest : List WeakEntry} (h : s.mem.weakDue = w :: rest) :
    weakRecordWrite s = onMem (fun m => { m with weakDue := rest, weak := weakAdd m.weak [w], weakNew := m.weakNew + 1 }) s := by
  rw [weakRecordWrite, h]

theorem weakRecordWrite_of_none {s : State} (h : s.mem.weakDue = []) : weakRecordWrite s = s := by rw [weakRecordWrite, h]

/-- Settles O27: the scrubber's step by what the code makes of the word it reads. -/
theorem errorsAreCorrectedOrReported : Obligations.ErrorsAreCorrectedOrReported := by
  unfold Obligations.ErrorsAreCorrectedOrReported
  intro s
  refine ⟨fun l h => congrArg answer (scrubWord_of_stopped h l), ?words, fun p pos l hf hu hc => ?back, fun w rest hw => ?weak, fun hw => ?none⟩
  case words =>
    rintro p l rfl hr e
    have herr : errAt (scrubFlipped l s) (scrubPlace s) = e := errAt_scrubFlipped l s (scrubPlace s)
    obtain ⟨-, ffound, -, -⟩ := scrubFlipped_mem l s
    refine ⟨fun hs => ?_, fun hs hf he => ?_, fun hs hf hb => ?_, fun hs hf hb he => ?_, fun hs hf hb he => ?_⟩
    · exact scrubWord_skipped l hr hs
    · exact scrubWord_clean hr hs hf (herr.trans he)
    · obtain ⟨t, ht, hue, hce, hflag, hcells, -, -, hbeside⟩ :=
        scrubWord_reported (l := l) hr hs (uncorrectable_of_found (by rw [ffound]; exact hf)) hb
      exact ⟨t, ht, hue, hce, hflag, hcells, hbeside⟩
    · obtain ⟨t, ht, hce, hue, hflag, hback, hclass, hcells, hbeside⟩ := scrubWord_corrected (l := l) hr hs hf hb (herr ▸ he)
      exact ⟨t, ht, hce, hue, hflag, herr ▸ hback, herr ▸ hclass, hcells, hbeside⟩
    · obtain ⟨t, ht, hue, hce, hflag, hcells, hin, hbad, hbeside⟩ :=
        scrubWord_reported (l := l) hr hs (uncorrectable_of_three (herr ▸ he)) hb
      exact ⟨t, ht, hue, hce, hflag, hcells, hin, hbad, hbeside⟩
  case back => exact scrubWriteBack_kept hf hu hc
  case weak => exact ⟨_, congrArg answer (weakRecordWrite_of_due hw), rfl, follow_replacing_mem rfl⟩
  case none => exact congrArg answer (weakRecordWrite_of_none hw)

end Sys2Proof.Machine
end

section
/-! PROOFS. Handovers and injections (04_memory.md R99, R113, R118, R123). -/

namespace Sys2Proof.Machine

/-! ### A request (R99, R118) -/

/-- The fields of MEM_HANDOVER as a write of it gives them. -/
def Handover.taken (v : Word) (h : Handover) : Handover :=
  { h with bank := field v 16 5, owner := field v 8 3, clear := v.getLsbD 1 }

section
variable {s : State} {r : Reader} {v : Word}

theorem writeHandover_of_fields (h : v.getLsbD 0 = false) :
    writeHandover r v s = onMem (fun m => { m with handover := m.handover.taken v }) s :=
  if_neg (by rw [h]; decide)

/-- The condition under which a request names the current owner. -/
def namesOwner (s : State) (r : Reader) (v : Word) : Prop :=
  field v 16 5 ≤ 15 ∧ (bankAt s (field v 16 5)).owner.code = field v 8 3 ∧ field v 8 3 ≠ 7 ∧ (!s.mem.handover.busy) = true ∧
    (!(r == .plant && s.sys.mode != .stop)) = true

theorem writeHandover_of_owner (h : v.getLsbD 0 = true) (ho : namesOwner s r v) :
    writeHandover r v s = onMem (fun m => { m with handover := { m.handover.taken v with refused := false } }) s :=
  (if_pos h).trans (if_pos ho)

theorem writeHandover_of_other (h : v.getLsbD 0 = true) (ho : (bankAt s (field v 16 5)).owner.code ≠ field v 8 3) :
    writeHandover r v s =
      if handoverRefused s r (field v 16 5) (field v 8 3) then onMem (fun m => { m with handover := { m.handover with refused := true } }) s
      else
        if v.getLsbD 1 then onAnswering (field v 16 5) (fun b => { b with clearing := true })
          (onMem (fun m => { m with handover := { m.handover.taken v with
            refused := false, busy := true, nowBank := field v 16 5, nowOwner := field v 8 3, nowClear := v.getLsbD 1 } }) s)
        else onMem (fun m => { m with handover := { m.handover.taken v with
            refused := false, busy := true, nowBank := field v 16 5, nowOwner := field v 8 3, nowClear := v.getLsbD 1 } }) s :=
  (if_pos h).trans (if_neg fun hc => ho hc.2.1)

end

/-! ### An update of the bank that answers (R111) -/

theorem onAnswering_frame (n : Nat) (f : Bank → Bank) (s : State) : { onAnswering n f s with mem := s.mem } = s := by
  unfold onAnswering
  split <;> rfl

theorem onAnswering_beside (n : Nat) (f : Bank → Bank) (m : Mem) (s : State) : { onAnswering n f s with mem := m } = { s with mem := m } := by
  unfold onAnswering
  split <;> rfl

theorem onAnswering_mem (n : Nat) (f : Bank → Bank) (s : State) :
    (onAnswering n f s).mem = { s.mem with banks := (onAnswering n f s).mem.banks } := by
  unfold onAnswering
  split <;> rfl

/-- The bank that is named takes the update, once or, where B16 answers for itself, twice. -/
theorem bankAt_onAnswering {n : Nat} {s : State} (h : n < s.mem.banks.length) (f : Bank → Bank) (hf : ∀ b, f (f b) = f b) :
    bankAt (onAnswering n f s) n = f (bankAt s n) := by
  unfold onAnswering
  split
  · rw [bankAt_onBank_same (by simpa [onBank] using h)]
    by_cases h16 : n = 16
    · subst h16
      rw [bankAt_onBank_same h, hf]
    · have hne : bankAt (onBank 16 f s) n = bankAt s n := by
        simp [bankAt, onBank, List.getD_eq_getElem?_getD, Ne.symm h16]
      rw [hne]
  · exact bankAt_onBank_same h f

/-! ### The clear and the completion -/

theorem cellGet_filter (z : Byte) (p : Nat → Bool) (a : Nat) (l : List Host.Cell) :
    cellGet z a (l.filter fun c => p c.1) = if p a then cellGet z a l else z := by
  induction l with
  | nil => cases p a <;> rfl
  | cons c r ih =>
    obtain ⟨i, v⟩ := c
    by_cases hi : i = a
    · subst hi
      cases hp : p i
      · simpa [List.filter_cons, hp] using ih
      · simp [hp, cellGet]
    · cases hp : p i
      · simpa [List.filter_cons, hp, cellGet, hi] using ih
      · simpa [List.filter_cons, hp, cellGet, hi] using ih

/-- The engine after a clear of a bank. -/
def Engine.cleared (n : Nat) (e : Engine) : Engine :=
  if n = 11 then { e with wiped := true, loops := e.loops.map fun p => (p.1, p.2.wiped) } else e

theorem recode_frame (a : Nat) (full : Bool) (s : State) : { recode a full s with mem := s.mem } = s := rfl

/-- A bank cleared: its bytes, and with B11 the loops' contexts. -/
theorem clearBank_kept (n : Nat) (s : State) :
    (clearBank n s).mem.banks = s.mem.banks ∧ (clearBank n s).mem.handover = s.mem.handover ∧
      (clearBank n s).mem.folded = s.mem.folded ∧
      (clearBank n s).mem.cells = (s.mem.cells.filter fun c => c.1 / bankBytes != n) ∧
      (clearBank n s).eng = s.eng.cleared n ∧ { clearBank n s with mem := s.mem, eng := s.eng } = s := by
  unfold clearBank Engine.cleared
  dsimp only
  split
  · exact ⟨rfl, rfl, rfl, rfl, rfl, rfl⟩
  · exact ⟨rfl, rfl, rfl, rfl, rfl, rfl⟩

/-- A wiped loop is enabled as before: a clear leaves what the clocks are asked for. -/
theorem any_enabled_wiped (l : List (Nat × Loop)) :
    ((l.map fun p => (p.1, p.2.wiped)).any fun p => p.2.enabled) = l.any fun p => p.2.enabled := by
  rw [List.any_map]
  rfl

/-- Of the engine the clocks read whether a loop is enabled (R32). -/
theorem grantClocks_of_enabled {e : Engine} {s : State} (h : (e.loops.any fun p => p.2.enabled) = s.eng.loops.any fun p => p.2.enabled) :
    { grantClocks { s with eng := e } with eng := s.eng } = grantClocks s := by
  have hq : clockRequested { s with eng := e } = clockRequested s := by
    funext c
    cases c with
    | core => simp only [clockRequested, h]; rfl
    | _ => rfl
  unfold grantClocks
  rw [hq]
  rfl

theorem follow_of_enabled {e : Engine} {s : State} (h : (e.loops.any fun p => p.2.enabled) = s.eng.loops.any fun p => p.2.enabled) :
    { follow { s with eng := e } with eng := s.eng } = follow s :=
  grantClocks_of_enabled (s := refreshStages s) h

theorem cleared_enabled (n : Nat) (e : Engine) : ((e.cleared n).loops.any fun p => p.2.enabled) = e.loops.any fun p => p.2.enabled := by
  unfold Engine.cleared
  split
  · exact any_enabled_wiped e.loops
  · rfl

/-- What completes: the bank passes, its content cleared where that was asked. -/
def handoverPassed (s : State) : State :=
  onMem (fun m => { m with handover := { m.handover with busy := false } })
    (onAnswering s.mem.handover.nowBank (fun b => { b with owner := ownerOf s.mem.handover.nowOwner, clearing := false })
      (if s.mem.handover.nowClear then clearBank s.mem.handover.nowBank s else s))

theorem handoverComplete_of_busy {s : State} (h : s.mem.handover.busy = true) :
    handoverComplete s = raise .bankHandover .notice 0xFF s.mem.handover.nowBank
      (bankAt s s.mem.handover.nowBank).owner.code s.mem.handover.nowOwner (handoverPassed s) := if_pos h

/-- The state that a handover finds after its clear. -/
theorem clearAsked_kept (s : State) :
    let u := if s.mem.handover.nowClear = true then clearBank s.mem.handover.nowBank s else s
    u.mem.banks = s.mem.banks ∧
      u.mem.cells = (if s.mem.handover.nowClear = true then s.mem.cells.filter fun c => c.1 / bankBytes != s.mem.handover.nowBank else s.mem.cells) ∧
      u.eng = (if s.mem.handover.nowClear = true then s.eng.cleared s.mem.handover.nowBank else s.eng) ∧
      { u with mem := s.mem, eng := s.eng } = s := by
  obtain ⟨hbanks, -, -, hcells, heng, hbeside⟩ := clearBank_kept s.mem.handover.nowBank s
  cases s.mem.handover.nowClear
  · exact ⟨rfl, rfl, rfl, rfl⟩
  · exact ⟨hbanks, hcells, heng, hbeside⟩

theorem handoverPassed_kept (s : State) :
    (handoverPassed s).mem.cells =
        (if s.mem.handover.nowClear = true then s.mem.cells.filter fun c => c.1 / bankBytes != s.mem.handover.nowBank else s.mem.cells) ∧
      (handoverPassed s).mem.handover.busy = false ∧
      (s.mem.handover.nowBank < s.mem.banks.length →
        (bankAt (handoverPassed s) s.mem.handover.nowBank).owner = ownerOf s.mem.handover.nowOwner ∧
        (bankAt (handoverPassed s) s.mem.handover.nowBank).clearing = false) ∧
      (handoverPassed s).eng = (if s.mem.handover.nowClear = true then s.eng.cleared s.mem.handover.nowBank else s.eng) ∧
      { handoverPassed s with mem := s.mem, eng := s.eng } = s := by
  obtain ⟨hbanks, hcells, heng, hbeside⟩ := clearAsked_kept s
  unfold handoverPassed
  generalize (if s.mem.handover.nowClear = true then clearBank s.mem.handover.nowBank s else s) = u at *
  have hfr := onAnswering_frame s.mem.handover.nowBank (fun b => { b with owner := ownerOf s.mem.handover.nowOwner, clearing := false }) u
  have hm := onAnswering_mem s.mem.handover.nowBank (fun b => { b with owner := ownerOf s.mem.handover.nowOwner, clearing := false }) u
  refine ⟨((congrArg Mem.cells hm).trans rfl).trans hcells, rfl, fun h => ?_, ?_, ?_⟩
  · have hb := bankAt_onAnswering (s := u) (n := s.mem.handover.nowBank) (by rw [hbanks]; exact h)
      (fun b => { b with owner := ownerOf s.mem.handover.nowOwner, clearing := false }) (fun _ => rfl)
    exact ⟨(congrArg Bank.owner hb).trans rfl, (congrArg Bank.clearing hb).trans rfl⟩
  · have e := congrArg State.eng hfr
    exact e.trans heng
  · have e := congrArg (fun z : State => { z with mem := s.mem, eng := s.eng }) hfr
    exact e.trans hbeside

theorem follow_replacing_eng {s u : State} (h : { u with mem := s.mem, log := s.log, eng := s.eng } = s)
    (he : (u.eng.loops.any fun p => p.2.enabled) = s.eng.loops.any fun p => p.2.enabled) :
    { follow u with mem := s.mem, log := s.log, eng := s.eng } = follow s := by
  have hf := follow_of_enabled (e := u.eng) (s := s) he
  have e : { u with mem := s.mem, log := s.log } = { s with eng := u.eng } := congrArg (fun z : State => { z with eng := u.eng }) h
  have e' := congrArg (fun z : State => { follow z with eng := s.eng }) e
  exact e'.trans hf

/-- Settles O28: a request by the branch it takes, and the completion by its parts. -/
theorem banksPassAndInjectionsArm : Obligations.BanksPassAndInjectionsArm := by
  unfold Obligations.BanksPassAndInjectionsArm
  intro s r v
  refine ⟨fun hg hn h7 hb hp => ?names, fun hg hr ho => ?refused, fun hg hr ho => ?passes, fun hg => ?fields, fun hb hl => ?completes,
    fun ha hs => ?arms, fun ha hs => ?unarmed⟩
  case names =>
    obtain ⟨n, hn15, rfl, hown⟩ := hn
    have ho : namesOwner s r v := ⟨hn15, hown, h7, by rw [hb]; rfl, by
      by_cases h : r = .plant
      · rw [hp h]; simp
      · simp [h]⟩
    exact ⟨_, congrArg answer (writeHandover_of_owner hg ho), rfl, hb, rfl, rfl⟩
  case refused =>
    exact ⟨_, congrArg answer ((writeHandover_of_other hg ho).trans (if_pos hr)), rfl, rfl⟩
  case passes =>
    have hw := (writeHandover_of_other hg ho).trans (if_neg (by rw [hr]; decide))
    cases hc : v.getLsbD 1 with
    | true =>
      rw [hc, if_pos rfl] at hw
      have hm := onAnswering_mem (field v 16 5) (fun b => { b with clearing := true })
        (onMem (fun m => { m with handover := { m.handover.taken v with
            refused := false, busy := true, nowBank := field v 16 5, nowOwner := field v 8 3, nowClear := true } }) s)
      refine ⟨_, congrArg answer hw, ?_, fun _ hl => ?_, ?_⟩
      · refine (congrArg Mem.handover hm).trans ?_
        rw [← hc]
        rfl
      · exact (congrArg Bank.clearing (bankAt_onAnswering (s := onMem _ s) hl (fun b => { b with clearing := true }) fun _ => rfl)).trans rfl
      · exact follow_replacing_mem (onAnswering_beside _ _ s.mem _)
    | false =>
      rw [hc, if_neg (by decide)] at hw
      refine ⟨_, congrArg answer hw, ?_, nofun, rfl⟩
      rw [← hc]
      rfl
  case fields => exact ⟨_, congrArg answer (writeHandover_of_fields hg), rfl, rfl⟩
  case completes =>
    obtain ⟨hcells, hbusy, hown, heng, hbeside⟩ := handoverPassed_kept s
    have hlog := congrArg State.log hbeside
    have hmono := congrArg State.mono hbeside
    have hf := follow_replacing_eng (s := s) (u := raise .bankHandover .notice 0xFF s.mem.handover.nowBank
      (bankAt s s.mem.handover.nowBank).owner.code s.mem.handover.nowOwner (handoverPassed s)) (by
        have e := congrArg (fun z : State => { z with log := s.log }) hbeside
        exact e) (by
        rw [raise_eng, heng]
        split
        · exact cleared_enabled _ _
        · rfl)
    refine ⟨_, congrArg answer (handoverComplete_of_busy hb), hbusy, (hown hl).1, (hown hl).2, fun hc a ha => ?_, fun a ha => ?_,
      raise_log _ _ _ _ _ _ _ _ hlog hmono, heng.trans ?_, hf⟩
    · refine (congrArg (cellGet 0 a) (hcells.trans (if_pos hc))).trans ((cellGet_filter 0 (· / bankBytes != _) a _).trans ?_)
      rw [ha]
      simp
    · refine (congrArg (cellGet 0 a) hcells).trans ?_
      split
      · refine (cellGet_filter 0 (· / bankBytes != _) a _).trans (if_pos ?_)
        simpa using ha
      · rfl
    · unfold Engine.cleared
      split_ifs <;> simp_all
  case arms =>
    have hw : writeInject v s = onMem (fun m => { m with inject :=
        { armed := true, bank := field v 24 5, posC := field v 16 7, posB := field v 8 7, posA := field v 0 7 } }) s := by
      simp only [writeInject, ha, hs]
      rfl
    exact ⟨_, congrArg answer hw, rfl, rfl⟩
  case unarmed =>
    have hw : writeInject v s = onMem (fun m => { m with flags := flag 6 m.flags }) s := by
      simp [writeInject, ha, hs]
    exact ⟨_, congrArg answer hw, rfl, rfl⟩

end Sys2Proof.Machine
end

section
/-! PROOFS. The queue window's commands (13_can_ports.md R332 to R340, R358, R359). -/

namespace Sys2Proof.Machine

/-- A command that changes the queues alone shows that beside them. -/
theorem que_frame {s u : State} (h : { u with que := s.que } = s) : ({ follow u with que := s.que } : State).rest = s.rest := by
  have e := congrArg (fun z : State => { z with que := s.que }) (follow_rest u)
  exact e.trans (congrArg State.rest h)

/-! ### A requester's registers -/

section
variable (r : Reader) (f : QueBank → QueBank) (s : State)

theorem onQueBank_frame : { onQueBank r f s with que := s.que } = s := by cases r <;> rfl

theorem onQueBank_beside (q : Que) : { onQueBank r f s with que := q } = { s with que := q } := by cases r <;> rfl

@[simp] theorem queBank_onQueBank : queBank (onQueBank r f s) r = f (queBank s r) := by cases r <;> rfl

/-- The registers are no part of the descriptors, the queues and what waits. -/
theorem onQueBank_que : ∃ a b, (onQueBank r f s).que = { s.que with sdk := a, plant := b } := by cases r <;> exact ⟨_, _, rfl⟩

@[simp] theorem onQueBank_held : (onQueBank r f s).que.held = s.que.held := by cases r <;> rfl
@[simp] theorem onQueBank_queues : (onQueBank r f s).que.queues = s.que.queues := by cases r <;> rfl
@[simp] theorem onQueBank_sys : (onQueBank r f s).sys = s.sys := by cases r <;> rfl
@[simp] theorem onQueBank_mono : (onQueBank r f s).mono = s.mono := by cases r <;> rfl

theorem descOf_onQueBank (h : Nat) : descOf (onQueBank r f s) h = descOf s h := by rw [descOf, descOf, onQueBank_held]

end

/-- What an enqueue reads of a state. -/
theorem enqueue_reads_onQueBank (r : Reader) (f : QueBank → QueBank) (s : State) (q : Nat) (x : CanFrame) :
    enqueueCheck (onQueBank r f s) q x = enqueueCheck s q x ∧ reserveUsed (onQueBank r f s) q = reserveUsed s q ∧
      queueAt (onQueBank r f s) q = queueAt s q ∧ freeHandle (onQueBank r f s) = freeHandle s ∧
      serialOff (onQueBank r f s) q = serialOff s q ∧ hartOff (onQueBank r f s) q = hartOff s q := by
  cases r <;> exact ⟨rfl, rfl, rfl, rfl, rfl, rfl⟩

/-! ### An accepted enqueue (R334) -/

/-- The descriptor of an accepted enqueue with a place of its queue's reserve. -/
def newDesc (s : State) (owner : Requester) (q : Nat) (f : CanFrame) (exp : Option Nat) (one : Bool) : Desc :=
  let c := canPort s (queueAt s q).unit
  let late := (queueAt s q).user = userCan && (c.st == .busOff || c.st == .recovering)
  { handle := freeHandle s, queue := q, st := .pending, owner := owner, frame := f, expiry := exp, oneShot := one,
    result := 0, flags := if late then 2 else 0, ts := 0, taken := false, cancel := false, defn := none, shared := false,
    client := none }

theorem newDesc_onQueBank (r : Reader) (g : QueBank → QueBank) (s : State) (owner : Requester) (q : Nat) (f : CanFrame) (exp : Option Nat)
    (one : Bool) : newDesc (onQueBank r g s) owner q f exp one = newDesc s owner q f exp one := by
  obtain ⟨-, -, eq, ef, -, -⟩ := enqueue_reads_onQueBank r g s q f
  have ec : canPort (onQueBank r g s) = canPort s := by cases r <;> rfl
  simp only [newDesc, eq, ef, ec]

theorem newDesc_fields (s : State) (owner : Requester) (q : Nat) (f : CanFrame) (exp : Option Nat) (one : Bool) :
    (newDesc s owner q f exp one).handle = freeHandle s ∧ (newDesc s owner q f exp one).queue = q ∧
      (newDesc s owner q f exp one).st = .pending ∧ (newDesc s owner q f exp one).owner = owner ∧
      (newDesc s owner q f exp one).frame = f ∧ (newDesc s owner q f exp one).oneShot = one ∧
      (newDesc s owner q f exp one).expiry = exp := by
  simp only [newDesc, and_self]

/-- A descriptor joins those held. -/
def heldAlso (d : Desc) (s : State) : State := onQue (fun e => { e with held := e.held ++ [d] }) s

theorem heldAlso_held (d : Desc) (s : State) : (heldAlso d s).que.held = s.que.held ++ [d] := rfl

theorem enqueue_of_ok {s : State} {q : Nat} {f : CanFrame} (owner : Requester) (exp : Option Nat) (one : Bool)
    (hc : enqueueCheck s q f = resOk) (hr : reserveUsed s q < (queueAt s q).depth) (hs : serialOff s q = false) (hh : hartOff s q = false) :
    enqueue owner q f exp one none none s = (resOk, freeHandle s, heldAlso (newDesc s owner q f exp one) s) := by
  have hlive : (serialOff (heldAlso (newDesc s owner q f exp one) s) q || hartOff (heldAlso (newDesc s owner q f exp one) s) q) = false :=
    (congrArg₂ (· || ·) hs hh : (serialOff s q || hartOff s q) = _)
  unfold enqueue
  simp only [hc, hr, ne_eq, not_true_eq_false, if_false, decide_true, Bool.true_or, if_true, Bool.not_true]
  exact congrArg (fun x => (resOk, freeHandle s, x)) (if_neg fun h => absurd (hlive.symm.trans h) (by decide))

/-! ### One descriptor among those held -/

theorem descOf_onDesc {s : State} {h : Nat} {d : Desc} (hd : descOf s h = some d) (f : Desc → Desc) (hf : ∀ d, (f d).handle = d.handle) :
    descOf (onDesc h f s) h = some (f d) := by
  have hp : ((fun d : Desc => d.handle == h) ∘ fun d => if d.handle = h then f d else d) = fun d => d.handle == h := by
    funext x
    by_cases hx : x.handle = h <;> simp [hx, hf]
  have hh : d.handle = h := by simpa using List.find?_some hd
  have hd' : s.que.held.find? (fun d => d.handle == h) = some d := hd
  simp only [descOf, onDesc, onQue_que, List.find?_map, hp, hd', Option.map_some, hh, if_true]

/-- The boundary of QUE_COMMIT changes the queues, the flags and PENDING alone. -/
theorem queBoundary_que (s : State) : ∃ q fl c, (queBoundary s).que = { s.que with queues := q, flags := fl, commit := c } := by
  unfold queBoundary
  dsimp only
  split
  · simp only [onQue_que]
    split <;> exact ⟨_, _, _, rfl⟩
  · exact ⟨_, _, _, rfl⟩

theorem queBoundary_held (s : State) : (queBoundary s).que.held = s.que.held := by
  obtain ⟨q, fl, c, h⟩ := queBoundary_que s
  rw [h]

theorem descOf_freeDesc (h : Nat) (s : State) : descOf (freeDesc h s) h = none := by
  have hq : (freeDesc h s).que.held = s.que.held.filter fun d => d.handle != h := queBoundary_held _
  rw [descOf, hq]
  simp [List.find?_eq_none]

/-- A transmit entry that is not the runtime's and has not retired takes its result. -/
def Desc.retiredWith (result ts : Nat) (reply : Option (List Byte)) (d : Desc) : Desc :=
  { d with
    st := .retired, result := result, ts := ts
    frame := match reply with
      | none => d.frame
      | some b => { d.frame with data := b, length := b.length } }

theorem retire_of_live {s : State} {h : Nat} {d : Desc} (result : Nat) (reply : Option (List Byte)) (hd : descOf s h = some d)
    (ho : d.owner ≠ .program) (hst : d.st = .pending ∨ d.st = .attempt) :
    retire h result reply s = onDesc h (Desc.retiredWith result s.mono reply) (dropAttempt h s) := by
  have hd' : descOf (dropAttempt h s) h = some d := hd
  have h1 : (d.st == .retired || d.st == .filled) = false := by
    rcases hst with e | e <;> rw [e] <;> rfl
  have h2 : (d.owner == .program) = false := beq_false_of_ne ho
  unfold retire
  simp only [hd', h1, h2, Bool.false_eq_true, if_false]
  rfl

theorem ofReader_ne_program (r : Reader) : Requester.ofReader r ≠ .program := by cases r <;> decide

theorem dropAttempt_onQueBank (h : Nat) (r : Reader) (f : QueBank → QueBank) (s : State) :
    dropAttempt h (onQueBank r f s) = onQueBank r f (dropAttempt h s) := by cases r <;> rfl

/-! ### The commands -/

section
variable {s : State} {r : Reader} {v : Word}

/-- The bank with ONE_SHOT as written. -/
def QueBank.oneShotTaken (v : Word) (b : QueBank) : QueBank := { b with oneShot := v.getLsbD 30 }

/-- The expiry of a staged entry. -/
def QueBank.stagedExpiry (b : QueBank) : Option Nat := if b.expiry = 0 then none else some b.expiry

/-- QUE_TX_CTRL with GO: the staged entry goes to the queue it names. -/
theorem writeTxCtrl_of_ok (hv : v.getLsbD 31 = true) (hm : mayWrite s r winQue = true)
    (hc : enqueueCheck s (field (queBank s r).head 24 6) (stagedFrame (queBank s r)) = resOk)
    (hr : reserveUsed s (field (queBank s r).head 24 6) < (queueAt s (field (queBank s r).head 24 6)).depth)
    (hs : serialOff s (field (queBank s r).head 24 6) = false) (hh : hartOff s (field (queBank s r).head 24 6) = false) :
    writeTxCtrl r v s = onQueBank r (fun b => { b with result := resOk, handle := freeHandle s })
      (heldAlso (newDesc s (.ofReader r) (field (queBank s r).head 24 6) (stagedFrame (queBank s r)) (queBank s r).stagedExpiry (v.getLsbD 30))
        (onQueBank r (QueBank.oneShotTaken v) s)) := by
  have hm' : mayWrite (onQueBank r (QueBank.oneShotTaken v) s) r winQue = true := by cases r <;> exact hm
  obtain ⟨ec, er, eq, ef, es, eh⟩ := enqueue_reads_onQueBank r (QueBank.oneShotTaken v) s
    (field (queBank s r).head 24 6) (stagedFrame (queBank s r))
  have he := enqueue_of_ok (.ofReader r) (queBank s r).stagedExpiry (v.getLsbD 30)
    (ec.trans hc) (by rw [er, eq]; exact hr) (es.trans hs) (eh.trans hh)
  rw [ef, newDesc_onQueBank] at he
  have ht := congrArg (fun x : Nat × Nat × State =>
    onQueBank r (fun b => { b with result := x.1, handle := if x.1 = resOk then x.2.1 else b.handle }) x.2.2) he
  simp only [if_true] at ht
  cases r <;> exact (if_pos hv).trans ((if_pos hm').trans ht)

/-- CANCEL of an entry of the requester's own that is PENDING. -/
theorem writeCancel_of_pending {d : Desc} (hv : v.getLsbD 31 = true) (hd : descOf s (field v 0 11) = some d)
    (ho : d.owner = .ofReader r) (hst : d.st = .pending) :
    writeCancel r v s = onQueBank r (fun b => { b with cancelRefused := false })
      (retire (field v 0 11) retCancelled none (onQueBank r (fun b => { b with cancel := field v 0 11 }) s)) := by
  have hc : cancelEntry (.ofReader r) (field v 0 11) (onQueBank r (fun b => { b with cancel := field v 0 11 }) s) =
      (true, retire (field v 0 11) retCancelled none (onQueBank r (fun b => { b with cancel := field v 0 11 }) s)) := by
    simp only [cancelEntry, descOf_onQueBank, hd, ho, hst, ne_eq, not_true_eq_false, if_false]
  unfold writeCancel
  simp only [hv, if_true, hc]
  rfl

/-- A descriptor that a requester has latched. -/
def Desc.takenBy (o : Requester) (d : Desc) : Desc := { d with taken := true, owner := o }

theorem writeTakeSel_of_found {d : Desc} (hv : v.getLsbD 31 = true)
    (hd : s.que.held.find? (fun d => d.queue == field v 0 6 && !d.taken && mayTake (.ofReader r) d) = some d) :
    writeTakeSel r v s = onDesc d.handle (Desc.takenBy (.ofReader r))
      (onQueBank r (fun b => { b with takeValid := true, taken := some d, takePtr := 0 })
        (onQueBank r (fun b => { b with takeSel := field v 0 6 }) s)) := by
  unfold writeTakeSel
  simp only [hv, if_true, onQueBank_held, hd]
  rfl

theorem writeAck_of_retired {d : Desc} (hv : v.getLsbD 31 = true) (hd : descOf s (field v 0 11) = some d)
    (ho : d.owner = .ofReader r) (hst : d.st = .retired) :
    writeAck r v s = freeDesc (field v 0 11) (onQueBank r (fun b => { b with ackRefused := false })
      (onQueBank r (fun b => { b with ack := field v 0 11 }) s)) := by
  have hm : mayTake (.ofReader r) d = true := by simp [mayTake, ho, hst]
  unfold writeAck
  simp only [hv, if_true, descOf_onQueBank, hd, hm]
  rfl

end

theorem queBank_onDesc (h : Nat) (f : Desc → Desc) (s : State) (r : Reader) : queBank (onDesc h f s) r = queBank s r := by cases r <;> rfl

theorem queBank_freeDesc (h : Nat) (s : State) (r : Reader) : queBank (freeDesc h s) r = queBank s r := by
  obtain ⟨q, fl, c, hq⟩ := queBoundary_que (onQue (fun e => { e with held := e.held.filter fun d => d.handle != h }) s)
  cases r
  · exact (congrArg Que.sdk hq).trans rfl
  · exact (congrArg Que.plant hq).trans rfl

/-- An update of a requester's registers shows beside the queues as nothing. -/
theorem onQueBank_rest (r : Reader) (f : QueBank → QueBank) {s u : State} (h : { u with que := s.que } = s) :
    { onQueBank r f u with que := s.que } = s := (onQueBank_beside r f u s.que).trans h

theorem queBank_follow (s : State) (r : Reader) : queBank (follow s) r = queBank s r := by cases r <;> rfl

theorem descOf_follow (s : State) (h : Nat) : descOf (follow s) h = descOf s h := rfl

/-- Settles O18: each command of the window by its own branch. -/
theorem queueCommands : Obligations.QueueCommands := by
  unfold Obligations.QueueCommands
  intro s r v
  refine ⟨?head, fun hp => ?data, fun hv hm hc hr hs hh => ?staged, fun q f exp one hc hr hs hh => ?runtime, fun d hv hd ho hst => ?cancel,
    fun d hv hd => ?take, ?takeData, fun d hv hd hst ho => ?ack⟩
  case head =>
    refine ⟨_, rfl, ?_, ?_, ?_, que_frame (onQueBank_frame r _ s)⟩ <;> rw [queBank_follow, writeTxHead, queBank_onQueBank]
  case data =>
    refine ⟨_, rfl, ?_, ?_, que_frame (onQueBank_frame r _ s)⟩ <;> rw [queBank_follow, writeTxData, queBank_onQueBank] <;> simp only [hp, if_true]
  case staged =>
    obtain ⟨fh, fq, fst, fo, ff, fone, -⟩ := newDesc_fields s (.ofReader r) (field (queBank s r).head 24 6) (stagedFrame (queBank s r))
      (queBank s r).stagedExpiry (v.getLsbD 30)
    refine ⟨_, congrArg answer (writeTxCtrl_of_ok hv hm hc hr hs hh), ?_, ?_, que_frame ?_, _, ?_, fh, fq, fst, fo, ff, fone⟩
    · rw [queBank_follow, queBank_onQueBank]
    · rw [queBank_follow, queBank_onQueBank]
    · exact onQueBank_rest (u := heldAlso _ _) r _ (onQueBank_rest (u := s) r (QueBank.oneShotTaken v) rfl)
    · have hheld := onQueBank_held r (QueBank.oneShotTaken v) s
      rw [follow_que, onQueBank_held, heldAlso_held, hheld]
  case runtime =>
    obtain ⟨fh, fq, fst, fo, ff, fone, fexp⟩ := newDesc_fields s .program q f exp one
    have hw := congrArg (fun x : Nat × Nat × State => answer x.2.2) (enqueue_of_ok .program exp one hc hr hs hh)
    exact ⟨_, hw, que_frame (u := heldAlso _ s) rfl, _, rfl, fh, fq, fst, fo, ff, fone, fexp⟩
  case cancel =>
    have hd' : descOf (onQueBank r (fun b => { b with cancel := field v 0 11 }) s) (field v 0 11) = some d :=
      (descOf_onQueBank r _ s _).trans hd
    have hd'' : descOf (dropAttempt (field v 0 11) (onQueBank r (fun b => { b with cancel := field v 0 11 }) s)) (field v 0 11) = some d := hd'
    have hret := retire_of_live retCancelled none hd' (ho ▸ ofReader_ne_program r) (.inl hst)
    have hw := writeCancel_of_pending hv hd ho hst
    rw [hret] at hw
    refine ⟨_, congrArg answer hw, ?_, ?_, fun hdrop => que_frame ?_⟩
    · rw [queBank_follow, queBank_onQueBank]
    · rw [descOf_follow, descOf_onQueBank, descOf_onDesc (d := d) hd'' (Desc.retiredWith _ _ _) fun _ => rfl]
      rfl
    · refine onQueBank_rest r _ ?_
      rw [dropAttempt_onQueBank, hdrop]
      exact onQueBank_frame r (fun b => { b with cancel := field v 0 11 }) s
  case take =>
    have hin : ∃ e, descOf s d.handle = some e := by
      have hmem := List.mem_of_find?_eq_some hd
      exact Option.isSome_iff_exists.1 (List.find?_isSome.2 ⟨d, hmem, by simp⟩)
    obtain ⟨e, he⟩ := hin
    refine ⟨_, congrArg answer (writeTakeSel_of_found hv hd), ?_, ?_, ?_, ?_, que_frame ?_⟩
    · rw [queBank_follow, queBank_onDesc, queBank_onQueBank]
    · rw [queBank_follow, queBank_onDesc, queBank_onQueBank]
    · rw [queBank_follow, queBank_onDesc, queBank_onQueBank]
    · rw [descOf_follow, descOf_onDesc (d := e) (by rw [descOf_onQueBank, descOf_onQueBank]; exact he) (Desc.takenBy (.ofReader r)) fun _ => rfl]
      rfl
    · exact onQueBank_rest (u := onQueBank r (fun b => { b with takeSel := field v 0 6 }) s) r
        (fun b => { b with takeValid := true, taken := some d, takePtr := 0 }) (onQueBank_frame r _ s)
  case takeData =>
    refine ⟨_, rfl, ?_, que_frame (onQueBank_frame r _ s)⟩
    rw [queBank_follow]
    exact congrArg QueBank.takePtr (queBank_onQueBank r _ s)
  case ack =>
    refine ⟨_, congrArg answer (writeAck_of_retired hv hd ho hst), ?_, descOf_freeDesc _ _, que_frame ?_⟩
    · rw [queBank_follow, queBank_freeDesc, queBank_onQueBank]
    · have e := congrArg (fun z : State => { z with que := s.que }) (queBoundary_frame (onQue
        (fun e => { e with held := e.held.filter fun d => d.handle != field v 0 11 })
        (onQueBank r (fun b => { b with ackRefused := false }) (onQueBank r (fun b => { b with ack := field v 0 11 }) s))))
      exact e.trans (onQueBank_rest (u := onQueBank r (fun b => { b with ack := field v 0 11 }) s) r
        (fun b => { b with ackRefused := false }) (onQueBank_frame r _ s))

end Sys2Proof.Machine
end

section
/-! PROOFS. Errors, bus-off and recovery of the CAN ports (13_can_ports.md R348 to R350). -/

namespace Sys2Proof.Machine

/-! ### A port among the ports -/

theorem canPort_onCan_same {s : State} {p : Nat} (hp : 1 ≤ p) (hl : p ≤ s.can.length) (f : CanPort → CanPort) :
    canPort (onCan p f s) p = f (canPort s p) := by
  have h : p - 1 < s.can.length := by omega
  simp [canPort, onCan, List.getD_eq_getElem?_getD, h]

theorem onCan_can_length (p : Nat) (f : CanPort → CanPort) (s : State) : (onCan p f s).can.length = s.can.length := by
  simp [onCan]

/-- An update of one port changes a port by that update or not at all. -/
theorem canPort_onCan (q p : Nat) (f : CanPort → CanPort) (s : State) :
    canPort (onCan q f s) p = f (canPort s p) ∨ canPort (onCan q f s) p = canPort s p := by
  by_cases h : q - 1 = p - 1
  · by_cases hl : p - 1 < s.can.length
    · left
      simp [canPort, onCan, List.getD_eq_getElem?_getD, h, hl]
    · right
      simp [canPort, onCan, List.getD_eq_getElem?_getD, h, hl]
  · right
    simp [canPort, onCan, List.getD_eq_getElem?_getD, h]

/-- A port whose flags alone have grown. -/
structure CanPort.Grown (c d : CanPort) : Prop where
  same  : d = { c with flags := d.flags }
  flags : ∀ n, c.flags.getLsbD n = true → d.flags.getLsbD n = true

theorem CanPort.Grown.refl (c : CanPort) : c.Grown c := ⟨rfl, fun _ h => h⟩

theorem CanPort.Grown.trans {c d e : CanPort} (h : c.Grown d) (g : d.Grown e) : c.Grown e := by
  refine ⟨?_, fun n hn => g.flags n (h.flags n hn)⟩
  rw [g.same, h.same]

theorem CanPort.Grown.flagged (c : CanPort) (n : Nat) : c.Grown { c with flags := flag n c.flags } := ⟨rfl, fun _ h => flag_keeps n h⟩

/-- An update that leaves the flags to what they are keeps the growth. -/
theorem CanPort.Grown.onState {c d : CanPort} (h : c.Grown d) (st : CanState) :
    ({ c with st := st } : CanPort).Grown { d with st := st } := by
  obtain ⟨hs, hf⟩ := h
  exact ⟨by rw [hs], hf⟩

/-! ### Status entries and changes of the port's state -/

theorem fill_port (q : Nat) (f : CanFrame) (fl ts : Nat) (client : Option Nat) (s : State) (p : Nat) :
    (canPort s p).Grown (canPort (fill q f fl ts client s) p) := by
  unfold fill
  dsimp only
  split
  · exact .refl _
  · split
    · rcases canPort_onCan (queueAt s q).unit p (fun c => { c with flags := flag 2 c.flags })
        (onQue (fun e => { e with flags := flag 3 e.flags }) (onQueueAt q (fun x => { x with overflows := satInc 32 x.overflows }) s))
        with h | h
      · rw [h]
        exact .flagged _ 2
      · rw [h]
        exact .refl _
    · exact .refl _

theorem fill_can_length (q : Nat) (f : CanFrame) (fl ts : Nat) (client : Option Nat) (s : State) :
    (fill q f fl ts client s).can.length = s.can.length := by
  unfold fill
  dsimp only
  split
  · rfl
  · split
    · exact onCan_can_length _ _ _
    · rfl

theorem statusEntry_port (k e a b c : Nat) (s : State) (p : Nat) : (canPort s p).Grown (canPort (statusEntry k e a b c s) p) := by
  unfold statusEntry
  split
  · exact .refl _
  · exact fill_port _ _ _ _ _ s p

theorem statusEntry_can_length (k e a b c : Nat) (s : State) : (statusEntry k e a b c s).can.length = s.can.length := by
  unfold statusEntry
  split
  · rfl
  · exact fill_can_length _ _ _ _ _ s

section
variable {s : State} {p : Nat}

theorem canGo_can_length (q : Nat) (st : CanState) : (canGo q st s).can.length = s.can.length := by
  unfold canGo
  split
  · rfl
  · exact (statusEntry_can_length _ _ _ _ _ _).trans (onCan_can_length _ _ _)

variable (hp : 1 ≤ p) (hl : p ≤ s.can.length)
include hp hl

theorem canGo_port (st : CanState) : ({ canPort s p with st := st } : CanPort).Grown (canPort (canGo p st s) p) := by
  unfold canGo
  split
  · rename_i h
    rw [← h]
    exact .refl _
  · have h := statusEntry_port p 2 st.code 0 0 (onCan p (fun c => { c with st := st }) s) p
    rwa [canPort_onCan_same hp hl] at h

/-- A port on the bus stands in the state that its counts give it. -/
theorem canOnBus_port :
    ({ canPort s p with st := if 128 ≤ (canPort s p).tec ∨ 128 ≤ (canPort s p).rxec then .errorPassive else .errorActive } : CanPort).Grown
      (canPort (canOnBus p s) p) := by
  unfold canOnBus
  by_cases h : 128 ≤ (canPort s p).tec ∨ 128 ≤ (canPort s p).rxec
  · simp only [Bool.or_eq_true, decide_eq_true_eq, h, if_true]
    split
    · rename_i hs
      rw [← hs]
      exact .refl _
    · have hg := canGo_port hp hl .errorPassive
      refine hg.trans ?_
      have hc := canPort_onCan_same (s := canGo p .errorPassive s) hp (by rw [canGo_can_length]; exact hl)
        (fun c => { c with flags := flag 0 c.flags })
      rw [show canPort (raise .canErrorPassive .notice p 0 0 0 (onCan p (fun c => { c with flags := flag 0 c.flags })
        (canGo p .errorPassive s))) p = canPort (onCan p (fun c => { c with flags := flag 0 c.flags }) (canGo p .errorPassive s)) p from rfl, hc]
      exact .flagged _ 0
  · simp only [Bool.or_eq_true, decide_eq_true_eq, h, if_false]
    exact canGo_port hp hl .errorActive

end

theorem canOnBus_frame (p : Nat) (s : State) : { canOnBus p s with can := s.can, que := s.que, log := s.log } = s := by
  unfold canOnBus
  dsimp only
  split
  · split
    · rfl
    · rw [raise_frame]
      have e := congrArg (fun z : State => { z with can := s.can, que := s.que, log := s.log }) (canGo_frame p .errorPassive s)
      exact e
  · have e := congrArg (fun z : State => { z with log := s.log }) (canGo_frame p .errorActive s)
    exact e

/-- A command that changes the ports, the queues and the recorder alone shows that beside them. -/
theorem bus_frame {s u : State} (h : { u with can := s.can, que := s.que, log := s.log } = s) :
    ({ follow u with can := s.can, que := s.que, log := s.log } : State).rest = s.rest := by
  have e := congrArg (fun z : State => { z with can := s.rest.can, que := s.que, log := s.rest.log }) (follow_rest u)
  exact e.trans (congrArg State.rest h)

theorem busQuiet_frame {s u : State} (h : { u with can := s.can, que := s.que } = s) :
    ({ follow u with can := s.can, que := s.que } : State).rest = s.rest := by
  have e := congrArg (fun z : State => { z with can := s.rest.can, que := s.que }) (follow_rest u)
  exact e.trans (congrArg State.rest h)

theorem canPort_follow (s : State) (p : Nat) : canPort (follow s) p = canPort s p := rfl

/-! ### Error frames and bus-off -/

/-- A port with an error frame counted. -/
def CanPort.errored (e : CanErr) (c : CanPort) : CanPort :=
  { c with
    tec := c.tec + e.tecAdd, rxec := min (c.rxec + e.recAdd) 255, lastErr := e.code, lastData := e.inData
    flags := flag 9 c.flags
    counts := { c.counts with errFrames := satInc 32 c.counts.errFrames } }

/-- A port that has gone bus-off. -/
def CanPort.wentOff (mono : Nat) (c : CanPort) : CanPort :=
  { c with flags := flag 1 c.flags, offAt := mono, counts := { c.counts with busOffs := satInc 32 c.counts.busOffs } }

/-- The counted error with its status entry. -/
def errorNoted (p : Nat) (e : CanErr) (s : State) : State :=
  statusEntry p 1 e.code e.field (bit e.sending + 2 * bit e.inData) (onCan p (CanPort.errored e) s)

theorem errorFrame_of_onBus {s : State} {p : Nat} (h : (canPort s p).st.onBus = true) (e : CanErr) :
    errorFrame p e s =
      if 255 < (canPort (errorNoted p e s) p).tec then goBusOff p (errorNoted p e s) else canByCounts p (errorNoted p e s) := if_pos h

theorem errorNoted_frame (p : Nat) (e : CanErr) (s : State) : { errorNoted p e s with can := s.can, que := s.que } = s := by
  have h := congrArg (fun z : State => { z with can := s.can })
    (statusEntry_frame p 1 e.code e.field (bit e.sending + 2 * bit e.inData) (onCan p (CanPort.errored e) s))
  exact h

theorem errorNoted_port {s : State} {p : Nat} (hp : 1 ≤ p) (hl : p ≤ s.can.length) (e : CanErr) :
    ((canPort s p).errored e).Grown (canPort (errorNoted p e s) p) := by
  have h := statusEntry_port p 1 e.code e.field (bit e.sending + 2 * bit e.inData) (onCan p (CanPort.errored e) s) p
  rwa [canPort_onCan_same hp hl] at h

theorem errorNoted_can_length (p : Nat) (e : CanErr) (s : State) : (errorNoted p e s).can.length = s.can.length :=
  (statusEntry_can_length _ _ _ _ _ _).trans (onCan_can_length _ _ _)

/-- The pending entries of a port flagged, as it goes bus-off. -/
def offFlagged (p : Nat) (s : State) : State :=
  forAll (s.que.held.filter (pendingOn s p)) (fun d t => onDesc d.handle (fun d => { d with flags := d.flags ||| 2 }) t) s

/-- The bus-off port and its record. -/
def offNoted (p : Nat) (s : State) : State :=
  raise .canBusOff .fault p p (s.que.held.filter (pendingOn s p)).length (canPort (offFlagged p s) p).lastErr
    (canGo p .busOff (onCan p (CanPort.wentOff (offFlagged p s).mono) (offFlagged p s)))

theorem goBusOff_eq (p : Nat) (s : State) :
    goBusOff p s =
      if (canPort (offNoted p s) p).autoRecover then canGo p .recovering (offNoted p s)
      else onCan p (fun c => { c with waitRecover := true }) (offNoted p s) := rfl

theorem offFlagged_frame (p : Nat) (s : State) : { offFlagged p s with que := s.que } = s :=
  forAll_keeps (fun z : State => { z with que := s.que }) _
    (fun (d : Desc) t => onDesc d.handle (fun d => { d with flags := d.flags ||| 2 }) t) (fun _ _ => rfl) s

theorem offFlagged_reads (p : Nat) (s : State) :
    (offFlagged p s).can = s.can ∧ (offFlagged p s).mono = s.mono ∧ (offFlagged p s).log = s.log := by
  have h := offFlagged_frame p s
  have e1 := congrArg State.can h
  have e2 := congrArg State.mono h
  have e3 := congrArg State.log h
  exact ⟨e1, e2, e3⟩

theorem offNoted_frame (p : Nat) (s : State) : { offNoted p s with can := s.can, que := s.que, log := s.log } = s := by
  have hg := congrArg (fun z : State => { z with can := s.can, que := s.que, log := s.log })
    (canGo_frame p .busOff (onCan p (CanPort.wentOff (offFlagged p s).mono) (offFlagged p s)))
  have hf := congrArg (fun z : State => { z with can := s.can, log := s.log }) (offFlagged_frame p s)
  exact hg.trans hf

/-- What bus-off makes of a port. -/
theorem offNoted_port {s : State} {p : Nat} (hp : 1 ≤ p) (hl : p ≤ s.can.length) :
    ({ (canPort s p).wentOff s.mono with st := .busOff } : CanPort).Grown (canPort (offNoted p s) p) := by
  obtain ⟨hcan, hmono, -⟩ := offFlagged_reads p s
  have hport : canPort (offFlagged p s) p = canPort s p := by rw [canPort, canPort, hcan]
  have hl' : p ≤ (offFlagged p s).can.length := by rw [hcan]; exact hl
  have h := canGo_port (s := onCan p (CanPort.wentOff (offFlagged p s).mono) (offFlagged p s)) hp
    (by rw [onCan_can_length]; exact hl') .busOff
  rw [canPort_onCan_same hp hl', hport, hmono] at h
  rw [offNoted, hmono]
  exact h

theorem offNoted_log {s : State} {p : Nat} :
    (offNoted p s).log =
      (raise .canBusOff .fault p p (s.que.held.filter (pendingOn s p)).length (canPort s p).lastErr s).log := by
  obtain ⟨hcan, hmono, hlog⟩ := offFlagged_reads p s
  have hport : canPort (offFlagged p s) p = canPort s p := by rw [canPort, canPort, hcan]
  have hg := canGo_frame p .busOff (onCan p (CanPort.wentOff (offFlagged p s).mono) (offFlagged p s))
  have h1 := congrArg State.log hg
  have h2 := congrArg State.mono hg
  rw [← hport]
  exact raise_log _ _ _ _ _ _ _ _ (h1.trans hlog) (h2.trans hmono)

theorem goBusOff_frame (p : Nat) (s : State) : { goBusOff p s with can := s.can, que := s.que, log := s.log } = s := by
  rw [goBusOff_eq]
  split
  · have e := congrArg (fun z : State => { z with can := s.can, que := s.que, log := s.log }) (canGo_frame p .recovering (offNoted p s))
    exact e.trans (offNoted_frame p s)
  · have e := congrArg (fun z : State => { z with can := s.can }) (offNoted_frame p s)
    exact e

theorem offNoted_can_length (p : Nat) (s : State) : (offNoted p s).can.length = s.can.length := by
  have h : (offNoted p s).can.length = (onCan p (CanPort.wentOff (offFlagged p s).mono) (offFlagged p s)).can.length := canGo_can_length p .busOff
  rw [h, onCan_can_length, (offFlagged_reads p s).1]

/-- A port past a TEC of 255: it recovers at once, or waits for RECOVER. -/
theorem goBusOff_port {s : State} {p : Nat} (hp : 1 ≤ p) (hl : p ≤ s.can.length) :
    ∃ w, ({ (canPort s p).wentOff s.mono with
      st := if (canPort s p).autoRecover then .recovering else .busOff, waitRecover := w } : CanPort).Grown (canPort (goBusOff p s) p) := by
  have h := offNoted_port hp hl
  have hl' : p ≤ (offNoted p s).can.length := by rw [offNoted_can_length]; exact hl
  have ha : (canPort (offNoted p s) p).autoRecover = (canPort s p).autoRecover := by rw [h.same]; rfl
  rw [goBusOff_eq, ha]
  cases (canPort s p).autoRecover with
  | true => exact ⟨_, (h.onState .recovering).trans (canGo_port hp hl' .recovering)⟩
  | false =>
    refine ⟨true, ?_⟩
    simp only [Bool.false_eq_true, if_false]
    rw [canPort_onCan_same hp hl']
    exact ⟨by rw [h.same], h.flags⟩

theorem goBusOff_log (p : Nat) (s : State) :
    (goBusOff p s).log = (raise .canBusOff .fault p p (s.que.held.filter (pendingOn s p)).length (canPort s p).lastErr s).log := by
  rw [goBusOff_eq, ← offNoted_log]
  split
  · have e := congrArg State.log (canGo_frame p .recovering (offNoted p s))
    exact e
  · rfl

/-! ### What is pending beside a status entry -/

theorem fill_pending (q : Nat) (f : CanFrame) (fl ts : Nat) (client : Option Nat) (s : State) (p : Nat) :
    (fill q f fl ts client s).que.held.filter (pendingOn (fill q f fl ts client s) p) = s.que.held.filter (pendingOn s p) := by
  have hq : ∀ k, (queueAt (onQueueAt q (fun x => { x with overflows := satInc 32 x.overflows }) s) k).user = (queueAt s k).user ∧
      (queueAt (onQueueAt q (fun x => { x with overflows := satInc 32 x.overflows }) s) k).unit = (queueAt s k).unit := by
    intro k
    by_cases hk : q = k
    · subst hk
      cases h : s.que.queues[q]? <;> simp [queueAt, onQueueAt, List.getD_eq_getElem?_getD, h]
    · simp [queueAt, onQueueAt, List.getD_eq_getElem?_getD, hk]
  have hover : pendingOn (onQueueAt q (fun x => { x with overflows := satInc 32 x.overflows }) s) p = pendingOn s p := by
    funext d
    rw [pendingOn, pendingOn, (hq d.queue).1, (hq d.queue).2]
  unfold fill
  dsimp only
  split
  · exact (List.filter_append ..).trans (by
      rw [show ([_] : List Desc).filter _ = [] from rfl, List.append_nil]
      rfl)
  · split
    · exact congrArg (fun g => s.que.held.filter g) hover
    · exact congrArg (fun g => s.que.held.filter g) hover

theorem statusEntry_pending (k e a b c : Nat) (s : State) (p : Nat) :
    (statusEntry k e a b c s).que.held.filter (pendingOn (statusEntry k e a b c s) p) = s.que.held.filter (pendingOn s p) := by
  unfold statusEntry
  split
  · rfl
  · exact fill_pending _ _ _ _ _ s p

/-! ### Builds (R341) -/

/-- A port beside what a build changes: its definitions and the count of replaced entries. -/
def CanPort.besideBuilds (c : CanPort) : CanPort := { c with defs := [], counts := { c.counts with replaced := 0 } }

/-- The state beside what a build changes: the ports' definitions, that count, and the queues. -/
def State.besideBuilds (s : State) : State := { s with can := s.can.map CanPort.besideBuilds, que := State.reset.que }

theorem onCan_besideBuilds (p : Nat) (f : CanPort → CanPort) (hf : ∀ c, (f c).besideBuilds = c.besideBuilds) (s : State) :
    (onCan p f s).besideBuilds = s.besideBuilds := by
  have h : (s.can.modify (p - 1) f).map CanPort.besideBuilds = s.can.map CanPort.besideBuilds := by
    have hg : CanPort.besideBuilds ∘ f = CanPort.besideBuilds := funext hf
    apply List.ext_getElem?
    intro i
    by_cases hi : p - 1 = i
    · subst hi
      simp [hg]
    · simp [hi]
  simp only [State.besideBuilds, onCan, h]

theorem onCanDef_besideBuilds (p d : Nat) (f : CanDef → CanDef) (s : State) : (onCanDef p d f s).besideBuilds = s.besideBuilds :=
  onCan_besideBuilds p _ (by intro c; rfl) s

theorem queueOf_user {s : State} {u n r q : Nat} (h : queueOf s u n r = some q) : (queueAt s q).user = u := by
  have hq := List.find?_some h
  simp only [Bool.and_eq_true, beq_iff_eq] at hq
  exact hq.1.1

/-- An enqueue in a port's queue changes the queues alone. -/
theorem enqueue_can_frame {s : State} {q : Nat} (hu : (queueAt s q).user = userCan) (owner : Requester) (f : CanFrame) (exp : Option Nat)
    (one : Bool) (defn : Option (Nat × Nat)) (client : Option Nat) :
    { (enqueue owner q f exp one defn client s).2.2 with que := s.que } = s := by
  have hoff : ∀ l, (serialOff (onQue (fun e => { e with held := l }) s) q || hartOff (onQue (fun e => { e with held := l }) s) q) = false := by
    intro l
    have hq : queueAt (onQue (fun e => { e with held := l }) s) q = queueAt s q := rfl
    simp [serialOff, hartOff, hq, hu, userCan, userSerial, userHart]
  have hlive : ∀ u : State, (serialOff u q || hartOff u q) = false →
      ({ (if (serialOff u q || hartOff u q) = true then retire (freeHandle s) retPortOff none u else u) with que := s.que } : State) =
        { u with que := s.que } := by
    intro u hu
    rw [hu]
    rfl
  unfold enqueue
  dsimp only
  split
  · rfl
  · split
    · exact (hlive _ (hoff _)).trans rfl
    · rfl

theorem enqueue_can_besideBuilds {s : State} {q : Nat} (hu : (queueAt s q).user = userCan) (owner : Requester) (f : CanFrame)
    (exp : Option Nat) (one : Bool) (defn : Option (Nat × Nat)) (client : Option Nat) :
    (enqueue owner q f exp one defn client s).2.2.besideBuilds = s.besideBuilds := by
  have e := congrArg State.besideBuilds (enqueue_can_frame hu owner f exp one defn client)
  exact e

theorem enqueueBuild_besideBuilds (p : Nat) (d : CanDef) (data : List Byte) (exp : Option Nat) (one : Bool) (s : State) :
    (enqueueBuild p d data exp one s).besideBuilds = s.besideBuilds := by
  unfold enqueueBuild
  split
  · rfl
  · rename_i q hq
    have he := enqueue_can_besideBuilds (queueOf_user hq) .program (defFrame d data) exp one (some (p, d.num)) none
    dsimp only
    split
    · exact he
    · exact (onCan_besideBuilds p _ (by intro c; rfl) _).trans he

theorem onDesc_besideBuilds (h : Nat) (f : Desc → Desc) (s : State) : (onDesc h f s).besideBuilds = s.besideBuilds := rfl

theorem buildDef_besideBuilds (p : Nat) (d : CanDef) (one : Bool) (s : State) : (buildDef p d one s).besideBuilds = s.besideBuilds := by
  unfold buildDef
  dsimp only
  split
  · split
    · exact (onCan_besideBuilds p _ (by intro c; rfl) _).trans ((onDesc_besideBuilds _ _ _).trans (onCanDef_besideBuilds _ _ _ s))
    · exact (onCanDef_besideBuilds _ _ _ _).trans (onCanDef_besideBuilds _ _ _ s)
  · exact (enqueueBuild_besideBuilds _ _ _ _ _ _).trans (onCanDef_besideBuilds _ _ _ s)

/-- A window's builds change no more than builds do, and its own book fields. -/
theorem windowBuilds_besideBuilds (p w : Nat) (s : State) :
    (windowBuilds p w s).besideBuilds = (onBook p (fun b => { b with
      window := w, inWin := true
      scheduled := (scheduledIn (canPort s p).book (canPort s p).book.cycle w).map fun d => (w, d) }) s).besideBuilds := by
  unfold windowBuilds
  dsimp only
  refine forAll_keeps State.besideBuilds _ _ (fun d t => ?_) _
  split
  · rfl
  · exact buildDef_besideBuilds _ _ _ t

section
variable {s u : State} (h : u.besideBuilds = s.besideBuilds)
include h

theorem canPort_of_besideBuilds (p : Nat) : (canPort u p).besideBuilds = (canPort s p).besideBuilds := by
  have e := congrArg (fun z : State => z.can.getD (p - 1) (CanPort.besideBuilds {})) h
  simp only [State.besideBuilds, getD_map] at e
  exact e

theorem can_length_of_besideBuilds : u.can.length = s.can.length := by
  have e := congrArg (fun z : State => z.can.length) h
  simpa [State.besideBuilds] using e

theorem frame_of_besideBuilds : { u with can := s.can, que := s.que } = s := by
  have e := congrArg (fun z : State => { z with can := s.can, que := s.que }) h
  exact e

end

/-- The port as recovery ends. -/
def CanPort.cleared (mono : Nat) (c : CanPort) : CanPort := { c with tec := 0, rxec := 0, book := { c.book with listenAt := mono } }

/-- The end of recovery and its record. -/
def recoveredNoted (p : Nat) (s : State) : State :=
  raise .canRecovered .notice p 0 ((s.mono - (canPort s p).offAt) / 1000) 0 (canGo p .errorActive (onCan p (CanPort.cleared s.mono) s))

theorem portRecovered_of_recovering {s : State} {p : Nat} (h : (canPort s p).st = .recovering) :
    portRecovered p s =
      if exclusiveOpen (recoveredNoted p s) p then
        windowBuilds p (canPort (recoveredNoted p s) p).book.window (recoveredNoted p s)
      else recoveredNoted p s := if_pos h

theorem recoveredNoted_kept {s : State} {p : Nat} (hp : 1 ≤ p) (hl : p ≤ s.can.length) :
    (canPort (recoveredNoted p s) p).st = .errorActive ∧ (canPort (recoveredNoted p s) p).tec = 0 ∧
      (canPort (recoveredNoted p s) p).rxec = 0 ∧
      (recoveredNoted p s).log = (raise .canRecovered .notice p 0 ((s.mono - (canPort s p).offAt) / 1000) 0 s).log ∧
      { recoveredNoted p s with can := s.can, que := s.que, log := s.log } = s ∧ (recoveredNoted p s).can.length = s.can.length := by
  have hl' : p ≤ (onCan p (CanPort.cleared s.mono) s).can.length := by rw [onCan_can_length]; exact hl
  have hg := canGo_port hp hl' .errorActive
  rw [canPort_onCan_same hp hl] at hg
  have hfr := congrArg (fun z : State => { z with can := s.can }) (canGo_frame p .errorActive (onCan p (CanPort.cleared s.mono) s))
  have hlog := congrArg State.log hfr
  have hmono := congrArg State.mono hfr
  have hport : canPort (recoveredNoted p s) p = canPort (canGo p .errorActive (onCan p (CanPort.cleared s.mono) s)) p := rfl
  refine ⟨by rw [hport, hg.same], by rw [hport, hg.same]; rfl, by rw [hport, hg.same]; rfl, ?_, ?_, ?_⟩
  · exact raise_log _ _ _ _ _ _ _ _ hlog hmono
  · have e := congrArg (fun z : State => { z with log := s.log }) hfr
    exact e
  · exact (canGo_can_length p .errorActive).trans (onCan_can_length p _ s)

/-- The builds of a window that is open leave the counts and the state of the port. -/
theorem windowBuilds_port {s : State} {p : Nat} (hp : 1 ≤ p) (hl : p ≤ s.can.length) (w : Nat) :
    (canPort (windowBuilds p w s) p).st = (canPort s p).st ∧ (canPort (windowBuilds p w s) p).tec = (canPort s p).tec ∧
      (canPort (windowBuilds p w s) p).rxec = (canPort s p).rxec ∧ (canPort (windowBuilds p w s) p).flags = (canPort s p).flags ∧
      (canPort (windowBuilds p w s) p).book = { (canPort s p).book with
        window := w, inWin := true
        scheduled := (scheduledIn (canPort s p).book (canPort s p).book.cycle w).map fun d => (w, d) } ∧
      { windowBuilds p w s with can := s.can, que := s.que } = s := by
  have h := windowBuilds_besideBuilds p w s
  have hc := canPort_of_besideBuilds h p
  have hfr := frame_of_besideBuilds h
  have hb : ∀ f, canPort (onBook p f s) p = { canPort s p with book := f (canPort s p).book } := fun f => canPort_onCan_same hp hl _
  rw [hb] at hc
  have h1 := congrArg CanPort.st hc
  have h2 := congrArg CanPort.tec hc
  have h3 := congrArg CanPort.rxec hc
  have h4 := congrArg CanPort.flags hc
  have h5 := congrArg CanPort.book hc
  have h6 := congrArg (fun z : State => { z with can := s.can }) hfr
  exact ⟨h1, h2, h3, h4, h5, h6⟩

/-- Settles O16: the port's state and counts through the status entries, which add nothing to them. -/
theorem errorsBusOffAndRecovery : Obligations.ErrorsBusOffAndRecovery := by
  unfold Obligations.ErrorsBusOffAndRecovery
  intro s p hp hl
  refine ⟨fun e hb => ?error, fun hs hw => ?recover, fun hs => ?recovered, fun hs => ?integrated⟩
  case error =>
    have hn := errorNoted_port hp hl e
    have hnl : p ≤ (errorNoted p e s).can.length := by rw [errorNoted_can_length]; exact hl
    have hfr := errorNoted_frame p e s
    generalize hv : errorNoted p e s = v at *
    have hw := errorFrame_of_onBus hb e
    rw [hv] at hw
    have htec : (canPort v p).tec = (canPort s p).tec + e.tecAdd := by rw [hn.same]; rfl
    have hrx : (canPort v p).rxec = min ((canPort s p).rxec + e.recAdd) 255 := by rw [hn.same]; rfl
    have hlast : (canPort v p).lastErr = e.code := by rw [hn.same]; rfl
    have herr : (canPort v p).counts = { (canPort s p).counts with errFrames := satInc 32 (canPort s p).counts.errFrames } := by
      rw [hn.same]
      rfl
    have hauto : (canPort v p).autoRecover = (canPort s p).autoRecover := by rw [hn.same]; rfl
    have hst : (canPort v p).st = (canPort s p).st := by rw [hn.same]; rfl
    have h9 : (canPort v p).flags.getLsbD 9 = true := hn.flags 9 (setBit_get _ 9 (by decide))
    have hlog := congrArg State.log hfr
    have hmono := congrArg State.mono hfr
    have hpend : v.que.held.filter (pendingOn v p) = s.que.held.filter (pendingOn s p) := by
      rw [← hv]
      exact statusEntry_pending _ _ _ _ _ (onCan p (CanPort.errored e) s) p
    by_cases hoff : 255 < (canPort v p).tec
    · rw [if_pos hoff] at hw
      obtain ⟨w, hg⟩ := goBusOff_port hp hnl
      have hfr' : { goBusOff p v with can := s.can, que := s.que, log := s.log } = s := by
        have e1 := congrArg (fun z : State => { z with can := s.can, que := s.que, log := s.log }) (goBusOff_frame p v)
        have e2 := congrArg (fun z : State => { z with log := s.log }) hfr
        exact e1.trans e2
      refine ⟨_, congrArg answer hw, ?_, ?_, ?_, hg.flags 9 (flag_keeps 1 h9), ?_, fun _ => ⟨?_, ?_, ?_, ?_, ?_⟩, fun h => absurd hoff ?_, bus_frame hfr'⟩
      · rw [canPort_follow, hg.same]
        exact htec
      · rw [canPort_follow, hg.same]
        exact hrx
      · rw [canPort_follow, hg.same]
        exact hlast
      · rw [canPort_follow, hg.same]
        exact congrArg CanCounts.errFrames herr
      · rw [canPort_follow, hg.same, ← hauto]
      · exact hg.flags 1 (setBit_get _ 1 (by decide))
      · rw [canPort_follow, hg.same]
        exact hmono
      · rw [canPort_follow, hg.same]
        exact (congrArg (fun c : CanCounts => satInc 32 c.busOffs) herr).trans rfl
      · rw [follow_log, goBusOff_log, hpend, hlast]
        exact raise_log _ _ _ _ _ _ _ _ hlog hmono
      · omega
    · rw [if_neg hoff, canByCounts, if_pos (by rw [hst]; exact hb)] at hw
      have hg := canOnBus_port hp hnl
      have hfr' : { canOnBus p v with can := s.can, que := s.que, log := s.log } = s := by
        have e1 := congrArg (fun z : State => { z with can := s.can, que := s.que, log := s.log }) (canOnBus_frame p v)
        have e2 := congrArg (fun z : State => { z with log := s.log }) hfr
        exact e1.trans e2
      refine ⟨_, congrArg answer hw, ?_, ?_, ?_, hg.flags 9 h9, ?_, fun h => absurd (htec ▸ h) hoff, fun _ => ?_, bus_frame hfr'⟩
      · rw [canPort_follow, hg.same]
        exact htec
      · rw [canPort_follow, hg.same]
        exact hrx
      · rw [canPort_follow, hg.same]
        exact hlast
      · rw [canPort_follow, hg.same]
        exact congrArg CanCounts.errFrames herr
      · rw [canPort_follow, hg.same]
        dsimp only
        split <;> rfl
  case recover =>
    have hr : recoverPort p s = canGo p .recovering (onCan p (fun c => { c with waitRecover := false }) s) := if_pos ⟨hs, hw⟩
    have hg := canGo_port (s := onCan p (fun c => { c with waitRecover := false }) s) hp (by rw [onCan_can_length]; exact hl) .recovering
    rw [canPort_onCan_same hp hl] at hg
    refine ⟨_, congrArg answer hr, ?_, ?_, busQuiet_frame ?_⟩
    · rw [canPort_follow, hg.same]
    · rw [canPort_follow, hg.same]
    · have e := congrArg (fun z : State => { z with can := s.can })
        (canGo_frame p .recovering (onCan p (fun c => { c with waitRecover := false }) s))
      exact e
  case recovered =>
    obtain ⟨kst, ktec, krx, klog, kfr, klen⟩ := recoveredNoted_kept hp hl
    have hw := portRecovered_of_recovering hs
    generalize recoveredNoted p s = v at *
    by_cases hx : exclusiveOpen v p = true
    · rw [if_pos hx] at hw
      obtain ⟨bst, btec, brx, -, -, bfr⟩ := windowBuilds_port (s := v) hp (klen ▸ hl) (canPort v p).book.window
      have hlog := congrArg State.log bfr
      have e := congrArg (fun z : State => { z with can := s.can, que := s.que, log := s.log }) bfr
      exact ⟨_, congrArg answer hw, bst.trans kst, btec.trans ktec, brx.trans krx, Eq.trans hlog klog, bus_frame (e.trans kfr)⟩
    · rw [if_neg hx] at hw
      exact ⟨_, congrArg answer hw, kst, ktec, krx, klog, bus_frame kfr⟩
  case integrated =>
    have hr : portIntegrated p s = canOnBus p (onCan p (fun c => { c with afterException := false, book := { c.book with listenAt := s.mono } }) s) :=
      if_pos hs
    have hg := canOnBus_port (s := onCan p (fun c => { c with afterException := false, book := { c.book with listenAt := s.mono } }) s)
      hp (by rw [onCan_can_length]; exact hl)
    rw [canPort_onCan_same hp hl] at hg
    refine ⟨_, congrArg answer hr, ?_, ?_, bus_frame ?_⟩
    · rw [canPort_follow, hg.same]
    · rw [canPort_follow, hg.same]
    · have e := congrArg (fun z : State => { z with can := s.can })
        (canOnBus_frame p (onCan p (fun c => { c with afterException := false, book := { c.book with listenAt := s.mono } }) s))
      exact e

end Sys2Proof.Machine
end

section
/-! PROOFS. Attempts on the bus and their ends, and a reception at a port whose counts and state disagree (13_can_ports.md R337 to R343, R348). -/

namespace Sys2Proof.Machine

/-! ### A reception that reports an error-passive port -/

/-- A module whose port 1 stands error active with a TEC of 200, without definitions and filters. -/
def activeAt200 : State := { State.reset with can := [{ st := .errorActive, tec := 200 }] }

/-- A classical data frame without data. -/
def emptyFrame : CanRx := { frame := { format := 0, id := 5, length := 0, data := [] }, reserved := false, esi := false, sofAt := 0 }

theorem activeAt200_records :
    (match exec (.canFrameReceived 1 emptyFrame) activeAt200 with
      | .next t => t.log.nextSeq
      | _ => 0) = activeAt200.log.nextSeq + 1 := by
  rfl

/-- Refutes O14: a port that is error active with a TEC past 127 goes error passive as an unmatched frame arrives, and the recorder takes
CAN_ERROR_PASSIVE. -/
theorem not_framesAreReceived : ¬ Obligations.FramesAreReceived := by
  unfold Obligations.FramesAreReceived
  intro h
  obtain ⟨-, hrx, -⟩ := h activeAt200 1 emptyFrame (by decide) (by decide) rfl
  obtain ⟨hnone, -⟩ := hrx rfl rfl rfl
  obtain ⟨t, ht, -, -, -, hrest⟩ := (hnone rfl).2 rfl
  have hlog := congrArg (fun z : State => z.log.nextSeq) hrest
  have hrec := activeAt200_records
  rw [ht] at hrec
  have hsame : t.log.nextSeq = activeAt200.log.nextSeq := hlog
  have hmore : t.log.nextSeq = activeAt200.log.nextSeq + 1 := hrec
  omega

/-! ### Retirements beside the ports -/

/-- A retirement changes the queues, and the transactions and lines that waited for the descriptor. -/
theorem retire_frame (h result : Nat) (reply : Option (List Byte)) (s : State) (a : Ana) (x : Ser) (q : Que) :
    { retire h result reply s with que := q, ana := a, ser := x } = { s with que := q, ana := a, ser := x } := by
  have hdrop : ({ dropAttempt h s with que := q, ana := a, ser := x } : State) = { s with que := q, ana := a, ser := x } := rfl
  unfold retire
  dsimp only
  split
  · exact hdrop
  · split_ifs
    · exact hdrop
    · have e := congrArg (fun z : State => { z with que := q, ana := a, ser := x })
        (queBoundary_frame (onQue (fun e => { e with held := e.held.filter fun d => d.handle != h }) (dropAttempt h s)))
      exact e
    · exact hdrop

theorem retireEach_frame (l : List Desc) (result : Nat) (s : State) (a : Ana) (x : Ser) (q : Que) :
    { forAll l (fun d t => retire d.handle result none t) s with que := q, ana := a, ser := x } = { s with que := q, ana := a, ser := x } :=
  forAll_keeps (fun z : State => { z with que := q, ana := a, ser := x }) l (fun (d : Desc) t => retire d.handle result none t)
    (fun d t => retire_frame d.handle result none t a x q) s

/-! ### Arbitration (R337, R339) -/

theorem arbitrate_of_best {s : State} {p : Nat} {cancels : List Nat} {d : Desc} (hb : (canPort s p).st.onBus = true)
    (ht : canTxAllowed s = true) (hl : (canPort s p).listen = false) (hn : (canPort s p).onBus = none)
    (hd : bestEntry s (windowType (canPort s p) != 2) ((offers s p (ntuNow s p)).filter fun x => !cancels.contains x.handle) = some d)
    (own : Bool) : arbitrate p cancels own s = startAttempt p d (cancelPending p cancels none s) := by
  unfold arbitrate
  simp only [hb, ht, hl, hn, hd, Option.isNone_none, Bool.not_false, Bool.and_self, if_true]

theorem startAttempt_held (p : Nat) (d : Desc) (s : State) :
    ∀ e ∈ (startAttempt p d s).que.held, e.handle = d.handle → e.st = .attempt := by
  intro e he hh
  obtain ⟨x, -, rfl⟩ := List.mem_map.1 (he : e ∈ s.que.held.map fun x => if x.handle = d.handle then { x with st := .attempt } else x)
  by_cases hx : x.handle = d.handle
  · simp [hx]
  · rw [if_neg hx] at hh
    exact absurd hh hx

/-! ### The end of an attempt (R338 to R340) -/

/-- What a port counts of a frame that it has sent. -/
def CanPort.sentOne (d : Desc) (measured : Nat) (c : CanPort) : CanPort :=
  { c with
    tec := c.tec - 1
    measFd := if d.frame.format % 4 = 1 ∧ d.frame.format.testBit 3 then measured else c.measFd
    measXl := if d.frame.format % 4 = 2 then measured else c.measXl
    counts := { c.counts with txOk := satInc 32 c.counts.txOk }
    flags := if d.cancel then flag 7 c.flags else c.flags }

/-- The port's frame is off the bus. -/
def offBus (p : Nat) (s : State) : State := onCan p (fun c => { c with onBus := none }) s

/-- A sent entry with the mark of a cancel that came too late. -/
def sentFlagged (h : Nat) (d : Desc) (s : State) : State :=
  if d.cancel then onDesc h (fun d => { d with flags := d.flags ||| 1 }) s else s

/-- The frame gone out, with the port's counts. -/
def sentOut (p h : Nat) (d : Desc) (measured : Nat) (s : State) : State :=
  sendCan p h d.frame ((canPort s p).st == .errorPassive && d.frame.format % 4 == 1) (onCan p (CanPort.sentOne d measured) (offBus p s))

/-- The book of a port without what it had scheduled of a definition. -/
def Book.without (p : Nat) (d : Desc) (b : Book) : Book := { b with scheduled := b.scheduled.filter fun x => d.defn != some (p, x.2) }

/-- The state in which a sent entry retires: the port counted, the frame gone out, and the book's schedule without it. -/
def sentNoted (p h : Nat) (d : Desc) (measured : Nat) (s : State) : State :=
  onBook p (Book.without p d) (sentFlagged h d (sentOut p h d measured s))

theorem waitingBuild_of_none (p : Nat) {d : Desc} (hd : d.defn = none) (ok : Bool) (s : State) : waitingBuild p d ok s = s := by
  rw [waitingBuild, hd]

section
variable {s : State} {p h : Nat} {d : Desc} (hb : (canPort s p).onBus = some h) (hd : descOf s h = some d) (hn : d.defn = none)
include hb hd hn

theorem txDone_of_sent (measured : Nat) :
    txDone p .sent measured s = canByCounts p (retire h retSent none (sentNoted p h d measured s)) := by
  have hd' : descOf (onCan p (fun c => { c with onBus := none }) s) h = some d := hd
  simp only [txDone, hb, hd']
  exact waitingBuild_of_none p hn true _

end

/-- How an attempt ends that lost the arbitration or failed, for an entry without a definition. -/
def lostEnd (p h : Nat) (d : Desc) (st : CanState) (s : State) : State :=
  if d.cancel then retire h retCancelledAfter none s
  else if (match d.expiry with
    | none => false
    | some t => decide (t ≤ s.mono)) = true then
    retire h retExpired none (onCan p (fun c => { c with flags := flag 8 c.flags }) s)
  else if !takesCommands s then retire h retRoleLost none s
  else if d.oneShot then retire h (if bookEntry s p d then retWindowMissed else retSingleShot) none s
  else
    onDesc h (fun e => { e with st := .pending, flags :=
      if st = .busOff || st = .recovering then e.flags ||| 2 else e.flags }) s

theorem txDone_of_lost {s : State} {p h : Nat} {d : Desc} (hb : (canPort s p).onBus = some h) (hd : descOf s h = some d) (hn : d.defn = none)
    {e : TxEnd} (he : e = .lost ∨ e = .error) (measured : Nat) : txDone p e measured s = lostEnd p h d (canPort s p).st (offBus p s) := by
  have hd' : descOf (onCan p (fun c => { c with onBus := none }) s) h = some d := hd
  rcases he with rfl | rfl
  · simp only [txDone, hb, hd', waitingBuild_of_none p hn]
    rfl
  · simp only [txDone, hb, hd', waitingBuild_of_none p hn]
    rfl

/-! ### What the ends leave -/

section
variable {s : State} {h : Nat} {d : Desc}

/-- A live entry of a program or of the plant, once retired. -/
theorem descOf_retire (hd : descOf s h = some d) (ho : d.owner ≠ .program) (hst : d.st = .pending ∨ d.st = .attempt) (result : Nat) :
    (descOf (retire h result none s) h).map (fun e => (e.st, e.result, e.ts)) = some (.retired, result, s.mono) := by
  have hd' : descOf (dropAttempt h s) h = some d := hd
  rw [retire_of_live result none hd ho hst, descOf_onDesc hd' (Desc.retiredWith result s.mono none) fun _ => rfl]
  rfl

end

/-- A descriptor that is held stays the first of its handle as others join behind it. -/
theorem descOf_append {s u : State} {h : Nat} {d : Desc} {l : List Desc} (hd : descOf s h = some d) (hu : u.que.held = s.que.held ++ l) :
    descOf u h = some d := by
  have hd' : s.que.held.find? (fun d => d.handle == h) = some d := hd
  rw [descOf, hu, List.find?_append, hd']
  rfl

theorem fill_held (q : Nat) (f : CanFrame) (fl ts : Nat) (client : Option Nat) (s : State) :
    ∃ l, (fill q f fl ts client s).que.held = s.que.held ++ l := by
  unfold fill
  dsimp only
  split
  · exact ⟨_, rfl⟩
  · split <;> exact ⟨[], (List.append_nil _).symm⟩

theorem statusEntry_held (k e a b c : Nat) (s : State) : ∃ l, (statusEntry k e a b c s).que.held = s.que.held ++ l := by
  unfold statusEntry
  split
  · exact ⟨[], (List.append_nil _).symm⟩
  · exact fill_held _ _ _ _ _ s

theorem canGo_held (p : Nat) (st : CanState) (s : State) : ∃ l, (canGo p st s).que.held = s.que.held ++ l := by
  unfold canGo
  split
  · exact ⟨[], (List.append_nil _).symm⟩
  · exact statusEntry_held _ _ _ _ _ _

theorem canByCounts_held (p : Nat) (s : State) : ∃ l, (canByCounts p s).que.held = s.que.held ++ l := by
  unfold canByCounts canOnBus
  dsimp only
  split
  · split
    · split
      · exact ⟨[], (List.append_nil _).symm⟩
      · exact canGo_held _ _ s
    · exact canGo_held _ _ s
  · exact ⟨[], (List.append_nil _).symm⟩

theorem canByCounts_frame (p : Nat) (s : State) : { canByCounts p s with can := s.can, que := s.que, log := s.log } = s := by
  unfold canByCounts
  split
  · exact canOnBus_frame p s
  · rfl

/-- The counts' state leaves all of a port but its state and flags. -/
theorem canByCounts_port {s : State} {p : Nat} (hp : 1 ≤ p) (hl : p ≤ s.can.length) :
    ∃ st, ({ canPort s p with st := st } : CanPort).Grown (canPort (canByCounts p s) p) := by
  unfold canByCounts
  split
  · exact ⟨_, canOnBus_port hp hl⟩
  · exact ⟨_, .refl _⟩

theorem retire_can (h result : Nat) (s : State) : (retire h result none s).can = s.can := by
  have e := congrArg (fun z : State => z.can) (retire_frame h result none s s.ana s.ser s.que)
  exact e

theorem retire_sent (h result : Nat) (s : State) : (retire h result none s).sent = s.sent := by
  have e := congrArg (fun z : State => z.sent) (retire_frame h result none s s.ana s.ser s.que)
  exact e

theorem canPort_retire (h result : Nat) (s : State) (q : Nat) : canPort (retire h result none s) q = canPort s q := by
  rw [canPort, canPort, retire_can]

section
variable {s : State} {p h : Nat} {d : Desc} (hp : 1 ≤ p) (hl : p ≤ s.can.length)
include hp hl

theorem canPort_offBus : canPort (offBus p s) p = { canPort s p with onBus := none } := canPort_onCan_same hp hl _

omit hp hl in
theorem sentFlagged_frame (q : Que) : { sentFlagged h d s with que := q } = { s with que := q } := by
  unfold sentFlagged
  split <;> rfl

omit hp hl in
theorem sentFlagged_reads : (sentFlagged h d s).can = s.can ∧ (sentFlagged h d s).sent = s.sent ∧ (sentFlagged h d s).mono = s.mono := by
  have hf := sentFlagged_frame (s := s) (h := h) (d := d) s.que
  have e1 := congrArg State.can hf
  have e2 := congrArg State.sent hf
  have e3 := congrArg State.mono hf
  exact ⟨e1, e2, e3⟩

omit hp hl in
theorem sentOut_reads (measured : Nat) :
    (sentOut p h d measured s).mono = s.mono ∧ (sentOut p h d measured s).can.length = s.can.length ∧
      (sentOut p h d measured s).sent =
        { kind := .can, unit := p, num := h, body := d.frame.data,
          can := some (d.frame, (canPort s p).st == .errorPassive && d.frame.format % 4 == 1) } :: s.sent :=
  ⟨rfl, (onCan_can_length _ _ _).trans (onCan_can_length _ _ s), rfl⟩

theorem sentOut_port (measured : Nat) :
    canPort (sentOut p h d measured s) p = { (canPort s p).sentOne d measured with onBus := none } := by
  have h1 := canPort_onCan_same (s := offBus p s) hp (by rw [offBus, onCan_can_length]; exact hl) (CanPort.sentOne d measured)
  rw [canPort_offBus hp hl] at h1
  exact h1

theorem sentNoted_port (measured : Nat) :
    canPort (sentNoted p h d measured s) p =
      { (canPort s p).sentOne d measured with onBus := none, book := (canPort s p).book.without p d } := by
  obtain ⟨hcan, -, -⟩ := sentFlagged_reads (s := sentOut p h d measured s) (h := h) (d := d)
  obtain ⟨-, hlen, -⟩ := sentOut_reads (s := s) (p := p) (h := h) (d := d) measured
  have hb := canPort_onCan_same (s := sentFlagged h d (sentOut p h d measured s)) hp (by rw [hcan, hlen]; exact hl)
    (fun c => { c with book := c.book.without p d })
  rw [show canPort (sentFlagged h d (sentOut p h d measured s)) p = canPort (sentOut p h d measured s) p by rw [canPort, canPort, hcan],
    sentOut_port hp hl measured] at hb
  exact hb

/-- What the port has counted and sent as a sent entry retires. -/
theorem sentNoted_kept (hd : descOf s h = some d) (measured : Nat) :
    (canPort (sentNoted p h d measured s) p).onBus = none ∧ (canPort (sentNoted p h d measured s) p).tec = (canPort s p).tec - 1 ∧
      (canPort (sentNoted p h d measured s) p).counts.txOk = satInc 32 (canPort s p).counts.txOk ∧
      (sentNoted p h d measured s).sent =
        { kind := .can, unit := p, num := h, body := d.frame.data,
          can := some (d.frame, (canPort s p).st == .errorPassive && d.frame.format % 4 == 1) } :: s.sent ∧
      (sentNoted p h d measured s).can.length = s.can.length ∧ (sentNoted p h d measured s).mono = s.mono ∧
      ∃ fl, descOf (sentNoted p h d measured s) h = some { d with flags := fl } := by
  obtain ⟨hcan, hsent, hmono⟩ := sentFlagged_reads (s := sentOut p h d measured s) (h := h) (d := d)
  obtain ⟨omono, olen, osent⟩ := sentOut_reads (s := s) (p := p) (h := h) (d := d) measured
  have hport := sentNoted_port (h := h) (d := d) hp hl measured
  have hd' : descOf (sentOut p h d measured s) h = some d := hd
  refine ⟨by rw [hport], by rw [hport]; rfl, by rw [hport]; rfl, hsent.trans osent, ?_, hmono.trans omono, ?_⟩
  · exact (onCan_can_length _ _ _).trans ((congrArg List.length hcan).trans olen)
  · have hfl : ∃ fl, descOf (sentFlagged h d (sentOut p h d measured s)) h = some { d with flags := fl } := by
      unfold sentFlagged
      split
      · exact ⟨_, descOf_onDesc hd' (fun d => { d with flags := d.flags ||| 1 }) fun _ => rfl⟩
      · exact ⟨d.flags, hd'⟩
    exact hfl

/-- The end of an attempt that lost or failed: the bus is free, and nothing has gone out. -/
theorem lostEnd_kept (d : Desc) (st : CanState) :
    (canPort (lostEnd p h d st (offBus p s)) p).onBus = none ∧ (lostEnd p h d st (offBus p s)).sent = s.sent := by
  have hport : (canPort (offBus p s) p).onBus = none := by rw [canPort_offBus hp hl]
  have hret : ∀ r, (canPort (retire h r none (offBus p s)) p).onBus = none ∧ (retire h r none (offBus p s)).sent = s.sent := by
    intro r
    rw [canPort_retire, retire_sent]
    exact ⟨hport, rfl⟩
  unfold lostEnd
  split_ifs
  · exact hret _
  · rw [canPort_retire, retire_sent, canPort_onCan_same hp (by rw [offBus, onCan_can_length]; exact hl)]
    exact ⟨hport, rfl⟩
  · exact hret _
  · exact hret _
  · exact hret _
  · exact ⟨hport, rfl⟩
  · exact ⟨hport, rfl⟩

end

/-! ### The statement -/

theorem descOf_settled (s u : State) (h : Nat) : descOf (follow (settle s u)) h = descOf u h := by
  rw [descOf, descOf, follow_que, settle_que]

theorem canPort_settled (s u : State) (p : Nat) : canPort (follow (settle s u)) p = canPort u p := by
  rw [canPort, canPort, follow_can, settle_can]

theorem entryExpired_of_due {s : State} {h : Nat} {d : Desc} {x : Nat} (hd : descOf s h = some d) (hst : d.st = .pending)
    (hx : d.expiry = some x) (hle : x ≤ s.mono) :
    entryExpired h s = retire h retExpired none
      (if (queueAt s d.queue).user = userCan then onCan (queueAt s d.queue).unit (fun c => { c with flags := flag 8 c.flags }) s else s) := by
  unfold entryExpired
  rw [hd]
  exact if_pos ⟨hst, by rw [hx]; exact decide_eq_true hle⟩

/-- An entry that expires shows beside the ports and the queues as nothing, where no transaction or line waits for it. -/
theorem expired_frame {s u : State} {h : Nat} {d : Desc} (hu : { u with can := s.can } = s) (hd : descOf u h = some d)
    (ho : d.owner ≠ .program) (hst : d.st = .pending) (hdrop : dropAttempt h s = s) :
    { retire h retExpired none u with can := s.can, que := s.que } = s := by
  rw [retire_of_live retExpired none hd ho (.inl hst)]
  have e := congrArg (fun z : State => { dropAttempt h z with can := s.can, que := s.que }) hu
  have e' := congrArg (fun z : State => { z with can := s.can, que := s.que }) hdrop
  exact e.trans e'

/-- A frame of an end of arbitration. -/
theorem arbitration_frame {s u : State} (h : { u with can := s.can, que := s.que, ana := s.ana, ser := s.ser } = s) :
    ({ follow u with can := s.can, que := s.que, ana := s.ana, ser := s.ser } : State).rest = s.rest := by
  have e := congrArg (fun z : State => { z with can := s.can, que := s.que, ana := s.rest.ana, ser := s.ser }) (follow_rest u)
  exact e.trans (congrArg State.rest h)

/-- Settles O15: the entry offered and the ends of an attempt, each by its branch. -/
theorem attemptsOnTheBus : Obligations.AttemptsOnTheBus := by
  unfold Obligations.AttemptsOnTheBus
  intro s p hp hl
  refine ⟨fun cancels own d hb ht hli hn hd => ?offers, fun h d hb hd ho hn hst => ⟨fun measured => ?sent, fun e measured he => ?lost⟩,
    fun h d x hd ho hst hx hle => ?expired⟩
  case offers =>
    have hfr := retireEach_frame (s.que.held.filter fun d => pendingOn s p d && cancels.contains d.handle && none != some d.handle)
      retCancelled s s.ana s.ser s.que
    have hlen := congrArg (fun z : State => z.can.length) hfr
    refine ⟨_, congrArg answer (arbitrate_of_best hb ht hli hn hd own), ?_, startAttempt_held p d _, arbitration_frame ?_⟩
    · exact congrArg CanPort.onBus (canPort_onCan_same (s := onDesc d.handle _ (cancelPending p cancels none s)) hp
        (hl.trans_eq hlen.symm) _)
    · have e := congrArg (fun z : State => { z with can := s.can }) hfr
      exact e
  case sent =>
    obtain ⟨kbus, ktec, kok, ksent, klen, kmono, fl, kdesc⟩ := sentNoted_kept hp hl hd measured
    have hw := txDone_of_sent hb hd hn measured
    have hret := descOf_retire kdesc ho (.inr hst) retSent
    have hlen : p ≤ (retire h retSent none (sentNoted p h d measured s)).can.length := by
      rw [retire_can, klen]
      exact hl
    obtain ⟨st, hg⟩ := canByCounts_port hp hlen
    obtain ⟨l, hheld⟩ := canByCounts_held p (retire h retSent none (sentNoted p h d measured s))
    have hsent := congrArg State.sent (canByCounts_frame p (retire h retSent none (sentNoted p h d measured s)))
    refine ⟨_, congrArg (fun u => answer (settle s u)) hw, ?_, ?_, ?_, ?_, ?_⟩
    · rw [canPort_settled, hg.same, canPort_retire]
      exact kbus
    · rw [canPort_settled, hg.same, canPort_retire]
      exact kok
    · rw [canPort_settled, hg.same, canPort_retire]
      exact ktec
    · rw [follow_sent, settle_sent]
      exact Eq.trans hsent ((retire_sent _ _ _).trans ksent)
    · rw [descOf_settled]
      obtain ⟨d', hd'⟩ := Option.isSome_iff_exists.1 (Option.isSome_map.symm.trans (congrArg Option.isSome hret))
      rw [descOf_append hd' hheld, ← hd', hret, kmono]
  case lost =>
    have hw := txDone_of_lost hb hd hn he measured
    obtain ⟨kbus, ksent⟩ := lostEnd_kept (h := h) hp hl d (canPort s p).st
    have hd' : descOf (offBus p s) h = some d := hd
    have hret : ∀ r, lostEnd p h d (canPort s p).st (offBus p s) = retire h r none (offBus p s) →
        (descOf (lostEnd p h d (canPort s p).st (offBus p s)) h).map (fun e => (e.st, e.result)) = some (.retired, r) := by
      intro r hr
      rw [hr]
      have e := congrArg (Option.map fun x : DescState × Nat × Nat => (x.1, x.2.1)) (descOf_retire hd' ho (.inr hst) r)
      rw [Option.map_map] at e
      exact e
    refine ⟨_, congrArg (fun u => answer (settle s u)) hw, ?_, ?_, fun hc => ?_, fun hc hx ht => ?_, fun hc hx ht h1 => ?_⟩
    · rw [canPort_settled]
      exact kbus
    · rw [follow_sent, settle_sent]
      exact ksent
    · rw [descOf_settled]
      exact hret _ (if_pos hc)
    · rw [descOf_settled]
      refine hret _ ?_
      have ht' : takesCommands (offBus p s) = false := ht
      simp [lostEnd, hc, hx, ht']
    · rw [descOf_settled]
      have ht' : takesCommands (offBus p s) = true := ht
      have hp : lostEnd p h d (canPort s p).st (offBus p s) = onDesc h (fun e => { e with st := .pending, flags :=
          if (canPort s p).st = .busOff || (canPort s p).st = .recovering then e.flags ||| 2 else e.flags }) (offBus p s) := by
        simp [lostEnd, hc, hx, ht', h1]
      rw [hp, descOf_onDesc hd' (fun e => { e with st := .pending, flags :=
          if (canPort s p).st = .busOff || (canPort s p).st = .recovering then e.flags ||| 2 else e.flags }) fun _ => rfl]
      rfl
  case expired =>
    have hw := entryExpired_of_due hd hst hx hle
    have hu : ∀ u : State, u = (if (queueAt s d.queue).user = userCan then
        onCan (queueAt s d.queue).unit (fun c => { c with flags := flag 8 c.flags }) s else s) →
        { u with can := s.can } = s ∧ descOf u h = some d := by
      intro u hu
      split at hu <;> subst hu <;> exact ⟨rfl, hd⟩
    obtain ⟨hfr, hd'⟩ := hu _ rfl
    refine ⟨_, congrArg answer hw, ?_, fun hdrop => busQuiet_frame (expired_frame hfr hd' ho hst hdrop)⟩
    have e := congrArg (Option.map fun x : DescState × Nat × Nat => (x.1, x.2.1)) (descOf_retire hd' ho (.inl hst) retExpired)
    rw [Option.map_map] at e
    exact e

end Sys2Proof.Machine
end

section
/-! PROOFS. The signal book (13_can_ports.md R344 to R347). -/

namespace Sys2Proof.Machine

/-! ### References (R345) -/

/-- The reference message of a port's book. -/
def referenceFrame (b : Book) (cycle : Nat) : CanFrame :=
  { format := 0, id := b.refId, length := b.refLen, data := referenceData b cycle }

/-- A port that has sent its reference. -/
def CanPort.referenced (cycle mono : Nat) (c : CanPort) : CanPort :=
  { c with
    tec := c.tec - 1, counts := { c.counts with txOk := satInc 32 c.counts.txOk }
    book := { c.book with synced := true, gap := false, cycle := cycle, current := true, window := 0, inWin := false, markAt := mono } }

section
variable {s : State} {p : Nat}

/-- The reference sent, before the counts give the port its state. -/
def referenceOut (p cycle : Nat) (s : State) : State :=
  bookSync p cycle false true s.mono
    (sendCan p (canPort s p).book.refId (referenceFrame (canPort s p).book cycle) false
      (onCan p (fun c => { c with tec := c.tec - 1, counts := { c.counts with txOk := satInc 32 c.counts.txOk } }) s))

theorem sendReference_eq (cycle : Nat) : sendReference p cycle s = canByCounts p (referenceOut p cycle s) := rfl

/-- What follows a reference that is sent. -/
theorem sendReference_kept (hp : 1 ≤ p) (hl : p ≤ s.can.length) (cycle : Nat) :
    (canPort (sendReference p cycle s) p).book = ((canPort s p).referenced cycle s.mono).book ∧
      (canPort (sendReference p cycle s) p).tec = (canPort s p).tec - 1 ∧
      (sendReference p cycle s).sent =
        { kind := .can, unit := p, num := (canPort s p).book.refId, body := (referenceFrame (canPort s p).book cycle).data,
          can := some (referenceFrame (canPort s p).book cycle, false) } :: s.sent ∧
      { sendReference p cycle s with can := s.can, que := s.que, sent := s.sent, log := s.log } = s := by
  have hl1 : p ≤ (onCan p (fun c => { c with tec := c.tec - 1, counts := { c.counts with txOk := satInc 32 c.counts.txOk } }) s).can.length := by
    rw [onCan_can_length]
    exact hl
  have hport : canPort (referenceOut p cycle s) p = (canPort s p).referenced cycle s.mono := by
    have h1 := canPort_onCan_same hp hl (fun c => { c with tec := c.tec - 1, counts := { c.counts with txOk := satInc 32 c.counts.txOk } })
    have h2 := canPort_onCan_same (s := sendCan p (canPort s p).book.refId (referenceFrame (canPort s p).book cycle) false
      (onCan p (fun c => { c with tec := c.tec - 1, counts := { c.counts with txOk := satInc 32 c.counts.txOk } }) s)) hp hl1
      (fun c => { c with book := { c.book with
        synced := true, gap := false, cycle := cycle, current := true, window := 0, inWin := false, markAt := s.mono } })
    rw [show canPort (sendCan p (canPort s p).book.refId (referenceFrame (canPort s p).book cycle) false
      (onCan p (fun c => { c with tec := c.tec - 1, counts := { c.counts with txOk := satInc 32 c.counts.txOk } }) s)) p =
      canPort (onCan p (fun c => { c with tec := c.tec - 1, counts := { c.counts with txOk := satInc 32 c.counts.txOk } }) s) p from rfl, h1] at h2
    exact h2
  have hlen : p ≤ (referenceOut p cycle s).can.length := by
    refine hl1.trans_eq ?_
    exact (onCan_can_length _ _ _).symm
  obtain ⟨st, hg⟩ := canByCounts_port hp hlen
  have hfr := canByCounts_frame p (referenceOut p cycle s)
  have hsent := congrArg State.sent hfr
  rw [sendReference_eq]
  refine ⟨?_, ?_, hsent, ?_⟩
  · rw [hg.same, hport]
  · rw [hg.same, hport]
    rfl
  · have e := congrArg (fun z : State => { z with can := s.can, que := s.que, sent := s.sent, log := s.log }) hfr
    exact e

end

/-- A command that changes the ports, the queues, the recorder and what was sent shows that beside them. -/
theorem busSent_frame {s u : State} (h : { u with can := s.can, que := s.que, sent := s.sent, log := s.log } = s) :
    ({ follow u with can := s.can, que := s.que, sent := s.sent, log := s.log } : State).rest = s.rest := by
  have e := congrArg (fun z : State => { z with can := s.rest.can, que := s.que, sent := s.sent, log := s.rest.log }) (follow_rest u)
  exact e.trans (congrArg State.rest h)

/-! ### Missed windows (R347) -/

/-- A port with a window missed: its bits of the cycle, and the instant of the last record. -/
def CanPort.missedOne (missed : List (Nat × Word)) (at_ : Option Nat) (c : CanPort) : CanPort :=
  { c with
    flags := flag 4 c.flags
    counts := { c.counts with winMissed := satInc 32 c.counts.winMissed }
    book := { c.book with missed := missed, recordedAt := at_ } }

theorem windowMissed_kept {s : State} {p : Nat} (hp : 1 ≤ p) (hl : p ≤ s.can.length) (cycle w : Nat) :
    (∃ m r, canPort (windowMissed p cycle w s) p = (canPort s p).missedOne m r) ∧
      { windowMissed p cycle w s with can := s.can, log := s.log } = s := by
  have hc := canPort_onCan_same hp hl (fun c => { c with
      flags := flag 4 c.flags
      counts := { c.counts with winMissed := satInc 32 c.counts.winMissed }
      book := { c.book with
        missed := put cycle (flag w ((look cycle (canPort s p).book.missed).getD 0)) c.book.missed
        recordedAt := if longAgo (canPort s p).book.recordedAt (60 * nsPerSec) s.mono then some s.mono else c.book.recordedAt } })
  unfold windowMissed
  dsimp only
  split
  · rename_i h
    rw [h] at hc
    exact ⟨⟨_, _, hc⟩, rfl⟩
  · rename_i h
    rw [Bool.eq_false_of_not_eq_true h] at hc
    exact ⟨⟨_, _, hc⟩, rfl⟩

/-! ### Windows (R341, R346, R347) -/

section
variable {s : State} {p w : Nat} (hp : 1 ≤ p) (hl : p ≤ s.can.length)

theorem windowStart_of_due (he : (canPort s p).book.enabled = true) (hb : buildsBook s = true)
    (hw : w < (canPort s p).book.windows.length)
    (hd : (canPort s p).book.synced = true →
      ntuPassed s p (canPort s p).book.markAt ((((canPort s p).book.windows[w]?).map (·.start)).getD 0) = true) :
    windowStart p w s =
      if (canPort s p).book.synced && (canPort s p).st.onBus then
        windowBuilds p w (onBook p (fun b => { b with told := false }) s)
      else
        let defs := scheduledIn (canPort s p).book (canPort s p).book.cycle w
        let s' := onBook p (fun b => { b with window := w, inWin := b.synced, scheduled := [], told := !defs.isEmpty }) s
        if defs.isEmpty then s' else windowMissed p (canPort s p).book.cycle w s' := by
  have h1 : ((canPort s p).book.synced &&
      !ntuPassed s p (canPort s p).book.markAt ((((canPort s p).book.windows[w]?).map (·.start)).getD 0)) = false := by
    cases h : (canPort s p).book.synced
    · rfl
    · rw [hd h]
      rfl
  have h2 : ((canPort s p).book.enabled && buildsBook s && decide (w < (canPort s p).book.windows.length)) = true := by
    rw [he, hb, decide_eq_true hw]
    rfl
  exact (if_neg (fun h => absurd (h1.symm.trans h) (by decide))).trans (if_pos h2)

/-- The scheduled frames of a window that ends, retired. -/
def windowLeft (p w : Nat) (s : State) : State :=
  forAll ((canPort s p).book.scheduled.filter fun x => x.1 == w) (fun x t =>
    forAll (t.que.held.filter fun d => d.defn == some (p, x.2) && d.st == .pending) (fun d t => retire d.handle retWindowMissed none t) t)
    (onBook p (fun b => { b with scheduled := [], inWin := false }) s)

theorem bookWindowEnd_of_due (hd : (canPort s p).book.synced = true →
      ntuPassed s p (canPort s p).book.markAt ((((canPort s p).book.windows[w + 1]?).map (·.start)).getD (canPort s p).book.cycleNtu) = true) :
    bookWindowEnd p w s =
      if ((canPort s p).book.scheduled.filter fun x => x.1 == w).isEmpty then onBook p (fun b => { b with scheduled := [], inWin := false }) s
      else if (canPort s p).book.told then windowLeft p w s else windowMissed p (canPort s p).book.cycle w (windowLeft p w s) := by
  have h1 : ((canPort s p).book.synced && !ntuPassed s p (canPort s p).book.markAt
      ((((canPort s p).book.windows[w + 1]?).map (·.start)).getD (canPort s p).book.cycleNtu)) = false := by
    cases h : (canPort s p).book.synced
    · rfl
    · rw [hd h]
      rfl
  exact if_neg (fun h => absurd (h1.symm.trans h) (by decide))

theorem windowLeft_frame (a : Ana) (x : Ser) (q : Que) :
    { windowLeft p w s with que := q, ana := a, ser := x } =
      { onBook p (fun b => { b with scheduled := [], inWin := false }) s with que := q, ana := a, ser := x } :=
  forAll_keeps (fun z : State => { z with que := q, ana := a, ser := x }) _
    (fun (x : Nat × Nat) t =>
      forAll (t.que.held.filter fun d => d.defn == some (p, x.2) && d.st == .pending) (fun d t => retire d.handle retWindowMissed none t) t)
    (fun _ t => retireEach_frame _ retWindowMissed t a x q) _

theorem windowLeft_can : (windowLeft p w s).can = (onBook p (fun b => { b with scheduled := [], inWin := false }) s).can := by
  have e := congrArg State.can (windowLeft_frame (s := s) (p := p) (w := w) s.ana s.ser s.que)
  exact e

end

/-- A command at the end of a window shows beside the ports, the queues and the recorder as nothing. -/
theorem windowEnd_frame {s u : State} (h : { u with can := s.can, que := s.que, log := s.log, ana := s.ana, ser := s.ser } = s) :
    ({ follow u with can := s.can, que := s.que, log := s.log, ana := s.ana, ser := s.ser } : State).rest = s.rest := by
  have e := congrArg (fun z : State => { z with can := s.rest.can, que := s.que, log := s.rest.log, ana := s.rest.ana, ser := s.ser }) (follow_rest u)
  exact e.trans (congrArg State.rest h)

theorem canLog_frame {s u : State} (h : { u with can := s.can, log := s.log } = s) :
    ({ follow u with can := s.can, log := s.log } : State).rest = s.rest := by
  have e := congrArg (fun z : State => { z with can := s.rest.can, log := s.rest.log }) (follow_rest u)
  exact e.trans (congrArg State.rest h)

/-- A port that has lost its reference. -/
def CanPort.refGone (mono : Nat) (c : CanPort) : CanPort :=
  { c with flags := flag 5 c.flags, counts := { c.counts with refLost := satInc 32 c.counts.refLost }
           book := { c.book with synced := false, current := false, inWin := false, listenAt := mono } }

/-- The start of window `w` makes it the running one: a synchronised port on the bus schedules its frames, any other misses them. -/
theorem bookWindowStart_outcome {s : State} {p : Nat} (hp : 1 ≤ p) (hl : p ≤ s.can.length) {w : Nat}
    (he : (canPort s p).book.enabled = true) (hb : buildsBook s = true) (hw : w < (canPort s p).book.windows.length)
    (hd : (canPort s p).book.synced = true →
      ntuPassed s p (canPort s p).book.markAt (((canPort s p).book.windows[w]?).map (·.start) |>.getD 0) = true) :
    ∃ t, exec (.bookWindowStart p w) s = .next t ∧ (canPort t p).book.window = w ∧
      (canPort t p).book.inWin = (canPort s p).book.synced ∧
      ((canPort s p).book.synced = true → (canPort s p).st.onBus = true →
        (canPort t p).book.scheduled = (scheduledIn (canPort s p).book (canPort s p).book.cycle w).map fun d => (w, d)) ∧
      ((canPort s p).book.synced = false ∨ (canPort s p).st.onBus = false →
        scheduledIn (canPort s p).book (canPort s p).book.cycle w ≠ [] →
        (canPort t p).flags.getLsbD 4 = true ∧
        (canPort t p).counts.winMissed = satInc 32 (canPort s p).counts.winMissed) := by
  have hw := windowStart_of_due he hb hw hd
  have hbook : ∀ f, canPort (onBook p f s) p = { canPort s p with book := f (canPort s p).book } := fun f => canPort_onCan_same hp hl _
  by_cases hon : (canPort s p).book.synced = true ∧ (canPort s p).st.onBus = true
  · rw [if_pos (by rw [hon.1, hon.2]; rfl)] at hw
    have hb' := hbook fun b => { b with told := false }
    obtain ⟨-, -, -, -, kbook, -⟩ := windowBuilds_port (s := onBook p (fun b => { b with told := false }) s) hp
      (by rw [onBook, onCan_can_length]; exact hl) w
    rw [hb'] at kbook
    refine ⟨_, congrArg answer hw, (congrArg Book.window kbook).trans rfl, ((congrArg Book.inWin kbook).trans rfl).trans hon.1.symm,
      fun _ _ => (congrArg Book.scheduled kbook).trans rfl, fun h => ?_⟩
    rcases h with h | h
    · rw [hon.1] at h
      cases h
    · rw [hon.2] at h
      cases h
  · rw [if_neg (by simpa using hon)] at hw
    have hb' := hbook fun b => { b with
      window := w, inWin := b.synced, scheduled := []
      told := !(scheduledIn (canPort s p).book (canPort s p).book.cycle w).isEmpty }
    by_cases hn : scheduledIn (canPort s p).book (canPort s p).book.cycle w = []
    · refine ⟨_, congrArg answer (hw.trans (if_pos (by rw [hn]; rfl))), ?_, ?_, fun h1 h2 => absurd ⟨h1, h2⟩ hon, fun _ h => absurd hn h⟩
      · exact (congrArg (fun c : CanPort => c.book.window) hb').trans rfl
      · exact (congrArg (fun c : CanPort => c.book.inWin) hb').trans rfl
    · obtain ⟨⟨m, r, kport⟩, -⟩ := windowMissed_kept (s := onBook p (fun b => { b with
        window := w, inWin := b.synced, scheduled := []
        told := !(scheduledIn (canPort s p).book (canPort s p).book.cycle w).isEmpty }) s) hp
        (by rw [onBook, onCan_can_length]; exact hl) (canPort s p).book.cycle w
      rw [hb'] at kport
      refine ⟨_, congrArg answer (hw.trans (if_neg (by simpa using hn))), ?_, ?_, fun h1 h2 => absurd ⟨h1, h2⟩ hon, fun _ _ => ⟨?_, ?_⟩⟩
      · exact (congrArg (fun c : CanPort => c.book.window) kport).trans rfl
      · exact (congrArg (fun c : CanPort => c.book.inWin) kport).trans rfl
      · exact (congrArg (fun c : CanPort => c.flags.getLsbD 4) kport).trans (setBit_get _ 4 (by decide))
      · exact (congrArg (fun c : CanPort => c.counts.winMissed) kport).trans rfl

/-- The end of window `w` empties the schedule and closes the window; frames left that were not told set WINDOW_MISSED. -/
theorem bookWindowEnd_outcome {s : State} {p : Nat} (hp : 1 ≤ p) (hl : p ≤ s.can.length) {w : Nat}
    (hd : (canPort s p).book.synced = true → ntuPassed s p (canPort s p).book.markAt
      (((canPort s p).book.windows[w + 1]?).map (·.start) |>.getD (canPort s p).book.cycleNtu) = true) :
    ∃ t, exec (.bookWindowEnd p w) s = .next t ∧ (canPort t p).book.inWin = false ∧ (canPort t p).book.scheduled = [] ∧
      ((canPort s p).book.scheduled.filter (fun x => x.1 == w) ≠ [] → (canPort s p).book.told = false →
        (canPort t p).flags.getLsbD 4 = true ∧ (canPort t p).counts.winMissed = satInc 32 (canPort s p).counts.winMissed) ∧
      { t with can := s.can, que := s.que, log := s.log, ana := s.ana, ser := s.ser }.rest = s.rest := by
  have hw := bookWindowEnd_of_due hd
  have hb' : canPort (onBook p (fun b => { b with scheduled := [], inWin := false }) s) p =
      { canPort s p with book := { (canPort s p).book with scheduled := [], inWin := false } } := canPort_onCan_same hp hl _
  have hleft : canPort (windowLeft p w s) p = { canPort s p with book := { (canPort s p).book with scheduled := [], inWin := false } } := by
    rw [canPort, windowLeft_can]
    exact hb'
  have hfr := windowLeft_frame (s := s) (p := p) (w := w) s.ana s.ser s.que
  by_cases hn : (canPort s p).book.scheduled.filter (fun x => x.1 == w) = []
  · rw [if_pos (by rw [hn]; rfl)] at hw
    refine ⟨_, congrArg answer hw, ?_, ?_, fun h => absurd hn h, windowEnd_frame rfl⟩
    · exact (congrArg (fun c : CanPort => c.book.inWin) hb').trans rfl
    · exact (congrArg (fun c : CanPort => c.book.scheduled) hb').trans rfl
  · rw [if_neg (by simpa using hn)] at hw
    cases ht : (canPort s p).book.told with
    | true =>
      rw [ht, if_pos rfl] at hw
      refine ⟨_, congrArg answer hw, ?_, ?_, nofun, windowEnd_frame ?_⟩
      · exact (congrArg (fun c : CanPort => c.book.inWin) hleft).trans rfl
      · exact (congrArg (fun c : CanPort => c.book.scheduled) hleft).trans rfl
      · have e := congrArg (fun z : State => { z with can := s.can, log := s.log }) hfr
        exact e
    | false =>
      rw [ht, if_neg (by decide)] at hw
      obtain ⟨⟨m, r, kport⟩, kfr⟩ := windowMissed_kept (s := windowLeft p w s) hp
        (by rw [windowLeft_can, onBook, onCan_can_length]; exact hl) (canPort s p).book.cycle w
      rw [hleft] at kport
      refine ⟨_, congrArg answer hw, ?_, ?_, fun _ _ => ⟨?_, ?_⟩, windowEnd_frame ?_⟩
      · exact (congrArg (fun c : CanPort => c.book.inWin) kport).trans rfl
      · exact (congrArg (fun c : CanPort => c.book.scheduled) kport).trans rfl
      · exact (congrArg (fun c : CanPort => c.flags.getLsbD 4) kport).trans (setBit_get _ 4 (by decide))
      · exact (congrArg (fun c : CanPort => c.counts.winMissed) kport).trans rfl
      · have e := congrArg (fun z : State => { z with can := s.can, que := s.que, log := s.log, ana := s.ana, ser := s.ser }) kfr
        have e' := congrArg (fun z : State => { z with can := s.can, log := s.log }) hfr
        exact e.trans e'

/-- Settles O17: the references by what follows them, the windows by the branch they take. -/
theorem theSignalBookRuns : Obligations.TheSignalBookRuns := by
  unfold Obligations.TheSignalBookRuns
  intro s p hp hl ref
  refine ⟨fun hm hs hg hn => ?next, fun hm hs hn => ?first, fun he hs hg hn => ?lost, fun w he hb hw hd => ?starts, fun w hd => ?ends⟩
  case next =>
    obtain ⟨kbook, ktec, ksent, kfr⟩ := sendReference_kept hp hl (((canPort s p).book.cycle + 1) % max (canPort s p).book.cycles 1)
    have hx : exec (.canReferenceSend p) s = answer (sendReference p (((canPort s p).book.cycle + 1) % max (canPort s p).book.cycles 1) s) :=
      congrArg answer (if_pos (by simp only [hm, hs, hg, hn, Bool.not_false, Bool.and_self]))
    exact ⟨_, hx, (congrArg Book.current kbook).trans rfl, (congrArg Book.synced kbook).trans rfl, (congrArg Book.cycle kbook).trans rfl, ksent, ktec,
      (congrArg Book.markAt kbook).trans rfl, busSent_frame kfr⟩
  case first =>
    obtain ⟨kbook, -, ksent, kfr⟩ := sendReference_kept hp hl 0
    have hx : exec (.canMasterListenEnd p) s = answer (sendReference p 0 s) :=
      congrArg answer (if_pos (by simp only [hm, hs, hn, Bool.not_false, Bool.and_self]))
    exact ⟨_, hx, (congrArg Book.current kbook).trans rfl, (congrArg Book.synced kbook).trans rfl, (congrArg Book.cycle kbook).trans rfl, ksent,
      busSent_frame kfr⟩
  case lost =>
    have hx : refLost p s = raise .canRefLost .fault p 0 0 0 (onCan p (CanPort.refGone s.mono) s) :=
      if_pos (by simp only [he, hs, hg, hn, Bool.not_false, Bool.and_self])
    have hc := canPort_onCan_same hp hl (CanPort.refGone s.mono)
    refine ⟨_, congrArg answer hx, ?_, ?_, ?_, raise_log _ _ _ _ _ _ _ _ rfl rfl, canLog_frame ?_⟩
    · exact (congrArg (fun c : CanPort => c.book.synced) hc).trans rfl
    · exact (congrArg (fun c : CanPort => c.book.current) hc).trans rfl
    · exact (congrArg (fun c : CanPort => c.flags.getLsbD 5) hc).trans (setBit_get _ 5 (by decide))
    · rw [raise_frame]
      rfl
  case starts => exact bookWindowStart_outcome hp hl he hb hw hd
  case ends => exact bookWindowEnd_outcome hp hl hd

end Sys2Proof.Machine
end

section
/-! PROOFS. The calendar's second tick, its sets and its alarms (17_calendar_clock.md R446 to R452). -/

namespace Sys2Proof.Machine

/-! ### What the backup domain's events and alarms leave -/

/-- `t` is `s` but for the backup domain, the log and the wake sources that wait. -/
def BackupOnly (s t : State) : Prop :=
  ∃ r l w, t = { s with rtc := r, log := l, pwr := { s.pwr with wakeWait := w } }

theorem BackupOnly.trans {s t u : State} (h : BackupOnly s t) (h' : BackupOnly t u) : BackupOnly s u := by
  obtain ⟨r, l, w, rfl⟩ := h
  obtain ⟨r', l', w', rfl⟩ := h'
  exact ⟨r', l', w', rfl⟩

theorem backupOnly_refl (s : State) : BackupOnly s s := ⟨s.rtc, s.log, s.pwr.wakeWait, rfl⟩

theorem backupOnly_onRtc (f : Rtc → Rtc) (s : State) : BackupOnly s (onRtc f s) := ⟨_, s.log, s.pwr.wakeWait, rfl⟩

theorem backupOnly_raiseBackup (e : Ev) (sev : Severity) (p : Nat) (s : State) : BackupOnly s (raiseBackup e sev p s) := by
  unfold raiseBackup
  split
  · exact backupOnly_onRtc _ s
  · exact ⟨s.rtc, _, s.pwr.wakeWait, raise_frame e sev 0xFF p 0 0 s⟩

/-- What follows reads none of what the backup domain changes. -/
theorem BackupOnly.follow {s u : State} (h : BackupOnly s u) :
    { follow u with rtc := s.rtc, log := s.log, pwr := s.pwr } = follow s := by
  obtain ⟨r, l, w, rfl⟩ := h
  rfl

/-- A backup domain but for what it has yet to tell. -/
def Rtc.told (r : Rtc) : Rtc := { r with deferred := [], untold := [], unraised := [] }

theorem raiseBackup_told (e : Ev) (sev : Severity) (p : Nat) (s : State) : (raiseBackup e sev p s).rtc.told = s.rtc.told := by
  unfold raiseBackup
  split <;> rfl

theorem raiseBackup_of_power {s : State} (h : s.pwr.railsOff = false) (e : Ev) (sev : Severity) (p : Nat) :
    raiseBackup e sev p s = raise e sev 0xFF p 0 0 s :=
  if_neg (by rw [h]; decide)

theorem raiseBackup_of_railsOff {s : State} (h : s.pwr.railsOff = true) (e : Ev) (sev : Severity) (p : Nat) :
    raiseBackup e sev p s = onRtc (fun r => { r with unraised := r.unraised ++ [(e, sev, p)] }) s :=
  if_pos h

/-! ### An alarm -/

/-- The backup domain once an alarm has fired (R452). -/
def Rtc.fired (a : Nat) (late : Bool) (r : Rtc) : Rtc :=
  { r with
    flags := if late then flag (a + 2) (flag a r.flags) else flag a r.flags
    counts := r.counts.modify a (satInc 16)
    alarms := r.alarms.modify a fun x => if x.once then { x with enable := false } else x }

/-- The action of an alarm that fires: it is kept, waits for its action, or is recorded. -/
def alarmActs (a : Nat) (late : Bool) (s : State) : State :=
  if s.pwr.railsOff then onRtc (fun r => { r with deferred := r.deferred ++ [a] }) s
  else if inHarbour s then
    wakeBy (if a = 0 then .alarm0 else .alarm1) (onRtc (fun r => { r with untold := r.untold ++ [(a, late)] }) s)
  else raise .rtcAlarm .info 0xFF a (bit late) 0 s

theorem alarmFires_eq (a : Nat) (late : Bool) (s : State) : alarmFires a late s = alarmActs a late (onRtc (Rtc.fired a late) s) := rfl

theorem alarmActs_told (a : Nat) (late : Bool) (s : State) : (alarmActs a late s).rtc.told = s.rtc.told := by
  unfold alarmActs
  split
  · rfl
  · split <;> rfl

theorem alarmFires_told (a : Nat) (late : Bool) (s : State) : (alarmFires a late s).rtc.told = (s.rtc.fired a late).told :=
  alarmActs_told a late (onRtc (Rtc.fired a late) s)

theorem backupOnly_alarmActs (a : Nat) (late : Bool) (s : State) : BackupOnly s (alarmActs a late s) := by
  unfold alarmActs
  split
  · exact backupOnly_onRtc _ s
  · split
    · exact ⟨_, s.log, _, rfl⟩
    · exact ⟨s.rtc, _, s.pwr.wakeWait, raise_frame _ _ _ _ _ _ s⟩

theorem backupOnly_alarmFires (a : Nat) (late : Bool) (s : State) : BackupOnly s (alarmFires a late s) :=
  (backupOnly_onRtc _ s).trans (backupOnly_alarmActs a late _)

theorem alarmCompare_cases (moved : Option Calendar) (a : Nat) (s : State) :
    alarmCompare moved a s = s ∨ ∃ late, alarmCompare moved a s = alarmFires a late s := by
  unfold alarmCompare
  dsimp only
  split_ifs
  · exact .inl rfl
  · exact .inr ⟨true, rfl⟩
  · exact .inr ⟨false, rfl⟩
  · exact .inl rfl

theorem alarmCompare_of_hit {a : Nat} {s : State} (he : (s.rtc.alarms.getD a {}).enable = true)
    (hh : (s.rtc.alarms.getD a {}).hits s.rtc.now s.rtc.weekday = true) : alarmCompare none a s = alarmFires a false s := by
  simp only [alarmCompare, he, hh, Bool.not_true, Bool.false_eq_true, if_false, Bool.false_and, if_true]

theorem backupOnly_alarmCompare (moved : Option Calendar) (a : Nat) (s : State) : BackupOnly s (alarmCompare moved a s) := by
  obtain h | ⟨late, h⟩ := alarmCompare_cases moved a s
  · rw [h]
    exact backupOnly_refl s
  · rw [h]
    exact backupOnly_alarmFires a late s

/-- A property of the backup domain that an alarm keeps, whether it fires or not. -/
theorem alarmCompare_keeps {P : Rtc → Prop} {a : Nat} {s : State} (htold : ∀ r, P r.told ↔ P r) (hs : P s.rtc)
    (hf : ∀ late, P (s.rtc.fired a late)) (moved : Option Calendar) : P (alarmCompare moved a s).rtc := by
  obtain h | ⟨late, h⟩ := alarmCompare_cases moved a s
  · rwa [h]
  · rw [h, ← htold, alarmFires_told, htold]
    exact hf late

/-- What no alarm changes: the calendar, the commit and the filter. -/
def Rtc.clock (r : Rtc) : Calendar × Nat × Bool × Commit × Nat := (r.now, r.weekday, r.valid, r.commit, r.filter)

theorem raiseBackup_clock (e : Ev) (sev : Severity) (p : Nat) (s : State) : (raiseBackup e sev p s).rtc.clock = s.rtc.clock := by
  have h := congrArg Rtc.clock (raiseBackup_told e sev p s)
  exact h

theorem raiseBackup_flags (e : Ev) (sev : Severity) (p : Nat) (s : State) : (raiseBackup e sev p s).rtc.flags = s.rtc.flags := by
  have h := congrArg Rtc.flags (raiseBackup_told e sev p s)
  exact h

theorem alarmCompare_clock (moved : Option Calendar) (a : Nat) (s : State) : (alarmCompare moved a s).rtc.clock = s.rtc.clock :=
  alarmCompare_keeps (P := fun r => r.clock = s.rtc.clock) (fun _ => Iff.rfl) rfl (fun _ => rfl) moved

theorem alarmCompare_keeps_flag {n : Nat} {s : State} (h : s.rtc.flags.getLsbD n = true) (moved : Option Calendar) (a : Nat) :
    (alarmCompare moved a s).rtc.flags.getLsbD n = true :=
  alarmCompare_keeps (P := fun r => r.flags.getLsbD n = true) (fun _ => Iff.rfl) h
    (fun late => by cases late <;> simp only [Rtc.fired, if_true, Bool.false_eq_true, if_false, flag_keeps, h]) moved

theorem alarmCompare_other {a b : Nat} (hab : a ≠ b) (moved : Option Calendar) (s : State) :
    (alarmCompare moved a s).rtc.alarms.getD b {} = s.rtc.alarms.getD b {} :=
  alarmCompare_keeps (P := fun r => r.alarms.getD b {} = s.rtc.alarms.getD b {}) (fun _ => Iff.rfl) rfl
    (fun late => by simp [Rtc.fired, List.getD_eq_getElem?_getD, hab]) moved

theorem alarmCompare_hit {a : Nat} {s : State} (ha : a < 32) (he : (s.rtc.alarms.getD a {}).enable = true)
    (hh : (s.rtc.alarms.getD a {}).hits s.rtc.now s.rtc.weekday = true) :
    (alarmCompare none a s).rtc.flags.getLsbD a = true ∧
      ((alarmCompare none a s).rtc.alarms.getD a {}).enable = !(s.rtc.alarms.getD a {}).once := by
  have hr := alarmFires_told a false s
  rw [alarmCompare_of_hit he hh]
  refine ⟨(congrArg (fun r : Rtc => r.flags.getLsbD a) hr).trans (setBit_get _ a ha),
    (congrArg (fun r : Rtc => (r.alarms.getD a {}).enable) hr).trans ?_⟩
  have hmod : (s.rtc.alarms.modify a fun x => if x.once then { x with enable := false } else x).getD a {} =
      if (s.rtc.alarms.getD a {}).once then { s.rtc.alarms.getD a {} with enable := false } else s.rtc.alarms.getD a {} := by
    rw [List.getD_eq_getElem?_getD, List.getElem?_modify_eq, List.getD_eq_getElem?_getD]
    cases s.rtc.alarms[a]? <;> rfl
  show (((s.rtc.alarms.modify a _).getD a {}).enable) = _
  rw [hmod]
  cases (s.rtc.alarms.getD a {}).once
  · exact he
  · rfl

/-! ### The tick -/

/-- The last second of the calendar is reported (R446). -/
def wrapTold (s : State) : State :=
  if s.rtc.now = lastSecond then
    raiseBackup .rtcRangeWrap .fault 0 (onRtc (fun r => { r with flags := flag 8 r.flags }) s)
  else s

/-- The state when a tick takes its sets: the wrap is reported and the weekday has moved (R446). -/
def tickBegun (s : State) : State :=
  if s.rtc.now.tick.daySecond = 0 then onRtc (fun r => { r with weekday := (r.weekday + 1) % 7 }) (wrapTold s) else wrapTold s

/-- The comparisons that end a tick. -/
def tickCompared (x : Option Calendar × State) : State := alarmCompare x.1 1 (alarmCompare x.1 0 x.2)

/-- The instant of the last tick. -/
def Rtc.tickedAt (n : Int) (r : Rtc) : Rtc := { r with tickAt := n }

theorem secondTick_eq (s : State) :
    secondTick s = onRtc (Rtc.tickedAt (tickCompared (tickSets s.rtc.now.tick (tickBegun s))).mono)
      (tickCompared (tickSets s.rtc.now.tick (tickBegun s))) := rfl

theorem wrapTold_backupOnly (s : State) : BackupOnly s (wrapTold s) := by
  unfold wrapTold
  split
  · exact (backupOnly_onRtc _ s).trans (backupOnly_raiseBackup _ _ _ _)
  · exact backupOnly_refl s

theorem wrapTold_told (s : State) : (wrapTold s).rtc.told =
    { s.rtc.told with flags := if s.rtc.now = lastSecond then flag 8 s.rtc.flags else s.rtc.flags } := by
  unfold wrapTold
  split
  · exact (raiseBackup_told _ _ _ _).trans rfl
  · rfl

theorem tickBegun_backupOnly (s : State) : BackupOnly s (tickBegun s) := by
  unfold tickBegun
  split
  · exact (wrapTold_backupOnly s).trans (backupOnly_onRtc _ _)
  · exact wrapTold_backupOnly s

/-- The backup domain when the tick takes its sets. -/
theorem tickBegun_told (s : State) : (tickBegun s).rtc.told =
    { s.rtc.told with
      weekday := if s.rtc.now.tick.daySecond = 0 then (s.rtc.weekday + 1) % 7 else s.rtc.weekday
      flags := if s.rtc.now = lastSecond then flag 8 s.rtc.flags else s.rtc.flags } := by
  unfold tickBegun
  split
  · exact (congrArg (fun r : Rtc => ({ r with weekday := (r.weekday + 1) % 7 } : Rtc)) (wrapTold_told s)).trans rfl
  · exact wrapTold_told s

theorem tickCompared_backupOnly (x : Option Calendar × State) : BackupOnly x.2 (tickCompared x) :=
  (backupOnly_alarmCompare x.1 0 x.2).trans (backupOnly_alarmCompare x.1 1 _)

theorem tickCompared_clock (x : Option Calendar × State) : (tickCompared x).rtc.clock = x.2.rtc.clock :=
  (alarmCompare_clock _ _ _).trans (alarmCompare_clock _ _ _)

theorem tickCompared_keeps_flag {n : Nat} {x : Option Calendar × State} (h : x.2.rtc.flags.getLsbD n = true) :
    (tickCompared x).rtc.flags.getLsbD n = true :=
  alarmCompare_keeps_flag (alarmCompare_keeps_flag h _ _) _ _

/-- Each of the two alarms that is enabled and matches sets its flag and is disabled if it fires once (R450, R452). -/
theorem tickCompared_hit {a : Nat} {u : State} (ha : a < 2) (he : (u.rtc.alarms.getD a {}).enable = true)
    (hh : (u.rtc.alarms.getD a {}).hits u.rtc.now u.rtc.weekday = true) :
    (tickCompared (none, u)).rtc.flags.getLsbD a = true ∧
      ((tickCompared (none, u)).rtc.alarms.getD a {}).enable = !(u.rtc.alarms.getD a {}).once := by
  obtain rfl | rfl : a = 0 ∨ a = 1 := by omega
  · obtain ⟨hf, ho⟩ := alarmCompare_hit (by decide) he hh
    refine ⟨alarmCompare_keeps_flag hf _ _, ?_⟩
    rw [tickCompared, alarmCompare_other (by decide)]
    exact ho
  · have hal := alarmCompare_other (a := 0) (b := 1) (by decide) none u
    have hclock := alarmCompare_clock none 0 u
    have hnow : (alarmCompare none 0 u).rtc.now = u.rtc.now := congrArg Prod.fst hclock
    have hday : (alarmCompare none 0 u).rtc.weekday = u.rtc.weekday := congrArg (fun x => x.2.1) hclock
    rw [← hal] at he hh ⊢
    rw [← hnow, ← hday] at hh
    exact alarmCompare_hit (by decide) he hh

/-! ### What a tick records -/

/-- From `s` to `t` events are only added: to the log with logic power, to those that wait without it. -/
structure BackupTells (s t : State) : Prop where
  seq : s.log.nextSeq ≤ t.log.nextSeq
  waits : s.rtc.unraised.length ≤ t.rtc.unraised.length
  off : s.pwr.railsOff = true → t.log = s.log
  rails : t.pwr.railsOff = s.pwr.railsOff

theorem BackupTells.trans {s t u : State} (h : BackupTells s t) (h' : BackupTells t u) : BackupTells s u where
  seq := h.seq.trans h'.seq
  waits := h.waits.trans h'.waits
  off hr := (h'.off (h.rails.trans hr)).trans (h.off hr)
  rails := h'.rails.trans h.rails

theorem backupTells_of_same {s t : State} (hl : t.log = s.log) (hu : t.rtc.unraised = s.rtc.unraised)
    (hr : t.pwr.railsOff = s.pwr.railsOff) : BackupTells s t where
  seq := (congrArg Log.nextSeq hl).ge
  waits := (congrArg List.length hu).ge
  off _ := hl
  rails := hr

theorem backupTells_raise {s : State} (h : ¬ s.pwr.railsOff = true) (e : Ev) (sev : Severity) (u p q r : Nat) :
    BackupTells s (raise e sev u p q r s) where
  seq := (raise_nextSeq e sev u p q r s).symm ▸ Nat.le_succ _
  waits := le_rfl
  off hr := absurd hr h
  rails := rfl

theorem backupTells_raiseBackup (e : Ev) (sev : Severity) (p : Nat) (s : State) : BackupTells s (raiseBackup e sev p s) := by
  unfold raiseBackup
  split
  · exact ⟨le_rfl, by simp, fun _ => rfl, rfl⟩
  · exact backupTells_raise ‹_› _ _ _ _ _ _

theorem backupTells_alarmActs (a : Nat) (late : Bool) (s : State) : BackupTells s (alarmActs a late s) := by
  unfold alarmActs
  split
  · exact backupTells_of_same rfl rfl rfl
  · split
    · exact backupTells_of_same rfl rfl rfl
    · exact backupTells_raise ‹_› _ _ _ _ _ _

theorem backupTells_alarmCompare (moved : Option Calendar) (a : Nat) (s : State) : BackupTells s (alarmCompare moved a s) := by
  obtain h | ⟨late, h⟩ := alarmCompare_cases moved a s
  · rw [h]
    exact backupTells_of_same rfl rfl rfl
  · rw [h, alarmFires_eq]
    exact BackupTells.trans (t := onRtc (Rtc.fired a late) s) (backupTells_of_same rfl rfl rfl) (backupTells_alarmActs a late _)

theorem tickCompared_tells (x : Option Calendar × State) : BackupTells x.2 (tickCompared x) :=
  (backupTells_alarmCompare _ _ _).trans (backupTells_alarmCompare _ _ _)

theorem wrapTold_tells (s : State) : BackupTells s (wrapTold s) := by
  unfold wrapTold
  split
  · exact BackupTells.trans (t := onRtc (fun r => { r with flags := flag 8 r.flags }) s) (backupTells_of_same rfl rfl rfl)
      (backupTells_raiseBackup _ _ _ _)
  · exact backupTells_of_same rfl rfl rfl

theorem tickBegun_tells (s : State) : BackupTells s (tickBegun s) := by
  unfold tickBegun
  split
  · exact (wrapTold_tells s).trans (backupTells_of_same rfl rfl rfl)
  · exact wrapTold_tells s

/-! ### The sets that wait -/

/-- A tick with nothing that waits moves the calendar alone. -/
theorem tickSets_of_nothing {u : State} (hp : u.rtc.commit.pending = false) (hd : u.rtc.discipline = none) (old : Calendar) :
    tickSets old u = (none, onRtc (fun r => { r with now := old }) u) := by
  simp only [tickSets, hp, hd, Bool.false_eq_true, if_false]

/-- A set that waits is taken. -/
def Rtc.setTaken (r : Rtc) : Rtc := { r with commit := { r.commit with pending := false }, discipline := none }

/-- The calendar moves by a second and SET_INVALID stands. -/
def Rtc.setInvalid (old : Calendar) (r : Rtc) : Rtc := { r with flags := flag 7 r.flags, now := old }

/-- A possible set's alarms, filter and weekday are in force. -/
def Rtc.setInForce (c : RtcSet) (old : Calendar) (r : Rtc) : Rtc :=
  { r with alarms := c.alarms, filter := c.filter, now := old, weekday := if c.setWeekday then c.weekday else r.weekday }

/-- A possible set that writes the calendar is in force. -/
def setWritten (old : Calendar) (u : State) : State :=
  calendarMoves u.rtc.copied.time (onRtc (Rtc.setInForce u.rtc.copied old) (onRtc Rtc.setTaken u))

theorem setWritten_tells (old : Calendar) (u : State) : BackupTells u (setWritten old u) := backupTells_of_same rfl rfl rfl

theorem tickSets_of_impossible {u : State} (hp : u.rtc.commit.pending = true) (hc : u.rtc.copied.possible = false) (old : Calendar) :
    tickSets old u = (none, raiseBackup .rtcSetInvalid .notice 0 (onRtc (Rtc.setInvalid old) (onRtc Rtc.setTaken u))) := by
  simp only [tickSets, hp, hc, Bool.not_false, if_true]
  rfl

theorem tickSets_of_set {u : State} (hp : u.rtc.commit.pending = true) (hc : u.rtc.copied.possible = true)
    (hs : u.rtc.copied.setCalendar = true) (old : Calendar) :
    tickSets old u = (some old, raiseBackup .calendarSet .notice (signed32 ((u.rtc.copied.time.seconds : Int) - old.seconds))
      (setWritten old u)) := by
  simp only [tickSets, hp, hc, hs, Bool.not_true, if_true, Bool.false_eq_true, if_false]
  rfl

/-! ### The statement -/

/-- What the tick's start leaves as it was: what waits, and the calendar. -/
theorem tickBegun_kept (s : State) : (tickBegun s).rtc.commit = s.rtc.commit ∧ (tickBegun s).rtc.discipline = s.rtc.discipline ∧
    (tickBegun s).rtc.copied = s.rtc.copied ∧ (tickBegun s).rtc.valid = s.rtc.valid ∧ (tickBegun s).rtc.alarms = s.rtc.alarms := by
  have h := tickBegun_told s
  exact ⟨(congrArg Rtc.commit h).trans rfl, (congrArg Rtc.discipline h).trans rfl, (congrArg Rtc.copied h).trans rfl,
    (congrArg Rtc.valid h).trans rfl, (congrArg Rtc.alarms h).trans rfl⟩

theorem execSecondTick_of_passed {s : State} (h : secondPassed s = true) : exec .secondTick s = .next (follow (secondTick s)) :=
  congrArg answer (if_pos h)

/-- What a tick answers, by what its sets made of the calendar: the comparisons only add to it. -/
structure Ticked (s : State) (x : Option Calendar × State) (t : State) : Prop where
  clock : t.rtc.clock = x.2.rtc.clock
  tickAt : t.rtc.tickAt = x.2.mono
  flags : ∀ n, x.2.rtc.flags.getLsbD n = true → t.rtc.flags.getLsbD n = true
  tells : BackupTells x.2 t
  alarms : x.1 = none → ∀ a, a < 2 → (x.2.rtc.alarms.getD a {}).enable = true →
    (x.2.rtc.alarms.getD a {}).hits x.2.rtc.now x.2.rtc.weekday = true →
    t.rtc.flags.getLsbD a = true ∧ (t.rtc.alarms.getD a {}).enable = !(x.2.rtc.alarms.getD a {}).once
  frame : BackupOnly s x.2 → { t with rtc := s.rtc, log := s.log, pwr := s.pwr } = follow s

theorem BackupOnly.mono {s t : State} (h : BackupOnly s t) : t.mono = s.mono := by
  obtain ⟨r, l, w, rfl⟩ := h
  rfl

/-- The last write of a tick and what follows leave all but the tick's instant. -/
theorem ticked_of_compared {s u : State} {x : Option Calendar × State} (hclock : u.rtc.clock = x.2.rtc.clock)
    (honly : BackupOnly x.2 u) (hflags : ∀ n, x.2.rtc.flags.getLsbD n = true → u.rtc.flags.getLsbD n = true)
    (htells : BackupTells x.2 u) (halarms : x.1 = none → ∀ a, a < 2 → (x.2.rtc.alarms.getD a {}).enable = true →
      (x.2.rtc.alarms.getD a {}).hits x.2.rtc.now x.2.rtc.weekday = true →
      u.rtc.flags.getLsbD a = true ∧ (u.rtc.alarms.getD a {}).enable = !(x.2.rtc.alarms.getD a {}).once) :
    Ticked s x (follow (onRtc (Rtc.tickedAt u.mono) u)) where
  clock := hclock
  tickAt := congrArg (fun n : Nat => (n : Int)) honly.mono
  flags := hflags
  tells := htells.trans (backupTells_of_same rfl rfl rfl)
  alarms := halarms
  frame h := ((h.trans honly).trans (backupOnly_onRtc _ _)).follow

theorem ticked (s : State) (x : Option Calendar × State) : Ticked s x (follow (onRtc (Rtc.tickedAt (tickCompared x).mono) (tickCompared x))) := by
  obtain ⟨m, v⟩ := x
  exact ticked_of_compared (tickCompared_clock (m, v)) (tickCompared_backupOnly (m, v)) (fun _ h => tickCompared_keeps_flag h)
    (tickCompared_tells (m, v)) (fun hm _ ha he hh => by
      obtain rfl : m = none := hm
      exact tickCompared_hit ha he hh)

theorem secondTick_of_sets {s : State} {x : Option Calendar × State} (hx : tickSets s.rtc.now.tick (tickBegun s) = x)
    (hpass : secondPassed s = true) : ∃ t, exec .secondTick s = .next t ∧ Ticked s x t := by
  rw [execSecondTick_of_passed hpass, secondTick_eq, hx]
  exact ⟨_, rfl, ticked s x⟩

/-- A tick without a set moves the calendar by its next second. -/
def tickMoved (s : State) : State := onRtc (fun r => { r with now := s.rtc.now.tick }) (tickBegun s)

theorem tickMoved_clock (s : State) : (tickMoved s).rtc.clock = (s.rtc.now.tick,
    if s.rtc.now.tick.daySecond = 0 then (s.rtc.weekday + 1) % 7 else s.rtc.weekday, s.rtc.valid, s.rtc.commit, s.rtc.filter) := by
  have h := congrArg (fun r : Rtc => (s.rtc.now.tick, r.weekday, r.valid, r.commit, r.filter)) (tickBegun_told s)
  exact h

theorem tickMoved_alarms (s : State) : (tickMoved s).rtc.alarms = s.rtc.alarms := by
  have h := congrArg Rtc.alarms (tickBegun_told s)
  exact h

theorem tickMoved_wrap {s : State} (h : s.rtc.now = lastSecond) : (tickMoved s).rtc.flags.getLsbD 8 = true := by
  have hf : (tickMoved s).rtc.flags = if s.rtc.now = lastSecond then flag 8 s.rtc.flags else s.rtc.flags :=
    congrArg Rtc.flags (tickBegun_told s)
  rw [hf, if_pos h]
  exact setBit_get _ 8 (by decide)

theorem tickMoved_backupOnly (s : State) : BackupOnly s (tickMoved s) := (tickBegun_backupOnly s).trans (backupOnly_onRtc _ _)

/-- A possible set that writes the calendar, recorded. -/
def setTold (s : State) : State :=
  raiseBackup .calendarSet .notice (signed32 (((tickBegun s).rtc.copied.time.seconds : Int) - s.rtc.now.tick.seconds))
    (setWritten s.rtc.now.tick (tickBegun s))

theorem setTold_clock (s : State) : (setTold s).rtc.clock = ((tickBegun s).rtc.copied.time,
    if (tickBegun s).rtc.copied.setWeekday then (tickBegun s).rtc.copied.weekday else (tickBegun s).rtc.weekday, true,
    { (tickBegun s).rtc.commit with pending := false }, (tickBegun s).rtc.copied.filter) :=
  raiseBackup_clock _ _ _ _

theorem setTold_logs {s : State} (h : s.pwr.railsOff = false) : s.log.nextSeq < (setTold s).log.nextSeq := by
  have hstart := (tickBegun_tells s).trans (setWritten_tells s.rtc.now.tick (tickBegun s))
  rw [setTold, raiseBackup_of_power (hstart.rails.trans h), raise_nextSeq]
  exact Nat.lt_succ_of_le hstart.seq

theorem setTold_waits {s : State} (h : s.pwr.railsOff = true) :
    s.rtc.unraised.length < (setTold s).rtc.unraised.length ∧ (setTold s).log = s.log ∧ (setTold s).pwr.railsOff = true := by
  have hstart := (tickBegun_tells s).trans (setWritten_tells s.rtc.now.tick (tickBegun s))
  rw [setTold, raiseBackup_of_railsOff (hstart.rails.trans h), onRtc_rtc, List.length_append]
  exact ⟨Nat.lt_succ_of_le hstart.waits, hstart.off h, hstart.rails.trans h⟩

/-- An impossible set, dropped and told. -/
def setDropped (s : State) : State :=
  raiseBackup .rtcSetInvalid .notice 0 (onRtc (Rtc.setInvalid s.rtc.now.tick) (onRtc Rtc.setTaken (tickBegun s)))

theorem setDropped_clock (s : State) : (setDropped s).rtc.clock = (s.rtc.now.tick, (tickBegun s).rtc.weekday, (tickBegun s).rtc.valid,
    { (tickBegun s).rtc.commit with pending := false }, (tickBegun s).rtc.filter) :=
  raiseBackup_clock _ _ _ _

theorem setDropped_flag (s : State) : (setDropped s).rtc.flags.getLsbD 7 = true := by
  rw [setDropped, raiseBackup_flags]
  exact setBit_get _ 7 (by decide)

/-- Settles O31, by what a tick's start, its sets and its two comparisons make of the backup domain. -/
theorem theCalendarTicks : Obligations.TheCalendarTicks := by
  unfold Obligations.TheCalendarTicks
  intro s
  obtain ⟨hcommit, hdisc, hcopied, -, -⟩ := tickBegun_kept s
  refine ⟨fun hpass hp hd => ?moves, fun hpass hp hc => ?impossible, fun hpass hp hc hset => ?set⟩
  case moves =>
    have hx : tickSets s.rtc.now.tick (tickBegun s) = (none, tickMoved s) := tickSets_of_nothing (hcommit ▸ hp) (hdisc ▸ hd) _
    have hmoved := tickMoved_clock s
    obtain ⟨t, ht, h⟩ := secondTick_of_sets hx hpass
    have hclock := h.clock.trans hmoved
    have hweek := congrArg (fun c => c.2.1) hclock
    refine ⟨t, ht, congrArg Prod.fst hclock, h.tickAt.trans (congrArg (fun n : Nat => (n : Int)) (tickMoved_backupOnly s).mono),
      congrArg (fun c => c.2.2.1) hclock, hweek, fun hlast => h.flags 8 (tickMoved_wrap hlast), fun a ha he hh => ?_,
      h.frame (tickMoved_backupOnly s)⟩
    have hnow : (tickMoved s).rtc.now = s.rtc.now.tick := congrArg Prod.fst hmoved
    have hday : (tickMoved s).rtc.weekday = t.rtc.weekday := (congrArg (fun c => c.2.1) hmoved).trans hweek.symm
    rw [← hday, ← hnow] at hh
    rw [← tickMoved_alarms s] at he hh ⊢
    exact h.alarms rfl a ha he hh
  case impossible =>
    have hx : tickSets s.rtc.now.tick (tickBegun s) = (none, setDropped s) := tickSets_of_impossible (hcommit ▸ hp) (hcopied ▸ hc) _
    obtain ⟨t, ht, h⟩ := secondTick_of_sets hx hpass
    have hclock := h.clock.trans (setDropped_clock s)
    exact ⟨t, ht, congrArg Prod.fst hclock, congrArg (fun c => c.2.2.2.1.pending) hclock,
      h.flags 7 (setDropped_flag s)⟩
  case set =>
    have hx : tickSets s.rtc.now.tick (tickBegun s) = (some s.rtc.now.tick, setTold s) :=
      tickSets_of_set (hcommit ▸ hp) (hcopied ▸ hc) (hcopied ▸ hset) _
    obtain ⟨t, ht, h⟩ := secondTick_of_sets hx hpass
    have hclock := h.clock.trans (setTold_clock s)
    rw [hcopied] at hclock
    refine ⟨t, ht, congrArg Prod.fst hclock, congrArg (fun c => c.2.2.1) hclock,
      congrArg (fun c => c.2.2.2.1.pending) hclock, congrArg (fun c => c.2.2.2.2) hclock,
      fun hr => (setTold_logs hr).trans_le h.tells.seq, fun hr => ?_⟩
    obtain ⟨hw, hl, hoff⟩ := setTold_waits hr
    exact ⟨hw.trans_le h.tells.waits, (h.tells.off hoff).trans hl⟩

end Sys2Proof.Machine
end

section
/-! PROOFS. The backup domain's measurements, the WAKE input and the latched date (17_calendar_clock.md R441 to R455). -/

namespace Sys2Proof.Machine

/-! ### Compensation (R444) -/

theorem clamp_bounds {lo hi : Int} (h : lo ≤ hi) (x : Int) : lo ≤ clamp lo hi x ∧ clamp lo hi x ≤ hi := by
  unfold clamp
  omega

/-- The offset of the crystal takes at most a free value. -/
theorem crystalOffset_frame (t : Int) (s : State) : (crystalOffset t s).2 = { s with free := (crystalOffset t s).2.free } := by
  unfold crystalOffset
  split
  · rfl
  · split <;> rfl

theorem crystalOffset_nominal {s : State} (h : s.rtc.curveOk = false) (t : Int) :
    crystalOffset t s = (divEven (-17 * (t - 2500) * (t - 2500)) 100, s) :=
  if_pos (by rw [h]; rfl)

/-- What follows reads neither the backup domain nor the free values. -/
theorem follow_of_rtc_free {s u : State} (h : { u with rtc := s.rtc, free := s.free } = s) :
    { follow u with rtc := s.rtc, free := s.free } = follow s :=
  congrArg follow h

theorem compensate_frame (x : Int) (s : State) : { compensate x s with rtc := s.rtc, free := s.free } = s := by
  have h := congrArg (fun u : State => { u with rtc := s.rtc, free := s.free }) (crystalOffset_frame x s)
  exact h

/-! ### The cell and the WAKE input (R441, R453) -/

theorem follow_of_rtc_log {s u : State} (h : { u with rtc := s.rtc, log := s.log } = s) :
    { follow u with rtc := s.rtc, log := s.log } = follow s :=
  congrArg follow h

theorem follow_wake_of_backupOnly {s u : State} (h : BackupOnly s u) :
    { follow u with rtc := s.rtc, log := s.log, pwr := { (follow u).pwr with wakeWait := s.pwr.wakeWait } } = follow s := by
  obtain ⟨r, l, w, rfl⟩ := h
  rfl

/-- The cell's voltages. -/
def Rtc.measured (cell cap : Nat) (r : Rtc) : Rtc := { r with cellMv := cell, capMv := cap }

/-- CELL_LOW. -/
def Rtc.cellLow (r : Rtc) : Rtc := { r with flags := flag 5 r.flags }

theorem cellMeasure_ok {cell : Nat} (h : 2700 ≤ cell) (cap : Nat) (s : State) :
    cellMeasure cell cap s = onRtc (Rtc.measured cell cap) s :=
  if_neg (Nat.not_lt.mpr h)

theorem cellMeasure_low {cell : Nat} (h : cell < 2700) (cap : Nat) (s : State) :
    cellMeasure cell cap s =
      raise .rtcCellLow .notice 0xFF 0 0 0 (onRtc Rtc.cellLow (onRtc (Rtc.measured cell cap) s)) :=
  if_pos h

/-- The WAKE level. -/
def Rtc.wakeUp (r : Rtc) : Rtc := { r with wakeLevel := true }

/-- WAKE_SEEN. -/
def Rtc.wakeSeen (r : Rtc) : Rtc := { r with flags := flag 9 r.flags }

theorem wakeRise_of_sensed {s : State} (hl : s.rtc.wakeLevel = false) (hs : wakeSensed s = true) :
    wakeRise s = if inHarbour s then wakeBy .wakeInput (onRtc Rtc.wakeUp s)
      else raiseBackup .rtcWakeInput .info 0
        (onRtc Rtc.wakeSeen (onRtc Rtc.wakeUp s)) :=
  if_neg (by rw [hl, hs]; decide)

theorem backupOnly_wakeRise (s : State) : BackupOnly s (wakeRise s) := by
  unfold wakeRise
  dsimp only
  split
  · exact backupOnly_refl s
  · split
    · exact ⟨_, s.log, _, rfl⟩
    · exact ((backupOnly_onRtc _ s).trans (backupOnly_onRtc _ _)).trans (backupOnly_raiseBackup _ _ _ _)

/-- WAKE rises: it waits in harbour watch, and is told elsewhere. -/
theorem wakeInput_outcome {s : State} (hl : s.rtc.wakeLevel = false) (hs : wakeSensed s = true) :
    ∃ t, exec .wakeInput s = .next t ∧ t.rtc.wakeLevel = true ∧
      (inHarbour s = true → t.pwr.wakeWait = s.pwr.wakeWait ++ [.wakeInput] ∧ t.log = s.log) ∧
      (inHarbour s = false → t.rtc.flags.getLsbD 9 = true ∧
        (s.pwr.railsOff = false → t.log = (raise .rtcWakeInput .info 0xFF 0 0 0 s).log) ∧
        (s.pwr.railsOff = true → t.rtc.unraised = s.rtc.unraised ++ [(.rtcWakeInput, .info, 0)] ∧ t.log = s.log)) ∧
      { t with rtc := s.rtc, log := s.log, pwr := { t.pwr with wakeWait := s.pwr.wakeWait } } = follow s := by
  have hframe := follow_wake_of_backupOnly (backupOnly_wakeRise s)
  have hrise := wakeRise_of_sensed hl hs
  refine ⟨_, rfl, ?_, fun hh => ?_, fun hh => ?_, hframe⟩
  · rw [follow_rtc, hrise]
    split
    · rfl
    · have h := congrArg Rtc.wakeLevel (raiseBackup_told .rtcWakeInput .info 0 (onRtc Rtc.wakeSeen (onRtc Rtc.wakeUp s)))
      exact h
  · rw [follow_pwr, follow_log, hrise, if_pos hh]
    exact ⟨rfl, rfl⟩
  · rw [follow_rtc, follow_log, hrise, if_neg (by rw [hh]; decide), raiseBackup_flags]
    refine ⟨setBit_get _ 9 (by decide), fun hr => ?_, fun hr => ?_⟩
    · rw [raiseBackup_of_power (s := onRtc Rtc.wakeSeen (onRtc Rtc.wakeUp s)) hr]
      exact raise_log .rtcWakeInput .info 0xFF 0 0 0 _ s rfl rfl
    · rw [raiseBackup_of_railsOff (s := onRtc Rtc.wakeSeen (onRtc Rtc.wakeUp s)) hr]
      exact ⟨rfl, rfl⟩

/-- Settles O32, by the backup domain's own measurements. -/
theorem theBackupDomainMeasures : Obligations.TheBackupDomainMeasures := by
  unfold Obligations.TheBackupDomainMeasures
  intro s r
  refine ⟨fun x => ?compensation, fun cell cap => ?cell, wakeInput_outcome, fun hs => ⟨_, congrArg answer (if_pos hs), rfl, rfl⟩, ?read⟩
  case compensation =>
    obtain ⟨hlo, hhi⟩ := clamp_bounds (lo := -512) (hi := 512) (by decide) (divEven ((crystalOffset x s).1 * 1966080) 50000000000)
    refine ⟨_, rfl, rfl, hlo, hhi, fun hc => ?_, follow_of_rtc_free (compensate_frame x s)⟩
    show divEven (crystalOffset x s).1 500 = _
    rw [crystalOffset_nominal hc]
  case cell =>
    have hx : exec (.cellMeasure cell cap) s = .next (follow (cellMeasure cell cap s)) := rfl
    rw [hx]
    obtain hge | hlt := le_or_gt 2700 cell
    · rw [cellMeasure_ok hge]
      exact ⟨_, rfl, rfl, rfl, fun _ => ⟨rfl, rfl⟩, fun h => absurd h (Nat.not_lt.mpr hge), rfl⟩
    · rw [cellMeasure_low hlt]
      have hlog := raise_log .rtcCellLow .notice 0xFF 0 0 0 (onRtc Rtc.cellLow (onRtc (Rtc.measured cell cap) s)) s rfl rfl
      exact ⟨_, rfl, rfl, rfl, fun h => absurd hlt (Nat.not_lt.mpr h), fun _ => ⟨setBit_get _ 5 (by decide), (follow_log _).trans hlog⟩,
        follow_of_rtc_log (by rw [raise_frame]; rfl)⟩
  case read =>
    cases r
    · exact ⟨_, rfl, fun _ => ⟨rfl, rfl⟩, nofun, rfl, rfl⟩
    · exact ⟨_, rfl, nofun, fun _ => ⟨rfl, rfl⟩, rfl, rfl⟩

end Sys2Proof.Machine
end

section
/-! PROOFS. The commit registers: what a write accepts and copies, and what a block's boundary puts in force (00_scope.md R9, R10). -/

namespace Sys2Proof.Machine

/-! ### A block's commit register -/

theorem commitOf_rest (s : State) (b : Block) : commitOf s.rest b = commitOf s b := by cases b <;> rfl

theorem commitOf_of_rest {t u : State} (h : t.rest = u.rest) (b : Block) : commitOf t b = commitOf u b := by
  rw [← commitOf_rest, h, commitOf_rest]

theorem commitOf_settled (s u : State) (b : Block) : commitOf (follow (settle s u)) b = commitOf u b :=
  commitOf_of_rest (answer_settle_rest s u) b

/-- A block that is one of the module's: its port or line exists. -/
def BlockWithin (s : State) (b : Block) : Prop :=
  (∀ p, b = .can p → 1 ≤ p ∧ p ≤ s.can.length) ∧ ∀ n, b = .ser n → 1 ≤ n ∧ n ≤ s.ser.lines.length

theorem serLine_onLine {s : State} {n : Nat} (hn : 1 ≤ n) (hl : n ≤ s.ser.lines.length) (f : SerLine → SerLine) :
    serLine (onLine n f s) n = f (serLine s n) := by
  simp [serLine, onLine, List.getD_eq_getElem?_getD, show n - 1 < s.ser.lines.length by omega]

theorem onLine_lines_length (n : Nat) (f : SerLine → SerLine) (s : State) : (onLine n f s).ser.lines.length = s.ser.lines.length := by
  simp [onLine]

theorem commitOf_onCommit {s : State} {b : Block} (hb : BlockWithin s b) (f : Commit → Commit) :
    commitOf (onCommit f s b) b = f (commitOf s b) := by
  cases b with
  | can p => exact congrArg CanPort.commit (canPort_onCan_same (hb.1 p rfl).1 (hb.1 p rfl).2 _)
  | ser n => exact congrArg SerLine.commit (serLine_onLine (hb.2 n rfl).1 (hb.2 n rfl).2 _)
  | _ => rfl

/-- A port with its shadows copied. -/
def CanPort.shadowsCopied (c : CanPort) : CanPort := { c with copied := c.shadow }

/-- A line with its shadows copied. -/
def SerLine.shadowsCopied (l : SerLine) : SerLine := { l with copied := l.shadow }

theorem commitOf_copyShadows {s : State} {b : Block} (hb : BlockWithin s b) : commitOf (copyShadows s b) b = commitOf s b := by
  cases b with
  | can p => exact (congrArg CanPort.commit (canPort_onCan_same (hb.1 p rfl).1 (hb.1 p rfl).2 CanPort.shadowsCopied)).trans rfl
  | ser n => exact (congrArg SerLine.commit (serLine_onLine (hb.2 n rfl).1 (hb.2 n rfl).2 SerLine.shadowsCopied)).trans rfl
  | _ => rfl

theorem within_copyShadows {s : State} {b : Block} (hb : BlockWithin s b) : BlockWithin (copyShadows s b) b := by
  cases b with
  | can p => exact ⟨fun q hq => ⟨(hb.1 q hq).1, (onCan_can_length _ _ _).symm ▸ (hb.1 q hq).2⟩, nofun⟩
  | ser n => exact ⟨nofun, fun q hq => ⟨(hb.2 q hq).1, (onLine_lines_length _ _ _).symm ▸ (hb.2 q hq).2⟩⟩
  | _ => exact ⟨nofun, nofun⟩

theorem Commit.write_refused {c : Commit} {v : Word} (h : c.pending = true ∨ v.setWidth 16 ≠ c.gen + 1) (now : Nat) :
    c.accepts v = false ∧ c.write v now = { c with err := true } := by
  have ha : c.accepts v = false := by
    obtain h | h := h
    · simp [Commit.accepts, h]
    · rw [Commit.accepts, beq_false_of_ne h, Bool.and_false]
  exact ⟨ha, if_neg (by rw [ha]; decide)⟩

theorem Commit.write_accepted {c : Commit} {v : Word} (hp : c.pending = false) (hv : v.setWidth 16 = c.gen + 1) (now : Nat) :
    c.accepts v = true ∧ c.write v now = { gen := c.gen + 1, pending := true, err := false, at_ := now } := by
  have ha : c.accepts v = true := by simp [Commit.accepts, hp, hv]
  exact ⟨ha, if_pos ha⟩

/-- A commit register but for PENDING. -/
def Commit.told (c : Commit) : Commit := { c with pending := false }

/-! ### The boundary of a loop's set (R220) -/

/-- A loop that has taken its accepted set. -/
def Loop.taken (l : Loop) : Loop :=
  match l.copied with
  | none => l
  | some c => { l with force := c, copied := none }

theorem Loop.taken_of_some {l : Loop} {c : LoopSet} (h : l.copied = some c) : l.taken = { l with force := c, copied := none } := by
  rw [Loop.taken, h]

theorem Loop.taken_copied (l : Loop) : l.taken.copied = none := by
  unfold Loop.taken
  split
  · assumption
  · rfl

theorem Loop.taken_taken (l : Loop) : l.taken.taken = l.taken := by
  conv_lhs => rw [Loop.taken, l.taken_copied]

theorem forAll_loopTakeSet (l : List Nat) (s : State) :
    forAll l loopTakeSet s = onEng (fun e => { e with loops := e.loops.map fun p => (p.1, if p.1 ∈ l then p.2.taken else p.2) }) s := by
  induction l generalizing s with
  | nil => simp [forAll, onEng]
  | cons n l ih =>
    have hmap : (s.eng.loops.map fun p => if p.1 = n then (p.1, p.2.taken) else p).map
        (fun p => (p.1, if p.1 ∈ l then p.2.taken else p.2)) =
        s.eng.loops.map fun p => (p.1, if p.1 ∈ n :: l then p.2.taken else p.2) := by
      rw [List.map_map]
      refine List.map_congr_left fun p _ => ?_
      by_cases hn : p.1 = n <;> by_cases hm : p.1 ∈ l <;> simp_all [Loop.taken_taken]
    have hstep : forAll (n :: l) loopTakeSet s = forAll l loopTakeSet (loopTakeSet n s) := rfl
    rw [hstep, ih]
    exact congrArg (fun x => onEng (fun e => { e with loops := x }) s) hmap

theorem look_map {α : Type} (k : Nat) (f : Nat → α → α) (l : List (Nat × α)) :
    look k (l.map fun p => (p.1, f p.1 p.2)) = (look k l).map (f k) := by
  induction l with
  | nil => rfl
  | cons p r ih =>
    by_cases h : p.1 = k
    · simp [look, h]
    · simpa [look, h] using ih

/-- The numbers of the loops that a boundary names. -/
def loopsNamed (which : Loop → Bool) (s : State) : List Nat := (s.eng.loops.filter fun p => which p.2).map (·.1)

theorem loopsTake_loops (which : Loop → Bool) (s : State) : (loopsTake which s).eng.loops =
    s.eng.loops.map fun p => (p.1, if p.1 ∈ loopsNamed which s then p.2.taken else p.2) := by
  rw [loopsTake, forAll_loopTakeSet, loopCommitEnd]
  split <;> rfl

theorem loopsTake_commit (which : Loop → Bool) (s : State) : (loopsTake which s).eng.commit.told = s.eng.commit.told := by
  rw [loopsTake, forAll_loopTakeSet, loopCommitEnd]
  split <;> rfl

/-- PENDING clears once every loop that had a set to take was named. -/
theorem loopsTake_pending {which : Loop → Bool} {s : State} (h : ∀ p ∈ s.eng.loops, p.2.copied.isSome = true → which p.2 = true) :
    (loopsTake which s).eng.commit.pending = false := by
  have hnone : ¬ (s.eng.loops.map fun p => (p.1, if p.1 ∈ loopsNamed which s then p.2.taken else p.2)).any (fun p => p.2.copied.isSome) = true := by
    simp only [List.any_map, List.any_eq_true, Function.comp, not_exists, not_and]
    intro p hp
    by_cases hc : p.2.copied.isSome = true
    · have hin : p.1 ∈ loopsNamed which s := List.mem_map.mpr ⟨p, List.mem_filter.mpr ⟨hp, h p hp hc⟩, rfl⟩
      simp [hin, Loop.taken_copied]
    · split
      · simp [Loop.taken_copied]
      · exact hc
  rw [loopsTake, forAll_loopTakeSet, loopCommitEnd]
  exact congrArg (fun s : State => s.eng.commit.pending) (if_neg hnone)

/-- A named loop with a set to take has taken it. -/
theorem loopAt_loopsTake {which : Loop → Bool} {s : State} {n : Nat} {c : LoopSet} (hc : (loopAt s n).copied = some c)
    (hw : which (loopAt s n) = true) : loopAt (loopsTake which s) n = { loopAt s n with force := c, copied := none } := by
  unfold loopAt at hc hw ⊢
  cases hl : look n s.eng.loops with
  | none =>
    rw [hl] at hc
    cases hc
  | some l =>
    rw [hl] at hc hw
    have hin : n ∈ loopsNamed which s := List.mem_map.mpr ⟨(n, l), List.mem_filter.mpr ⟨mem_of_look hl, hw⟩, rfl⟩
    rw [loopsTake_loops, look_map n (fun k (l : Loop) => if k ∈ loopsNamed which s then l.taken else l), hl]
    simp only [Option.map_some, Option.getD_some, if_pos hin]
    exact Loop.taken_of_some hc

/-! ### The boundary of a port's set (R331) -/

/-- What a port's set is: its commit register and its three copies. -/
def CanPort.sets (c : CanPort) : Commit × CanSet × CanSet × CanSet := (c.commit, c.shadow, c.copied, c.force)

theorem retireAll_can (which : Queue → Bool) (result : Nat) (s : State) : (retireAll which result s).can = s.can :=
  forAll_keeps (fun s : State => s.can) _ (fun (d : Desc) t => retire d.handle result none t) (fun d t => retire_can d.handle result t) s

section
variable {s : State} {p : Nat} (hp : 1 ≤ p) (hl : p ≤ s.can.length)
include hp hl

theorem canGo_sets (st : CanState) : (canPort (canGo p st s) p).sets = (canPort s p).sets := by
  rw [(canGo_port hp hl st).same]
  rfl

theorem portOff_sets : (canPort (portOff p s) p).sets = (canPort s p).sets := by
  have hcan := retireAll_can (fun x => x.user == userCan && x.unit == p) retPortOff s
  have hport : canPort (retireAll (fun x => x.user == userCan && x.unit == p) retPortOff s) p = canPort s p := by
    rw [canPort, canPort, hcan]
  have hoff := canPort_onCan_same (s := retireAll (fun x => x.user == userCan && x.unit == p) retPortOff s) hp (hcan ▸ hl)
    (fun c => { c with onBus := none })
  have hgo := canGo_sets (s := onCan p (fun c => { c with onBus := none }) (retireAll (fun x => x.user == userCan && x.unit == p) retPortOff s))
    hp (by rw [onCan_can_length, hcan]; exact hl) .off
  have hsets := congrArg CanPort.sets hport
  exact hgo.trans ((congrArg CanPort.sets hoff).trans hsets)

end

/-- A port whose set no longer waits. -/
def CanPort.boundaryMet (c : CanPort) : CanPort := { c with commit := c.commit.told }

/-- A port whose copied set is in force. -/
def CanPort.inForce (c : CanPort) : CanPort := { c with force := c.copied }

/-- What the port does when a set is in force. -/
def setObeyed (c : CanPort) (p : Nat) (s : State) : State :=
  if !c.copied.cfg.getLsbD 0 then portOff p s
  else if (c.st = .off && portsRun s) || (timingDiffers c.copied c.force && c.st.onBus) then canGo p .integrating s
  else s

theorem canBoundary_of_ok {s : State} {p : Nat} (hc : (canPort s p).commit.pending = true) (hok : canSetOk (canPort s p).copied = true) :
    canBoundary p s = setObeyed (canPort s p) p (onCan p CanPort.inForce (onCan p CanPort.boundaryMet s)) := by
  simp only [canBoundary, hc, hok, if_true]
  rfl

theorem canBoundary_of_bad {s : State} {p : Nat} (hc : (canPort s p).commit.pending = true) (hok : canSetOk (canPort s p).copied = false) :
    canBoundary p s = onCan p (fun c => { c with flags := flag 6 c.flags }) (onCan p CanPort.boundaryMet s) := by
  simp only [canBoundary, hc, hok, if_true, Bool.false_eq_true, if_false]
  rfl

theorem canBoundary_of_idle {s : State} {p : Nat} (hc : (canPort s p).commit.pending = false) : canBoundary p s = s := by
  simp only [canBoundary, hc, Bool.false_eq_true, if_false]

section
variable {s : State} {p : Nat} (hp : 1 ≤ p) (hl : p ≤ s.can.length)
include hp hl

theorem setObeyed_sets (c : CanPort) : (canPort (setObeyed c p s) p).sets = (canPort s p).sets := by
  unfold setObeyed
  split
  · exact portOff_sets hp hl
  · split
    · exact canGo_sets hp hl _
    · rfl

/-- A possible set is in force, an impossible one leaves what is and sets its flag; PENDING clears. -/
theorem canBoundary_port (hc : (canPort s p).commit.pending = true) :
    (canSetOk (canPort s p).copied = true → (canPort (canBoundary p s) p).sets =
      ((canPort s p).commit.told, (canPort s p).shadow, (canPort s p).copied, (canPort s p).copied)) ∧
    (canSetOk (canPort s p).copied = false →
      (canPort (canBoundary p s) p).sets =
        ((canPort s p).commit.told, (canPort s p).shadow, (canPort s p).copied, (canPort s p).force) ∧
      (canPort (canBoundary p s) p).flags.getLsbD 6 = true) := by
  have hmet := canPort_onCan_same hp hl CanPort.boundaryMet
  have hl' : p ≤ (onCan p CanPort.boundaryMet s).can.length := (onCan_can_length p _ s).symm ▸ hl
  refine ⟨fun hok => ?_, fun hok => ?_⟩
  · have hforce := canPort_onCan_same hp hl' CanPort.inForce
    rw [canBoundary_of_ok hc hok, setObeyed_sets hp (by rw [onCan_can_length]; exact hl'), hforce, hmet]
    rfl
  · have hflag := canPort_onCan_same hp hl' (fun c => { c with flags := flag 6 c.flags })
    rw [canBoundary_of_bad hc hok, hflag, hmet]
    exact ⟨rfl, setBit_get _ 6 (by decide)⟩

/-- The commit register and the copies, whatever the set. -/
theorem canBoundary_told : (canPort (canBoundary p s) p).commit.told = (canPort s p).commit.told ∧
    (canPort (canBoundary p s) p).copied = (canPort s p).copied := by
  cases hc : (canPort s p).commit.pending with
  | false =>
    rw [canBoundary_of_idle hc]
    exact ⟨rfl, rfl⟩
  | true =>
    obtain ⟨hok, hbad⟩ := canBoundary_port hp hl hc
    cases h : canSetOk (canPort s p).copied with
    | true => exact ⟨congrArg (fun x => x.1.told) (hok h), congrArg (fun x => x.2.2.1) (hok h)⟩
    | false => exact ⟨congrArg (fun x => x.1.told) (hbad h).1, congrArg (fun x => x.2.2.1) (hbad h).1⟩

end

/-! ### The boundaries of the ring's, the clock's and the queues' sets (R304, R323, R336) -/

theorem stationLost_ring (x : Station) (s : State) : (stationLost x s).ring.commit = s.ring.commit := by
  obtain ⟨v, hv, hbeside⟩ := declareAbsent_besideSig (isRingEntry x.num) (onRing (fun r => { r with flags := flag 5 r.flags })
    (onStation x.num (fun x => { x with st := .lost, losses := satInc 16 x.losses, waiting := none, held := none }) s))
  have hring := congrArg (fun u : State => u.ring.commit) hbeside
  refine hring.trans ?_
  obtain rfl | ⟨i, rfl⟩ := hv <;> rfl

theorem ringBoundary_commit {s : State} (hc : s.ring.commit.pending = true) : (ringBoundary s).ring.commit = s.ring.commit.told := by
  unfold ringBoundary
  rw [if_pos hc]
  dsimp only
  split
  · rfl
  · split
    · rfl
    · refine keeps_ite (fun u : State => u.ring.commit) ?_ rfl
      exact (stationLost_ring _ _).trans rfl

theorem pulseMissed_commit (n k : Nat) (s : State) : (pulseMissed n k s).time.commit = s.time.commit :=
  keeps_ite (fun u : State => u.time.commit) rfl rfl

theorem onPulse_commit (n : Nat) (f : Pulse → Pulse) (s : State) : (onPulse n f s).time.commit = s.time.commit := rfl

theorem pulseOn_commit (n : Nat) (s : State) : (pulseOn n s).time.commit = s.time.commit := rfl

/-- The LATE count and flag. -/
def Time.lateOne (t : Time) : Time := { t with late := satInc 32 t.late, flags := flag 3 t.flags }

theorem lateOne_commit (s : State) : (onTime Time.lateOne s).time.commit = s.time.commit := rfl

theorem pulseLate_commit (n : Nat) (s : State) : (pulseLate n s).time.commit = s.time.commit := by
  have hlate (f : Pulse → Pulse) : (onTime Time.lateOne (onPulse n f (pulseOn n s))).time.commit = s.time.commit :=
    (lateOne_commit _).trans ((onPulse_commit n f _).trans (pulseOn_commit n s))
  unfold pulseLate
  dsimp only
  exact keeps_ite (fun u : State => u.time.commit) (keeps_ite (fun u : State => u.time.commit) (hlate _) (hlate _)) (pulseMissed_commit n 1 s)

theorem pulsePass_commit (n now : Nat) (s : State) : (pulsePass n now s).time.commit = s.time.commit := by
  unfold pulsePass
  dsimp only
  split
  · rfl
  · refine keeps_ite (fun u : State => u.time.commit) rfl (keeps_ite (fun u : State => u.time.commit) ?_ ?_)
    · exact (pulseMissed_commit n _ (pulseLate n s)).trans (pulseLate_commit n s)
    · exact pulseLate_commit n s

theorem pulseTake_commit (n : Nat) (s : State) : (pulseTake n s).time.commit = s.time.commit := by
  unfold pulseTake
  dsimp only
  refine keeps_ite (fun u : State => u.time.commit) rfl (keeps_ite (fun u : State => u.time.commit) rfl
    (keeps_ite (fun u : State => u.time.commit) ?_ rfl))
  exact (pulsePass_commit n _ _).trans rfl

theorem timeBoundary_commit {s : State} (hc : s.time.commit.pending = true) : (timeBoundary s).time.commit = s.time.commit.told := by
  unfold timeBoundary
  rw [if_pos hc, allPulses]
  have h := forAll_keeps (fun u : State => u.time.commit) [0, 1, 2, 3] pulseTake pulseTake_commit
    (onTime (fun t => { t with commit := { t.commit with pending := false } }) s)
  rw [h]
  rfl

/-- The queues once a pending set is met: the assignment is made, or refused with its flag. -/
def queMet (s : State) (x : Queue) (l : List Queue) (e : Que) : Que :=
  if x.ok && decide (s.que.copied.depth ≤ descriptorTotal) && queuesFit s l then
    { e with commit := e.commit.told, queues := l }
  else { e with commit := e.commit.told, flags := flag 2 e.flags }

theorem queMet_commit (s : State) (x : Queue) (l : List Queue) (e : Que) :
    (queMet s x l e).commit = e.commit.told ∧ (queMet s x l e).copied = e.copied := by
  unfold queMet
  split <;> exact ⟨rfl, rfl⟩

theorem queBoundary_of_met {s : State} (hc : s.que.commit.pending = true) (hh : heldBy s s.que.copied.queue = 0) :
    ∃ x l, queBoundary s = onQue (queMet s x l) s :=
  ⟨_, _, if_pos (by rw [hc, hh]; rfl)⟩

theorem queBoundary_commit (s : State) : (queBoundary s).que.commit.told = s.que.commit.told ∧
    (queBoundary s).que.copied = s.que.copied := by
  by_cases h : (s.que.commit.pending && heldBy s s.que.copied.queue == 0) = true
  · obtain ⟨hc, hh⟩ := Bool.and_eq_true_iff.mp h
    obtain ⟨x, l, hx⟩ := queBoundary_of_met hc (by simpa using hh)
    rw [hx]
    obtain ⟨h1, h2⟩ := queMet_commit s x l s.que
    rw [onQue_que, h1, h2]
    exact ⟨rfl, rfl⟩
  · rw [show queBoundary s = s from if_neg h]
    exact ⟨rfl, rfl⟩

end Sys2Proof.Machine
end

section
/-! PROOFS. Commit writes and boundaries, block by block (00_scope.md R10). -/

namespace Sys2Proof.Machine

/-! ### What a boundary leaves of the commit register -/

theorem boundaryAtOnce_told {s : State} {b : Block} (hb : BlockWithin s b) :
    (commitOf (boundaryAtOnce s b) b).told = (commitOf s b).told := by
  cases b with
  | loop => exact loopsTake_commit _ s
  | can p =>
    simp only [boundaryAtOnce]
    split
    · exact (canBoundary_told (hb.1 p rfl).1 (hb.1 p rfl).2).1
    · rfl
  | que => exact (queBoundary_commit s).1
  | _ => rfl

/-- The boundary of a line's set, met on an idle line. -/
def SerLine.boundaryMet (l : SerLine) : SerLine :=
  if l.copied.ok then { l with commit := l.commit.told, force := l.copied }
  else { l with commit := l.commit.told, flags := flag 5 l.flags }

theorem SerLine.boundaryMet_commit (l : SerLine) : l.boundaryMet.commit = l.commit.told := by
  unfold SerLine.boundaryMet
  split <;> rfl

theorem SerLine.boundaryMet_force (l : SerLine) : l.boundaryMet.force = if l.copied.ok then l.copied else l.force := by
  unfold SerLine.boundaryMet
  split <;> rfl

theorem serBoundary_of_idle {s : State} {n : Nat} (hc : (serLine s n).commit.pending = true) (ht : (serLine s n).tx = none) :
    serBoundary n s = onLine n SerLine.boundaryMet s :=
  if_pos (by rw [hc, ht]; rfl)

/-- A signal set that is met. -/
def sigMet (s : State) : State := onSig (fun g => { g with commit := g.commit.told }) s

theorem sigBoundary_met {s : State} (hc : s.sig.commit.pending = true) : (sigBoundary s).sig.commit = s.sig.commit.told ∧
    { sigBoundary s with sig := s.sig }.rest = s.rest := by
  have htouch (i : Nat) (u : State) : (touchRecord i u).beyondField = u.beyondField := by
    rw [touchRecord, recode_beyond, recode_beyond]
  unfold sigBoundary
  rw [if_pos hc]
  dsimp only
  split
  · refine ⟨rfl, ?_⟩
    have h := rest_of_beyond (htouch s.sig.copied.sel (sigMet s))
    have e := congrArg (fun u : State => { u with sig := s.rest.sig }) h
    exact e
  · exact ⟨rfl, rfl⟩

theorem pwrBoundary_of_pending {s : State} (hc : s.pwr.commit.pending = true) :
    pwrBoundary s = onPwr (fun p => { p with force := p.copied, commit := p.commit.told }) s := if_pos hc

theorem memBoundary_of_pending {s : State} (hc : s.mem.commit.pending = true) :
    memBoundary s = onMem (fun m => { m with period := m.copied, commit := m.commit.told }) s := if_pos hc

/-- The escalation limits in force. -/
def Cyc.limited (c : Cyc) : Cyc :=
  { c with commit := c.commit.told, tasks := c.tasks.mapIdx fun n t => { t with escalate := c.escCopied.getD n 0 } }

theorem cycBoundary_of_pending {s : State} (hc : s.cyc.commit.pending = true) : cycBoundary s = onCyc Cyc.limited s := if_pos hc

theorem Commit.told_of_eq {c d : Commit} (h : c = d.told) : c.told = d.told := by
  rw [h]
  rfl

theorem blockBoundary_told {s : State} {b : Block} (hb : BlockWithin s b) (hc : (commitOf s b).pending = true) :
    (commitOf (blockBoundary s b) b).told = (commitOf s b).told := by
  cases b with
  | pwr => exact Commit.told_of_eq (congrArg (fun u : State => u.pwr.commit) (pwrBoundary_of_pending hc))
  | mem => exact Commit.told_of_eq (congrArg (fun u : State => u.mem.commit) (memBoundary_of_pending hc))
  | cyc =>
    have h : (cycBoundary s).cyc.commit = s.cyc.commit.told := congrArg (fun u : State => u.cyc.commit) (cycBoundary_of_pending hc)
    simp only [blockBoundary]
    split
    · exact Commit.told_of_eq h
    · rfl
  | sig =>
    simp only [blockBoundary]
    split
    · exact Commit.told_of_eq (sigBoundary_met hc).1
    · rfl
  | loop =>
    simp only [blockBoundary]
    split
    · exact loopsTake_commit _ s
    · rfl
  | ring =>
    have h := Commit.told_of_eq (ringBoundary_commit hc)
    simp only [blockBoundary]
    split
    · split
      · exact h
      · rfl
    · split
      · exact h
      · rfl
  | time => exact Commit.told_of_eq (timeBoundary_commit hc)
  | can p =>
    exact keeps_ite (fun u : State => (canPort u p).commit.told) (canBoundary_told (hb.1 p rfl).1 (hb.1 p rfl).2).1 rfl
  | que => exact (queBoundary_commit s).1
  | rtc => rfl
  | ser n =>
    cases ht : (serLine s n).tx with
    | none =>
      have h := serLine_onLine (hb.2 n rfl).1 (hb.2 n rfl).2 SerLine.boundaryMet
      rw [blockBoundary, serBoundary_of_idle hc ht, commitOf, h]
      exact Commit.told_of_eq (SerLine.boundaryMet_commit _)
    | some x =>
      have hidle : serBoundary n s = s := if_neg (by rw [ht]; simp)
      rw [blockBoundary, hidle]

/-! ### A refused and an accepted write -/

theorem commitWrite_of_refused {s : State} {b : Block} {v : Word} (h : (commitOf s b).pending = true ∨ v.setWidth 16 ≠ (commitOf s b).gen + 1) :
    commitWrite b v s = onCommit (·.write v s.mono) s b :=
  if_neg (by rw [(Commit.write_refused h s.mono).1]; decide)

/-- Updates that agree on the element they change are the same. -/
theorem modify_eq_of_at {α : Type} (d : α) {l : List α} (i : Nat) {f g : α → α} (h : f (l.getD i d) = g (l.getD i d)) :
    l.modify i f = l.modify i g := by
  refine List.ext_getElem (by simp) fun k hk _ => ?_
  rw [List.getElem_modify, List.getElem_modify]
  split
  · next hik =>
    subst hik
    have hlt : i < l.length := by simpa using hk
    rwa [List.getD_eq_getElem _ _ hlt] at h
  · rfl

/-- A refused write sets the mark alone. -/
theorem onCommit_of_refused {s : State} {b : Block} {v : Word} (h : (commitOf s b).pending = true ∨ v.setWidth 16 ≠ (commitOf s b).gen + 1) :
    (onCommit (·.write v s.mono) s b).rest = (onCommit (fun c => { c with err := true }) s b).rest := by
  have hw := (Commit.write_refused h s.mono).2
  cases b with
  | can p =>
    have hport : s.can.modify (p - 1) (fun c => { c with commit := c.commit.write v s.mono }) =
        s.can.modify (p - 1) (fun c => { c with commit := { c.commit with err := true } }) := by
      refine modify_eq_of_at {} _ ?_
      exact congrArg (fun x => ({ canPort s p with commit := x } : CanPort)) hw
    exact congrArg (fun l => ({ s with can := l } : State).rest) hport
  | ser n =>
    have hline : s.ser.lines.modify (n - 1) (fun c => { c with commit := c.commit.write v s.mono }) =
        s.ser.lines.modify (n - 1) (fun c => { c with commit := { c.commit with err := true } }) := by
      refine modify_eq_of_at {} _ ?_
      exact congrArg (fun x => ({ serLine s n with commit := x } : SerLine)) hw
    exact congrArg (fun l => ({ s with ser := { s.ser with lines := l } } : State).rest) hline
  | pwr => exact congrArg (fun c => (onPwr (fun p => { p with commit := c }) s).rest) hw
  | mem => exact congrArg (fun c => (onMem (fun p => { p with commit := c }) s).rest) hw
  | cyc => exact congrArg (fun c => (onCyc (fun p => { p with commit := c }) s).rest) hw
  | sig => exact congrArg (fun c => (onSig (fun p => { p with commit := c }) s).rest) hw
  | loop => exact congrArg (fun c => (onEng (fun p => { p with commit := c }) s).rest) hw
  | ring => exact congrArg (fun c => (onRing (fun p => { p with commit := c }) s).rest) hw
  | time => exact congrArg (fun c => (onTime (fun p => { p with commit := c }) s).rest) hw
  | que => exact congrArg (fun c => (onQue (fun p => { p with commit := c }) s).rest) hw
  | rtc => exact congrArg (fun c => (onRtc (fun p => { p with commit := c }) s).rest) hw

/-- The state with an accepted write: the shadows copied and the register counted. -/
def commitTaken (b : Block) (v : Word) (s : State) : State := onCommit (·.write v s.mono) (copyShadows s b) b

theorem commitWrite_of_accepted {s : State} {b : Block} {v : Word} (hp : (commitOf s b).pending = false)
    (hv : v.setWidth 16 = (commitOf s b).gen + 1) : commitWrite b v s = boundaryAtOnce (commitTaken b v s) b :=
  if_pos (Commit.write_accepted hp hv s.mono).1

theorem within_onCommit {s : State} {b : Block} (hb : BlockWithin s b) (f : Commit → Commit) : BlockWithin (onCommit f s b) b := by
  cases b with
  | can p => exact ⟨fun q hq => ⟨(hb.1 q hq).1, (onCan_can_length _ _ _).symm ▸ (hb.1 q hq).2⟩, nofun⟩
  | ser n => exact ⟨nofun, fun q hq => ⟨(hb.2 q hq).1, (onLine_lines_length _ _ _).symm ▸ (hb.2 q hq).2⟩⟩
  | _ => exact ⟨nofun, nofun⟩

theorem commitOf_commitTaken {s : State} {b : Block} {v : Word} (hb : BlockWithin s b) (hp : (commitOf s b).pending = false)
    (hv : v.setWidth 16 = (commitOf s b).gen + 1) :
    commitOf (commitTaken b v s) b = { gen := (commitOf s b).gen + 1, pending := true, err := false, at_ := s.mono } := by
  rw [commitTaken, commitOf_onCommit (within_copyShadows hb), commitOf_copyShadows hb]
  exact (Commit.write_accepted hp hv s.mono).2

theorem boundaryAtOnce_of_other {b : Block} (hcan : ∀ p, b ≠ .can p) (hloop : b ≠ .loop) (hque : b ≠ .que) (s : State) :
    boundaryAtOnce s b = s := by
  cases b with
  | can p => exact absurd rfl (hcan p)
  | loop => exact absurd rfl hloop
  | que => exact absurd rfl hque
  | _ => rfl

/-- A port with an accepted write. -/
def CanPort.committed (v : Word) (now : Nat) (c : CanPort) : CanPort := { c with commit := c.commit.write v now }

/-- A line with an accepted write. -/
def SerLine.committed (v : Word) (now : Nat) (c : SerLine) : SerLine := { c with commit := c.commit.write v now }

theorem canPort_commitTaken {s : State} {p : Nat} (hp : 1 ≤ p) (hl : p ≤ s.can.length) (v : Word) :
    canPort (commitTaken (.can p) v s) p = ((canPort s p).shadowsCopied).committed v s.mono := by
  have h := canPort_onCan_same hp hl CanPort.shadowsCopied
  have h' := canPort_onCan_same (s := onCan p CanPort.shadowsCopied s) hp ((onCan_can_length _ _ _).symm ▸ hl) (CanPort.committed v s.mono)
  exact h'.trans (congrArg (CanPort.committed v s.mono) h)

theorem serLine_commitTaken {s : State} {n : Nat} (hn : 1 ≤ n) (hl : n ≤ s.ser.lines.length) (v : Word) :
    serLine (commitTaken (.ser n) v s) n = ((serLine s n).shadowsCopied).committed v s.mono := by
  have h := serLine_onLine hn hl SerLine.shadowsCopied
  have h' := serLine_onLine (s := onLine n SerLine.shadowsCopied s) hn ((onLine_lines_length _ _ _).symm ▸ hl) (SerLine.committed v s.mono)
  exact h'.trans (congrArg (SerLine.committed v s.mono) h)

/-- A loop whose shadow an accepted write copied. -/
def Loop.shadowsCopied (l : Loop) : Loop := if l.dirty then { l with copied := some l.shadow, dirty := false } else l

/-- The loops that do not compute take the sets that a write has copied. -/
theorem loopAt_committed {s : State} {n : Nat} (v : Word) (hm : loopsMode s = false) (hd : (loopAt s n).dirty = true) :
    (loopAt (boundaryAtOnce (commitTaken .loop v s) .loop) n).force = (loopAt s n).shadow := by
  have hl : loopAt (commitTaken .loop v s) n = (loopAt s n).shadowsCopied := by
    show (look n (s.eng.loops.map fun p => (p.1, p.2.shadowsCopied))).getD {} = _
    rw [look_map n (fun _ (l : Loop) => l.shadowsCopied), loopAt]
    cases look n s.eng.loops <;> rfl
  have hc : (loopAt (commitTaken .loop v s) n).copied = some (loopAt s n).shadow := by
    rw [hl, Loop.shadowsCopied, if_pos hd]
  have hw : (!((loopAt (commitTaken .loop v s) n).enabled && loopsMode (commitTaken .loop v s))) = true := by
    rw [show loopsMode (commitTaken .loop v s) = loopsMode s from rfl, hm, Bool.and_false]
    rfl
  rw [boundaryAtOnce, loopAt_loopsTake (which := fun l => !(l.enabled && loopsMode (commitTaken .loop v s))) hc hw]

theorem canPort_committed {s : State} {p : Nat} (hp : 1 ≤ p) (hl : p ≤ s.can.length) (v : Word) :
    (canPort (boundaryAtOnce (commitTaken (.can p) v s) (.can p)) p).copied = (canPort s p).shadow := by
  have hport := canPort_commitTaken hp hl v
  have hl' : p ≤ (commitTaken (.can p) v s).can.length := by
    rw [commitTaken, onCommit, onCan_can_length, copyShadows, onCan_can_length]
    exact hl
  simp only [boundaryAtOnce]
  split
  · rw [(canBoundary_told hp hl').2, hport]
    rfl
  · rw [hport]
    rfl

end Sys2Proof.Machine
end

section
/-! PROOFS. Every block's commit write and boundary (00_scope.md R10). -/

namespace Sys2Proof.Machine

theorem pulses_settled {s u : State} (h : ∀ p ∈ u.time.pulses, p.copied = p.shadow) :
    ∀ p ∈ (follow (settle s u)).time.pulses, p.copied = p.shadow := by
  rw [show (follow (settle s u)).time = (pulsesCheck u).time from settle_time s u]
  unfold pulsesCheck
  split
  · exact h
  · intro p hp
    obtain ⟨q, hq, rfl⟩ := List.mem_map.mp hp
    exact h q hq

theorem ser_of_rest {t u : State} (h : t.rest = u.rest) (n : Nat) : serLine t n = serLine u n := by
  have e := congrArg (fun x : State => serLine x n) h
  exact e

theorem can_of_rest {t u : State} (h : t.rest = u.rest) (p : Nat) : canPort t p = canPort u p := by
  have e := congrArg (fun x : State => canPort x p) h
  exact e

theorem loops_of_rest {t u : State} (h : t.rest = u.rest) (n : Nat) : loopAt t n = loopAt u n := by
  have e := congrArg (fun x : State => loopAt x n) h
  exact e

/-- The copies that an accepted write takes of the blocks whose boundary it is not. -/
theorem commitTaken_copies (v : Word) (s : State) :
    ((commitTaken .pwr v s).rest.pwr.copied = s.pwr.shadow ∧ (commitTaken .pwr v s).rest.pwr.force = s.pwr.force) ∧
    ((commitTaken .mem v s).rest.mem.copied = s.mem.shadow ∧ (commitTaken .mem v s).rest.mem.period = s.mem.period) ∧
    ((commitTaken .cyc v s).rest.cyc.escCopied = s.cyc.escShadow ∧ (commitTaken .cyc v s).rest.cyc.tasks = s.cyc.tasks) ∧
    (commitTaken .sig v s).rest.sig.copied = s.sig.shadow ∧ (commitTaken .ring v s).rest.ring.copied = s.ring.shadow ∧
    ((commitTaken .rtc v s).rest.rtc.copied = s.rtc.shadow ∧ (commitTaken .rtc v s).rest.rtc.now = s.rtc.now) ∧
    (∀ p ∈ (commitTaken .time v s).time.pulses, p.copied = p.shadow) := by
  refine ⟨⟨rfl, rfl⟩, ⟨rfl, rfl⟩, ⟨rfl, rfl⟩, rfl, rfl, ⟨rfl, rfl⟩, fun p hp => ?_⟩
  obtain ⟨q, -, rfl⟩ := List.mem_map.mp hp
  rfl

section
variable {s t : State} {b : Block} {v : Word}

/-- What an accepted write leaves of the register. -/
theorem commitOf_written (hb : BlockWithin s b) (hp : (commitOf s b).pending = false) (hv : v.setWidth 16 = (commitOf s b).gen + 1)
    (hr : t.rest = (boundaryAtOnce (commitTaken b v s) b).rest) :
    (commitOf t b).told = { gen := (commitOf s b).gen + 1, pending := false, err := false, at_ := s.mono } := by
  have hw : BlockWithin (commitTaken b v s) b := within_onCommit (within_copyShadows hb) _
  rw [commitOf_of_rest hr, boundaryAtOnce_told hw, commitOf_commitTaken hb hp hv]
  rfl

/-- The set a write has copied waits, where the acceptance is not its boundary. -/
theorem commitOf_waits (hb : BlockWithin s b) (hp : (commitOf s b).pending = false) (hv : v.setWidth 16 = (commitOf s b).gen + 1)
    (hr : t.rest = (boundaryAtOnce (commitTaken b v s) b).rest) (hcan : ∀ p, b ≠ .can p) (hloop : b ≠ .loop) (hque : b ≠ .que) :
    (commitOf t b).pending = true := by
  rw [commitOf_of_rest hr, boundaryAtOnce_of_other hcan hloop hque, commitOf_commitTaken hb hp hv]

end

/-! ### The boundaries -/

section
variable {s t : State}

theorem cyc_boundary_outcome (hc : s.cyc.commit.pending = true) (hr : t.rest = (blockBoundary s .cyc).rest)
    (hd : instantDue s 0 s.cyc.commit.at_ = true) :
    (commitOf t .cyc).pending = false ∧ (∀ n < t.cyc.tasks.length, (taskAt t n).escalate = s.cyc.escCopied.getD n 0) ∧
      { t with cyc := s.cyc }.rest = s.rest := by
  have hu : blockBoundary s .cyc = onCyc Cyc.limited s := (if_pos hd).trans (cycBoundary_of_pending hc)
  rw [hu] at hr
  have htasks : t.cyc.tasks = s.cyc.tasks.mapIdx fun n t => { t with escalate := s.cyc.escCopied.getD n 0 } := by
    have e := congrArg (fun x : State => x.cyc.tasks) hr
    exact e
  refine ⟨(congrArg Commit.pending (commitOf_of_rest hr .cyc)).trans rfl, fun n hn => ?_, ?_⟩
  · rw [taskAt, htasks]
    rw [htasks, List.length_mapIdx] at hn
    rw [List.getD_eq_getElem _ _ (by simpa using hn), List.getElem_mapIdx]
  · have e := congrArg (fun x : State => { x with cyc := s.rest.cyc }) hr
    exact e

theorem loop_boundary_outcome (hc : s.eng.commit.pending = true) (hr : t.rest = (blockBoundary s .loop).rest) :
    ((∀ p ∈ s.eng.loops, p.2.copied.isSome = true → tickDue s p.2 = true) → (commitOf t .loop).pending = false) ∧
      ∀ n c, (loopAt s n).copied = some c → tickDue s (loopAt s n) = true → (loopAt t n).force = c ∧ (loopAt t n).copied = none := by
  have hu : blockBoundary s .loop = loopsTake (tickDue s) s := if_pos hc
  rw [hu] at hr
  refine ⟨fun h => ?_, fun n c hcop hdue => ?_⟩
  · rw [commitOf_of_rest hr]
    exact loopsTake_pending h
  · rw [loops_of_rest hr, loopAt_loopsTake hcop hdue]
    exact ⟨rfl, rfl⟩

theorem ring_boundary_outcome (hc : s.ring.commit.pending = true) (hr : t.rest = (blockBoundary s .ring).rest)
    (hsome : ∀ x, stationOf s s.ring.copied.station = some x → hasInstants s x.task = true ∧ nextRelease s x.task ≤ s.mono)
    (hnone : stationOf s s.ring.copied.station = none → nextMs s.ring.commit.at_ ≤ s.mono) : (commitOf t .ring).pending = false := by
  have hu : blockBoundary s .ring = ringBoundary s := by
    simp only [blockBoundary]
    split
    · next x hx => exact if_pos (by simpa using hsome x hx)
    · next hx => exact if_pos (hnone hx)
  rw [commitOf_of_rest hr, hu, commitOf, ringBoundary_commit hc]
  rfl

theorem can_boundary_outcome {p : Nat} (hp : 1 ≤ p) (hl : p ≤ s.can.length) (hc : (canPort s p).commit.pending = true)
    (hr : t.rest = (blockBoundary s (.can p)).rest) (hbus : (canPort s p).onBus = none) :
    (commitOf t (.can p)).pending = false ∧ (canSetOk (canPort s p).copied = true → (canPort t p).force = (canPort s p).copied) ∧
      (canSetOk (canPort s p).copied = false → (canPort t p).force = (canPort s p).force ∧ (canPort t p).flags.getLsbD 6 = true) := by
  have hu : blockBoundary s (.can p) = canBoundary p s := if_pos (by rw [hbus]; rfl)
  rw [hu] at hr
  obtain ⟨hok, hbad⟩ := canBoundary_port hp hl hc
  rw [commitOf_of_rest hr, can_of_rest hr]
  refine ⟨?_, fun h => congrArg (fun x => x.2.2.2) (hok h), fun h => ⟨congrArg (fun x => x.2.2.2) (hbad h).1, (hbad h).2⟩⟩
  cases h : canSetOk (canPort s p).copied with
  | true => exact congrArg (fun x => x.1.pending) (hok h)
  | false => exact congrArg (fun x => x.1.pending) (hbad h).1

theorem que_boundary_outcome (hc : s.que.commit.pending = true) (hr : t.rest = (blockBoundary s .que).rest)
    (hh : heldBy s s.que.copied.queue = 0) : (commitOf t .que).pending = false := by
  obtain ⟨x, l, hx⟩ := queBoundary_of_met hc hh
  rw [commitOf_of_rest hr, show blockBoundary s .que = queBoundary s from rfl, hx]
  exact congrArg Commit.pending (queMet_commit s x l s.que).1

theorem ser_boundary_outcome {n : Nat} (hn : 1 ≤ n) (hl : n ≤ s.ser.lines.length) (hc : (serLine s n).commit.pending = true)
    (hr : t.rest = (blockBoundary s (.ser n)).rest) (ht : (serLine s n).tx = none) :
    (commitOf t (.ser n)).pending = false ∧ ((serLine s n).copied.ok = true → (serLine t n).force = (serLine s n).copied) ∧
      ((serLine s n).copied.ok = false → (serLine t n).force = (serLine s n).force) := by
  have hu : blockBoundary s (.ser n) = onLine n SerLine.boundaryMet s := serBoundary_of_idle hc ht
  rw [hu] at hr
  have hline : serLine t n = (serLine s n).boundaryMet := (ser_of_rest hr n).trans (serLine_onLine hn hl _)
  rw [commitOf, hline, SerLine.boundaryMet_commit, SerLine.boundaryMet_force]
  exact ⟨rfl, fun h => if_pos h, fun h => if_neg (by rw [h]; decide)⟩

end

/-- The copies that an accepted write takes, by the block. -/
theorem shadows_of_accepted {s t : State} {b : Block} {v : Word} (hb : BlockWithin s b)
    (hr : t.rest = (boundaryAtOnce (commitTaken b v s) b).rest) (hpulses : b = .time → ∀ p ∈ t.time.pulses, p.copied = p.shadow) :
    (b = .pwr → t.pwr.copied = s.pwr.shadow ∧ t.pwr.force = s.pwr.force) ∧
    (b = .mem → t.mem.copied = s.mem.shadow ∧ t.mem.period = s.mem.period) ∧
    (b = .cyc → t.cyc.escCopied = s.cyc.escShadow ∧ t.cyc.tasks = s.cyc.tasks) ∧ (b = .sig → t.sig.copied = s.sig.shadow) ∧
    (b = .ring → t.ring.copied = s.ring.shadow) ∧ (b = .rtc → t.rtc.copied = s.rtc.shadow ∧ t.rtc.now = s.rtc.now) ∧
    (b = .que → t.que.copied = s.que.shadow) ∧
    (b = .time → ∀ p ∈ t.time.pulses, p.copied = p.shadow) ∧
    (∀ n, b = .ser n → (serLine t n).copied = (serLine s n).shadow ∧ (serLine t n).force = (serLine s n).force) ∧
    (∀ p, b = .can p → (canPort t p).copied = (canPort s p).shadow) ∧
    (b = .loop → loopsMode s = false → ∀ n, (loopAt s n).dirty = true → (loopAt t n).force = (loopAt s n).shadow) := by
  obtain ⟨hpwr, hmem, hcyc, hsig, hring, hrtc, -⟩ := commitTaken_copies v s
  refine ⟨?pwr, ?mem, ?cyc, ?sig, ?ring, ?rtc, ?que, ?time, ?ser, ?can, ?loop⟩
  case pwr =>
    rintro rfl
    exact ⟨(congrArg (fun x : State => x.pwr.copied) hr).trans hpwr.1, (congrArg (fun x : State => x.pwr.force) hr).trans hpwr.2⟩
  case mem =>
    rintro rfl
    exact ⟨(congrArg (fun x : State => x.mem.copied) hr).trans hmem.1, (congrArg (fun x : State => x.mem.period) hr).trans hmem.2⟩
  case cyc =>
    rintro rfl
    exact ⟨(congrArg (fun x : State => x.cyc.escCopied) hr).trans hcyc.1, (congrArg (fun x : State => x.cyc.tasks) hr).trans hcyc.2⟩
  case sig =>
    rintro rfl
    exact (congrArg (fun x : State => x.sig.copied) hr).trans hsig
  case ring =>
    rintro rfl
    exact (congrArg (fun x : State => x.ring.copied) hr).trans hring
  case rtc =>
    rintro rfl
    exact ⟨(congrArg (fun x : State => x.rtc.copied) hr).trans hrtc.1, (congrArg (fun x : State => x.rtc.now) hr).trans hrtc.2⟩
  case que =>
    rintro rfl
    exact (congrArg (fun x : State => x.que.copied) hr).trans (queBoundary_commit (commitTaken .que v s)).2
  case time => exact hpulses
  case ser =>
    rintro n rfl
    rw [ser_of_rest hr, boundaryAtOnce_of_other (b := .ser n) (by simp) (by simp) (by simp), serLine_commitTaken (hb.2 n rfl).1 (hb.2 n rfl).2]
    exact ⟨rfl, rfl⟩
  case can =>
    rintro p rfl
    rw [can_of_rest hr]
    exact canPort_committed (hb.1 p rfl).1 (hb.1 p rfl).2 v
  case loop =>
    rintro rfl hm n hd
    rw [loops_of_rest hr]
    exact loopAt_committed v hm hd

/-- What is in force after a boundary, by the block. -/
theorem sets_of_boundary {s t : State} {b : Block} (hb : BlockWithin s b) (hc : (commitOf s b).pending = true)
    (hr : t.rest = (blockBoundary s b).rest) :
    (commitOf t b).gen = (commitOf s b).gen ∧ (commitOf t b).err = (commitOf s b).err ∧
    (b = .pwr → (commitOf t b).pending = false ∧ t.pwr.force = s.pwr.copied ∧ { t with pwr := s.pwr }.rest = s.rest) ∧
    (b = .mem → (commitOf t b).pending = false ∧ t.mem.period = s.mem.copied ∧ { t with mem := s.mem }.rest = s.rest) ∧
    (b = .cyc → instantDue s 0 s.cyc.commit.at_ = false → t.rest = s.rest) ∧
    (b = .cyc → instantDue s 0 s.cyc.commit.at_ = true → (commitOf t b).pending = false ∧ (∀ n < t.cyc.tasks.length, (taskAt t n).escalate = s.cyc.escCopied.getD n 0) ∧
      { t with cyc := s.cyc }.rest = s.rest) ∧
    (b = .sig → instantDue s 0 s.sig.commit.at_ = false → t.rest = s.rest) ∧
    (b = .sig → instantDue s 0 s.sig.commit.at_ = true → (commitOf t b).pending = false ∧ { t with sig := s.sig }.rest = s.rest) ∧
    (b = .loop → ((∀ p ∈ s.eng.loops, p.2.copied.isSome = true → tickDue s p.2 = true) → (commitOf t b).pending = false) ∧
      ∀ n c, (loopAt s n).copied = some c → tickDue s (loopAt s n) = true → (loopAt t n).force = c ∧ (loopAt t n).copied = none) ∧
    (b = .ring → (∀ x, stationOf s s.ring.copied.station = some x → hasInstants s x.task = true ∧ nextRelease s x.task ≤ s.mono) →
      (stationOf s s.ring.copied.station = none → nextMs s.ring.commit.at_ ≤ s.mono) → (commitOf t b).pending = false) ∧
    (b = .time → (commitOf t b).pending = false) ∧
    (∀ p, b = .can p → (canPort s p).onBus = none → (commitOf t b).pending = false ∧
      (canSetOk (canPort s p).copied = true → (canPort t p).force = (canPort s p).copied) ∧
      (canSetOk (canPort s p).copied = false → (canPort t p).force = (canPort s p).force ∧ (canPort t p).flags.getLsbD 6 = true)) ∧
    (b = .rtc → t.rest = s.rest) ∧
    (b = .que → heldBy s s.que.copied.queue = 0 → (commitOf t b).pending = false) ∧
    (∀ n, b = .ser n → (serLine s n).tx = none → (commitOf t b).pending = false ∧
      ((serLine s n).copied.ok = true → (serLine t n).force = (serLine s n).copied) ∧
      ((serLine s n).copied.ok = false → (serLine t n).force = (serLine s n).force)) := by
  have hk : (commitOf t b).told = (commitOf s b).told :=
    (congrArg Commit.told (commitOf_of_rest hr b)).trans (blockBoundary_told hb hc)
  have hgen : (commitOf t b).gen = (commitOf s b).gen := by
    have e := congrArg Commit.gen hk
    exact e
  have herr : (commitOf t b).err = (commitOf s b).err := by
    have e := congrArg Commit.err hk
    exact e
  refine ⟨hgen, herr, ?pwr, ?mem, ?cycEarly, ?cyc, ?sigEarly, ?sig, ?loop, ?ring, ?time, ?can, ?rtc, ?que, ?ser⟩
  case pwr =>
    rintro rfl
    have hu : blockBoundary s .pwr = _ := pwrBoundary_of_pending hc
    rw [hu] at hr
    exact ⟨(congrArg Commit.pending (commitOf_of_rest hr .pwr)).trans rfl, (congrArg (fun x : State => x.pwr.force) hr).trans rfl,
      congrArg (fun x : State => { x with pwr := s.rest.pwr }) hr⟩
  case mem =>
    rintro rfl
    have hu : blockBoundary s .mem = _ := memBoundary_of_pending hc
    rw [hu] at hr
    exact ⟨(congrArg Commit.pending (commitOf_of_rest hr .mem)).trans rfl, (congrArg (fun x : State => x.mem.period) hr).trans rfl,
      congrArg (fun x : State => { x with mem := s.rest.mem }) hr⟩
  case cycEarly =>
    rintro rfl hd
    exact hr.trans (congrArg State.rest (if_neg (by rw [hd]; decide)))
  case cyc =>
    rintro rfl hd
    exact cyc_boundary_outcome hc hr hd
  case sigEarly =>
    rintro rfl hd
    exact hr.trans (congrArg State.rest (if_neg (by rw [hd]; decide)))
  case sig =>
    rintro rfl hd
    have hu : blockBoundary s .sig = sigBoundary s := if_pos hd
    obtain ⟨hcommit, hrest⟩ := sigBoundary_met hc
    rw [hu] at hr
    refine ⟨(congrArg Commit.pending (commitOf_of_rest hr .sig)).trans (congrArg Commit.pending hcommit), ?_⟩
    have e := congrArg (fun x : State => { x with sig := s.rest.sig }) hr
    exact e.trans hrest
  case loop =>
    rintro rfl
    exact loop_boundary_outcome hc hr
  case ring =>
    rintro rfl
    exact ring_boundary_outcome hc hr
  case time =>
    rintro rfl
    exact (congrArg Commit.pending (commitOf_of_rest hr .time)).trans (congrArg Commit.pending (timeBoundary_commit hc))
  case can =>
    rintro p rfl
    exact can_boundary_outcome (hb.1 p rfl).1 (hb.1 p rfl).2 hc hr
  case rtc =>
    rintro rfl
    exact hr
  case que =>
    rintro rfl
    exact que_boundary_outcome hc hr
  case ser =>
    rintro n rfl
    exact ser_boundary_outcome (hb.2 n rfl).1 (hb.2 n rfl).2 hc hr

/-- Settles O58, by what each block's write copies and each block's boundary puts in force; no block but the clock's lies in what a settled
command delivers. -/
theorem commitsTakeWholeSets : Obligations.CommitsTakeWholeSets := by
  unfold Obligations.CommitsTakeWholeSets
  intro s b v hcan hser
  have hb : BlockWithin s b := ⟨hcan, hser⟩
  refine ⟨fun h => ?refused, fun hp hv => ?accepted, fun hc => ?boundary⟩
  case refused =>
    have hx : exec (.commitWrite b v) s = .next (follow (settle s (onCommit (·.write v s.mono) s b))) :=
      congrArg (fun u => answer (settle s u)) (commitWrite_of_refused h)
    refine ⟨_, hx, ?_, (answer_settle_rest s _).trans (onCommit_of_refused h)⟩
    rw [commitOf_settled, commitOf_onCommit hb]
    exact (Commit.write_refused h s.mono).2
  case accepted =>
    have hx : exec (.commitWrite b v) s = .next (follow (settle s (boundaryAtOnce (commitTaken b v s) b))) :=
      congrArg (fun u => answer (settle s u)) (commitWrite_of_accepted hp hv)
    have hr := answer_settle_rest s (boundaryAtOnce (commitTaken b v s) b)
    have hw := commitOf_written hb hp hv hr
    have hpulses : b = .time → ∀ p ∈ (follow (settle s (boundaryAtOnce (commitTaken b v s) b))).time.pulses, p.copied = p.shadow := by
      rintro rfl
      exact pulses_settled (commitTaken_copies v s).2.2.2.2.2.2
    exact ⟨_, hx, congrArg Commit.gen hw, congrArg Commit.err hw, congrArg Commit.at_ hw, commitOf_waits hb hp hv hr,
      shadows_of_accepted hb hr hpulses⟩
  case boundary =>
    exact ⟨_, rfl, sets_of_boundary hb hc (answer_settle_rest s (blockBoundary s b))⟩

end Sys2Proof.Machine
end

section
/-! PROOFS. The ring ports: forwarding, supervision and links (11_ring_and_stations.md R280 to R282, R302, R314). -/

namespace Sys2Proof.Machine

/-! ### What follows leaves of the ring -/

theorem follow_of_ring {s u : State} (h : { u with ring := s.ring } = s) : { follow u with ring := s.ring } = follow s :=
  congrArg follow h

theorem follow_of_ring_sent {s u : State} (h : { u with ring := s.ring, sent := s.sent } = s) :
    { follow u with ring := s.ring, sent := s.sent } = follow s :=
  congrArg follow h

theorem follow_of_ring_log {s u : State} (h : { u with ring := s.ring, log := s.log } = s) :
    { follow u with ring := s.ring, log := s.log } = follow s :=
  congrArg follow h

/-! ### Forwarding (R281, R314) -/

/-- A noted source changes the node table and its flag alone. -/
theorem noteSource_ring (src : Nat) (s : State) :
    { (noteSource src s).ring with nodes := s.ring.nodes, flags := s.ring.flags } = s.ring := by
  unfold noteSource
  simp only [onRing_ring]
  split <;> rfl

theorem noteSource_frame (src : Nat) (s : State) : { noteSource src s with ring := s.ring } = s := rfl

/-- What the switch lets pass is sent on, once. -/
def forwarded (f : RingFwd) (n : Nat) : Sent := { kind := .ringForward, unit := 3 - f.x.port, num := n, body := f.body }

section
variable {s : State} {f : RingFwd} (h : ringPortUp s f.x.port = true) (h' : ringPortUp s (3 - f.x.port) = true)
include h h'

theorem ringForward_untagged (ht : f.x.hsr = none) : ringForward f s = untagged s := by
  simp only [ringForward, h, h', ht, Bool.and_self, Bool.not_true, Bool.false_eq_true, if_false, Option.isNone_none, if_true]

theorem ringForward_of_plain (ht : f.x.hsr ≠ none) (hp : f.ptp = none) :
    ringForward f s = send .ringForward (3 - f.x.port) 0 f.body (noteSource f.x.src s) := by
  simp only [ringForward, h, h', ht, hp, Bool.and_self, Bool.not_true, Bool.false_eq_true, if_false, Option.isNone_iff_eq_none]

theorem ringForward_of_ptp (ht : f.x.hsr ≠ none) {typ corr : Nat} (hp : f.ptp = some (typ, corr)) :
    ringForward f s = if pdelayTypes.contains typ then noteSource f.x.src s
      else send .ringForward (3 - f.x.port) (corr + ptpCorrection s f.x.port typ f.residence) f.body (noteSource f.x.src s) := by
  simp only [ringForward, h, h', ht, hp, Bool.and_self, Bool.not_true, Bool.false_eq_true, if_false, Option.isNone_iff_eq_none]

/-- A tagged frame changes the node table and what is sent alone. -/
theorem ringForward_tagged (ht : f.x.hsr ≠ none) : { ringForward f s with ring := s.ring, sent := s.sent } = s ∧
    { (ringForward f s).ring with nodes := s.ring.nodes, flags := s.ring.flags } = s.ring := by
  cases hp : f.ptp with
  | none =>
    rw [ringForward_of_plain h h' ht hp]
    exact ⟨rfl, noteSource_ring f.x.src s⟩
  | some x =>
    rw [ringForward_of_ptp h h' ht hp]
    split
    · exact ⟨rfl, noteSource_ring f.x.src s⟩
    · exact ⟨rfl, noteSource_ring f.x.src s⟩

theorem ringForward_event (ht : f.x.hsr ≠ none) {typ corr n : Nat} (hp : f.ptp = some (typ, corr)) (htyp : pdelayTypes.contains typ = false)
    (hn : corr + ptpCorrection s f.x.port typ f.residence = n) : (ringForward f s).sent = forwarded f n :: s.sent := by
  rw [ringForward_of_ptp h h' ht hp, if_neg (by rw [htyp]; decide), hn]
  rfl

end

/-- The switch between two running ring ports. -/
theorem ringForward_outcome (s : State) (f : RingFwd) (h : ringPortUp s f.x.port = true) (h' : ringPortUp s (3 - f.x.port) = true) :
    (f.x.hsr = none →
      ∃ t, exec (.ringForward f) s = .next t ∧ t.ring = { s.ring with counts := { s.ring.counts with bad := satInc 32 s.ring.counts.bad } } ∧
        { t with ring := s.ring } = follow s) ∧
    (f.x.hsr ≠ none →
      ∃ t, exec (.ringForward f) s = .next t ∧ { t with ring := s.ring, sent := s.sent } = follow s ∧
        { t.ring with nodes := s.ring.nodes, flags := s.ring.flags } = s.ring ∧
        (f.ptp = none → t.sent = forwarded f 0 :: s.sent) ∧
        (∀ typ corr, f.ptp = some (typ, corr) →
          (typ = 0 → s.time.cfg.p2p = true → f.x.port = 1 →
            t.sent = forwarded f (corr + (f.residence + s.time.linkDelay1) * 65536) :: s.sent) ∧
          (typ = 0 → s.time.cfg.p2p = true → f.x.port = 2 →
            t.sent = forwarded f (corr + (f.residence + s.time.linkDelay2) * 65536) :: s.sent) ∧
          (typ = 1 ∨ (typ = 0 ∧ s.time.cfg.p2p = false) → t.sent = forwarded f (corr + f.residence * 65536) :: s.sent) ∧
          (typ = 2 ∨ typ = 3 ∨ typ = 10 → t.sent = s.sent))) := by
  refine ⟨fun ht => ?_, fun ht => ?_⟩
  · exact ⟨_, congrArg answer (ringForward_untagged h h' ht), rfl, rfl⟩
  · obtain ⟨hframe, hring⟩ := ringForward_tagged h h' ht
    refine ⟨_, rfl, follow_of_ring_sent hframe, hring, fun hp => ?_, fun typ corr hp => ⟨?_, ?_, ?_, ?_⟩⟩
    · rw [follow_sent, ringForward_of_plain h h' ht hp]
      rfl
    · rintro rfl hpp hport
      refine ringForward_event h h' ht hp rfl ?_
      simp only [ptpCorrection, linkDelay, hpp, hport, if_true]
    · rintro rfl hpp hport
      refine ringForward_event h h' ht hp rfl ?_
      simp only [ptpCorrection, linkDelay, hpp, hport, if_true, OfNat.ofNat_ne_one, if_false]
    · rintro (rfl | ⟨rfl, hpp⟩)
      · refine ringForward_event h h' ht hp rfl ?_
        simp only [ptpCorrection, if_true, one_ne_zero, if_false]
      · refine ringForward_event h h' ht hp rfl ?_
        simp only [ptpCorrection, hpp, if_true, Bool.false_eq_true, if_false, Nat.add_zero]
    · intro htyp
      have hpd : pdelayTypes.contains typ = true := by
        obtain rfl | rfl | rfl := htyp <;> rfl
      rw [follow_sent, ringForward_of_ptp h h' ht hp, if_pos hpd]
      rfl

/-! ### Supervision (R280, R282) -/

/-- A supervision frame leaves with the next HSR number and is in flight on both ports. -/
def Ring.supervised (now : Nat) (r : Ring) : Ring := { r with hsrSeq := r.hsrSeq + 1, supAt := some now, sup12 := some now, sup21 := some now }

theorem supervisionSend_of_due {s : State} (hr : railsOn s = true) (hm : s.sys.mode ≠ .harbour) (hs : ringSends s = true)
    (hl : longAgo s.ring.supAt 10000000 s.mono = true) :
    supervisionSend s = onRing (Ring.supervised s.mono) (sendFrame .supervision 0 s.ring.hsrSeq.toNat
      { ports := ringPorts s, dest := supervisionDest, hsr := some s.ring.hsrSeq.toNat, typ := supervisionType } [] s) := by
  have hruns : s.ring.runs = true := (Bool.and_eq_true_iff.mp hs).1
  have hdue : longAgo s.ring.supAt (10 * nsPerMs) s.mono = true := hl
  have hmode : (s.sys.mode != .harbour) = true := by simpa using hm
  rw [supervisionSend, if_pos (by rw [hruns, hr, hmode, hdue]; rfl), ringSend, if_pos hs]
  rfl

/-- A direction is whole again. -/
def Ring.returned (p12 : Bool) (r : Ring) : Ring :=
  if p12 then { r with dir12 := true, miss12 := 0, sup12 := none } else { r with dir21 := true, miss21 := 0, sup21 := none }

theorem ringOnly_ring (f : Ring → Ring) (s : State) : { onRing f s with ring := s.ring } = s := rfl

/-- A supervision frame that returns in time closes its direction, and tells where it was open. -/
theorem supervisionReturn_outcome {s : State} (p12 : Bool) {at_ : Nat} (hf : inFlight p12 s = some at_) (ht : s.mono ≤ at_ + 1000000) :
    ∃ t, exec (.supervisionReturn p12) s = .next t ∧ t.ring = s.ring.returned p12 ∧
      ((if p12 then s.ring.miss12 else s.ring.miss21) < 2 → t.log = s.log) ∧
      (2 ≤ (if p12 then s.ring.miss12 else s.ring.miss21) → t.log = (raise .ringClosed .notice 0xFF 0 0 0 s).log) ∧
      { t with ring := s.ring, log := s.log, time := s.time } = follow s := by
  have hopen : exec (.supervisionReturn p12) s = answer (ptpDirection
      (if 2 ≤ (if p12 then s.ring.miss12 else s.ring.miss21) then raise .ringClosed .notice 0xFF 0 0 0 (onRing (Ring.returned p12) s)
        else onRing (Ring.returned p12) s)) := by
    have hx : exec (.supervisionReturn p12) s = answer (supervisionReturn p12 s) :=
      congrArg answer (if_pos (by rw [hf]; exact decide_eq_true ht))
    rw [hx, supervisionReturn]
    cases p12 <;> simp only [Bool.false_eq_true, if_false, if_true, decide_eq_true_eq] <;> rfl
  rw [hopen]
  by_cases h2 : 2 ≤ (if p12 then s.ring.miss12 else s.ring.miss21)
  · rw [if_pos h2]
    refine ⟨_, rfl, rfl, fun h => absurd h2 (Nat.not_le.mpr h), fun _ => ?_, ?_⟩
    · exact raise_log .ringClosed .notice 0xFF 0 0 0 (onRing (Ring.returned p12) s) s rfl rfl
    · rw [raise_frame]
      rfl
  · rw [if_neg h2]
    exact ⟨_, rfl, rfl, fun _ => rfl, fun h => absurd h h2, rfl⟩

theorem supervisionTimeout_of_due {s : State} {at_ : Nat} (hf : s.ring.sup12 = some at_) (ht : at_ + 1000000 ≤ s.mono) :
    exec (.supervisionTimeout true) s = answer (supervisionTimeout true s) :=
  congrArg answer (if_pos (by rw [inFlight, if_pos rfl, hf]; exact decide_eq_true ht))

/-- The second supervision frame that does not return: the direction is open. -/
def Ring.opened12 (r : Ring) : Ring :=
  { r with
    dir12 := false, miss12 := 2, sup12 := none, flags := flag 2 r.flags
    counts := { r.counts with openings := satInc 32 r.counts.openings } }

theorem supervisionTimeout_second {s : State} (hm : s.ring.miss12 = 1) :
    supervisionTimeout true s = ptpDirection (raise .ringOpen .fault 0xFF 0 0 0 (onRing Ring.opened12 s)) := by
  simp only [supervisionTimeout, hm, if_true]
  rfl

theorem supervisionTimeout_first {s : State} (hm : s.ring.miss12 = 0) :
    supervisionTimeout true s = onRing (fun r => { r with miss12 := 1, sup12 := none }) s := by
  simp only [supervisionTimeout, hm, if_true]
  rfl

/-! ### Links (R280, R302, R500) -/

theorem linksEnd_of_past {s : State} (h : s.start.phase ≠ .linkWait) : linksEnd s = s := by
  have hw : linkWaitEnd s = s := if_neg h
  rw [linksEnd, hw, ite_self]

/-- What a settled command answers shows what it made of the state. -/
theorem answer_settled (s u : State) : ∃ t, answer (settle s u) = .next t ∧ t.rest = u.rest := ⟨_, rfl, answer_settle_rest s u⟩

theorem exec_linkUp {s u : State} {port speed : Nat} (hu : linkUp port speed s = u) (h : u.start.phase ≠ .linkWait) :
    ∃ t, exec (.linkUp port speed) s = .next t ∧ t.rest = u.rest := by
  have hx : exec (.linkUp port speed) s = answer (settle s (linksEnd (linkUp port speed s))) := rfl
  rw [hx, hu, linksEnd_of_past h]
  exact answer_settled s u

theorem ring_of_rest {t u : State} (h : t.rest = u.rest) : t.ring = u.ring := by
  have e := congrArg State.ring h
  exact e

/-- P1 below its speed is blocked. -/
def Ring.tooSlow1 (r : Ring) : Ring := { r with flags := flag 3 r.flags, blocked1 := true, link1 := false }

theorem linkUp_slow {s : State} {speed : Nat} (h : speed < gigabit) :
    linkUp 1 speed s = raise .ringSpeed .fault 1 0 0 0 (onRing Ring.tooSlow1 s) := by
  simp only [linkUp, h, if_true]
  rfl

theorem linkUp_fast {s : State} {speed : Nat} (h : gigabit ≤ speed) :
    linkUp 2 speed s = onRing (fun r => { r with link2 := true, blocked2 := false }) s := by
  simp only [linkUp, Nat.not_lt.mpr h, if_false]
  rfl

/-- The links of the four ports, in service. -/
theorem linkUp_outcome {s : State} (speed : Nat) (hw : s.start.phase ≠ .linkWait) :
    (speed < gigabit →
      ∃ t, exec (.linkUp 1 speed) s = .next t ∧ t.ring.blocked1 = true ∧ t.ring.link1 = false ∧ t.ring.flags.getLsbD 3 = true ∧
        t.log = (raise .ringSpeed .fault 1 0 0 0 s).log ∧ { t with ring := s.ring, log := s.log }.rest = s.rest) ∧
    (gigabit ≤ speed →
      ∃ t, exec (.linkUp 2 speed) s = .next t ∧ t.ring = { s.ring with link2 := true, blocked2 := false } ∧
        { t with ring := s.ring }.rest = s.rest) ∧
    (∃ t, exec (.linkUp 3 speed) s = .next t ∧ t.pair = { s.pair with linkP3 := true } ∧ { t with pair := s.pair }.rest = s.rest) ∧
    (∃ t, exec (.linkUp 4 speed) s = .next t ∧ t.sys.linkP4 = true ∧ t.plant = { s.plant with speed := speed } ∧
      { t with sys := { t.sys with linkP4 := s.sys.linkP4 }, plant := s.plant }.rest = s.rest) := by
  refine ⟨fun h => ?slow, fun h => ?fast, ?pair, ?plant⟩
  case slow =>
    obtain ⟨t, hx, hr⟩ := exec_linkUp (linkUp_slow h) hw
    have hring : t.ring = s.ring.tooSlow1 := ring_of_rest hr
    refine ⟨t, hx, congrArg Ring.blocked1 hring, congrArg Ring.link1 hring, ?_,
      (log_of_rest hr).trans (raise_log .ringSpeed .fault 1 0 0 0 (onRing Ring.tooSlow1 s) s rfl rfl), ?_⟩
    · rw [hring]
      exact setBit_get _ 3 (by decide)
    · have e := congrArg (fun z : State => { z with ring := s.ring, log := s.log }) hr
      refine e.trans ?_
      rw [raise_frame]
      rfl
  case fast =>
    obtain ⟨t, hx, hr⟩ := exec_linkUp (linkUp_fast h) hw
    exact ⟨t, hx, ring_of_rest hr, congrArg (fun z : State => { z with ring := s.ring }) hr⟩
  case pair =>
    obtain ⟨t, hx, hr⟩ := exec_linkUp (s := s) (port := 3) (speed := speed) rfl hw
    exact ⟨t, hx, by have e := congrArg State.pair hr; exact e, congrArg (fun z : State => { z with pair := s.pair }) hr⟩
  case plant =>
    obtain ⟨t, hx, hr⟩ := exec_linkUp (s := s) (port := 4) (speed := speed) rfl hw
    exact ⟨t, hx, by have e := congrArg (fun z : State => z.sys.linkP4) hr; exact e, by have e := congrArg State.plant hr; exact e,
      congrArg (fun z : State => { z with sys := { z.sys with linkP4 := s.sys.linkP4 }, plant := s.plant }) hr⟩

/-- P1 without link. -/
def Ring.unlinked1 (r : Ring) : Ring := { r with link1 := false, blocked1 := false, flags := flag 0 r.flags }

theorem linkLost_told {s : State} (h : s.ring.link1 = true) :
    linkLost 1 s = raise .ringLinkDown .notice 1 0 0 0 (onRing Ring.unlinked1 s) := by
  simp only [linkLost, h, if_true]
  rfl

/-- Settles O29, by what each command makes of the ring's ports and directions. -/
theorem ringFramesAndDirections : Obligations.RingFramesAndDirections := by
  unfold Obligations.RingFramesAndDirections
  intro s
  refine ⟨fun f h h' => ringForward_outcome s f h h', fun hr hm hs hl => ?send, ⟨fun at_ hf ht => ?return12, fun at_ hf ht => ?return21,
    fun at_ hf ht hm => ?first, fun at_ hf ht hm => ?second⟩, linkUp_outcome, fun h => ?lost⟩
  case send =>
    refine ⟨_, congrArg answer (supervisionSend_of_due hr hm hs hl), rfl, ⟨_, rfl, rfl, rfl, rfl⟩, rfl⟩
  case return12 => exact supervisionReturn_outcome true hf ht
  case return21 => exact supervisionReturn_outcome false hf ht
  case first =>
    exact ⟨_, (supervisionTimeout_of_due hf ht).trans (congrArg answer (supervisionTimeout_first hm)), rfl, rfl⟩
  case second =>
    have hx := (supervisionTimeout_of_due hf ht).trans (congrArg answer (supervisionTimeout_second hm))
    have hlog := raise_log .ringOpen .fault 0xFF 0 0 0 (onRing Ring.opened12 s) s rfl rfl
    have hring : (raise .ringOpen .fault 0xFF 0 0 0 (onRing Ring.opened12 s)).ring = s.ring.opened12 := rfl
    generalize raise .ringOpen .fault 0xFF 0 0 0 (onRing Ring.opened12 s) = u at hx hlog hring
    refine ⟨_, hx, congrArg Ring.dir12 hring, congrArg Ring.miss12 hring, congrArg Ring.sup12 hring, ?_,
      congrArg (fun r : Ring => r.counts.openings) hring, (congrArg Ring.dir21 hring).trans rfl, hlog⟩
    exact (congrArg (fun r : Ring => r.flags.getLsbD 2) hring).trans (setBit_get _ 2 (by decide))
  case lost =>
    refine ⟨_, congrArg answer (linkLost_told h), rfl, ?_, follow_of_ring_log (by rw [raise_frame]; rfl)⟩
    exact raise_log .ringLinkDown .notice 1 0 0 0 (onRing Ring.unlinked1 s) s rfl rfl

end Sys2Proof.Machine
end

section
/-! PROOFS. An INPUT whose receive slot holds a byte listed twice (11_ring_and_stations.md R291, R296): the statement on stations does not
ask for the banks' canonical form (04_memory.md R94). -/

namespace Sys2Proof.Machine

/-- An INPUT of station 1 of owner 0: SEQ 0 and no data. -/
def inputOfStation1 : List Byte := frameBytes 0x23 (leBytes 8 0 ++ leBytes 1 1 ++ leBytes 23 0)

/-- A tagged frame on P1. -/
def onP1 : Rx := { port := 1, src := 0, hsr := some 0 }

/-- Station 1, live, without data. -/
def liveStation1 : Station :=
  { num := 1, task := 0, lostCycles := 0, pinMac := false, outLen := 0, inLen := 0, watchdog := 0, typ := 0, mac := 0, st := .live
    addr := some 0 }

/-- A module whose ring engine owns B12, where byte 4 of the slot of P1 is listed twice: the store that clears it takes the first away, and the
second shows. -/
def listedTwice : State :=
  { State.reset with
    sys := { State.reset.sys with run := [.network], mode := .run }
    ring := { State.reset.ring with runs := true, link1 := true, stations := [liveStation1] }
    mem := { State.reset.mem with
      banks := State.reset.mem.banks.modify 12 fun b => { b with owner := .ring }
      cells := [(slotAt 1 + 4, 1), (slotAt 1 + 4, 2)] } }

theorem inputOfStation1_ok : frameOk 0x23 inputOfStation1 = true := by decide +kernel

theorem inputOfStation1_byte4 : inputOfStation1.getD 4 0 = 0 := by decide +kernel

theorem listedTwice_shows : (match exec (.input onP1 inputOfStation1 []) listedTwice with
    | .next t => bankByte t (slotAt 1 + 4)
    | _ => 0) = 2 := by decide +kernel

/-- Refutes O30: the slot's byte 4 reads 2 after an INPUT whose byte 4 is 0. -/
theorem not_stationsAreAdmittedAndHeard : ¬ Obligations.StationsAreAdmittedAndHeard := by
  unfold Obligations.StationsAreAdmittedAndHeard
  intro h
  obtain ⟨-, -, -, -, hinput, -, -⟩ := h listedTwice
  obtain ⟨t, ht, -, -, hslot, -⟩ := hinput onP1 inputOfStation1 liveStation1 rfl (by decide) (by decide) (by decide) (by decide +kernel)
    (by decide +kernel) inputOfStation1_ok (by decide +kernel) (by decide +kernel) (by decide +kernel) rfl (by decide +kernel)
    (by decide +kernel) (.inl rfl) (by decide +kernel) rfl (by decide +kernel) (by decide +kernel) (by decide)
  have hshown := listedTwice_shows
  rw [ht] at hshown
  have hbyte := hslot 4 (by decide +kernel)
  rw [inputOfStation1_byte4] at hbyte
  exact absurd (hbyte.symm.trans hshown) (by decide)

end Sys2Proof.Machine
end

section
/-! PROOFS. The clock of the module: the messages of its master and of the BMCA (12_network_time.md R309 to R315). -/

namespace Sys2Proof.Machine

/-! ### What follows reads of network time -/

/-- What follows reads the TIME section alone of network time, and nothing of the ring, the backup domain, the log and the free values. -/
theorem follow_atTime (s : State) (tm : Time) (g : Ring) (r : Rtc) (n : Nat) (l : Log) (h : tm.cfg = s.time.cfg) :
    { follow { s with time := tm, ring := g, rtc := r, free := n, log := l } with
      time := s.time, ring := s.ring, rtc := s.rtc, free := s.free, log := s.log } = follow s := by
  cases tm
  obtain rfl := h
  rfl

/-- `u` is `s` but for network time, with its section as it was, the ring, the backup domain and the free values. -/
structure TimeOnly (s u : State) : Prop where
  frame : { u with time := s.time, ring := s.ring, rtc := s.rtc, free := s.free } = s
  cfg   : u.time.cfg = s.time.cfg

theorem TimeOnly.refl (s : State) : TimeOnly s s := ⟨rfl, rfl⟩

theorem TimeOnly.trans {s t u : State} (h : TimeOnly s t) (h' : TimeOnly t u) : TimeOnly s u := by
  refine ⟨?_, h'.cfg.trans h.cfg⟩
  have e := congrArg (fun z : State => { z with time := s.time, ring := s.ring, rtc := s.rtc, free := s.free }) h'.frame
  exact e.trans h.frame

theorem timeOnly_onTime {f : Time → Time} (s : State) (h : (f s.time).cfg = s.time.cfg) : TimeOnly s (onTime f s) := ⟨rfl, h⟩

/-- What follows a state that differs in the clock alone. -/
theorem follow_of_timeOnly {s u : State} (h : TimeOnly s u) :
    { follow u with time := s.time, ring := s.ring, rtc := s.rtc, free := s.free } = follow s := by
  have hu : u = { s with time := u.time, ring := u.ring, rtc := u.rtc, free := u.free } := by
    have e := congrArg (fun z : State => { z with time := u.time, ring := u.ring, rtc := u.rtc, free := u.free }) h.frame
    exact e
  rw [hu]
  exact follow_atTime s u.time u.ring u.rtc u.free s.log h.cfg

/-- A PTP message that comes in is counted on its ring port. -/
theorem ptpRx_eq (port : Nat) (s : State) : ∃ g, ptpRx port s = { s with ring := g } := by
  unfold ptpRx
  split
  · exact ⟨s.ring, rfl⟩
  · split
    · exact ⟨_, rfl⟩
    · split
      · exact ⟨_, rfl⟩
      · exact ⟨s.ring, rfl⟩

/-! ### A measurement (R309, R310, R315) -/

/-- What the lock of a measurement leaves of network time. -/
def Time.measured (t : Time) : TimeCfg × Int × Option Int × Int × Option (Nat × Nat × Int) :=
  (t.cfg, t.offset, t.prevOffset, t.freq, t.syncWait)

theorem calendarCheck_timeOnly (s : State) : TimeOnly s (calendarCheck s) := by
  unfold calendarCheck
  dsimp only
  split
  · split
    · exact ⟨rfl, rfl⟩
    · exact ⟨rfl, rfl⟩
  · exact ⟨rfl, rfl⟩

theorem calendarCheck_measured (s : State) : (calendarCheck s).time.measured = s.time.measured := by
  unfold calendarCheck
  dsimp only
  split
  · split <;> rfl
  · rfl

/-- The Sync intervals in a row within the window. -/
def Time.windowed (off : Int) (t : Time) : Time :=
  { t with inWindow := if decide (-1000 ≤ off) && decide (off ≤ 1000) then min (t.inWindow + 1) 16 else 0 }

/-- LOCKED. -/
def Time.nowLocked (t : Time) : Time := { t with st := .locked, everLocked := true, portState := 9 }

/-- ACQUIRING again. -/
def Time.unlocked (t : Time) : Time := { t with st := .acquiring, portState := 8 }

theorem lockStep_eq (off : Int) (s : State) : lockStep off s =
    if (s.time.windowed off).st = .acquiring ∧ (s.time.windowed off).inWindow = 16 then
      if !(s.time.windowed off).everLocked then calendarCheck (onTime Time.nowLocked (onTime (Time.windowed off) s))
      else onTime Time.nowLocked (onTime (Time.windowed off) s)
    else if (s.time.windowed off).st = .locked ∧ (s.time.windowed off).inWindow = 0 then onTime Time.unlocked (onTime (Time.windowed off) s)
    else onTime (Time.windowed off) s := rfl

theorem lockStep_timeOnly (off : Int) (s : State) : TimeOnly s (lockStep off s) := by
  have hw : TimeOnly s (onTime (Time.windowed off) s) := timeOnly_onTime s rfl
  have hl : TimeOnly s (onTime Time.nowLocked (onTime (Time.windowed off) s)) := hw.trans (timeOnly_onTime _ rfl)
  rw [lockStep_eq]
  split
  · split
    · exact hl.trans (calendarCheck_timeOnly _)
    · exact hl
  · split
    · exact hw.trans (timeOnly_onTime _ rfl)
    · exact hw

theorem lockStep_measured (off : Int) (s : State) : (lockStep off s).time.measured = s.time.measured := by
  rw [lockStep_eq]
  split
  · split
    · exact (calendarCheck_measured _).trans rfl
    · rfl
  · split <;> rfl

/-- The servo: a frequency within its bounds, or an offset that must be seen twice. -/
def servo (off : Int) (s : State) : State :=
  if decide (10000000 ≤ off.natAbs) then
    match s.time.prevOffset with
    | some p =>
      if decide (10000000 ≤ p.natAbs) && decide ((p - off).natAbs ≤ 1000000) then
        onTime (fun t => { t with stepPending := some off, stepAt := nextMs s.mono }) s
      else s
    | none => s
  else
    onTime (fun t => { t with freq := clamp (-100000) 100000 (freed Config.freeInt s).1
                              freqs := (clamp (-100000) 100000 (freed Config.freeInt s).1 :: t.freqs).take 16 }) (freed Config.freeInt s).2

theorem measure_eq (off : Int) (s : State) : measure off s =
    lockStep off (onTime (fun t => { t with prevOffset := some off }) (servo off (onTime (fun t => { t with offset := sat32 off }) (driftAdds s)))) :=
  rfl

theorem driftAdds_timeOnly (s : State) : TimeOnly s (driftAdds s) := by
  unfold driftAdds
  refine timeOnly_onTime s ?_
  split <;> rfl

theorem driftAdds_measured (s : State) : (driftAdds s).time.measured = s.time.measured := by
  unfold driftAdds
  rw [onTime_time]
  split <;> rfl

theorem servo_timeOnly (off : Int) (s : State) : TimeOnly s (servo off s) := by
  unfold servo
  split
  · split
    · split
      · exact timeOnly_onTime s rfl
      · exact .refl s
    · exact .refl s
  · exact ⟨rfl, rfl⟩

/-- The servo leaves the offset and what waits. -/
theorem servo_kept (off : Int) (s : State) : (servo off s).time.offset = s.time.offset ∧ (servo off s).time.syncWait = s.time.syncWait := by
  unfold servo
  split
  · split
    · split <;> exact ⟨rfl, rfl⟩
    · exact ⟨rfl, rfl⟩
  · exact ⟨rfl, rfl⟩

theorem servo_freq {off : Int} (h : off.natAbs < 10000000) (s : State) :
    -100000 ≤ (servo off s).time.freq ∧ (servo off s).time.freq ≤ 100000 := by
  have hs := clamp_bounds (lo := -100000) (hi := 100000) (by decide) (freed Config.freeInt s).1
  unfold servo
  rw [if_neg (by simpa using h)]
  exact hs

/-- A measurement: the offset, what it is compared with next, and a frequency within bounds where it is small. -/
structure Measured (off : Int) (s u : State) : Prop where
  only     : TimeOnly s u
  offset   : u.time.offset = sat32 off
  prev     : u.time.prevOffset = some off
  wait     : u.time.syncWait = s.time.syncWait
  freq     : off.natAbs < 10000000 → -100000 ≤ u.time.freq ∧ u.time.freq ≤ 100000

theorem measured (off : Int) (s : State) : Measured off s (measure off s) := by
  have h1 : TimeOnly s (onTime (fun t => { t with offset := sat32 off }) (driftAdds s)) :=
    (driftAdds_timeOnly s).trans (timeOnly_onTime _ rfl)
  have hwait : (driftAdds s).time.syncWait = s.time.syncWait := congrArg (fun x => x.2.2.2.2) (driftAdds_measured s)
  rw [measure_eq]
  generalize hu : onTime (fun t => { t with offset := sat32 off }) (driftAdds s) = u at h1
  have hoff : u.time.offset = sat32 off := hu ▸ rfl
  have hw : u.time.syncWait = s.time.syncWait := hu ▸ hwait
  obtain ⟨hko, hkw⟩ := servo_kept off u
  have hm := lockStep_measured off (onTime (fun t => { t with prevOffset := some off }) (servo off u))
  have hf : (lockStep off (onTime (fun t => { t with prevOffset := some off }) (servo off u))).time.freq = (servo off u).time.freq :=
    congrArg (fun x => x.2.2.2.1) hm
  exact
    { only := h1.trans ((servo_timeOnly off u).trans ((timeOnly_onTime _ rfl).trans (lockStep_timeOnly off _)))
      offset := ((congrArg (fun x => x.2.1) hm).trans hko).trans hoff
      prev := congrArg (fun x => x.2.2.1) hm
      wait := ((congrArg (fun x => x.2.2.2.2) hm).trans hkw).trans hw
      freq := fun h => hf ▸ servo_freq h u }

/-! ### Sync and Follow_Up (R311) -/

/-- A clock with another ring. -/
theorem timeOnly_ring (s : State) (g : Ring) : TimeOnly s { s with ring := g } := ⟨rfl, rfl⟩

theorem exec_ptpSync (m : PtpSync) (s : State) : ∃ g, exec (.ptpSync m) s = answer (ptpSync m { s with ring := g }) := by
  obtain ⟨g, hg⟩ := ptpRx_eq m.port s
  exact ⟨g, congrArg (fun u => answer (ptpSync m u)) hg⟩

theorem exec_ptpFollowUp (m : PtpSync) (s : State) : ∃ g, exec (.ptpFollowUp m) s = answer (ptpFollowUp m { s with ring := g }) := by
  obtain ⟨g, hg⟩ := ptpRx_eq m.port s
  exact ⟨g, congrArg (fun u => answer (ptpFollowUp m u)) hg⟩

/-- The difference that a Sync gives. -/
def Time.differs (x : Int) (t : Time) : Time := { t with syncDiff := x }

/-- An offset formed of a Sync whose origin is known. -/
theorem syncOffset_measured (origin : Nat) (corr : Int) (receipt : Nat) (s : State) :
    Measured (meanDelay s - ((receipt : Int) - origin - corr)) (onTime (Time.differs ((receipt : Int) - origin - corr)) s)
      (syncOffset origin corr receipt s) :=
  measured _ _

/-- A clock that has heard a Sync. -/
def Time.synced (now : Nat) (t : Time) : Time := { t with syncAt := now }

theorem ptpSync_oneStep {s : State} {m : PtpSync} (ht : ptpTakes s m = true) (h1 : m.twoStep = false) :
    ptpSync m s = syncOffset m.origin m.corr (receiptAt s m.port) (onTime (Time.synced s.mono) s) := by
  rw [ptpSync, if_pos ht]
  simp only [h1, Bool.false_eq_true, if_false]
  rfl

theorem ptpSync_twoStep {s : State} {m : PtpSync} (ht : ptpTakes s m = true) (h2 : m.twoStep = true) :
    ptpSync m s = onTime (fun t => { t with syncAt := s.mono, syncWait := some (m.seq, receiptAt s m.port, m.corr) }) s := by
  rw [ptpSync, if_pos ht]
  simp only [h2, if_true]
  rfl

/-- A clock whose two-step Sync is taken. -/
def Time.followed (t : Time) : Time := { t with syncWait := none }

theorem ptpFollowUp_of_waiting {s : State} {m : PtpSync} {receipt : Nat} {corr : Int} (ht : ptpTakes s m = true)
    (hw : s.time.syncWait = some (m.seq, receipt, corr)) :
    ptpFollowUp m s = syncOffset m.origin (corr + m.corr) receipt (onTime Time.followed s) := by
  rw [ptpFollowUp, if_pos ht]
  simp only [hw, if_true]
  rfl

/-! ### Announces (R309, R313) -/

/-- A master that the BMCA follows, new to the clock. -/
def Time.acquires (now : Nat) (m : PtpAnnounce) (t : Time) : Time :=
  { t with
    announceAt := now, st := .acquiring, portState := 8, master := m.master, inWindow := 0, prevOffset := none, syncWait := none
    stepPending := none, expired := false, syncAt := now, utcOffset := if m.utcValid then m.utcOffset else t.cfg.utcOffset
    utcValid := m.utcValid }

/-- A clock that has heard an Announce. -/
def Time.announced (now : Nat) (t : Time) : Time := { t with announceAt := now }

/-- A message that concerns the ordinary clock. -/
def AnnounceConcerns (s : State) (m : PtpAnnounce) : Prop :=
  s.time.cfg.ptp = true ∧ m.domain = s.time.cfg.domain ∧ m.port = ptpPort s

theorem ptpAnnounce_of_concerns {s : State} {m : PtpAnnounce} (h : AnnounceConcerns s m) :
    (!s.time.cfg.ptp || m.domain != s.time.cfg.domain || m.port != ptpPort s) = false := by
  obtain ⟨hp, hd, hport⟩ := h
  rw [hp, hd, hport]
  simp

theorem ptpAnnounce_follow {s : State} {m : PtpAnnounce} (h : AnnounceConcerns s m) (hd : m.decision = .follow)
    (hm : hasMaster s = false ∨ m.master ≠ s.time.master) :
    ptpAnnounce m s = onTime (Time.acquires s.mono m) s ∨
      ptpAnnounce m s = raise .ptpMasterChanged .notice 0xFF 0 0 0
        (onTime (fun t => { t with flags := flag 2 t.flags }) (onTime (Time.acquires s.mono m) s)) := by
  have hnew : (hasMaster s && m.master == s.time.master) = false := by
    obtain h | h := hm
    · rw [h]
      rfl
    · rw [beq_false_of_ne h, Bool.and_false]
  have hnew' : (hasMaster (onTime (Time.announced s.mono) s) && m.master == s.time.master) = false := hnew
  unfold ptpAnnounce
  rw [if_neg (by rw [ptpAnnounce_of_concerns h]; decide)]
  rw [hd]
  show (if hasMaster (onTime (Time.announced s.mono) s) && m.master == s.time.master then _ else _) = _ ∨
    (if hasMaster (onTime (Time.announced s.mono) s) && m.master == s.time.master then _ else _) = _
  rw [if_neg (by rw [hnew']; decide)]
  by_cases hc : (s.time.master != 0 && s.time.master != m.master) = true
  · exact .inr (if_pos hc)
  · exact .inl (if_neg hc)

theorem ptpAnnounce_master {s : State} {m : PtpAnnounce} (h : AnnounceConcerns s m) (hd : m.decision = .master) :
    ptpAnnounce m s = beGrandmaster s := by
  unfold ptpAnnounce
  rw [if_neg (by rw [ptpAnnounce_of_concerns h]; decide)]
  simp only [hd]

/-- A grandmaster that the BMCA makes passive. -/
def Time.passive (now : Nat) (t : Time) : Time :=
  { t with announceAt := now, st := if t.everLocked then .holdover else .freeRun, portState := 7, holdSince := now, expired := false }

theorem ptpAnnounce_passive {s : State} {m : PtpAnnounce} (h : AnnounceConcerns s m) (hd : m.decision = .passive) (hg : s.time.st = .grandmaster) :
    ptpAnnounce m s = onTime (Time.passive s.mono) s := by
  unfold ptpAnnounce
  rw [if_neg (by rw [ptpAnnounce_of_concerns h]; decide)]
  simp only [hd, hasMaster, onTime_time, hg, if_true]
  rfl

theorem exec_ptpAnnounce (m : PtpAnnounce) (s : State) : ∃ g, exec (.ptpAnnounce m) s = answer (ptpAnnounce m { s with ring := g }) := by
  obtain ⟨g, hg⟩ := ptpRx_eq m.port s
  exact ⟨g, congrArg (fun u => answer (ptpAnnounce m u)) hg⟩

/-! ### Delay responses (R311, R314) -/

/-- The delay that a response gives, by its port. -/
def Time.peerDelay (port d : Nat) (t : Time) : Time :=
  match port with
  | 1 => { t with linkDelay1 := d }
  | 2 => { t with linkDelay2 := d }
  | _ => { t with pathDelay := d }

/-- The mean link delay that a response gives. -/
def peerOf (m : PtpDelay) (s : State) : Nat :=
  (Int.tdiv ((receiptAt s m.port : Int) - (sendingAt s m.port s.time.reqAt : Int) - m.time - m.corr) 2).toNat

/-- The mean path delay that a response gives. -/
def pathOf (m : PtpDelay) (s : State) : Nat :=
  (Int.tdiv (s.time.syncDiff + ((m.time : Int) - (sendingAt s m.port s.time.reqAt : Int) - m.corr)) 2).toNat

theorem ptpDelayResp_eq {s : State} {m : PtpDelay} (hp : s.time.cfg.ptp = true) (hd : m.domain = s.time.cfg.domain) :
    ptpDelayResp m s =
      if s.time.cfg.p2p then onTime (Time.peerDelay m.port (peerOf m s)) s
      else if m.port = ptpPort s then onTime (fun t => { t with pathDelay := pathOf m s }) s else s := by
  rw [ptpDelayResp, if_pos (by rw [hp, hd]; simp)]
  rfl

theorem peerDelay_cfg (port d : Nat) (t : Time) : (t.peerDelay port d).cfg = t.cfg := by
  unfold Time.peerDelay
  split <;> rfl

theorem exec_ptpDelayResp (m : PtpDelay) (s : State) : ∃ g, exec (.ptpDelayResp m) s = answer (ptpDelayResp m { s with ring := g }) := by
  obtain ⟨g, hg⟩ := ptpRx_eq m.port s
  exact ⟨g, congrArg (fun u => answer (ptpDelayResp m u)) hg⟩

/-- A delay response in either mode. -/
theorem delayResp_outcome {s : State} {m : PtpDelay} (hp : s.time.cfg.ptp = true) (hd : m.domain = s.time.cfg.domain) :
    ∃ t, exec (.ptpDelayResp m) s = .next t ∧
      (s.time.cfg.p2p = true → m.port = 1 → t.time = { s.time with linkDelay1 := peerOf m s }) ∧
      (s.time.cfg.p2p = true → m.port = 2 → t.time = { s.time with linkDelay2 := peerOf m s }) ∧
      (s.time.cfg.p2p = false → m.port = ptpPort s → t.time = { s.time with pathDelay := pathOf m s }) ∧
      { t with time := s.time, ring := s.ring } = follow s := by
  obtain ⟨g, hg⟩ := exec_ptpDelayResp m s
  have heq : ptpDelayResp m { s with ring := g } =
      if s.time.cfg.p2p then onTime (Time.peerDelay m.port (peerOf m s)) { s with ring := g }
      else if m.port = ptpPort s then onTime (fun t => { t with pathDelay := pathOf m s }) { s with ring := g } else { s with ring := g } :=
    ptpDelayResp_eq hp hd
  rw [hg, heq]
  by_cases hpp : s.time.cfg.p2p = true
  · rw [if_pos hpp]
    refine ⟨_, rfl, fun _ h => ?_, fun _ h => ?_, fun h => absurd h (by rw [hpp]; decide), ?_⟩
    · rw [follow_time, onTime_time, h]
      exact congrArg (fun d => ({ s.time with linkDelay1 := d } : Time)) rfl
    · rw [follow_time, onTime_time, h]
      exact congrArg (fun d => ({ s.time with linkDelay2 := d } : Time)) rfl
    · exact follow_atTime s _ g s.rtc s.free s.log (peerDelay_cfg _ _ _)
  · rw [if_neg hpp]
    by_cases hport : m.port = ptpPort s
    · rw [if_pos hport]
      exact ⟨_, rfl, fun h => absurd h hpp, fun h => absurd h hpp, fun _ _ => rfl, follow_atTime s _ g s.rtc s.free s.log rfl⟩
    · rw [if_neg hport]
      exact ⟨_, rfl, fun h => absurd h hpp, fun h => absurd h hpp, fun _ h => absurd h hport, follow_atTime s s.time g s.rtc s.free s.log rfl⟩

/-- Settles O33, message by message. -/
theorem theClockFollowsItsMaster : Obligations.TheClockFollowsItsMaster := by
  unfold Obligations.TheClockFollowsItsMaster
  intro s
  refine ⟨fun m ht h1 => ?oneStep, fun m ht h2 => ?twoStep, fun m receipt corr ht hw => ?followUp, fun m hp hd hport hdec hm => ?follow,
    fun m hp hd hport hdec hg => ?master, fun m hp hd hport hdec hg => ?passive, fun m hp hd => delayResp_outcome hp hd⟩
  case oneStep =>
    obtain ⟨g, hg⟩ := exec_ptpSync m s
    rw [ptpSync_oneStep (s := { s with ring := g }) ht h1] at hg
    have h := syncOffset_measured m.origin m.corr (receiptAt s m.port) (onTime (Time.synced s.mono) { s with ring := g })
    have hbase : TimeOnly s (onTime (Time.differs ((receiptAt s m.port : Int) - m.origin - m.corr))
        (onTime (Time.synced s.mono) { s with ring := g })) := ⟨rfl, rfl⟩
    exact ⟨_, hg, h.offset, h.prev, h.freq, follow_of_timeOnly (hbase.trans h.only)⟩
  case twoStep =>
    obtain ⟨g, hg⟩ := exec_ptpSync m s
    rw [ptpSync_twoStep (s := { s with ring := g }) ht h2] at hg
    exact ⟨_, hg, rfl, follow_atTime s _ g s.rtc s.free s.log rfl⟩
  case followUp =>
    obtain ⟨g, hg⟩ := exec_ptpFollowUp m s
    rw [ptpFollowUp_of_waiting (s := { s with ring := g }) ht hw] at hg
    have h := syncOffset_measured m.origin (corr + m.corr) receipt (onTime Time.followed { s with ring := g })
    have hbase : TimeOnly s (onTime (Time.differs ((receipt : Int) - m.origin - (corr + m.corr)))
        (onTime Time.followed { s with ring := g })) := ⟨rfl, rfl⟩
    exact ⟨_, hg, h.wait, h.offset, h.prev, follow_of_timeOnly (hbase.trans h.only)⟩
  case follow =>
    obtain ⟨g, hg⟩ := exec_ptpAnnounce m s
    obtain h | h := ptpAnnounce_follow (s := { s with ring := g }) (m := m) ⟨hp, hd, hport⟩ hdec hm
    · rw [h] at hg
      exact ⟨_, hg, rfl, rfl, rfl, rfl, rfl, follow_atTime s _ g s.rtc s.free s.log rfl⟩
    · rw [h] at hg
      exact ⟨_, hg, rfl, rfl, rfl, rfl, rfl, follow_atTime s _ g s.rtc s.free _ rfl⟩
  case master =>
    obtain ⟨g, hx⟩ := exec_ptpAnnounce m s
    have hbe : beGrandmaster { s with ring := g } = _ := if_pos hg
    rw [ptpAnnounce_master (s := { s with ring := g }) (m := m) ⟨hp, hd, hport⟩ hdec, hbe] at hx
    exact ⟨_, hx, rfl, rfl, rfl, follow_atTime s _ g s.rtc s.free s.log rfl⟩
  case passive =>
    obtain ⟨g, hx⟩ := exec_ptpAnnounce m s
    rw [ptpAnnounce_passive (s := { s with ring := g }) (m := m) ⟨hp, hd, hport⟩ hdec hg] at hx
    exact ⟨_, hx, rfl, rfl, rfl, follow_atTime s _ g s.rtc s.free s.log rfl⟩

end Sys2Proof.Machine
end

section
/-! PROOFS. The PTP messages that the module sends, its timed pulses and its timed launches (12_network_time.md R311 to R319). -/

namespace Sys2Proof.Machine

/-- What follows reads the TIME section alone of network time, and nothing of the ring and of what was sent. -/
theorem follow_sending (s : State) (tm : Time) (g : Ring) (l : List Sent) (h : tm.cfg = s.time.cfg) :
    { follow { s with time := tm, ring := g, sent := l } with time := s.time, sent := s.sent, ring := s.ring } = follow s := by
  cases tm
  obtain rfl := h
  rfl

/-! ### What leaves (R311, R314) -/

/-- A PTP message that arrives changes the counts of its port alone. -/
theorem ptpRx_counts (port : Nat) (s : State) : ∃ c, ptpRx port s = { s with ring := { s.ring with counts := c } } := by
  unfold ptpRx
  split
  · exact ⟨s.ring.counts, rfl⟩
  · split
    · exact ⟨_, rfl⟩
    · split
      · exact ⟨_, rfl⟩
      · exact ⟨s.ring.counts, rfl⟩

/-- The PTP message that leaves, on P4 or on the ring. -/
def ptpFrame (s : State) (k : SentKind) (num dest : Nat) (body : List Byte) : Sent :=
  if s.time.cfg.port4 then
    { kind := k, unit := 4, num := num, body := padded body, eth := some { ports := [4], dest := dest, tag := some 7, typ := ptpType } }
  else
    { kind := k, unit := 1, num := num, body := padded body
      eth := some { ports := ringPorts s, dest := dest, hsr := some s.ring.hsrSeq.toNat, typ := ptpType } }

theorem ringSends_of_ptpSends {s : State} (h : ptpSends s = true) (h4 : s.time.cfg.port4 = false) : ringSends s = true := by
  simp only [ptpSends, h4, Bool.false_eq_true, if_false, Bool.and_eq_true] at h
  exact h.2

/-- The ring once a PTP message has left. -/
def ptpRing (s : State) : Ring := if s.time.cfg.port4 then s.ring else { s.ring with hsrSeq := s.ring.hsrSeq + 1 }

theorem ptpSend_of_sends {s : State} (h : ptpSends s = true) (k : SentKind) (num dest : Nat) (body : List Byte) :
    ptpSend k num body s dest = { s with sent := ptpFrame s k num dest body :: s.sent, ring := ptpRing s } := by
  unfold ptpSend ptpFrame ptpRing
  rw [if_neg (by rw [h]; decide)]
  cases h4 : s.time.cfg.port4 with
  | true => rfl
  | false =>
    simp only [Bool.false_eq_true, if_false, ringSend, ringSends_of_ptpSends h h4, if_true]
    rfl

theorem ptpFrame_kind (s : State) (k : SentKind) (num dest : Nat) (body : List Byte) : (ptpFrame s k num dest body).kind = k := by
  unfold ptpFrame
  split <;> rfl

theorem ptpFrame_num (s : State) (k : SentKind) (num dest : Nat) (body : List Byte) : (ptpFrame s k num dest body).num = num := by
  unfold ptpFrame
  split <;> rfl

theorem ptpFrame_body (s : State) (k : SentKind) (num dest : Nat) (body : List Byte) : (ptpFrame s k num dest body).body = padded body := by
  unfold ptpFrame
  split <;> rfl

theorem ptpFrame_p4 {s : State} (h : s.time.cfg.port4 = true) (k : SentKind) (num dest : Nat) (body : List Byte) :
    (ptpFrame s k num dest body).eth = some { ports := [4], dest := dest, tag := some 7, typ := ptpType } := by
  rw [ptpFrame, if_pos h]

/-- A clock that sends still sends once a message has left. -/
theorem ptpSends_after {s : State} (h : ptpSends s = true) (l : List Sent) : ptpSends { s with sent := l, ring := ptpRing s } = true := by
  refine Eq.trans ?_ h
  unfold ptpSends ringSends ringPorts ptpRing
  cases s.time.cfg.port4 <;> rfl

/-! ### The grandmaster's messages (R311, R313) -/

theorem syncSend_outcome {s : State} (hg : s.time.st = .grandmaster) (h : ptpSends s = true) :
    ∃ t, exec .ptpSyncSend s = .next t ∧ (t.sent.take 2).map (fun x => (x.kind, x.num)) =
        [(.ptpFollowUp, s.time.ptpSeq), (.ptpSync, s.time.ptpSeq)] ∧ t.sent.drop 2 = s.sent ∧
      (t.sent.head?.map (·.body)) = some (padded (ptpTimestamp (sendingAt s (ptpPort s) s.time.ns))) ∧
      (s.time.cfg.port4 = true → ∀ x ∈ t.sent.take 2, x.eth = some { ports := [4], dest := ptpDest, tag := some 7, typ := ptpType }) ∧
      t.time = { s.time with ptpSeq := (s.time.ptpSeq + 1) % 65536 } ∧
      { t with time := s.time, sent := s.sent, ring := s.ring } = follow s := by
  have hsync := ptpSend_of_sends h .ptpSync s.time.ptpSeq ptpDest (ptpInterval s.time.cfg.logSync)
  have hfollow := ptpSend_of_sends (ptpSends_after h (ptpFrame s .ptpSync s.time.ptpSeq ptpDest (ptpInterval s.time.cfg.logSync) :: s.sent))
    .ptpFollowUp s.time.ptpSeq ptpDest (ptpTimestamp (sendingAt s (ptpPort s) s.time.ns))
  have hx : exec .ptpSyncSend s = answer (ptpSyncSend s) := rfl
  rw [ptpSyncSend, if_pos hg, hsync, hfollow] at hx
  refine ⟨_, hx, ?_, rfl, ?_, fun h4 x hmem => ?_, rfl, ?_⟩
  · show [((ptpFrame _ .ptpFollowUp _ _ _).kind, (ptpFrame _ .ptpFollowUp _ _ _).num), ((ptpFrame _ .ptpSync _ _ _).kind, (ptpFrame _ .ptpSync _ _ _).num)] = _
    simp only [ptpFrame_kind, ptpFrame_num]
  · exact congrArg some (ptpFrame_body _ _ _ _ _)
  · have hmem : x ∈ [ptpFrame _ .ptpFollowUp _ _ _, ptpFrame _ .ptpSync _ _ _] := hmem
    obtain rfl | hmem := List.mem_cons.mp hmem
    · exact ptpFrame_p4 (s := { s with ring := ptpRing s, sent := _ :: s.sent }) h4 _ _ _ _
    · obtain rfl := List.mem_singleton.mp hmem
      exact ptpFrame_p4 h4 _ _ _ _
  · exact follow_sending s _ _ _ rfl

theorem announceSend_outcome {s : State} (hg : s.time.st = .grandmaster) (h : ptpSends s = true) :
    ∃ t, exec .ptpAnnounceSend s = .next t ∧ t.sent.head?.map (·.kind) = some .ptpAnnounce ∧ t.sent.tail = s.sent ∧
      { t with sent := s.sent, ring := s.ring } = follow s := by
  have hx : exec .ptpAnnounceSend s = answer (ptpAnnounceSend s) := rfl
  rw [ptpAnnounceSend, if_pos hg, ptpSend_of_sends h] at hx
  exact ⟨_, hx, congrArg some (ptpFrame_kind _ _ _ _ _), rfl, follow_sending s s.time _ _ rfl⟩

/-- Counts alone tell nothing to a clock that sends. -/
theorem ptpSends_counts {s : State} (h : ptpSends s = true) (c : RingCounts) :
    ptpSends { s with ring := { s.ring with counts := c } } = true := h

theorem delayReq_outcome {s : State} (seq : Nat) (hg : s.time.st = .grandmaster) (hp : s.time.cfg.p2p = false) (h : ptpSends s = true) :
    ∃ t, exec (.ptpDelayReq (ptpPort s) s.time.cfg.domain seq) s = .next t ∧
      t.sent.head?.map (fun x => (x.kind, x.num, x.body)) = some (.ptpDelayResp, seq,
        padded (ptpTimestamp (receiptAt s (ptpPort s)) ++ leBytes 1 (lowBits 8 s.time.cfg.logDelay))) ∧
      t.sent.tail = s.sent ∧ { t with sent := s.sent, ring := s.ring } = follow s := by
  obtain ⟨c, hc⟩ := ptpRx_counts (ptpPort s) s
  have hx : exec (.ptpDelayReq (ptpPort s) s.time.cfg.domain seq) s =
      answer (ptpDelayReq (ptpPort s) s.time.cfg.domain seq { s with ring := { s.ring with counts := c } }) :=
    congrArg (fun u => answer (ptpDelayReq (ptpPort s) s.time.cfg.domain seq u)) hc
  rw [ptpDelayReq, if_pos ⟨hg, by rw [hp]; rfl, rfl, rfl⟩, ptpSend_of_sends (ptpSends_counts h c)] at hx
  refine ⟨_, hx, ?_, rfl, follow_sending s s.time _ _ rfl⟩
  show some ((ptpFrame _ _ _ _ _).kind, (ptpFrame _ _ _ _ _).num, (ptpFrame _ _ _ _ _).body) = _
  rw [ptpFrame_kind, ptpFrame_num, ptpFrame_body]
  rfl

theorem pdelayReq_ring_outcome {s : State} {port : Nat} (seq : Nat) (hp : port ≠ 4) (h : ringPortUp s port = true) :
    ∃ t, exec (.ptpPdelayReq port seq) s = .next t ∧
      (∃ e, t.sent = e :: s.sent ∧ e.kind = .ptpPdelayResp ∧ e.num = seq ∧ e.body = padded (ptpTimestamp (receiptAt s port)) ∧
        e.eth = some { ports := [port], dest := ptpPeerDest, hsr := some s.ring.hsrSeq.toNat, typ := ptpType }) ∧
      { t with sent := s.sent, ring := s.ring } = follow s := by
  obtain ⟨c, hc⟩ := ptpRx_counts port s
  have hup : ringPortUp { s with ring := { s.ring with counts := c } } port = true := h
  have hx : exec (.ptpPdelayReq port seq) s = answer (ptpPdelayReq port seq { s with ring := { s.ring with counts := c } }) :=
    congrArg (fun u => answer (ptpPdelayReq port seq u)) hc
  rw [ptpPdelayReq, if_neg hp, if_pos hup] at hx
  exact ⟨_, hx, ⟨_, rfl, rfl, rfl, rfl, rfl⟩, follow_sending s s.time _ _ rfl⟩

theorem pdelayReq_p4_outcome {s : State} (seq : Nat) (h4 : s.time.cfg.port4 = true) (hp : s.time.cfg.p2p = true) (h : ptpSends s = true) :
    ∃ t, exec (.ptpPdelayReq 4 seq) s = .next t ∧
      (∃ e, t.sent = e :: s.sent ∧ e.kind = .ptpPdelayResp ∧ e.num = seq ∧ e.body = padded (ptpTimestamp (receiptAt s 4)) ∧
        e.eth = some { ports := [4], dest := ptpPeerDest, tag := some 7, typ := ptpType }) ∧
      { t with sent := s.sent, ring := s.ring } = follow s := by
  obtain ⟨c, hc⟩ := ptpRx_counts 4 s
  have hx : exec (.ptpPdelayReq 4 seq) s = answer (ptpPdelayReq 4 seq { s with ring := { s.ring with counts := c } }) :=
    congrArg (fun u => answer (ptpPdelayReq 4 seq u)) hc
  rw [ptpPdelayReq, if_pos rfl, if_pos (by rw [h4, hp]; rfl), ptpSend_of_sends (ptpSends_counts h c)] at hx
  exact ⟨_, hx, ⟨_, rfl, ptpFrame_kind _ _ _ _ _, ptpFrame_num _ _ _ _ _, ptpFrame_body _ _ _ _ _, ptpFrame_p4 h4 _ _ _ _⟩,
    follow_sending s s.time _ _ rfl⟩

/-! ### Delay requests (R311, R314) -/

/-- A clock that has sent its request. -/
def Time.asked (t : Time) : Time := { t with reqAt := t.ns }

/-- A clock with nothing to ask on the ring beside its own port sends one request. -/
theorem delayReqSend_one {s : State} (hp : s.time.cfg.ptp = true) (hm : s.time.cfg.p2p = true ∨ hasMaster s = true) (h : ptpSends s = true)
    (h1 : s.time.cfg.port4 = false ∨ s.time.cfg.p2p = false ∨ ringSends s = false) :
    ∃ dest body, exec .ptpDelayReqSend s = answer (onTime Time.asked
      { s with sent := ptpFrame s (if s.time.cfg.p2p then .ptpPdelayReq else .ptpDelayReq) 0 dest body :: s.sent, ring := ptpRing s }) := by
  have hx : exec .ptpDelayReqSend s = answer (ptpDelayReqSend s) := congrArg answer (if_pos hp)
  rw [hx]
  cases hpp : s.time.cfg.p2p with
  | true =>
    have hring : ringPdelayReq s = s := by
      unfold ringPdelayReq ringSend
      obtain h4 | hc | hr := h1
      · rw [if_neg (by rw [h4]; decide)]
      · rw [hpp] at hc
        cases hc
      · rw [if_neg (c := ringSends s = true) (by rw [hr]; decide), ite_self]
    refine ⟨ptpPeerDest, [], congrArg answer ?_⟩
    have hs := ptpSend_of_sends h .ptpPdelayReq 0 ptpPeerDest []
    simp only [ptpDelayReqSend, hpp, if_true, hring, hs]
    rfl
  | false =>
    have hm' : hasMaster s = true := hm.resolve_left (by rw [hpp]; decide)
    refine ⟨ptpDest, ptpTimestamp s.time.ns, congrArg answer ?_⟩
    have hs := ptpSend_of_sends h .ptpDelayReq 0 ptpDest (ptpTimestamp s.time.ns)
    simp only [ptpDelayReqSend, hpp, hm', if_true, Bool.false_eq_true, if_false, hs]
    rfl

/-- A clock on P4 in P2P mode asks on the ring ports too. -/
theorem delayReqSend_two {s : State} (hp : s.time.cfg.ptp = true) (h : ptpSends s = true) (h4 : s.time.cfg.port4 = true)
    (hpp : s.time.cfg.p2p = true) (hr : ringSends s = true) :
    ∃ e, e.kind = .ptpPdelayReq ∧ e.eth.map (·.ports) = some (ringPorts s) ∧ exec .ptpDelayReqSend s = answer (onTime Time.asked
      { s with sent := ptpFrame s .ptpPdelayReq 0 ptpPeerDest [] :: e :: s.sent, ring := { s.ring with hsrSeq := s.ring.hsrSeq + 1 } }) := by
  have hx : exec .ptpDelayReqSend s = answer (ptpDelayReqSend s) := congrArg answer (if_pos hp)
  refine ⟨{ kind := .ptpPdelayReq, unit := 1, num := 0, body := padded []
            eth := some { ports := ringPorts s, dest := ptpPeerDest, hsr := some s.ring.hsrSeq.toNat, typ := ptpType } }, rfl, rfl, ?_⟩
  have hring : ringPdelayReq s = onRing (fun r => { r with hsrSeq := r.hsrSeq + 1 })
      (sendFrame .ptpPdelayReq 1 0 { ports := ringPorts s, dest := ptpPeerDest, hsr := some s.ring.hsrSeq.toNat, typ := ptpType } [] s) := by
    rw [ringPdelayReq, if_pos h4, ringSend, if_pos hr]
  have hsend (u : State) (h4 : u.time.cfg.port4 = true) (hu : ptpSends u = true) :
      ptpSend .ptpPdelayReq 0 [] u ptpPeerDest = { u with sent := ptpFrame u .ptpPdelayReq 0 ptpPeerDest [] :: u.sent } := by
    rw [ptpSend_of_sends hu, ptpRing, if_pos h4]
  have hf : ptpFrame (ringPdelayReq s) .ptpPdelayReq 0 ptpPeerDest [] = ptpFrame s .ptpPdelayReq 0 ptpPeerDest [] := by
    rw [hring]
    unfold ptpFrame
    rw [if_pos h4, if_pos (show (onRing _ (sendFrame _ _ _ _ _ s)).time.cfg.port4 = true from h4)]
  rw [hx, ptpDelayReqSend]
  simp only [hpp, if_true]
  rw [hsend (ringPdelayReq s) (by rw [hring]; exact h4) (by rw [hring]; exact h), hf, hring]
  rfl

theorem delayReqSend_outcome {s : State} (hp : s.time.cfg.ptp = true) (hm : s.time.cfg.p2p = true ∨ hasMaster s = true) (h : ptpSends s = true) :
    ∃ t, exec .ptpDelayReqSend s = .next t ∧ t.time = { s.time with reqAt := s.time.ns } ∧
      (s.time.cfg.port4 = false ∨ s.time.cfg.p2p = false ∨ ringSends s = false → t.sent.tail = s.sent) ∧
      (s.time.cfg.port4 = true → s.time.cfg.p2p = true → ringSends s = true →
        (t.sent.take 2).map (fun x => (x.kind, x.eth.map (·.ports))) =
          [(.ptpPdelayReq, some [4]), (.ptpPdelayReq, some (ringPorts s))] ∧ t.sent.drop 2 = s.sent) ∧
      t.sent.head?.map (·.kind) = some (if s.time.cfg.p2p then SentKind.ptpPdelayReq else .ptpDelayReq) ∧
      { t with time := s.time, sent := s.sent, ring := s.ring } = follow s := by
  by_cases h1 : s.time.cfg.port4 = false ∨ s.time.cfg.p2p = false ∨ ringSends s = false
  · obtain ⟨dest, body, hx⟩ := delayReqSend_one hp hm h h1
    refine ⟨_, hx, rfl, fun _ => rfl, fun h4 hpp hr => ?_, congrArg some (ptpFrame_kind _ _ _ _ _), follow_sending s _ _ _ rfl⟩
    rw [h4, hpp, hr] at h1
    simp at h1
  · have h4 : s.time.cfg.port4 = true := by
      by_contra hc
      exact h1 (.inl (by simpa using hc))
    have hpp : s.time.cfg.p2p = true := by
      by_contra hc
      exact h1 (.inr (.inl (by simpa using hc)))
    have hr : ringSends s = true := by
      by_contra hc
      exact h1 (.inr (.inr (by simpa using hc)))
    obtain ⟨e, hkind, hports, hx⟩ := delayReqSend_two hp h h4 hpp hr
    refine ⟨_, hx, rfl, fun hc => absurd hc h1, fun _ _ _ => ⟨?_, rfl⟩, ?_, follow_sending s _ _ _ rfl⟩
    · show [((ptpFrame _ _ _ _ _).kind, (ptpFrame _ _ _ _ _).eth.map (·.ports)), (e.kind, e.eth.map (·.ports))] = _
      rw [ptpFrame_kind, ptpFrame_p4 h4, hkind, hports]
      rfl
    · rw [if_pos hpp]
      exact congrArg some (ptpFrame_kind _ _ _ _ _)

/-! ### Timed pulses (R317, R318) -/

theorem pulseAt_onPulse {n : Nat} (f : Pulse → Pulse) {s : State} (hn : n < s.time.pulses.length) :
    pulseAt (onPulse n f s) n = f (pulseAt s n) := by
  show (s.time.pulses.modify n f).getD n {} = f (s.time.pulses.getD n {})
  simp [hn]

/-- A series after an instant keeps its count, its level and its end. -/
theorem pulse_after_kept (p : Pulse) (i : Nat) (fires : Bool) :
    (p.after i fires).fired = p.fired ∧ (p.after i fires).out = p.out ∧ (p.after i fires).offAt = p.offAt ∧
      (p.after i fires).missed = p.missed := by
  unfold Pulse.after
  split <;> exact ⟨rfl, rfl, rfl, rfl⟩

theorem pulse_after_next {p : Pulse} {i : Nat} {fires : Bool} (h : p.force.mode = 2) :
    (p.after i fires).next = some (i + p.force.period) := by
  rw [Pulse.after, if_pos h]

theorem pulse_after_done {p : Pulse} {i : Nat} {fires : Bool} (h : p.force.mode ≠ 2) :
    (p.after i fires).next = none ∧ (p.after i fires).done = true := by
  rw [Pulse.after, if_neg h]
  exact ⟨rfl, rfl⟩

theorem pulseOn_length (n : Nat) (s : State) : (pulseOn n s).time.pulses.length = s.time.pulses.length := List.length_modify _ _ _

theorem pulseMissed_length (n : Nat) (s : State) : (pulseMissed n 1 s).time.pulses.length = s.time.pulses.length :=
  List.length_modify _ _ _

theorem pulseAt_pulseOn {n : Nat} {s : State} (hn : n < s.time.pulses.length) :
    pulseAt (pulseOn n s) n = { pulseAt s n with
      out := true, offAt := s.mono + (pulseAt s n).force.width * 1000, fired := satInc 16 (pulseAt s n).fired } :=
  pulseAt_onPulse _ hn

theorem pulseAt_pulseMissed {n : Nat} {s : State} (hn : n < s.time.pulses.length) :
    pulseAt (pulseMissed n 1 s) n = { pulseAt s n with missed := satAdd 8 (pulseAt s n).missed 1 } :=
  pulseAt_onPulse _ hn

theorem pulseInstant_of_due {n i : Nat} {s : State} (hi : (pulseAt s n).next = some i) (hdue : i * 1000 ≤ s.time.ns)
    (hr : pulsesRun s = true) :
    pulseInstant n s =
      onPulse n (fun p => p.after i (pulseMay s n)) (if pulseMay s n then pulseOn n s else pulseMissed n 1 s) := by
  rw [pulseInstant, hi]
  simp [hr, Nat.not_lt.mpr hdue]

/-- Where pulses run, what settles leaves them as the command set them. -/
theorem pulse_of_settled {u t : State} (h : Settled u t) (hr : pulsesRun u = true) :
    t.time = u.time ∧ ∀ n, (dioCh t n).pulse = (dioCh u n).pulse := by
  have hc : pulsesCheck u = u := if_pos hr
  exact ⟨h.time.trans (by rw [hc]), fun n => (h.pulse n).trans (by rw [hc])⟩

theorem pulseInstant_outcome {s : State} {n i : Nat} (hn : n < s.time.pulses.length) (hc : 28 + n < s.dio.ch.length)
    (hi : (pulseAt s n).next = some i) (hdue : i * 1000 ≤ s.time.ns) (hr : pulsesRun s = true) :
    ∃ t, exec (.pulseInstant n) s = .next t ∧
      (pulseMay s n = true → (pulseAt t n).fired = satInc 16 (pulseAt s n).fired ∧ (pulseAt t n).out = true ∧
        (pulseAt t n).offAt = s.mono + (pulseAt s n).force.width * 1000 ∧ (dioCh t (28 + n)).pulse = true) ∧
      (pulseMay s n = false → (pulseAt t n).missed = satAdd 8 (pulseAt s n).missed 1 ∧ t.time.flags.getLsbD 5 = true) ∧
      ((pulseAt s n).force.mode = 2 → (pulseAt t n).next = some (i + (pulseAt s n).force.period)) ∧
      ((pulseAt s n).force.mode ≠ 2 → (pulseAt t n).next = none ∧ (pulseAt t n).done = true) := by
  obtain ⟨t, hx, ht⟩ := settled s (pulseInstant n s)
  refine ⟨t, hx, ?_⟩
  rw [pulseInstant_of_due hi hdue hr] at ht
  cases hmay : pulseMay s n with
  | true =>
    rw [hmay, if_pos rfl] at ht
    obtain ⟨htime, hpulse⟩ := pulse_of_settled ht hr
    obtain ⟨hfired, hout, hoff, -⟩ := pulse_after_kept (pulseAt (pulseOn n s) n) i true
    have hat : pulseAt t n = (pulseAt (pulseOn n s) n).after i true :=
      (congrArg (fun y : Time => y.pulses.getD n {}) htime).trans (pulseAt_onPulse _ (by rw [pulseOn_length]; exact hn))
    have hon := pulseAt_pulseOn hn
    refine ⟨fun _ => ⟨?_, ?_, ?_, ?_⟩, nofun, fun hm => ?_, fun hm => ?_⟩
    · rw [hat, hfired, hon]
    · rw [hat, hout, hon]
    · rw [hat, hoff, hon]
    · refine (hpulse (28 + n)).trans ?_
      exact congrArg DioCh.pulse (dioCh_onDioCh (onPulse n _ s) (28 + n) _ hc)
    · rw [hat, pulse_after_next (by rw [hon]; exact hm), hon]
    · rw [hat]
      exact pulse_after_done (by rw [hon]; exact hm)
  | false =>
    rw [hmay, if_neg (by decide)] at ht
    obtain ⟨htime, -⟩ := pulse_of_settled ht hr
    obtain ⟨-, -, -, hmissed⟩ := pulse_after_kept (pulseAt (pulseMissed n 1 s) n) i false
    have hat : pulseAt t n = (pulseAt (pulseMissed n 1 s) n).after i false :=
      (congrArg (fun y : Time => y.pulses.getD n {}) htime).trans (pulseAt_onPulse _ (by rw [pulseMissed_length]; exact hn))
    have hon := pulseAt_pulseMissed hn
    refine ⟨nofun, fun _ => ⟨?_, ?_⟩, fun hm => ?_, fun hm => ?_⟩
    · rw [hat, hmissed, hon]
    · refine (congrArg (fun y : Time => y.flags.getLsbD 5) htime).trans ?_
      exact setBit_same s.time.flags (by decide) true
    · rw [hat, pulse_after_next (by rw [hon]; exact hm), hon]
    · rw [hat]
      exact pulse_after_done (by rw [hon]; exact hm)

/-- A pulse channel that is off. -/
def pulseOff (n : Nat) (s : State) : State :=
  onDioCh (28 + n) (fun c => { c with pulse := false }) (onPulse n (fun p => { p with out := false }) s)

/-- The end of running pulses leaves a channel that is off, and its count. -/
theorem pulsesCheck_kept (u : State) (n m : Nat) (ho : (pulseAt u n).out = false) (hp : (dioCh u m).pulse = false) :
    (pulseAt (pulsesCheck u) n).out = false ∧ (pulseAt (pulsesCheck u) n).fired = (pulseAt u n).fired ∧
      (dioCh (pulsesCheck u) m).pulse = false := by
  unfold pulsesCheck
  split
  · exact ⟨ho, rfl, hp⟩
  · refine ⟨?_, ?_, ?_⟩
    · show ((u.time.pulses.map _).getD n ({} : Pulse)).out = false
      rcases Nat.lt_or_ge n u.time.pulses.length with hn | hn <;> simp [hn]
    · show ((u.time.pulses.map _).getD n ({} : Pulse)).fired = (u.time.pulses.getD n {}).fired
      rcases Nat.lt_or_ge n u.time.pulses.length with hn | hn <;> simp [hn]
    · show ((u.dio.ch.map _).getD m ({} : DioCh)).pulse = false
      rcases Nat.lt_or_ge m u.dio.ch.length with hn | hn <;> simp [hn]

theorem pulseEnd_outcome {s : State} {n : Nat} (hn : n < s.time.pulses.length) (hc : 28 + n < s.dio.ch.length)
    (hdue : (pulseAt s n).offAt ≤ s.mono) :
    ∃ t, exec (.pulseEnd n) s = .next t ∧ (pulseAt t n).out = false ∧ (dioCh t (28 + n)).pulse = false ∧
      (pulseAt t n).fired = (pulseAt s n).fired ∧ { t with dio := s.dio, time := s.time }.rest = s.rest := by
  obtain ⟨t, hx, ht⟩ := settled s (pulseOff n s)
  have hexec : exec (.pulseEnd n) s = answer (settle s (pulseOff n s)) := congrArg answer (if_neg (Nat.not_lt.mpr hdue))
  have hat : pulseAt (pulseOff n s) n = { pulseAt s n with out := false } := pulseAt_onPulse _ hn
  obtain ⟨hout, hfired, hpulse⟩ := pulsesCheck_kept (pulseOff n s) n (28 + n) (by rw [hat])
    (congrArg DioCh.pulse (dioCh_onDioCh (onPulse n _ s) (28 + n) _ hc))
  have htime : pulseAt t n = pulseAt (pulsesCheck (pulseOff n s)) n := congrArg (fun y : Time => y.pulses.getD n {}) ht.time
  refine ⟨t, hexec.trans hx, ?_, (ht.pulse _).trans hpulse, ?_, ?_⟩
  · rw [htime, hout]
  · rw [htime, hfired, hat]
  · have e := congrArg (fun z : State => { z with
      dio := ({ s with sys := { s.sys with run := [], refClock := false } } : State).rest.dio
      time := ({ s with sys := { s.sys with run := [], refClock := false } } : State).rest.time }) ht.rest
    exact e

/-! ### Timed launches (R319) -/

/-- What a launch may change: the clock but its section and its launches, the ring, and what was sent. -/
structure Launching (s u : State) : Prop where
  frame    : ∃ tm g l, u = { s with time := tm, ring := g, sent := l }
  cfg      : u.time.cfg = s.time.cfg
  launches : u.time.launches = s.time.launches

theorem launching_refl (s : State) : Launching s s := ⟨⟨s.time, s.ring, s.sent, rfl⟩, rfl, rfl⟩

theorem Launching.trans {s u v : State} (h1 : Launching s u) (h2 : Launching u v) : Launching s v := by
  obtain ⟨⟨tm, g, l, rfl⟩, hc, hl⟩ := h1
  obtain ⟨⟨tm', g', l', rfl⟩, hc', hl'⟩ := h2
  exact ⟨⟨tm', g', l', rfl⟩, hc'.trans hc, hl'.trans hl⟩

/-- A change of the stations that keeps who they are and lets outputs wait no longer: those with a number of `ns` do not wait. -/
structure Cleared (ns : List Nat) (g : Station → Station) : Prop where
  num     : ∀ y, (g y).num = y.num
  task    : ∀ y, (g y).task = y.task
  waiting : ∀ y, (g y).waiting = y.waiting ∨ (g y).waiting = none
  cleared : ∀ y, y.num ∈ ns → (g y).waiting = none

theorem Cleared.comp {ns ms : List Nat} {f g : Station → Station} (hf : Cleared ns f) (hg : Cleared ms g) :
    Cleared (ns ++ ms) (g ∘ f) where
  num y := (hg.num _).trans (hf.num y)
  task y := (hg.task _).trans (hf.task y)
  waiting y := by
    obtain h | h := hg.waiting (f y)
    · obtain h' | h' := hf.waiting y
      · exact .inl (h.trans h')
      · exact .inr (h.trans h')
    · exact .inr h
  cleared y hy := by
    obtain hy | hy := List.mem_append.mp hy
    · obtain h | h := hg.waiting (f y)
      · exact h.trans (hf.cleared y hy)
      · exact h
    · exact hg.cleared _ (by rw [hf.num]; exact hy)

/-- The station no longer waits; a late one is counted. -/
def waitEnded (late : Bool) (num : Nat) (t : State) : State :=
  let t := onStation num (fun x => { x with waiting := none }) t
  if late then onTime (fun y => { y with late := satInc 32 y.late, flags := flag 4 y.flags }) t else t

/-- One station's turn at a launch. -/
def launchOne (late : Bool) (x : Station) (t : State) : State :=
  match x.waiting with
  | none => t
  | some (safe, data, cycle) =>
    if x.st = .live ∧ outputsGo (waitEnded late x.num t) then
      sendOutput safe data cycle (waitEnded late x.num t).mono x (waitEnded late x.num t)
    else waitEnded late x.num t

theorem timedLaunch_eq (task : Nat) (late : Bool) (s : State) :
    timedLaunch task late s = forAll (s.ring.stations.filter fun x => x.task == task) (launchOne late)
      (onTime (fun t => { t with launches := del task t.launches }) s) := rfl

theorem sendOutput_launching (safe : Bool) (data : List Byte) (cycle launch : Nat) (x : Station) (s : State) :
    Launching s (sendOutput safe data cycle launch x s) ∧
      ∃ g, (sendOutput safe data cycle launch x s).ring.stations = s.ring.stations.map g ∧ Cleared [] g := by
  refine ⟨?_, fun y => if y.num = x.num then { y with first := false } else y, ?_, ?_⟩
  · unfold sendOutput ringSend
    split <;> exact ⟨⟨_, _, _, rfl⟩, rfl, rfl⟩
  · unfold sendOutput ringSend
    split <;> rfl
  · exact
      { num := fun y => by split <;> rfl
        task := fun y => by split <;> rfl
        waiting := fun y => .inl (by split <;> rfl)
        cleared := fun _ h => absurd h List.not_mem_nil }

theorem waitEnded_launching (late : Bool) (num : Nat) (t : State) :
    Launching t (waitEnded late num t) ∧ ∃ g, (waitEnded late num t).ring.stations = t.ring.stations.map g ∧ Cleared [num] g := by
  refine ⟨?_, fun y => if y.num = num then { y with waiting := none } else y, ?_, ?_⟩
  · cases late <;> exact ⟨⟨_, _, _, rfl⟩, rfl, rfl⟩
  · cases late <;> rfl
  · exact
      { num := fun y => by split <;> rfl
        task := fun y => by split <;> rfl
        waiting := fun y => by
          split
          · exact .inr rfl
          · exact .inl rfl
        cleared := fun y hy => by
          rw [if_pos (List.mem_singleton.mp hy)] }

/-- The numbers whose outputs a station's turn lets go. -/
def Station.waits (x : Station) : List Nat := if x.waiting.isSome then [x.num] else []

theorem launchOne_launching (late : Bool) (x : Station) (t : State) :
    Launching t (launchOne late x t) ∧ ∃ g, (launchOne late x t).ring.stations = t.ring.stations.map g ∧ Cleared x.waits g := by
  unfold launchOne Station.waits
  cases x.waiting with
  | none => exact ⟨launching_refl t, id, (List.map_id _).symm, ⟨fun _ => rfl, fun _ => rfl, fun _ => .inl rfl, fun _ h => absurd h List.not_mem_nil⟩⟩
  | some w =>
    obtain ⟨safe, data, cycle⟩ := w
    obtain ⟨hl, g, hg, hcl⟩ := waitEnded_launching late x.num t
    by_cases hgo : x.st = .live ∧ outputsGo (waitEnded late x.num t)
    · obtain ⟨hl', g', hg', hcl'⟩ := sendOutput_launching safe data cycle (waitEnded late x.num t).mono x (waitEnded late x.num t)
      dsimp only
      rw [if_pos hgo]
      exact ⟨hl.trans hl', g' ∘ g, by rw [hg', hg, List.map_map], by simpa using hcl.comp hcl'⟩
    · dsimp only
      rw [if_neg hgo]
      exact ⟨hl, g, hg, hcl⟩

theorem launchAll_launching (late : Bool) (l : List Station) (t : State) :
    Launching t (forAll l (launchOne late) t) ∧
      ∃ g, (forAll l (launchOne late) t).ring.stations = t.ring.stations.map g ∧ Cleared (l.flatMap Station.waits) g := by
  induction l generalizing t with
  | nil => exact ⟨launching_refl t, id, (List.map_id _).symm, ⟨fun _ => rfl, fun _ => rfl, fun _ => .inl rfl, fun _ h => absurd h List.not_mem_nil⟩⟩
  | cons x l ih =>
    obtain ⟨hl, g, hg, hcl⟩ := launchOne_launching late x t
    obtain ⟨hl', g', hg', hcl'⟩ := ih (launchOne late x t)
    refine ⟨hl.trans hl', g' ∘ g, ?_, hcl.comp hcl'⟩
    exact hg'.trans (by rw [hg, List.map_map])

theorem timedLaunch_outcome {s : State} {task at_ : Nat} (late : Bool) (h : look task s.time.launches = some at_) (hdue : at_ ≤ s.time.ns) :
    ∃ t, exec (.timedLaunch task late) s = .next t ∧ look task t.time.launches = none ∧
      (∀ x ∈ t.ring.stations, x.task = task → x.waiting = none) ∧
      { t with time := s.time, ring := s.ring, sent := s.sent } = follow s := by
  have hx : exec (.timedLaunch task late) s = answer (timedLaunch task late s) :=
    congrArg answer (if_pos (by rw [h]; exact decide_eq_true hdue))
  obtain ⟨⟨⟨tm, g, l, hu⟩, hc, hla⟩, f, hf, hcl⟩ := launchAll_launching late (s.ring.stations.filter fun x => x.task == task)
    (onTime (fun t => { t with launches := del task t.launches }) s)
  rw [← timedLaunch_eq] at hu hc hla hf
  refine ⟨_, hx, ?_, fun x hmem htask => ?_, ?_⟩
  · exact (congrArg (look task) hla).trans (look_del_same task s.time.launches)
  · obtain ⟨y, hy, rfl⟩ := List.mem_map.mp (by rw [← hf]; exact hmem)
    cases hw : y.waiting with
    | none =>
      obtain h | h := hcl.waiting y
      · exact h.trans hw
      · exact h
    | some w =>
      refine hcl.cleared y (List.mem_flatMap.mpr ⟨y, List.mem_filter.mpr ⟨hy, ?_⟩, ?_⟩)
      · rw [hcl.task] at htask
        simpa using htask
      · simp [Station.waits, hw]
  · rw [hu]
    rw [hu] at hc
    exact follow_sending s tm g l hc

/-- Settles O34, a message, a pulse and a launch at a time. -/
theorem theGrandmasterServesAndPulsesFire : Obligations.TheGrandmasterServesAndPulsesFire := by
  intro s
  exact ⟨fun hg h => syncSend_outcome hg h, fun hg h => announceSend_outcome hg h, fun seq hg hp h => delayReq_outcome seq hg hp h,
    fun port seq hp h => pdelayReq_ring_outcome seq hp h, fun seq h4 hp h => pdelayReq_p4_outcome seq h4 hp h,
    fun hp hm h => delayReqSend_outcome hp hm h, fun n i hn hc hi hdue hr => pulseInstant_outcome hn hc hi hdue hr,
    fun n hn hc hdue => pulseEnd_outcome hn hc hdue, fun task late at_ h hdue => timedLaunch_outcome late h hdue⟩

end Sys2Proof.Machine
end

section
/-! PROOFS. The loss of the master where PTP is off (12_network_time.md R309). -/

namespace Sys2Proof.Machine

/-- A clock that PTP does not serve (it is off in the TIME section), in LOCKED all the same: its announce receipt timeout has passed, its Sync
patience has not. -/
def unservedClock : State :=
  { State.reset with
    mono := 1000000000000
    time := { State.reset.time with st := .locked, syncAt := 1000000000000, announceAt := 0, cfg := { State.reset.time.cfg with ptp := false } } }

theorem unservedClock_hasMaster : hasMaster unservedClock = true := rfl

theorem unservedClock_announceDue :
    unservedClock.time.announceAt + announcePatience unservedClock.time.cfg ≤ unservedClock.mono := by decide

/-- No announce receipt timeout is judged without PTP, so the clock keeps its state. -/
theorem unservedClock_keeps : exec .ptpMasterLost unservedClock = answer unservedClock := rfl

/-- Refutes O35: the announce receipt timeout ends nothing while PTP is off in the TIME section, and the statement asks for the loss of the
master in every state with a selected master, also in one without PTP. -/
theorem not_timeIsHeldAndStepped : ¬ Obligations.TimeIsHeldAndStepped := by
  unfold Obligations.TimeIsHeldAndStepped
  intro h
  obtain ⟨hlost, -⟩ := h unservedClock .sdk
  obtain ⟨t, hx, hst, -⟩ := hlost unservedClock_hasMaster (.inr unservedClock_announceDue)
  rw [unservedClock_keeps] at hx
  cases hx
  exact absurd hst (by decide)

end Sys2Proof.Machine
end

section
/-! PROOFS. The compensator engine: what a loop's turn leaves, ticks, ENABLE bits and latches (08_compensator_engine.md R200 to R225). -/

namespace Sys2Proof.Machine

/-! ### A loop after an update -/

theorem look_change_ne {α : Type} {k n : Nat} (h : n ≠ k) (f : α → α) (l : List (Nat × α)) : look n (change k f l) = look n l := by
  induction l with
  | nil => rfl
  | cons p r ih =>
    by_cases hk : p.1 = k
    · have hn : p.1 ≠ n := fun e => h (e.symm.trans hk)
      simpa [change, look, hk, hn, Ne.symm h] using ih
    · by_cases hn : p.1 = n
      · simp [change, look, hn, h]
      · simpa [change, look, hk, hn] using ih

theorem look_change_same {α : Type} (k : Nat) (f : α → α) (l : List (Nat × α)) : look k (change k f l) = (look k l).map f := by
  induction l with
  | nil => rfl
  | cons p r ih =>
    by_cases hk : p.1 = k
    · simp [change, look, hk]
    · simpa [change, look, hk] using ih

theorem loopAt_onLoop_ne {n k : Nat} (h : k ≠ n) (f : Loop → Loop) (s : State) : loopAt (onLoop n f s) k = loopAt s k :=
  congrArg (fun x : Option Loop => x.getD {}) (look_change_ne h f s.eng.loops)

theorem loopAt_onLoop {n : Nat} {s : State} (h : (look n s.eng.loops).isSome = true) (f : Loop → Loop) :
    loopAt (onLoop n f s) n = f (loopAt s n) := by
  obtain ⟨l, hl⟩ := Option.isSome_iff_exists.mp h
  have e : look n (onLoop n f s).eng.loops = some (f l) := (look_change_same n f s.eng.loops).trans (by rw [hl]; rfl)
  unfold loopAt
  rw [e, hl]
  rfl

/-- An update of the loop by itself leaves it what it leaves of every loop. -/
theorem loopAt_onLoop_keeps {β : Type} (v : Loop → β) (n : Nat) {f : Loop → Loop} (h : ∀ l, v (f l) = v l) (s : State) (k : Nat) :
    v (loopAt (onLoop n f s) k) = v (loopAt s k) := by
  by_cases hk : k = n
  · subst hk
    have e : look k (onLoop k f s).eng.loops = (look k s.eng.loops).map f := look_change_same k f s.eng.loops
    unfold loopAt
    rw [e]
    cases look k s.eng.loops with
    | none => rfl
    | some l => exact h l
  · rw [loopAt_onLoop_ne hk]

theorem loop_present_of_enabled {s : State} {n : Nat} (h : (loopAt s n).enabled = true) : (look n s.eng.loops).isSome = true := by
  unfold loopAt at h
  cases hl : look n s.eng.loops with
  | none =>
    rw [hl] at h
    cases h
  | some l => rfl

/-! ### What a loop's steps keep -/

theorem reportCe_frame (k : Nat) (p : Place) (pos left : List Nat) (s : State) :
    { reportCe k p pos left s with mem := s.mem, log := s.log } = s := by
  have hn : { ceNoted k p pos left s with mem := s.mem, log := s.log } = s := by
    unfold ceNoted
    split <;> rfl
  obtain h | ⟨j, h⟩ := reportCe_cases k p pos left s
  · rw [h, hn]
  · rw [h]
    exact weakFound_frame hn j p

section
variable {β : Type}

/-- What a loop's steps do to the state, and a measure keeps. -/
structure LoopSteps (m : State → β) (n : Nat) : Prop where
  beyond : ∀ {u v : State}, u.beyondField = v.beyondField → m u = m v
  book   : ∀ {u v : State}, { u with mem := v.mem, log := v.log, free := v.free } = v → m u = m v
  sticky : ∀ bit any s, m (loopSticky n bit any s) = m s
  used   : ∀ (f : Loop → Loop) s, (∀ l, (f l).secs = l.secs ∧ (f l).out = l.out ∧ (f l).held = l.held) → m (onLoop n f s) = m s

variable {m : State → β} {n : Nat} (h : LoopSteps m n)
include h

theorem LoopSteps.raise (e : Ev) (sev : Severity) (u p q r : Nat) (s : State) : m (raise e sev u p q r s) = m s :=
  h.book (by rw [raise_frame])

theorem LoopSteps.sat (bit sec : Nat) (s : State) : m (loopSat n bit sec s) = m s := by
  have hb : m (if bit = 2 then loopSticky n bit 3 s else onLoop n (fun l => { l with satSec := sec }) (loopSticky n bit 3 s)) = m s := by
    split
    · exact h.sticky _ _ _
    · refine (h.used _ _ ?_).trans (h.sticky _ _ _)
      exact fun _ => ⟨rfl, rfl, rfl⟩
  unfold loopSat
  exact keeps_ite m hb ((h.raise ..).trans hb)

theorem LoopSteps.parBad (s : State) : m (loopParBad n s) = m s :=
  keeps_ite m (h.sticky _ _ _) ((h.raise ..).trans (h.sticky _ _ _))

theorem LoopSteps.readPar (i : Nat) (s : State) : m (readPar n i s).2 = m s := by
  unfold Machine.readPar
  dsimp only
  split
  · split
    · exact h.parBad s
    · rfl
  · split
    · split
      · exact h.parBad s
      · split
        · exact (h.parBad _).trans (h.parBad s)
        · exact h.parBad s
    · refine (h.used _ _ ?_).trans (keeps_ite m (h.sat _ _ _) rfl)
      exact fun _ => ⟨rfl, rfl, rfl⟩

theorem LoopSteps.post (out : Flt) (q : Byte) (s : State) : m (loopPost n out q s) = m s := by
  have hw : m (if (loopAt s n).outEntry = 0 then s else
      writeEntry (loopAt s n).outEntry (outDatum (sigEntry s (loopAt s n).outEntry).typ out).1 q s) = m s :=
    keeps_ite m rfl (h.beyond (writeEntry_beyond _ _ _ _))
  unfold loopPost
  dsimp only
  split
  · exact keeps_ite m ((h.beyond (anaCommandNum_beyond _ _ _)).trans hw) hw
  · exact keeps_ite m ((h.beyond (dioCommand_beyond _ _ _)).trans hw) hw
  · exact hw

theorem LoopSteps.block (l : List Place) (s : State) : m (blockRead .loop l s).2 = m s := by
  induction l generalizing s with
  | nil => rfl
  | cons p r ih =>
    have hp : m (codeRead p s).2 = m s := by
      refine h.book ?_
      have e := congrArg (fun z : State => { z with mem := s.mem, log := s.log }) (codeRead_frame p s)
      exact e
    unfold blockRead
    split
    · next e => rw [e] at hp; exact hp
    · next x pos left u e =>
      rw [e] at hp
      refine (ih _).trans (Eq.trans ?_ hp)
      refine keeps_ite m rfl (h.book ?_)
      have e := congrArg (fun z : State => { z with free := u.free }) (reportCe_frame Owner.loop.code p pos left u)
      exact e

end

/-! ### A sample in its parts (R202, R205, R206) -/

/-- The worst quality of a sample's inputs. -/
def sampleWorst (n : Nat) (s : State) : Option Byte :=
  worstQual [(readBinding s (loopAt s n).inA).qual, (setpoint s (loopAt s n)).qual, (readBinding s (loopAt s n).inB).qual]

/-- A loop with a bad input holds, or takes its safe value. -/
def sampleHeld (n : Nat) (l : Loop) (s : State) : State :=
  let s := if l.held then s
    else raise .loopInputBad .notice n n 0 0 (loopSticky n 6 1 (onLoop n (fun l => { l with held := true }) s))
  let s := onLoop n (fun l => { l with clamping := false }) s
  if l.badSafe then onLoop n (fun l => { l with out := (stageOfNum (numOf f32 l.force.safe.toNat)).1 }) s else s

/-- A sample's result goes out. -/
def samplePosted (n : Nat) (l : Loop) (q : Byte) (s : State) : State :=
  let out := (loopAt s n).out
  let s := onLoop n (fun l => { l with outQual := q }) s
  let s := if l.outEntry ≠ 0 ∧ (outDatum (sigEntry s l.outEntry).typ out).2 then loopSat n 2 (l.types.length - 1) s else s
  let s := if l.aligned then onLoop n (fun l => { l with pendingOut := some (out, q) }) s else loopPost n out q s
  if l.statEntry = 0 then s
  else writeEntry l.statEntry (BitVec.ofNat 64 (loopStatus s (loopAt s n)).toNat) qGood s

section
variable {β : Type} {m : State → β} {n : Nat} (h : LoopSteps m n)
include h

theorem LoopSteps.posted (l : Loop) (q : Byte) (s : State) : m (samplePosted n l q s) = m s := by
  have h1 : m (onLoop n (fun l => { l with outQual := q }) s) = m s := h.used _ _ fun _ => ⟨rfl, rfl, rfl⟩
  have h2 {c : Prop} [Decidable c] : m (if c then loopSat n 2 (l.types.length - 1) (onLoop n (fun l => { l with outQual := q }) s)
      else onLoop n (fun l => { l with outQual := q }) s) = m s := keeps_ite m ((h.sat _ _ _).trans h1) h1
  have h3 (u : State) (hu : m u = m s) (x : Flt) :
      m (if l.aligned then onLoop n (fun l => { l with pendingOut := some (x, q) }) u else loopPost n x q u) = m s :=
    keeps_ite m (Eq.trans (h.used _ _ (by exact fun _ => ⟨rfl, rfl, rfl⟩)) hu) ((h.post _ _ _).trans hu)
  exact keeps_ite m (h3 _ h2 _) ((h.beyond (writeEntry_beyond _ _ _ _)).trans (h3 _ h2 _))

end

/-- A sample reads its inputs and its parameters, holds where an input is bad or computes, and posts. -/
theorem loopSample_parts (n : Nat) (s : State) :
    ∃ u, (∀ {β : Type} {m : State → β}, LoopSteps m n → m u = m s) ∧
      ∃ q a sp b kIn kFf lo hi, loopSample n s = samplePosted n (loopAt s n) q
        (if (sampleWorst n s).any (fun w => qClass w == 0) then sampleHeld n (loopAt s n) u
         else loopCompute n a sp b kIn kFf lo hi u) := by
  unfold loopSample
  extract_lets l last a sp b s1 s2 s3 worst q
  have h3 {β : Type} {m : State → β} (h : LoopSteps m n) : m s3 = m s := by
    have h1 : m s1 = m s := h.used _ _ fun _ => ⟨rfl, rfl, rfl⟩
    have h2 : m s2 = m s := keeps_ite m ((h.sticky _ _ _).trans h1) h1
    exact keeps_ite m ((h.sat _ _ _).trans h2) h2
  have hr {β : Type} {m : State → β} (h : LoopSteps m n) (i : Nat) {u : State} (hu : m u = m s) : m (readPar n i u).2 = m s := (h.readPar i u).trans hu
  clear_value s3
  rcases e0 : readPar n 0 s3 with ⟨kIn, s4⟩
  rcases e1 : readPar n 1 s4 with ⟨kFf, s5⟩
  rcases e2 : readPar n 2 s5 with ⟨lo, s6⟩
  rcases e3 : readPar n 3 s6 with ⟨hi, s7⟩
  have h7 {β : Type} {m : State → β} (h : LoopSteps m n) : m s7 = m s := by
    have h4 := hr h 0 (h3 h)
    rw [e0] at h4
    have h5 := hr h 1 h4
    rw [e1] at h5
    have h6 := hr h 2 h5
    rw [e2] at h6
    have h7 := hr h 3 h6
    rwa [e3] at h7
  simp -zeta only [e1, e2, e3]
  extract_lets s8 s9 s10 s11 out s12 s13 s14
  refine ⟨s8, @fun β m h => ?_, q, a.value, sp.value, b.value, (toGain (kIn.getD {})).1, (toGain (kFf.getD {})).1, lo, hi, rfl⟩
  unfold s8
  split
  · exact keeps_ite m ((h.parBad _).trans (h7 h)) (h7 h)
  · exact h7 h

/-! ### What a group's tick leaves beside its loops -/

/-- What a tick of the loops `ls` leaves: all that its statement does not set aside, the groups, the peak, and the states and outputs of
the other loops. -/
def besideLoops (z : State) (ls : List Nat) (u : State) : State × List LoopGroup × Nat × (Nat → Option (List SecState × Flt)) :=
  ({ u with eng := z.eng, log := z.log, mem := z.mem, hoist := z.hoist, sig := z.sig, cyc := z.cyc, dio := z.dio, ana := z.ana }.rest,
    u.eng.groups, u.eng.peak, fun k => if k ∈ ls then none else some ((loopAt u k).secs, (loopAt u k).out))

theorem besideLoops_congr {z u v : State} {ls : List Nat}
    (hr : { u with eng := z.eng, log := z.log, mem := z.mem, hoist := z.hoist, sig := z.sig, cyc := z.cyc, dio := z.dio, ana := z.ana }.rest =
      { v with eng := z.eng, log := z.log, mem := z.mem, hoist := z.hoist, sig := z.sig, cyc := z.cyc, dio := z.dio, ana := z.ana }.rest)
    (hg : u.eng.groups = v.eng.groups) (hp : u.eng.peak = v.eng.peak)
    (hl : ∀ k, k ∉ ls → (loopAt u k).secs = (loopAt v k).secs ∧ (loopAt u k).out = (loopAt v k).out) : besideLoops z ls u = besideLoops z ls v := by
  unfold besideLoops
  rw [hr, hg, hp]
  refine congrArg (fun f => (_, _, _, f)) (funext fun k => ?_)
  split
  · rfl
  · next hk =>
    obtain ⟨h1, h2⟩ := hl k hk
    rw [h1, h2]

theorem besideLoops_beyond {z u v : State} {ls : List Nat} (h : u.beyondField = v.beyondField) : besideLoops z ls u = besideLoops z ls v := by
  have he : u.eng = v.eng := by
    have e := congrArg State.eng h
    exact e
  refine besideLoops_congr ?_ (by rw [he]) (by rw [he]) fun k _ => ?_
  · have e := congrArg (fun x : State => { x with
      eng := z.rest.eng, log := z.rest.log, mem := z.rest.mem, hoist := z.rest.hoist, sig := z.rest.sig, cyc := z.rest.cyc
      dio := z.rest.dio, ana := z.rest.ana, sys := { x.sys with run := [], refClock := false } }) h
    exact e
  · unfold loopAt
    rw [he]
    exact ⟨rfl, rfl⟩

theorem besideLoops_book {z u v : State} {ls : List Nat} (h : { u with mem := v.mem, log := v.log, free := v.free } = v) :
    besideLoops z ls u = besideLoops z ls v := by
  have hu : u = { v with mem := u.mem, log := u.log, free := u.free } := congrArg (fun x : State => { x with mem := u.mem, log := u.log, free := u.free }) h
  rw [hu]
  rfl

/-- An update of the engine that keeps the groups, the peak, and the loops beside `ls`. -/
theorem besideLoops_onEng {z : State} {ls : List Nat} {f : Engine → Engine} {s : State} (hg : (f s.eng).groups = s.eng.groups)
    (hp : (f s.eng).peak = s.eng.peak) (hl : ∀ k, k ∉ ls → loopAt (onEng f s) k = loopAt s k) :
    besideLoops z ls (onEng f s) = besideLoops z ls s :=
  besideLoops_congr rfl hg hp fun k hk => by rw [hl k hk]; exact ⟨rfl, rfl⟩

section
variable {z : State} {ls : List Nat} {n : Nat} (hn : n ∈ ls)
include hn

theorem besideLoops_onLoop (f : Loop → Loop) (s : State) : besideLoops z ls (onLoop n f s) = besideLoops z ls s :=
  besideLoops_onEng rfl rfl fun k hk => loopAt_onLoop_ne (fun e : k = n => hk (e ▸ hn)) f s

theorem besideLoops_steps : LoopSteps (besideLoops z ls) n where
  beyond := besideLoops_beyond
  book := besideLoops_book
  sticky bit _ s := besideLoops_onEng rfl rfl fun k hk => loopAt_onLoop_ne (fun e : k = n => hk (e ▸ hn)) (fun l => { l with sticky := l.sticky ||| 2 ^ bit }) s
  used f s _ := besideLoops_onLoop hn f s

theorem besideLoops_sections (i : Nat) (ts : List Bool) (cs : List SecCfg) (sts : List SecState) (x : Flt) (s : State) :
    besideLoops z ls (runSections n i ts cs sts x s).2.2 = besideLoops z ls s := by
  have hs := besideLoops_steps (z := z) hn
  induction ts generalizing i cs sts x s with
  | nil => rfl
  | cons t ts ih =>
    cases cs with
    | nil => rfl
    | cons c cs =>
      cases sts with
      | nil => rfl
      | cons st sts =>
        refine (ih (i + 1) cs sts _ _).trans ?_
        have h1 : besideLoops z ls (if (secStep (if t then 3 else 2) c st x).satState then loopSat n 1 i s else s) = besideLoops z ls s :=
          keeps_ite _ (hs.sat _ _ _) rfl
        exact keeps_ite _ ((hs.sat _ _ _).trans h1) h1

theorem besideLoops_compute (a sp b : Flt) (kIn kFf : Gain) (lo hi : Option Flt) (s : State) :
    besideLoops z ls (loopCompute n a sp b kIn kFf lo hi s) = besideLoops z ls s := by
  have hs := besideLoops_steps (z := z) hn
  unfold loopCompute
  dsimp only
  refine (besideLoops_onLoop hn _ _).trans ?_
  have h1 {c : Prop} [Decidable c] (k : Nat) : besideLoops z ls (if c then loopSat n 2 k s else s) = besideLoops z ls s := keeps_ite _ (hs.sat _ _ _) rfl
  have h2 {c : Prop} [Decidable c] (k i : Nat) (ts : List Bool) (cs : List SecCfg) (sts : List SecState) (x : Flt) :
      besideLoops z ls (runSections n i ts cs sts x (if c then loopSat n 2 k s else s)).2.2 = besideLoops z ls s :=
    (besideLoops_sections hn i ts cs sts x _).trans (h1 k)
  exact keeps_ite _ ((hs.sat _ _ _).trans (h2 _ _ _ _ _ _)) (h2 _ _ _ _ _ _)

theorem besideLoops_sample (s : State) : besideLoops z ls (loopSample n s) = besideLoops z ls s := by
  have hs := besideLoops_steps (z := z) hn
  obtain ⟨u, hu, q, a, sp, b, kIn, kFf, lo, hi, hx⟩ := loopSample_parts n s
  rw [hx]
  have h1 : besideLoops z ls (if (loopAt s n).held then u
      else raise .loopInputBad .notice n n 0 0 (loopSticky n 6 1 (onLoop n (fun l => { l with held := true }) u))) = besideLoops z ls s :=
    keeps_ite _ (hu hs) ((hs.raise ..).trans ((hs.sticky _ _ _).trans ((besideLoops_onLoop hn _ _).trans (hu hs))))
  have h2 : besideLoops z ls (sampleHeld n (loopAt s n) u) = besideLoops z ls s :=
    keeps_ite _ ((besideLoops_onLoop hn _ _).trans ((besideLoops_onLoop hn _ _).trans h1)) ((besideLoops_onLoop hn _ _).trans h1)
  exact (hs.posted _ _ _).trans (keeps_ite _ h2 ((besideLoops_compute hn _ _ _ _ _ _ _ u).trans (hu hs)))

theorem besideLoops_disable (s : State) : besideLoops z ls (loopDisable n s) = besideLoops z ls s := by
  have hw (u : State) (hu : besideLoops z ls u = besideLoops z ls s) :
      besideLoops z ls (if (loopAt s n).outEntry = 0 then u else
        writeEntry (loopAt s n).outEntry (ownValue u (loopAt s n).outEntry) qConfig u) = besideLoops z ls s :=
    keeps_ite _ hu ((besideLoops_beyond (writeEntry_beyond _ _ _ _)).trans hu)
  unfold loopDisable
  dsimp only
  split
  · exact hw _ (besideLoops_onLoop hn _ _)
  · exact hw _ (besideLoops_onLoop hn _ _)
  · exact hw _ (besideLoops_onLoop hn _ _)

theorem besideLoops_enable (on : Bool) (s : State) : besideLoops z ls (loopEnable n on s) = besideLoops z ls s := by
  have h1 := besideLoops_onLoop (z := z) hn (fun l => { l with armed := none }) s
  exact keeps_ite _ ((besideLoops_onLoop hn _ _).trans h1) (keeps_ite _ ((besideLoops_disable hn _).trans h1) h1)

theorem besideLoops_halts (s : State) : besideLoops z ls (loopHalts n s) = besideLoops z ls s := by
  unfold loopHalts
  split
  · rfl
  · have h1 (f : Loop → Loop) : besideLoops z ls (onEng (fun e => { e with flags := flag 5 e.flags, loops := change n f e.loops }) s) = besideLoops z ls s :=
      besideLoops_onEng rfl rfl fun k hk => loopAt_onLoop_ne (fun e : k = n => hk (e ▸ hn)) f s
    exact keeps_ite _ (h1 _) ((besideLoops_beyond (writeEntry_beyond _ _ _ _)).trans (h1 _))

theorem besideLoops_takesState (s : State) : besideLoops z ls (loopTakesState n s) = besideLoops z ls s := by
  refine Eq.trans rfl (forAll_keeps (besideLoops z ls) s.hoist.loopsDue _ (fun r t => ?_) s)
  split
  · refine keeps_ite _ (besideLoops_onLoop hn _ _) rfl
  · rfl

theorem besideLoops_due (s : State) : besideLoops z ls (loopDue n s) = besideLoops z ls s := by
  have hs := besideLoops_steps (z := z) hn
  unfold loopDue
  split
  · refine (besideLoops_halts hn _).trans (besideLoops_book ?_)
    rfl
  · have hb := hs.block (contextErrors s n) s
    split
    · next p u e =>
      rw [e] at hb
      refine (besideLoops_halts hn _).trans ((besideLoops_book ?_).trans hb)
      have e := congrArg (fun z : State => { z with free := u.free }) (ueFound_frame .loop p u)
      exact e
    · next u e =>
      rw [e] at hb
      exact (besideLoops_sample hn _).trans ((besideLoops_takesState hn _).trans hb)

end

end Sys2Proof.Machine
end

section
/-! PROOFS. Ticks, ENABLE bits and latches of the compensator engine (08_compensator_engine.md R200, R214 to R218, R224). -/

namespace Sys2Proof.Machine

/-! ### A tick in its parts (R214, R216, R217) -/

/-- The output that an aligned loop holds back goes out. -/
def postWaiting (n : Nat) (s : State) : State :=
  match (loopAt s n).pendingOut with
  | none => s
  | some (out, q) => loopPost n out q (onLoop n (fun l => { l with pendingOut := none }) s)

/-- An ENABLE bit that waits acts. -/
def enableArmed (n : Nat) (s : State) : State :=
  match (loopAt s n).armed with
  | none => s
  | some on => loopEnable n on s

/-- The state of a tick once what waited has gone out and ENABLE bits have acted. -/
def groupBegun (g : Nat) (s : State) : State := forAll (loopsOf s g) enableArmed (forAll (loopsOf s g) postWaiting s)

/-- The loops that a tick computes. -/
def groupDue (g : Nat) (s : State) : List Nat :=
  if loopsCompute (groupBegun g s) then (loopsOf s g).filter fun n => (loopAt (groupBegun g s) n).enabled else []

/-- The state of a tick once sets are taken and the loops in time are computed. -/
def groupComputed (g computed : Nat) (s : State) : State :=
  forAll ((groupDue g s).take computed) loopDue
    (loopCommitEnd (forAll ((loopsOf s g).filter fun n => !((groupDue g s).drop computed).contains n) loopTakeSet (groupBegun g s)))

/-- A group after its tick. -/
def LoopGroup.ticked (g now busy : Nat) (x : LoopGroup) : LoopGroup :=
  { x with nextTick := tickAfter g now, last := busy, longest := max x.longest busy }

theorem groupTick_of_due {k : LoopTick} {s : State} (hr : railsOn s = true) (ht : (s.eng.groups.getD k.group {}).nextTick ≤ s.mono)
    (hf : fasterTicks s k.group = false) :
    groupTick k s =
      (let u := loopsMissed k.group ((groupDue k.group s).drop k.computed) (groupComputed k.group k.computed s)
       onEng (fun e => { e with peak := max e.peak k.load, groups := e.groups.modify k.group (LoopGroup.ticked k.group u.mono k.busy) }) u) :=
  if_neg (by
    rw [hr, hf, decide_eq_false (Nat.not_lt.mpr ht)]
    decide)

theorem groupDue_mem {g n : Nat} {s : State} (h : n ∈ groupDue g s) : n ∈ loopsOf s g := by
  unfold groupDue at h
  split at h
  · exact List.mem_of_mem_filter h
  · cases h

theorem besideLoops_postWaiting {z : State} {ls : List Nat} {n : Nat} (hn : n ∈ ls) (s : State) :
    besideLoops z ls (postWaiting n s) = besideLoops z ls s := by
  unfold postWaiting
  split
  · rfl
  · exact ((besideLoops_steps hn).post _ _ _).trans (besideLoops_onLoop hn _ s)

theorem besideLoops_enableArmed {z : State} {ls : List Nat} {n : Nat} (hn : n ∈ ls) (s : State) :
    besideLoops z ls (enableArmed n s) = besideLoops z ls s := by
  unfold enableArmed
  split
  · rfl
  · exact besideLoops_enable hn _ s

theorem besideLoops_commitEnd {z : State} {ls : List Nat} (s : State) : besideLoops z ls (loopCommitEnd s) = besideLoops z ls s :=
  keeps_ite _ rfl rfl

theorem besideLoops_takeSet {z : State} {ls : List Nat} {n : Nat} (hn : n ∈ ls) (s : State) :
    besideLoops z ls (loopTakeSet n s) = besideLoops z ls s := besideLoops_onLoop hn _ s

theorem besideLoops_begun {z : State} (g : Nat) (s : State) : besideLoops z (loopsOf s g) (groupBegun g s) = besideLoops z (loopsOf s g) s :=
  (forAll_keeps_mem _ _ _ (fun _ hn t => besideLoops_enableArmed hn t) _).trans
    (forAll_keeps_mem _ _ _ (fun _ hn t => besideLoops_postWaiting hn t) s)

theorem besideLoops_computed {z : State} (g computed : Nat) (s : State) :
    besideLoops z (loopsOf s g) (groupComputed g computed s) = besideLoops z (loopsOf s g) s :=
  (forAll_keeps_mem _ _ _ (fun _ hn t => besideLoops_due (groupDue_mem (List.mem_of_mem_take hn)) t) _).trans
    ((besideLoops_commitEnd _).trans
      ((forAll_keeps_mem _ _ _ (fun _ hn t => besideLoops_takeSet (List.mem_of_mem_filter hn) t) _).trans (besideLoops_begun g s)))

/-! ### Loops that miss their tick (R217) -/

/-- A group whose loops have missed a tick. -/
def LoopGroup.missedOne (x : LoopGroup) : LoopGroup := { x with misses := satInc 32 x.misses, missed := true }

/-- The engine of a group whose loops have missed a tick. -/
def groupMissed (g : Nat) (s : State) : State := onEng (fun e => { e with groups := e.groups.modify g LoopGroup.missedOne }) s

theorem loopsMissed_cons (g first : Nat) (more : List Nat) (s : State) :
    loopsMissed g (first :: more) s =
      (let u := forAll (first :: more) (fun n t => loopSticky n 3 4 t) s
       if (u.eng.groups.getD g {}).missed then groupMissed g u else raise .loopDeadline .fault 0xFF g first 0 (groupMissed g u)) := rfl

/-- What a miss leaves: the group alone changes beside the loops. -/
theorem besideLoops_missed {z : State} {ls : List Nat} (g : Nat) {l : List Nat} (hl : ∀ n ∈ l, n ∈ ls) (s : State) :
    besideLoops z ls (loopsMissed g l s) = ((besideLoops z ls s).1,
      (if l.isEmpty then s.eng.groups else s.eng.groups.modify g LoopGroup.missedOne), (besideLoops z ls s).2.2) := by
  cases l with
  | nil => rfl
  | cons first more =>
    have hb : besideLoops z ls (forAll (first :: more) (fun n t => loopSticky n 3 4 t) s) = besideLoops z ls s :=
      forAll_keeps_mem _ _ _ (fun n hn t => (besideLoops_steps (hl n hn)).sticky 3 4 t) s
    rw [loopsMissed_cons]
    dsimp only
    generalize forAll (first :: more) (fun n t => loopSticky n 3 4 t) s = u at hb
    have hm : besideLoops z ls (groupMissed g u) =
        ((besideLoops z ls u).1, u.eng.groups.modify g LoopGroup.missedOne, (besideLoops z ls u).2.2) := rfl
    have hg : u.eng.groups = s.eng.groups := congrArg (fun x => x.2.1) hb
    rw [hb, hg] at hm
    exact keeps_ite _ hm ((besideLoops_book (by rw [raise_frame])).trans hm)

theorem groups_getD_modify_ne {l : List LoopGroup} {g k : Nat} (h : k ≠ g) (f : LoopGroup → LoopGroup) :
    (l.modify g f).getD k {} = l.getD k {} := by
  simp [Ne.symm h]

theorem groups_getD_modify {l : List LoopGroup} {g : Nat} (h : g < l.length) (f : LoopGroup → LoopGroup) :
    (l.modify g f).getD g {} = f (l.getD g {}) := by
  simp [h]

theorem eng_of_rest {t u : State} (h : t.rest = u.rest) : t.eng = u.eng := by
  have e := congrArg State.eng h
  exact e

/-! ### The tick's statement -/

/-- Groups of which `g` may have missed its tick, and has ticked. -/
def groupsTicked (g now busy : Nat) (miss : Bool) (l : List LoopGroup) : List LoopGroup :=
  (if miss then l.modify g LoopGroup.missedOne else l).modify g (LoopGroup.ticked g now busy)

theorem groupsTicked_ne {g k : Nat} (h : k ≠ g) (now busy : Nat) (miss : Bool) (l : List LoopGroup) :
    (groupsTicked g now busy miss l).getD k {} = l.getD k {} := by
  unfold groupsTicked
  rw [groups_getD_modify_ne h]
  cases miss with
  | true => exact groups_getD_modify_ne h _
  | false => rfl

theorem groupsTicked_same {g : Nat} {l : List LoopGroup} (h : g < l.length) (now busy : Nat) (miss : Bool) :
    (groupsTicked g now busy miss l).getD g {} =
      LoopGroup.ticked g now busy (if miss then (l.getD g {}).missedOne else l.getD g {}) := by
  unfold groupsTicked
  cases miss with
  | true => rw [if_pos rfl, if_pos rfl, groups_getD_modify (by simpa using h), groups_getD_modify h]
  | false => exact groups_getD_modify h _

theorem mono_of_besideLoops {z u v : State} {ls : List Nat} (h : besideLoops z ls u = besideLoops z ls v) : u.mono = v.mono := by
  have e := congrArg (fun x => x.1.mono) h
  exact e

theorem groupTick_outcome {k : LoopTick} {s : State} (hr : railsOn s = true) (hk : k.group < s.eng.groups.length)
    (ht : (s.eng.groups.getD k.group {}).nextTick ≤ s.mono) (hf : fasterTicks s k.group = false) :
    ∃ t, exec (.groupTick k) s = .next t ∧ t.eng.peak = max s.eng.peak k.load ∧
      (t.eng.groups.getD k.group {}).last = k.busy ∧ (t.eng.groups.getD k.group {}).nextTick = tickAfter k.group s.mono ∧
      (t.eng.groups.getD k.group {}).longest = max (s.eng.groups.getD k.group {}).longest k.busy ∧
      (∀ g, g ≠ k.group → t.eng.groups.getD g {} = s.eng.groups.getD g {}) ∧
      (∀ n, n ∉ loopsOf s k.group → (loopAt t n).secs = (loopAt s n).secs ∧ (loopAt t n).out = (loopAt s n).out) ∧
      { t with eng := s.eng, log := s.log, mem := s.mem, hoist := s.hoist, sig := s.sig, cyc := s.cyc, dio := s.dio,
               ana := s.ana }.rest = s.rest := by
  obtain ⟨t, hx, hrest⟩ := answer_settled s (groupTick k s)
  have hcomp := besideLoops_computed (z := s) k.group k.computed s
  have hmiss := besideLoops_missed (z := s) k.group (l := (groupDue k.group s).drop k.computed) (ls := loopsOf s k.group)
    (fun n hn => groupDue_mem (List.mem_of_mem_drop hn)) (groupComputed k.group k.computed s)
  have hcg : (groupComputed k.group k.computed s).eng.groups = s.eng.groups := congrArg (fun x => x.2.1) hcomp
  rw [hcomp, hcg] at hmiss
  rw [groupTick_of_due hr ht hf] at hrest
  dsimp only at hrest
  generalize loopsMissed k.group ((groupDue k.group s).drop k.computed) (groupComputed k.group k.computed s) = u at hmiss hrest
  have hgroups : u.eng.groups = if ((groupDue k.group s).drop k.computed).isEmpty then s.eng.groups
      else s.eng.groups.modify k.group LoopGroup.missedOne := congrArg (fun x => x.2.1) hmiss
  have hpeak : u.eng.peak = s.eng.peak := congrArg (fun x => x.2.2.1) hmiss
  have hloops (n : Nat) (hn : n ∉ loopsOf s k.group) : (loopAt u n).secs = (loopAt s n).secs ∧ (loopAt u n).out = (loopAt s n).out := by
    have e := congrFun (congrArg (fun x => x.2.2.2) hmiss) n
    simpa [besideLoops, hn] using e
  have hmono : u.mono = s.mono := by
    have e := congrArg (fun x => x.1.mono) hmiss
    exact e
  have hbeside : { u with eng := s.eng, log := s.log, mem := s.mem, hoist := s.hoist, sig := s.sig, cyc := s.cyc, dio := s.dio,
                          ana := s.ana }.rest = s.rest := congrArg (fun x => x.1) hmiss
  have heng := eng_of_rest hrest
  have hticked : t.eng.groups = groupsTicked k.group s.mono k.busy (!((groupDue k.group s).drop k.computed).isEmpty) s.eng.groups := by
    rw [heng]
    show u.eng.groups.modify k.group (LoopGroup.ticked k.group u.mono k.busy) = _
    rw [hgroups, hmono]
    unfold groupsTicked
    cases ((groupDue k.group s).drop k.computed).isEmpty <;> rfl
  have hsame := groupsTicked_same hk s.mono k.busy (!((groupDue k.group s).drop k.computed).isEmpty)
  refine ⟨t, hx, ?_, ?_, ?_, ?_, fun g hg => ?_, fun n hn => ?_, ?_⟩
  · rw [heng]
    show max u.eng.peak k.load = _
    rw [hpeak]
  · rw [hticked, hsame]
    rfl
  · rw [hticked, hsame]
    rfl
  · rw [hticked, hsame]
    show max (LoopGroup.longest (if _ then _ else _)) _ = _
    split <;> rfl
  · rw [hticked, groupsTicked_ne hg]
  · have hl : loopAt t n = loopAt u n := by
      unfold loopAt
      rw [heng]
      rfl
    rw [hl]
    exact hloops n hn
  · have e := congrArg (fun x : State => { x with
      eng := s.rest.eng, log := s.rest.log, mem := s.rest.mem, hoist := s.rest.hoist, sig := s.rest.sig, cyc := s.rest.cyc
      dio := s.rest.dio, ana := s.rest.ana }) hrest
    exact Eq.trans e hbeside

/-! ### A tick that computes no loop in time -/

theorem forAll_of_idle {α : Type} (l : List α) (f : α → State → State) (s : State) (h : ∀ a ∈ l, f a s = s) : forAll l f s = s := by
  unfold forAll
  induction l with
  | nil => rfl
  | cons a l ih =>
    rw [List.foldl_cons, h a (List.mem_cons_self ..)]
    exact ih fun b hb => h b (List.mem_cons_of_mem a hb)

theorem groupBegun_of_idle {g : Nat} {s : State}
    (h : ∀ n ∈ loopsOf s g, (loopAt s n).armed = none ∧ (loopAt s n).pendingOut = none) : groupBegun g s = s := by
  have h1 : forAll (loopsOf s g) postWaiting s = s := forAll_of_idle _ _ _ fun n hn => by rw [postWaiting, (h n hn).2]
  unfold groupBegun
  rw [h1]
  exact forAll_of_idle _ _ _ fun n hn => by rw [enableArmed, (h n hn).1]

theorem groupDue_of_idle {g : Nat} {s : State} (hc : loopsCompute s = true)
    (h : ∀ n ∈ loopsOf s g, (loopAt s n).enabled = true ∧ (loopAt s n).armed = none ∧ (loopAt s n).pendingOut = none) :
    groupDue g s = loopsOf s g := by
  unfold groupDue
  rw [groupBegun_of_idle fun n hn => (h n hn).2, if_pos hc]
  exact List.filter_eq_self.mpr fun n hn => (h n hn).1

theorem loopsOf_present {s : State} {g n : Nat} (h : n ∈ loopsOf s g) : (look n s.eng.loops).isSome = true := by
  obtain ⟨p, hp, rfl⟩ := List.mem_map.mp h
  have hp := List.mem_of_mem_filter hp
  generalize s.eng.loops = l at hp
  induction l with
  | nil => cases hp
  | cons q l ih =>
    by_cases hq : q.1 = p.1
    · simp [look, hq]
    · obtain rfl | hp := List.mem_cons.mp hp
      · exact absurd rfl hq
      · simpa [look, hq] using ih hp

theorem sticky_bit (x bit : Nat) : (x ||| 2 ^ bit).testBit bit = true := by
  simp [Nat.testBit_or]

/-- A loop with a sticky bit more. -/
def Loop.stuck (bit : Nat) (l : Loop) : Loop := { l with sticky := l.sticky ||| 2 ^ bit }

theorem loopSticky_loops (n bit any : Nat) (s : State) : (loopSticky n bit any s).eng.loops = change n (Loop.stuck bit) s.eng.loops := rfl

theorem loopSticky_present (n bit any k : Nat) (s : State) :
    (look k (loopSticky n bit any s).eng.loops).isSome = (look k s.eng.loops).isSome := by
  rw [loopSticky_loops]
  by_cases hk : k = n
  · subst hk
    rw [look_change_same, Option.isSome_map]
  · rw [look_change_ne hk]

theorem loopSticky_keeps_bit {s : State} {k b : Nat} (hp : (look k s.eng.loops).isSome = true)
    (h : (loopAt s k).sticky.testBit b = true) (n bit any : Nat) :
    (loopAt (loopSticky n bit any s) k).sticky.testBit b = true := by
  show (loopAt (onLoop n (Loop.stuck bit) s) k).sticky.testBit b = true
  by_cases hk : k = n
  · subst hk
    rw [loopAt_onLoop hp]
    simp [Loop.stuck, Nat.testBit_or, h]
  · rw [loopAt_onLoop_ne hk]
    exact h

/-- Loops that miss a tick all have the bit of it. -/
theorem forAll_sticky {l : List Nat} {s : State} (bit any : Nat) {n : Nat} (hn : n ∈ l) (hp : (look n s.eng.loops).isSome = true) :
    (loopAt (forAll l (fun n t => loopSticky n bit any t) s) n).sticky.testBit bit = true := by
  have hkeep (l : List Nat) (s : State) (hp : (look n s.eng.loops).isSome = true) (h : (loopAt s n).sticky.testBit bit = true) :
      (loopAt (forAll l (fun n t => loopSticky n bit any t) s) n).sticky.testBit bit = true := by
    induction l generalizing s with
    | nil => exact h
    | cons k l ih => exact ih _ ((loopSticky_present k bit any n s).trans hp) (loopSticky_keeps_bit hp h k bit any)
  induction l generalizing s with
  | nil => cases hn
  | cons k l ih =>
    obtain rfl | hn := List.mem_cons.mp hn
    · refine hkeep l _ ((loopSticky_present n bit any n s).trans hp) ?_
      have e : loopAt (loopSticky n bit any s) n = (loopAt s n).stuck bit := loopAt_onLoop hp (Loop.stuck bit)
      rw [e]
      exact sticky_bit _ _
    · exact ih hn ((loopSticky_present k bit any n s).trans hp)

theorem loopAt_eng {u v : State} (h : u.eng.loops = v.eng.loops) (n : Nat) : loopAt u n = loopAt v n := by
  unfold loopAt
  rw [h]

/-- What ends the commit of the loops leaves: the engine's commit register alone changes. -/
theorem loopCommitEnd_frame (s : State) : ∃ c, loopCommitEnd s = { s with eng := { s.eng with commit := c } } := by
  unfold loopCommitEnd
  split
  · exact ⟨s.eng.commit, rfl⟩
  · exact ⟨_, rfl⟩

/-- Every loop with a miss, and its group. -/
theorem loopsMissed_loops (g first : Nat) (more : List Nat) (s : State) :
    (loopsMissed g (first :: more) s).eng.loops = (forAll (first :: more) (fun n t => loopSticky n 3 4 t) s).eng.loops := by
  rw [loopsMissed_cons]
  exact keeps_ite (fun u : State => u.eng.loops) rfl rfl

theorem forAll_sticky_beside (l : List Nat) (s : State) :
    (forAll l (fun n t => loopSticky n 3 4 t) s).eng.groups = s.eng.groups ∧
      (forAll l (fun n t => loopSticky n 3 4 t) s).log = s.log ∧ (forAll l (fun n t => loopSticky n 3 4 t) s).mono = s.mono :=
  ⟨forAll_keeps (fun u : State => u.eng.groups) l (fun n t => loopSticky n 3 4 t) (fun _ _ => rfl) s, forAll_keeps (fun u : State => u.log) l (fun n t => loopSticky n 3 4 t) (fun _ _ => rfl) s,
    forAll_keeps (fun u : State => u.mono) l (fun n t => loopSticky n 3 4 t) (fun _ _ => rfl) s⟩

theorem loopsMissed_groups (g first : Nat) (more : List Nat) (s : State) :
    (loopsMissed g (first :: more) s).eng.groups = s.eng.groups.modify g LoopGroup.missedOne ∧ (loopsMissed g (first :: more) s).mono = s.mono := by
  obtain ⟨hg, -, hm⟩ := forAll_sticky_beside (first :: more) s
  rw [loopsMissed_cons]
  dsimp only
  generalize forAll (first :: more) (fun n t => loopSticky n 3 4 t) s = u at hg hm
  rw [← hg, ← hm]
  split <;> exact ⟨rfl, rfl⟩

theorem loopsMissed_log {g : Nat} {s : State} (h : (s.eng.groups.getD g {}).missed = false) (first : Nat) (more : List Nat) :
    (loopsMissed g (first :: more) s).log = (raise .loopDeadline .fault 0xFF g first 0 s).log := by
  obtain ⟨hg, hl, hm⟩ := forAll_sticky_beside (first :: more) s
  rw [loopsMissed_cons]
  dsimp only
  generalize forAll (first :: more) (fun n t => loopSticky n 3 4 t) s = u at hg hl hm
  rw [if_neg (by rw [hg, h]; decide)]
  exact raise_log .loopDeadline .fault 0xFF g first 0 (groupMissed g u) s hl hm

/-- The tick of a group whose loops are all late. -/
theorem groupTick_of_late {k : LoopTick} {s : State} {first : Nat} {more : List Nat} (hr : railsOn s = true)
    (ht : (s.eng.groups.getD k.group {}).nextTick ≤ s.mono) (hf : fasterTicks s k.group = false)
    (hc : loopsCompute s = true) (hl : loopsOf s k.group = first :: more) (h0 : k.computed = 0)
    (h : ∀ n ∈ first :: more, (loopAt s n).enabled = true ∧ (loopAt s n).armed = none ∧ (loopAt s n).pendingOut = none) :
    groupTick k s =
      (let u := loopsMissed k.group (first :: more) (loopCommitEnd s)
       onEng (fun e => { e with peak := max e.peak k.load, groups := e.groups.modify k.group (LoopGroup.ticked k.group u.mono k.busy) }) u) := by
  have hdue : groupDue k.group s = first :: more := (groupDue_of_idle hc (hl ▸ h)).trans hl
  have hcomputed : groupComputed k.group k.computed s = loopCommitEnd s := by
    unfold groupComputed
    rw [hdue, h0, groupBegun_of_idle (fun n hn => (h n (hl ▸ hn)).2), hl]
    have hnone : (first :: more).filter (fun n => !((first :: more).drop 0).contains n) = [] := by
      refine List.filter_eq_nil_iff.mpr fun n hn => ?_
      simp only [List.drop_zero, List.contains_iff_mem.mpr hn]
      decide
    rw [hnone]
    rfl
  rw [groupTick_of_due hr ht hf, hdue, hcomputed, h0, List.drop_zero]

theorem groupMissed_outcome {k : LoopTick} {s : State} {first : Nat} {more : List Nat} (hr : railsOn s = true)
    (hk : k.group < s.eng.groups.length) (ht : (s.eng.groups.getD k.group {}).nextTick ≤ s.mono) (hf : fasterTicks s k.group = false)
    (hc : loopsCompute s = true) (hl : loopsOf s k.group = first :: more) (h0 : k.computed = 0)
    (h : ∀ n ∈ first :: more, (loopAt s n).enabled = true ∧ (loopAt s n).armed = none ∧ (loopAt s n).pendingOut = none) :
    ∃ t, exec (.groupTick k) s = .next t ∧
      (∀ n ∈ first :: more, (loopAt t n).sticky.testBit 3 = true ∧ (loopAt t n).secs = (loopAt s n).secs) ∧
      (t.eng.groups.getD k.group {}).misses = satInc 32 (s.eng.groups.getD k.group {}).misses ∧
      ((s.eng.groups.getD k.group {}).missed = false → t.log = (raise .loopDeadline .fault 0xFF k.group first 0 s).log) := by
  obtain ⟨t, hx, hrest⟩ := answer_settled s (groupTick k s)
  rw [groupTick_of_late hr ht hf hc hl h0 h] at hrest
  obtain ⟨c, hend⟩ := loopCommitEnd_frame s
  have hpresent : ∀ n ∈ first :: more, (look n (loopCommitEnd s).eng.loops).isSome = true := fun n hn => by
    rw [hend]
    exact loopsOf_present (hl ▸ hn)
  have hloops : t.eng.loops = (forAll (first :: more) (fun n t => loopSticky n 3 4 t) (loopCommitEnd s)).eng.loops :=
    (congrArg Engine.loops (eng_of_rest hrest)).trans (loopsMissed_loops k.group first more _)
  obtain ⟨hgroups, hmono⟩ := loopsMissed_groups k.group first more (loopCommitEnd s)
  have hgt : t.eng.groups = ((s.eng.groups.modify k.group LoopGroup.missedOne).modify k.group (LoopGroup.ticked k.group s.mono k.busy)) := by
    refine (congrArg Engine.groups (eng_of_rest hrest)).trans ?_
    show List.modify _ _ _ = _
    rw [hgroups, hmono, hend]
  refine ⟨t, hx, fun n hn => ?_, ?_, fun hmiss => ?_⟩
  · rw [loopAt_eng hloops]
    refine ⟨forAll_sticky 3 4 hn (hpresent n hn), ?_⟩
    refine (forAll_keeps (fun u => (loopAt u n).secs) _ (fun n t => loopSticky n 3 4 t)
      (fun k u => loopAt_onLoop_keeps Loop.secs k (f := Loop.stuck 3) (fun _ => rfl) u n) _).trans ?_
    rw [hend]
    rfl
  · rw [hgt, groups_getD_modify (by simpa using hk), groups_getD_modify hk]
    rfl
  · refine (log_of_rest hrest).trans ((loopsMissed_log (s := loopCommitEnd s) (by rw [hend]; exact hmiss) first more).trans ?_)
    rw [hend]
    exact raise_log .loopDeadline .fault 0xFF k.group first 0 _ s rfl rfl

/-! ### A loop with a bad input (R205) -/

/-- What a loop that holds keeps, whether it holds, and whether it is there. -/
def loopView (n : Nat) (u : State) : List SecState × Flt × Bool × Bool :=
  ((loopAt u n).secs, (loopAt u n).out, (loopAt u n).held, (look n u.eng.loops).isSome)

theorem loopView_eng {u v : State} {n : Nat} (h : u.eng.loops = v.eng.loops) : loopView n u = loopView n v := by
  unfold loopView
  rw [loopAt_eng h, h]

theorem present_onLoop (n : Nat) (f : Loop → Loop) (s : State) :
    (look n (onLoop n f s).eng.loops).isSome = (look n s.eng.loops).isSome :=
  (congrArg Option.isSome (look_change_same n f s.eng.loops)).trans Option.isSome_map

theorem loopView_onLoop (n : Nat) {f : Loop → Loop} (h : ∀ l, (f l).secs = l.secs ∧ (f l).out = l.out ∧ (f l).held = l.held) (s : State) :
    loopView n (onLoop n f s) = loopView n s := by
  have hs := loopAt_onLoop_keeps Loop.secs n (f := f) (fun l => (h l).1) s n
  have ho := loopAt_onLoop_keeps Loop.out n (f := f) (fun l => (h l).2.1) s n
  have hh := loopAt_onLoop_keeps Loop.held n (f := f) (fun l => (h l).2.2) s n
  unfold loopView
  rw [hs, ho, hh, present_onLoop]

theorem loopView_steps (n : Nat) : LoopSteps (loopView n) n where
  beyond h := by
    refine loopView_eng ?_
    have e := congrArg (fun x : State => x.eng.loops) h
    exact e
  book h := by
    refine loopView_eng ?_
    have e := congrArg (fun x : State => x.eng.loops) h
    exact e
  sticky bit _ s := loopView_onLoop n (f := Loop.stuck bit) (fun _ => ⟨rfl, rfl, rfl⟩) s
  used f s h := loopView_onLoop n h s

/-- A loop with a bad input that takes no safe value holds. -/
theorem loopView_held {n : Nat} {l : Loop} {u : State} (hp : (look n u.eng.loops).isSome = true) (hl : (loopAt u n).held = l.held)
    (hb : l.badSafe = false) : loopView n (sampleHeld n l u) = ((loopAt u n).secs, (loopAt u n).out, true, true) := by
  have hs := loopView_steps n
  have hset : loopView n (onLoop n (fun l => { l with held := true }) u) = ((loopAt u n).secs, (loopAt u n).out, true, true) := by
    unfold loopView
    rw [loopAt_onLoop hp, present_onLoop, hp]
  have hfirst : loopView n (if l.held then u
      else raise .loopInputBad .notice n n 0 0 (loopSticky n 6 1 (onLoop n (fun l => { l with held := true }) u))) =
      ((loopAt u n).secs, (loopAt u n).out, true, true) := by
    split
    · next hh =>
      unfold loopView
      rw [hl, hh, hp]
    · exact (hs.raise ..).trans ((hs.sticky _ _ _).trans hset)
  unfold sampleHeld
  rw [if_neg (by rw [hb]; decide)]
  exact (loopView_onLoop n (by exact fun _ => ⟨rfl, rfl, rfl⟩) _).trans hfirst

theorem worstQual_of_bad {q : Byte} (h : qClass q = 0) (r : List (Option Byte)) : worstQual (some q :: r) = some q := by
  unfold worstQual
  split
  · rfl
  · rw [h, if_neg (Nat.not_lt_zero _)]

/-- A sample of a loop whose first input is a bad entry. -/
theorem loopView_sample_bad {n : Nat} {s : State} (hp : (look n s.eng.loops).isSome = true) (hk : (loopAt s n).inA.kind = 1)
    (hq : qClass (sigEntry s (loopAt s n).inA.ref).quality = 0) (hb : (loopAt s n).badSafe = false) :
    loopView n (loopSample n s) = ((loopAt s n).secs, (loopAt s n).out, true, true) := by
  have hs := loopView_steps n
  obtain ⟨u, hu, q, a, sp, b, kIn, kFf, lo, hi, hx⟩ := loopSample_parts n s
  have hview : loopView n u = loopView n s := hu hs
  have hworst : (sampleWorst n s).any (fun w => qClass w == 0) = true := by
    have ha : (readBinding s (loopAt s n).inA).qual = some (sigEntry s (loopAt s n).inA.ref).quality := by
      unfold readBinding
      rw [hk]
      rfl
    unfold sampleWorst
    rw [ha, worstQual_of_bad hq]
    simp [hq]
  rw [hx, if_pos hworst, hs.posted]
  have hheld : (loopAt u n).held = (loopAt s n).held := congrArg (fun x => x.2.2.1) hview
  have hpres : (look n u.eng.loops).isSome = (look n s.eng.loops).isSome := congrArg (fun x => x.2.2.2) hview
  rw [loopView_held (hpres.trans hp) hheld hb]
  have hsecs : (loopAt u n).secs = (loopAt s n).secs := congrArg (fun x => x.1) hview
  have hout : (loopAt u n).out = (loopAt s n).out := congrArg (fun x => x.2.1) hview
  rw [hsecs, hout]

theorem loopTakesState_of_none {n : Nat} {s : State} (h : s.hoist.loopsDue = []) :
    ∃ x, loopTakesState n s = { s with hoist := x } := by
  unfold loopTakesState
  rw [h]
  exact ⟨_, rfl⟩

theorem loopView_due_bad {n : Nat} {s : State} (hallowed : contextAllowed s n = true) (herr : contextErrors s n = [])
    (hnone : s.hoist.loopsDue = []) (hp : (look n s.eng.loops).isSome = true) (hk : (loopAt s n).inA.kind = 1)
    (hq : qClass (sigEntry s (loopAt s n).inA.ref).quality = 0) (hb : (loopAt s n).badSafe = false) :
    loopView n (loopDue n s) = ((loopAt s n).secs, (loopAt s n).out, true, true) := by
  obtain ⟨x, hx⟩ := loopTakesState_of_none (n := n) hnone
  have hdue : loopDue n s = loopSample n { s with hoist := x } := by
    unfold loopDue
    rw [herr, if_neg (by rw [hallowed]; decide), ← hx]
    rfl
  rw [hdue]
  exact loopView_sample_bad (s := { s with hoist := x }) hp hk hq hb

theorem Loop.taken_kept (l : Loop) : l.taken.inA = l.inA ∧ l.taken.flags = l.flags ∧ l.taken.secs = l.secs ∧ l.taken.out = l.out := by
  unfold Loop.taken
  split <;> exact ⟨rfl, rfl, rfl, rfl⟩

/-- The state in which the only loop of a group is computed, where nothing waited for its tick. -/
theorem groupComputed_of_one {k : LoopTick} {s : State} {n : Nat} (hl : loopsOf s k.group = [n]) (h0 : 0 < k.computed)
    (hc : loopsCompute s = true) (hen : (loopAt s n).enabled = true) (harm : (loopAt s n).armed = none)
    (hwait : (loopAt s n).pendingOut = none) :
    groupComputed k.group k.computed s = loopDue n (loopCommitEnd (loopTakeSet n s)) ∧ (groupDue k.group s).drop k.computed = [] := by
  have hidle : ∀ m ∈ loopsOf s k.group, (loopAt s m).enabled = true ∧ (loopAt s m).armed = none ∧ (loopAt s m).pendingOut = none := by
    intro m hm
    obtain rfl := List.mem_singleton.mp (hl ▸ hm)
    exact ⟨hen, harm, hwait⟩
  have hdue : groupDue k.group s = [n] := (groupDue_of_idle hc hidle).trans hl
  have hone : [n].length ≤ k.computed := h0
  refine ⟨?_, by rw [hdue, List.drop_of_length_le hone]⟩
  unfold groupComputed
  rw [hdue, groupBegun_of_idle (fun m hm => (hidle m hm).2), hl, List.take_of_length_le hone, List.drop_of_length_le hone]
  rfl

theorem loopHeld_outcome {k : LoopTick} {s : State} {n : Nat} (hr : railsOn s = true)
    (ht : (s.eng.groups.getD k.group {}).nextTick ≤ s.mono) (hf : fasterTicks s k.group = false)
    (hc : loopsCompute s = true) (hl : loopsOf s k.group = [n]) (h0 : 0 < k.computed) (hallowed : contextAllowed s n = true)
    (herr : contextErrors s n = []) (hnone : s.hoist.loopsDue = []) (hen : (loopAt s n).enabled = true) (harm : (loopAt s n).armed = none)
    (hwait : (loopAt s n).pendingOut = none) (hk : (loopAt s n).inA.kind = 1)
    (hq : qClass (sigEntry s (loopAt s n).inA.ref).quality = 0) (hb : (loopAt s n).badSafe = false) :
    ∃ t, exec (.groupTick k) s = .next t ∧ (loopAt t n).held = true ∧ (loopAt t n).out = (loopAt s n).out ∧
      (loopAt t n).secs = (loopAt s n).secs := by
  obtain ⟨t, hx, hrest⟩ := answer_settled s (groupTick k s)
  obtain ⟨hcomputed, hlate⟩ := groupComputed_of_one hl h0 hc hen harm hwait
  rw [groupTick_of_due hr ht hf, hcomputed, hlate] at hrest
  have hpresent := loop_present_of_enabled hen
  obtain ⟨c, hend⟩ := loopCommitEnd_frame (loopTakeSet n s)
  have hset : loopAt (loopCommitEnd (loopTakeSet n s)) n = (loopAt s n).taken := by
    rw [hend]
    exact loopAt_onLoop hpresent Loop.taken
  obtain ⟨hin, hflags, hsecs, hout⟩ := (loopAt s n).taken_kept
  have hview : loopView n (loopDue n (loopCommitEnd (loopTakeSet n s))) = ((loopAt s n).secs, (loopAt s n).out, true, true) := by
    have hv := loopView_due_bad (n := n) (s := loopCommitEnd (loopTakeSet n s)) (by rw [hend]; exact hallowed) (by rw [hend]; exact herr)
      (by rw [hend]; exact hnone) (by rw [hend]; exact (present_onLoop n Loop.taken s).trans hpresent) (by rw [hset, hin]; exact hk)
      (by rw [hset, hin, hend]; exact hq) (by rw [hset, Loop.badSafe, hflags]; exact hb)
    rwa [hset, hsecs, hout] at hv
  have hvt : loopView n t = ((loopAt s n).secs, (loopAt s n).out, true, true) :=
    (loopView_eng (congrArg Engine.loops (eng_of_rest hrest))).trans hview
  exact ⟨t, hx, congrArg (fun x => x.2.2.1) hvt, congrArg (fun x => x.2.1) hvt, congrArg (fun x => x.1) hvt⟩

/-! ### ENABLE bits (R218) -/

/-- A loop without LOOP_BAD_MEMORY after a write of its ENABLE bit. -/
def Loop.bitWritten (computing on : Bool) (l : Loop) : Loop :=
  if computing then { l with armed := if on = l.enabled then none else some on }
  else if on && !l.enabled then { ({ l with armed := none } : Loop).cleared with enabled := true }
  else if !on && l.enabled then { l with armed := none, enabled := false, outQual := qConfig, pendingOut := none }
  else { l with armed := none }

theorem Loop.bitWritten_computing (on : Bool) (l : Loop) : (l.bitWritten true on).enabled = l.enabled ∧
    (l.bitWritten true on).armed = if on = l.enabled then none else some on := ⟨rfl, rfl⟩

theorem Loop.bitWritten_still (on : Bool) (l : Loop) : (l.bitWritten false on).enabled = on ∧ (l.bitWritten false on).armed = none := by
  unfold Loop.bitWritten
  rw [if_neg (by decide)]
  cases on <;> cases h : l.enabled <;> simp [Loop.cleared]

/-- What the write of an ENABLE bit leaves beside its loop. -/
def besideEnable (z u : State) : State :=
  { u with eng := z.eng, sig := z.sig, cyc := z.cyc, dio := z.dio, ana := z.ana }.rest

theorem besideEnable_beyond {z u v : State} (h : u.beyondField = v.beyondField) : besideEnable z u = besideEnable z v := by
  have e := congrArg (fun x : State => { x with
    eng := z.rest.eng, sig := z.rest.sig, cyc := z.rest.cyc
    dio := z.rest.dio, ana := z.rest.ana, sys := { x.sys with run := [], refClock := false } }) h
  exact e

/-- A loop that is disabled. -/
def Loop.disabled (l : Loop) : Loop := { l with enabled := false, outQual := qConfig, pendingOut := none }

theorem loopDisable_outcome (n : Nat) (s : State) :
    (loopDisable n s).eng = (onLoop n Loop.disabled s).eng ∧ ∀ z, besideEnable z (loopDisable n s) = besideEnable z s := by
  have hw : (if (loopAt s n).outEntry = 0 then onLoop n Loop.disabled s else
      writeEntry (loopAt s n).outEntry (ownValue (onLoop n Loop.disabled s) (loopAt s n).outEntry) qConfig (onLoop n Loop.disabled s)).beyondField =
        (onLoop n Loop.disabled s).beyondField :=
    keeps_ite State.beyondField rfl (writeEntry_beyond _ _ _ _)
  have heng (u v : State) (h : u.beyondField = v.beyondField) : u.eng = v.eng := by
    have e := congrArg State.eng h
    exact e
  have h1 := heng _ _ hw
  have h2 (z : State) := besideEnable_beyond (z := z) hw
  unfold loopDisable
  dsimp only
  split
  · exact ⟨Eq.trans rfl h1, fun z => Eq.trans rfl (h2 z)⟩
  · exact ⟨Eq.trans rfl h1, fun z => Eq.trans rfl (h2 z)⟩
  · exact ⟨h1, h2⟩

/-- A loop whose ENABLE bit waits for nothing. -/
def Loop.disarmed (l : Loop) : Loop := { l with armed := none }

theorem loopEnable_eq (n : Nat) (on : Bool) (s : State) : loopEnable n on s =
    if on && !(loopAt (onLoop n Loop.disarmed s) n).enabled then onLoop n (fun l => { l.cleared with enabled := true }) (onLoop n Loop.disarmed s)
    else if !on && (loopAt (onLoop n Loop.disarmed s) n).enabled then loopDisable n (onLoop n Loop.disarmed s)
    else onLoop n Loop.disarmed s := rfl

theorem loopEnable_outcome {n : Nat} {s : State} (hp : (look n s.eng.loops).isSome = true) (on : Bool) :
    loopAt (loopEnable n on s) n = (loopAt s n).bitWritten false on ∧ (∀ k, k ≠ n → loopAt (loopEnable n on s) k = loopAt s k) ∧
      ∀ z, besideEnable z (loopEnable n on s) = besideEnable z s := by
  have hl : loopAt (onLoop n Loop.disarmed s) n = (loopAt s n).disarmed := loopAt_onLoop hp _
  have hp' : (look n (onLoop n Loop.disarmed s).eng.loops).isSome = true := (present_onLoop n _ s).trans hp
  have hne (f g : Loop → Loop) (k : Nat) (hk : k ≠ n) : loopAt (onLoop n f (onLoop n g s)) k = loopAt s k :=
    (loopAt_onLoop_ne hk f _).trans (loopAt_onLoop_ne hk g s)
  have henabled : (loopAt s n).disarmed.enabled = (loopAt s n).enabled := rfl
  rw [loopEnable_eq, hl, henabled]
  unfold Loop.bitWritten
  rw [if_neg (show ¬ false = true by decide)]
  split
  · refine ⟨?_, hne _ _, fun _ => rfl⟩
    rw [loopAt_onLoop hp', hl]
    rfl
  · split
    · obtain ⟨heng, hbeside⟩ := loopDisable_outcome n (onLoop n Loop.disarmed s)
      have hloop (k : Nat) := loopAt_eng (congrArg Engine.loops heng) k
      refine ⟨?_, fun k hk => (hloop k).trans (hne _ _ k hk), fun z => (hbeside z).trans rfl⟩
      rw [hloop, loopAt_onLoop hp', hl]
      rfl
    · exact ⟨hl, fun k hk => loopAt_onLoop_ne hk _ s, fun _ => rfl⟩

/-- A loop after a write of its ENABLE bit. -/
def Loop.enableBit (computing on : Bool) (l : Loop) : Loop :=
  if !l.defined then l else if l.memBad then l else l.bitWritten computing on

theorem loopEnableBit_outcome (n : Nat) (on : Bool) (s : State) :
    loopAt (loopEnableBit n on s) n = (loopAt s n).enableBit (loopsMode s) on ∧
      (∀ k, k ≠ n → loopAt (loopEnableBit n on s) k = loopAt s k) ∧
      ∀ z, besideEnable z (loopEnableBit n on s) = besideEnable z s := by
  unfold loopEnableBit Loop.enableBit
  dsimp only
  split
  · exact ⟨rfl, fun _ _ => rfl, fun _ => rfl⟩
  · next hd =>
    have hp : (look n s.eng.loops).isSome = true := by
      unfold loopAt at hd
      cases hl : look n s.eng.loops with
      | none =>
        rw [hl] at hd
        exact absurd rfl hd
      | some l => rfl
    split
    · split
      · exact ⟨rfl, fun _ _ => rfl, fun _ => rfl⟩
      · exact ⟨rfl, fun _ _ => rfl, fun _ => rfl⟩
    · split
      · next hm =>
        rw [hm]
        exact ⟨loopAt_onLoop hp _, fun k hk => loopAt_onLoop_ne hk _ s, fun _ => rfl⟩
      · next hm =>
        rw [Bool.eq_false_iff.mpr hm]
        exact loopEnable_outcome hp on

/-- Whether loops compute is beside the loops. -/
theorem loopsMode_of_besideEnable {u v : State} (h : ∀ z, besideEnable z u = besideEnable z v) : loopsMode u = loopsMode v := by
  have hm : u.sys.mode = v.sys.mode := by
    have e := congrArg (fun x : State => x.sys.mode) (h u)
    exact e
  have hr : u.sys.role = v.sys.role := by
    have e := congrArg (fun x : State => x.sys.role) (h u)
    exact e
  unfold loopsMode
  rw [hm, hr]

/-- Bits of LOOP_ENABLE written one after the other, each for a loop of its own. -/
theorem forAll_enableBit (off : Nat) (v : Word) (l : List Nat) (hl : l.Nodup) (s : State) :
    (∀ i ∈ l, loopAt (forAll l (fun i t => loopEnableBit (i + off) (v.getLsbD i) t) s) (i + off) =
        (loopAt s (i + off)).enableBit (loopsMode s) (v.getLsbD i)) ∧
      (∀ k, (∀ i ∈ l, k ≠ i + off) → loopAt (forAll l (fun i t => loopEnableBit (i + off) (v.getLsbD i) t) s) k = loopAt s k) ∧
      ∀ z, besideEnable z (forAll l (fun i t => loopEnableBit (i + off) (v.getLsbD i) t) s) = besideEnable z s := by
  induction l generalizing s with
  | nil => exact ⟨nofun, fun _ _ => rfl, fun _ => rfl⟩
  | cons i l ih =>
    obtain ⟨hi, hl⟩ := List.nodup_cons.mp hl
    obtain ⟨hat, hne, hbeside⟩ := loopEnableBit_outcome (i + off) (v.getLsbD i) s
    obtain ⟨ihat, ihne, ihbeside⟩ := ih hl (loopEnableBit (i + off) (v.getLsbD i) s)
    refine ⟨fun j hj => ?_, fun k hk => ?_, fun z => (ihbeside z).trans (hbeside z)⟩
    · obtain rfl | hj := List.mem_cons.mp hj
      · refine (ihne _ fun x hx e => hi ?_).trans hat
        rwa [Nat.add_right_cancel e]
      · refine (ihat j hj).trans ?_
        have hij : j + off ≠ i + off := fun e => hi (Nat.add_right_cancel e ▸ hj)
        rw [hne _ hij, loopsMode_of_besideEnable hbeside]
    · exact (ihne k fun x hx => hk x (List.mem_cons_of_mem i hx)).trans (hne k (hk i (List.mem_cons_self ..)))

theorem loopEnableWrite_bits (hi : Bool) (v : Word) (s : State) :
    (∀ i < 32, loopAt (loopEnableWrite hi v s) (i + 32 * bit hi) =
        (loopAt s (i + 32 * bit hi)).enableBit (loopsMode s) (v.getLsbD i)) ∧
      (∀ k, (∀ i < 32, k ≠ i + 32 * bit hi) → loopAt (loopEnableWrite hi v s) k = loopAt s k) ∧
      ∀ z, besideEnable z (loopEnableWrite hi v s) = besideEnable z s := by
  have hr : ∀ i, i ∈ List.range 32 ↔ i < 32 := fun _ => List.mem_range
  have hnd : (List.range 32).Nodup := List.nodup_range
  unfold loopEnableWrite
  generalize List.range 32 = l at hr hnd
  obtain ⟨hat, hne, hbeside⟩ := forAll_enableBit (32 * bit hi) v l hnd s
  exact ⟨fun i h => hat i ((hr i).mpr h), fun k h => hne k fun i hi => h i ((hr i).mp hi), hbeside⟩

theorem loopEnableWrite_outcome (s : State) (hi : Bool) (v : Word) :
    ∃ t, exec (.loopEnableWrite hi v) s = .next t ∧
      (∀ i < 32, (loopAt s (i + 32 * bit hi)).defined = true → (loopAt s (i + 32 * bit hi)).memBad = false →
        (loopsMode s = true → (loopAt t (i + 32 * bit hi)).enabled = (loopAt s (i + 32 * bit hi)).enabled ∧
          (loopAt t (i + 32 * bit hi)).armed =
            (if v.getLsbD i = (loopAt s (i + 32 * bit hi)).enabled then none else some (v.getLsbD i))) ∧
        (loopsMode s = false → (loopAt t (i + 32 * bit hi)).enabled = v.getLsbD i ∧
          (loopAt t (i + 32 * bit hi)).armed = none)) ∧
      (∀ n, n / 32 ≠ bit hi → loopAt t n = loopAt s n) ∧
      { t with eng := s.eng, sig := s.sig, cyc := s.cyc, dio := s.dio, ana := s.ana }.rest = s.rest := by
  obtain ⟨t, hx, hrest⟩ := answer_settled s (loopEnableWrite hi v s)
  obtain ⟨hat, hne, hbeside⟩ := loopEnableWrite_bits hi v s
  have hx : exec (.loopEnableWrite hi v) s = .next t := hx
  generalize loopEnableWrite hi v s = u at hrest hat hne hbeside
  have hloop (k : Nat) : loopAt t k = loopAt u k := loopAt_eng (congrArg Engine.loops (eng_of_rest hrest)) k
  refine ⟨t, hx, fun i hi32 hd hm => ?_, fun n hn => ?_, ?_⟩
  · have e : loopAt t (i + 32 * bit hi) = (loopAt s (i + 32 * bit hi)).bitWritten (loopsMode s) (v.getLsbD i) := by
      refine (hloop _).trans ((hat i hi32).trans ?_)
      rw [Loop.enableBit, if_neg (by rw [hd]; decide), if_neg (by rw [hm]; decide)]
    rw [e]
    refine ⟨fun hc => ?_, fun hc => ?_⟩
    · rw [hc]
      exact Loop.bitWritten_computing _ _
    · rw [hc]
      exact Loop.bitWritten_still _ _
  · refine (hloop n).trans (hne n fun i hi32 e => hn ?_)
    omega
  · have e : besideEnable s t = besideEnable s u := by
      have e := congrArg (fun x : State => { x with
        eng := s.rest.eng, sig := s.rest.sig, cyc := s.rest.cyc
        dio := s.rest.dio, ana := s.rest.ana }) hrest
      exact e
    exact e.trans (hbeside s)

/-! ### The latch (R224) -/

theorem follow_of_loopBanks {s : State} {f : Engine → Engine} (h : (f s.eng).loops = s.eng.loops) :
    { follow (onEng f s) with eng := s.eng } = follow s := follow_of_enabled (e := f s.eng) (by rw [h])

theorem onLoopBank_outcome (r : Reader) (f : LoopBank → LoopBank) (s : State) :
    { follow (onLoopBank r f s) with eng := s.eng } = follow s ∧ (onLoopBank r f s).eng.loops = s.eng.loops ∧
      loopBank (onLoopBank r f s) r = f (loopBank s r) ∧ ∀ o, o ≠ r → loopBank (onLoopBank r f s) o = loopBank s o := by
  refine ⟨follow_of_loopBanks ?_, ?_, ?_, fun o ho => ?_⟩
  · cases r <;> rfl
  · cases r <;> rfl
  · cases r <;> rfl
  · cases r <;> cases o
    · exact absurd rfl ho
    · rfl
    · rfl
    · exact absurd rfl ho

theorem loopLatch_outcome (r : Reader) (v : Word) (s : State) :
    ∃ t, exec (.loopLatch r v) s = .next t ∧ { t with eng := s.eng } = follow s ∧ t.eng.loops = s.eng.loops ∧
      loopBank t r = (if v.getLsbD 31 = true then { loopBank s r with sel := field v 0 6, want := some (field v 0 6), latched := false }
        else { loopBank s r with sel := field v 0 6 }) ∧
      (∀ o, o ≠ r → loopBank t o = loopBank s o) := by
  obtain ⟨hframe, hloops, hbank, hother⟩ := onLoopBank_outcome r (fun b =>
    if v.getLsbD 31 then { b with sel := field v 0 6, want := some (field v 0 6), latched := false } else { b with sel := field v 0 6 }) s
  have hkeep (u : State) (o : Reader) : loopBank (follow u) o = loopBank u o := by cases o <;> rfl
  exact ⟨_, rfl, hframe, hloops, (hkeep _ _).trans hbank, fun o ho => (hkeep _ _).trans (hother o ho)⟩

theorem loopLatchDone_outcome {r : Reader} {n : Nat} {s : State} (h : (loopBank s r).want = some n) :
    ∃ t, exec (.loopLatchDone r) s = .next t ∧ { t with eng := s.eng } = follow s ∧ t.eng.loops = s.eng.loops ∧
      loopBank t r = { loopBank s r with want := none, latched := true, secs := (loopAt s n).secs } ∧
      (∀ o, o ≠ r → loopBank t o = loopBank s o) := by
  obtain ⟨hframe, hloops, hbank, hother⟩ := onLoopBank_outcome r
    (fun b => { b with want := none, latched := true, secs := (loopAt s n).secs }) s
  have hkeep (u : State) (o : Reader) : loopBank (follow u) o = loopBank u o := by cases o <;> rfl
  have hx : exec (.loopLatchDone r) s = answer (loopLatchDone r s) := rfl
  rw [loopLatchDone, h] at hx
  exact ⟨_, hx, hframe, hloops, (hkeep _ _).trans hbank, fun o ho => (hkeep _ _).trans (hother o ho)⟩

/-- Settles O36, a tick, a write and a latch at a time. -/
theorem loopsTickAndEnable : Obligations.LoopsTickAndEnable := by
  intro s
  refine ⟨fun k hr hk ht hf => ⟨groupTick_outcome hr hk ht hf, fun first more hc hl h0 h => groupMissed_outcome hr hk ht hf hc hl h0 h,
    fun n hc hl h0 hallowed herr hnone hen harm hwait hkind hq hb =>
      loopHeld_outcome hr ht hf hc hl h0 hallowed herr hnone hen harm hwait hkind hq hb⟩, ?_⟩
  exact ⟨fun hi v => loopEnableWrite_outcome s hi v, fun r v => loopLatch_outcome r v s, fun r n h => loopLatchDone_outcome h⟩

end Sys2Proof.Machine
end

section
/-! PROOFS. The safety function: what each step of a brake function leaves, and the state it goes to (16_safety.md R416 to R422, R427). -/

namespace Sys2Proof.Machine

/-! ### One function, one pair -/

theorem sFunc_onSFunc {n : Nat} {s : State} (h : n < s.safe.funcs.length) (f : SafeFunc → SafeFunc) :
    sFunc (onSFunc n f s) n = f (sFunc s n) := by
  show (s.safe.funcs.modify n f).getD n {} = f (s.safe.funcs.getD n {})
  simp [h]

theorem sFunc_onSFunc_ne {n k : Nat} (h : k ≠ n) (f : SafeFunc → SafeFunc) (s : State) : sFunc (onSFunc n f s) k = sFunc s k := by
  show (s.safe.funcs.modify n f).getD k {} = s.safe.funcs.getD k {}
  simp [Ne.symm h]

theorem sPair_onSPair {p : Nat} {s : State} (h : p < s.safe.pairs.length) (f : SiPair → SiPair) :
    sPair (onSPair p f s) p = f (sPair s p) := by
  show (s.safe.pairs.modify p f).getD p {} = f (s.safe.pairs.getD p {})
  simp [h]

theorem sPair_onSPair_ne {p k : Nat} (h : k ≠ p) (f : SiPair → SiPair) (s : State) : sPair (onSPair p f s) k = sPair s k := by
  show (s.safe.pairs.modify p f).getD k {} = s.safe.pairs.getD k {}
  simp [Ne.symm h]

theorem funcs_length_of_st {s : State} {n : Nat} (h : (sFunc s n).st ≠ .disabled) : n < s.safe.funcs.length := by
  by_contra hn
  refine h ?_
  unfold sFunc
  rw [List.getD_eq_default _ _ (Nat.le_of_not_lt hn)]

theorem onSFunc_length (n : Nat) (f : SafeFunc → SafeFunc) (s : State) : (onSFunc n f s).safe.funcs.length = s.safe.funcs.length :=
  List.length_modify _ _ _

/-! ### What a function's turn leaves -/

/-- The state beside the safety function, the digital channels and the recorder. -/
def State.besideSafety (s : State) : State :=
  { s with safe := {}, dio := { ch := [], groups := [], flags := 0 }, log := {} }

/-- The configuration of a function that its request and its causes rest on. -/
def SafeFunc.named (f : SafeFunc) : Nat × Nat × Bool × Bool := (f.pairs, f.reqEntry, f.ownReq, f.hoistBit)

/-- The combined state of a pair by the filtered channels alone, as a path sees them (R416). -/
def combineAt (s : State) (q : SafePath) (p : Nat) : Bool :=
  combine (sPair s p).mode ((siAt s (2 * p)).on q).filt ((siAt s (2 * p + 1)).on q).filt

/-- No combined state is 1 where the filtered channels say 0 (R416, R417). -/
def Judged (s : State) : Prop :=
  ∀ q, ∀ p < 4, p < s.safe.pairs.length → ((sPair s p).on q).combined = true → combineAt s q p = true

/-- What the turn of a function at a tick leaves; `r` is the path whose state of the function it does not move. -/
structure Turn (r : SafePath) (n : Nat) (s u : State) : Prop where
  beside : u.besideSafety = s.besideSafety
  other  : ∀ k, k ≠ n → sFunc u k = sFunc s k
  named  : (sFunc u n).named = (sFunc s n).named
  kept   : (sFunc u n).on r = (sFunc s n).on r
  length : u.safe.funcs.length = s.safe.funcs.length
  ch     : u.safe.ch = s.safe.ch
  modes  : u.safe.pairs.map (·.mode) = s.safe.pairs.map (·.mode)
  path   : u.safe.path = s.safe.path
  missed : u.safe.missed = s.safe.missed
  judged : Judged s → Judged u

theorem turn_refl (r : SafePath) (n : Nat) (s : State) : Turn r n s s :=
  ⟨rfl, fun _ _ => rfl, rfl, rfl, rfl, rfl, rfl, rfl, rfl, id⟩

theorem Turn.trans {r : SafePath} {n : Nat} {s u v : State} (h : Turn r n s u) (h' : Turn r n u v) : Turn r n s v :=
  ⟨h'.beside.trans h.beside, fun k hk => (h'.other k hk).trans (h.other k hk), h'.named.trans h.named, h'.kept.trans h.kept,
    h'.length.trans h.length, h'.ch.trans h.ch, h'.modes.trans h.modes, h'.path.trans h.path, h'.missed.trans h.missed, h'.judged ∘ h.judged⟩

theorem turn_ite {r : SafePath} {n : Nat} {s u v : State} {c : Prop} [Decidable c] (h1 : Turn r n s u) (h2 : Turn r n s v) :
    Turn r n s (if c then u else v) := by
  split
  · exact h1
  · exact h2

theorem sPair_mode_of_modes {u s : State} (h : u.safe.pairs.map (·.mode) = s.safe.pairs.map (·.mode)) (p : Nat) :
    (sPair u p).mode = (sPair s p).mode := by
  have e := congrArg (fun l : List PairMode => l.getD p ({} : SiPair).mode) h
  exact (getD_map SiPair.mode u.safe.pairs p {}).symm.trans (e.trans (getD_map SiPair.mode s.safe.pairs p {}))

theorem combineAt_of_modes {u s : State} (hm : u.safe.pairs.map (·.mode) = s.safe.pairs.map (·.mode)) (hc : u.safe.ch = s.safe.ch)
    (q : SafePath) (p : Nat) : combineAt u q p = combineAt s q p := by
  unfold combineAt siAt
  rw [sPair_mode_of_modes hm, hc]

/-- A step that leaves the channels, the pairs and PATH alone. -/
theorem turn_of_func {r : SafePath} {n : Nat} {s u : State} (hb : u.besideSafety = s.besideSafety) {f : SafeFunc → SafeFunc}
    (hf : u.safe.funcs = s.safe.funcs.modify n f) (hn : ∀ x, (f x).named = x.named) (hk : ∀ x, (f x).on r = x.on r)
    (hc : u.safe.ch = s.safe.ch) (hp : u.safe.pairs = s.safe.pairs) (hpath : u.safe.path = s.safe.path)
    (hm : u.safe.missed = s.safe.missed) : Turn r n s u := by
  have hother (k : Nat) (hk : k ≠ n) : sFunc u k = sFunc s k := by
    have h := sFunc_onSFunc_ne hk f s
    unfold sFunc at h ⊢
    rw [hf]
    exact h
  have hsame : (sFunc u n).named = (sFunc s n).named ∧ (sFunc u n).on r = (sFunc s n).on r := by
    unfold sFunc
    rw [hf]
    by_cases h : n < s.safe.funcs.length
    · simp [h, hn, hk]
    · simp [h]
  have hjudged (hj : Judged s) : Judged u := fun q p hp4 hl h => by
    have e : sPair u p = sPair s p := by
      unfold sPair
      rw [hp]
    rw [combineAt_of_modes (by rw [hp]) hc]
    exact hj q p hp4 (by rw [← hp]; exact hl) (by rw [← e]; exact h)
  exact ⟨hb, hother, hsame.1, hsame.2, by rw [hf, List.length_modify], hc, by rw [hp], hpath, hm, hjudged⟩

theorem turn_of_safe {r : SafePath} {n : Nat} {s u : State} (hb : u.besideSafety = s.besideSafety) (h : u.safe = s.safe) : Turn r n s u :=
  turn_of_func hb (f := id) (by rw [h]; exact (List.modify_id _ _).symm) (fun _ => rfl) (fun _ => rfl) (by rw [h]) (by rw [h]) (by rw [h])
    (by rw [h])

theorem turn_of_onSFunc {r : SafePath} {n : Nat} {s u : State} {f : SafeFunc → SafeFunc}
    (h : u.besideSafety = s.besideSafety ∧ u.safe = (onSFunc n f s).safe) (hn : ∀ x, (f x).named = x.named := by exact fun _ => rfl)
    (hk : ∀ x, (f x).on r = x.on r := by exact fun _ => rfl) : Turn r n s u := by
  obtain ⟨hb, hs⟩ := h
  exact turn_of_func hb (f := f) (by rw [hs]; rfl) hn hk (by rw [hs]; rfl) (by rw [hs]; rfl) (by rw [hs]; rfl) (by rw [hs]; rfl)

theorem turn_onSFunc (r : SafePath) (n : Nat) {f : SafeFunc → SafeFunc} (s : State) (h : ∀ x, (f x).named = x.named := by exact fun _ => rfl)
    (hk : ∀ x, (f x).on r = x.on r := by exact fun _ => rfl) : Turn r n s (onSFunc n f s) :=
  turn_of_func rfl rfl h hk rfl rfl rfl rfl

theorem raise_besideSafety (e : Ev) (sev : Severity) (u p q r : Nat) (s : State) : (raise e sev u p q r s).besideSafety = s.besideSafety := rfl

/-- What a release of HOLD channels leaves. -/
def State.unreleased (s : State) : State × Safe := (s.besideSafety, s.safe)

theorem releaseHolds_unreleased (which : Nat → DioCh → Bool) (mark : DioCh → DioCh) (s : State) :
    (releaseHolds which mark s).unreleased = s.unreleased := by
  refine forAll_keeps State.unreleased _ _ (fun n t => ?_) s
  dsimp only
  split
  · exact keeps_ite State.unreleased rfl rfl
  · rfl

theorem demandRelease_outside (n : Nat) (s : State) :
    (demandRelease n s).besideSafety = s.besideSafety ∧ (demandRelease n s).safe = s.safe := by
  have h : (demandRelease n s).unreleased = s.unreleased := releaseHolds_unreleased _ _ s
  generalize demandRelease n s = u at h
  exact ⟨congrArg Prod.fst h, congrArg Prod.snd h⟩

theorem demandRelease_safe (n : Nat) (s : State) : (demandRelease n s).safe = s.safe := (demandRelease_outside n s).2

/-! ### The states that a function enters -/

/-- A function in DEMAND. -/
def SafeFunc.demanded (now : Nat) (f : SafeFunc) : SafeFunc := { f.enter .demand now with demands := satInc 32 f.demands }

theorem toDemand_safe (n : Nat) (s : State) :
    (toDemand n s).besideSafety = s.besideSafety ∧ (toDemand n s).safe = (onSFunc n (SafeFunc.demanded s.mono) s).safe := by
  unfold toDemand
  dsimp only
  split
  · obtain ⟨h1, h2⟩ := demandRelease_outside n (raise .safetyDemand .notice n 0 0 0 (onSFunc n (SafeFunc.demanded s.mono) s))
    exact ⟨h1, h2⟩
  · exact ⟨rfl, rfl⟩

theorem toFault_safe (n : Nat) (s : State) :
    (toFault n s).besideSafety = s.besideSafety ∧ (toFault n s).safe = (onSFunc n (SafeFunc.enter .fault s.mono) s).safe := by
  unfold toFault
  dsimp only
  split
  · obtain ⟨h1, h2⟩ := demandRelease_outside n (onSFunc n (SafeFunc.enter .fault s.mono) s)
    exact ⟨h1, h2⟩
  · exact ⟨rfl, rfl⟩

theorem toReady_safe (n : Nat) (s : State) :
    (toReady n s).besideSafety = s.besideSafety ∧ (toReady n s).safe = (onSFunc n (SafeFunc.enter .ready s.mono) s).safe := ⟨rfl, rfl⟩

theorem rejectEdge_safe (n cause ms : Nat) (s : State) :
    (rejectEdge n cause ms s).besideSafety = s.besideSafety ∧
      (rejectEdge n cause ms s).safe = { s.safe with rejected := satInc 32 s.safe.rejected } := ⟨rfl, rfl⟩

/-- The end of a test on the function itself. -/
def SafeFunc.testEnded (last : Nat) (f : SafeFunc) : SafeFunc := { f with last := last, torque := false }

theorem testEnds_safe (n last : Nat) (s : State) :
    (testEnds n last s).besideSafety = s.besideSafety ∧ (testEnds n last s).safe = (onSFunc n (SafeFunc.testEnded last) s).safe := by
  unfold testEnds
  dsimp only
  split <;> exact ⟨rfl, rfl⟩

theorem raiseAll_unreleased {α : Type} (l : List α) (f : α → State → State) (h : ∀ a u, (f a u).unreleased = u.unreleased) (s : State) :
    (forAll l f s).besideSafety = s.besideSafety ∧ (forAll l f s).safe = s.safe := by
  have e := forAll_keeps State.unreleased l f h s
  generalize forAll l f s = u at e
  exact ⟨congrArg Prod.fst e, congrArg Prod.snd e⟩

theorem onSFunc_safe_congr {u s : State} (h : u.safe = s.safe) (n : Nat) (f : SafeFunc → SafeFunc) :
    (onSFunc n f u).safe = (onSFunc n f s).safe := by
  unfold onSFunc
  rw [onSafe_safe, onSafe_safe, h]

/-- A function whose faults have been told. -/
def SafeFunc.toldOf (w : Nat) (f : SafeFunc) : SafeFunc := { f with told := w }

theorem tellFaults_safe (n : Nat) (s : State) :
    (tellFaults n s).besideSafety = s.besideSafety ∧
      (tellFaults n s).safe = (onSFunc n (SafeFunc.toldOf (faultBits s (sFunc s n))) s).safe := by
  obtain ⟨h1, h2⟩ := raiseAll_unreleased ((bitsOf (faultBits s (sFunc s n))).filter fun k =>
    !(sFunc s n).told.testBit k && decide (faultCode k ≤ 7)) (fun k t => raise .safetyFault .fault n (faultCode k) 0 0 t) (fun _ _ => rfl) s
  unfold tellFaults
  dsimp only
  generalize forAll _ (fun k t => raise .safetyFault .fault n (faultCode k) 0 0 t) s = u at h1 h2
  exact ⟨h1, onSFunc_safe_congr h2 n _⟩

/-! ### Causes and faults (R420, R427) -/

/-- The faults of a function itself and the pairs that it names. -/
def SafeFunc.causes (f : SafeFunc) : Nat × Bool × Bool × Bool × Bool := (f.pairs, f.openLoad, f.overNow, f.stuck, f.btFailed)

theorem faultBits_congr {u s : State} {g f : SafeFunc} (hp : u.safe.pairs = s.safe.pairs) (hpath : u.safe.path = s.safe.path)
    (hf : g.causes = f.causes) (q : SafePath) : faultBits u g q = faultBits s f q := by
  have h1 : g.pairs = f.pairs := congrArg (fun x => x.1) hf
  have h2 : g.openLoad = f.openLoad := congrArg (fun x => x.2.1) hf
  have h3 : g.overNow = f.overNow := congrArg (fun x => x.2.2.1) hf
  have h4 : g.stuck = f.stuck := congrArg (fun x => x.2.2.2.1) hf
  have h5 : g.btFailed = f.btFailed := congrArg (fun x => x.2.2.2.2) hf
  unfold faultBits SafeFunc.names sPair
  rw [hp, hpath, h1, h2, h3, h4, h5]

theorem pairDemand_congr {u s : State} {g f : SafeFunc} (hp : u.safe.pairs = s.safe.pairs) (hf : g.pairs = f.pairs) (q : SafePath) :
    pairDemand u g q = pairDemand s f q := by
  unfold pairDemand SafeFunc.names sPair
  rw [hp, hf]

theorem fDead_of_besideSafety {u s : State} (h : u.besideSafety = s.besideSafety) : fDead u = fDead s := by
  have e := congrArg (fun x : State => (fieldGroup x 4).st.dead) h
  exact e

theorem effectiveRequest_of_named {u s : State} (h : u.besideSafety = s.besideSafety) {g f : SafeFunc} (hf : g.named = f.named) :
    effectiveRequest u g = effectiveRequest s f := by
  have h1 : g.reqEntry = f.reqEntry := congrArg (fun x => x.2.1) hf
  have h2 : g.ownReq = f.ownReq := congrArg (fun x => x.2.2.1) hf
  have h3 : g.hoistBit = f.hoistBit := congrArg (fun x => x.2.2.2) hf
  have e := congrArg (fun x : State => effectiveRequest x f) h
  have e' : effectiveRequest u g = effectiveRequest u f := by
    unfold effectiveRequest
    rw [h1, h2, h3]
  exact e'.trans e

theorem pairDemand_of_low {s : State} {f : SafeFunc} {q : SafePath} {p : Nat} (h4 : p < 4) (hn : f.names p = true)
    (hd : ((sPair s p).on q).faults.discrepancy = false) (hc : ((sPair s p).on q).combined = false) : pairDemand s f q = true :=
  List.any_eq_true.mpr ⟨p, List.mem_range.mpr h4, by rw [hn, hd, hc]; rfl⟩

/-- The bits of one pair among a function's faults. -/
def pairBits (s : State) (f : SafeFunc) (q : SafePath) (p : Nat) : Nat :=
  if f.names p then
    2 ^ (4 * p) * (bit ((sPair s p).on q).faults.discrepancy + 2 * bit ((sPair s p).on q).faults.tpFault
      + 4 * bit ((sPair s p).on q).faults.cross + 8 * bit ((sPair s p).on q).faults.overload)
  else 0

/-- The bits of a function's own faults. -/
def ownBits (s : State) (f : SafeFunc) : Nat :=
  bit f.openLoad + 2 * bit f.overNow + 4 * bit f.stuck + 8 * bit s.safe.path + 16 * bit f.btFailed

theorem faultBits_eq (s : State) (f : SafeFunc) (q : SafePath) : faultBits s f q =
    pairBits s f q 0 + pairBits s f q 1 + pairBits s f q 2 + pairBits s f q 3 + 2 ^ 16 * ownBits s f := by
  show pairBits s f q 0 + (pairBits s f q 1 + (pairBits s f q 2 + (pairBits s f q 3 + 0))) + 2 ^ 16 * ownBits s f = _
  omega

theorem bit_le_one (b : Bool) : bit b ≤ 1 := by cases b <;> decide

theorem pairBits_le (s : State) (f : SafeFunc) (q : SafePath) (p : Nat) : pairBits s f q p ≤ 2 ^ (4 * p) * 15 := by
  have hd := bit_le_one ((sPair s p).on q).faults.discrepancy
  have ht := bit_le_one ((sPair s p).on q).faults.tpFault
  have hc := bit_le_one ((sPair s p).on q).faults.cross
  have ho := bit_le_one ((sPair s p).on q).faults.overload
  unfold pairBits
  split
  · exact Nat.mul_le_mul_left _ (by omega)
  · exact Nat.zero_le _

theorem pairBits_pos {s : State} {f : SafeFunc} {q : SafePath} {p : Nat} (hn : f.names p = true)
    (hd : ((sPair s p).on q).faults.discrepancy = true) : 0 < pairBits s f q p := by
  rw [pairBits, if_pos hn, hd]
  exact Nat.mul_pos (Nat.two_pow_pos _) (by rw [show bit true = 1 from rfl]; omega)

/-- A pair's DISCREPANCY on a path is a fault other than BRAKE_TEST_FAILED of each function that names it. -/
theorem otherFaults_of_discrepancy {s : State} {f : SafeFunc} {q : SafePath} {p : Nat} (h4 : p < 4) (hn : f.names p = true)
    (hd : ((sPair s p).on q).faults.discrepancy = true) : otherFaults (faultBits s f q) ≠ 0 := by
  have hp := pairBits_pos hn hd
  have h0 := pairBits_le s f q 0
  have h1 := pairBits_le s f q 1
  have h2 := pairBits_le s f q 2
  have h3 := pairBits_le s f q 3
  unfold otherFaults
  rw [faultBits_eq]
  have : p = 0 ∨ p = 1 ∨ p = 2 ∨ p = 3 := by omega
  obtain rfl | rfl | rfl | rfl := this <;> omega

theorem faults_of_otherFaults {w : Nat} (h : otherFaults w ≠ 0) : w ≠ 0 := by
  rintro rfl
  exact h rfl

/-- A function that a named pair at 0 stops: by demand, or by the pair's DISCREPANCY. -/
theorem stops_of_low {s : State} {f : SafeFunc} {q : SafePath} {p : Nat} (h4 : p < 4) (hn : f.names p = true)
    (hc : ((sPair s p).on q).combined = false) : pairDemand s f q = true ∨ otherFaults (faultBits s f q) ≠ 0 := by
  cases hd : ((sPair s p).on q).faults.discrepancy with
  | true => exact .inr (otherFaults_of_discrepancy h4 hn hd)
  | false => exact .inl (pairDemand_of_low h4 hn hd hc)

/-! ### The state table (R420, R422) -/

/-- A live state that meets a demand cause or a fault becomes DEMAND or FAULT. -/
theorem next_of_stop {st : FuncState} {demand : Bool} {faults : Nat} (req : Bool) (hl : st.live = true)
    (h : demand = true ∨ otherFaults faults ≠ 0) : (st.next demand faults req = .demand ∧ demand = true) ∨ st.next demand faults req = .fault := by
  by_cases hf : faults = 0
  · have hd : demand = true := h.resolve_right fun e => e (by rw [hf]; rfl)
    subst hf
    cases st <;> simp_all [FuncState.next, FuncState.live, otherFaults]
  · cases st <;> simp_all [FuncState.next, FuncState.live]

/-- Without a request a function in CHECK or RELEASED leaves both. -/
theorem next_of_no_request {st : FuncState} (demand : Bool) (faults : Nat) (h : st = .check ∨ st = .released) :
    st.next demand faults false = .fault ∨ (st.next demand faults false = .demand ∧ demand = true) ∨ st.next demand faults false = .ready := by
  obtain rfl | rfl := h
  all_goals
    unfold FuncState.next
    dsimp only
    split
    · exact .inl rfl
    · cases demand
      · exact .inr (.inr rfl)
      · exact .inr (.inl ⟨rfl, rfl⟩)

/-! ### Each step is a turn -/

theorem SiPair.on_upd_same (q : SafePath) (f : PairSeen → PairSeen) (x : SiPair) : (x.upd q f).on q = f (x.on q) := by cases q <;> rfl

theorem SiPair.on_upd_ne {q r : SafePath} (h : r ≠ q) (f : PairSeen → PairSeen) (x : SiPair) : (x.upd q f).on r = x.on r := by
  cases q <;> cases r
  · exact absurd rfl h
  · rfl
  · rfl
  · exact absurd rfl h

theorem SiPair.upd_mode (q : SafePath) (f : PairSeen → PairSeen) (x : SiPair) : (x.upd q f).mode = x.mode := by cases q <;> rfl

theorem turn_onSPair {r : SafePath} {n p : Nat} {s : State} {f : SiPair → SiPair} (hm : ∀ x, (f x).mode = x.mode)
    (hc : ∀ q, ((f (sPair s p)).on q).combined = true → ((sPair s p).on q).combined = true ∨ combineAt s q p = true) :
    Turn r n s (onSPair p f s) where
  beside := rfl
  other _ _ := rfl
  named := rfl
  kept := rfl
  length := rfl
  ch := rfl
  modes := map_modify_keep SiPair.mode f hm s.safe.pairs p
  path := rfl
  missed := rfl
  judged hj q k hk4 hl h := by
    rw [combineAt_of_modes (u := onSPair p f s) (s := s) (map_modify_keep SiPair.mode f hm s.safe.pairs p) rfl]
    have hl' : k < s.safe.pairs.length := by simpa [onSPair] using hl
    by_cases hk : k = p
    · subst hk
      rw [sPair_onSPair hl'] at h
      obtain h | h := hc q h
      · exact hj q k hk4 hl' h
      · exact h
    · rw [sPair_onSPair_ne hk] at h
      exact hj q k hk4 hl' h

section
variable (r : SafePath) (n : Nat) (s : State)

theorem turn_raise (e : Ev) (sev : Severity) (u p q x : Nat) : Turn r n s (raise e sev u p q x s) := turn_of_safe rfl rfl

theorem turn_toDemand : Turn .supervisor n s (toDemand n s) := turn_of_onSFunc (toDemand_safe n s)
theorem turn_toFault : Turn .supervisor n s (toFault n s) := turn_of_onSFunc (toFault_safe n s)
theorem turn_toReady : Turn .supervisor n s (toReady n s) := turn_of_onSFunc (toReady_safe n s)
theorem turn_testEnds (last : Nat) : Turn .supervisor n s (testEnds n last s) := turn_of_onSFunc (testEnds_safe n last s)
theorem turn_tellFaults : Turn .supervisor n s (tellFaults n s) := turn_of_onSFunc (tellFaults_safe n s)

theorem turn_rejectEdge (cause ms : Nat) : Turn .supervisor n s (rejectEdge n cause ms s) := by
  obtain ⟨hb, hs⟩ := rejectEdge_safe n cause ms s
  exact turn_of_func hb (f := id) (by rw [hs]; exact (List.modify_id _ _).symm) (fun _ => rfl) (fun _ => rfl) (by rw [hs]) (by rw [hs]) (by rw [hs]) (by rw [hs])

theorem turn_clearPair (q : SafePath) (p : Nat) : Turn r n s (clearPair q p s) := by
  have h1 : Turn r n s (onSPair p (SiPair.upd q fun x => { x with faults := {}, news := {}, seenBoth0 := false }) s) := by
    refine turn_onSPair (SiPair.upd_mode q _) fun r' h => .inl ?_
    by_cases hr : r' = q
    · subst hr
      rw [SiPair.on_upd_same] at h
      exact h
    · rwa [SiPair.on_upd_ne hr] at h
  refine h1.trans (turn_onSPair (SiPair.upd_mode q _) fun r' h => ?_)
  by_cases hr : r' = q
  · subst hr
    rw [SiPair.on_upd_same] at h
    exact .inr (Bool.and_eq_true_iff.mp h).2
  · rw [SiPair.on_upd_ne hr] at h
    exact .inl h

theorem turn_clearFaults (q : SafePath) : Turn r n s (clearFaults n s q) := by
  unfold clearFaults
  dsimp only
  have hall (l : List Nat) (f : SafeFunc) (s : State) : Turn r n s (forAll l (fun p t => if f.names p then clearPair q p t else t) s) := by
    induction l generalizing s with
    | nil => exact turn_refl r n s
    | cons p l ih => exact (turn_ite (turn_clearPair r n s q p) (turn_refl r n s)).trans (ih _)
  exact (hall _ _ _).trans (turn_onSFunc r n _ (by exact fun _ => rfl) (by intro x; cases r <;> rfl))

end

theorem turn_testingStops (n : Nat) (demand : Bool) (s : State) : Turn .supervisor n s (testingStops n demand s) :=
  (turn_testEnds n s 3).trans (turn_ite (turn_toDemand n _)
    (turn_ite ((turn_raise _ n _ _ _ _ _ _ _).trans (turn_toFault n _)) (turn_toFault n _)))

theorem turn_takeEdge (n ms : Nat) (s : State) : Turn .supervisor n s (takeEdge n ms s) := by
  unfold takeEdge
  split
  · exact turn_rejectEdge n s _ ms
  · exact (turn_clearFaults _ n s .chip).trans (turn_ite ((turn_rejectEdge n _ 4 ms).trans (turn_toDemand n _))
      ((turn_raise _ n _ _ _ _ _ _ _).trans (turn_toReady n _)))

theorem turn_rejectFresh (n ms : Nat) (s : State) : Turn .supervisor n s (rejectFresh n ms s) := turn_rejectEdge n s _ ms

/-! ### A function's turn on the chip path -/

/-- A function whose edge is taken from it. -/
def SafeFunc.noEdge (f : SafeFunc) : SafeFunc := { f with edge := none }

/-- A function that has read its request. -/
def SafeFunc.asked (r : Bool × Bool) (f : SafeFunc) : SafeFunc := { f with request := r.1, fromHoist := r.2 }

/-- A function's request at its turn. -/
def funcAsked (n : Nat) (s : State) : Bool × Bool := effectiveRequest (tellFaults n (onSFunc n SafeFunc.noEdge s)) (sFunc s n)

/-- A function at the begin of its turn: its edge taken from it, its new faults told, its request set. -/
def funcBegun (n : Nat) (s : State) : State := onSFunc n (SafeFunc.asked (funcAsked n s)) (tellFaults n (onSFunc n SafeFunc.noEdge s))

theorem turn_funcBegun (n : Nat) (s : State) : Turn .supervisor n s (funcBegun n s) :=
  (turn_onSFunc _ n s).trans ((turn_tellFaults n _).trans (turn_onSFunc _ n _))

theorem funcAsked_eq (n : Nat) (s : State) : funcAsked n s = effectiveRequest s (sFunc s n) :=
  effectiveRequest_of_named ((turn_onSFunc .supervisor n (f := SafeFunc.noEdge) s).trans (turn_tellFaults n _)).beside rfl

/-- A function moved by its causes (R420, R422). -/
def funcMoved (n : Nat) (st : FuncState) (demand : Bool) (faults : Nat) (req : Bool) (s : State) : State :=
  match st with
  | .testing => if demand || otherFaults faults != 0 then testingStops n demand s else s
  | .ready | .check | .released =>
    if faults != 0 then toFault n s
    else if demand then toDemand n s
    else if st == .ready && req then onSFunc n (fun f => { f with st := .check, since := s.mono }) s
    else if st != .ready && !req then toReady n s
    else s
  | .demand => if faults != 0 then toFault n s else s
  | _ => s

/-- A function's edge at its turn (R417, R422). -/
def funcEdge (n : Nat) (was : FuncState) (edge : Option Nat) (s : State) : State :=
  match edge with
  | none => s
  | some ms =>
    if (sFunc s n).st == .fault && was != .fault then rejectFresh n ms s
    else if (sFunc s n).st == .demand || (sFunc s n).st == .fault then takeEdge n ms s else s

theorem funcTick_of_enabled {n : Nat} {s : State} (h : (sFunc s n).st ≠ .disabled) :
    funcTick n s = funcEdge n (sFunc s n).st (sFunc s n).edge
      (funcMoved n (sFunc s n).st (pairDemand (funcBegun n s) (sFunc (funcBegun n s) n) || fDead (funcBegun n s))
        (faultBits (funcBegun n s) (sFunc (funcBegun n s) n))
        (funcAsked n s).1 (funcBegun n s)) := by
  unfold funcTick
  dsimp only
  rw [if_neg (by simpa using h)]
  rfl

end Sys2Proof.Machine
end

section
/-! PROOFS. Ticks of the safety paths, filtered inputs and resets (16_safety.md R413 to R422). -/

namespace Sys2Proof.Machine

/-! ### Where a function goes (R420, R422) -/

theorem sFunc_of_safe {n : Nat} {s u : State} {f : SafeFunc → SafeFunc} (hn : n < s.safe.funcs.length)
    (h : u.safe = (onSFunc n f s).safe) : sFunc u n = f (sFunc s n) := by
  have e := sFunc_onSFunc hn f
  unfold sFunc at e ⊢
  rw [h]
  exact e

/-- What a step of function `n` to state `st` is: a turn of the chip path that keeps the pairs. -/
structure Moved (n : Nat) (st : FuncState) (s u : State) : Prop where
  turn  : Turn .supervisor n s u
  st    : (sFunc u n).st = st
  pairs : u.safe.pairs = s.safe.pairs

theorem moved_of_safe {n : Nat} {s u : State} {f : SafeFunc → SafeFunc} {st : FuncState} (hn : n < s.safe.funcs.length)
    (ht : Turn .supervisor n s u) (h : u.safe = (onSFunc n f s).safe) (hst : (f (sFunc s n)).st = st) : Moved n st s u :=
  ⟨ht, by rw [sFunc_of_safe hn h, hst], by rw [h]; rfl⟩

section
variable {n : Nat} {s : State} (hn : n < s.safe.funcs.length)
include hn

theorem toDemand_moved : Moved n .demand s (toDemand n s) := moved_of_safe hn (turn_toDemand n s) (toDemand_safe n s).2 rfl
theorem toFault_moved : Moved n .fault s (toFault n s) := moved_of_safe hn (turn_toFault n s) (toFault_safe n s).2 rfl
theorem toReady_moved : Moved n .ready s (toReady n s) := moved_of_safe hn (turn_toReady n s) (toReady_safe n s).2 rfl

end

theorem Moved.after {n : Nat} {st : FuncState} {s u v : State} (h : Turn .supervisor n s u) (hp : u.safe.pairs = s.safe.pairs)
    (h' : Moved n st u v) : Moved n st s v := ⟨h.trans h'.turn, h'.st, h'.pairs.trans hp⟩

theorem moved_refl {n : Nat} {st : FuncState} {s : State} (h : (sFunc s n).st = st) : Moved n st s s := ⟨turn_refl _ n s, h, rfl⟩

theorem moved_ite {n : Nat} {st : FuncState} {s u v : State} {c : Prop} [Decidable c] (h1 : c → Moved n st s u) (h2 : ¬c → Moved n st s v) :
    Moved n st s (if c then u else v) := by
  split
  · exact h1 ‹_›
  · exact h2 ‹_›

theorem testingStops_moved {n : Nat} {s : State} (hn : n < s.safe.funcs.length) (demand : Bool) :
    Moved n (if faultBits s (sFunc s n) = 0 then .demand else .fault) s (testingStops n demand s) := by
  obtain ⟨-, hs⟩ := testEnds_safe n 3 s
  have ht := turn_testEnds n s 3
  have hp : (testEnds n 3 s).safe.pairs = s.safe.pairs := by rw [hs]; rfl
  have hl : n < (testEnds n 3 s).safe.funcs.length := by rw [ht.length]; exact hn
  have hb : faultBits (testEnds n 3 s) (sFunc (testEnds n 3 s) n) = faultBits s (sFunc s n) :=
    faultBits_congr hp ht.path (by rw [sFunc_of_safe hn hs]; rfl) .chip
  unfold testingStops
  dsimp only
  rw [hb]
  split
  · exact Moved.after ht hp (toDemand_moved hl)
  · refine Moved.after ht hp (moved_ite (fun _ => ?_) fun _ => toFault_moved hl)
    exact Moved.after (turn_raise _ n _ _ _ _ _ _ _) rfl (toFault_moved (s := raise _ _ _ _ _ _ _) hl)

theorem funcMoved_moved {n : Nat} {s : State} (hn : n < s.safe.funcs.length) (demand req : Bool) :
    Moved n ((sFunc s n).st.next demand (faultBits s (sFunc s n)) req) s
      (funcMoved n (sFunc s n).st demand (faultBits s (sFunc s n)) req s) := by
  have hcheck : Moved n .check s (onSFunc n (fun f => { f with st := .check, since := s.mono }) s) :=
    moved_of_safe hn (turn_onSFunc .supervisor n s) rfl rfl
  generalize hw : faultBits s (sFunc s n) = w
  have hstops := testingStops_moved hn demand
  rw [hw] at hstops
  generalize hst : (sFunc s n).st = st
  cases st with
  | demand =>
    by_cases h : w = 0
    · simpa [FuncState.next, funcMoved, h] using moved_refl hst
    · simpa [FuncState.next, funcMoved, h] using toFault_moved hn
  | ready =>
    by_cases h : w = 0
    · cases demand
      · cases req
        · simpa [FuncState.next, funcMoved, h] using moved_refl hst
        · simpa [FuncState.next, funcMoved, h] using hcheck
      · simpa [FuncState.next, funcMoved, h] using toDemand_moved hn
    · simpa [FuncState.next, funcMoved, h] using toFault_moved hn
  | check =>
    by_cases h : w = 0
    · cases demand
      · cases req
        · simpa [FuncState.next, funcMoved, h] using toReady_moved hn
        · simpa [FuncState.next, funcMoved, h] using moved_refl hst
      · simpa [FuncState.next, funcMoved, h] using toDemand_moved hn
    · simpa [FuncState.next, funcMoved, h] using toFault_moved hn
  | released =>
    by_cases h : w = 0
    · cases demand
      · cases req
        · simpa [FuncState.next, funcMoved, h] using toReady_moved hn
        · simpa [FuncState.next, funcMoved, h] using moved_refl hst
      · simpa [FuncState.next, funcMoved, h] using toDemand_moved hn
    · simpa [FuncState.next, funcMoved, h] using toFault_moved hn
  | testing =>
    by_cases h : (demand || otherFaults w != 0) = true
    · simp only [FuncState.next, funcMoved, h, if_true]
      exact hstops
    · simp only [FuncState.next, funcMoved, h]
      exact moved_refl hst
  | fault => exact moved_refl hst
  | disabled => exact moved_refl hst

/-! ### An edge at a function's turn (R417, R422) -/

/-- A standing demand cause rejects the edge. -/
theorem edgeCause_of_demand {s : State} {f : SafeFunc} {q : SafePath} (h : pairDemand s f q = true ∨ fDead s = true) :
    (edgeCause s f q).isSome = true := by
  unfold edgeCause
  split
  · rfl
  · next hp =>
    rw [if_pos (h.resolve_left hp)]
    rfl

theorem takeEdge_of_cause {n ms : Nat} {s : State} (h : (edgeCause s (sFunc s n)).isSome = true) :
    (sFunc (takeEdge n ms s) n).st = (sFunc s n).st := by
  obtain ⟨c, hc⟩ := Option.isSome_iff_exists.mp h
  unfold takeEdge
  rw [hc]
  rfl

theorem clearFaults_length (n : Nat) (s : State) : (clearFaults n s).safe.funcs.length = s.safe.funcs.length :=
  (turn_clearFaults .supervisor n s .chip).length

theorem takeEdge_st {n : Nat} {s : State} (hn : n < s.safe.funcs.length) (ms : Nat) :
    (sFunc (takeEdge n ms s) n).st = (sFunc s n).st ∨ (sFunc (takeEdge n ms s) n).st = .demand ∨ (sFunc (takeEdge n ms s) n).st = .ready := by
  have hl : n < (clearFaults n s).safe.funcs.length := by rw [clearFaults_length]; exact hn
  unfold takeEdge
  split
  · exact .inl rfl
  · dsimp only
    split
    · exact .inr (.inl (toDemand_moved (s := rejectEdge n 4 ms (clearFaults n s)) hl).st)
    · exact .inr (.inr (toReady_moved (s := raise _ _ _ _ _ _ (clearFaults n s)) hl).st)

theorem turn_funcEdge (n : Nat) (was : FuncState) (edge : Option Nat) (s : State) : Turn .supervisor n s (funcEdge n was edge s) := by
  unfold funcEdge
  split
  · exact turn_refl _ n s
  · exact turn_ite (turn_rejectFresh n _ s) (turn_ite (turn_takeEdge n _ s) (turn_refl _ n s))

/-- A function that a cause has stopped stays stopped, whatever edge it has. -/
theorem funcEdge_stopped {n : Nat} {s : State} {was : FuncState} (edge : Option Nat)
    (h : ((sFunc s n).st = .demand ∧ (edgeCause s (sFunc s n)).isSome = true) ∨ ((sFunc s n).st = .fault ∧ was ≠ .fault)) :
    (sFunc (funcEdge n was edge s) n).st = (sFunc s n).st := by
  unfold funcEdge
  cases edge with
  | none => rfl
  | some ms =>
    dsimp only
    obtain ⟨hst, hc⟩ | ⟨hst, hw⟩ := h
    · rw [if_neg (by simp [hst]), if_pos (by simp [hst])]
      exact takeEdge_of_cause hc
    · rw [if_pos (by rw [hst]; simpa using hw)]
      rfl

theorem funcEdge_st {n : Nat} {s : State} (hn : n < s.safe.funcs.length) (was : FuncState) (edge : Option Nat) :
    (sFunc (funcEdge n was edge s) n).st = (sFunc s n).st ∨ (sFunc (funcEdge n was edge s) n).st = .demand ∨
      (sFunc (funcEdge n was edge s) n).st = .ready := by
  unfold funcEdge
  split
  · exact .inl rfl
  · split
    · exact .inl rfl
    · split
      · exact takeEdge_st hn _
      · exact .inl rfl

/-! ### The chip path's turn -/

theorem funcBegun_pairs (n : Nat) (s : State) : (funcBegun n s).safe.pairs = s.safe.pairs := by
  obtain ⟨-, hs⟩ := tellFaults_safe n (onSFunc n SafeFunc.noEdge s)
  show (tellFaults n (onSFunc n SafeFunc.noEdge s)).safe.pairs = _
  rw [hs]
  rfl

theorem funcBegun_func {n : Nat} {s : State} (hn : n < s.safe.funcs.length) :
    (sFunc (funcBegun n s) n).st = (sFunc s n).st ∧ (sFunc (funcBegun n s) n).causes = (sFunc s n).causes := by
  obtain ⟨-, hs⟩ := tellFaults_safe n (onSFunc n SafeFunc.noEdge s)
  have h1 : n < (onSFunc n SafeFunc.noEdge s).safe.funcs.length := by rw [onSFunc_length]; exact hn
  have h2 : n < (tellFaults n (onSFunc n SafeFunc.noEdge s)).safe.funcs.length := by rw [(turn_tellFaults n _).length]; exact h1
  have h3 := sFunc_of_safe h1 hs
  rw [sFunc_onSFunc hn] at h3
  have h4 := sFunc_onSFunc h2 (SafeFunc.asked (funcAsked n s))
  rw [h3] at h4
  have hkept (r : Bool × Bool) (w : Nat) (f : SafeFunc) :
      (SafeFunc.asked r (SafeFunc.toldOf w f.noEdge)).st = f.st ∧ (SafeFunc.asked r (SafeFunc.toldOf w f.noEdge)).causes = f.causes := ⟨rfl, rfl⟩
  unfold funcBegun
  rw [h4]
  exact hkept _ _ _

/-- The state of a function after its turn: where its causes move it, or DEMAND or READY by its edge. -/
theorem funcTick_parts {n : Nat} {s : State} (h : (sFunc s n).st ≠ .disabled) :
    ∃ u, Moved n ((sFunc s n).st.next (pairDemand s (sFunc s n) || fDead s) (faultBits s (sFunc s n)) (effectiveRequest s (sFunc s n)).1) s u ∧
      funcTick n s = funcEdge n (sFunc s n).st (sFunc s n).edge u := by
  have hn := funcs_length_of_st h
  have hb := turn_funcBegun n s
  obtain ⟨hst, hcauses⟩ := funcBegun_func hn
  have hp := funcBegun_pairs n s
  have hl : n < (funcBegun n s).safe.funcs.length := by rw [hb.length]; exact hn
  have hm := funcMoved_moved hl (pairDemand (funcBegun n s) (sFunc (funcBegun n s) n) || fDead (funcBegun n s)) (funcAsked n s).1
  refine ⟨_, ?_, funcTick_of_enabled h⟩
  have hd : pairDemand (funcBegun n s) (sFunc (funcBegun n s) n) = pairDemand s (sFunc s n) :=
    pairDemand_congr hp (congrArg (fun x => x.1) hcauses) .chip
  have hw : faultBits (funcBegun n s) (sFunc (funcBegun n s) n) = faultBits s (sFunc s n) := faultBits_congr hp hb.path hcauses .chip
  rw [hd, hw, fDead_of_besideSafety hb.beside, funcAsked_eq, hst] at hm
  rw [hd, hw, fDead_of_besideSafety hb.beside, funcAsked_eq]
  exact Moved.after hb hp hm

theorem turn_funcTick (n : Nat) (s : State) : Turn .supervisor n s (funcTick n s) := by
  by_cases h : (sFunc s n).st = .disabled
  · unfold funcTick
    dsimp only
    rw [if_pos (by rw [h]; rfl)]
    exact turn_refl _ n s
  · obtain ⟨u, hm, hx⟩ := funcTick_parts h
    rw [hx]
    exact hm.turn.trans (turn_funcEdge n _ _ u)

theorem funcTick_disabled {n : Nat} {s : State} (h : (sFunc s n).st = .disabled) : funcTick n s = s := by
  unfold funcTick
  exact if_pos (by rw [h]; rfl)

/-- The live function that a cause stops. -/
theorem funcTick_stops {n : Nat} {s : State} (hl : (sFunc s n).st.live = true)
    (hc : fDead s = true ∨ ∃ p < 4, (sFunc s n).names p = true ∧ ((sPair s p).on .chip).combined = false) :
    (sFunc (funcTick n s) n).st = .demand ∨ (sFunc (funcTick n s) n).st = .fault := by
  have hd : (sFunc s n).st ≠ .disabled := by
    intro e
    rw [e] at hl
    cases hl
  have hn := funcs_length_of_st hd
  obtain ⟨u, ⟨ht, hst, hp⟩, hx⟩ := funcTick_parts hd
  have hlu : n < u.safe.funcs.length := by rw [ht.length]; exact hn
  have hstop : (pairDemand s (sFunc s n) || fDead s) = true ∨ otherFaults (faultBits s (sFunc s n)) ≠ 0 := by
    obtain hdead | ⟨p, h4, hname, hlow⟩ := hc
    · exact .inl (by rw [hdead, Bool.or_true])
    · exact (stops_of_low h4 hname hlow).imp_left fun e => by rw [e, Bool.true_or]
  have hpd : pairDemand u (sFunc u n) = pairDemand s (sFunc s n) := pairDemand_congr hp (congrArg (fun x => x.1) ht.named) .chip
  rw [hx]
  obtain ⟨hnext, hdem⟩ | hnext := next_of_stop (effectiveRequest s (sFunc s n)).1 hl hstop
  · rw [hnext] at hst
    have hcause : (edgeCause u (sFunc u n)).isSome = true := by
      refine edgeCause_of_demand ?_
      rw [hpd, fDead_of_besideSafety ht.beside]
      exact Bool.or_eq_true_iff.mp hdem
    rw [funcEdge_stopped _ (.inl ⟨hst, hcause⟩)]
    exact .inl hst
  · rw [hnext] at hst
    have hw : (sFunc s n).st ≠ .fault := by
      intro e
      rw [e] at hl
      cases hl
    rw [funcEdge_stopped _ (.inr ⟨hst, hw⟩)]
    exact .inr hst

/-- A function without a request is no longer in CHECK or RELEASED after its turn. -/
theorem funcTick_unasked {n : Nat} {s : State} (hr : (effectiveRequest s (sFunc s n)).1 = false)
    (h : (sFunc s n).st = .check ∨ (sFunc s n).st = .released) :
    (sFunc (funcTick n s) n).st ≠ .released ∧ (sFunc (funcTick n s) n).st ≠ .check := by
  have hd : (sFunc s n).st ≠ .disabled := by
    intro e
    obtain h | h := h <;> rw [e] at h <;> cases h
  obtain ⟨u, ⟨ht, hst, hp⟩, hx⟩ := funcTick_parts hd
  have hlu : n < u.safe.funcs.length := by rw [ht.length]; exact funcs_length_of_st hd
  rw [hr] at hst
  rw [hx]
  have hu : (sFunc u n).st ≠ .released ∧ (sFunc u n).st ≠ .check := by
    rw [hst]
    obtain e | ⟨e, -⟩ | e := next_of_no_request (pairDemand s (sFunc s n) || fDead s) (faultBits s (sFunc s n)) h
    all_goals
      rw [e]
      decide
  obtain e | e | e := funcEdge_st hlu (sFunc s n).st (sFunc s n).edge
  · rwa [e]
  · rw [e]
    decide
  · rw [e]
    decide

/-! ### The supervisor path's turn (R413) -/

/-- Where a function goes on the supervisor path without its edge. -/
def supNext (n : Nat) (s : State) : FuncState :=
  (sFunc s n).supSt.next (pairDemand s (sFunc s n) .supervisor || fDead s) (faultBits s (sFunc s n) .supervisor)
    (effectiveRequest s (sFunc s n)).1

/-- A function in a state of the supervisor path, its edge taken. -/
def SafeFunc.supIn (st : FuncState) (f : SafeFunc) : SafeFunc := { f with supSt := st, supEdge := false }

/-- A function whose faults an edge of the supervisor path has cleared. -/
def supCleared (n : Nat) (s : State) : State :=
  let u := clearFaults n s .supervisor
  onSFunc n (fun f => { f with supSt := if pairDemand u f .supervisor then .demand else .ready }) u

theorem supTick_of_enabled {n : Nat} {s : State} (h : (sFunc s n).st ≠ .disabled) :
    supTick n s =
      if (sFunc s n).supEdge && (supNext n s == .demand || (supNext n s == .fault && (sFunc s n).supSt == .fault))
          && (edgeCause (onSFunc n (SafeFunc.supIn (supNext n s)) s) (sFunc s n) .supervisor).isNone then
        supCleared n (onSFunc n (SafeFunc.supIn (supNext n s)) s)
      else onSFunc n (SafeFunc.supIn (supNext n s)) s := by
  unfold supTick
  dsimp only
  rw [if_neg (by simpa using h)]
  rfl

theorem supTick_disabled {n : Nat} {s : State} (h : (sFunc s n).st = .disabled) : supTick n s = s := by
  unfold supTick
  exact if_pos (by rw [h]; rfl)

theorem turn_supTick (n : Nat) (s : State) : Turn .chip n s (supTick n s) := by
  by_cases h : (sFunc s n).st = .disabled
  · rw [supTick_disabled h]
    exact turn_refl _ n s
  · have h1 : Turn .chip n s (onSFunc n (SafeFunc.supIn (supNext n s)) s) := turn_onSFunc _ n s
    rw [supTick_of_enabled h]
    exact turn_ite (h1.trans ((turn_clearFaults _ n _ .supervisor).trans (turn_onSFunc _ n _))) h1

/-- After its turn a function stands on the supervisor path where its causes move it, unless an edge that nothing rejects clears its faults. -/
theorem supTick_st {n : Nat} {s : State} (h : (sFunc s n).st ≠ .disabled) :
    (sFunc (supTick n s) n).supSt = supNext n s ∨
      (((sFunc (supTick n s) n).supSt = .demand ∨ (sFunc (supTick n s) n).supSt = .ready) ∧
        (supNext n s = .demand ∨ (supNext n s = .fault ∧ (sFunc s n).supSt = .fault)) ∧
        (edgeCause (onSFunc n (SafeFunc.supIn (supNext n s)) s) (sFunc s n) .supervisor).isNone = true) := by
  have hn := funcs_length_of_st h
  rw [supTick_of_enabled h]
  split
  · next hc =>
    have hl : n < (clearFaults n (onSFunc n (SafeFunc.supIn (supNext n s)) s) .supervisor).safe.funcs.length := by
      rw [(turn_clearFaults .chip n _ .supervisor).length, onSFunc_length]
      exact hn
    simp only [Bool.and_eq_true, Bool.or_eq_true, beq_iff_eq] at hc
    refine .inr ⟨?_, hc.1.2, hc.2⟩
    unfold supCleared
    rw [sFunc_onSFunc hl]
    dsimp only
    split
    · exact .inl rfl
    · exact .inr rfl
  · rw [sFunc_onSFunc hn]
    exact .inl rfl

theorem supTick_stops {n : Nat} {s : State} (hd : (sFunc s n).st ≠ .disabled) (hl : (sFunc s n).supSt.live = true)
    (hc : fDead s = true ∨ ∃ p < 4, (sFunc s n).names p = true ∧ ((sPair s p).on .supervisor).combined = false) :
    (sFunc (supTick n s) n).supSt = .demand ∨ (sFunc (supTick n s) n).supSt = .fault := by
  have hstop : (pairDemand s (sFunc s n) .supervisor || fDead s) = true ∨ otherFaults (faultBits s (sFunc s n) .supervisor) ≠ 0 := by
    obtain hdead | ⟨p, h4, hname, hlow⟩ := hc
    · exact .inl (by rw [hdead, Bool.or_true])
    · exact (stops_of_low h4 hname hlow).imp_left fun e => by rw [e, Bool.true_or]
  have hw : (sFunc s n).supSt ≠ .fault := by
    intro e
    rw [e] at hl
    cases hl
  have hnext := next_of_stop (effectiveRequest s (sFunc s n)).1 hl hstop
  obtain e | ⟨-, hst, hnone⟩ := supTick_st hd
  · rw [e]
    exact hnext.imp_left And.left
  · obtain hst | ⟨-, hst⟩ := hst
    · obtain ⟨-, hdem⟩ | hf := hnext
      · have hcause : (edgeCause (onSFunc n (SafeFunc.supIn (supNext n s)) s) (sFunc s n) .supervisor).isSome = true :=
          edgeCause_of_demand (Bool.or_eq_true_iff.mp hdem)
        rw [Option.isNone_iff_eq_none.mp hnone] at hcause
        cases hcause
      · exact absurd (hf.symm.trans hst) (by decide)
    · exact absurd hst hw

theorem supTick_unasked {n : Nat} {s : State} (hd : (sFunc s n).st ≠ .disabled) (hr : (effectiveRequest s (sFunc s n)).1 = false)
    (h : (sFunc s n).supSt = .check ∨ (sFunc s n).supSt = .released) :
    (sFunc (supTick n s) n).supSt ≠ .released ∧ (sFunc (supTick n s) n).supSt ≠ .check := by
  obtain e | ⟨e | e, -⟩ := supTick_st hd
  · rw [e, supNext, hr]
    obtain e | ⟨e, -⟩ | e := next_of_no_request (pairDemand s (sFunc s n) .supervisor || fDead s) (faultBits s (sFunc s n) .supervisor) h
    all_goals
      rw [e]
      decide
  · rw [e]
    decide
  · rw [e]
    decide

/-! ### The functions in turn -/

theorem combined_of_judged {s : State} (h : Judged s) {q : SafePath} {p : Nat} (h4 : p < 4) (hl : p < s.safe.pairs.length)
    (hc : combineAt s q p = false) : ((sPair s p).on q).combined = false := by
  by_contra hne
  rw [h q p h4 hl (by simpa using hne)] at hc
  cases hc

/-- A cause that stops function `f` on a path: group F, or a named pair at 0. -/
def stopsOn (s : State) (f : Nat) (q : SafePath) : Prop :=
  fDead s = true ∨ ∃ p < 4, (sFunc s f).names p = true ∧ p < s.safe.pairs.length ∧ combineAt s q p = false

theorem stopsOn_of_turn {r q : SafePath} {n f : Nat} {s u : State} (h : Turn r n s u) (hs : stopsOn s f q) : stopsOn u f q := by
  have hname (p : Nat) : (sFunc u f).names p = (sFunc s f).names p := by
    have e : (sFunc u f).pairs = (sFunc s f).pairs := by
      by_cases hf : f = n
      · subst hf
        exact congrArg (fun x => x.1) h.named
      · rw [h.other f hf]
    unfold SafeFunc.names
    rw [e]
  have hlen : u.safe.pairs.length = s.safe.pairs.length := by simpa using congrArg List.length h.modes
  obtain hd | ⟨p, h4, hn, hl, hc⟩ := hs
  · exact .inl (by rw [fDead_of_besideSafety h.beside]; exact hd)
  · exact .inr ⟨p, h4, by rw [hname]; exact hn, by rw [hlen]; exact hl, by rw [combineAt_of_modes h.modes h.ch]; exact hc⟩

theorem stopsOn_low {q : SafePath} {f : Nat} {s : State} (hj : Judged s) (h : stopsOn s f q) :
    fDead s = true ∨ ∃ p < 4, (sFunc s f).names p = true ∧ ((sPair s p).on q).combined = false := by
  obtain hd | ⟨p, h4, hn, hl, hc⟩ := h
  · exact .inl hd
  · exact .inr ⟨p, h4, hn, combined_of_judged hj h4 hl hc⟩

theorem named_of_turn {r : SafePath} {n : Nat} {s u : State} (h : Turn r n s u) (f : Nat) : (sFunc u f).named = (sFunc s f).named := by
  by_cases hf : f = n
  · subst hf
    exact h.named
  · rw [h.other f hf]

theorem request_of_turn {r : SafePath} {n : Nat} {s u : State} (h : Turn r n s u) (f : Nat) :
    effectiveRequest u (sFunc u f) = effectiveRequest s (sFunc s f) := effectiveRequest_of_named h.beside (named_of_turn h f)

end Sys2Proof.Machine
end

section
/-! PROOFS. The safety tick and the filtered inputs (16_safety.md R413 to R422). -/

namespace Sys2Proof.Machine

/-! ### Both functions in turn -/

/-- What the turns of the functions leave. -/
structure Turned (s u : State) : Prop where
  beside : u.besideSafety = s.besideSafety
  named  : ∀ f, (sFunc u f).named = (sFunc s f).named
  ch     : u.safe.ch = s.safe.ch
  modes  : u.safe.pairs.map (·.mode) = s.safe.pairs.map (·.mode)
  path   : u.safe.path = s.safe.path
  missed : u.safe.missed = s.safe.missed
  judged : Judged s → Judged u

theorem turned_refl (s : State) : Turned s s := ⟨rfl, fun _ => rfl, rfl, rfl, rfl, rfl, id⟩

theorem turned_of_turn {r : SafePath} {n : Nat} {s u : State} (h : Turn r n s u) : Turned s u :=
  ⟨h.beside, named_of_turn h, h.ch, h.modes, h.path, h.missed, h.judged⟩

theorem Turned.trans {s u v : State} (h : Turned s u) (h' : Turned u v) : Turned s v :=
  ⟨h'.beside.trans h.beside, fun f => (h'.named f).trans (h.named f), h'.ch.trans h.ch, h'.modes.trans h.modes, h'.path.trans h.path,
    h'.missed.trans h.missed, h'.judged ∘ h.judged⟩

theorem stopsOn_of_turned {q : SafePath} {f : Nat} {s u : State} (h : Turned s u) (hs : stopsOn s f q) : stopsOn u f q := by
  have hname (p : Nat) : (sFunc u f).names p = (sFunc s f).names p := by
    have e : (sFunc u f).pairs = (sFunc s f).pairs := congrArg (fun x => x.1) (h.named f)
    unfold SafeFunc.names
    rw [e]
  have hlen : u.safe.pairs.length = s.safe.pairs.length := by simpa using congrArg List.length h.modes
  obtain hd | ⟨p, h4, hn, hl, hc⟩ := hs
  · exact .inl (by rw [fDead_of_besideSafety h.beside]; exact hd)
  · exact .inr ⟨p, h4, by rw [hname]; exact hn, by rw [hlen]; exact hl, by rw [combineAt_of_modes h.modes h.ch]; exact hc⟩

/-- Function `f` takes its turn in a state in which it still stands as before. -/
theorem both_turns {r : SafePath} {tick : Nat → State → State} (ht : ∀ n s, Turn r n s (tick n s)) (s : State) :
    Turned s (forAll [0, 1] tick s) ∧ (∀ f, (sFunc (forAll [0, 1] tick s) f).on r = (sFunc s f).on r) ∧
      ∀ f < 2, ∃ v, Turned s v ∧ sFunc v f = sFunc s f ∧ sFunc (forAll [0, 1] tick s) f = sFunc (tick f v) f := by
  have h0 := ht 0 s
  have h1 := ht 1 (tick 0 s)
  have hkept {n : Nat} {a b : State} (h : Turn r n a b) (f : Nat) : (sFunc b f).on r = (sFunc a f).on r := by
    by_cases hf : f = n
    · subst hf
      exact h.kept
    · rw [h.other f hf]
  refine ⟨(turned_of_turn h0).trans (turned_of_turn h1), fun f => (hkept h1 f).trans (hkept h0 f), fun f hf => ?_⟩
  obtain rfl | rfl : f = 0 ∨ f = 1 := by omega
  · exact ⟨s, turned_refl s, rfl, h1.other 0 (by decide)⟩
  · exact ⟨tick 0 s, turned_of_turn h0, h0.other 1 (by decide), rfl⟩

/-- The state of an enabled function after its turn is no DISABLED. -/
theorem funcTick_enabled {n : Nat} {s : State} (h : (sFunc s n).st ≠ .disabled) : (sFunc (funcTick n s) n).st ≠ .disabled := by
  have hnext (st : FuncState) (d : Bool) (w : Nat) (r : Bool) (h : st ≠ .disabled) : st.next d w r ≠ .disabled := by
    cases st with
    | disabled => exact absurd rfl h
    | fault => exact h
    | _ =>
      simp only [FuncState.next]
      split_ifs <;> decide
  obtain ⟨u, ⟨ht, hst, hp⟩, hx⟩ := funcTick_parts h
  have hlu : n < u.safe.funcs.length := by rw [ht.length]; exact funcs_length_of_st h
  rw [hx]
  obtain e | e | e := funcEdge_st hlu (sFunc s n).st (sFunc s n).edge
  · rw [e, hst]
    exact hnext _ _ _ _ h
  · rw [e]
    decide
  · rw [e]
    decide

/-- The functions after both paths' turns. -/
def funcsTicked (s : State) : State := forAll [0, 1] supTick (forAll [0, 1] funcTick s)

theorem funcsTicked_turned (s : State) : Turned s (funcsTicked s) :=
  (both_turns turn_funcTick s).1.trans (both_turns turn_supTick _).1

section
variable {s : State} {f : Nat} (hf : f < 2)
include hf

/-- The chip path's state of a function after the tick is that of its turn. -/
theorem funcsTicked_st : ∃ v, Turned s v ∧ sFunc v f = sFunc s f ∧ (sFunc (funcsTicked s) f).st = (sFunc (funcTick f v) f).st := by
  obtain ⟨-, -, hturn⟩ := both_turns turn_funcTick s
  obtain ⟨-, hkept, -⟩ := both_turns turn_supTick (forAll [0, 1] funcTick s)
  obtain ⟨v, hv, hsame, hx⟩ := hturn f hf
  exact ⟨v, hv, hsame, (hkept f).trans (by rw [hx]; rfl)⟩

/-- The supervisor path's state of a function after the tick is that of its turn. -/
theorem funcsTicked_supSt : ∃ v, Turned s v ∧ (sFunc v f).supSt = (sFunc s f).supSt ∧
    ((sFunc s f).st ≠ .disabled → (sFunc v f).st ≠ .disabled) ∧ (sFunc (funcsTicked s) f).supSt = (sFunc (supTick f v) f).supSt := by
  obtain ⟨hturned, hkept, hturn⟩ := both_turns turn_funcTick s
  obtain ⟨-, -, hturn'⟩ := both_turns turn_supTick (forAll [0, 1] funcTick s)
  obtain ⟨w, hw, hsame, hx⟩ := hturn f hf
  obtain ⟨v, hv, hsame', hx'⟩ := hturn' f hf
  refine ⟨v, hturned.trans hv, ?_, fun hd => ?_, congrArg SafeFunc.supSt hx'⟩
  · rw [hsame']
    exact hkept f
  · rw [hsame', hx]
    exact funcTick_enabled (by rw [hsame]; exact hd)

theorem funcsTicked_disabled (h : (sFunc s f).st = .disabled) : (sFunc (funcsTicked s) f).st = .disabled := by
  obtain ⟨v, -, hsame, hx⟩ := funcsTicked_st (s := s) hf
  rw [hx, funcTick_disabled (by rw [hsame]; exact h), hsame]
  exact h

theorem funcsTicked_stops (hj : Judged s) (hl : (sFunc s f).st.live = true) (hc : stopsOn s f .chip) :
    (sFunc (funcsTicked s) f).st = .demand ∨ (sFunc (funcsTicked s) f).st = .fault := by
  obtain ⟨v, hv, hsame, hx⟩ := funcsTicked_st (s := s) hf
  rw [hx]
  exact funcTick_stops (by rw [hsame]; exact hl) (stopsOn_low (hv.judged hj) (stopsOn_of_turned hv hc))

theorem funcsTicked_supStops (hj : Judged s) (hd : (sFunc s f).st ≠ .disabled) (hl : (sFunc s f).supSt.live = true)
    (hc : stopsOn s f .supervisor) : (sFunc (funcsTicked s) f).supSt = .demand ∨ (sFunc (funcsTicked s) f).supSt = .fault := by
  obtain ⟨v, hv, hsame, hen, hx⟩ := funcsTicked_supSt (s := s) hf
  rw [hx]
  exact supTick_stops (hen hd) (by rw [hsame]; exact hl) (stopsOn_low (hv.judged hj) (stopsOn_of_turned hv hc))

theorem funcsTicked_unasked (hr : (effectiveRequest s (sFunc s f)).1 = false) (h : (sFunc s f).st = .check ∨ (sFunc s f).st = .released) :
    (sFunc (funcsTicked s) f).st ≠ .released ∧ (sFunc (funcsTicked s) f).st ≠ .check := by
  obtain ⟨v, hv, hsame, hx⟩ := funcsTicked_st (s := s) hf
  rw [hx]
  exact funcTick_unasked (by rw [effectiveRequest_of_named hv.beside (hv.named f)]; exact hr) (by rw [hsame]; exact h)

theorem funcsTicked_supUnasked (hd : (sFunc s f).st ≠ .disabled) (hr : (effectiveRequest s (sFunc s f)).1 = false)
    (h : (sFunc s f).supSt = .check ∨ (sFunc s f).supSt = .released) :
    (sFunc (funcsTicked s) f).supSt ≠ .released ∧ (sFunc (funcsTicked s) f).supSt ≠ .check := by
  obtain ⟨v, hv, hsame, hen, hx⟩ := funcsTicked_supSt (s := s) hf
  rw [hx]
  exact supTick_unasked (hen hd) (by rw [effectiveRequest_of_named hv.beside (hv.named f)]; exact hr) (by rw [hsame]; exact h)

end

/-! ### Before the functions' turn: pairs and the exchange (R414, R416) -/

/-- What a function's turn rests on. -/
def SafeFunc.key (f : SafeFunc) : FuncState × FuncState × Nat × Nat × Bool × Bool := (f.st, f.supSt, f.named)

/-- The levels of a channel. -/
def SiCh.levels (c : SiCh) : Bool × SiSeen × SiSeen := (c.raw, c.chip, c.sup)

/-- What the pairs' ticks and the exchange leave. -/
structure Paired (s u : State) : Prop where
  beside : u.besideSafety = s.besideSafety
  keys   : u.safe.funcs.map SafeFunc.key = s.safe.funcs.map SafeFunc.key
  levels : u.safe.ch.map SiCh.levels = s.safe.ch.map SiCh.levels
  modes  : u.safe.pairs.map (·.mode) = s.safe.pairs.map (·.mode)
  path   : s.safe.path = true → u.safe.path = true
  missed : u.safe.missed = s.safe.missed
  run    : u.safe.missRun = s.safe.missRun

theorem paired_refl (s : State) : Paired s s := ⟨rfl, rfl, rfl, rfl, id, rfl, rfl⟩

theorem Paired.trans {s u v : State} (h : Paired s u) (h' : Paired u v) : Paired s v :=
  ⟨h'.beside.trans h.beside, h'.keys.trans h.keys, h'.levels.trans h.levels, h'.modes.trans h.modes, h'.path ∘ h.path,
    h'.missed.trans h.missed, h'.run.trans h.run⟩

theorem paired_ite {s u v : State} {c : Prop} [Decidable c] (h1 : Paired s u) (h2 : Paired s v) : Paired s (if c then u else v) := by
  split
  · exact h1
  · exact h2

theorem paired_forAll {α : Type} {f : α → State → State} (h : ∀ a s, Paired s (f a s)) (l : List α) (s : State) : Paired s (forAll l f s) := by
  induction l generalizing s with
  | nil => exact paired_refl s
  | cons a l ih => exact (h a s).trans (ih _)

theorem paired_onSPair (p : Nat) {f : SiPair → SiPair} (s : State) (h : ∀ x, (f x).mode = x.mode) : Paired s (onSPair p f s) :=
  ⟨rfl, rfl, rfl, map_modify_keep SiPair.mode f h s.safe.pairs p, id, rfl, rfl⟩

theorem paired_latchPair (q : SafePath) (p : Nat) (new : PairFaults) (s : State) : Paired s (latchPair q p new s) := by
  unfold latchPair
  dsimp only
  refine paired_ite (paired_refl s) ((paired_ite ?_ (paired_refl s)).trans (paired_onSPair p _ (SiPair.upd_mode q _)))
  exact ⟨rfl, rfl, rfl, rfl, id, rfl, rfl⟩

theorem paired_pathPairTick (q : SafePath) (p : Nat) (s : State) : Paired s (pathPairTick q p s) :=
  (paired_onSPair p s (SiPair.upd_mode q _)).trans ((paired_ite (paired_latchPair q p _ _) (paired_refl _)).trans
    (paired_onSPair p _ (SiPair.upd_mode q _)))

theorem paired_pairTick (p : Nat) (s : State) : Paired s (pairTick p s) := paired_forAll (fun q t => paired_pathPairTick q p t) bothPaths s

theorem paired_pairCombines (p : Nat) (s : State) : Paired s (pairCombines p s) :=
  paired_forAll (fun q t => paired_onSPair p t (SiPair.upd_mode q _)) bothPaths s

theorem paired_swapNews (p : Nat) (s : State) : Paired s (swapNews p s) :=
  (paired_latchPair .chip p _ s).trans ((paired_latchPair .supervisor p _ _).trans (paired_onSPair p _ fun _ => rfl))

theorem paired_compareItems (s : State) : Paired s (compareItems s) :=
  ⟨rfl, by simp [compareItems, Function.comp_def, SafeFunc.key, SafeFunc.named], by simp [compareItems, Function.comp_def, SiCh.levels],
    by simp [compareItems, Function.comp_def], id, rfl, rfl⟩

theorem paired_pathFault (cause : Nat) (s : State) : Paired s (pathFault cause s) := by
  unfold pathFault
  dsimp only
  refine paired_ite (paired_refl s) (paired_ite ?_ ?_)
  · exact ⟨rfl, rfl, rfl, rfl, fun _ => rfl, rfl, rfl⟩
  · exact ⟨rfl, rfl, rfl, rfl, fun _ => rfl, rfl, rfl⟩

theorem pathFault_path (cause : Nat) (s : State) : (pathFault cause s).safe.path = true := by
  unfold pathFault
  split
  · assumption
  · dsimp only
    split <;> rfl

theorem siAt_levels {s u : State} (h : u.safe.ch.map SiCh.levels = s.safe.ch.map SiCh.levels) (n : Nat) :
    (siAt u n).levels = (siAt s n).levels := by
  have e := congrArg (fun l : List (Bool × SiSeen × SiSeen) => l.getD n ({} : SiCh).levels) h
  exact (getD_map SiCh.levels u.safe.ch n {}).symm.trans (e.trans (getD_map SiCh.levels s.safe.ch n {}))

theorem sFunc_key {s u : State} (h : u.safe.funcs.map SafeFunc.key = s.safe.funcs.map SafeFunc.key) (n : Nat) :
    (sFunc u n).key = (sFunc s n).key := by
  have e := congrArg (fun l : List (FuncState × FuncState × Nat × Nat × Bool × Bool) => l.getD n ({} : SafeFunc).key) h
  exact (getD_map SafeFunc.key u.safe.funcs n {}).symm.trans (e.trans (getD_map SafeFunc.key s.safe.funcs n {}))

theorem SiCh.on_of_levels {a b : SiCh} (h : a.levels = b.levels) (q : SafePath) : a.on q = b.on q := by
  cases q
  · exact congrArg (fun x => x.2.1) h
  · exact congrArg (fun x => x.2.2) h

theorem combineAt_of_paired {s u : State} (h : Paired s u) (q : SafePath) (p : Nat) : combineAt u q p = combineAt s q p := by
  unfold combineAt
  rw [sPair_mode_of_modes h.modes, SiCh.on_of_levels (siAt_levels h.levels _), SiCh.on_of_levels (siAt_levels h.levels _)]

/-! ### The pairs are judged (R416, R417) -/

/-- One pair is judged: its combined states are no 1 where the filtered channels say 0. -/
def JudgedPair (p : Nat) (s : State) : Prop :=
  ∀ q, p < s.safe.pairs.length → ((sPair s p).on q).combined = true → combineAt s q p = true

theorem pairCombines_eq (p : Nat) (s : State) : pairCombines p s =
    onSPair p (SiPair.upd .supervisor fun y => { y with
      combined := pairCombined (onSPair p (SiPair.upd .chip fun y => { y with combined := pairCombined s .chip p }) s) .supervisor p })
      (onSPair p (SiPair.upd .chip fun y => { y with combined := pairCombined s .chip p }) s) := rfl

theorem combine_of_pairCombined {s : State} {q : SafePath} {p : Nat} (h : pairCombined s q p = true) : combineAt s q p = true :=
  (Bool.and_eq_true_iff.mp h).2

theorem pairCombines_judged (p : Nat) (s : State) : JudgedPair p (pairCombines p s) := by
  intro q hl h
  rw [combineAt_of_paired (paired_pairCombines p s)]
  have hlen (f : SiPair → SiPair) (s : State) : (onSPair p f s).safe.pairs.length = s.safe.pairs.length := List.length_modify _ _ _
  rw [pairCombines_eq] at h hl
  rw [hlen, hlen] at hl
  rw [sPair_onSPair (by rw [hlen]; exact hl)] at h
  cases q with
  | chip =>
    rw [SiPair.on_upd_ne (by decide), sPair_onSPair hl, SiPair.on_upd_same] at h
    exact combine_of_pairCombined h
  | supervisor =>
    rw [SiPair.on_upd_same] at h
    have h' := combine_of_pairCombined h
    rwa [combineAt_of_paired (paired_onSPair p s (SiPair.upd_mode _ _))] at h'

theorem pairCombines_other {p k : Nat} (hk : k ≠ p) (s : State) : sPair (pairCombines p s) k = sPair s k := by
  rw [pairCombines_eq, sPair_onSPair_ne hk, sPair_onSPair_ne hk]

theorem judgedPair_of_same {p : Nat} {s u : State} (hp : Paired s u) (h : ∀ q, ((sPair u p).on q).combined = ((sPair s p).on q).combined)
    (hj : JudgedPair p s) : JudgedPair p u := by
  intro q hl hc
  have hlen : u.safe.pairs.length = s.safe.pairs.length := by simpa using congrArg List.length hp.modes
  rw [combineAt_of_paired hp]
  exact hj q (by rw [← hlen]; exact hl) (by rw [← h]; exact hc)

theorem judgedPair_pairCombines {p : Nat} (k : Nat) {s : State} (h : JudgedPair p s) : JudgedPair p (pairCombines k s) := by
  by_cases hk : p = k
  · subst hk
    exact pairCombines_judged p s
  · exact judgedPair_of_same (paired_pairCombines k s) (fun q => by rw [pairCombines_other hk]) h

theorem judged_combined (s : State) : Judged (forAll [0, 1, 2, 3] pairCombines s) := by
  have hall : ∀ p < 4, JudgedPair p (pairCombines 3 (pairCombines 2 (pairCombines 1 (pairCombines 0 s)))) := by
    intro p hp
    obtain rfl | rfl | rfl | rfl : p = 0 ∨ p = 1 ∨ p = 2 ∨ p = 3 := by omega
    · exact judgedPair_pairCombines 3 (judgedPair_pairCombines 2 (judgedPair_pairCombines 1 (pairCombines_judged 0 s)))
    · exact judgedPair_pairCombines 3 (judgedPair_pairCombines 2 (pairCombines_judged 1 _))
    · exact judgedPair_pairCombines 3 (pairCombines_judged 2 _)
    · exact pairCombines_judged 3 _
  exact fun q p hp hl hc => hall p hp q hl hc

/-- A step that keeps the combined states keeps the judgement. -/
theorem judged_of_paired {s u : State} (hp : Paired s u) (h : ∀ p q, ((sPair u p).on q).combined = ((sPair s p).on q).combined)
    (hj : Judged s) : Judged u := fun q p h4 hl hc => judgedPair_of_same (p := p) hp (h p) (fun q hl hc => hj q p h4 hl hc) q hl hc

theorem compareItems_combined (s : State) (p : Nat) (q : SafePath) : ((sPair (compareItems s) p).on q).combined = ((sPair s p).on q).combined := by
  have e := getD_map (fun p : SiPair => { p with
    differ := differTicks (p.chip.combined != p.sup.combined) p.differ
    differF := differTicks (p.chip.faults != p.sup.faults) p.differF }) s.safe.pairs p {}
  have e' : sPair (compareItems s) p = { sPair s p with
      differ := differTicks ((sPair s p).chip.combined != (sPair s p).sup.combined) (sPair s p).differ
      differF := differTicks ((sPair s p).chip.faults != (sPair s p).sup.faults) (sPair s p).differF } := e
  rw [e']
  cases q <;> rfl

theorem pathFault_pairs (cause : Nat) (s : State) : (pathFault cause s).safe.pairs = s.safe.pairs := by
  unfold pathFault
  split
  · rfl
  · dsimp only
    split <;> rfl

/-! ### The exchange (R414) -/

/-- The exchange counted, or missed. -/
def exchangeCounted (missed : Bool) (s : State) : State :=
  onSafe (fun x =>
    { x with missed := if missed then satInc 16 x.missed else x.missed
             missRun := if missed then min (x.missRun + 1) 4 else 0 }) s

/-- The pairs after the exchange. -/
def exchangeCompared (missed : Bool) (s : State) : State :=
  let u := forAll [0, 1, 2, 3] pairCombines (if missed then s else forAll [0, 1, 2, 3] swapNews s)
  if missed then u else compareItems u

theorem exchange_eq (k : SafeTick) (s : State) : exchange k s =
    (let u := exchangeCompared k.missed (exchangeCounted k.missed s)
     if itemsDiffer u then pathFault 1 u else if k.clocks then pathFault 2 u else if 4 ≤ u.safe.missRun then pathFault 3 u else u) := rfl

theorem exchangeCompared_paired (missed : Bool) (s : State) : Paired s (exchangeCompared missed s) := by
  have h1 := (paired_ite (c := missed = true) (paired_refl s) (paired_forAll (fun p t => paired_swapNews p t) [0, 1, 2, 3] s)).trans
    (paired_forAll (fun p t => paired_pairCombines p t) [0, 1, 2, 3] _)
  exact paired_ite h1 (h1.trans (paired_compareItems _))

theorem exchangeCompared_judged (missed : Bool) (s : State) : Judged (exchangeCompared missed s) := by
  unfold exchangeCompared
  dsimp only
  split
  · exact judged_combined _
  · exact judged_of_paired (paired_compareItems _) (compareItems_combined _) (judged_combined _)

theorem exchange_outcome (k : SafeTick) (s : State) :
    Paired (exchangeCounted k.missed s) (exchange k s) ∧ Judged (exchange k s) ∧
      (s.safe.path = true ∨ k.clocks = true ∨ (k.missed = true ∧ 3 ≤ s.safe.missRun) → (exchange k s).safe.path = true) := by
  have hp := exchangeCompared_paired k.missed (exchangeCounted k.missed s)
  have hj := exchangeCompared_judged k.missed (exchangeCounted k.missed s)
  rw [exchange_eq]
  dsimp only
  generalize exchangeCompared k.missed (exchangeCounted k.missed s) = u at hp hj
  have hfault (c : Nat) : Judged (pathFault c u) :=
    judged_of_paired (paired_pathFault c u) (fun p q => by unfold sPair; rw [pathFault_pairs]) hj
  refine ⟨paired_ite (hp.trans (paired_pathFault 1 u)) (paired_ite (hp.trans (paired_pathFault 2 u))
    (paired_ite (hp.trans (paired_pathFault 3 u)) hp)), ?_, fun h => ?_⟩
  · split
    · exact hfault 1
    · split
      · exact hfault 2
      · split
        · exact hfault 3
        · exact hj
  · split
    · exact pathFault_path 1 u
    · split
      · exact pathFault_path 2 u
      · next hc =>
        split
        · exact pathFault_path 3 u
        · next hrun =>
          obtain h | h | ⟨hm, h3⟩ := h
          · exact hp.path h
          · exact absurd h hc
          · have e : u.safe.missRun = if k.missed then min (s.safe.missRun + 1) 4 else 0 := hp.run
            rw [hm, if_pos rfl] at e
            omega

/-! ### The tick (R413, R420) -/

/-- A tick once the raw levels and the brake outputs are measured. -/
def tickSampled (k : SafeTick) (s : State) : State :=
  onSafe (fun x =>
    { x with tickAt := some s.mono
             ch := x.ch.mapIdx fun n c => { c with raw := k.raw.getLsbD n && !fedOff s n }
             funcs := x.funcs.mapIdx fun n f =>
               if n = 0 then f.measured k.ma0 k.mv0 k.minus0 else f.measured k.ma1 k.mv1 k.minus1 }) s

/-- The state at which the functions take their turn. -/
def tickJudged (k : SafeTick) (s : State) : State := exchange k (forAll [0, 1, 2, 3] pairTick (tickSampled k s))

theorem safetyTick_of_due {k : SafeTick} {s : State} (hr : railsOn s = true) (hd : longAgo s.safe.tickAt 500000 s.mono = true) :
    safetyTick k s = outputsDrive (sidesFollow k.missed (funcsTicked (tickJudged k s))) :=
  if_neg (by rw [hr, hd]; decide)

theorem tickSampled_ch {k : SafeTick} {s : State} {n : Nat} (h : n < s.safe.ch.length) :
    (siAt (tickSampled k s) n).levels = (k.raw.getLsbD n && !fedOff s n, (siAt s n).chip, (siAt s n).sup) := by
  have e : siAt (tickSampled k s) n = { siAt s n with raw := k.raw.getLsbD n && !fedOff s n } := by
    simp [siAt, tickSampled, h]
  rw [e]
  rfl

theorem tickSampled_seen (k : SafeTick) (s : State) (n : Nat) (q : SafePath) : (siAt (tickSampled k s) n).on q = (siAt s n).on q := by
  by_cases h : n < s.safe.ch.length
  · have e := tickSampled_ch (k := k) h
    cases q
    · exact congrArg (fun x => x.2.1) e
    · exact congrArg (fun x => x.2.2) e
  · have hlen : (tickSampled k s).safe.ch.length = s.safe.ch.length := by simp [tickSampled]
    unfold siAt
    rw [List.getD_eq_default _ _ (by omega), List.getD_eq_default _ _ (by omega)]

theorem tickSampled_key (k : SafeTick) (s : State) (f : Nat) : (sFunc (tickSampled k s) f).key = (sFunc s f).key := by
  unfold sFunc tickSampled
  rw [onSafe_safe]
  by_cases h : f < s.safe.funcs.length
  · simp only [List.getD_eq_getElem?_getD, List.getElem?_mapIdx, List.getElem?_eq_getElem h, Option.map_some, Option.getD_some]
    split <;> rfl
  · rw [List.getD_eq_default _ _ (by simpa using h), List.getD_eq_default _ _ (by simpa using h)]

/-- What the tick leaves for the functions' turn. -/
theorem tickJudged_paired (k : SafeTick) (s : State) : ∃ u, Paired (tickSampled k s) u ∧ Paired (exchangeCounted k.missed u) (tickJudged k s) ∧
    Judged (tickJudged k s) ∧
    (s.safe.path = true ∨ k.clocks = true ∨ (k.missed = true ∧ 3 ≤ s.safe.missRun) → (tickJudged k s).safe.path = true) := by
  have hp := paired_forAll (fun p t => paired_pairTick p t) [0, 1, 2, 3] (tickSampled k s)
  obtain ⟨h1, h2, h3⟩ := exchange_outcome k (forAll [0, 1, 2, 3] pairTick (tickSampled k s))
  refine ⟨_, hp, h1, h2, fun h => h3 ?_⟩
  obtain h | h | ⟨hm, h3⟩ := h
  · exact .inl (hp.path h)
  · exact .inr (.inl h)
  · exact .inr (.inr ⟨hm, by rw [hp.run]; exact h3⟩)

/-- What the tick's begin leaves of the state before it. -/
structure Sampled (k : SafeTick) (s u : State) : Prop where
  beside : u.besideSafety = s.besideSafety
  key    : ∀ f, (sFunc u f).key = (sFunc s f).key
  raw    : ∀ n < s.safe.ch.length, (siAt u n).levels = (k.raw.getLsbD n && !fedOff s n, (siAt s n).chip, (siAt s n).sup)
  seen   : ∀ q p, combineAt u q p = combineAt s q p
  length : u.safe.pairs.length = s.safe.pairs.length
  missed : u.safe.missed = if k.missed then satInc 16 s.safe.missed else s.safe.missed
  path   : s.safe.path = true ∨ k.clocks = true ∨ (k.missed = true ∧ 3 ≤ s.safe.missRun) → u.safe.path = true
  judged : Judged u

theorem tickJudged_sampled (k : SafeTick) (s : State) : Sampled k s (tickJudged k s) := by
  obtain ⟨u, h1, h2, hj, hpath⟩ := tickJudged_paired k s
  have hkeys : (tickJudged k s).safe.funcs.map SafeFunc.key = (tickSampled k s).safe.funcs.map SafeFunc.key := h2.keys.trans h1.keys
  have hlevels : (tickJudged k s).safe.ch.map SiCh.levels = (tickSampled k s).safe.ch.map SiCh.levels := h2.levels.trans h1.levels
  have hmodes : (tickJudged k s).safe.pairs.map (·.mode) = s.safe.pairs.map (·.mode) := h2.modes.trans h1.modes
  exact
    { beside := h2.beside.trans h1.beside
      key := fun f => (sFunc_key hkeys f).trans (tickSampled_key k s f)
      raw := fun n hn => (siAt_levels hlevels n).trans (tickSampled_ch hn)
      seen := fun q p => by
        unfold combineAt
        rw [sPair_mode_of_modes hmodes, SiCh.on_of_levels (siAt_levels hlevels _), SiCh.on_of_levels (siAt_levels hlevels _),
          tickSampled_seen, tickSampled_seen]
      length := by simpa using congrArg List.length hmodes
      missed := by
        refine h2.missed.trans ?_
        show (if k.missed then satInc 16 u.safe.missed else u.safe.missed) = _
        rw [h1.missed]
        rfl
      path := hpath
      judged := hj }

/-! ### The outputs (R413, R414) -/

theorem sFunc_outputs (missed : Bool) (s : State) (f : Nat) : sFunc (outputsDrive (sidesFollow missed s)) f =
    SafeFunc.drive ((fieldGroup s 4).st == .low)
      { sFunc s f with hsOn := (sFunc s f).st == .released, lsOn := !missed && (sFunc s f).supSt == .released } := by
  have e : (outputsDrive (sidesFollow missed s)).safe.funcs = s.safe.funcs.map fun f =>
      SafeFunc.drive ((fieldGroup s 4).st == .low) { f with hsOn := f.st == .released, lsOn := !missed && f.supSt == .released } :=
    List.map_map ..
  have hdefault : SafeFunc.drive ((fieldGroup s 4).st == .low)
      { ({} : SafeFunc) with hsOn := ({} : SafeFunc).st == .released, lsOn := !missed && ({} : SafeFunc).supSt == .released } = {} := by
    cases missed <;> rfl
  unfold sFunc
  rw [e]
  have h := getD_map (fun f => SafeFunc.drive ((fieldGroup s 4).st == .low)
    { f with hsOn := f.st == .released, lsOn := !missed && f.supSt == .released }) s.safe.funcs f {}
  rw [hdefault] at h
  exact h

/-- A function's switches after the tick. -/
theorem switches_of_outputs (missed : Bool) (s : State) (f : Nat) :
    (sFunc (outputsDrive (sidesFollow missed s)) f).st = (sFunc s f).st ∧
      (sFunc (outputsDrive (sidesFollow missed s)) f).supSt = (sFunc s f).supSt ∧
      (sFunc (outputsDrive (sidesFollow missed s)) f).hsOn = ((sFunc s f).st == .released) ∧
      (sFunc (outputsDrive (sidesFollow missed s)) f).lsOn = (!missed && (sFunc s f).supSt == .released) := by
  rw [sFunc_outputs]
  exact ⟨rfl, rfl, rfl, rfl⟩

theorem outputs_kept (missed : Bool) (s : State) :
    (outputsDrive (sidesFollow missed s)).besideSafety = s.besideSafety ∧ (outputsDrive (sidesFollow missed s)).safe.ch = s.safe.ch ∧
      (outputsDrive (sidesFollow missed s)).safe.missed = s.safe.missed ∧ (outputsDrive (sidesFollow missed s)).safe.path = s.safe.path :=
  ⟨rfl, rfl, rfl, rfl⟩

theorem safe_of_rest {t u : State} (h : t.rest = u.rest) : t.safe = u.safe := by
  have e := congrArg State.safe h
  exact e

theorem stopsOn_of_sampled {k : SafeTick} {s u : State} (h : Sampled k s u) {q : SafePath} {f : Nat} (hs : stopsOn s f q) : stopsOn u f q := by
  have hname (p : Nat) : (sFunc u f).names p = (sFunc s f).names p := by
    have e : (sFunc u f).pairs = (sFunc s f).pairs := congrArg (fun x => x.2.2.1) (h.key f)
    unfold SafeFunc.names
    rw [e]
  obtain hd | ⟨p, h4, hn, hl, hc⟩ := hs
  · exact .inl (by rw [fDead_of_besideSafety h.beside]; exact hd)
  · exact .inr ⟨p, h4, by rw [hname]; exact hn, by rw [h.length]; exact hl, by rw [h.seen]; exact hc⟩

/-- What the statement says of one function at a tick. -/
def FuncAtTick (k : SafeTick) (s t : State) (f : Nat) : Prop :=
  ((sFunc s f).st = .disabled → (sFunc t f).st = .disabled) ∧
  (k.missed = true → (sFunc t f).lsOn = false) ∧
  ((sFunc s f).st.live = true → stopsOn s f .chip → ((sFunc t f).st = .demand ∨ (sFunc t f).st = .fault) ∧ (sFunc t f).hsOn = false) ∧
  ((sFunc s f).st ≠ .disabled → (sFunc s f).supSt.live = true → stopsOn s f .supervisor →
    ((sFunc t f).supSt = .demand ∨ (sFunc t f).supSt = .fault) ∧ (sFunc t f).lsOn = false) ∧
  ((effectiveRequest s (sFunc s f)).1 = false →
    ((sFunc s f).st = .check ∨ (sFunc s f).st = .released →
      (sFunc t f).st ≠ .released ∧ (sFunc t f).st ≠ .check ∧ (sFunc t f).hsOn = false) ∧
    ((sFunc s f).st ≠ .disabled → (sFunc s f).supSt = .check ∨ (sFunc s f).supSt = .released →
      (sFunc t f).supSt ≠ .released ∧ (sFunc t f).supSt ≠ .check ∧ (sFunc t f).lsOn = false))

theorem funcAtTick {k : SafeTick} {s u t : State} (h : Sampled k s u) {f : Nat} (hf : f < 2)
    (ht : sFunc t f = sFunc (outputsDrive (sidesFollow k.missed (funcsTicked u))) f) : FuncAtTick k s t f := by
  obtain ⟨hst, hsup, hhs, hls⟩ := switches_of_outputs k.missed (funcsTicked u) f
  rw [← ht] at hst hsup hhs hls
  have hkst : (sFunc u f).st = (sFunc s f).st := congrArg (fun x => x.1) (h.key f)
  have hksup : (sFunc u f).supSt = (sFunc s f).supSt := congrArg (fun x => x.2.1) (h.key f)
  have hreq : effectiveRequest u (sFunc u f) = effectiveRequest s (sFunc s f) :=
    effectiveRequest_of_named h.beside (congrArg (fun x => x.2.2) (h.key f))
  refine ⟨fun hd => ?_, fun hm => ?_, fun hl hs => ?_, fun hd hl hs => ?_, fun hr => ⟨fun hc => ?_, fun hd hc => ?_⟩⟩
  · rw [hst]
    exact funcsTicked_disabled hf (by rw [hkst]; exact hd)
  · rw [hls, hm]
    rfl
  · have e := funcsTicked_stops hf h.judged (by rw [hkst]; exact hl) (stopsOn_of_sampled h hs)
    rw [hst, hhs]
    exact ⟨e, by obtain e | e := e <;> rw [e] <;> rfl⟩
  · have e := funcsTicked_supStops hf h.judged (by rw [hkst]; exact hd) (by rw [hksup]; exact hl) (stopsOn_of_sampled h hs)
    rw [hsup, hls]
    refine ⟨e, ?_⟩
    obtain e | e := e <;> rw [e] <;> exact Bool.and_false _
  · obtain ⟨h1, h2⟩ := funcsTicked_unasked hf (by rw [hreq]; exact hr) (by rw [hkst]; exact hc)
    rw [hst, hhs]
    exact ⟨h1, h2, by simpa using h1⟩
  · obtain ⟨h1, h2⟩ := funcsTicked_supUnasked hf (by rw [hkst]; exact hd) (by rw [hreq]; exact hr) (by rw [hksup]; exact hc)
    rw [hsup, hls]
    exact ⟨h1, h2, by simp [h1]⟩

theorem rest_of_besideSafety {s t u : State} (hrest : t.rest = u.rest) (h : u.besideSafety = s.besideSafety) :
    { t with safe := s.safe, dio := s.dio, log := s.log }.rest = s.rest := by
  have e1 : { t with safe := s.safe, dio := s.dio, log := s.log }.rest = { u with safe := s.safe, dio := s.dio, log := s.log }.rest := by
    have e := congrArg (fun x : State => { x with safe := s.rest.safe, dio := s.rest.dio, log := s.rest.log }) hrest
    exact e
  have e2 : { u with safe := s.safe, dio := s.dio, log := s.log }.rest = s.rest := by
    have e := congrArg (fun x : State => { x with safe := s.safe, dio := s.dio, log := s.log }.rest) h
    exact e
  exact e1.trans e2

theorem safetyTick_outcome {k : SafeTick} {s : State} (hr : railsOn s = true) (hd : longAgo s.safe.tickAt 500000 s.mono = true) :
    ∃ t, exec (.safetyTick k) s = .next t ∧
      { t with safe := s.safe, dio := s.dio, log := s.log }.rest = s.rest ∧
      t.safe.missed = (if k.missed then satInc 16 s.safe.missed else s.safe.missed) ∧
      (s.safe.path = true ∨ k.clocks = true ∨ (k.missed = true ∧ 3 ≤ s.safe.missRun) → t.safe.path = true) ∧
      (∀ n < s.safe.ch.length, (siAt t n).raw = (k.raw.getLsbD n && !fedOff s n) ∧ (siAt t n).chip = (siAt s n).chip ∧
        (siAt t n).sup = (siAt s n).sup) ∧ ∀ f < 2, FuncAtTick k s t f := by
  obtain ⟨t, hx, hrest⟩ := answer_settled s (safetyTick k s)
  have hs := tickJudged_sampled k s
  have hturned := funcsTicked_turned (tickJudged k s)
  rw [safetyTick_of_due hr hd] at hrest
  obtain ⟨hbeside, hch, hmissed, hpath⟩ := outputs_kept k.missed (funcsTicked (tickJudged k s))
  have hfuncs (f : Nat) (ht : t.safe = (outputsDrive (sidesFollow k.missed (funcsTicked (tickJudged k s)))).safe) :
      sFunc t f = sFunc (outputsDrive (sidesFollow k.missed (funcsTicked (tickJudged k s)))) f := by
    unfold sFunc
    rw [ht]
  have hfunc (f : Nat) (hf : f < 2) : FuncAtTick k s t f := funcAtTick hs hf (hfuncs f (safe_of_rest hrest))
  generalize outputsDrive (sidesFollow k.missed (funcsTicked (tickJudged k s))) = u at hrest hbeside hch hmissed hpath
  have hsafe := safe_of_rest hrest
  refine ⟨t, hx, rest_of_besideSafety hrest (hbeside.trans (hturned.beside.trans hs.beside)), ?_, fun h => ?_, fun n hn => ?_, hfunc⟩
  · rw [hsafe, hmissed, hturned.missed, hs.missed]
  · rw [hsafe, hpath, hturned.path]
    exact hs.path h
  · have hch' : t.safe.ch = (tickJudged k s).safe.ch := by rw [hsafe, hch, hturned.ch]
    have e : (siAt t n).levels = _ := (congrArg (fun l : List SiCh => (l.getD n {}).levels) hch').trans (hs.raw n hn)
    exact ⟨congrArg (fun x => x.1) e, congrArg (fun x => x.2.1) e, congrArg (fun x => x.2.2) e⟩

end Sys2Proof.Machine
end

section
/-! PROOFS. Filtered inputs and reset pulses (16_safety.md R415, R419), and the statement about the safety tick. -/

namespace Sys2Proof.Machine

/-! ### A filtered level (R415) -/

theorem siAt_onSi {n : Nat} {s : State} (h : n < s.safe.ch.length) (f : SiCh → SiCh) : siAt (onSi n f s) n = f (siAt s n) := by
  show (s.safe.ch.modify n f).getD n {} = f (s.safe.ch.getD n {})
  simp [h]

theorem siAt_onSi_ne {n k : Nat} (h : k ≠ n) (f : SiCh → SiCh) (s : State) : siAt (onSi n f s) k = siAt s k := by
  show (s.safe.ch.modify n f).getD k {} = s.safe.ch.getD k {}
  simp [Ne.symm h]

theorem SiCh.on_upd_same (q : SafePath) (f : SiSeen → SiSeen) (x : SiCh) : (x.upd q f).on q = f (x.on q) := by cases q <;> rfl

theorem SiCh.on_upd_ne {q r : SafePath} (h : r ≠ q) (f : SiSeen → SiSeen) (x : SiCh) : (x.upd q f).on r = x.on r := by
  cases q <;> cases r
  · exact absurd rfl h
  · rfl
  · rfl
  · exact absurd rfl h

/-- A path's filtered state of a channel at a level. -/
def SiSeen.filtered (level : Bool) (now : Nat) (c : SiSeen) : SiSeen := { c with filt := level, rose := if level && !c.filt then now else c.rose }

/-- The channel with its new level. -/
def siSet (q : SafePath) (n : Nat) (level : Bool) (s : State) : State := onSi n (SiCh.upd q (SiSeen.filtered level s.mono)) s

theorem siFilter_of_level (q : SafePath) (n : Nat) (level : Bool) (s : State) :
    siFilter q n level s =
      if ((siAt s n).on q).filt && !level && (sPair s (n / 2)).mode == .reset then resetPulse q n (siSet q n level s) else siSet q n level s := by
  have e : onSi n (SiCh.upd q fun c => { c with filt := level, rose := if level && !((siAt s n).on q).filt then s.mono else c.rose }) s =
      siSet q n level s := by
    have hch : s.safe.ch.modify n (SiCh.upd q fun c => { c with filt := level, rose := if level && !((siAt s n).on q).filt then s.mono else c.rose }) =
        s.safe.ch.modify n (SiCh.upd q (SiSeen.filtered level s.mono)) := by
      refine modify_eq_of_at {} n ?_
      show (siAt s n).upd q _ = (siAt s n).upd q _
      cases q <;> rfl
    exact congrArg (fun l => onSafe (fun x => { x with ch := l }) s) hch
  unfold siFilter
  dsimp only
  rw [e]

/-! ### A reset pulse that falls (R419) -/

/-- What clears the pairs that no function names leaves. -/
def State.besidePairs (s : State) : State := { s with safe := { s.safe with pairs := [] } }

theorem clearUnnamed_besidePairs (q : SafePath) (s : State) : (clearUnnamed q s).besidePairs = s.besidePairs := by
  refine forAll_keeps State.besidePairs _ _ (fun p t => ?_) s
  exact keeps_ite State.besidePairs rfl rfl

/-- The cause for which a path rejects a reset pulse by its channel; 0 is none. -/
def pulseCause (ns : Nat) (fault : Bool) : Nat :=
  if ns < 100000000 then 1 else if 5000000000 < ns then 2 else if fault then 3 else 0

/-- A function that a reset input names has its edge. -/
def SafeFunc.edged (q : SafePath) (n ms : Nat) (f : SafeFunc) : SafeFunc :=
  if f.enabled && f.resetSi == n then (match q with
    | .chip => { f with edge := some ms }
    | .supervisor => { f with supEdge := true })
  else f

theorem resetPulse_eq (q : SafePath) (n : Nat) (s : State) : resetPulse q n s =
    (let ns := s.mono - ((siAt s n).on q).rose
     let ms := min (ns / 1000000) 65535
     if pulseCause ns ((siAt s n).on q).resetFault = 0 then
       clearUnnamed q (onSafe (fun x => { x with funcs := x.funcs.map (SafeFunc.edged q n ms) }) s)
     else if q = .supervisor then s
     else raise .safetyResetRejected .notice n n (pulseCause ns ((siAt s n).on q).resetFault) (ms * 65536 + 0xFF)
       (onSafe (fun x => { x with rejected := satInc 32 x.rejected }) s)) := rfl

theorem resetPulse_rejected {q : SafePath} {n cause : Nat} {s : State}
    (hc : pulseCause (s.mono - ((siAt s n).on q).rose) ((siAt s n).on q).resetFault = cause) (h0 : cause ≠ 0) :
    (q = .supervisor → resetPulse q n s = s) ∧ (q = .chip → resetPulse q n s =
      raise .safetyResetRejected .notice n n cause (min ((s.mono - ((siAt s n).on q).rose) / 1000000) 65535 * 65536 + 0xFF)
        (onSafe (fun x => { x with rejected := satInc 32 x.rejected }) s)) := by
  rw [resetPulse_eq]
  dsimp only
  rw [hc, if_neg h0]
  exact ⟨fun hq => if_pos hq, fun hq => if_neg (by rw [hq]; decide)⟩

theorem resetPulse_taken {q : SafePath} {n : Nat} {s : State}
    (hc : pulseCause (s.mono - ((siAt s n).on q).rose) ((siAt s n).on q).resetFault = 0) :
    (resetPulse q n s).besidePairs = { s with safe := { s.safe with
      funcs := s.safe.funcs.map (SafeFunc.edged q n (min ((s.mono - ((siAt s n).on q).rose) / 1000000) 65535)), pairs := [] } } := by
  rw [resetPulse_eq]
  dsimp only
  rw [if_pos hc]
  exact (clearUnnamed_besidePairs q _).trans rfl

theorem siSet_seen {q : SafePath} {n : Nat} {s : State} (hn : n < s.safe.ch.length) :
    (siAt (siSet q n false s) n).on q = { (siAt s n).on q with filt := false } := by
  rw [siSet, siAt_onSi hn, SiCh.on_upd_same]
  rfl

/-- What a reset pulse leaves: all but the safety function's pairs, edges and count, and the recorder. -/
theorem resetPulse_frame (q : SafePath) (n : Nat) (s : State) :
    (resetPulse q n s).safe.ch = s.safe.ch ∧ { resetPulse q n s with safe := s.safe, log := s.log } = s := by
  by_cases hc : pulseCause (s.mono - ((siAt s n).on q).rose) ((siAt s n).on q).resetFault = 0
  · have h := resetPulse_taken hc
    refine ⟨?_, ?_⟩
    · have e := congrArg (fun x : State => x.safe.ch) h
      exact e
    · have e := congrArg (fun x : State => { x with safe := s.safe, log := s.log }) h
      exact e
  · obtain ⟨h1, h2⟩ := resetPulse_rejected rfl hc
    cases q with
    | chip => rw [h2 rfl]; exact ⟨rfl, rfl⟩
    | supervisor => rw [h1 rfl]; exact ⟨rfl, rfl⟩

/-- What the statement says of a reset pulse that falls on a path. -/
def ResetPulse (q : SafePath) (n : Nat) (s t : State) : Prop :=
  let ns := s.mono - ((siAt s n).on q).rose
  let ms := min (ns / 1000000) 65535
  let reject := fun cause => t.safe.funcs = s.safe.funcs ∧
    (q = .chip → t.log = (raise .safetyResetRejected .notice n n cause (ms * 65536 + 0xFF) s).log ∧
      t.safe.rejected = satInc 32 s.safe.rejected) ∧
    (q = .supervisor → t.log = s.log ∧ t.safe.rejected = s.safe.rejected)
  (ns < 100000000 → reject 1) ∧
  (5000000000 < ns → reject 2) ∧
  (100000000 ≤ ns → ns ≤ 5000000000 →
    (((siAt s n).on q).resetFault = true → reject 3) ∧
    (((siAt s n).on q).resetFault = false → t.log = s.log ∧
      ∀ f, (sFunc s f).enabled = true → (sFunc s f).resetSi = n →
        (q = .chip → (sFunc t f).edge = some ms) ∧ (q = .supervisor → (sFunc t f).supEdge = true)))

theorem sFunc_map {s u : State} {f : SafeFunc → SafeFunc} (h : u.safe.funcs = s.safe.funcs.map f) {k : Nat} (hk : k < s.safe.funcs.length) :
    sFunc u k = f (sFunc s k) := by
  unfold sFunc
  rw [h]
  simp [hk]

theorem funcs_length_of_enabled {s : State} {f : Nat} (h : (sFunc s f).enabled = true) : f < s.safe.funcs.length := by
  by_contra hf
  unfold sFunc at h
  rw [List.getD_eq_default _ _ (Nat.le_of_not_lt hf)] at h
  cases h

theorem resetPulse_told {q : SafePath} {n : Nat} {s t : State} (hn : n < s.safe.ch.length)
    (hsafe : t.safe = (resetPulse q n (siSet q n false s)).safe) (hlog : t.log = (resetPulse q n (siSet q n false s)).log) :
    ResetPulse q n s t := by
  have hseen := siSet_seen (q := q) hn
  have hrose : ((siAt (siSet q n false s) n).on q).rose = ((siAt s n).on q).rose := by rw [hseen]
  have hfault : ((siAt (siSet q n false s) n).on q).resetFault = ((siAt s n).on q).resetFault := by rw [hseen]
  have hreject (cause : Nat) (h0 : cause ≠ 0)
      (hc : pulseCause (s.mono - ((siAt s n).on q).rose) ((siAt s n).on q).resetFault = cause) :
      t.safe.funcs = s.safe.funcs ∧
      (q = .chip → t.log = (raise .safetyResetRejected .notice n n cause
          (min ((s.mono - ((siAt s n).on q).rose) / 1000000) 65535 * 65536 + 0xFF) s).log ∧ t.safe.rejected = satInc 32 s.safe.rejected) ∧
      (q = .supervisor → t.log = s.log ∧ t.safe.rejected = s.safe.rejected) := by
    obtain ⟨h1, h2⟩ := resetPulse_rejected (q := q) (n := n) (s := siSet q n false s) (by rw [hrose, hfault]; exact hc) h0
    rw [hrose] at h2
    rw [hsafe, hlog]
    cases q with
    | chip =>
      rw [h2 rfl]
      refine ⟨rfl, fun _ => ⟨?_, rfl⟩, nofun⟩
      exact raise_log .safetyResetRejected .notice n n cause _ _ s rfl rfl
    | supervisor =>
      rw [h1 rfl]
      exact ⟨rfl, nofun, fun _ => ⟨rfl, rfl⟩⟩
  refine ⟨fun h => hreject 1 (by decide) ?_, fun h => hreject 2 (by decide) ?_, fun h1 h2 => ⟨fun hf => hreject 3 (by decide) ?_, fun hf => ?_⟩⟩
  · exact if_pos h
  · exact (if_neg (by omega)).trans (if_pos h)
  · exact (if_neg (by omega)).trans ((if_neg (by omega)).trans (if_pos hf))
  · have hc : pulseCause (s.mono - ((siAt s n).on q).rose) ((siAt s n).on q).resetFault = 0 :=
      (if_neg (by omega)).trans ((if_neg (by omega)).trans (if_neg (by rw [hf]; decide)))
    have h := resetPulse_taken (q := q) (n := n) (s := siSet q n false s) (by rw [hrose, hfault]; exact hc)
    rw [hrose] at h
    have hl := congrArg (fun x : State => x.log) h
    have hfuncs := congrArg (fun x : State => x.safe.funcs) h
    refine ⟨hlog.trans hl, fun f hen hsi => ?_⟩
    have e := sFunc_map (s := s) (u := t) ((congrArg Safe.funcs hsafe).trans hfuncs) (funcs_length_of_enabled hen)
    have hnamed : ((sFunc s f).enabled && (sFunc s f).resetSi == n) = true := by rw [hen, hsi]; simp
    rw [e]
    unfold SafeFunc.edged
    rw [if_pos hnamed]
    cases q with
    | chip => exact ⟨fun _ => rfl, nofun⟩
    | supervisor => exact ⟨nofun, fun _ => rfl⟩

theorem siFilter_outcome {q : SafePath} {n : Nat} {level : Bool} {s : State} (hr : railsOn s = true) (hn : n < s.safe.ch.length)
    (hfed : level = true → fedOff s n = false) :
    ∃ t, exec (.siFilter q n level) s = .next t ∧
      siAt t n = SiCh.upd q (SiSeen.filtered level s.mono) (siAt s n) ∧
      (∀ m, m ≠ n → siAt t m = siAt s m) ∧ { t with safe := s.safe, log := s.log }.rest = s.rest ∧
      (level = true ∨ ((siAt s n).on q).filt = false ∨ (sPair s (n / 2)).mode ≠ .reset →
        t.safe = { s.safe with ch := t.safe.ch } ∧ t.log = s.log) ∧
      (((siAt s n).on q).filt = true → level = false → (sPair s (n / 2)).mode = .reset → ResetPulse q n s t) := by
  obtain ⟨t, hx, hrest⟩ := answer_settled s (siFilter q n level s)
  have hgo : (railsOn s && !(level && fedOff s n)) = true := by
    rw [hr]
    cases level with
    | false => rfl
    | true => rw [hfed rfl]; rfl
  have hexec : exec (.siFilter q n level) s = .next t := (congrArg answer (if_pos hgo)).trans hx
  rw [siFilter_of_level] at hrest
  have hsafe := safe_of_rest hrest
  have hlog := log_of_rest hrest
  have hframe (u : State) (hu : { u with safe := s.safe, log := s.log } = s) (ht : t.rest = u.rest) :
      { t with safe := s.safe, log := s.log }.rest = s.rest := by
    have e := congrArg (fun x : State => { x with safe := s.rest.safe, log := s.rest.log }) ht
    have e' := congrArg State.rest hu
    exact Eq.trans e e'
  have hset : siAt (siSet q n level s) n = SiCh.upd q (SiSeen.filtered level s.mono) (siAt s n) := siAt_onSi hn _
  have hother (m : Nat) (hm : m ≠ n) : siAt (siSet q n level s) m = siAt s m := siAt_onSi_ne hm _ s
  have hat {u : State} (hu : u.safe.ch = (siSet q n level s).safe.ch) (ht : t.safe = u.safe) (m : Nat) :
      siAt t m = siAt (siSet q n level s) m := by
    unfold siAt
    rw [ht, hu]
  split at hrest
  · next hc =>
    rw [if_pos hc] at hsafe hlog
    simp only [Bool.and_eq_true, Bool.not_eq_true', beq_iff_eq] at hc
    obtain ⟨⟨hfilt, hlevel⟩, hmode⟩ := hc
    obtain ⟨hch, hfr⟩ := resetPulse_frame q n (siSet q n level s)
    refine ⟨t, hexec, (hat hch hsafe n).trans hset, fun m hm => (hat hch hsafe m).trans (hother m hm), hframe _ ?_ hrest, fun h => ?_, fun _ _ _ => ?_⟩
    · have e := congrArg (fun x : State => { x with safe := s.safe, log := s.log }) hfr
      exact e
    · obtain h | h | h := h
      · exact absurd (hlevel.symm.trans h) (by decide)
      · exact absurd (hfilt.symm.trans h) (by decide)
      · exact absurd hmode h
    · subst hlevel
      exact resetPulse_told hn hsafe hlog
  · next hc =>
    rw [if_neg hc] at hsafe hlog
    refine ⟨t, hexec, (hat rfl hsafe n).trans hset, fun m hm => (hat rfl hsafe m).trans (hother m hm), hframe (siSet q n level s) rfl hrest, fun _ => ⟨?_, hlog⟩,
      fun h1 h2 h3 => absurd ?_ hc⟩
    · rw [hsafe]
      rfl
    · rw [h1, h2, h3]
      rfl

/-- Settles O37, a tick and a filtered input. -/
theorem safetyTicksOpenTheBrake : Obligations.SafetyTicksOpenTheBrake := by
  intro s hr
  exact ⟨fun k hd => safetyTick_outcome hr hd, fun q n level hn hfed => siFilter_outcome hr hn hfed⟩

end Sys2Proof.Machine
end

section
/-! PROOFS. Safe brake outputs: static tests, phases and checks (16_safety.md R413, R420, R423 to R426, R430). -/

namespace Sys2Proof.Machine

/-! ### An update of one function -/

/-- What follows reads nothing of the safety function. -/
theorem follow_of_safe (s : State) (x : Safe) : { follow { s with safe := x } with safe := s.safe } = follow s := rfl

theorem sFunc_of_onSFunc {s : State} {n : Nat} (hn : n < s.safe.funcs.length) (f : SafeFunc → SafeFunc) :
    { follow (onSFunc n f s) with safe := s.safe } = follow s ∧ sFunc (follow (onSFunc n f s)) n = f (sFunc s n) ∧
      ∀ g, g ≠ n → sFunc (follow (onSFunc n f s)) g = sFunc s g :=
  ⟨rfl, sFunc_onSFunc hn f, fun _ hg => sFunc_onSFunc_ne hg f s⟩

theorem whileReleased_of_released {n : Nat} {s : State} (h : (sFunc s n).st = .released) (f : SafeFunc → SafeFunc) :
    whileReleased n f s = onSFunc n f s := if_pos (by rw [h]; rfl)

theorem sFunc_outputsDrive (s : State) (f : Nat) : sFunc (outputsDrive s) f = (sFunc s f).drive ((fieldGroup s 4).st == .low) :=
  getD_map (SafeFunc.drive ((fieldGroup s 4).st == .low)) s.safe.funcs f {}

theorem drive_beside (low : Bool) (f : SafeFunc) : { f.drive low with duty := 0 } = { f with duty := 0 } := rfl

section
variable {s : State} {f : Nat}

theorem holdPhase_outcome (h : (sFunc s f).st = .released) (hstood : (sFunc s f).stood (sFunc s f).releaseMs s = true) :
    ∃ t, exec (.sbcHoldPhase f) s = .next t ∧ { t with safe := s.safe } = follow s ∧
      sFunc t f = ({ sFunc s f with holdPhase := true }).drive ((fieldGroup s 4).st == FieldState.low) ∧
      ∀ g, g ≠ f → { sFunc t g with duty := 0 } = { sFunc s g with duty := 0 } := by
  have hn := funcs_length_of_st (n := f) (s := s) (by rw [h]; decide)
  have hx : exec (.sbcHoldPhase f) s = answer (outputsDrive (onSFunc f (fun x => { x with holdPhase := true }) s)) := by
    refine congrArg answer ((if_pos hstood).trans ?_)
    rw [whileReleased_of_released h]
  have hframe : ∃ x, outputsDrive (onSFunc f (fun x => { x with holdPhase := true }) s) = { s with safe := x } := ⟨_, rfl⟩
  have hat := sFunc_outputsDrive (onSFunc f (fun x => { x with holdPhase := true }) s) f
  have hother (g : Nat) := sFunc_outputsDrive (onSFunc f (fun x => { x with holdPhase := true }) s) g
  rw [sFunc_onSFunc hn] at hat
  generalize outputsDrive (onSFunc f (fun x => { x with holdPhase := true }) s) = u at hx hframe hat hother
  obtain ⟨x, rfl⟩ := hframe
  refine ⟨_, hx, follow_of_safe s x, hat, fun g hg => ?_⟩
  have e := hother g
  rw [sFunc_onSFunc_ne hg] at e
  exact congrArg (fun x : SafeFunc => { x with duty := 0 }) e

/-- A function whose current has been judged against MIN_MA. -/
def SafeFunc.judgedLow (x : SafeFunc) : SafeFunc := { x with openLoad := x.openLoad || decide (200 ≤ x.lowTicks) }

/-- A function whose current has been judged against 3.0 A. -/
def SafeFunc.judgedOver (x : SafeFunc) : SafeFunc := { x with overNow := x.overNow || decide (20 ≤ x.overTicks) }

theorem SafeFunc.judgedLow_of {x : SafeFunc} (h : 200 ≤ x.lowTicks) : x.judgedLow = { x with openLoad := true } := by
  rw [SafeFunc.judgedLow, decide_eq_true h, Bool.or_true]

theorem SafeFunc.judgedOver_of {x : SafeFunc} (h : 20 ≤ x.overTicks) : x.judgedOver = { x with overNow := true } := by
  rw [SafeFunc.judgedOver, decide_eq_true h, Bool.or_true]

theorem openLoad_outcome (h : (sFunc s f).st = .released) (hlow : 200 ≤ (sFunc s f).lowTicks) :
    ∃ t, exec (.sbcOpenLoad f) s = .next t ∧ { t with safe := s.safe } = follow s ∧
      sFunc t f = { sFunc s f with openLoad := true } ∧ ∀ g, g ≠ f → sFunc t g = sFunc s g := by
  have hn := funcs_length_of_st (n := f) (s := s) (by rw [h]; decide)
  obtain ⟨h1, h2, h3⟩ := sFunc_of_onSFunc hn SafeFunc.judgedLow
  exact ⟨_, congrArg answer (whileReleased_of_released h _), h1, h2.trans (SafeFunc.judgedLow_of hlow), h3⟩

theorem overload_outcome (h : (sFunc s f).st = .released) (hover : 20 ≤ (sFunc s f).overTicks) :
    ∃ t, exec (.sbcOverload f) s = .next t ∧ { t with safe := s.safe } = follow s ∧
      sFunc t f = { sFunc s f with overNow := true } ∧ ∀ g, g ≠ f → sFunc t g = sFunc s g := by
  have hn := funcs_length_of_st (n := f) (s := s) (by rw [h]; decide)
  obtain ⟨h1, h2, h3⟩ := sFunc_of_onSFunc hn SafeFunc.judgedOver
  exact ⟨_, congrArg answer (whileReleased_of_released h _), h1, h2.trans (SafeFunc.judgedOver_of hover), h3⟩

theorem darkTest_stuck (high : Bool) (f : SafeFunc) :
    (1 ≤ (if high then f.darkHs else f.darkLs) → (darkTest high false f).stuck = true) ∧ (darkTest high true f).stuck = f.stuck := by
  refine ⟨fun h => ?_, ?_⟩
  · unfold darkTest
    cases high
    · simpa using .inr h
    · simpa using .inr h
  · unfold darkTest
    cases high <;> simp

theorem darkTest_outcome (h : (sFunc s f).st = .released) (high ok : Bool) :
    ∃ t, exec (.sbcDarkTest f high ok) s = .next t ∧ { t with safe := s.safe } = follow s ∧
      sFunc t f = darkTest high ok (sFunc s f) ∧
      (ok = false → 1 ≤ (if high then (sFunc s f).darkHs else (sFunc s f).darkLs) → (sFunc t f).stuck = true) ∧
      (ok = true → (sFunc t f).stuck = (sFunc s f).stuck) := by
  have hn := funcs_length_of_st (n := f) (s := s) (by rw [h]; decide)
  obtain ⟨h1, h2, -⟩ := sFunc_of_onSFunc hn (darkTest high ok)
  obtain ⟨hbad, hgood⟩ := darkTest_stuck high (sFunc s f)
  refine ⟨_, congrArg answer (whileReleased_of_released h _), h1, h2, fun hok hrun => ?_, fun hok => ?_⟩
  · rw [h2, hok]
    exact hbad hrun
  · rw [h2, hok]
    exact hgood

theorem offCheck_outcome (hn : f < s.safe.funcs.length) (hoff : (sFunc s f).sbcOn = false) (hticks : 20 ≤ (sFunc s f).offTicks) :
    ∃ t, exec (.sbcOffCheck f) s = .next t ∧ { t with safe := s.safe } = follow s ∧
      sFunc t f = { sFunc s f with stuck := true } ∧ ∀ g, g ≠ f → sFunc t g = sFunc s g := by
  obtain ⟨h1, h2, h3⟩ := sFunc_of_onSFunc hn (fun x => { x with stuck := true })
  exact ⟨_, congrArg answer (if_pos (by rw [hoff, decide_eq_true hticks]; rfl)), h1, h2, h3⟩

end

theorem groupFResume_outcome (s : State) : ∃ t, exec .groupFResume s = .next t ∧
    t.safe = { s.safe with resumed := !fDead s && (s.safe.resumed || decide (s.safe.normalAt + 100000000 ≤ s.mono)) } ∧
    { t with safe := s.safe } = follow s := ⟨_, rfl, rfl, rfl⟩

/-! ### Overloads of a test pulse (R418) -/

theorem rest_of_safe {s t u : State} (hrest : t.rest = u.rest) (h : { u with safe := s.safe } = s) : { t with safe := s.safe }.rest = s.rest := by
  have e := congrArg (fun x : State => { x with safe := s.rest.safe }) hrest
  have e' := congrArg State.rest h
  exact Eq.trans e e'

theorem pulseRetry_outcome {s : State} {tp : Nat} (h : (if tp = 0 then s.safe.tpOffAt0 else s.safe.tpOffAt1) + 1000000000 ≤ s.mono) :
    ∃ t, exec (.tpOverloadRetry tp) s = .next t ∧
      t.safe = (if tp = 0 then { s.safe with tpOver0 := false } else { s.safe with tpOver1 := false }) ∧
      { t with safe := s.safe }.rest = s.rest := by
  obtain ⟨t, hx, hrest⟩ := answer_settled s (pulseRetry tp s)
  have he : pulseRetry tp s = onSafe (fun x => if tp = 0 then { x with tpOver0 := false } else { x with tpOver1 := false }) s :=
    if_neg (Nat.not_lt.mpr h)
  rw [he] at hrest
  exact ⟨t, hx, safe_of_rest hrest, rest_of_safe hrest rfl⟩

/-- A latch changes one pair and the count of DISCREPANCY alone. -/
theorem latchPair_frame (q : SafePath) (p : Nat) (new : PairFaults) (s : State) :
    { latchPair q p new s with safe := s.safe } = s ∧ (latchPair q p new s).safe.funcs = s.safe.funcs ∧
      (latchPair q p new s).safe.ch = s.safe.ch ∧ (latchPair q p new s).safe.pairs.length = s.safe.pairs.length ∧
      (∀ k, k ≠ p → sPair (latchPair q p new s) k = sPair s k) := by
  unfold latchPair
  dsimp only
  split
  · exact ⟨rfl, rfl, rfl, rfl, fun _ _ => rfl⟩
  · split
    · exact ⟨rfl, rfl, rfl, List.length_modify _ _ _, fun k hk => sPair_onSPair_ne hk _ _⟩
    · exact ⟨rfl, rfl, rfl, List.length_modify _ _ _, fun k hk => sPair_onSPair_ne hk _ _⟩

/-- A latch joins the new faults of the path to the pair's. -/
theorem latchPair_pair {q : SafePath} {p : Nat} {new : PairFaults} {s : State} (hp : p < s.safe.pairs.length) :
    ((sPair (latchPair q p new s) p).on q).faults = ((sPair s p).on q).faults.join new ∧
      (∀ r, r ≠ q → (sPair (latchPair q p new s) p).on r = (sPair s p).on r) ∧
      (sPair (latchPair q p new s) p).mode = (sPair s p).mode ∧ (sPair (latchPair q p new s) p).test = (sPair s p).test := by
  have hset (u : State) (hu : u.safe.pairs = s.safe.pairs) (f : PairSeen → PairSeen) (hf : (f ((sPair s p).on q)).faults = ((sPair s p).on q).faults.join new) :
      ((sPair (onSPair p (SiPair.upd q f) u) p).on q).faults = ((sPair s p).on q).faults.join new ∧
      (∀ r, r ≠ q → (sPair (onSPair p (SiPair.upd q f) u) p).on r = (sPair s p).on r) ∧
      (sPair (onSPair p (SiPair.upd q f) u) p).mode = (sPair s p).mode ∧ (sPair (onSPair p (SiPair.upd q f) u) p).test = (sPair s p).test := by
    have e : sPair u p = sPair s p := by
      unfold sPair
      rw [hu]
    rw [sPair_onSPair (by rw [hu]; exact hp), e]
    refine ⟨by rw [SiPair.on_upd_same]; exact hf, fun r hr => SiPair.on_upd_ne hr f _, SiPair.upd_mode q f _, ?_⟩
    cases q <;> rfl
  unfold latchPair
  dsimp only
  split
  · next h => exact ⟨h.symm, fun _ _ => rfl, rfl, rfl⟩
  · split
    · exact hset _ rfl _ rfl
    · exact hset _ rfl _ rfl

theorem pairs_length_of_test {s : State} {p : Nat} (h : (sPair s p).test = true) : p < s.safe.pairs.length := by
  by_contra hp
  unfold sPair at h
  rw [List.getD_eq_default _ _ (Nat.le_of_not_lt hp)] at h
  cases h

/-- Steps that each change what is theirs alone. -/
theorem forAll_each {α : Type} (own : Nat → State → α) (R : Nat → α → α → Prop) {f : Nat → State → State}
    (hne : ∀ n s k, k ≠ n → own k (f n s) = own k s) (hR : ∀ n s, R n (own n s) (own n (f n s))) {l : List Nat} (hl : l.Nodup) (s : State) :
    ∀ k ∈ l, R k (own k s) (own k (forAll l f s)) := by
  have hkeep (l : List Nat) (s : State) (k : Nat) (hk : k ∉ l) : own k (forAll l f s) = own k s := by
    induction l generalizing s with
    | nil => rfl
    | cons n l ih =>
      exact (ih (f n s) fun h => hk (List.mem_cons_of_mem n h)).trans (hne n s k fun e => hk (e ▸ List.mem_cons_self ..))
  induction l generalizing s with
  | nil => nofun
  | cons n l ih =>
    obtain ⟨hn, hl⟩ := List.nodup_cons.mp hl
    intro k hk
    obtain rfl | hk := List.mem_cons.mp hk
    · have e : own k (forAll (k :: l) f s) = own k (f k s) := hkeep l (f k s) k hn
      rw [e]
      exact hR k s
    · have h := ih hl (f n s) k hk
      rw [hne n s k fun e => hn (e ▸ hk)] at h
      exact h

/-- The overload of a test pulse, latched by a pair with TEST. -/
def overloaded (tp : Nat) : PairFaults := if tp = 0 then { over0 := true } else { over1 := true }

theorem PairFaults.overload_join (a : PairFaults) (tp : Nat) : (a.join (overloaded tp)).overload = true := by
  unfold overloaded PairFaults.join PairFaults.overload
  split <;> simp

/-- A pair with TEST latches the overload. -/
def latchOver (tp p : Nat) (s : State) : State := if (sPair s p).test then latchPair .chip p (overloaded tp) s else s

/-- An output that is found overloaded. -/
def pulseOver (tp : Nat) (s : State) : State :=
  onSafe (fun x => if tp = 0 then { x with tpOver0 := true, tpOffAt0 := s.mono } else { x with tpOver1 := true, tpOffAt1 := s.mono }) s

theorem pulseOver_pair (tp p : Nat) (s : State) : sPair (pulseOver tp s) p = sPair s p := by
  unfold pulseOver sPair
  rw [onSafe_safe]
  split <;> rfl

/-- The clears of a channel start afresh. -/
def clearsAfresh (tp : Nat) (s : State) : State :=
  onSafe (fun x => { x with ch := x.ch.mapIdx fun n c =>
    if n % 2 = tp then { c with chip := { c.chip with tpClear := 0 }, sup := { c.sup with tpClear := 0 } } else c }) s

theorem pulseOverload_of_present {tp : Nat} {s : State} (h : s.safe.present = true) (hen : (if tp = 0 then s.safe.tpEn0 else s.safe.tpEn1) = true)
    (hd : fDead s = false) : pulseOverload tp s = clearsAfresh tp (forAll [0, 1, 2, 3] (latchOver tp) (pulseOver tp s)) :=
  if_pos (by rw [h, hen, hd]; rfl)

theorem latchOver_frame (tp p : Nat) (s : State) :
    { latchOver tp p s with safe := s.safe } = s ∧ (latchOver tp p s).safe.tpOver0 = s.safe.tpOver0 ∧
      (latchOver tp p s).safe.tpOver1 = s.safe.tpOver1 := by
  unfold latchOver latchPair
  dsimp only
  split
  · split
    · exact ⟨rfl, rfl, rfl⟩
    · split <;> exact ⟨rfl, rfl, rfl⟩
  · exact ⟨rfl, rfl, rfl⟩

theorem latchOver_pair (tp p : Nat) (s : State) : ((sPair s p).test = true → (sPair (latchOver tp p s) p).chip.faults.overload = true) ∧
    ((sPair s p).test = false → sPair (latchOver tp p s) p = sPair s p) := by
  unfold latchOver
  refine ⟨fun h => ?_, fun h => by rw [if_neg (by rw [h]; decide)]⟩
  rw [if_pos h]
  obtain ⟨hf, -⟩ := latchPair_pair (q := .chip) (new := overloaded tp) (pairs_length_of_test h)
  exact (congrArg PairFaults.overload hf).trans (PairFaults.overload_join _ tp)

theorem latchOver_ne {tp p k : Nat} (hk : k ≠ p) (s : State) : sPair (latchOver tp p s) k = sPair s k := by
  obtain ⟨-, -, -, -, hne⟩ := latchPair_frame .chip p (overloaded tp) s
  exact keeps_ite (fun u : State => sPair u k) (hne k hk) rfl

theorem tpOverload_outcome {s : State} {tp : Nat} (h : s.safe.present = true) (hen : (if tp = 0 then s.safe.tpEn0 else s.safe.tpEn1) = true)
    (hd : fDead s = false) :
    ∃ t, exec (.tpOverload tp) s = .next t ∧ (if tp = 0 then t.safe.tpOver0 else t.safe.tpOver1) = true ∧
      (∀ p < 4, (sPair s p).test = true → (sPair t p).chip.faults.overload = true) ∧
      (∀ p < 4, (sPair s p).test = false → sPair t p = sPair s p) ∧ { t with safe := s.safe }.rest = s.rest := by
  obtain ⟨t, hx, hrest⟩ := answer_settled s (pulseOverload tp s)
  rw [pulseOverload_of_present h hen hd] at hrest
  have hall := forAll_each (fun p u => sPair u p)
    (fun _ x y => (x.test = true → y.chip.faults.overload = true) ∧ (x.test = false → y = x))
    (fun p u k hk => latchOver_ne hk u) (latchOver_pair tp) (l := [0, 1, 2, 3]) (by decide) (pulseOver tp s)
  have hframe : (fun u : State => ({ u with safe := s.safe }, u.safe.tpOver0, u.safe.tpOver1)) (forAll [0, 1, 2, 3] (latchOver tp) (pulseOver tp s)) =
      (s, (pulseOver tp s).safe.tpOver0, (pulseOver tp s).safe.tpOver1) := by
    refine (forAll_keeps (fun u : State => ({ u with safe := s.safe }, u.safe.tpOver0, u.safe.tpOver1)) _ _ (fun p u => ?_) _).trans rfl
    obtain ⟨h1, h2, h3⟩ := latchOver_frame tp p u
    have h1' := congrArg (fun x : State => { x with safe := s.safe }) h1
    exact Prod.ext h1' (Prod.ext h2 h3)
  generalize forAll [0, 1, 2, 3] (latchOver tp) (pulseOver tp s) = u at hrest hall hframe
  have hpair (p : Nat) : sPair t p = sPair u p := by
    unfold sPair
    rw [safe_of_rest hrest]
    rfl
  have hmem (p : Nat) (hp : p < 4) : p ∈ [0, 1, 2, 3] := by
    obtain rfl | rfl | rfl | rfl : p = 0 ∨ p = 1 ∨ p = 2 ∨ p = 3 := by omega
    all_goals decide
  refine ⟨t, hx, ?_, fun p hp ht => ?_, fun p hp ht => ?_, rest_of_safe hrest ?_⟩
  · have h0 : u.safe.tpOver0 = (pulseOver tp s).safe.tpOver0 := congrArg (fun x => x.2.1) hframe
    have h1 : u.safe.tpOver1 = (pulseOver tp s).safe.tpOver1 := congrArg (fun x => x.2.2) hframe
    rw [safe_of_rest hrest]
    show (if tp = 0 then u.safe.tpOver0 else u.safe.tpOver1) = true
    rw [h0, h1]
    by_cases ht : tp = 0
    · simp [pulseOver, ht]
    · simp [pulseOver, ht]
  · rw [hpair]
    exact (hall p (hmem p hp)).1 (by rw [pulseOver_pair]; exact ht)
  · rw [hpair]
    exact ((hall p (hmem p hp)).2 (by rw [pulseOver_pair]; exact ht)).trans (pulseOver_pair tp p s)
  · exact congrArg (fun x => x.1) hframe

end Sys2Proof.Machine
end

section
/-! PROOFS. The drop of a test pulse (16_safety.md R418, R419). -/

namespace Sys2Proof.Machine

/-! ### One pair in a drop, as a path sees it -/

/-- What a path checks of a pair in a drop. -/
structure DropView where
  first  : SiSeen
  second : SiSeen
  faults : PairFaults
  mode   : PairMode
  test   : Bool
  chans  : Nat
  pairs  : Nat

/-- A pair as a path sees it. -/
def dropView (q : SafePath) (p : Nat) (s : State) : DropView where
  first  := (siAt s (2 * p)).on q
  second := (siAt s (2 * p + 1)).on q
  faults := ((sPair s p).on q).faults
  mode   := (sPair s p).mode
  test   := (sPair s p).test
  chans  := s.safe.ch.length
  pairs  := s.safe.pairs.length

/-- A channel checked in a drop of its own test pulse. -/
def SiSeen.ownChecked (reset level : Bool) (c : SiSeen) : SiSeen :=
  let hit := level && !c.otherLow
  let run := if hit then min (c.tpRun + 1) 2 else 0
  let clr := if hit then 0 else min (c.tpClear + 1) 2
  { c with tpRun := run, tpClear := clr
           resetFault := reset && (if run = 2 then true else if clr = 2 then false else c.resetFault) }

/-- A channel checked in a drop of the other test pulse. -/
def SiSeen.otherChecked (level : Bool) (c : SiSeen) : SiSeen :=
  let hit := !level && c.filt
  { c with otherLow := !level, crossRun := if hit then min (c.crossRun + 1) 2 else 0
           crossClear := if hit then 0 else min (c.crossClear + 1) 2 }

/-- The faults of a pair once its own channel has been checked. -/
def PairFaults.afterOwn (c : SiSeen) (x : PairFaults) : PairFaults := if c.tpRun = 2 then x.join { tpFault := true } else x

/-- The faults of a pair once its other channel has been checked. -/
def PairFaults.afterOther (c : SiSeen) (x : PairFaults) : PairFaults := if c.crossRun = 2 then x.join { cross := true } else x

theorem siAt_other {s u : State} {n : Nat} (h : ∀ k, k ≠ n → siAt u k = siAt s k) {k : Nat} (hk : k ≠ n) (q : SafePath) :
    (siAt u k).on q = (siAt s k).on q := by rw [h k hk]

/-- A check of a channel: the channel and its pair change on that path alone. -/
structure Checked (q : SafePath) (n : Nat) (s u : State) : Prop where
  frame  : { u with safe := s.safe } = s
  funcs  : u.safe.funcs = s.safe.funcs
  chans  : u.safe.ch.length = s.safe.ch.length
  pairs  : u.safe.pairs.length = s.safe.pairs.length
  ch     : ∀ k, k ≠ n → siAt u k = siAt s k
  chPath : ∀ r, r ≠ q → (siAt u n).on r = (siAt s n).on r
  pair   : ∀ k, k ≠ n / 2 → sPair u k = sPair s k
  path   : ∀ r, r ≠ q → (sPair u (n / 2)).on r = (sPair s (n / 2)).on r
  mode   : (sPair u (n / 2)).mode = (sPair s (n / 2)).mode
  test   : (sPair u (n / 2)).test = (sPair s (n / 2)).test

theorem Checked.trans {q : SafePath} {n : Nat} {s u v : State} (h : Checked q n s u) (h' : Checked q n u v) : Checked q n s v where
  frame := by
    have e := congrArg (fun x : State => { x with safe := s.safe }) h'.frame
    exact Eq.trans e h.frame
  funcs := h'.funcs.trans h.funcs
  chans := h'.chans.trans h.chans
  pairs := h'.pairs.trans h.pairs
  ch k hk := (h'.ch k hk).trans (h.ch k hk)
  chPath r hr := (h'.chPath r hr).trans (h.chPath r hr)
  pair k hk := (h'.pair k hk).trans (h.pair k hk)
  path r hr := (h'.path r hr).trans (h.path r hr)
  mode := h'.mode.trans h.mode
  test := h'.test.trans h.test

theorem checked_refl (q : SafePath) (n : Nat) (s : State) : Checked q n s s :=
  ⟨rfl, rfl, rfl, rfl, fun _ _ => rfl, fun _ _ => rfl, fun _ _ => rfl, fun _ _ => rfl, rfl, rfl⟩

theorem checked_onSi (q : SafePath) (n : Nat) (f : SiSeen → SiSeen) (s : State) : Checked q n s (onSi n (SiCh.upd q f) s) where
  frame := rfl
  funcs := rfl
  chans := List.length_modify _ _ _
  pairs := rfl
  ch k hk := siAt_onSi_ne hk _ s
  chPath r hr := by
    by_cases hn : n < s.safe.ch.length
    · rw [siAt_onSi hn, SiCh.on_upd_ne hr]
    · have e : s.safe.ch.modify n (SiCh.upd q f) = s.safe.ch := by
        rw [List.modify_eq_set_getElem?, List.getElem?_eq_none (by omega)]
        rfl
      show ((s.safe.ch.modify n (SiCh.upd q f)).getD n {}).on r = _
      rw [e]
      rfl
  pair _ _ := rfl
  path _ _ := rfl
  mode := rfl
  test := rfl

theorem checked_latchPair (q : SafePath) (n : Nat) (new : PairFaults) (s : State) (hp : n / 2 < s.safe.pairs.length) :
    Checked q n s (latchPair q (n / 2) new s) := by
  obtain ⟨hframe, hfuncs, hch, hpairs, hne⟩ := latchPair_frame q (n / 2) new s
  obtain ⟨-, hpath, hmode, htest⟩ := latchPair_pair (q := q) (new := new) hp
  have hsi (k : Nat) : siAt (latchPair q (n / 2) new s) k = siAt s k := by
    unfold siAt
    rw [hch]
  exact ⟨hframe, hfuncs, by rw [hch], hpairs, fun k _ => hsi k, fun r _ => by rw [hsi], hne, hpath, hmode, htest⟩

/-- A checked channel whose failures in a row make two latches its fault. -/
theorem checked_then_latch {q : SafePath} {n : Nat} {s u : State} {c : SiSeen} (h : Checked q n s u) (hp : n / 2 < s.safe.pairs.length)
    (hpair : sPair u (n / 2) = sPair s (n / 2)) (hc : (siAt u n).on q = c) (new : PairFaults) {two : Prop} [Decidable two] :
    Checked q n s (if two then latchPair q (n / 2) new u else u) ∧
      (siAt (if two then latchPair q (n / 2) new u else u) n).on q = c ∧
      ((sPair (if two then latchPair q (n / 2) new u else u) (n / 2)).on q).faults =
        if two then ((sPair s (n / 2)).on q).faults.join new else ((sPair s (n / 2)).on q).faults := by
  have hpu : n / 2 < u.safe.pairs.length := by rw [h.pairs]; exact hp
  split
  · have hl := checked_latchPair q n new u hpu
    obtain ⟨hf, -⟩ := latchPair_pair (q := q) (new := new) hpu
    obtain ⟨-, -, hch, -⟩ := latchPair_frame q (n / 2) new u
    refine ⟨h.trans hl, ?_, by rw [hf, hpair]⟩
    unfold siAt at hc ⊢
    rw [hch]
    exact hc
  · exact ⟨h, hc, by rw [hpair]⟩

section
variable {q : SafePath} {tp n : Nat} {s : State} (level : Bool) (hn : n < s.safe.ch.length) (hp : n / 2 < s.safe.pairs.length)
include hn hp

theorem dropCheck_own (ht : n % 2 = tp) :
    Checked q n s (dropCheck q tp n level s) ∧
      (siAt (dropCheck q tp n level s) n).on q = ((siAt s n).on q).ownChecked ((sPair s (n / 2)).mode == .reset) level ∧
      ((sPair (dropCheck q tp n level s) (n / 2)).on q).faults =
        ((sPair s (n / 2)).on q).faults.afterOwn (((siAt s n).on q).ownChecked ((sPair s (n / 2)).mode == .reset) level) := by
  have hset : (siAt (onSi n (SiCh.upd q (SiSeen.ownChecked ((sPair s (n / 2)).mode == .reset) level)) s) n).on q =
      ((siAt s n).on q).ownChecked ((sPair s (n / 2)).mode == .reset) level := by
    rw [siAt_onSi hn, SiCh.on_upd_same]
  have hon : onSi n (SiCh.upd q fun c =>
      let run := if level && !((siAt s n).on q).otherLow then min (c.tpRun + 1) 2 else 0
      let clr := if level && !((siAt s n).on q).otherLow then 0 else min (c.tpClear + 1) 2
      { c with tpRun := run, tpClear := clr
               resetFault := (sPair s (n / 2)).mode == .reset && (if run = 2 then true else if clr = 2 then false else c.resetFault) }) s =
      onSi n (SiCh.upd q (SiSeen.ownChecked ((sPair s (n / 2)).mode == .reset) level)) s := by
    refine congrArg (fun l => onSafe (fun x => { x with ch := l }) s) (modify_eq_of_at {} n ?_)
    show (siAt s n).upd q _ = (siAt s n).upd q _
    cases q <;> rfl
  have h1 := checked_onSi q n (SiSeen.ownChecked ((sPair s (n / 2)).mode == .reset) level) s
  have hpair : sPair (onSi n (SiCh.upd q (SiSeen.ownChecked ((sPair s (n / 2)).mode == .reset) level)) s) (n / 2) = sPair s (n / 2) := rfl
  unfold dropCheck
  dsimp only at hon ⊢
  rw [if_pos ht, hon]
  generalize onSi n (SiCh.upd q (SiSeen.ownChecked ((sPair s (n / 2)).mode == .reset) level)) s = u at hset h1 hpair
  rw [hset]
  exact checked_then_latch h1 hp hpair hset _

theorem dropCheck_other (ht : n % 2 ≠ tp) :
    Checked q n s (dropCheck q tp n level s) ∧
      (siAt (dropCheck q tp n level s) n).on q = ((siAt s n).on q).otherChecked level ∧
      ((sPair (dropCheck q tp n level s) (n / 2)).on q).faults =
        ((sPair s (n / 2)).on q).faults.afterOther (((siAt s n).on q).otherChecked level) := by
  have hset : (siAt (onSi n (SiCh.upd q (SiSeen.otherChecked level)) s) n).on q = ((siAt s n).on q).otherChecked level := by
    rw [siAt_onSi hn, SiCh.on_upd_same]
  have hon : onSi n (SiCh.upd q fun c =>
      { c with otherLow := !level, crossRun := if !level && ((siAt s n).on q).filt then min (c.crossRun + 1) 2 else 0
               crossClear := if !level && ((siAt s n).on q).filt then 0 else min (c.crossClear + 1) 2 }) s =
      onSi n (SiCh.upd q (SiSeen.otherChecked level)) s := by
    refine congrArg (fun l => onSafe (fun x => { x with ch := l }) s) (modify_eq_of_at {} n ?_)
    show (siAt s n).upd q _ = (siAt s n).upd q _
    cases q <;> rfl
  have h1 := checked_onSi q n (SiSeen.otherChecked level) s
  have hpair : sPair (onSi n (SiCh.upd q (SiSeen.otherChecked level)) s) (n / 2) = sPair s (n / 2) := rfl
  unfold dropCheck
  dsimp only at hon ⊢
  rw [if_neg ht, hon]
  generalize onSi n (SiCh.upd q (SiSeen.otherChecked level)) s = u at hset h1 hpair
  rw [hset]
  exact checked_then_latch h1 hp hpair hset _

end

theorem dropCheck_checked {q : SafePath} {n : Nat} {s : State} (tp : Nat) (level : Bool) (hp : n / 2 < s.safe.pairs.length) :
    Checked q n s (dropCheck q tp n level s) := by
  have hlatch {u : State} (h : Checked q n s u) (new : PairFaults) {c : Prop} [Decidable c] :
      Checked q n s (if c then latchPair q (n / 2) new u else u) := by
    split
    · exact h.trans (checked_latchPair q n new u (by rw [h.pairs]; exact hp))
    · exact h
  unfold dropCheck
  dsimp only
  split
  · exact hlatch (checked_onSi q n _ s) _
  · exact hlatch (checked_onSi q n _ s) _

/-! ### A drop's steps on a pair -/

/-- A view with one channel of the pair checked. -/
def DropView.checked (tp side : Nat) (level : Bool) (v : DropView) : DropView :=
  if side = 0 then
    if tp = 0 then { v with first := v.first.ownChecked (v.mode == .reset) level
                            faults := v.faults.afterOwn (v.first.ownChecked (v.mode == .reset) level) }
    else { v with first := v.first.otherChecked level, faults := v.faults.afterOther (v.first.otherChecked level) }
  else
    if tp = 1 then { v with second := v.second.ownChecked (v.mode == .reset) level
                            faults := v.faults.afterOwn (v.second.ownChecked (v.mode == .reset) level) }
    else { v with second := v.second.otherChecked level, faults := v.faults.afterOther (v.second.otherChecked level) }

theorem DropView.ext' {v w : DropView} (h1 : v.first = w.first) (h2 : v.second = w.second) (h3 : v.faults = w.faults) (h4 : v.mode = w.mode)
    (h5 : v.test = w.test) (h6 : v.chans = w.chans) (h7 : v.pairs = w.pairs) : v = w := by
  cases v
  cases w
  simp only at h1 h2 h3 h4 h5 h6 h7
  subst h1 h2 h3 h4 h5 h6 h7
  rfl

/-- The other path's check, or one of another pair, leaves a view. -/
theorem dropView_of_checked {q r : SafePath} {n p : Nat} {s u : State} (h : Checked r n s u) (hne : q ≠ r ∨ n / 2 ≠ p) :
    dropView q p u = dropView q p s := by
  have hch (k : Nat) (hk : k / 2 = p) : (siAt u k).on q = (siAt s k).on q := by
    by_cases hkn : k = n
    · subst hkn
      exact h.chPath q (hne.resolve_right fun e => e hk)
    · rw [h.ch k hkn]
  have hpair : ((sPair u p).on q).faults = ((sPair s p).on q).faults ∧ (sPair u p).mode = (sPair s p).mode ∧
      (sPair u p).test = (sPair s p).test := by
    by_cases hp : p = n / 2
    · subst hp
      rw [h.path q (hne.resolve_right fun e => e rfl), h.mode, h.test]
      exact ⟨rfl, rfl, rfl⟩
    · rw [h.pair p hp]
      exact ⟨rfl, rfl, rfl⟩
  exact DropView.ext' (hch _ (by omega)) (hch _ (by omega)) hpair.1 hpair.2.1 hpair.2.2 h.chans h.pairs

section
variable {q : SafePath} {tp p : Nat} {s : State} (level : Bool) (htp : tp < 2) (hn : 2 * p + 1 < s.safe.ch.length) (hp : p < s.safe.pairs.length)
include htp hn hp

theorem dropView_first : dropView q p (dropCheck q tp (2 * p) level s) = (dropView q p s).checked tp 0 level := by
  have hhalf : 2 * p / 2 = p := by omega
  have hp' : 2 * p / 2 < s.safe.pairs.length := by omega
  have hn' : 2 * p < s.safe.ch.length := by omega
  obtain rfl | rfl : tp = 0 ∨ tp = 1 := by omega
  · obtain ⟨hc, hch, hf⟩ := dropCheck_own (q := q) (tp := 0) level hn' hp' (by omega)
    rw [hhalf] at hch hf
    have hm := hc.mode
    have ht := hc.test
    rw [hhalf] at hm ht
    exact DropView.ext' hch (by exact congrArg (fun c : SiCh => c.on q) (hc.ch (2 * p + 1) (by omega))) hf hm ht hc.chans hc.pairs
  · obtain ⟨hc, hch, hf⟩ := dropCheck_other (q := q) (tp := 1) level hn' hp' (by omega)
    rw [hhalf] at hf
    have hm := hc.mode
    have ht := hc.test
    rw [hhalf] at hm ht
    exact DropView.ext' hch (by exact congrArg (fun c : SiCh => c.on q) (hc.ch (2 * p + 1) (by omega))) hf hm ht hc.chans hc.pairs

theorem dropView_second : dropView q p (dropCheck q tp (2 * p + 1) level s) = (dropView q p s).checked tp 1 level := by
  have hhalf : (2 * p + 1) / 2 = p := by omega
  have hp' : (2 * p + 1) / 2 < s.safe.pairs.length := by omega
  obtain rfl | rfl : tp = 0 ∨ tp = 1 := by omega
  · obtain ⟨hc, hch, hf⟩ := dropCheck_other (q := q) (tp := 0) level hn hp' (by omega)
    rw [hhalf] at hf
    have hm := hc.mode
    have ht := hc.test
    rw [hhalf] at hm ht
    exact DropView.ext' (by exact congrArg (fun c : SiCh => c.on q) (hc.ch (2 * p) (by omega))) hch hf hm ht hc.chans hc.pairs
  · obtain ⟨hc, hch, hf⟩ := dropCheck_own (q := q) (tp := 1) level hn hp' (by omega)
    rw [hhalf] at hch hf
    have hm := hc.mode
    have ht := hc.test
    rw [hhalf] at hm ht
    exact DropView.ext' (by exact congrArg (fun c : SiCh => c.on q) (hc.ch (2 * p) (by omega))) hch hf hm ht hc.chans hc.pairs

end

/-! ### The whole drop -/

/-- One channel's turn in a drop, on both paths. -/
def dropStep (tp : Nat) (levels : DropLevels) (n : Nat) (t : State) : State :=
  if (sPair t (n / 2)).test && (sPair t (n / 2)).mode != .unused then
    dropCheck .supervisor tp n (dropLevel levels .supervisor n) (dropCheck .chip tp n (dropLevel levels .chip n) t)
  else t

/-- The instant of a drop. -/
def dropNoted (tp : Nat) (s : State) : State :=
  onSafe (fun x => if tp = 0 then { x with dropAt0 := some s.mono } else { x with dropAt1 := some s.mono }) s

theorem pulseDrop_of_due {tp : Nat} {levels : DropLevels} {s : State} (hpres : s.safe.present = true)
    (hen : (if tp = 0 then s.safe.tpEn0 else s.safe.tpEn1) = true) (hover : (if tp = 0 then s.safe.tpOver0 else s.safe.tpOver1) = false)
    (hres : s.safe.resumed = true) (hd : fDead s = false) (hdue : dropDue tp s = true) :
    pulseDrop tp levels s = forAll (List.range 8) (dropStep tp levels) (dropNoted tp s) := by
  have hgo : (s.safe.present && (if tp = 0 then s.safe.tpEn0 && !s.safe.tpOver0 else s.safe.tpEn1 && !s.safe.tpOver1) &&
      s.safe.resumed && !fDead s && dropDue tp s) = true := by
    rw [hpres, hres, hd, hdue]
    by_cases ht : tp = 0
    · simp only [ht, if_true] at hen hover ⊢
      rw [hen, hover]
      rfl
    · simp only [ht, if_false] at hen hover ⊢
      rw [hen, hover]
      rfl
  exact if_pos hgo

section
variable (tp : Nat) (levels : DropLevels)

theorem dropStep_view_ne {n p : Nat} (h : n / 2 ≠ p) (q : SafePath) (s : State) :
    dropView q p (dropStep tp levels n s) = dropView q p s := by
  unfold dropStep
  split
  · next ht =>
    have hp := pairs_length_of_test (Bool.and_eq_true_iff.mp ht).1
    have h1 := dropCheck_checked (q := .chip) tp (dropLevel levels .chip n) hp
    have h2 := dropCheck_checked (q := .supervisor) tp (dropLevel levels .supervisor n)
      (s := dropCheck .chip tp n (dropLevel levels .chip n) s) (by rw [h1.pairs]; exact hp)
    exact (dropView_of_checked h2 (.inr h)).trans (dropView_of_checked h1 (.inr h))
  · rfl

theorem dropStep_frame (n : Nat) (s : State) :
    { dropStep tp levels n s with safe := s.safe } = s ∧ (dropStep tp levels n s).safe.funcs = s.safe.funcs := by
  unfold dropStep
  split
  · next ht =>
    have hp := pairs_length_of_test (Bool.and_eq_true_iff.mp ht).1
    have h1 := dropCheck_checked (q := .chip) tp (dropLevel levels .chip n) hp
    have h2 := dropCheck_checked (q := .supervisor) tp (dropLevel levels .supervisor n)
      (s := dropCheck .chip tp n (dropLevel levels .chip n) s) (by rw [h1.pairs]; exact hp)
    have e := congrArg (fun x : State => { x with safe := s.safe }) h2.frame
    exact ⟨Eq.trans e h1.frame, h2.funcs.trans h1.funcs⟩
  · exact ⟨rfl, rfl⟩

/-- Both paths' checks of a channel of the pair, on one path's view. -/
theorem dropStep_view {p : Nat} {s : State} (htp : tp < 2) (hn : 2 * p + 1 < s.safe.ch.length) (ht : (sPair s p).test = true)
    (hm : (sPair s p).mode ≠ .unused) (q : SafePath) {side n : Nat} (hside : side < 2) (hnp : n = 2 * p + side) :
    dropView q p (dropStep tp levels n s) = (dropView q p s).checked tp side (dropLevel levels q n) := by
  have hhalf : n / 2 = p := by omega
  have hp := pairs_length_of_test ht
  have hcheck (r : SafePath) (u : State) (hu : dropView q p u = dropView q p s) (hr : r = q) :
      dropView q p (dropCheck r tp n (dropLevel levels r n) u) = (dropView q p s).checked tp side (dropLevel levels q n) := by
    subst hr
    have hn' : 2 * p + 1 < u.safe.ch.length := by rw [show u.safe.ch.length = s.safe.ch.length from congrArg DropView.chans hu]; exact hn
    have hp' : p < u.safe.pairs.length := by rw [show u.safe.pairs.length = s.safe.pairs.length from congrArg DropView.pairs hu]; exact hp
    rw [← hu]
    obtain rfl | rfl : side = 0 ∨ side = 1 := by omega
    · subst hnp
      exact dropView_first (q := r) _ htp hn' hp'
    · subst hnp
      exact dropView_second (q := r) _ htp hn' hp'
  unfold dropStep
  rw [hhalf, if_pos (by rw [ht]; simpa using hm)]
  have h1 := dropCheck_checked (q := .chip) (n := n) tp (dropLevel levels .chip n) (s := s) (by rw [hhalf]; exact hp)
  have h2 := dropCheck_checked (q := .supervisor) (n := n) tp (dropLevel levels .supervisor n)
    (s := dropCheck .chip tp n (dropLevel levels .chip n) s) (by rw [h1.pairs, hhalf]; exact hp)
  cases q with
  | chip => exact (dropView_of_checked h2 (.inl (by decide))).trans (hcheck .chip s rfl rfl)
  | supervisor => exact hcheck .supervisor _ (dropView_of_checked h1 (.inl (by decide))) rfl

/-- The eight channels, those of one pair apart. -/
theorem range_eight_split {p : Nat} (h : p < 4) :
    ∃ A B, List.range 8 = A ++ 2 * p :: (2 * p + 1) :: B ∧ (∀ n ∈ A, n / 2 ≠ p) ∧ ∀ n ∈ B, n / 2 ≠ p := by
  obtain rfl | rfl | rfl | rfl : p = 0 ∨ p = 1 ∨ p = 2 ∨ p = 3 := by omega
  · exact ⟨[], [2, 3, 4, 5, 6, 7], rfl, by decide, by decide⟩
  · exact ⟨[0, 1], [4, 5, 6, 7], rfl, by decide, by decide⟩
  · exact ⟨[0, 1, 2, 3], [6, 7], rfl, by decide, by decide⟩
  · exact ⟨[0, 1, 2, 3, 4, 5], [], rfl, by decide, by decide⟩

theorem forAll_append {α : Type} (f : α → State → State) (l m : List α) (s : State) : forAll (l ++ m) f s = forAll m f (forAll l f s) :=
  List.foldl_append

/-- A pair after the drop, as a path sees it. -/
theorem drop_view {p : Nat} {s : State} (htp : tp < 2) (h4 : p < 4) (hn : 2 * p + 1 < s.safe.ch.length) (ht : (sPair s p).test = true)
    (hm : (sPair s p).mode ≠ .unused) (q : SafePath) :
    dropView q p (forAll (List.range 8) (dropStep tp levels) s) =
      ((dropView q p s).checked tp 0 (dropLevel levels q (2 * p))).checked tp 1 (dropLevel levels q (2 * p + 1)) := by
  have hkeep (l : List Nat) (u : State) (hl : ∀ n ∈ l, n / 2 ≠ p) : dropView q p (forAll l (dropStep tp levels) u) = dropView q p u :=
    forAll_keeps_mem (dropView q p) l _ (fun n hn u => dropStep_view_ne tp levels (hl n hn) q u) u
  have hsame {u v : State} (h : dropView q p u = dropView q p v) : u.safe.ch.length = v.safe.ch.length ∧ (sPair u p).test = (sPair v p).test ∧
      (sPair u p).mode = (sPair v p).mode := ⟨congrArg DropView.chans h, congrArg DropView.test h, congrArg DropView.mode h⟩
  obtain ⟨A, B, hsplit, hA, hB⟩ := range_eight_split h4
  rw [hsplit, forAll_append]
  have h0 := hkeep A s hA
  generalize forAll A (dropStep tp levels) s = u at h0
  obtain ⟨hlen, htest, hmode⟩ := hsame h0
  have h1 := dropStep_view tp levels (s := u) htp (by rw [hlen]; exact hn) (by rw [htest]; exact ht) (by rw [hmode]; exact hm) q (side := 0)
    (by decide) (n := 2 * p) rfl
  rw [h0] at h1
  have hc : (dropView q p s).checked tp 0 (dropLevel levels q (2 * p)) = dropView q p (dropStep tp levels (2 * p) u) := h1.symm
  have hkept : ((dropView q p s).checked tp 0 (dropLevel levels q (2 * p))).chans = (dropView q p s).chans ∧
      ((dropView q p s).checked tp 0 (dropLevel levels q (2 * p))).test = (dropView q p s).test ∧
      ((dropView q p s).checked tp 0 (dropLevel levels q (2 * p))).mode = (dropView q p s).mode := by
    unfold DropView.checked
    rw [if_pos rfl]
    split <;> exact ⟨rfl, rfl, rfl⟩
  rw [hc] at hkept
  obtain ⟨hlen', htest', hmode'⟩ := hkept
  have h2 := dropStep_view tp levels (s := dropStep tp levels (2 * p) u) htp (Nat.lt_of_lt_of_eq hn (Eq.symm hlen')) (Eq.trans htest' ht)
    (fun e => hm (Eq.trans (Eq.symm hmode') e)) q (side := 1) (by decide) (n := 2 * p + 1) rfl
  refine (hkeep B _ hB).trans (h2.trans ?_)
  rw [h1]

end

/-! ### The outcome on a pair -/

section
variable (x : PairFaults) (own other : SiSeen)

theorem PairFaults.join_tpFault : x.join { tpFault := true } = { x with tpFault := true } := by simp [PairFaults.join]

theorem PairFaults.join_cross : x.join { cross := true } = { x with cross := true } := by simp [PairFaults.join]

theorem PairFaults.afterOwn_marks :
    (x.afterOwn own).tpFault = (x.tpFault || decide (own.tpRun = 2)) ∧ (x.afterOwn own).cross = x.cross := by
  unfold PairFaults.afterOwn
  by_cases h : own.tpRun = 2
  · rw [if_pos h, PairFaults.join_tpFault]
    exact ⟨by simp [h], rfl⟩
  · rw [if_neg h]
    exact ⟨by simp [h], rfl⟩

theorem PairFaults.afterOther_marks :
    (x.afterOther other).cross = (x.cross || decide (other.crossRun = 2)) ∧ (x.afterOther other).tpFault = x.tpFault := by
  unfold PairFaults.afterOther
  by_cases h : other.crossRun = 2
  · rw [if_pos h, PairFaults.join_cross]
    exact ⟨by simp [h], rfl⟩
  · rw [if_neg h]
    exact ⟨by simp [h], rfl⟩

theorem SiSeen.resetFault_of_second {c : SiSeen} {level : Bool} (h : (c.ownChecked true level).tpRun = 2) :
    (c.ownChecked true level).resetFault = true := by
  unfold SiSeen.ownChecked at h ⊢
  dsimp only at h ⊢
  rw [if_pos h]
  rfl

end

/-- The checks of a pair in a drop: its own channel, the other one, and the faults that they latch. -/
def DropJudged (mode : PairMode) (own other own' other' : SiSeen) (x x' : PairFaults) (ownLevel otherLevel : Bool) : Prop :=
  own' = own.ownChecked (mode == .reset) ownLevel ∧ other' = other.otherChecked otherLevel ∧
    x'.cross = (x.cross || decide (other'.crossRun = 2)) ∧ x'.tpFault = (x.tpFault || decide (own'.tpRun = 2))

theorem drop_judged (tp : Nat) (levels : DropLevels) {p : Nat} {s u : State} (htp : tp < 2) {q : SafePath}
    (h : dropView q p u = ((dropView q p s).checked tp 0 (dropLevel levels q (2 * p))).checked tp 1 (dropLevel levels q (2 * p + 1))) :
    DropJudged (sPair s p).mode ((siAt s (2 * p + tp)).on q) ((siAt s (2 * p + 1 - tp)).on q) ((siAt u (2 * p + tp)).on q)
      ((siAt u (2 * p + 1 - tp)).on q) ((sPair s p).on q).faults ((sPair u p).on q).faults
      (dropLevel levels q (2 * p + tp)) (dropLevel levels q (2 * p + 1 - tp)) := by
  have h1 := congrArg DropView.first h
  have h2 := congrArg DropView.second h
  have h3 := congrArg DropView.faults h
  obtain rfl | rfl : tp = 0 ∨ tp = 1 := by omega
  · have h1' : (siAt u (2 * p)).on q = ((siAt s (2 * p)).on q).ownChecked ((sPair s p).mode == .reset) (dropLevel levels q (2 * p)) := h1
    have h2' : (siAt u (2 * p + 1)).on q = ((siAt s (2 * p + 1)).on q).otherChecked (dropLevel levels q (2 * p + 1)) := h2
    have h3' : ((sPair u p).on q).faults = (((sPair s p).on q).faults.afterOwn ((siAt u (2 * p)).on q)).afterOther ((siAt u (2 * p + 1)).on q) := by
      rw [h1', h2']
      exact h3
    obtain ⟨ho1, ho2⟩ := PairFaults.afterOwn_marks ((sPair s p).on q).faults ((siAt u (2 * p)).on q)
    obtain ⟨hx1, hx2⟩ := PairFaults.afterOther_marks (((sPair s p).on q).faults.afterOwn ((siAt u (2 * p)).on q)) ((siAt u (2 * p + 1)).on q)
    refine ⟨h1', h2', ?_, ?_⟩
    · rw [h3', hx1, ho2]
      rfl
    · rw [h3', hx2, ho1]
      rfl
  · have h1' : (siAt u (2 * p)).on q = ((siAt s (2 * p)).on q).otherChecked (dropLevel levels q (2 * p)) := h1
    have h2' : (siAt u (2 * p + 1)).on q = ((siAt s (2 * p + 1)).on q).ownChecked ((sPair s p).mode == .reset) (dropLevel levels q (2 * p + 1)) := h2
    have h3' : ((sPair u p).on q).faults = (((sPair s p).on q).faults.afterOther ((siAt u (2 * p)).on q)).afterOwn ((siAt u (2 * p + 1)).on q) := by
      rw [h1', h2']
      exact h3
    obtain ⟨hx1, hx2⟩ := PairFaults.afterOther_marks ((sPair s p).on q).faults ((siAt u (2 * p)).on q)
    obtain ⟨ho1, ho2⟩ := PairFaults.afterOwn_marks (((sPair s p).on q).faults.afterOther ((siAt u (2 * p)).on q)) ((siAt u (2 * p + 1)).on q)
    refine ⟨h2', h1', ?_, ?_⟩
    · rw [h3', ho2, hx1]
      rfl
    · rw [h3', ho1, hx2]

theorem drop_frame (tp : Nat) (levels : DropLevels) (s : State) :
    { forAll (List.range 8) (dropStep tp levels) (dropNoted tp s) with safe := s.safe } = s ∧
      (forAll (List.range 8) (dropStep tp levels) (dropNoted tp s)).safe.funcs = s.safe.funcs := by
  have e (x : Safe) := forAll_keeps (fun u : State => ({ u with safe := x }, u.safe.funcs)) (List.range 8) (dropStep tp levels)
    (fun n u => by
      obtain ⟨h1, h2⟩ := dropStep_frame tp levels n u
      have h1' := congrArg (fun u : State => { u with safe := x }) h1
      exact Prod.ext h1' h2) (dropNoted tp s)
  have e' := e s.safe
  generalize forAll (List.range 8) (dropStep tp levels) (dropNoted tp s) = u at e'
  refine ⟨congrArg Prod.fst e', (congrArg Prod.snd e').trans ?_⟩
  show (dropNoted tp s).safe.funcs = s.safe.funcs
  unfold dropNoted
  rw [onSafe_safe]
  split <;> rfl

theorem dropNoted_view (tp : Nat) (q : SafePath) (p : Nat) (s : State) : dropView q p (dropNoted tp s) = dropView q p s := by
  unfold dropNoted
  by_cases h : tp = 0 <;> simp only [h, if_true, if_false] <;> rfl

theorem testPulseDrop_outcome {s : State} {tp : Nat} (levels : DropLevels) (htp : tp < 2) (hpres : s.safe.present = true)
    (hen : (if tp = 0 then s.safe.tpEn0 else s.safe.tpEn1) = true) (hover : (if tp = 0 then s.safe.tpOver0 else s.safe.tpOver1) = false)
    (hres : s.safe.resumed = true) (hd : fDead s = false) (hdue : dropDue tp s = true) :
    ∃ t, exec (.testPulseDrop tp levels) s = .next t ∧ t.safe.funcs = s.safe.funcs ∧ { t with safe := s.safe }.rest = s.rest ∧
      ∀ p < 4, 2 * p + 1 < s.safe.ch.length → (sPair s p).test = true → (sPair s p).mode ≠ .unused → ∀ q,
        DropJudged (sPair s p).mode ((siAt s (2 * p + tp)).on q) ((siAt s (2 * p + 1 - tp)).on q) ((siAt t (2 * p + tp)).on q)
          ((siAt t (2 * p + 1 - tp)).on q) ((sPair s p).on q).faults ((sPair t p).on q).faults
          (dropLevel levels q (2 * p + tp)) (dropLevel levels q (2 * p + 1 - tp)) := by
  obtain ⟨t, hx, hrest⟩ := answer_settled s (pulseDrop tp levels s)
  have hx : exec (.testPulseDrop tp levels) s = .next t := hx
  rw [pulseDrop_of_due hpres hen hover hres hd hdue] at hrest
  obtain ⟨hframe, hfuncs⟩ := drop_frame tp levels s
  have hview (p : Nat) (h4 : p < 4) (hn : 2 * p + 1 < s.safe.ch.length) (ht : (sPair s p).test = true) (hm : (sPair s p).mode ≠ .unused) (q : SafePath) :
      dropView q p (forAll (List.range 8) (dropStep tp levels) (dropNoted tp s)) =
        ((dropView q p s).checked tp 0 (dropLevel levels q (2 * p))).checked tp 1 (dropLevel levels q (2 * p + 1)) := by
    have e := dropNoted_view tp q p s
    have h1 : (dropNoted tp s).safe.ch.length = s.safe.ch.length := congrArg DropView.chans e
    have h2 : (sPair (dropNoted tp s) p).test = (sPair s p).test := congrArg DropView.test e
    have h3 : (sPair (dropNoted tp s) p).mode = (sPair s p).mode := congrArg DropView.mode e
    rw [drop_view tp levels htp h4 (by rw [h1]; exact hn) (by rw [h2]; exact ht) (by rw [h3]; exact hm) q, e]
  generalize forAll (List.range 8) (dropStep tp levels) (dropNoted tp s) = u at hrest hframe hfuncs hview
  have hsafe := safe_of_rest hrest
  refine ⟨t, hx, by rw [hsafe, hfuncs], rest_of_safe hrest hframe, fun p h4 hn ht hm q => ?_⟩
  have h := drop_judged tp levels htp (hview p h4 hn ht hm q)
  unfold siAt sPair at h ⊢
  rw [hsafe]
  exact h

end Sys2Proof.Machine
end

section
/-! PROOFS. The static test of a brake output, and how a command ends CHECK and TESTING (16_safety.md R420, R425, R430). -/

namespace Sys2Proof.Machine

/-! ### Both paths take a command's transition -/

/-- A function whose supervisor path follows. -/
def SafeFunc.inStep (f : SafeFunc) : SafeFunc := { f with supSt := f.st }

/-- What a command's transition leaves of the functions and of what is beside the safety function. -/
structure Stepped (n : Nat) (s u : State) : Prop where
  beside : u.besideSafety = s.besideSafety
  other  : ∀ k, k ≠ n → sFunc u k = sFunc s k
  length : u.safe.funcs.length = s.safe.funcs.length

theorem stepped_of_turn {r : SafePath} {n : Nat} {s u : State} (h : Turn r n s u) : Stepped n s u := ⟨h.beside, h.other, h.length⟩

theorem Stepped.trans {n : Nat} {s u v : State} (h : Stepped n s u) (h' : Stepped n u v) : Stepped n s v :=
  ⟨h'.beside.trans h.beside, fun k hk => (h'.other k hk).trans (h.other k hk), h'.length.trans h.length⟩

theorem stepped_refl (n : Nat) (s : State) : Stepped n s s := ⟨rfl, fun _ _ => rfl, rfl⟩

theorem stepped_onSFunc (n : Nat) (f : SafeFunc → SafeFunc) (s : State) : Stepped n s (onSFunc n f s) :=
  ⟨rfl, fun _ hk => sFunc_onSFunc_ne hk f s, onSFunc_length n f s⟩

theorem inStep_stepped {n : Nat} {g : State → State} {s : State} (h : Stepped n s (g s)) : Stepped n s (inStep n g s) := by
  unfold inStep
  dsimp only
  split
  · exact h.trans (stepped_onSFunc n SafeFunc.inStep _)
  · exact h

theorem inStep_log (n : Nat) (g : State → State) (s : State) : (inStep n g s).log = (g s).log := by
  unfold inStep
  dsimp only
  split <;> rfl

/-- A command's transition on the function itself: the supervisor path follows where it stood with the chip path. -/
theorem inStep_func {n : Nat} {g : State → State} {s : State} (hn : n < (g s).safe.funcs.length) :
    sFunc (inStep n g s) n = if (sFunc s n).supSt = (sFunc s n).st then (sFunc (g s) n).inStep else sFunc (g s) n := by
  unfold inStep
  dsimp only
  split
  · exact sFunc_onSFunc hn SafeFunc.inStep
  · rfl

/-- What `inStep` leaves of a function. -/
theorem SafeFunc.inStep_ite (c : Prop) [Decidable c] (f : SafeFunc) :
    (if c then f.inStep else f).st = f.st ∧ (if c then f.inStep else f).hsOn = f.hsOn ∧ (if c then f.inStep else f).lsOn = f.lsOn ∧
      (if c then f.inStep else f).since = f.since ∧ (if c then f.inStep else f).last = f.last := by
  split <;> exact ⟨rfl, rfl, rfl, rfl, rfl⟩

section
variable {s : State} {n : Nat}

/-! ### CHECK passes (R420, R422, R425) -/

/-- Where the static test of CHECK leads, judged as at a tick. -/
def checkNext (s : State) (n : Nat) : FuncState :=
  FuncState.check.next (pairDemand s (sFunc s n) || fDead s) (faultBits s (sFunc s n)) (effectiveRequest s (sFunc s n)).1

/-- A function enters RELEASED on both paths. -/
def releasedStep (n : Nat) (s : State) : State := inStep n (onSFunc n fun f => f.enter .released s.mono) s

/-- A function whose switches close. -/
def SafeFunc.closed (f : SafeFunc) : SafeFunc := { f with hsOn := true, lsOn := f.supSt == .released }

theorem checkPasses_of_check (h : checkNext s n = .check) :
    checkPasses n s = outputsDrive (onSFunc n SafeFunc.closed (releasedStep n s)) := by
  unfold checkPasses
  dsimp only
  rw [show FuncState.check.next (pairDemand s (sFunc s n) || fDead s) (faultBits s (sFunc s n)) (effectiveRequest s (sFunc s n)).1 = .check from h]
  rfl

/-- What drives the outputs leaves every function but its mean voltage. -/
theorem outputsDrive_kept (s : State) : (outputsDrive s).besideSafety = s.besideSafety ∧ (outputsDrive s).log = s.log ∧
    ∀ g, { sFunc (outputsDrive s) g with duty := 0 } = { sFunc s g with duty := 0 } := by
  refine ⟨rfl, rfl, fun g => ?_⟩
  rw [sFunc_outputsDrive]
  rfl

theorem checkPasses_released (hn : n < s.safe.funcs.length) (hst : (sFunc s n).st = .check) (h : checkNext s n = .check) :
    (checkPasses n s).besideSafety = s.besideSafety ∧ (checkPasses n s).log = s.log ∧
      (∀ g, g ≠ n → { sFunc (checkPasses n s) g with duty := 0 } = { sFunc s g with duty := 0 }) ∧
      (sFunc (checkPasses n s) n).st = .released ∧ (sFunc (checkPasses n s) n).hsOn = true ∧ (sFunc (checkPasses n s) n).since = s.mono ∧
      ((sFunc s n).supSt = .check → (sFunc (checkPasses n s) n).supSt = .released ∧ (sFunc (checkPasses n s) n).lsOn = true) := by
  have hstep : Stepped n s (releasedStep n s) := inStep_stepped (stepped_onSFunc n _ s)
  have hlog : (releasedStep n s).log = s.log := inStep_log n _ s
  have hfunc : sFunc (releasedStep n s) n = if (sFunc s n).supSt = (sFunc s n).st then ((sFunc s n).enter .released s.mono).inStep
      else (sFunc s n).enter .released s.mono := by
    have e := inStep_func (n := n) (g := onSFunc n fun f => f.enter .released s.mono) (s := s) (by rw [onSFunc_length]; exact hn)
    rw [sFunc_onSFunc hn] at e
    exact e
  rw [checkPasses_of_check h]
  generalize releasedStep n s = u at hstep hlog hfunc
  obtain ⟨hb, hl, hothers⟩ := outputsDrive_kept (onSFunc n SafeFunc.closed u)
  have hown : sFunc (outputsDrive (onSFunc n SafeFunc.closed u)) n = (sFunc u n).closed.drive ((fieldGroup (onSFunc n SafeFunc.closed u) 4).st == .low) := by
    rw [sFunc_outputsDrive, sFunc_onSFunc (by rw [hstep.length]; exact hn)]
  refine ⟨hb.trans hstep.beside, hl.trans hlog, fun g hg => ?_, ?_, ?_, ?_, fun hsup => ?_⟩
  · rw [hothers g, sFunc_onSFunc_ne hg, hstep.other g hg]
  · rw [hown]
    exact (congrArg SafeFunc.st hfunc).trans (SafeFunc.inStep_ite _ _).1
  · rw [hown]
    rfl
  · obtain ⟨-, -, -, hsince, -⟩ := SafeFunc.inStep_ite ((sFunc s n).supSt = (sFunc s n).st) ((sFunc s n).enter .released s.mono)
    rw [hown]
    exact (congrArg SafeFunc.since hfunc).trans hsince
  · rw [if_pos (hsup.trans hst.symm)] at hfunc
    have hs : (sFunc u n).supSt = .released := by rw [hfunc]; rfl
    rw [hown]
    exact ⟨hs, by rw [show ((sFunc u n).closed.drive _).lsOn = ((sFunc u n).supSt == .released) from rfl, hs]; rfl⟩

/-- A function that has entered a state other than RELEASED has both switches open. -/
theorem moved_off {u : State} {st : FuncState} {f : SafeFunc → SafeFunc} (hn : n < s.safe.funcs.length) (hs : u.safe = (onSFunc n f s).safe)
    (hf : f (sFunc s n) = { f (sFunc s n) with st := st, hsOn := false, lsOn := false }) :
    (sFunc u n).st = st ∧ (sFunc u n).hsOn = false ∧ (sFunc u n).lsOn = false := by
  rw [sFunc_of_safe hn hs, hf]
  exact ⟨rfl, rfl, rfl⟩

theorem toFault_off (hn : n < s.safe.funcs.length) :
    (sFunc (toFault n s) n).st = .fault ∧ (sFunc (toFault n s) n).hsOn = false ∧ (sFunc (toFault n s) n).lsOn = false :=
  moved_off hn (toFault_safe n s).2 rfl

theorem toDemand_off (hn : n < s.safe.funcs.length) :
    (sFunc (toDemand n s) n).st = .demand ∧ (sFunc (toDemand n s) n).hsOn = false ∧ (sFunc (toDemand n s) n).lsOn = false :=
  moved_off hn (toDemand_safe n s).2 rfl

theorem toReady_off (hn : n < s.safe.funcs.length) :
    (sFunc (toReady n s) n).st = .ready ∧ (sFunc (toReady n s) n).hsOn = false ∧ (sFunc (toReady n s) n).lsOn = false :=
  moved_off hn (toReady_safe n s).2 rfl

theorem tellFaults_stepped (n : Nat) (s : State) : Stepped n s (tellFaults n s) := stepped_of_turn (turn_tellFaults n s)

/-- CHECK goes nowhere but to a fault, to a demand, back to READY or on. -/
theorem checkNext_cases (s : State) (n : Nat) :
    checkNext s n = .fault ∨ checkNext s n = .demand ∨ checkNext s n = .check ∨ checkNext s n = .ready := by
  unfold checkNext FuncState.next
  dsimp only
  split
  · exact .inl rfl
  · split
    · exact .inr (.inl rfl)
    · split
      · exact .inr (.inr (.inl rfl))
      · exact .inr (.inr (.inr rfl))

theorem checkPasses_stopped (hn : n < s.safe.funcs.length) (h : checkNext s n ≠ .check) :
    Stepped n s (checkPasses n s) ∧ (sFunc (checkPasses n s) n).st = checkNext s n ∧ (sFunc (checkPasses n s) n).hsOn = false ∧
      (sFunc (checkPasses n s) n).lsOn = false := by
  have he : checkPasses n s = match checkNext s n with
      | .check => outputsDrive (onSFunc n SafeFunc.closed (releasedStep n s))
      | .fault => toFault n (tellFaults n s)
      | .demand => toDemand n s
      | _ => toReady n s := rfl
  obtain e | e | e | e := checkNext_cases s n
  · rw [he, e]
    have ht := tellFaults_stepped n s
    exact ⟨ht.trans (stepped_of_turn (turn_toFault n _)), toFault_off (by rw [ht.length]; exact hn)⟩
  · rw [he, e]
    exact ⟨stepped_of_turn (turn_toDemand n s), toDemand_off hn⟩
  · exact absurd e h
  · rw [he, e]
    exact ⟨stepped_of_turn (turn_toReady n s), toReady_off hn⟩

/-! ### The test's result (R425, R430) -/

/-- A function that a static test has failed. -/
def SafeFunc.staticFailed (e : StaticEnd) (f : SafeFunc) : SafeFunc := if e = .stuck then { f with stuck := true } else { f with openLoad := true }

theorem staticTest_of_check {b : StaticBack} (hst : (sFunc s n).st = .check) (h4 : (sFunc s n).stood 4 s = true) :
    staticTest n b s = if staticResult b = .pass then checkPasses n s else onSFunc n (SafeFunc.staticFailed (staticResult b)) s := by
  unfold staticTest
  dsimp only
  rw [hst, h4, if_pos (by decide)]
  cases staticResult b <;> rfl

/-- The static test of TESTING has failed. -/
def testingFails (n : Nat) (s : State) : State := inStep n (fun t => toFault n (tellFaults n (testEnds n 5 t))) s

theorem staticTest_of_testing {b : StaticBack} (hst : (sFunc s n).st = .testing) (h4 : (sFunc s n).stood 4 s = true)
    (hb : staticResult b ≠ .pass) : staticTest n b s = testingFails n (onSFunc n (SafeFunc.staticFailed (staticResult b)) s) := by
  unfold staticTest
  dsimp only
  rw [hst, h4, if_pos (by decide)]
  cases he : staticResult b
  · exact absurd he hb
  · rfl
  · rfl

theorem testingFails_outcome (hn : n < s.safe.funcs.length) :
    Stepped n s (testingFails n s) ∧ (sFunc (testingFails n s) n).st = .fault ∧ (sFunc (testingFails n s) n).last = 5 ∧
      (sFunc (testingFails n s) n).hsOn = false ∧ (sFunc (testingFails n s) n).lsOn = false := by
  have h1 : Stepped n s (testEnds n 5 s) := stepped_of_turn (turn_testEnds n s 5)
  have hn1 : n < (testEnds n 5 s).safe.funcs.length := by rw [h1.length]; exact hn
  have hl1 : (sFunc (testEnds n 5 s) n).last = 5 := by
    rw [sFunc_of_safe hn (testEnds_safe n 5 s).2]
    rfl
  have h2 := tellFaults_stepped n (testEnds n 5 s)
  have hn2 : n < (tellFaults n (testEnds n 5 s)).safe.funcs.length := by rw [h2.length]; exact hn1
  have hl2 : (sFunc (tellFaults n (testEnds n 5 s)) n).last = 5 := by
    rw [sFunc_of_safe hn1 (tellFaults_safe n _).2]
    exact hl1
  have h3 : Stepped n _ (toFault n (tellFaults n (testEnds n 5 s))) := stepped_of_turn (turn_toFault n _)
  have hn3 : n < (toFault n (tellFaults n (testEnds n 5 s))).safe.funcs.length := by rw [h3.length]; exact hn2
  have hl3 : (sFunc (toFault n (tellFaults n (testEnds n 5 s))) n).last = 5 := by
    rw [sFunc_of_safe hn2 (toFault_safe n _).2]
    exact hl2
  obtain ⟨hst, hhs, hls⟩ := toFault_off hn2
  have hf : sFunc (testingFails n s) n = _ := inStep_func (g := fun t => toFault n (tellFaults n (testEnds n 5 t))) hn3
  obtain ⟨i1, i2, i3, -, i5⟩ := SafeFunc.inStep_ite ((sFunc s n).supSt = (sFunc s n).st) (sFunc (toFault n (tellFaults n (testEnds n 5 s))) n)
  refine ⟨inStep_stepped ((h1.trans h2).trans h3), ?_⟩
  rw [hf]
  exact ⟨i1.trans hst, i5.trans hl3, i2.trans hhs, i3.trans hls⟩

theorem sFunc_of_rest {t u : State} (h : t.rest = u.rest) (k : Nat) : sFunc t k = sFunc u k := by
  unfold sFunc
  rw [safe_of_rest h]

theorem staticTest_testing_outcome {b : StaticBack} (hst : (sFunc s n).st = .testing) (h4 : (sFunc s n).stood 4 s = true)
    (hb : staticResult b ≠ .pass) :
    ∃ t, exec (.sbcStaticTest n b) s = .next t ∧ (sFunc t n).st = .fault ∧ (sFunc t n).last = 5 ∧ (sFunc t n).hsOn = false ∧
      (sFunc t n).lsOn = false ∧ ∀ g, g ≠ n → sFunc t g = sFunc s g := by
  have hn := funcs_length_of_st (n := n) (s := s) (by rw [hst]; decide)
  obtain ⟨t, hx, hrest⟩ := answer_settled s (staticTest n b s)
  rw [staticTest_of_testing hst h4 hb] at hrest
  have h0 := stepped_onSFunc n (SafeFunc.staticFailed (staticResult b)) s
  obtain ⟨h1, h2⟩ := testingFails_outcome (n := n) (s := onSFunc n (SafeFunc.staticFailed (staticResult b)) s) (by rw [h0.length]; exact hn)
  have hf := sFunc_of_rest hrest
  generalize testingFails n (onSFunc n (SafeFunc.staticFailed (staticResult b)) s) = u at h1 h2 hf
  rw [← hf n] at h2
  obtain ⟨a1, a2, a3, a4⟩ := h2
  exact ⟨t, hx, a1, a2, a3, a4, fun g hg => (hf g).trans ((h0.trans h1).other g hg)⟩

/-- What CHECK's static test leaves. -/
structure CheckTested (n : Nat) (b : StaticBack) (s t : State) : Prop where
  frame    : { t with safe := s.safe, dio := s.dio, log := s.log }.rest = s.rest
  other    : ∀ g, g ≠ n → { sFunc t g with duty := 0 } = { sFunc s g with duty := 0 }
  released : staticResult b = .pass → checkNext s n = .check →
    (sFunc t n).st = .released ∧ (sFunc t n).hsOn = true ∧ (sFunc t n).since = s.mono ∧ t.log = s.log ∧
      ((sFunc s n).supSt = .check → (sFunc t n).supSt = .released ∧ (sFunc t n).lsOn = true)
  stopped  : staticResult b = .pass → checkNext s n ≠ .check →
    (sFunc t n).st = checkNext s n ∧ (sFunc t n).hsOn = false ∧ (sFunc t n).lsOn = false
  failed   : staticResult b ≠ .pass → t.log = s.log ∧ sFunc t n = (sFunc s n).staticFailed (staticResult b)

theorem staticTest_check_outcome {b : StaticBack} (hst : (sFunc s n).st = .check) (h4 : (sFunc s n).stood 4 s = true) :
    ∃ t, exec (.sbcStaticTest n b) s = .next t ∧ CheckTested n b s t := by
  have hn := funcs_length_of_st (n := n) (s := s) (by rw [hst]; decide)
  obtain ⟨t, hx, hrest⟩ := answer_settled s (staticTest n b s)
  rw [staticTest_of_check hst h4] at hrest
  refine ⟨t, hx, ?_⟩
  by_cases hb : staticResult b = .pass
  · rw [if_pos hb] at hrest
    by_cases hx : checkNext s n = .check
    · obtain ⟨h1, h2, h3, h4, h5, h6, h7⟩ := checkPasses_released hn hst hx
      have hf := sFunc_of_rest hrest
      have hlog := log_of_rest hrest
      have hframe := rest_of_besideSafety hrest h1
      generalize checkPasses n s = u at h2 h3 h4 h5 h6 h7 hf hlog
      refine ⟨hframe, fun g hg => ?_, fun _ _ => ?_, fun _ e => absurd hx e, fun e => absurd hb e⟩
      · rw [hf g]
        exact h3 g hg
      · rw [hf n, hlog]
        exact ⟨h4, h5, h6, h2, h7⟩
    · obtain ⟨h1, h2⟩ := checkPasses_stopped hn hx
      have hf := sFunc_of_rest hrest
      have hframe := rest_of_besideSafety hrest h1.beside
      have hother := h1.other
      generalize checkPasses n s = u at h2 hf hother
      refine ⟨hframe, fun g hg => ?_, fun _ e => absurd e hx, fun _ _ => ?_, fun e => absurd hb e⟩
      · rw [hf g, hother g hg]
      · rw [hf n]
        exact h2
  · rw [if_neg hb] at hrest
    have hf := sFunc_of_rest hrest
    refine ⟨rest_of_besideSafety hrest rfl, fun g hg => ?_, fun e => absurd e hb, fun e => absurd e hb, fun _ => ⟨?_, ?_⟩⟩
    · rw [hf g, sFunc_onSFunc_ne hg]
    · have e := log_of_rest hrest
      exact e
    · rw [hf n, sFunc_onSFunc hn]

end

/-- Settles O38: each command by its own outcome. -/
theorem testPulsesAndBrakeOutputs : Obligations.TestPulsesAndBrakeOutputs := by
  unfold Obligations.TestPulsesAndBrakeOutputs
  intro s
  refine ⟨fun tp levels htp hpres hen hover hres hd hdue => ?_, fun tp => tpOverload_outcome, fun tp => pulseRetry_outcome,
    fun f b hst h4 => ?_, fun f b => staticTest_testing_outcome,
    fun f h => ⟨holdPhase_outcome h, openLoad_outcome h, overload_outcome h, darkTest_outcome h⟩, fun f => offCheck_outcome,
    groupFResume_outcome s⟩
  · obtain ⟨t, hx, hfuncs, hrest, hpairs⟩ := testPulseDrop_outcome levels htp hpres hen hover hres hd hdue
    refine ⟨t, hx, hfuncs, hrest, fun p h4 hn ht hm q _ => ?_⟩
    obtain ⟨hown, hother, hcross, htp⟩ := hpairs p h4 hn ht hm q
    refine ⟨congrArg SiSeen.tpRun hown, congrArg SiSeen.crossRun hother, congrArg SiSeen.otherLow hother, hcross, htp, fun hmode hrun => ?_⟩
    rw [hmode] at hown
    rw [hown] at hrun
    exact (congrArg SiSeen.resetFault hown).trans (SiSeen.resetFault_of_second hrun)
  · obtain ⟨t, hx, ht⟩ := staticTest_check_outcome (b := b) hst h4
    refine ⟨t, hx, ht.frame, ht.other, fun hb => ⟨ht.released hb, ht.stopped hb⟩, fun hb => ?_, fun hb => ?_⟩
    · have h := ht.failed (by rw [hb]; decide)
      rw [hb] at h
      exact h
    · have h := ht.failed (by rw [hb]; decide)
      rw [hb] at h
      exact h

end Sys2Proof.Machine
end

section
/-! PROOFS. The brake test: START, ABORT, the verdict, the timeout and DUE (16_safety.md R430, R440). -/

namespace Sys2Proof.Machine

/-! ### Steps of one function -/

/-- A step that changes one function, by `F`, and leaves all beside the safety function, the channels and the recorder. -/
def FuncStep (n : Nat) (F : SafeFunc → SafeFunc) (s u : State) : Prop :=
  u.besideSafety = s.besideSafety ∧ u.safe = (onSFunc n F s).safe

theorem FuncStep.trans {n : Nat} {F G : SafeFunc → SafeFunc} {s u v : State} (h : FuncStep n F s u) (h' : FuncStep n G u v) :
    FuncStep n (G ∘ F) s v := by
  refine ⟨h'.1.trans h.1, ?_⟩
  have e : u.safe.funcs.modify n G = s.safe.funcs.modify n (G ∘ F) := by
    rw [h.2]
    exact List.modify_modify_eq F G n s.safe.funcs
  have e' : v.safe = { u.safe with funcs := u.safe.funcs.modify n G } := h'.2
  rw [e', e, h.2]
  rfl

theorem FuncStep.other {n : Nat} {F : SafeFunc → SafeFunc} {s u : State} (h : FuncStep n F s u) {g : Nat} (hg : g ≠ n) :
    sFunc u g = sFunc s g := by
  have e := sFunc_onSFunc_ne hg F s
  unfold sFunc at e ⊢
  rw [h.2]
  exact e

theorem FuncStep.func {n : Nat} {F : SafeFunc → SafeFunc} {s u : State} (h : FuncStep n F s u) (hn : n < s.safe.funcs.length) :
    sFunc u n = F (sFunc s n) := sFunc_of_safe hn h.2

theorem FuncStep.refused {n : Nat} {F : SafeFunc → SafeFunc} {s u : State} (h : FuncStep n F s u) : u.safe.resRefused = s.safe.resRefused := by
  rw [h.2]
  rfl

theorem FuncStep.length {n : Nat} {F : SafeFunc → SafeFunc} {s u : State} (h : FuncStep n F s u) :
    u.safe.funcs.length = s.safe.funcs.length := by
  rw [h.2]
  exact onSFunc_length n F s

theorem mono_of_besideSafety {s u : State} (h : u.besideSafety = s.besideSafety) : u.mono = s.mono := by
  have e := congrArg State.mono h
  exact e

theorem funcStep_raise {n : Nat} {F : SafeFunc → SafeFunc} {s u : State} (h : FuncStep n F s u) (e : Ev) (sev : Severity) (a b c d : Nat) :
    FuncStep n F s (raise e sev a b c d u) := h

theorem inStep_funcStep {n : Nat} {F : SafeFunc → SafeFunc} {g : State → State} {s : State} (h : FuncStep n F s (g s)) :
    ∃ G, FuncStep n G s (inStep n g s) ∧ ∀ x, G x = F x ∨ G x = (F x).inStep := by
  unfold inStep
  dsimp only
  split
  · exact ⟨SafeFunc.inStep ∘ F, h.trans ⟨rfl, rfl⟩, fun _ => .inr rfl⟩
  · exact ⟨F, h, fun _ => .inl rfl⟩

theorem inStep_onSFunc (n : Nat) (F : SafeFunc → SafeFunc) (s : State) :
    ∃ G, inStep n (onSFunc n F) s = onSFunc n G s ∧ ∀ x, G x = F x ∨ G x = (F x).inStep := by
  unfold inStep
  dsimp only
  split
  · refine ⟨SafeFunc.inStep ∘ F, ?_, fun _ => .inr rfl⟩
    have e := congrArg (fun l => { s with safe := { s.safe with funcs := l } }) (List.modify_modify_eq F SafeFunc.inStep n s.safe.funcs)
    exact e
  · exact ⟨F, rfl, fun _ => .inl rfl⟩

/-! ### The end of a test (R420, R430) -/

/-- Whether a demand cause or a fault other than BRAKE_TEST_FAILED ends the test of a function. -/
def testStopped (s : State) (n : Nat) : Prop :=
  (pairDemand s (sFunc s n) || fDead s) = true ∨ otherFaults (faultBits s (sFunc s n)) ≠ 0

theorem testFinishes_of_stopped {n : Nat} {s : State} (g : State → State) (h : testStopped s n) :
    testFinishes n g s = inStep n (testingStops n (pairDemand s (sFunc s n) || fDead s)) s := by
  unfold testFinishes
  dsimp only
  rw [if_pos (by obtain h | h := h <;> simp [h])]

theorem testFinishes_of_free {n : Nat} {s : State} (g : State → State) (h : ¬testStopped s n) : testFinishes n g s = inStep n g s := by
  unfold testFinishes
  dsimp only
  unfold testStopped at h
  rw [if_neg (by simpa using h)]

/-- What a test that is stopped makes of its function. -/
theorem testingStops_step {n : Nat} {s : State} (hn : n < s.safe.funcs.length) (demand : Bool) :
    ∃ F, FuncStep n F s (testingStops n demand s) ∧ (F (sFunc s n)).last = 3 ∧ (F (sFunc s n)).torque = false ∧
      (F (sFunc s n)).st = if faultBits s (sFunc s n) = 0 then .demand else .fault := by
  have h1 : FuncStep n (SafeFunc.testEnded 3) s (testEnds n 3 s) := testEnds_safe n 3 s
  have hf := h1.func hn
  have hbits : faultBits (testEnds n 3 s) (sFunc (testEnds n 3 s) n) = faultBits s (sFunc s n) :=
    faultBits_congr (by rw [h1.2]; rfl) (by rw [h1.2]; rfl) (by rw [hf]; rfl) .chip
  unfold testingStops
  dsimp only
  rw [hbits]
  by_cases h0 : faultBits s (sFunc s n) = 0
  · rw [if_pos h0, if_pos h0]
    exact ⟨_, h1.trans (toDemand_safe n _), rfl, rfl, rfl⟩
  · rw [if_neg h0, if_neg h0]
    split
    · exact ⟨_, (funcStep_raise h1 _ _ _ _ _ _).trans (toFault_safe n _), rfl, rfl, rfl⟩
    · exact ⟨_, h1.trans (toFault_safe n _), rfl, rfl, rfl⟩

/-- A function that a demand cause or another fault has taken out of its test. -/
def TestStopped (n : Nat) (s t : State) : Prop :=
  (sFunc t n).last = 3 ∧ (sFunc t n).torque = false ∧ (sFunc t n).st = if faultBits s (sFunc s n) = 0 then .demand else .fault

theorem testFinishes_stopped {n : Nat} {s : State} (hn : n < s.safe.funcs.length) (g : State → State) (h : testStopped s n) :
    ∃ F, FuncStep n F s (testFinishes n g s) ∧ TestStopped n s (testFinishes n g s) := by
  obtain ⟨F, hF, h1, h2, h3⟩ := testingStops_step hn (pairDemand s (sFunc s n) || fDead s)
  rw [testFinishes_of_stopped g h]
  obtain ⟨G, hG, hfg⟩ := inStep_funcStep hF
  refine ⟨G, hG, ?_⟩
  unfold TestStopped
  rw [hG.func hn]
  obtain e | e := hfg (sFunc s n)
  · rw [e]
    exact ⟨h1, h2, h3⟩
  · rw [e]
    exact ⟨h1, h2, h3⟩

/-- A test that comes back to the state before it. -/
theorem testReturns_step {n last : Nat} {s : State} (hn : n < s.safe.funcs.length) (hl : last = 3 ∨ last = 4) :
    ∃ F, FuncStep n F s (testReturns n last s) ∧ (F (sFunc s n)).last = last ∧ (F (sFunc s n)).torque = false ∧
      (F (sFunc s n)).st = (if (sFunc s n).btFailed then .fault else .ready) ∧
      ((sFunc s n).btFailed = false → (testReturns n last s).log = (raise .brakeTestAborted .notice n 0 0 0 s).log) := by
  have h1 : FuncStep n (SafeFunc.testEnded last) s (testEnds n last s) := testEnds_safe n last s
  have hbt : (sFunc (testEnds n last s) n).btFailed = (sFunc s n).btFailed := by
    rw [h1.func hn]
    rfl
  have hlog : (testEnds n last s).log = (raise .brakeTestAborted .notice n 0 0 0 s).log := by
    unfold testEnds
    dsimp only
    rw [if_pos hl]
    exact raise_log _ _ _ _ _ _ _ _ rfl rfl
  unfold testReturns
  dsimp only
  rw [hbt]
  cases hb : (sFunc s n).btFailed
  · rw [if_neg (by decide), if_neg (by decide)]
    exact ⟨_, h1.trans (toReady_safe n _), rfl, rfl, rfl, fun _ => hlog⟩
  · rw [if_pos rfl, if_pos rfl]
    exact ⟨_, h1.trans (toFault_safe n _), rfl, rfl, rfl, nofun⟩

/-- A test that an abort or a timeout has ended: LAST, no torque, and the state before it. -/
structure TestBack (n last : Nat) (s t : State) : Prop where
  last   : (sFunc t n).last = last
  torque : (sFunc t n).torque = false
  st     : (sFunc t n).st = if (sFunc s n).btFailed then .fault else .ready
  log    : (sFunc s n).btFailed = false → t.log = (raise .brakeTestAborted .notice n 0 0 0 s).log

theorem testFinishes_returns {n last : Nat} {s : State} (hn : n < s.safe.funcs.length) (hl : last = 3 ∨ last = 4) (h : ¬testStopped s n) :
    ∃ F, FuncStep n F s (testFinishes n (testReturns n last) s) ∧ TestBack n last s (testFinishes n (testReturns n last) s) := by
  obtain ⟨F, hF, h1, h2, h3, hlog⟩ := testReturns_step hn hl
  rw [testFinishes_of_free _ h]
  obtain ⟨G, hG, hfg⟩ := inStep_funcStep hF
  have hout : sFunc (inStep n (testReturns n last) s) n = G (sFunc s n) := hG.func hn
  obtain e | e := hfg (sFunc s n)
  · rw [e] at hout
    exact ⟨G, hG, by rw [hout]; exact h1, by rw [hout]; exact h2, by rw [hout]; exact h3, fun hb => (inStep_log n _ s).trans (hlog hb)⟩
  · rw [e] at hout
    exact ⟨G, hG, by rw [hout]; exact h1, by rw [hout]; exact h2, by rw [hout]; exact h3, fun hb => (inStep_log n _ s).trans (hlog hb)⟩

/-! ### START and ABORT -/

section
variable {s : State} {f : Nat}

/-- The function that SAFE_TEST_REQ names. -/
def reqNamed (f : Nat) (s : State) : State := onSafe (fun x => { x with reqFunc := f }) s

theorem testReq_fields (hf : f < 2) :
    field (packFields [(31, 1, 1), (24, 1, f)]) 24 1 = f ∧ (packFields [(31, 1, 1), (24, 1, f)]).getLsbD 30 = false ∧
      (packFields [(31, 1, 1), (24, 1, f)]).getLsbD 31 = true ∧ field (packFields [(30, 1, 1), (24, 1, f)]) 24 1 = f ∧
      (packFields [(30, 1, 1), (24, 1, f)]).getLsbD 30 = true := by
  obtain rfl | rfl : f = 0 ∨ f = 1 := by omega
  all_goals decide

theorem writeTestReq_start (hf : f < 2) : writeTestReq (packFields [(31, 1, 1), (24, 1, f)]) s =
    if testMayStart s f then inStep f (onSFunc f fun x => x.enter .testing s.mono) (onSafe (fun x => { x with reqRefused := false }) (reqNamed f s))
    else raise .safetyTestRefused .notice f 0 0 0 (onSafe (fun x => { x with reqRefused := true }) (reqNamed f s)) := by
  obtain ⟨h1, h2, h3, -⟩ := testReq_fields hf
  unfold writeTestReq
  dsimp only
  rw [h1, h2, h3, if_neg (by decide), if_pos rfl]
  rfl

theorem writeTestReq_abort (hf : f < 2) (hst : (sFunc s f).st = .testing) :
    writeTestReq (packFields [(30, 1, 1), (24, 1, f)]) s = testFinishes f (testReturns f 3) (reqNamed f s) := by
  obtain ⟨-, -, -, h1, h2⟩ := testReq_fields hf
  unfold writeTestReq
  dsimp only
  rw [h1, h2, if_pos rfl]
  exact if_pos (by rw [show sFunc (onSafe (fun x => { x with reqFunc := f }) s) f = sFunc s f from rfl, hst]; rfl)

theorem onSFunc_beside (n : Nat) (F : SafeFunc → SafeFunc) (s : State) (x : Safe) : { onSFunc n F s with safe := x } = { s with safe := x } := rfl

theorem length_of_mayStart (h : testMayStart s f = true) : f < s.safe.funcs.length := by
  refine funcs_length_of_st fun e => ?_
  unfold testMayStart at h
  rw [e] at h
  simp at h

theorem brakeTestStart_accepted (hf : f < 2) (h : testMayStart s f = true) :
    ∃ t, exec (.brakeTestStart f) s = .next t ∧ (sFunc t f).st = .testing ∧ (sFunc t f).hsOn = false ∧ (sFunc t f).lsOn = false ∧
      t.safe.reqFunc = f ∧ t.safe.reqRefused = false ∧ (∀ g, g ≠ f → sFunc t g = sFunc s g) ∧
      { t with safe := s.safe }.rest = s.rest := by
  have hn := length_of_mayStart h
  obtain ⟨t, hx, hrest⟩ := answer_settled s (writeTestReq (packFields [(31, 1, 1), (24, 1, f)]) s)
  have hx : exec (.brakeTestStart f) s = .next t := hx
  obtain ⟨F, he, hF⟩ := inStep_onSFunc f (SafeFunc.enter .testing s.mono) (onSafe (fun x => { x with reqRefused := false }) (reqNamed f s))
  have hoff : (F (sFunc s f)).st = .testing ∧ (F (sFunc s f)).hsOn = false ∧ (F (sFunc s f)).lsOn = false := by
    obtain e | e := hF (sFunc s f)
    · rw [e]
      exact ⟨rfl, rfl, rfl⟩
    · rw [e]
      exact ⟨rfl, rfl, rfl⟩
  have hcall : writeTestReq (packFields [(31, 1, 1), (24, 1, f)]) s = onSFunc f F (onSafe (fun x => { x with reqRefused := false }) (reqNamed f s)) :=
    ((writeTestReq_start hf).trans (if_pos h)).trans he
  rw [hcall] at hrest
  have hlen : f < (onSafe (fun x => { x with reqRefused := false }) (reqNamed f s)).safe.funcs.length := hn
  have hown : sFunc t f = F (sFunc s f) := (sFunc_of_rest hrest f).trans (sFunc_onSFunc hlen F)
  have hother (g : Nat) (hg : g ≠ f) : sFunc t g = sFunc s g := (sFunc_of_rest hrest g).trans (sFunc_onSFunc_ne hg F _)
  have hsafe := safe_of_rest hrest
  obtain ⟨h1, h2, h3⟩ := hoff
  have hbeside : { onSFunc f F (onSafe (fun x => { x with reqRefused := false }) (reqNamed f s)) with safe := s.safe } = s :=
    onSFunc_beside f F _ s.safe
  have hframe : { t with safe := s.safe }.rest = s.rest := rest_of_safe hrest hbeside
  have hreq : t.safe.reqFunc = f ∧ t.safe.reqRefused = false := by
    rw [hsafe]
    exact ⟨rfl, rfl⟩
  rw [← hown] at h1 h2 h3
  exact ⟨t, hx, h1, h2, h3, hreq.1, hreq.2, hother, hframe⟩

theorem brakeTestStart_refused (hf : f < 2) (h : testMayStart s f = false) :
    ∃ t, exec (.brakeTestStart f) s = .next t ∧ t.safe.reqRefused = true ∧ t.safe.funcs = s.safe.funcs ∧
      t.log = (raise .safetyTestRefused .notice f 0 0 0 s).log := by
  obtain ⟨t, hx, hrest⟩ := answer_settled s (writeTestReq (packFields [(31, 1, 1), (24, 1, f)]) s)
  have hx : exec (.brakeTestStart f) s = .next t := hx
  rw [writeTestReq_start hf, if_neg (by rw [h]; decide)] at hrest
  have hsafe := safe_of_rest hrest
  have hlog := log_of_rest hrest
  refine ⟨t, hx, by rw [hsafe]; rfl, by rw [hsafe]; rfl, hlog.trans ?_⟩
  exact raise_log _ _ _ _ _ _ _ _ rfl rfl

/-- The outcome of a command that ends a test: the stop's, or the return's. -/
theorem testEnds_outcome {last : Nat} {v t : State} (hn : f < s.safe.funcs.length) (hl : last = 3 ∨ last = 4)
    (hv : v.safe.funcs = s.safe.funcs ∧ v.safe.pairs = s.safe.pairs ∧ v.safe.path = s.safe.path ∧ v.besideSafety = s.besideSafety ∧ v.log = s.log)
    (hrest : t.rest = (testFinishes f (testReturns f last) v).rest) :
    (testStopped s f → (TestStopped f s t ∧ ∀ g, g ≠ f → sFunc t g = sFunc s g)) ∧
    (¬testStopped s f → (TestBack f last s t ∧ ∀ g, g ≠ f → sFunc t g = sFunc s g)) := by
  obtain ⟨hfuncs, hpairs, hpath, hbeside, hvlog⟩ := hv
  have hsame (g : Nat) : sFunc v g = sFunc s g := by
    unfold sFunc
    rw [hfuncs]
  have hbits : faultBits v (sFunc v f) = faultBits s (sFunc s f) := faultBits_congr hpairs hpath (by rw [hsame]) .chip
  have hdem : pairDemand v (sFunc v f) = pairDemand s (sFunc s f) := pairDemand_congr hpairs (by rw [hsame]) .chip
  have hstop : testStopped v f ↔ testStopped s f := by
    unfold testStopped
    rw [hbits, hdem, fDead_of_besideSafety hbeside]
  have hn' : f < v.safe.funcs.length := by rw [hfuncs]; exact hn
  have ht := sFunc_of_rest hrest
  have htlog := log_of_rest hrest
  refine ⟨fun h => ?_, fun h => ?_⟩
  · obtain ⟨F, hF, h1, h2, h3⟩ := testFinishes_stopped hn' (testReturns f last) (hstop.mpr h)
    refine ⟨⟨by rw [ht]; exact h1, by rw [ht]; exact h2, ?_⟩, fun g hg => ((ht g).trans (hF.other hg)).trans (hsame g)⟩
    rw [ht, h3, hbits]
  · obtain ⟨F, hF, hb⟩ := testFinishes_returns hn' hl (fun e => h (hstop.mp e))
    refine ⟨⟨by rw [ht]; exact hb.last, by rw [ht]; exact hb.torque, by rw [ht, hb.st, hsame], fun hbt => ?_⟩,
      fun g hg => ((ht g).trans (hF.other hg)).trans (hsame g)⟩
    rw [htlog, hb.log (by rw [hsame]; exact hbt)]
    exact raise_log _ _ _ _ _ _ _ _ hvlog (mono_of_besideSafety hbeside)

theorem testTimesOut_of_stood (hst : (sFunc s f).st = .testing) (h : (sFunc s f).stood (1000 * (sFunc s f).timeoutS) s = true) :
    testTimesOut f s = testFinishes f (testReturns f 4) s := if_pos (by rw [hst, h]; rfl)

theorem torqueAllowed_outcome (hst : (sFunc s f).st = .testing) (h : (sFunc s f).stood 4 s = true) :
    ∃ t, exec (.torqueAllowed f) s = .next t ∧ sFunc t f = { sFunc s f with torque := true } ∧
      (∀ g, g ≠ f → sFunc t g = sFunc s g) ∧ { t with safe := s.safe }.rest = s.rest := by
  have hn := funcs_length_of_st (n := f) (s := s) (by rw [hst]; decide)
  obtain ⟨t, hx, hrest⟩ := answer_settled s
    (if (sFunc s f).st == .testing && (sFunc s f).stood 4 s then onSFunc f (fun x => { x with torque := true }) s else s)
  have hx : exec (.torqueAllowed f) s = .next t := hx
  rw [if_pos (by rw [hst, h]; rfl)] at hrest
  exact ⟨t, hx, (sFunc_of_rest hrest f).trans (sFunc_onSFunc hn _), fun g hg => (sFunc_of_rest hrest g).trans (sFunc_onSFunc_ne hg _ s),
    rest_of_safe hrest rfl⟩

end

/-! ### The verdict -/

/-- A function that has passed its test. -/
def SafeFunc.testPassed (f : SafeFunc) : SafeFunc :=
  { f with last := 1, hours := 0, hourSecs := 0, due := false, failStands := false, btFailed := false, told := 0 }

/-- A function that has failed its test. -/
def SafeFunc.testFailed (f : SafeFunc) : SafeFunc := { f with last := 2, failStands := true, btFailed := true }

section
variable {s : State} {n : Nat}

theorem testPasses_step : FuncStep n (SafeFunc.enter .ready s.mono ∘ SafeFunc.testPassed) s (testPasses n s) ∧
    (testPasses n s).log = (raise .brakeTestPassed .notice n 0 0 0 s).log := by
  have h1 : FuncStep n SafeFunc.testPassed s (raise .brakeTestPassed .notice n 0 0 0 (onSFunc n SafeFunc.testPassed s)) := ⟨rfl, rfl⟩
  refine ⟨h1.trans (toReady_safe n _), ?_⟩
  exact raise_log _ _ _ _ _ _ _ _ rfl rfl

theorem releaseHold_nextSeq (k : Nat) (mark : DioCh → DioCh) (s : State) : s.log.nextSeq ≤ (releaseHold k mark s).log.nextSeq := by
  unfold releaseHold
  dsimp only
  split
  · rw [raise_nextSeq]
    exact Nat.le_succ _
  · exact Nat.le_refl _

theorem releaseHolds_nextSeq (which : Nat → DioCh → Bool) (mark : DioCh → DioCh) (s : State) :
    s.log.nextSeq ≤ (releaseHolds which mark s).log.nextSeq := by
  unfold releaseHolds
  generalize List.range 32 = l
  induction l generalizing s with
  | nil => exact Nat.le_refl _
  | cons k l ih =>
    refine Nat.le_trans ?_ (ih _)
    dsimp only
    split
    · exact releaseHold_nextSeq k mark s
    · exact Nat.le_refl _

theorem demandRelease_nextSeq (n : Nat) (s : State) : s.log.nextSeq ≤ (demandRelease n s).log.nextSeq := by
  unfold demandRelease
  exact releaseHolds_nextSeq _ _ s

theorem toFault_nextSeq (n : Nat) (s : State) : s.log.nextSeq ≤ (toFault n s).log.nextSeq := by
  unfold toFault
  dsimp only
  split
  · exact demandRelease_nextSeq n (onSFunc n (fun f => f.enter .fault s.mono) s)
  · exact Nat.le_refl _

theorem testFails_step : FuncStep n (SafeFunc.enter .fault s.mono ∘ SafeFunc.testFailed) s (testFails n s) ∧
    s.log.nextSeq < (testFails n s).log.nextSeq := by
  have h1 : FuncStep n SafeFunc.testFailed s (raise .brakeTestFailed .critical n 0 0 0 (onSFunc n SafeFunc.testFailed s)) := ⟨rfl, rfl⟩
  refine ⟨h1.trans (toFault_safe n _), Nat.lt_of_lt_of_le (Nat.lt_succ_self s.log.nextSeq) ?_⟩
  have e := raise_nextSeq .brakeTestFailed .critical n 0 0 0 (onSFunc n SafeFunc.testFailed s)
  exact Nat.le_trans (Nat.le_of_eq e.symm) (toFault_nextSeq n _)

/-- The result as the program has delivered it, not refused. -/
def resultTaken (res : Nat) (s : State) : State := onSafe (fun x => { x with result := res, resRefused := false }) s

theorem writeTestResult_taken {v : Word} {res : Nat} (hres : field v 0 2 = res) (hgo : v.getLsbD 31 = true) (h12 : (res == 1 || res == 2) = true)
    (hst : (sFunc s s.safe.reqFunc).st = .testing) (htorque : (sFunc s s.safe.reqFunc).torque = true) :
    writeTestResult v s = testFinishes s.safe.reqFunc
      (fun u => if res = 1 then testPasses s.safe.reqFunc u else testFails s.safe.reqFunc u) (resultTaken res s) := by
  unfold writeTestResult
  dsimp only
  rw [hres, hgo, if_pos rfl]
  refine if_pos ?_
  rw [show sFunc (onSafe (fun x => { x with result := res }) s) s.safe.reqFunc = sFunc s s.safe.reqFunc from rfl, hst, htorque, h12]
  rfl

/-- What the delivery of a verdict leaves; `P` says what the verdict makes of its function where nothing stops the test. -/
theorem verdict_outcome {g : State → State} {F : SafeFunc → SafeFunc} {P : SafeFunc → Prop} {L : Log → Prop} {t : State} {res : Nat}
    (hn : n < s.safe.funcs.length) (hg : FuncStep n F (resultTaken res s) (g (resultTaken res s)))
    (hF : P (F (sFunc s n)) ∧ P (F (sFunc s n)).inStep) (hL : L (g (resultTaken res s)).log)
    (hrest : t.rest = (testFinishes n g (resultTaken res s)).rest) :
    t.safe.resRefused = false ∧ (∀ k, k ≠ n → sFunc t k = sFunc s k) ∧
      { t with safe := s.safe, dio := s.dio, log := s.log }.rest = s.rest ∧
      (testStopped s n → TestStopped n s t) ∧ (¬testStopped s n → P (sFunc t n) ∧ L t.log) := by
  have ht := sFunc_of_rest hrest
  have htlog := log_of_rest hrest
  have hsafe := safe_of_rest hrest
  by_cases hs : testStopped s n
  · obtain ⟨G, hG, hst⟩ := testFinishes_stopped (s := resultTaken res s) hn g hs
    have hframe := rest_of_besideSafety (s := s) hrest (hG.1.trans rfl)
    refine ⟨by rw [hsafe, hG.refused]; rfl, fun k hk => (ht k).trans (hG.other hk), hframe, fun _ => ?_, fun e => absurd hs e⟩
    unfold TestStopped
    rw [ht]
    exact hst
  · rw [testFinishes_of_free (s := resultTaken res s) g hs] at hrest ht htlog hsafe
    obtain ⟨G, hG, hfg⟩ := inStep_funcStep hg
    have hown : sFunc t n = G (sFunc s n) := (ht n).trans (hG.func hn)
    refine ⟨by rw [hsafe, hG.refused]; rfl, fun k hk => (ht k).trans (hG.other hk), rest_of_besideSafety (s := s) hrest (hG.1.trans rfl),
      fun e => absurd e hs, fun _ => ⟨?_, by rw [htlog, inStep_log]; exact hL⟩⟩
    rw [hown]
    obtain e | e := hfg (sFunc s n)
    · rw [e]
      exact hF.1
    · rw [e]
      exact hF.2

theorem brakeTestPass_outcome (hst : (sFunc s s.safe.reqFunc).st = .testing) (htorque : (sFunc s s.safe.reqFunc).torque = true) :
    ∃ t, exec .brakeTestPass s = .next t ∧ t.safe.resRefused = false ∧ (∀ g, g ≠ s.safe.reqFunc → sFunc t g = sFunc s g) ∧
      { t with safe := s.safe, dio := s.dio, log := s.log }.rest = s.rest ∧
      (testStopped s s.safe.reqFunc → TestStopped s.safe.reqFunc s t) ∧
      (¬testStopped s s.safe.reqFunc → ((sFunc t s.safe.reqFunc).st = .ready ∧ (sFunc t s.safe.reqFunc).last = 1 ∧
        (sFunc t s.safe.reqFunc).hours = 0 ∧ (sFunc t s.safe.reqFunc).due = false ∧ (sFunc t s.safe.reqFunc).btFailed = false) ∧
        t.log = (raise .brakeTestPassed .notice s.safe.reqFunc 0 0 0 s).log) := by
  have hn := funcs_length_of_st (n := s.safe.reqFunc) (s := s) (by rw [hst]; decide)
  obtain ⟨t, hx, hrest⟩ := answer_settled s (writeTestResult 0x80000001 s)
  have hx : exec .brakeTestPass s = .next t := hx
  rw [writeTestResult_taken (res := 1) (by decide) (by decide) (by decide) hst htorque] at hrest
  obtain ⟨hstep, hlog⟩ := testPasses_step (n := s.safe.reqFunc) (s := resultTaken 1 s)
  have e := raise_log .brakeTestPassed .notice s.safe.reqFunc 0 0 0 (resultTaken 1 s) s rfl rfl
  exact ⟨t, hx, verdict_outcome (P := fun f => f.st = .ready ∧ f.last = 1 ∧ f.hours = 0 ∧ f.due = false ∧ f.btFailed = false)
    (L := fun l => l = (raise .brakeTestPassed .notice s.safe.reqFunc 0 0 0 s).log) hn hstep ⟨⟨rfl, rfl, rfl, rfl, rfl⟩, rfl, rfl, rfl, rfl, rfl⟩
    (hlog.trans e) hrest⟩

theorem brakeTestFail_outcome (hst : (sFunc s s.safe.reqFunc).st = .testing) (htorque : (sFunc s s.safe.reqFunc).torque = true) :
    ∃ t, exec .brakeTestFail s = .next t ∧ t.safe.resRefused = false ∧ (∀ g, g ≠ s.safe.reqFunc → sFunc t g = sFunc s g) ∧
      { t with safe := s.safe, dio := s.dio, log := s.log }.rest = s.rest ∧
      (testStopped s s.safe.reqFunc → TestStopped s.safe.reqFunc s t) ∧
      (¬testStopped s s.safe.reqFunc → ((sFunc t s.safe.reqFunc).st = .fault ∧ (sFunc t s.safe.reqFunc).last = 2 ∧
        (sFunc t s.safe.reqFunc).btFailed = true ∧ (sFunc t s.safe.reqFunc).hsOn = false ∧ (sFunc t s.safe.reqFunc).lsOn = false) ∧
        s.log.nextSeq < t.log.nextSeq) := by
  have hn := funcs_length_of_st (n := s.safe.reqFunc) (s := s) (by rw [hst]; decide)
  obtain ⟨t, hx, hrest⟩ := answer_settled s (writeTestResult 0x80000002 s)
  have hx : exec .brakeTestFail s = .next t := hx
  rw [writeTestResult_taken (res := 2) (by decide) (by decide) (by decide) hst htorque] at hrest
  obtain ⟨hstep, hlog⟩ := testFails_step (n := s.safe.reqFunc) (s := resultTaken 2 s)
  exact ⟨t, hx, verdict_outcome (P := fun f => f.st = .fault ∧ f.last = 2 ∧ f.btFailed = true ∧ f.hsOn = false ∧ f.lsOn = false)
    (L := fun l => s.log.nextSeq < l.nextSeq) hn hstep ⟨⟨rfl, rfl, rfl, rfl, rfl⟩, rfl, rfl, rfl, rfl, rfl⟩ hlog hrest⟩

theorem writeTestResult_refused {v : Word} (hgo : v.getLsbD 31 = true) (h : (sFunc s s.safe.reqFunc).torque = false) :
    writeTestResult v s = onSafe (fun x => { x with result := field v 0 2, resRefused := true }) s := by
  unfold writeTestResult
  dsimp only
  rw [hgo, if_pos rfl]
  refine if_neg ?_
  rw [show sFunc (onSafe (fun x => { x with result := field v 0 2 }) s) s.safe.reqFunc = sFunc s s.safe.reqFunc from rfl, h, Bool.and_false,
    Bool.false_and]
  decide

theorem testResult_refused {v : Word} (hgo : v.getLsbD 31 = true) (h : (sFunc s s.safe.reqFunc).torque = false) :
    ∃ t, answer (settle s (writeTestResult v s)) = .next t ∧ t.safe.resRefused = true ∧ t.safe.funcs = s.safe.funcs ∧ t.log = s.log := by
  obtain ⟨t, hx, hrest⟩ := answer_settled s (writeTestResult v s)
  have hlog := log_of_rest hrest
  have hsafe := safe_of_rest hrest
  rw [writeTestResult_refused hgo h] at hlog hsafe
  refine ⟨t, hx, ?_, ?_, hlog⟩
  · rw [hsafe]
    rfl
  · rw [hsafe]
    rfl

theorem brakeTestPass_refused (h : (sFunc s s.safe.reqFunc).torque = false) :
    ∃ t, exec .brakeTestPass s = .next t ∧ t.safe.resRefused = true ∧ t.safe.funcs = s.safe.funcs ∧ t.log = s.log :=
  testResult_refused (v := 0x80000001) (by decide) h

/-- A function whose test is due. -/
def SafeFunc.nowDue (f : SafeFunc) : SafeFunc := { f with due := true }

theorem brakeTestDue_outcome (hen : (sFunc s n).enabled = true) (h0 : (sFunc s n).intervalH ≠ 0)
    (hle : (sFunc s n).intervalH ≤ (sFunc s n).hours) (hdue : (sFunc s n).due = false) :
    ∃ t, exec (.brakeTestDue n) s = .next t ∧ sFunc t n = { sFunc s n with due := true } ∧
      t.log = (raise .brakeTestDue .notice n 0 0 0 s).log ∧ (∀ g, g ≠ n → sFunc t g = sFunc s g) ∧
      { t with safe := s.safe, log := s.log }.rest = s.rest := by
  have hn := funcs_length_of_enabled hen
  obtain ⟨t, hx, hrest⟩ := answer_settled s (testDue n s)
  have he : testDue n s = raise .brakeTestDue .notice n 0 0 0 (onSFunc n SafeFunc.nowDue s) :=
    if_pos (by rw [hen, hdue, decide_eq_true hle, bne_iff_ne.mpr h0]; rfl)
  rw [he] at hrest
  have hlog := log_of_rest hrest
  have hf := sFunc_of_rest hrest
  have e := congrArg (fun z : State => { z with safe := s.rest.safe, log := s.rest.log }) hrest
  refine ⟨t, hx, (hf n).trans (sFunc_onSFunc hn SafeFunc.nowDue), hlog.trans (raise_log _ _ _ _ _ _ _ _ rfl rfl),
    fun g hg => (hf g).trans (sFunc_onSFunc_ne hg SafeFunc.nowDue s), ?_⟩
  exact e

end

/-- Settles O39: each command by its own outcome. -/
theorem brakeTestsRun : Obligations.BrakeTestsRun := by
  unfold Obligations.BrakeTestsRun
  intro s
  have hfree {n : Nat} (hd : (pairDemand s (sFunc s n) || fDead s) = false) (ho : otherFaults (faultBits s (sFunc s n)) = 0) : ¬testStopped s n := by
    unfold testStopped
    rw [hd]
    exact fun e => e.elim nofun fun e => e ho
  refine ⟨fun f hf => brakeTestStart_accepted hf, fun f hf => brakeTestStart_refused hf, fun f hst => ⟨fun hf => ?_, fun hstood => ?_, torqueAllowed_outcome hst⟩,
    fun hst htorque => ⟨?_, ?_⟩, brakeTestPass_refused, fun f => brakeTestDue_outcome⟩
  · have hn := funcs_length_of_st (n := f) (s := s) (by rw [hst]; decide)
    obtain ⟨t, hx, hrest⟩ := answer_settled s (writeTestReq (packFields [(30, 1, 1), (24, 1, f)]) s)
    rw [writeTestReq_abort hf hst] at hrest
    obtain ⟨h1, h2⟩ := testEnds_outcome (v := reqNamed f s) hn (.inl rfl) ⟨rfl, rfl, rfl, rfl, rfl⟩ hrest
    refine ⟨t, hx, fun h => ?_, fun hd ho => ?_⟩
    · obtain ⟨⟨a, b, c⟩, d⟩ := h1 h
      exact ⟨a, b, c, d⟩
    · obtain ⟨⟨a, b, c, d⟩, e⟩ := h2 (hfree hd ho)
      exact ⟨a, b, c, d, e⟩
  · have hn := funcs_length_of_st (n := f) (s := s) (by rw [hst]; decide)
    obtain ⟨t, hx, hrest⟩ := answer_settled s (testTimesOut f s)
    rw [testTimesOut_of_stood hst hstood] at hrest
    obtain ⟨h1, h2⟩ := testEnds_outcome (v := s) hn (.inr rfl) ⟨rfl, rfl, rfl, rfl, rfl⟩ hrest
    refine ⟨t, hx, fun h => ?_, fun hd ho => ?_⟩
    · obtain ⟨⟨a, b, c⟩, d⟩ := h1 h
      exact ⟨a, b, c, d⟩
    · obtain ⟨⟨a, b, c, d⟩, e⟩ := h2 (hfree hd ho)
      exact ⟨a, b, c, d, e⟩
  · obtain ⟨t, hx, h1, h2, h3, h4, h5⟩ := brakeTestPass_outcome hst htorque
    refine ⟨t, hx, h1, h2, h3, h4, fun hd ho => ?_⟩
    obtain ⟨⟨a, b, c, d, e⟩, hl⟩ := h5 (hfree hd ho)
    exact ⟨a, b, c, d, e, hl⟩
  · obtain ⟨t, hx, h1, h2, h3, h4, h5⟩ := brakeTestFail_outcome hst htorque
    refine ⟨t, hx, h1, h2, h3, h4, fun hd ho => ?_⟩
    obtain ⟨⟨a, b, c, d, e⟩, hl⟩ := h5 (hfree hd ho)
    exact ⟨a, b, c, d, e, hl⟩

end Sys2Proof.Machine
end

section
/-! PROOFS. The inputs of the supply and the hold-up store (03_supplies_and_harbour_watch.md R60 to R66). -/

namespace Sys2Proof.Machine

/-! ### What follows a change of the supplies -/

/-- What follows reads of the supplies: the groups, the rails and the phase of harbour watch. -/
structure PwrSame (p q : Pwr) : Prop where
  groups    : p.groups = q.groups := by rfl
  powerDown : p.powerDown = q.powerDown := by rfl
  railsOff  : p.railsOff = q.railsOff := by rfl
  hbr       : p.hbr = q.hbr := by rfl

theorem follow_of_pwr {p : Pwr} (s : State) (l : Log) (h : PwrSame p s.pwr) :
    { follow { s with pwr := p, log := l } with pwr := s.pwr, log := s.log } = follow s := by
  obtain ⟨hg, hd, ho, hh⟩ := h
  cases p
  cases s with
  | mk _ _ _ q =>
    cases q
    simp only at hg hd ho hh
    subst hg hd ho hh
    rfl

section
variable {s u : State}

/-- A change of the supplies and the log that reads to what follows as before. -/
theorem follow_of_supply (hu : { u with pwr := s.pwr, log := s.log } = s) (hp : PwrSame u.pwr s.pwr) :
    { follow u with pwr := s.pwr, log := s.log } = follow s := by
  have e : u = { s with pwr := u.pwr, log := u.log } := by
    have e := congrArg (fun x : State => { x with pwr := u.pwr, log := u.log }) hu
    exact e
  have h := follow_of_pwr s u.log hp
  rw [← e] at h
  exact h

/-- A change of the supplies alone. -/
theorem follow_of_supplies (hu : { u with pwr := s.pwr } = s) (hp : PwrSame u.pwr s.pwr) : { follow u with pwr := s.pwr } = follow s := by
  have hl : u.log = s.log := by
    have e := congrArg State.log hu
    exact e
  have h := follow_of_supply (s := s) (u := u) (by rw [← hl]; exact hu) hp
  rw [← hl] at h
  exact h

theorem supplyRecord_frame (e : Ev) (sev : Severity) (s : State) :
    { supplyRecord e sev s with log := s.log } = s ∧ (supplyRecord e sev s).pwr = s.pwr := by
  unfold supplyRecord
  split <;> exact ⟨rfl, rfl⟩

theorem supplyRecord_log (e : Ev) (sev : Severity) {s u : State} (hr : railsOn u = true) (hl : u.log = s.log) (hm : u.mono = s.mono) :
    (supplyRecord e sev u).log = (raise e sev 0xFF 0 0 0 s).log := by
  unfold supplyRecord
  rw [if_pos hr]
  exact raise_log _ _ _ _ _ _ _ _ hl hm

/-! ### X1 (R60, R62) -/

/-- X1 as it comes. -/
def x1Comes (dc : Bool) (s : State) : State := onPwr (fun p => { p with x1 := true, x1Dc := dc, source := .mains }) s

/-- X1 comes, recorded where it ends the backup. -/
def x1Told (dc : Bool) (s : State) : State :=
  if s.pwr.source = .backup then supplyRecord .supplyOnMains .notice (x1Comes dc s) else x1Comes dc s

theorem x1Told_frame (dc : Bool) (s : State) :
    { x1Told dc s with pwr := s.pwr, log := s.log } = s ∧ (x1Told dc s).pwr = { s.pwr with x1 := true, x1Dc := dc, source := .mains } ∧
      (x1Told dc s).sys = s.sys := by
  unfold x1Told supplyRecord
  split
  · split <;> exact ⟨rfl, rfl, rfl⟩
  · exact ⟨rfl, rfl, rfl⟩

theorem x1Told_log (dc : Bool) (s : State) :
    (s.pwr.source = .backup → railsOn s = true → (x1Told dc s).log = (raise .supplyOnMains .notice 0xFF 0 0 0 s).log) ∧
      (s.pwr.source ≠ .backup → (x1Told dc s).log = s.log) := by
  unfold x1Told
  refine ⟨fun h hr => ?_, fun h => by rw [if_neg h]; rfl⟩
  rw [if_pos h]
  exact supplyRecord_log _ _ hr rfl rfl

theorem x1Present_outcome (dc : Bool) (s : State) :
    ∃ t, exec (.x1Present dc) s = .next t ∧ t.pwr.x1 = true ∧ t.pwr.x1Dc = dc ∧ t.pwr.source = .mains ∧
      (inHarbour s = true → t.pwr.wakeWait = s.pwr.wakeWait ++ [.x1Return]) ∧
      (s.pwr.source = .backup → railsOn s = true →
        t.log = (raise .supplyOnMains .notice 0xFF 0 0 0 s).log) ∧
      (s.pwr.source ≠ .backup → t.log = s.log) ∧ { t with pwr := s.pwr, log := s.log } = follow s := by
  obtain ⟨hframe, hpwr, hsys⟩ := x1Told_frame dc s
  obtain ⟨hback, helse⟩ := x1Told_log dc s
  have hx : exec (.x1Present dc) s = answer (if inHarbour (x1Told dc s) then wakeBy .x1Return (x1Told dc s) else x1Told dc s) := rfl
  have hh : inHarbour (x1Told dc s) = inHarbour s := by
    unfold inHarbour
    rw [hpwr, hsys]
  rw [hh] at hx
  generalize x1Told dc s = u at hframe hpwr hback helse hx
  by_cases h : inHarbour s = true
  · rw [if_pos h] at hx
    have hp : (wakeBy .x1Return u).pwr = { s.pwr with x1 := true, x1Dc := dc, source := .mains, wakeWait := s.pwr.wakeWait ++ [WakeSource.x1Return] } := by
      show { u.pwr with wakeWait := u.pwr.wakeWait ++ [WakeSource.x1Return] } = _
      rw [hpwr]
    refine ⟨_, hx, ?_, ?_, ?_, fun _ => ?_, hback, helse, follow_of_supply hframe ?_⟩
    · exact congrArg Pwr.x1 hp
    · exact congrArg Pwr.x1Dc hp
    · exact congrArg Pwr.source hp
    · exact congrArg Pwr.wakeWait hp
    · rw [hp]
      exact {}
  · rw [if_neg h] at hx
    refine ⟨_, hx, ?_, ?_, ?_, fun e => absurd e h, hback, helse, follow_of_supply hframe ?_⟩
    · exact congrArg Pwr.x1 hpwr
    · exact congrArg Pwr.x1Dc hpwr
    · exact congrArg Pwr.source hpwr
    · rw [hpwr]
      exact {}

theorem x1Lost_fed (hx2 : x2Feeds s = true) (hr : railsOn s = true) (hfed : s.pwr.x1 = true ∨ s.pwr.source = .mains) :
    ∃ t, exec .x1Lost s = .next t ∧ t.pwr = { s.pwr with x1 := false, source := .backup } ∧
      t.log = (raise .supplyOnBackup .notice 0xFF 0 0 0 s).log ∧ { t with pwr := s.pwr, log := s.log } = follow s := by
  have hfeeds : ((s.pwr.x1 || s.pwr.source == .mains) && x2Feeds s) = true := by
    rw [hx2, Bool.and_true]
    obtain h | h := hfed
    · rw [h]
      rfl
    · rw [h]
      exact Bool.or_true _
  have hx : exec .x1Lost s = answer (supplyRecord .supplyOnBackup .notice (onPwr (fun p => { p with x1 := false, source := .backup }) s)) :=
    congrArg answer (if_pos hfeeds)
  obtain ⟨hframe, hpwr⟩ := supplyRecord_frame .supplyOnBackup .notice (onPwr (fun p => { p with x1 := false, source := .backup }) s)
  have hlog := supplyRecord_log .supplyOnBackup .notice (s := s) (u := onPwr (fun p => { p with x1 := false, source := .backup }) s) hr rfl rfl
  generalize supplyRecord .supplyOnBackup .notice (onPwr (fun p => { p with x1 := false, source := .backup }) s) = u at hx hframe hpwr hlog
  refine ⟨_, hx, hpwr, hlog, follow_of_supply ?_ ?_⟩
  · have e := congrArg (fun x : State => { x with pwr := s.pwr }) hframe
    exact e
  · rw [hpwr]
    exact {}

theorem x1Lost_unfed (hx2 : x2Feeds s = false) :
    ∃ t, exec .x1Lost s = .next t ∧ t.pwr = { s.pwr with x1 := false } ∧ { t with pwr := s.pwr } = follow s := by
  have hx : exec .x1Lost s = answer (onPwr (fun p => { p with x1 := false }) s) := by
    refine congrArg answer (if_neg ?_)
    show ¬((s.pwr.x1 || s.pwr.source == .mains) && x2Feeds s) = true
    rw [hx2, Bool.and_false]
    decide
  exact ⟨_, hx, rfl, follow_of_supplies rfl {}⟩

/-! ### X2 (R60, R61, R83) -/

/-- Whether the backup converter takes the bus from the store. -/
def Pwr.takesOver (p : Pwr) : Prop :=
  p.source = .holdup ∧ p.x2 = true ∧ p.x1 = false ∧ p.x2Cut = false ∧ p.rideAt = none ∧ p.powerDown = false

theorem Pwr.backupFeeds_eq (p : Pwr) {c : Prop} [Decidable c] (hc : c ↔ p.takesOver) :
    p.backupFeeds = { p with source := if c then .backup else p.source } := by
  have h : (p.source = .holdup ∧ p.x2 ∧ !p.x1 ∧ !p.x2Cut ∧ p.rideAt.isNone ∧ !p.powerDown) ↔ p.takesOver := by
    unfold Pwr.takesOver
    simp
  unfold Pwr.backupFeeds
  by_cases ht : p.takesOver
  · exact (if_pos (h.mpr ht)).trans (by rw [if_pos (hc.mpr ht)])
  · exact (if_neg fun e => ht (h.mp e)).trans (by rw [if_neg fun e => ht (hc.mp e)])

theorem backupFeeds_same (p : Pwr) : PwrSame p.backupFeeds p := by
  unfold Pwr.backupFeeds
  split <;> exact {}

theorem x2Present_outcome (s : State) :
    ∃ t, exec .x2Present s = .next t ∧ t.pwr.x2 = true ∧
      t.pwr.source = (if s.pwr.source = .holdup ∧ s.pwr.x1 = false ∧ s.pwr.x2Cut = false ∧ s.pwr.rideAt = none ∧ s.pwr.powerDown = false
        then Source.backup else s.pwr.source) ∧
      { t with pwr := { t.pwr with x2 := s.pwr.x2, source := s.pwr.source } } = follow s := by
  have hp := Pwr.backupFeeds_eq { s.pwr with x2 := true }
    (c := s.pwr.source = .holdup ∧ s.pwr.x1 = false ∧ s.pwr.x2Cut = false ∧ s.pwr.rideAt = none ∧ s.pwr.powerDown = false)
    (by simp [Pwr.takesOver])
  have hx : exec .x2Present s = answer { s with pwr := { s.pwr with x2 := true }.backupFeeds } := rfl
  have hframe := follow_of_supplies (u := { s with pwr := { s.pwr with x2 := true }.backupFeeds }) (s := s) rfl
    (by
      obtain ⟨h1, h2, h3, h4⟩ := backupFeeds_same { s.pwr with x2 := true }
      exact ⟨h1, h2, h3, h4⟩)
  rw [hp] at hx hframe
  exact ⟨_, hx, rfl, rfl, hframe⟩

theorem x2Lost_awake (h : s.sys.mode ≠ .harbour) :
    ∃ t, exec .x2Lost s = .next t ∧ t.pwr = { s.pwr with x2 := false } ∧ { t with pwr := s.pwr } = follow s := by
  have hx : exec .x2Lost s = answer (onPwr (fun p => { p with x2 := false }) s) := congrArg answer (if_neg h)
  exact ⟨_, hx, rfl, follow_of_supplies rfl {}⟩

theorem x2Lost_harbour (h : s.sys.mode = .harbour) :
    ∃ t, exec .x2Lost s = .next t ∧ t.pwr.x2 = false ∧ t.pwr.retentionLost = true ∧ t.mem.cells = [] ∧
      (∀ b ∈ t.mem.banks, b.powered = false ∧ b.retained = false) ∧ { t with pwr := s.pwr, mem := s.mem }.rest = s.rest := by
  have hx : exec .x2Lost s = answer (dropRetention (onPwr (fun p => { p with x2 := false }) s)) := congrArg answer (if_pos h)
  refine ⟨_, hx, rfl, rfl, rfl, fun b hb => ?_, ?_⟩
  · obtain ⟨c, -, rfl⟩ := List.mem_map.mp hb
    exact ⟨rfl, rfl⟩
  · have e := congrArg (fun x : State => { x with pwr := s.rest.pwr, mem := s.rest.mem }) (follow_rest (dropRetention (onPwr (fun p => { p with x2 := false }) s)))
    exact e

theorem x2Over_outcome (s : State) :
    ∃ t, exec .x2Over s = .next t ∧ t.pwr.x2Cut = true ∧ x2Feeds t = false ∧ t.pwr.flags.getLsbD 21 = true ∧
      t.pwr.standing.getLsbD 21 = true ∧ { t with pwr := s.pwr } = follow s :=
  ⟨_, rfl, rfl, Bool.and_false _, setBit_get s.pwr.flags 21 (by decide), setBit_get s.pwr.standing 21 (by decide), follow_of_supplies rfl {}⟩

theorem setBit_clear_get {w : Nat} (x : BitVec w) (n : Nat) : (setBit x n false).getLsbD n = false := by
  simp [setBit]

theorem x2Reconnect_outcome (s : State) :
    ∃ t, exec .x2Reconnect s = .next t ∧ t.pwr.x2Cut = false ∧ t.pwr.flags = s.pwr.flags ∧
      t.pwr.standing.getLsbD 21 = false ∧
      t.pwr.source = (if s.pwr.source = .holdup ∧ s.pwr.x2 = true ∧ s.pwr.x1 = false ∧ s.pwr.rideAt = none ∧ s.pwr.powerDown = false
        then Source.backup else s.pwr.source) ∧ { t with pwr := s.pwr } = follow s := by
  have hp := Pwr.backupFeeds_eq { s.pwr with x2Cut := false, standing := setBit s.pwr.standing 21 false }
    (c := s.pwr.source = .holdup ∧ s.pwr.x2 = true ∧ s.pwr.x1 = false ∧ s.pwr.rideAt = none ∧ s.pwr.powerDown = false)
    (by simp [Pwr.takesOver])
  have hx : exec .x2Reconnect s =
      answer { s with pwr := { s.pwr with x2Cut := false, standing := setBit s.pwr.standing 21 false }.backupFeeds } := rfl
  rw [hp] at hx
  exact ⟨_, hx, rfl, rfl, setBit_clear_get s.pwr.standing 21, rfl, follow_of_supplies rfl {}⟩

/-! ### Records while the logic has power (R60, R63) -/

/-- A condition that stands, recorded. -/
theorem standing_outcome {n : Nat} (hn : n < 32) (e : Ev) (sev : Severity) (hr : railsOn s = true) :
    (follow (supplyRecord e sev (pwrStands n s))).pwr.flags.getLsbD n = true ∧
      (follow (supplyRecord e sev (pwrStands n s))).log = (raise e sev 0xFF 0 0 0 s).log ∧
      { follow (supplyRecord e sev (pwrStands n s)) with pwr := s.pwr, log := s.log } = follow s := by
  obtain ⟨hframe, hpwr⟩ := supplyRecord_frame e sev (pwrStands n s)
  have hlog := supplyRecord_log e sev (s := s) (u := pwrStands n s) hr rfl rfl
  generalize supplyRecord e sev (pwrStands n s) = u at hframe hpwr hlog
  refine ⟨?_, hlog, follow_of_supply ?_ ?_⟩
  · rw [follow_pwr, hpwr]
    exact setBit_get s.pwr.flags n hn
  · have e := congrArg (fun x : State => { x with pwr := s.pwr }) hframe
    exact e
  · rw [hpwr]
    exact {}

theorem x2Low_outcome (hr : railsOn s = true) (h : s.pwr.source = .backup) :
    ∃ t, exec .x2Low s = .next t ∧ t.pwr.flags.getLsbD 1 = true ∧ t.log = (raise .x2Low .notice 0xFF 0 0 0 s).log ∧
      { t with pwr := s.pwr, log := s.log } = follow s :=
  ⟨_, congrArg answer (if_pos h), standing_outcome (by decide) .x2Low .notice hr⟩

theorem logicHigh_outcome (hr : railsOn s = true) :
    ∃ t, exec .logicHigh s = .next t ∧ t.pwr.flags.getLsbD 22 = true ∧
      t.log = (raise .logicHigh .fault 0xFF 0 0 0 s).log ∧ { t with pwr := s.pwr, log := s.log } = follow s :=
  ⟨_, rfl, standing_outcome (by decide) .logicHigh .fault hr⟩

/-! ### The hold-up store (R64 to R66) -/

/-- The figures of the store, and the conditions that stand. -/
def holdupFigures (esr cap ms : Nat) (w : Word) (s : State) : State :=
  onPwr (fun p => { p with esr := esr, cap := cap, holdupMs := ms, standing := w }) s

theorem holdupFigures_kept (esr cap ms : Nat) (w : Word) (s : State) :
    (holdupFigures esr cap ms w s).pwr.esr = esr ∧ (holdupFigures esr cap ms w s).pwr.cap = cap ∧
      (holdupFigures esr cap ms w s).pwr.holdupMs = ms ∧ (holdupFigures esr cap ms w s).pwr.flags = s.pwr.flags ∧
      (holdupFigures esr cap ms w s).log = s.log ∧ { holdupFigures esr cap ms w s with pwr := s.pwr } = s ∧
      PwrSame (holdupFigures esr cap ms w s).pwr s.pwr ∧ railsOn (holdupFigures esr cap ms w s) = railsOn s :=
  ⟨rfl, rfl, rfl, rfl, rfl, rfl, {}, rfl⟩

/-- A condition of the store that is flagged and recorded. -/
def holdupTold (c : Bool) (n : Nat) (e : Ev) (sev : Severity) (s : State) : State := if c then holdupRecord e sev (pwrFlag n s) else s

theorem holdupMeasure_eq (esr cap : Nat) (s : State) : ∃ w, holdupMeasure esr cap s =
    holdupTold (decide (cap * 432 < 30000)) 3 .holdupLow .fault
      (holdupTold (decide (cap * 432 < 40000) || decide (2 * s.pwr.esrFactory < esr)) 2 .holdupWear .notice
        (holdupFigures esr cap (divEven (cap * 432 : Nat) 1000).toNat w s)) := ⟨_, rfl⟩

theorem holdupTold_false (n : Nat) (e : Ev) (sev : Severity) (s : State) : holdupTold false n e sev s = s := rfl

/-- What a condition of the store leaves: all but the flag and the record. -/
theorem holdupTold_frame (c : Bool) (n : Nat) (e : Ev) (sev : Severity) (s : State) :
    { holdupTold c n e sev s with pwr := s.pwr, log := s.log } = s ∧
      ∃ w, (holdupTold c n e sev s).pwr = { s.pwr with flags := w } ∧ ∀ k, s.pwr.flags.getLsbD k = true → w.getLsbD k = true := by
  unfold holdupTold holdupRecord
  cases c
  · exact ⟨rfl, s.pwr.flags, rfl, fun _ h => h⟩
  · rw [if_pos rfl]
    have hkeep (k : Nat) (h : s.pwr.flags.getLsbD k = true) : (flag n s.pwr.flags).getLsbD k = true := flag_keeps n h
    split
    · exact ⟨rfl, _, rfl, hkeep⟩
    · exact ⟨rfl, _, rfl, hkeep⟩

/-- A condition of the store that holds while the logic has power. -/
theorem holdupTold_true {n : Nat} (hn : n < 32) (e : Ev) (sev : Severity) {s : State} (hr : railsOn s = true) :
    (holdupTold true n e sev s).pwr.flags.getLsbD n = true ∧ (holdupTold true n e sev s).log.nextSeq = s.log.nextSeq + 1 := by
  have hrec (u : State) (hu : railsOn u = true) : (holdupRecord e sev u).pwr = u.pwr ∧ (holdupRecord e sev u).log.nextSeq = u.log.nextSeq + 1 := by
    unfold holdupRecord
    rw [if_pos hu]
    exact ⟨rfl, raise_nextSeq _ _ _ _ _ _ u⟩
  obtain ⟨h1, h2⟩ := hrec (pwrFlag n s) hr
  refine ⟨?_, h2⟩
  show (holdupRecord e sev (pwrFlag n s)).pwr.flags.getLsbD n = true
  rw [h1]
  exact setBit_get s.pwr.flags n hn

theorem holdupMeasure_outcome (esr cap : Nat) (hr : railsOn s = true) :
    ∃ t, exec (.holdupMeasure esr cap) s = .next t ∧ t.pwr.esr = esr ∧ t.pwr.cap = cap ∧
      t.pwr.holdupMs = (divEven (cap * 432 : Nat) 1000).toNat ∧
      (40000 ≤ cap * 432 → esr ≤ 2 * s.pwr.esrFactory → t.log = s.log ∧ t.pwr.flags = s.pwr.flags) ∧
      (cap * 432 < 40000 ∨ 2 * s.pwr.esrFactory < esr → t.pwr.flags.getLsbD 2 = true ∧ s.log.nextSeq < t.log.nextSeq) ∧
      (cap * 432 < 30000 → t.pwr.flags.getLsbD 3 = true ∧ t.log.nextSeq = s.log.nextSeq + 2) ∧
      { t with pwr := s.pwr, log := s.log } = follow s := by
  have hx : exec (.holdupMeasure esr cap) s = answer (holdupMeasure esr cap s) := rfl
  obtain ⟨w, he⟩ := holdupMeasure_eq esr cap s
  rw [he] at hx
  have hf := holdupFigures_kept esr cap (divEven (cap * 432 : Nat) 1000).toNat w s
  generalize holdupFigures esr cap (divEven (cap * 432 : Nat) 1000).toNat w s = u at hx hf
  obtain ⟨hesr, hcap, hms, hflags, hlog, hframe, hsame, hrails⟩ := hf
  have hru : railsOn u = true := hrails.trans hr
  obtain ⟨hframe1, w1, hpwr1, hkeep1⟩ := holdupTold_frame (decide (cap * 432 < 40000) || decide (2 * s.pwr.esrFactory < esr)) 2 .holdupWear .notice u
  have hwear (h : cap * 432 < 40000 ∨ 2 * s.pwr.esrFactory < esr) : (decide (cap * 432 < 40000) || decide (2 * s.pwr.esrFactory < esr)) = true := by
    simpa using h
  have htrue1 := holdupTold_true (n := 2) (by decide) .holdupWear .notice hru
  have hon : ∀ v : State, PwrSame v.pwr u.pwr → railsOn v = true := fun v hv => by
    unfold railsOn
    rw [hv.railsOff, hv.hbr]
    exact hru
  generalize hv : holdupTold (decide (cap * 432 < 40000) || decide (2 * s.pwr.esrFactory < esr)) 2 .holdupWear .notice u = v at *
  have hsame1 : PwrSame v.pwr u.pwr := by
    rw [hpwr1]
    exact {}
  obtain ⟨hframe2, w2, hpwr2, hkeep2⟩ := holdupTold_frame (decide (cap * 432 < 30000)) 3 .holdupLow .fault v
  have htrue2 := holdupTold_true (n := 3) (by decide) .holdupLow .fault (hon v hsame1)
  have hseq2 : v.log.nextSeq ≤ (holdupTold (decide (cap * 432 < 30000)) 3 .holdupLow .fault v).log.nextSeq := by
    by_cases h : cap * 432 < 30000
    · rw [decide_eq_true h, htrue2.2]
      exact Nat.le_succ _
    · rw [decide_eq_false h]
      exact Nat.le_refl _
  generalize hz : holdupTold (decide (cap * 432 < 30000)) 3 .holdupLow .fault v = z at *
  have hzp : z.pwr = { u.pwr with flags := w2 } := by rw [hpwr2, hpwr1]
  refine ⟨_, hx, ?_, ?_, ?_, fun h1 h2 => ?_, fun h => ?_, fun h => ?_, follow_of_supply ?_ ?_⟩
  · rw [follow_pwr, hzp]
    exact hesr
  · rw [follow_pwr, hzp]
    exact hcap
  · rw [follow_pwr, hzp]
    exact hms
  · have hc1 : (decide (cap * 432 < 40000) || decide (2 * s.pwr.esrFactory < esr)) = false := by
      simp only [Bool.or_eq_false_iff, decide_eq_false_iff_not]
      omega
    rw [hc1, holdupTold_false] at hv
    rw [decide_eq_false (show ¬cap * 432 < 30000 by omega), holdupTold_false] at hz
    subst hv hz
    exact ⟨hlog, hflags⟩
  · rw [hwear h] at hv
    subst hv
    obtain ⟨hflag, hseq⟩ := htrue1
    refine ⟨?_, ?_⟩
    · rw [follow_pwr, hpwr2]
      exact hkeep2 2 hflag
    · rw [follow_log]
      rw [hlog] at hseq
      omega
  · rw [hwear (.inl (by omega))] at hv
    rw [decide_eq_true h] at hz
    subst hv hz
    rw [follow_pwr, follow_log]
    exact ⟨htrue2.1, by rw [htrue2.2, htrue1.2, hlog]⟩
  · have e := congrArg (fun x : State => { x with pwr := s.pwr, log := s.log }) hframe2
    have e' := congrArg (fun x : State => { x with pwr := s.pwr, log := s.log }) hframe1
    have e'' := congrArg (fun x : State => { x with pwr := s.pwr, log := s.log }) hframe
    exact (e.trans e').trans e''
  · rw [hzp]
    exact ⟨hsame.groups, hsame.powerDown, hsame.railsOff, hsame.hbr⟩

/-- The energy of the store, and whether it is ready. -/
def holdupEnergised (e : Nat) (ready : Bool) (s : State) : State := onPwr (fun p => { p with energy := e, holdupReady := ready }) s

theorem holdupEnergised_outcome (e : Nat) (ready : Bool) (s : State) :
    (follow (holdupEnergised e ready s)).pwr.holdupReady = ready ∧ { follow (holdupEnergised e ready s) with pwr := s.pwr } = follow s :=
  ⟨rfl, follow_of_supplies rfl {}⟩

theorem holdupEnergy_eq (mV : Nat) (s : State) : ∃ e, holdupEnergy mV s =
    holdupEnergised e (decide (120000000000 ≤ (if s.pwr.cap = 0 then 150 else s.pwr.cap) * (mV * mV - 576000000))) s := ⟨_, rfl⟩

theorem holdupEnergyUpdate_outcome (mV : Nat) (s : State) :
    ∃ t, exec (.holdupEnergyUpdate mV) s = .next t ∧
      t.pwr.holdupReady = decide (120000000000 ≤ (if s.pwr.cap = 0 then 150 else s.pwr.cap) * (mV * mV - 576000000)) ∧
      { t with pwr := s.pwr } = follow s := by
  obtain ⟨e, he⟩ := holdupEnergy_eq mV s
  exact ⟨_, congrArg answer he, holdupEnergised_outcome e _ s⟩

end

/-- Settles O40: each command by its own outcome. -/
theorem inputsAndTheStore : Obligations.InputsAndTheStore := by
  unfold Obligations.InputsAndTheStore
  intro s
  exact ⟨fun dc => x1Present_outcome dc s, x1Lost_fed, x1Lost_unfed, x2Present_outcome s, x2Lost_awake, x2Lost_harbour, x2Over_outcome s,
    x2Reconnect_outcome s, fun hr => ⟨x2Low_outcome hr, logicHigh_outcome hr, fun esr cap => holdupMeasure_outcome esr cap hr⟩,
    fun mV => holdupEnergyUpdate_outcome mV s⟩

end Sys2Proof.Machine
end

section
/-! PROOFS. The loss of the bus, the ride-through and the power-down (03_supplies_and_harbour_watch.md R67 to R70). -/

namespace Sys2Proof.Machine

/-! ### The steps of a power-down (R67) -/

/-- HANDOVER_NOW and the SAFE frames. -/
def downCalled (s : State) : State :=
  let s := if s.sys.role = .active then handoverNow s else s
  if s.sys.role = .solo then ringSafeOnce s else s

/-- Every cycle ends, and the stages go to their policies. -/
def downStopped (s : State) : State :=
  stagesCommanded (onPwr (fun p => { p with powerDown := true, rideAt := none }) (onSec (fun x => { x with armed := false }) (stopTasks s)))

/-- Every cycle, the role and the buses end. -/
def downEnded (s : State) : State := busesStop (dropRole (downStopped s))

/-- No start and no mode request stands. -/
def downIdle (s : State) : State := onStart (fun t => { t with phase := .idle }) (onCyc (fun c => { c with pendingReq := none }) s)

/-- The record of the power-down. -/
def downTold (s : State) : State := raise .powerDown .notice 0xFF 0 0 0 (downIdle s)

/-- The staged records that the store still writes. -/
def downWritten (full : Bool) (rows : PowerRows) (s : State) : State :=
  if s.log.accepting then storeStaged (if full then s.log.staged.length else rows.records) s else s

/-- What the store still writes. -/
def downStored (full : Bool) (rows : PowerRows) (s : State) : State :=
  let s := downWritten full rows s
  if s.log.accepting && s.log.staged.isEmpty && (full || rows.backup) then storeBackup s else s

/-- The rails go off, in STARTING. -/
def downOff (starting : Bool) (s : State) : State := railsGoOff (if starting then s else setMode .starting s)

theorem powerDown_eq {s : State} (rows : PowerRows) (hr : s.pwr.railsOff = false) (hp : s.pwr.powerDown = false) :
    powerDown rows s = downOff (s.sys.mode == .starting)
      (downStored (s.pwr.rideAt.isSome || decide (250 ≤ s.pwr.energy)) rows (downTold (downEnded (downCalled s)))) := by
  unfold powerDown
  rw [if_neg (by rw [hr, hp]; decide)]
  unfold downOff downStored downWritten downTold downIdle downEnded downStopped downCalled
  dsimp only

/-! ### What each step leaves -/

/-- What a power-down's first steps keep. -/
structure DownCore where
  key   : Key
  rtc   : Rtc
  log   : Log
  pwr   : Pwr
  tasks : List Task
  mode  : Mode

/-- What a power-down's first steps keep of a state. -/
def State.downCore (s : State) : DownCore :=
  { key := s.key, rtc := s.rtc, log := s.log, pwr := s.pwr, tasks := s.cyc.tasks, mode := s.sys.mode }

theorem sendPennant_downCore (cmd arg num at_ new : Nat) (s : State) : (sendPennant cmd arg num at_ new s).downCore = s.downCore := rfl

theorem handoverNow_downCore (s : State) : (handoverNow s).downCore = s.downCore :=
  keeps_ite State.downCore
    ((sendPennant_downCore ..).trans ((sendPennant_downCore ..).trans (sendPennant_downCore ..))) rfl

theorem sendOutput_downCore (safe : Bool) (data : List Byte) (cycle launch : Nat) (x : Station) (s : State) :
    (sendOutput safe data cycle launch x s).downCore = s.downCore := by
  unfold sendOutput ringSend
  exact keeps_ite State.downCore rfl rfl

theorem ringSafeOnce_downCore (s : State) : (ringSafeOnce s).downCore = s.downCore :=
  forAll_keeps _ _ _ (fun x t => sendOutput_downCore true _ _ _ x t) s

theorem downCalled_core (s : State) : (downCalled s).downCore = s.downCore :=
  (keeps_ite State.downCore (ringSafeOnce_downCore _) rfl).trans (keeps_ite State.downCore (handoverNow_downCore s) rfl)

theorem downCore_of_besideQueues {s u : State} (h : u.besideQueues = s.besideQueues) : u.downCore = s.downCore := by
  have e := congrArg State.downCore h
  exact e

theorem dropRole_downCore (s : State) : (dropRole s).downCore = s.downCore := by
  refine (rfl : (dropRole s).downCore =
    (if s.sys.role == .active then retireAll (fun x => x.user == userHart) retRoleLost s else s).downCore).trans ?_
  exact keeps_ite State.downCore (downCore_of_besideQueues (retireAll_besideQueues (fun x => x.user == userHart) retRoleLost s)) rfl

theorem busesStop_besideQueues (s : State) : (busesStop s).besideQueues = s.besideQueues := by
  have h1 : ∀ u : State, (hartStops u).besideQueues = u.besideQueues := fun _ => rfl
  exact (h1 _).trans ((canAllOff_besideQueues _).trans rfl)

theorem dropRole_role (s : State) : (dropRole s).sys.role = .none := rfl

/-- A task that stands still. -/
def Task.stopped (x : Task) : Prop := x.cycleAt = none ∧ x.held = none

theorem downStopped_core (s : State) : (downStopped s).downCore =
    { s.downCore with
      pwr := { s.pwr with powerDown := true, rideAt := none }
      tasks := s.cyc.tasks.map fun t => { t with cycleAt := none, started := false, held := none } } := rfl

theorem downEnded_core (s : State) : (downEnded s).downCore = (downStopped s).downCore ∧ (downEnded s).sys.role = .none := by
  unfold downEnded
  generalize downStopped s = u
  have hd := dropRole_downCore u
  have hr := dropRole_role u
  generalize dropRole u = v at hd hr
  have hb := busesStop_besideQueues v
  generalize busesStop v = w at hb
  refine ⟨(downCore_of_besideQueues hb).trans hd, ?_⟩
  have hrole := congrArg (fun x : State => x.sys.role) hb
  exact hrole.trans hr

theorem raise_downCore (e : Ev) (sev : Severity) (a b c d : Nat) (u : State) :
    (raise e sev a b c d u).downCore = { u.downCore with log := (raise e sev a b c d u).log } ∧ (raise e sev a b c d u).sys.role = u.sys.role ∧
      (raise e sev a b c d u).log.accepting = u.log.accepting ∧ (raise e sev a b c d u).log.opsec = u.log.opsec := by
  have he := raise_frame e sev a b c d u
  have h1 := congrArg State.downCore he
  have h2 := congrArg (fun x : State => x.sys.role) he
  refine ⟨h1, h2, ?_⟩
  unfold raise raiseRecord
  simp only [onLog_log]
  split <;> exact ⟨rfl, rfl⟩

theorem downIdle_core (s : State) : (downIdle s).downCore = s.downCore ∧ (downIdle s).sys.role = s.sys.role ∧ (downIdle s).log = s.log :=
  ⟨rfl, rfl, rfl⟩

theorem downTold_core (s : State) : (downTold s).downCore = { s.downCore with log := (downTold s).log } ∧
    (downTold s).sys.role = s.sys.role ∧ (downTold s).log.accepting = s.log.accepting ∧ (downTold s).log.opsec = s.log.opsec := by
  obtain ⟨h1, h2, h3⟩ := downIdle_core s
  unfold downTold
  generalize downIdle s = u at *
  obtain ⟨g1, g2, g3, g4⟩ := raise_downCore .powerDown .notice 0xFF 0 0 0 u
  exact ⟨by rw [g1, h1], g2.trans h2, by rw [g3, h3], by rw [g4, h3]⟩

/-! ### The staged records are written (R67, R466) -/

theorem logStored_kept (r : LogRec) (rest : List LogRec) (l : Log) (k : Option Nat) :
    (logStored r rest l k).accepting = l.accepting ∧ (logStored r rest l k).opsec = l.opsec ∧ (logStored r rest l k).staged = rest := by
  cases k <;> exact ⟨rfl, rfl, rfl⟩

/-- Writing staged records changes the log alone; as many writes as records leave none. -/
theorem storeStaged_outcome (n : Nat) {s : State} (hacc : s.log.accepting = true) :
    { storeStaged n s with log := s.log } = s ∧ (storeStaged n s).log.accepting = true ∧ (storeStaged n s).log.opsec = s.log.opsec ∧
      (s.log.staged.length ≤ n → (storeStaged n s).log.staged = []) := by
  induction n generalizing s with
  | zero => exact ⟨rfl, hacc, rfl, fun h => List.length_eq_zero_iff.mp (Nat.le_zero.mp h)⟩
  | succ n ih =>
    unfold storeStaged
    cases hst : s.log.staged with
    | nil => exact ⟨rfl, hacc, rfl, fun _ => hst⟩
    | cons r rest =>
      rw [if_neg (by simp)]
      have he := recordStore_stored hacc hst
      obtain ⟨h1, h2, h3⟩ := logStored_kept r rest s.log (slotFor r.sev s.log)
      generalize logStored r rest s.log (slotFor r.sev s.log) = l at he h1 h2 h3
      rw [he]
      obtain ⟨i1, i2, i3, i4⟩ := ih (s := { s with log := l }) (h1.trans hacc)
      refine ⟨?_, i2, i3.trans h2, fun h => i4 ?_⟩
      · have e := congrArg (fun x : State => { x with log := s.log }) i1
        exact e
      · show l.staged.length ≤ n
        rw [h3]
        exact Nat.le_of_succ_le_succ h

theorem storeBackup_frame (s : State) : { storeBackup s with log := s.log, mem := s.mem } = s ∧
    (storeBackup s).log = { s.log with opsecKept := s.log.opsec } := ⟨rfl, rfl⟩

theorem downWritten_outcome (full : Bool) (rows : PowerRows) (s : State) :
    { downWritten full rows s with log := s.log } = s ∧ (downWritten full rows s).log.accepting = s.log.accepting ∧
      (downWritten full rows s).log.opsec = s.log.opsec ∧
      (s.log.accepting = true → full = true → (downWritten full rows s).log.staged = []) := by
  unfold downWritten
  cases hacc : s.log.accepting with
  | false =>
    rw [if_neg (by decide)]
    exact ⟨rfl, hacc, rfl, nofun⟩
  | true =>
    obtain ⟨h1, h2, h3, h4⟩ := storeStaged_outcome (if full then s.log.staged.length else rows.records) hacc
    rw [if_pos rfl]
    refine ⟨h1, h2, h3, fun _ hfull => h4 ?_⟩
    rw [hfull]
    exact Nat.le_refl _

/-- What the store's writes leave of a power-down. -/
theorem downStored_outcome (full : Bool) (rows : PowerRows) (s : State) :
    (downStored full rows s).downCore = { s.downCore with log := (downStored full rows s).log } ∧
      (downStored full rows s).sys.role = s.sys.role ∧
      (s.log.accepting = true → full = true →
        (downStored full rows s).log.staged = [] ∧ (downStored full rows s).log.opsecKept = s.log.opsec) := by
  have hback (u : State) (c : Bool) : (if c then storeBackup u else u).downCore = { u.downCore with log := (if c then storeBackup u else u).log } ∧
      (if c then storeBackup u else u).sys.role = u.sys.role := by
    cases c <;> exact ⟨rfl, rfl⟩
  obtain ⟨h1, h2, h3, h4⟩ := downWritten_outcome full rows s
  unfold downStored
  dsimp only
  generalize downWritten full rows s = u at *
  obtain ⟨h5, h6⟩ := hback u (u.log.accepting && u.log.staged.isEmpty && (full || rows.backup))
  have hcore : u.downCore = { s.downCore with log := u.log } := by
    have e := congrArg (fun x : State => { x.downCore with log := u.log }) h1
    exact e
  have hrole : u.sys.role = s.sys.role := by
    have e := congrArg (fun x : State => x.sys.role) h1
    exact e
  refine ⟨by rw [h5, hcore], h6.trans hrole, fun hacc hfull => ?_⟩
  have hstaged := h4 hacc hfull
  rw [if_pos (by rw [h2, hacc, hstaged, hfull]; rfl)]
  exact ⟨hstaged, h3⟩

/-! ### The rails go off -/

theorem setMode_starting_core (s : State) : (setMode .starting s).downCore = { s.downCore with mode := .starting } ∧
    (setMode .starting s).sys.role = s.sys.role := ⟨rfl, rfl⟩

/-- A state whose rails have gone off. -/
structure RailsGone (s u : State) : Prop where
  key   : u.key = s.key
  rtc   : u.rtc = s.rtc
  log   : u.log = s.log
  tasks : u.cyc.tasks = s.cyc.tasks
  pwr   : u.pwr = { s.pwr with railsOff := true, rideAt := none }
  role  : u.sys.role = s.sys.role
  off   : u.sys.run = [] ∧ u.sys.refClock = false ∧ u.sys.pll = false
  funcs : ∀ f ∈ u.safe.funcs, f.hsOn = false ∧ f.lsOn = false

theorem railsGoOff_gone (s : State) : RailsGone s (railsGoOff s) ∧ (railsGoOff s).sys.mode = s.sys.mode := by
  refine ⟨⟨rfl, rfl, rfl, rfl, rfl, rfl, ⟨rfl, rfl, rfl⟩, fun f hf => ?_⟩, rfl⟩
  obtain ⟨g, -, rfl⟩ := List.mem_map.mp hf
  exact ⟨rfl, rfl⟩

theorem downOff_gone {starting : Bool} {s : State} (h : starting = (s.sys.mode == .starting)) :
    RailsGone s (downOff starting s) ∧ (downOff starting s).sys.mode = .starting := by
  subst h
  unfold downOff
  by_cases hm : s.sys.mode = .starting
  · rw [if_pos (by rw [hm]; rfl)]
    obtain ⟨h1, h2⟩ := railsGoOff_gone s
    exact ⟨h1, h2.trans hm⟩
  · rw [if_neg (by simpa using hm)]
    obtain ⟨h1, h2⟩ := railsGoOff_gone (setMode .starting s)
    obtain ⟨hc, hr⟩ := setMode_starting_core s
    have hkey := congrArg DownCore.key hc
    have hrtc := congrArg DownCore.rtc hc
    have hlog := congrArg DownCore.log hc
    have htasks := congrArg DownCore.tasks hc
    have hpwr := congrArg DownCore.pwr hc
    refine ⟨⟨h1.key.trans hkey, h1.rtc.trans hrtc, h1.log.trans hlog, h1.tasks.trans htasks, h1.pwr.trans ?_, h1.role.trans hr, h1.off, h1.funcs⟩, h2⟩
    exact congrArg (fun p : Pwr => { p with railsOff := true, rideAt := none }) hpwr

/-- A module that has powered down, as the state `s` before it had kept. -/
structure PoweredDown (s t : State) : Prop where
  railsOff : t.pwr.railsOff = true
  down     : t.pwr.powerDown = true
  ride     : t.pwr.rideAt = none
  mode     : t.sys.mode = .starting
  role     : t.sys.role = .none
  run      : t.sys.run = []
  refClock : t.sys.refClock = false
  tasks    : ∀ x ∈ t.cyc.tasks, x.cycleAt = none ∧ x.held = none
  funcs    : ∀ f ∈ t.safe.funcs, f.hsOn = false ∧ f.lsOn = false
  stored   : s.log.accepting = true → 250 ≤ s.pwr.energy ∨ s.pwr.rideAt.isSome = true → t.log.staged = [] ∧ t.log.opsecKept = s.log.opsec
  key      : t.key = s.key
  rtc      : t.rtc = s.rtc

theorem powerDown_down {s : State} (rows : PowerRows) (hr : s.pwr.railsOff = false) (hp : s.pwr.powerDown = false) :
    PoweredDown s (powerDown rows s) ∧ (powerDown rows s).sys.pll = false := by
  have h1 := downCalled_core s
  obtain ⟨h2, hrole2⟩ := downEnded_core (downCalled s)
  have hs := downStopped_core (downCalled s)
  obtain ⟨h3, hrole3, hacc3, hops3⟩ := downTold_core (downEnded (downCalled s))
  obtain ⟨h4, hrole4, hst4⟩ := downStored_outcome (s.pwr.rideAt.isSome || decide (250 ≤ s.pwr.energy)) rows (downTold (downEnded (downCalled s)))
  rw [powerDown_eq rows hr hp]
  generalize downCalled s = a at *
  generalize downEnded a = b at *
  generalize downTold b = c at *
  generalize downStored (s.pwr.rideAt.isSome || decide (250 ≤ s.pwr.energy)) rows c = d at *
  have hlogb : b.log = s.log := ((congrArg DownCore.log h2).trans (congrArg DownCore.log hs)).trans (congrArg DownCore.log h1)
  have hmode : d.sys.mode = s.sys.mode :=
    (congrArg DownCore.mode h4).trans ((congrArg DownCore.mode h3).trans ((congrArg DownCore.mode h2).trans ((congrArg DownCore.mode hs).trans (congrArg DownCore.mode h1))))
  have htasks : d.cyc.tasks = a.cyc.tasks.map fun t => { t with cycleAt := none, started := false, held := none } :=
    (congrArg DownCore.tasks h4).trans ((congrArg DownCore.tasks h3).trans ((congrArg DownCore.tasks h2).trans (congrArg DownCore.tasks hs)))
  have hpwr : d.pwr = { a.pwr with powerDown := true, rideAt := none } :=
    (congrArg DownCore.pwr h4).trans ((congrArg DownCore.pwr h3).trans ((congrArg DownCore.pwr h2).trans (congrArg DownCore.pwr hs)))
  have hkey : d.key = s.key :=
    (congrArg DownCore.key h4).trans ((congrArg DownCore.key h3).trans ((congrArg DownCore.key h2).trans ((congrArg DownCore.key hs).trans (congrArg DownCore.key h1))))
  have hrtc : d.rtc = s.rtc :=
    (congrArg DownCore.rtc h4).trans ((congrArg DownCore.rtc h3).trans ((congrArg DownCore.rtc h2).trans ((congrArg DownCore.rtc hs).trans (congrArg DownCore.rtc h1))))
  obtain ⟨hg, hgmode⟩ := downOff_gone (starting := s.sys.mode == .starting) (s := d) (by rw [hmode])
  refine ⟨⟨by rw [hg.pwr], ?_, by rw [hg.pwr], hgmode, ?_, hg.off.1, hg.off.2.1, fun x hx => ?_, hg.funcs, fun hacc hfull => ?_, hg.key.trans hkey,
    hg.rtc.trans hrtc⟩, hg.off.2.2⟩
  · rw [hg.pwr, hpwr]
  · rw [hg.role, hrole4, hrole3, hrole2]
  · rw [hg.tasks, htasks] at hx
    obtain ⟨y, -, rfl⟩ := List.mem_map.mp hx
    exact ⟨rfl, rfl⟩
  · have hf : (s.pwr.rideAt.isSome || decide (250 ≤ s.pwr.energy)) = true := by
      obtain h | h := hfull
      · simp [h]
      · simp [h]
    obtain ⟨hs1, hs2⟩ := hst4 (by rw [hacc3, hlogb]; exact hacc) hf
    rw [hg.log]
    exact ⟨hs1, by rw [hs2, hops3, hlogb]⟩

/-! ### What follows a power-down -/

/-- Clocks that stand still with the PLLs off stay so. -/
theorem follow_stopped {s : State} (hrun : s.sys.run = []) (href : s.sys.refClock = false) (hpll : s.sys.pll = false) :
    (follow s).sys.run = [] ∧ (follow s).sys.refClock = false := by
  have hempty : (allClocks.filter fun c => s.sys.run.contains c || (s.sys.pll && (clockRequested (refreshStages s) c || clockHeld (refreshStages s) c))) = [] := by
    rw [hrun, hpll]
    rfl
  refine ⟨hempty, ?_⟩
  have href' : (follow s).sys.refClock = (s.sys.refClock || !(allClocks.filter fun c => s.sys.run.contains c ||
    (s.sys.pll && (clockRequested (refreshStages s) c || clockHeld (refreshStages s) c))).isEmpty) := rfl
  rw [href', hempty, href]
  rfl

theorem poweredDown_settled {s v u : State} (h : PoweredDown s u) (hpll : u.sys.pll = false) : PoweredDown s (follow (settle v u)) := by
  have hrest := answer_settle_rest v u
  have hsys := settle_sys v u
  obtain ⟨hrun, href⟩ := follow_stopped (s := settle v u) (by rw [hsys]; exact h.run) (by rw [hsys]; exact h.refClock) (by rw [hsys]; exact hpll)
  have hlog := log_of_rest hrest
  generalize follow (settle v u) = t at hrest hrun href hlog
  have hget {α : Type} (f : State → α) : f t.rest = f u.rest := congrArg f hrest
  have htasks : t.cyc.tasks = u.cyc.tasks := hget fun x => x.cyc.tasks
  have hsafe := safe_of_rest hrest
  refine ⟨(hget fun x => x.pwr.railsOff).trans h.railsOff, (hget fun x => x.pwr.powerDown).trans h.down, (hget fun x => x.pwr.rideAt).trans h.ride,
    (hget fun x => x.sys.mode).trans h.mode, (hget fun x => x.sys.role).trans h.role, hrun, href, ?_, ?_, ?_, (hget State.key).trans h.key,
    (hget State.rtc).trans h.rtc⟩
  · rw [htasks]
    exact h.tasks
  · rw [hsafe]
    exact h.funcs
  · rw [hlog]
    exact h.stored

/-! ### The bus (R67, R69, R70) -/

section
variable {s : State} (rows : PowerRows) (hr : s.pwr.railsOff = false) (hp : s.pwr.powerDown = false)
include hr hp

theorem busLost_rides (hready : s.pwr.holdupReady = true) :
    ∃ t, exec (.busLost rows) s = .next t ∧ t.pwr.source = .holdup ∧ t.pwr.rideAt = some s.mono ∧
      t.sys.mode = s.sys.mode ∧ t.sys.role = s.sys.role ∧ { t with pwr := s.pwr }.rest = s.rest := by
  obtain ⟨t, hx, hrest⟩ := answer_settled s (busLost rows s)
  have he : busLost rows s = onPwr (fun p => { p with source := .holdup, rideAt := some s.mono }) s :=
    (if_neg (by rw [hr, hp]; decide)).trans (if_pos hready)
  rw [he] at hrest
  have hget {α : Type} (f : State → α) : f t.rest = f (onPwr (fun p => { p with source := .holdup, rideAt := some s.mono }) s).rest := congrArg f hrest
  exact ⟨t, hx, hget fun x => x.pwr.source, hget fun x => x.pwr.rideAt, hget fun x => x.sys.mode, hget fun x => x.sys.role,
    hget fun x => { x with pwr := s.rest.pwr }⟩

theorem busLost_down (hready : s.pwr.holdupReady = false) : ∃ t, exec (.busLost rows) s = .next t ∧ PoweredDown s t := by
  have he : busLost rows s = powerDown rows (onPwr (fun p => { p with source := .holdup }) s) :=
    (if_neg (by rw [hr, hp]; decide)).trans (if_neg (by rw [show (onPwr (fun p => { p with source := .holdup }) s).pwr.holdupReady = false from hready]; decide))
  obtain ⟨hd, hpll⟩ := powerDown_down (s := onPwr (fun p => { p with source := .holdup }) s) rows hr hp
  rw [← he] at hd hpll
  have hd' : PoweredDown s (busLost rows s) := ⟨hd.railsOff, hd.down, hd.ride, hd.mode, hd.role, hd.run, hd.refClock, hd.tasks, hd.funcs, hd.stored, hd.key, hd.rtc⟩
  exact ⟨_, rfl, poweredDown_settled hd' hpll⟩

theorem powerDown_outcome {t0 : Int} (hride : s.pwr.rideAt = some t0) (hover : t0 + 10000000 ≤ (s.mono : Int)) :
    ∃ t, exec (.powerDown rows) s = .next t ∧ PoweredDown s t := by
  have hx : exec (.powerDown rows) s = answer (settle s (powerDown rows s)) := by
    refine congrArg answer (if_pos ?_)
    unfold rideOver
    rw [hride]
    exact decide_eq_true hover
  obtain ⟨hd, hpll⟩ := powerDown_down rows hr hp
  exact ⟨_, hx, poweredDown_settled hd hpll⟩

theorem energyLow_outcome {t0 : Int} (hride : s.pwr.rideAt = some t0) : ∃ t, exec (.rideThroughEnergyLow rows) s = .next t ∧ PoweredDown s t := by
  have hx : exec (.rideThroughEnergyLow rows) s = answer (settle s (powerDown rows s)) := congrArg answer (if_pos (by rw [hride]; rfl))
  obtain ⟨hd, hpll⟩ := powerDown_down rows hr hp
  exact ⟨_, hx, poweredDown_settled hd hpll⟩

end

/-- An input is back: the ride-through ends, counted and flagged. -/
def dipEnded (x1 : Bool) (s : State) : State :=
  onPwr (fun p => { p with rideAt := none, dips := satInc 32 p.dips, flags := flag 0 p.flags, source := if x1 then .mains else .backup }) s

theorem powerDip_outcome {s : State} {t0 : Int} (hride : s.pwr.rideAt = some t0) (x1 : Bool) :
    ∃ t, exec (.powerDip x1) s = .next t ∧ t.pwr.rideAt = none ∧ t.pwr.dips = satInc 32 s.pwr.dips ∧
      t.pwr.flags.getLsbD 0 = true ∧ t.pwr.source = (if x1 then Source.mains else .backup) ∧
      t.log = (raise .powerDip .notice 0xFF (((s.mono : Int) - t0).toNat / 1000) 0 0 s).log ∧
      { t with pwr := s.pwr, log := s.log } = follow s := by
  have hx : exec (.powerDip x1) s = answer (raise .powerDip .notice 0xFF (((s.mono : Int) - t0).toNat / 1000) 0 0 (dipEnded x1 s)) := by
    refine congrArg answer ?_
    unfold powerDip
    rw [hride]
    rfl
  have hlog := raise_log .powerDip .notice 0xFF (((s.mono : Int) - t0).toNat / 1000) 0 0 (dipEnded x1 s) s rfl rfl
  rw [raise_frame] at hx
  exact ⟨_, hx, rfl, rfl, setBit_get s.pwr.flags 0 (by decide), rfl, hlog, follow_of_supply rfl {}⟩

/-- Settles O41: the ride-through, its end, and the power-down in its order. -/
theorem powerDownInOrder : Obligations.PowerDownInOrder := by
  unfold Obligations.PowerDownInOrder
  intro s rows hr hp down
  have hdown {t : State} (h : PoweredDown s t) : down t :=
    ⟨h.railsOff, h.down, h.ride, h.mode, h.role, h.run, h.refClock, h.tasks, h.funcs, h.stored, h.key, h.rtc⟩
  refine ⟨busLost_rides rows hr hp, fun hready => ?_, fun t0 hride => ⟨fun hover => ?_, ?_, powerDip_outcome hride⟩⟩
  · obtain ⟨t, hx, ht⟩ := busLost_down rows hr hp hready
    exact ⟨t, hx, hdown ht⟩
  · obtain ⟨t, hx, ht⟩ := powerDown_outcome rows hr hp hride hover
    exact ⟨t, hx, hdown ht⟩
  · obtain ⟨t, hx, ht⟩ := energyLow_outcome rows hr hp hride
    exact ⟨t, hx, hdown ht⟩

end Sys2Proof.Machine
end

section
/-! PROOFS. What deliveries change of the field-supply groups: a RESTORE item ends AWAIT_ACK, and nothing else changes a group
(03_supplies_and_harbour_watch.md R71, R75, 14_digital_channels.md R369). -/

namespace Sys2Proof.Machine

/-! ### What a step leaves of the groups -/

/-- The supplies and the sink records. -/
def State.fieldSide (s : State) : Pwr × List Sink := (s.pwr, s.sig.sinks)

/-- What deliveries leave of the groups: each stays, but for an AWAIT_ACK that a digital sink's RESTORE item ends; the flags stick. -/
structure GroupsKept (s u : State) : Prop where
  groups  : ∀ h, fieldGroup u h = fieldGroup s h ∨
    ((fieldGroup s h).st = .awaitAck ∧ ¬NoDioSink s ∧ fieldGroup u h = { fieldGroup s h with st := .normal })
  flags   : ∀ k, s.pwr.flags.getLsbD k = true → u.pwr.flags.getLsbD k = true
  sinks   : u.sig.sinks = s.sig.sinks

theorem groupsKept_of_fieldSide {s u : State} (h : u.fieldSide = s.fieldSide) : GroupsKept s u := by
  have hp : u.pwr = s.pwr := congrArg Prod.fst h
  refine ⟨fun g => .inl ?_, fun _ hk => by rw [hp]; exact hk, congrArg Prod.snd h⟩
  unfold fieldGroup
  rw [hp]

theorem noDioSink_of_sinks {s u : State} (h : u.sig.sinks = s.sig.sinks) : NoDioSink u ↔ NoDioSink s := by
  unfold NoDioSink
  rw [h]

theorem GroupsKept.trans {s u v : State} (h : GroupsKept s u) (h' : GroupsKept u v) : GroupsKept s v := by
  refine ⟨fun g => ?_, fun k hk => h'.flags k (h.flags k hk), h'.sinks.trans h.sinks⟩
  obtain e | ⟨ha, hs, e⟩ := h.groups g
  · obtain e' | ⟨ha', hs', e'⟩ := h'.groups g
    · exact .inl (e'.trans e)
    · rw [e] at ha' e'
      exact .inr ⟨ha', fun hn => hs' ((noDioSink_of_sinks h.sinks).mpr hn), e'⟩
  · obtain e' | ⟨ha', -, -⟩ := h'.groups g
    · exact .inr ⟨ha, hs, e'.trans e⟩
    · rw [e] at ha'
      cases ha'

theorem groupsKept_refl (s : State) : GroupsKept s s := groupsKept_of_fieldSide rfl

theorem groupsKept_forAll {α : Type} (l : List α) (f : α → State → State) {sinks : List Sink}
    (hf : ∀ a ∈ l, ∀ t : State, t.sig.sinks = sinks → GroupsKept t (f a t)) {s : State} (hs : s.sig.sinks = sinks) :
    GroupsKept s (forAll l f s) := by
  induction l generalizing s with
  | nil => exact groupsKept_refl s
  | cons a l ih =>
    have h := hf a (List.mem_cons_self ..) s hs
    exact h.trans (ih (fun b hb => hf b (List.mem_cons_of_mem a hb)) (h.sinks.trans hs))

/-! ### RESTORE (R75) -/

theorem fieldGroup_onGroup {g : Nat} {s : State} (hg : g < s.pwr.groups.length) (f : FieldGroup → FieldGroup) :
    fieldGroup (onGroup g f s) g = f (fieldGroup s g) := by
  show (s.pwr.groups.modify g f).getD g {} = f (s.pwr.groups.getD g {})
  simp [hg]

theorem fieldGroup_onGroup_ne {g h : Nat} (hne : h ≠ g) (f : FieldGroup → FieldGroup) (s : State) :
    fieldGroup (onGroup g f s) h = fieldGroup s h := by
  show (s.pwr.groups.modify g f).getD h {} = s.pwr.groups.getD h {}
  simp [Ne.symm hne]

theorem groups_length_of_st {g : Nat} {s : State} (h : (fieldGroup s g).st ≠ .lost) : g < s.pwr.groups.length := by
  by_contra hg
  refine h ?_
  unfold fieldGroup
  rw [List.getD_eq_default _ _ (Nat.le_of_not_lt hg)]

theorem outputsReturn_fieldSide (g : Nat) (s : State) : (outputsReturn g s).fieldSide = s.fieldSide := rfl

theorem restoreGroup_of_await {g : Nat} {s : State} (h : (fieldGroup s g).st = .awaitAck) :
    restoreGroup g s = outputsReturn g (onGroup g (fun x => { x with st := .normal }) s) := if_pos (by rw [h]; rfl)

theorem restoreGroup_of_other {g : Nat} {s : State} (h : (fieldGroup s g).st ≠ .awaitAck) :
    restoreGroup g s = onPwr (fun p => { p with flags := flag 18 p.flags }) s := if_neg (by simpa using h)

/-- What a restore of a group leaves of the groups. -/
theorem restoreGroup_groups (g : Nat) (s : State) :
    (∀ h, h ≠ g → fieldGroup (restoreGroup g s) h = fieldGroup s h) ∧
      ((fieldGroup s g).st = .awaitAck → fieldGroup (restoreGroup g s) g = { fieldGroup s g with st := .normal }) ∧
      ((fieldGroup s g).st ≠ .awaitAck → fieldGroup (restoreGroup g s) g = fieldGroup s g ∧
        (restoreGroup g s).pwr.flags.getLsbD 18 = true) ∧
      (∀ k, s.pwr.flags.getLsbD k = true → (restoreGroup g s).pwr.flags.getLsbD k = true) ∧ (restoreGroup g s).sig.sinks = s.sig.sinks := by
  have hof {u v : State} (h : u.fieldSide = v.fieldSide) (k : Nat) : fieldGroup u k = fieldGroup v k := by
    have e := congrArg (fun x : Pwr × List Sink => x.1.groups.getD k {}) h
    exact e
  by_cases h : (fieldGroup s g).st = .awaitAck
  · have hl := groups_length_of_st (by rw [h]; decide : (fieldGroup s g).st ≠ .lost)
    rw [restoreGroup_of_await h]
    have hside := outputsReturn_fieldSide g (onGroup g (fun x => { x with st := .normal }) s)
    generalize outputsReturn g (onGroup g (fun x => { x with st := .normal }) s) = u at hside
    refine ⟨fun k hk => (hof hside k).trans (fieldGroup_onGroup_ne hk _ s), fun _ => (hof hside g).trans (fieldGroup_onGroup hl _),
      fun e => absurd h e, fun k hk => ?_, congrArg Prod.snd hside⟩
    rw [show u.pwr = _ from congrArg Prod.fst hside]
    exact hk
  · rw [restoreGroup_of_other h]
    exact ⟨fun _ _ => rfl, fun e => absurd e h, fun _ => ⟨rfl, setBit_get s.pwr.flags 18 (by decide)⟩,
      fun _ hk => flag_keeps 18 hk, rfl⟩

theorem groupsKept_restoreGroup (g : Nat) {s : State} (hs : ¬NoDioSink s) : GroupsKept s (restoreGroup g s) := by
  obtain ⟨h1, h2, h3, h4, h5⟩ := restoreGroup_groups g s
  refine ⟨fun h => ?_, h4, h5⟩
  by_cases hg : h = g
  · subst hg
    by_cases ha : (fieldGroup s h).st = .awaitAck
    · exact .inr ⟨ha, hs, h2 ha⟩
    · exact .inl (h3 ha).1
  · exact .inl (h1 h hg)

/-! ### Deliveries (R189, R369) -/

theorem dioClear_fieldSide (n : Nat) (s : State) : (dioClear n s).fieldSide = s.fieldSide := by
  unfold dioClear
  split
  · rfl
  · split <;> rfl

theorem groupsKept_dioItem (n item : Nat) (b : Bool) {s : State} (hs : ¬NoDioSink s) : GroupsKept s (dioItem n item b s) := by
  have hbit (f : DioCh → DioCh) : GroupsKept s (onDioCh n f s) := groupsKept_of_fieldSide rfl
  unfold dioItem
  dsimp only
  split
  · split
    · exact (hbit _).trans (groupsKept_of_fieldSide (dioClear_fieldSide n _))
    · exact hbit _
  split
  · split
    · exact (hbit _).trans (groupsKept_restoreGroup (n / 8) (s := onDioCh n (fun c => { c with restoreBit := b }) s) hs)
    · exact hbit _
  split
  · exact groupsKept_of_fieldSide rfl
  · exact groupsKept_refl s

theorem anaCommandNum_fieldSide (n : Nat) (x : Num) (s : State) : (anaCommandNum n x s).fieldSide = s.fieldSide := by
  unfold anaCommandNum
  split <;> rfl

theorem groupsKept_sinkTakes {k : Sink} (e : SigEntry) {s : State} (hk : k ∈ s.sig.sinks) : GroupsKept s (sinkTakes k e s) := by
  unfold sinkTakes
  split
  · next hkind => exact groupsKept_dioItem _ _ _ fun hn => hn k hk hkind
  · dsimp only
    split
    · split
      · exact groupsKept_of_fieldSide rfl
      · exact groupsKept_of_fieldSide (anaCommandNum_fieldSide _ _ s)
    · exact groupsKept_refl s
  · exact groupsKept_refl s

theorem groupsKept_deliver (i : Nat) (s : State) : GroupsKept s (deliver i s) :=
  groupsKept_forAll _ _ (fun _ hk t ht => groupsKept_sinkTakes _ (by rw [ht]; exact List.mem_of_mem_drop (List.mem_of_mem_take hk))) rfl

theorem recode_fieldSide (a : Nat) (full : Bool) (s : State) : (recode a full s).fieldSide = s.fieldSide := rfl

theorem touchEntry_fieldSide (i : Nat) (s : State) : (touchEntry i s).fieldSide = s.fieldSide := rfl

theorem onEntry_fieldSide (i : Nat) (f : SigEntry → SigEntry) (s : State) : (onEntry i f s).fieldSide = s.fieldSide := rfl

theorem aside_fieldSide (i : Nat) (v : Datum) (q : Byte) (s : State) :
    (onCyc (fun c => { c with forces := change i (fun f => { f with aside := (v, q) }) c.forces }) s).fieldSide = s.fieldSide := rfl

theorem groupsKept_writeEntry (i : Nat) (v : Datum) (q : Byte) (s : State) : GroupsKept s (writeEntry i v q s) := by
  unfold writeEntry
  split
  · split
    · exact (groupsKept_of_fieldSide ((onEntry_fieldSide _ _ _).trans ((touchEntry_fieldSide i _).trans (aside_fieldSide i v q s)))).trans
        (groupsKept_deliver i _)
    · exact (groupsKept_of_fieldSide ((onEntry_fieldSide _ _ _).trans (touchEntry_fieldSide i s))).trans (groupsKept_deliver i _)
  · exact groupsKept_refl s

theorem groupsKept_updateWhere (w : SigEntry → Bool) (v : SigEntry → Option (Datum × Byte)) (s : State) : GroupsKept s (updateWhere w v s) :=
  groupsKept_forAll _ _ (fun p _ t _ => by
    split
    · exact groupsKept_refl t
    · exact groupsKept_writeEntry _ _ _ t) rfl

theorem groupsKept_drain (n : Nat) (l : List Due) (s : State) : GroupsKept s (drain n l s) := by
  induction n generalizing l s with
  | zero => cases l <;> exact groupsKept_refl s
  | succ n ih =>
    cases l with
    | nil => exact groupsKept_refl s
    | cons d r => exact (groupsKept_writeEntry _ _ _ s).trans (ih _ _)

theorem pulsesCheck_fieldSide (s : State) : (pulsesCheck s).fieldSide = s.fieldSide := by
  unfold pulsesCheck
  split <;> rfl

theorem markConditions_fieldSide (s : State) : (markConditions s).fieldSide = s.fieldSide :=
  markConditions_keeps State.fieldSide (fun i _ s => (touchEntry_fieldSide i _).trans (onEntry_fieldSide i _ s)) s

/-- What a settled command leaves of the groups. -/
theorem groupsKept_settle (s u : State) : GroupsKept u (settle s u) := by
  have h1 : GroupsKept u (markCommon (refreshStages (outputsCheck (pulsesCheck u)))) := groupsKept_of_fieldSide (pulsesCheck_fieldSide u)
  exact (h1.trans (groupsKept_drain _ _ _)).trans (groupsKept_of_fieldSide (markConditions_fieldSide _))

theorem groupsKept_answer (s u : State) : GroupsKept u (follow (settle s u)) :=
  (groupsKept_settle s u).trans (groupsKept_of_fieldSide rfl)

/-- What a command that is settled answers, with what it leaves of the groups. -/
theorem answer_settled_groups (s u : State) : ∃ t, answer (settle s u) = .next t ∧ Settled u t ∧ GroupsKept u t := by
  obtain ⟨t, hx, ht⟩ := settled s u
  have e : follow (settle s u) = t := Host.Outcome.next.inj hx
  exact ⟨t, hx, ht, e ▸ groupsKept_answer s u⟩

theorem GroupsKept.same {s u : State} (h : GroupsKept s u) {g : Nat} (hg : (fieldGroup s g).st ≠ .awaitAck ∨ NoDioSink s) :
    fieldGroup u g = fieldGroup s g := by
  obtain e | ⟨ha, hs, -⟩ := h.groups g
  · exact e
  · obtain hg | hg := hg
    · exact absurd ha hg
    · exact absurd hg hs

end Sys2Proof.Machine
end

section
/-! PROOFS. The field-supply groups (03_supplies_and_harbour_watch.md R71 to R76, R86, R87). -/

namespace Sys2Proof.Machine

/-! ### What a command leaves of the other groups -/

/-- The groups but `g` stay, but for an AWAIT_ACK that a sink's RESTORE item ends. -/
def OthersKept (g : Nat) (s t : State) : Prop :=
  ∀ h, h ≠ g → (fieldGroup s h).st ≠ .awaitAck ∨ NoDioSink s → fieldGroup t h = fieldGroup s h

section
variable {s u t : State} {g : Nat}

theorem othersKept_of (hk : GroupsKept u t) (hu : ∀ h, h ≠ g → fieldGroup u h = fieldGroup s h) (hs : u.sig.sinks = s.sig.sinks) :
    OthersKept g s t := by
  intro h hne hc
  rw [← hu h hne]
  refine hk.same ?_
  rw [hu h hne]
  exact hc.imp id (noDioSink_of_sinks hs).mpr

theorem fieldGroup_of_pwr (h : u.pwr = s.pwr) (k : Nat) : fieldGroup u k = fieldGroup s k := by
  unfold fieldGroup
  rw [h]

/-! ### LOW, NORMAL, QUALIFYING and LOST again -/

/-- A group goes to another state, not AWAIT_ACK, by a command that settles. -/
theorem groupGoes_outcome {f : FieldGroup → FieldGroup} (hk : GroupsKept u t) (hg : g < s.pwr.groups.length)
    (hgroups : u.pwr.groups = (onGroup g f s).pwr.groups) (hsinks : u.sig.sinks = s.sig.sinks) (hst : (f (fieldGroup s g)).st ≠ .awaitAck) :
    fieldGroup t g = f (fieldGroup s g) ∧ OthersKept g s t := by
  have hof (k : Nat) : fieldGroup u k = fieldGroup (onGroup g f s) k := by
    unfold fieldGroup
    rw [hgroups]
  have hown : fieldGroup u g = f (fieldGroup s g) := (hof g).trans (fieldGroup_onGroup hg f)
  refine ⟨?_, othersKept_of hk (fun h hne => (hof h).trans (fieldGroup_onGroup_ne hne f s)) hsinks⟩
  rw [← hown]
  exact hk.same (.inl (by rw [hown]; exact hst))

/-- L+ has fallen below 19.2 V. -/
def groupLow (g : Nat) (s : State) : State := pwrFlag (lowBit g) (onGroup g (fun x => { x with st := .low }) s)

theorem lowBit_lt (hg : g < 5) : lowBit g < 32 ∧ lostBit g < 32 ∧ overBit g < 32 := by
  obtain rfl | rfl | rfl | rfl | rfl : g = 0 ∨ g = 1 ∨ g = 2 ∨ g = 3 ∨ g = 4 := by omega
  all_goals decide

/-- A change of the supplies and the log, settled. -/
theorem rest_of_supply {t u s : State} (hrest : t.rest = u.rest) (hu : { u with pwr := s.pwr, log := s.log } = s) :
    { t with pwr := s.pwr, log := s.log }.rest = s.rest := by
  have e := congrArg (fun x : State => { x with pwr := s.rest.pwr, log := s.rest.log }) hrest
  have e' := congrArg State.rest hu
  exact Eq.trans e e'

theorem rest_of_supplies {t u s : State} (hrest : t.rest = u.rest) (hu : { u with pwr := s.pwr } = s) : { t with pwr := s.pwr }.rest = s.rest := by
  have e := congrArg (fun x : State => { x with pwr := s.rest.pwr }) hrest
  have e' := congrArg State.rest hu
  exact Eq.trans e e'

theorem fieldSupplyLow_outcome (h5 : g < 5) (hg : g < s.pwr.groups.length) (hsup : supervises s g = true) (hst : (fieldGroup s g).st = .normal) :
    ∃ t, exec (.fieldSupplyLow g) s = .next t ∧ fieldGroup t g = { fieldGroup s g with st := .low } ∧
      t.pwr.flags.getLsbD (lowBit g) = true ∧ t.log = (raise .fieldSupplyLow .notice g 0 0 0 s).log ∧
      OthersKept g s t ∧ { t with pwr := s.pwr, log := s.log }.rest = s.rest := by
  obtain ⟨t, hx, ht, hk⟩ := answer_settled_groups s (supplyLow g s)
  have hx : exec (.fieldSupplyLow g) s = .next t := (congrArg answer (if_pos hsup)).trans hx
  have he : supplyLow g s = raise .fieldSupplyLow .notice g 0 0 0 (groupLow g s) := if_pos hst
  have hlog := raise_log .fieldSupplyLow .notice g 0 0 0 (groupLow g s) s rfl rfl
  rw [he, raise_frame] at ht hk
  rw [hlog] at ht hk
  obtain ⟨h1, h2⟩ := groupGoes_outcome (f := fun x => { x with st := .low }) hk hg rfl rfl (fun e => by cases e)
  have hl := log_of_rest ht.rest
  exact ⟨t, hx, h1, hk.flags _ (setBit_get s.pwr.flags _ (lowBit_lt h5).1), hl, h2, rest_of_supply ht.rest rfl⟩

theorem fieldSupplyNormal_outcome (hg : g < s.pwr.groups.length) (hsup : supervises s g = true) (hst : (fieldGroup s g).st = .low) :
    ∃ t, exec (.fieldSupplyNormal g) s = .next t ∧ fieldGroup t g = { fieldGroup s g with st := .normal } ∧
      t.log = (raise .fieldSupplyNormal .info g 0 0 0 s).log ∧ OthersKept g s t ∧
      { t with pwr := s.pwr, log := s.log }.rest = s.rest := by
  obtain ⟨t, hx, ht, hk⟩ := answer_settled_groups s (raise .fieldSupplyNormal .info g 0 0 0 (onGroup g (fun x => { x with st := .normal }) s))
  have hx : exec (.fieldSupplyNormal g) s = .next t := (congrArg answer (if_pos (by rw [hsup, hst]; rfl))).trans hx
  have hlog := raise_log .fieldSupplyNormal .info g 0 0 0 (onGroup g (fun x => { x with st := .normal }) s) s rfl rfl
  rw [raise_frame] at ht hk
  rw [hlog] at ht hk
  obtain ⟨h1, h2⟩ := groupGoes_outcome (f := fun x => { x with st := .normal }) hk hg rfl rfl (fun e => by cases e)
  have hl := log_of_rest ht.rest
  exact ⟨t, hx, h1, hl, h2, rest_of_supply ht.rest rfl⟩

/-- A group that goes from one state to another, unrecorded. -/
theorem groupTurns_outcome {st : FieldState} (hst : st ≠ .awaitAck) (hg : g < s.pwr.groups.length) :
    ∃ t, answer (settle s (onGroup g (fun x => { x with st := st }) s)) = .next t ∧ fieldGroup t g = { fieldGroup s g with st := st } ∧
      OthersKept g s t ∧ { t with pwr := s.pwr }.rest = s.rest := by
  obtain ⟨t, hx, ht, hk⟩ := answer_settled_groups s (onGroup g (fun x => { x with st := st }) s)
  obtain ⟨h1, h2⟩ := groupGoes_outcome (f := fun x => { x with st := st }) hk hg rfl rfl hst
  exact ⟨t, hx, h1, h2, rest_of_supplies ht.rest rfl⟩

theorem fieldSupplyQualifying_outcome (hg : g < s.pwr.groups.length) (hsup : supervises s g = true) (hst : (fieldGroup s g).st = .lost) :
    ∃ t, exec (.fieldSupplyQualifying g) s = .next t ∧ fieldGroup t g = { fieldGroup s g with st := .qualifying } ∧
      OthersKept g s t ∧ { t with pwr := s.pwr }.rest = s.rest := by
  obtain ⟨t, hx, h⟩ := groupTurns_outcome (st := .qualifying) (by decide) hg
  exact ⟨t, (congrArg answer (if_pos (by rw [hsup, hst]; rfl))).trans hx, h⟩

theorem qualifyingRestart_outcome (hg : g < s.pwr.groups.length) (hsup : supervises s g = true) (hst : (fieldGroup s g).st = .qualifying) :
    ∃ t, exec (.qualifyingRestart g) s = .next t ∧ fieldGroup t g = { fieldGroup s g with st := .lost } ∧
      OthersKept g s t ∧ { t with pwr := s.pwr }.rest = s.rest := by
  obtain ⟨t, hx, h⟩ := groupTurns_outcome (st := .lost) (by decide) hg
  exact ⟨t, (congrArg answer (if_pos (by rw [hsup, hst]; rfl))).trans hx, h⟩

/-! ### The loss of a supply (R71, R72) -/

theorem hartLost_kept (g : Nat) (s : State) : (hartLost g s).besideQueues.pwr = s.pwr ∧ (hartLost g s).log = s.log ∧
    (hartLost g s).sig.sinks = s.sig.sinks := by
  have h := forAll_keeps (fun x : State => (x.pwr, x.log, x.sig.sinks)) (s.ana.tx.filter fun p => p.1 / 4 == g)
    (fun p t => match p.2.handle with
      | none => hartIdle p.1 t
      | some h => hartIdle p.1 (retire h retPortOff none t)) (fun p t => by
        cases p.2.handle with
        | none => rfl
        | some h =>
          have e := congrArg (fun x : State => (x.pwr, x.log, x.sig.sinks)) (retire_besideQueues h retPortOff none t)
          exact e) s
  unfold hartLost
  dsimp only
  generalize forAll _ _ s = u at h ⊢
  exact ⟨congrArg (fun x => x.1) h, congrArg (fun x => x.2.1) h, congrArg (fun x => x.2.2) h⟩

/-- A group as its loss is noted. -/
def groupLost (g : Nat) (s : State) : State := pwrFlag (lostBit g) (onGroup g (fun x => { x with st := .lost, startup := false }) s)

theorem supplyLost_of_alive (h : (fieldGroup s g).st.dead = false) :
    supplyLost g s = groupHeld g (raise .fieldSupplyLost .fault g 0 0 0 (groupLost g (hartLost g s))) := by
  unfold supplyLost
  rw [h]
  rfl

/-- The inputs of a group without a valid value. -/
def inputsInvalid (g : Nat) (s : State) : State :=
  onAna (fun a => { a with ch := a.ch.mapIdx fun n c => if n / 4 = g then { c with valid := false } else c })
    (onDio (fun d => { d with ch := d.ch.mapIdx fun n c => if n / 8 = g then { c with valid := false } else c }) s)

/-- The analogue inputs of a group are told. -/
def inputsTold (g : Nat) (s : State) : State :=
  forAll ((List.range 16).filter fun n => n / 4 == g && (anaCh s n).mode.isInput) writeAnaValue s

/-- The HOLD channels of a group are released. -/
def groupReleased (g : Nat) (s : State) : State := releaseHolds (fun n _ => n / 8 == g) (fun c => { c with relOther := true }) s

theorem groupHeld_of_io (h4 : g ≠ 4) : groupHeld g s = inputsTold g (inputsInvalid g (groupReleased g s)) := if_neg h4

theorem groupHeld_of_f : groupHeld 4 s = onSafe (fun x => { x with resumed := false }) s := if_pos rfl

theorem groupsKept_writeAnaValue (n : Nat) (s : State) : GroupsKept s (writeAnaValue n s) := by
  unfold writeAnaValue
  exact groupsKept_updateWhere _ _ s

theorem inputsTold_beyond (g : Nat) (s : State) : (inputsTold g s).beyondField = s.beyondField :=
  forAll_keeps State.beyondField _ _ writeAnaValue_beyond s

theorem groupReleased_fieldSide (g : Nat) (s : State) : (groupReleased g s).fieldSide = s.fieldSide := by
  refine forAll_keeps State.fieldSide _ _ (fun n t => ?_) s
  dsimp only
  split
  · exact keeps_ite State.fieldSide rfl rfl
  · rfl

theorem inputsInvalid_fieldSide (g : Nat) (s : State) : (inputsInvalid g s).fieldSide = s.fieldSide := rfl

theorem groupsKept_groupHeld (g : Nat) (s : State) : GroupsKept s (groupHeld g s) := by
  by_cases h4 : g = 4
  · subst h4
    rw [groupHeld_of_f]
    exact groupsKept_of_fieldSide rfl
  · rw [groupHeld_of_io h4]
    have h1 : GroupsKept s (inputsInvalid g (groupReleased g s)) :=
      groupsKept_of_fieldSide ((inputsInvalid_fieldSide g _).trans (groupReleased_fieldSide g s))
    exact h1.trans (groupsKept_forAll _ _ (fun n _ t _ => groupsKept_writeAnaValue n t) rfl)

theorem log_of_beyond (h : u.beyondField = s.beyondField) : u.log = s.log := by
  have e := congrArg State.log h
  exact e

theorem groupReleased_nextSeq (g : Nat) (s : State) : s.log.nextSeq ≤ (groupReleased g s).log.nextSeq := by
  unfold groupReleased
  exact releaseHolds_nextSeq _ _ s

theorem inputsInvalid_log (g : Nat) (s : State) : (inputsInvalid g s).log = s.log := rfl

theorem groupHeld_nextSeq (g : Nat) (s : State) : s.log.nextSeq ≤ (groupHeld g s).log.nextSeq := by
  by_cases h4 : g = 4
  · subst h4
    rw [groupHeld_of_f]
    exact Nat.le_refl _
  · rw [groupHeld_of_io h4, log_of_beyond (inputsTold_beyond g _), inputsInvalid_log]
    exact groupReleased_nextSeq g s

/-- The valid marks of the channels. -/
def State.valids (s : State) : List Bool × List Bool := (s.dio.ch.map (·.valid), s.ana.ch.map (·.valid))

theorem valids_of_rest (h : t.rest = u.rest) : t.valids = u.valids := by
  have hd : (t.dio.ch.map DioCh.inward).map (·.valid) = (u.dio.ch.map DioCh.inward).map (·.valid) :=
    congrArg (fun x : State => x.dio.ch.map (·.valid)) h
  have ha : (t.ana.ch.map AnaCh.inward).map (·.valid) = (u.ana.ch.map AnaCh.inward).map (·.valid) :=
    congrArg (fun x : State => x.ana.ch.map (·.valid)) h
  rw [List.map_map, List.map_map] at hd ha
  exact Prod.ext hd ha

theorem valids_of_beyond (h : t.beyondField = u.beyondField) : t.valids = u.valids := valids_of_rest (rest_of_beyond h)

theorem inputsInvalid_valids (g : Nat) (s : State) (h : t.valids = (inputsInvalid g s).valids) :
    (∀ n < t.dio.ch.length, n / 8 = g → (dioCh t n).valid = false) ∧ (∀ n < t.ana.ch.length, n / 4 = g → (anaCh t n).valid = false) := by
  have hd : t.dio.ch.map (·.valid) = (inputsInvalid g s).dio.ch.map (·.valid) := congrArg Prod.fst h
  have ha : t.ana.ch.map (·.valid) = (inputsInvalid g s).ana.ch.map (·.valid) := congrArg Prod.snd h
  have hdl : t.dio.ch.length = s.dio.ch.length := by simpa [inputsInvalid, onDio, onAna] using congrArg List.length hd
  have hal : t.ana.ch.length = s.ana.ch.length := by simpa [inputsInvalid, onDio, onAna] using congrArg List.length ha
  refine ⟨fun n hn hg => ?_, fun n hn hg => ?_⟩
  · have e : t.dio.ch[n]?.map (·.valid) = ((inputsInvalid g s).dio.ch[n]?).map (·.valid) := by
      rw [← List.getElem?_map, ← List.getElem?_map, hd]
    rw [hdl] at hn
    simp only [inputsInvalid, onDio, onAna, List.getElem?_mapIdx, List.getElem?_eq_getElem hn, List.getElem?_eq_getElem (hdl ▸ hn : n < t.dio.ch.length),
      Option.map_some, Option.some.injEq, if_pos hg] at e
    rw [dioCh, List.getD_eq_getElem _ _ (by rw [hdl]; exact hn)]
    exact e
  · have e : t.ana.ch[n]?.map (·.valid) = ((inputsInvalid g s).ana.ch[n]?).map (·.valid) := by
      rw [← List.getElem?_map, ← List.getElem?_map, ha]
    rw [hal] at hn
    simp only [inputsInvalid, onDio, onAna, List.getElem?_mapIdx, List.getElem?_eq_getElem hn, List.getElem?_eq_getElem (hal ▸ hn : n < t.ana.ch.length),
      Option.map_some, Option.some.injEq, if_pos hg] at e
    rw [anaCh, List.getD_eq_getElem _ _ (by rw [hal]; exact hn)]
    exact e

theorem fieldSupplyLost_outcome (h5 : g < 5) (hg : g < s.pwr.groups.length) (hsup : supervises s g = true)
    (hst : (fieldGroup s g).st.dead = false) :
    ∃ t, exec (.fieldSupplyLost g) s = .next t ∧ (fieldGroup t g).st = .lost ∧ (fieldGroup t g).startup = false ∧
      t.pwr.flags.getLsbD (lostBit g) = true ∧ s.log.nextSeq < t.log.nextSeq ∧
      (g = 4 → t.safe.resumed = false) ∧
      (g < 4 → (∀ n < t.dio.ch.length, n / 8 = g → (dioCh t n).valid = false) ∧
        (∀ n < t.ana.ch.length, n / 4 = g → (anaCh t n).valid = false)) ∧
      OthersKept g s t := by
  obtain ⟨t, hx, ht, hk⟩ := answer_settled_groups s (supplyLost g s)
  have hx : exec (.fieldSupplyLost g) s = .next t := (congrArg answer (if_pos hsup)).trans hx
  obtain ⟨hpwr, hlog, hsinks⟩ := hartLost_kept g s
  have hpwr : (hartLost g s).pwr = s.pwr := hpwr
  rw [supplyLost_of_alive hst] at ht hk
  have hseq := raise_nextSeq .fieldSupplyLost .fault g 0 0 0 (groupLost g (hartLost g s))
  rw [raise_frame] at ht hk
  have hv : ∃ v : State, v.pwr = (groupLost g s).pwr ∧ v.sig.sinks = s.sig.sinks ∧ v.log.nextSeq = s.log.nextSeq + 1 ∧
      { groupLost g (hartLost g s) with log := (raise .fieldSupplyLost .fault g 0 0 0 (groupLost g (hartLost g s))).log } = v := by
    have hseq' : (raise .fieldSupplyLost .fault g 0 0 0 (groupLost g (hartLost g s))).log.nextSeq = s.log.nextSeq + 1 := by
      rw [hseq, ← hlog]
      rfl
    refine ⟨{ groupLost g (hartLost g s) with log := (raise .fieldSupplyLost .fault g 0 0 0 (groupLost g (hartLost g s))).log },
      ?_, hsinks, hseq', rfl⟩
    show (groupLost g (hartLost g s)).pwr = _
    unfold groupLost pwrFlag onGroup
    simp only [onPwr_pwr, hpwr]
  obtain ⟨v, hvp, hvs, hvseq, he⟩ := hv
  rw [he] at ht hk
  have hvk := (groupsKept_groupHeld g v).trans hk
  obtain ⟨h1, h2⟩ := groupGoes_outcome (f := fun x => { x with st := .lost, startup := false }) hvk hg (by rw [hvp]; rfl) hvs
    (fun e => by cases e)
  have hl := log_of_rest ht.rest
  refine ⟨t, hx, by rw [h1], by rw [h1], hvk.flags _ ?_, ?_, fun h4 => ?_, fun h4 => ?_, h2⟩
  · rw [hvp]
    exact setBit_get s.pwr.flags _ (lowBit_lt h5).2.1
  · rw [hl]
    have := groupHeld_nextSeq g v
    omega
  · subst h4
    rw [groupHeld_of_f] at ht
    rw [safe_of_rest ht.rest]
    rfl
  · have hne : g ≠ 4 := by omega
    rw [groupHeld_of_io hne] at ht
    exact inputsInvalid_valids g _ ((valids_of_rest ht.rest).trans (valids_of_beyond (inputsTold_beyond g _)))

/-! ### The return of a supply (R71, R73, R74) -/

/-- Whether a group that has qualified needs no acknowledgement. -/
def returnsAlone (s : State) (g : Nat) : Bool := g == 4 || (fieldGroup s g).first || s.pwr.force.policy.testBit g

/-- A group as its supply returns. -/
def groupBack (g : Nat) (s : State) : State :=
  onGroup g (fun x => { x with st := if returnsAlone s g then .normal else .awaitAck, startup := false, first := false }) s

/-- What waits for the return of a group's supply. -/
def groupServed (g : Nat) (s : State) : State :=
  if g = 4 then onSafe (fun x => { x with normalAt := s.mono }) s
  else onAna (fun a => { a with ch := a.ch.mapIdx fun n c => if n / 4 = g then { c with discard := 3 } else c }) s

/-- The outputs and the HART devices of a group that is back. -/
def groupResumes (g : Nat) (auto : Bool) (s : State) : State := hartReturns g (if auto && g != 4 then outputsReturn g s else s)

theorem supplyReturned_of_qualifying (h : (fieldGroup s g).st = .qualifying) :
    supplyReturned g s = raise .fieldSupplyReturned .notice g 0 0 0 (groupResumes g (returnsAlone s g) (groupServed g (groupBack g s))) := by
  unfold supplyReturned
  rw [if_pos h]
  rfl

/-- What the return of a supply changes: the supplies, the channels and the safety function. -/
def State.besideReturn (s : State) : State := { s with dio := { ch := [], groups := [], flags := 0 }, ana := { ch := [] }, safe := {} }

theorem groupServed_beside (g : Nat) (s : State) : (groupServed g s).besideReturn = s.besideReturn ∧ (g = 4 → (groupServed g s).safe.normalAt = s.mono) := by
  unfold groupServed
  split
  · exact ⟨rfl, fun _ => rfl⟩
  · next h => exact ⟨rfl, fun e => absurd e h⟩

theorem groupResumes_beside (g : Nat) (auto : Bool) (s : State) : (groupResumes g auto s).besideReturn = s.besideReturn ∧
    (groupResumes g auto s).safe = s.safe := by
  unfold groupResumes
  split <;> exact ⟨rfl, rfl⟩

theorem fieldSupplyReturned_outcome (hg : g < s.pwr.groups.length) (hsup : supervises s g = true)
    (hst : (fieldGroup s g).st = .qualifying) :
    ∃ t, exec (.fieldSupplyReturned g) s = .next t ∧ (fieldGroup t g).startup = false ∧ (fieldGroup t g).first = false ∧
      (returnsAlone s g = true → (fieldGroup t g).st = .normal) ∧
      (returnsAlone s g = false → NoDioSink s → (fieldGroup t g).st = .awaitAck) ∧
      t.log = (raise .fieldSupplyReturned .notice g 0 0 0 s).log ∧ OthersKept g s t ∧
      (g = 4 → t.safe.normalAt = s.mono) ∧
      { t with pwr := s.pwr, dio := s.dio, ana := s.ana, safe := s.safe, log := s.log }.rest = s.rest := by
  obtain ⟨t, hx, ht, hk⟩ := answer_settled_groups s (supplyReturned g s)
  have hx : exec (.fieldSupplyReturned g) s = .next t := (congrArg answer (if_pos hsup)).trans hx
  rw [supplyReturned_of_qualifying hst] at ht hk
  obtain ⟨hb1, hn1⟩ := groupServed_beside g (groupBack g s)
  obtain ⟨hb2, hs2⟩ := groupResumes_beside g (returnsAlone s g) (groupServed g (groupBack g s))
  have hnormal : g = 4 → (groupResumes g (returnsAlone s g) (groupServed g (groupBack g s))).safe.normalAt = s.mono := fun h4 => by
    rw [hs2, hn1 h4]
    rfl
  have hbeside := hb2.trans hb1
  generalize groupResumes g (returnsAlone s g) (groupServed g (groupBack g s)) = v at ht hk hbeside hnormal
  have hget {α : Type} (f : State → α) (hf : ∀ x : State, f x = f x.besideReturn) : f v = f (groupBack g s) :=
    (hf v).trans ((congrArg f hbeside).trans (hf _).symm)
  have hlog := raise_log .fieldSupplyReturned .notice g 0 0 0 v s (hget State.log fun _ => rfl) (hget State.mono fun _ => rfl)
  rw [raise_frame] at ht hk
  rw [hlog] at ht hk
  have hvp : v.pwr = (groupBack g s).pwr := hget State.pwr fun _ => rfl
  have hvs : v.sig.sinks = s.sig.sinks := hget (fun x => x.sig.sinks) fun _ => rfl
  have hown : fieldGroup v g = { fieldGroup s g with
      st := if returnsAlone s g then .normal else .awaitAck, startup := false, first := false } :=
    (fieldGroup_of_pwr hvp g).trans (fieldGroup_onGroup hg _)
  have hothers (h : Nat) (hne : h ≠ g) : fieldGroup v h = fieldGroup s h := (fieldGroup_of_pwr hvp h).trans (fieldGroup_onGroup_ne hne _ s)
  have hgroup : (fieldGroup t g).startup = false ∧ (fieldGroup t g).first = false ∧ ((fieldGroup v g).st ≠ .awaitAck ∨ NoDioSink s →
      fieldGroup t g = fieldGroup v g) := by
    refine ⟨?_, ?_, fun h => hk.same (h.imp id (noDioSink_of_sinks hvs).mpr)⟩
    · obtain e | ⟨-, -, e⟩ := hk.groups g
      · rw [e]
        exact congrArg FieldGroup.startup hown
      · rw [e]
        exact congrArg FieldGroup.startup hown
    · obtain e | ⟨-, -, e⟩ := hk.groups g
      · rw [e]
        exact congrArg FieldGroup.first hown
      · rw [e]
        exact congrArg FieldGroup.first hown
  obtain ⟨hstart, hfirst, hsame⟩ := hgroup
  have hl := log_of_rest ht.rest
  have hsafe := safe_of_rest ht.rest
  refine ⟨t, hx, hstart, hfirst, fun ha => ?_, fun ha hn => ?_, hl, othersKept_of hk hothers hvs, fun h4 => ?_, ?_⟩
  · have hv : (fieldGroup v g).st = .normal := by rw [hown, ha]; rfl
    rw [hsame (.inl (by rw [hv]; decide)), hv]
  · have hv : (fieldGroup v g).st = .awaitAck := by rw [hown, ha]; rfl
    rw [hsame (.inr hn), hv]
  · rw [hsafe]
    exact hnormal h4
  · have e := congrArg (fun x : State => { x with pwr := s.rest.pwr, dio := s.rest.dio, ana := s.rest.ana, safe := s.rest.safe, log := s.rest.log }) ht.rest
    have e' : { v with pwr := s.pwr, dio := s.dio, ana := s.ana, safe := s.safe, log := s.log } = s := by
      have e := congrArg (fun x : State => { x with pwr := s.pwr, dio := s.dio, ana := s.ana, safe := s.safe, log := s.log }) hbeside
      exact e
    exact Eq.trans e (congrArg State.rest e')

theorem fieldSupplyOver_outcome (h5 : g < 5) (hg : g < s.pwr.groups.length) (hsup : supervises s g = true) :
    ∃ t, exec (.fieldSupplyOver g) s = .next t ∧ fieldGroup t g = { fieldGroup s g with overNow := true } ∧
      t.pwr.flags.getLsbD (overBit g) = true ∧ { t with pwr := s.pwr }.rest = s.rest := by
  have hx : exec (.fieldSupplyOver g) s = answer (pwrFlag (overBit g) (onGroup g (fun x => { x with overNow := true }) s)) :=
    congrArg answer (if_pos hsup)
  have hrest := follow_rest (pwrFlag (overBit g) (onGroup g (fun x => { x with overNow := true }) s))
  exact ⟨_, hx, fieldGroup_onGroup hg _, setBit_get s.pwr.flags _ (lowBit_lt h5).2.2, rest_of_supplies hrest rfl⟩

/-! ### The restore bits (R75) -/

/-- One restore bit. -/
def restoreBit (v : Word) (g : Nat) (t : State) : State := if v.getLsbD g then restoreGroup g t else t

theorem restoreMask_eq (v : Word) (s : State) : restoreMask v s = forAll [0, 1, 2, 3] (restoreBit v) s := rfl

/-- What a restore bit makes of its group. -/
def RestoredBy (on : Bool) (x y : FieldGroup) : Prop :=
  (on = true → x.st = .awaitAck → y = { x with st := .normal }) ∧ (on = true → x.st ≠ .awaitAck → y = x) ∧ (on = false → y = x)

theorem restoreBit_groups (v : Word) (g : Nat) (t : State) :
    (∀ h, h ≠ g → fieldGroup (restoreBit v g t) h = fieldGroup t h) ∧
      RestoredBy (v.getLsbD g) (fieldGroup t g) (fieldGroup (restoreBit v g t) g) ∧
      (v.getLsbD g = true → (fieldGroup t g).st ≠ .awaitAck → (restoreBit v g t).pwr.flags.getLsbD 18 = true) ∧
      (t.pwr.flags.getLsbD 18 = true → (restoreBit v g t).pwr.flags.getLsbD 18 = true) ∧ (restoreBit v g t).sig.sinks = t.sig.sinks := by
  unfold restoreBit
  cases hv : v.getLsbD g
  · rw [if_neg (by decide)]
    exact ⟨fun _ _ => rfl, ⟨nofun, nofun, fun _ => rfl⟩, nofun, id, rfl⟩
  · rw [if_pos rfl]
    obtain ⟨h1, h2, h3, h4, h5⟩ := restoreGroup_groups g t
    exact ⟨h1, ⟨fun _ => h2, fun _ h => (h3 h).1, nofun⟩, fun _ h => (h3 h).2, h4 18, h5⟩

theorem restoreBits_flag {v : Word} {l : List Nat} (hmem : g ∈ l) (hv : v.getLsbD g = true) (hst : (fieldGroup s g).st ≠ .awaitAck) :
    (forAll l (restoreBit v) s).pwr.flags.getLsbD 18 = true := by
  have hkeep (l : List Nat) (s : State) (h : s.pwr.flags.getLsbD 18 = true) : (forAll l (restoreBit v) s).pwr.flags.getLsbD 18 = true := by
    induction l generalizing s with
    | nil => exact h
    | cons n l ih =>
      obtain ⟨-, -, -, h4, -⟩ := restoreBit_groups v n s
      exact ih _ (h4 h)
  induction l generalizing s with
  | nil => cases hmem
  | cons n l ih =>
    obtain ⟨h1, -, h3, -, -⟩ := restoreBit_groups v n s
    by_cases hn : g = n
    · subst hn
      exact hkeep l _ (h3 hv hst)
    · exact ih ((List.mem_cons.mp hmem).resolve_left hn) (by rw [h1 g hn]; exact hst)

theorem restoreMask_outcome (v : Word) (s : State) :
    (restoreMask v s).beyondField = s.beyondField ∧
      (∀ g < 4, RestoredBy (v.getLsbD g) (fieldGroup s g) (fieldGroup (restoreMask v s) g)) ∧
      (∀ g < 4, v.getLsbD g = true → (fieldGroup s g).st ≠ .awaitAck → (restoreMask v s).pwr.flags.getLsbD 18 = true) := by
  have hmem (g : Nat) (hg : g < 4) : g ∈ [0, 1, 2, 3] := by
    obtain rfl | rfl | rfl | rfl : g = 0 ∨ g = 1 ∨ g = 2 ∨ g = 3 := by omega
    all_goals decide
  rw [restoreMask_eq]
  refine ⟨forAll_keeps State.beyondField _ _ (fun n t => ?_) s, fun g hg => ?_, fun g hg hv hst => restoreBits_flag (hmem g hg) hv hst⟩
  · exact keeps_ite State.beyondField (restoreGroup_beyond n t) rfl
  · exact forAll_each (fun k t => fieldGroup t k) (fun k => RestoredBy (v.getLsbD k)) (fun n t k hk => (restoreBit_groups v n t).1 k hk)
      (fun n t => (restoreBit_groups v n t).2.1) (by decide) s g (hmem g hg)

theorem fieldSupplyRestore_outcome (v : Word) (s : State) (g : Nat) :
    ∃ t, exec (.fieldSupplyRestore v) s = .next t ∧ t.log = s.log ∧
      (g < 4 → v.getLsbD g = true → (fieldGroup s g).st = .awaitAck → (fieldGroup t g).st = .normal) ∧
      (g < 4 → v.getLsbD g = true → (fieldGroup s g).st ≠ .awaitAck →
        fieldGroup t g = fieldGroup s g ∧ t.pwr.flags.getLsbD 18 = true) ∧
      (g < 4 → v.getLsbD g = false → (fieldGroup s g).st ≠ .awaitAck ∨ NoDioSink s → fieldGroup t g = fieldGroup s g) ∧
      { t with pwr := s.pwr, dio := s.dio, ana := s.ana }.rest = s.rest := by
  obtain ⟨t, hx, ht, hk⟩ := answer_settled_groups s (restoreMask v s)
  obtain ⟨hb, hgroups, hflag⟩ := restoreMask_outcome v s
  have hrest : t.rest = s.rest := ht.rest.trans (rest_of_beyond hb)
  have hsinks : (restoreMask v s).sig.sinks = s.sig.sinks := by
    have e := congrArg (fun x : State => x.sig.sinks) hb
    exact e
  refine ⟨t, hx, log_of_rest hrest, fun h4 hv hst => ?_, fun h4 hv hst => ?_, fun h4 hv hst => ?_, ?_⟩
  · obtain ⟨h1, -, -⟩ := hgroups g h4
    have e : (fieldGroup (restoreMask v s) g).st = .normal := by rw [h1 hv hst]
    rw [hk.same (.inl (by rw [e]; decide)), e]
  · obtain ⟨-, h2, -⟩ := hgroups g h4
    have e := h2 hv hst
    exact ⟨(hk.same (.inl (by rw [e]; exact hst))).trans e, hk.flags 18 (hflag g h4 hv hst)⟩
  · obtain ⟨-, -, h3⟩ := hgroups g h4
    have e := h3 hv
    exact (hk.same (by rw [e]; exact hst.imp id (noDioSink_of_sinks hsinks).mpr)).trans e
  · have e := congrArg (fun x : State => { x with pwr := s.rest.pwr, dio := s.rest.dio, ana := s.rest.ana }) hrest
    exact e

/-! ### A sample (R71, R86, R87) -/

/-- What a sample measures, with the flags of the conditions that stand. -/
def sampleTaken (x : SupplySample) (standing flags : Word) (s : State) : State :=
  onPwr (fun p =>
    { p with
      x1V := x.x1V, x2mV := x.x2mV, busmV := x.busmV, power10mW := x.power
      groups := p.groups.mapIdx fun g y =>
        { y with lplus := x.lplus.getD g 0, overNow := y.overNow && decide (3000 < x.lplus.getD g 0) }
      standing := standing, flags := flags }) s

theorem supplySample_eq (x : SupplySample) (s : State) : ∃ w f, supplySample x s = sampleTaken x w f (pwrBoundary s) := ⟨_, _, rfl⟩

theorem pwrBoundary_kept (s : State) : { pwrBoundary s with pwr := s.pwr } = s ∧ (pwrBoundary s).pwr.groups = s.pwr.groups ∧
    (pwrBoundary s).pwr.commit.pending = false ∧ (s.pwr.commit.pending = true → (pwrBoundary s).pwr.force = s.pwr.copied) ∧
    (s.pwr.commit.pending = false → (pwrBoundary s).pwr.force = s.pwr.force) := by
  unfold pwrBoundary
  cases h : s.pwr.commit.pending
  · rw [if_neg (by decide)]
    exact ⟨rfl, rfl, h, nofun, fun _ => rfl⟩
  · rw [if_pos rfl]
    exact ⟨rfl, rfl, rfl, fun _ => rfl, nofun⟩

theorem sampleTaken_group {x : SupplySample} {w f : Word} (hg : g < s.pwr.groups.length) :
    fieldGroup (sampleTaken x w f s) g =
      { fieldGroup s g with lplus := x.lplus.getD g 0, overNow := (fieldGroup s g).overNow && decide (3000 < x.lplus.getD g 0) } := by
  unfold fieldGroup sampleTaken
  rw [onPwr_pwr]
  simp [hg]

theorem fieldSupplySample_outcome (x : SupplySample) (hg : g < s.pwr.groups.length) (hr : railsOn s = true) :
    ∃ t, exec (.fieldSupplySample x) s = .next t ∧ t.pwr.x1V = x.x1V ∧ t.pwr.x2mV = x.x2mV ∧ t.pwr.busmV = x.busmV ∧
      t.pwr.power10mW = x.power ∧ (fieldGroup t g).lplus = x.lplus.getD g 0 ∧
      ((fieldGroup s g).st ≠ .awaitAck → (fieldGroup t g).st = (fieldGroup s g).st) ∧
      t.pwr.commit.pending = false ∧ (s.pwr.commit.pending = true → t.pwr.force = s.pwr.copied) ∧
      (s.pwr.commit.pending = false → t.pwr.force = s.pwr.force) ∧ { t with pwr := s.pwr }.rest = s.rest := by
  obtain ⟨t, hx, ht, hk⟩ := answer_settled_groups s (supplySample x s)
  have hx : exec (.fieldSupplySample x) s = .next t := (congrArg answer (if_pos hr)).trans hx
  obtain ⟨w, f, he⟩ := supplySample_eq x s
  rw [he] at ht hk
  obtain ⟨hframe, hgroups, hpend, hforce1, hforce2⟩ := pwrBoundary_kept s
  generalize pwrBoundary s = v at *
  have hvg : fieldGroup v g = fieldGroup s g := by
    unfold fieldGroup
    rw [hgroups]
  have hown := sampleTaken_group (x := x) (w := w) (f := f) (s := v) (g := g) (by rw [hgroups]; exact hg)
  rw [hvg] at hown
  have hget {α : Type} (f' : State → α) : f' t.rest = f' (sampleTaken x w f v).rest := congrArg f' ht.rest
  refine ⟨t, hx, hget fun x => x.pwr.x1V, hget fun x => x.pwr.x2mV, hget fun x => x.pwr.busmV, hget fun x => x.pwr.power10mW, ?_, fun hst => ?_,
    (hget fun x => x.pwr.commit.pending).trans hpend, fun h => (hget fun x => x.pwr.force).trans (hforce1 h),
    fun h => (hget fun x => x.pwr.force).trans (hforce2 h), rest_of_supplies ht.rest ?_⟩
  · obtain e | ⟨-, -, e⟩ := hk.groups g
    · rw [e, hown]
    · rw [e, hown]
  · have e : (fieldGroup (sampleTaken x w f v) g).st = (fieldGroup s g).st := by rw [hown]
    rw [hk.same (.inl (by rw [e]; exact hst)), e]
  · exact hframe

end

/-- Settles O42: each command by its own outcome. -/
theorem fieldGroupsAreSupervised : Obligations.FieldGroupsAreSupervised := by
  unfold Obligations.FieldGroupsAreSupervised
  intro s g h5 hg
  refine ⟨fun hsup => ⟨fieldSupplyLow_outcome h5 hg hsup, fieldSupplyNormal_outcome hg hsup, fieldSupplyLost_outcome h5 hg hsup,
    fieldSupplyQualifying_outcome hg hsup, fun hst => ⟨qualifyingRestart_outcome hg hsup hst, ?_⟩, fieldSupplyOver_outcome h5 hg hsup⟩,
    fun v => fieldSupplyRestore_outcome v s g, fun x => fieldSupplySample_outcome x hg⟩
  obtain ⟨t, hx, h1, h2, h3, h4, h5, h6⟩ := fieldSupplyReturned_outcome hg hsup hst
  refine ⟨t, hx, h1, h2, fun h => h3 ?_, fun hne hfirst hpol => h4 ?_, h5, h6⟩
  · unfold returnsAlone
    obtain h | h | h := h <;> simp [h]
  · simp [returnsAlone, hne, hfirst, hpol]

end Sys2Proof.Machine
end

section
/-! PROOFS. Harbour watch: the request, the entry, the rounds (03_supplies_and_harbour_watch.md R78 to R84, R93). -/

namespace Sys2Proof.Machine

section
variable {s : State}

/-! ### The request (R78) -/

/-- What begins the entry, once a change before its switch has been given up. -/
def entryBegun (s : State) : State :=
  onCyc (fun c => { c with tasks := c.tasks.map fun t => { t with held := none } })
    (onPanel (fun p => { p with update := none, frame := 0 }) (onPwr (fun p => { p with hbr := .entering, wakeWait := [] }) s))

theorem harbourRequest_accepted (h : s.pwr.hbr ≠ .entering) (ha : harbourAllowed s = true) :
    harbourRequest s = entryBegun (olcAbandon olcAbandoned s) := (if_neg h).trans (if_pos ha)

theorem harbourEnterRequest_accepted (h : s.pwr.hbr ≠ .entering) (ha : harbourAllowed s = true) :
    ∃ t, exec .harbourEnterRequest s = .next t ∧ t.pwr.hbr = .entering ∧ t.pwr.wakeWait = [] ∧
      (∀ x ∈ t.cyc.tasks, x.held = none) ∧ (s.olc.phase = .idle → t.olc = s.olc ∧ t.log = s.log) := by
  have hx : exec .harbourEnterRequest s = answer (entryBegun (olcAbandon olcAbandoned s)) := congrArg answer (harbourRequest_accepted h ha)
  have hidle (hp : s.olc.phase = .idle) : olcAbandon olcAbandoned s = s := if_neg (by rw [hp]; decide)
  generalize olcAbandon olcAbandoned s = u at hx hidle
  refine ⟨_, hx, rfl, rfl, fun x hm => ?_, fun hp => ?_⟩
  · obtain ⟨y, -, rfl⟩ := List.mem_map.mp hm
    rfl
  · rw [hidle hp]
    exact ⟨rfl, rfl⟩

theorem harbourEnterRequest_refused (h : s.pwr.hbr ≠ .entering) (ha : harbourAllowed s = false) :
    ∃ t, exec .harbourEnterRequest s = .next t ∧ t.pwr.flags.getLsbD 19 = true ∧ t.pwr.hbr = s.pwr.hbr ∧
      t.log = (raise .harbourRefused .notice 0xFF 0 0 0 s).log ∧ { t with pwr := s.pwr, log := s.log }.rest = s.rest := by
  have hx : exec .harbourEnterRequest s = answer (raise .harbourRefused .notice 0xFF 0 0 0 (pwrFlag 19 s)) :=
    congrArg answer ((if_neg h).trans (if_neg (by rw [ha]; decide)))
  have hlog := raise_log .harbourRefused .notice 0xFF 0 0 0 (pwrFlag 19 s) s rfl rfl
  rw [raise_frame, hlog] at hx
  have hrest := follow_rest { pwrFlag 19 s with log := (raise .harbourRefused .notice 0xFF 0 0 0 s).log }
  exact ⟨_, hx, setBit_get s.pwr.flags 19 (by decide), rfl, rfl, rest_of_supply hrest rfl⟩

theorem harbourAutoEnter_eq (h0 : s.pwr.force.autoEnter ≠ 0) (hx1 : s.pwr.x1 = false) : exec .harbourAutoEnter s = exec .harbourEnterRequest s :=
  congrArg answer (if_pos ⟨h0, by rw [hx1]; rfl⟩)

/-! ### What the entry's steps keep (R79) -/

/-- The key, the backup domain, the banks' bytes, the supplies and the held clocks. -/
def State.watchCore (s : State) : Key × Rtc × List Host.Cell × Pwr × Word := (s.key, s.rtc, s.mem.cells, s.pwr, s.sys.clkHold)

theorem watchCore_of_besideQueues {s u : State} (h : u.besideQueues = s.besideQueues) : u.watchCore = s.watchCore := by
  have e := congrArg State.watchCore h
  exact e

theorem sendPennant_watchCore (cmd arg num at_ new : Nat) (s : State) :
    (sendPennant cmd arg num at_ new s).watchCore = s.watchCore ∧ (sendPennant cmd arg num at_ new s).log = s.log := ⟨rfl, rfl⟩

theorem ringSafeOnce_kept (s : State) : ((ringSafeOnce s).watchCore, (ringSafeOnce s).log) = (s.watchCore, s.log) := by
  refine forAll_keeps (fun x : State => (x.watchCore, x.log)) _ _ (fun x t => ?_) s
  unfold sendOutput ringSend
  exact keeps_ite (fun x : State => (x.watchCore, x.log)) rfl rfl

theorem harbourHandover_kept (s : State) : ((harbourHandover s).watchCore, (harbourHandover s).log) = (s.watchCore, s.log) := by
  unfold harbourHandover
  refine keeps_ite (fun x : State => (x.watchCore, x.log)) (keeps_ite (fun x : State => (x.watchCore, x.log)) ?_ rfl)
    (keeps_ite (fun x : State => (x.watchCore, x.log)) (ringSafeOnce_kept s) rfl)
  obtain ⟨h1, h2⟩ := sendPennant_watchCore 3 0 (s.pair.cmdSeq + 1) s.mono (s.pair.epoch + 1) (onPair (fun p => { p with cmdSeq := p.cmdSeq + 1 }) s)
  exact Prod.ext h1 h2

theorem releaseAllHolds_watchCore (s : State) : (releaseAllHolds s).watchCore = s.watchCore := by
  unfold releaseAllHolds
  refine forAll_keeps State.watchCore _ _ (fun n t => ?_) s
  dsimp only
  split
  · exact keeps_ite State.watchCore rfl rfl
  · rfl

theorem releaseAllHolds_nextSeq (s : State) : s.log.nextSeq ≤ (releaseAllHolds s).log.nextSeq := by
  unfold releaseAllHolds
  exact releaseHolds_nextSeq _ _ s

theorem stagesCommanded_kept (s : State) : (stagesCommanded s).watchCore = s.watchCore ∧ (stagesCommanded s).log = s.log := ⟨rfl, rfl⟩

theorem setMode_kept (m : Mode) (s : State) : (setMode m s).watchCore = s.watchCore ∧ (setMode m s).log = s.log := by
  unfold setMode keyTamperEnds
  split <;> split <;> exact ⟨rfl, rfl⟩

theorem dropRole_kept (s : State) : (dropRole s).watchCore = s.watchCore ∧ (dropRole s).log = s.log := by
  have h : ((if s.sys.role == .active then retireAll (fun x => x.user == userHart) retRoleLost s else s).watchCore,
      (if s.sys.role == .active then retireAll (fun x => x.user == userHart) retRoleLost s else s).log) = (s.watchCore, s.log) := by
    refine keeps_ite (fun x : State => (x.watchCore, x.log)) ?_ rfl
    have e := congrArg (fun x : State => (x.watchCore, x.log)) (retireAll_besideQueues (fun x => x.user == userHart) retRoleLost s)
    exact e
  have hd : ((dropRole s).watchCore, (dropRole s).log) =
      ((if s.sys.role == .active then retireAll (fun x => x.user == userHart) retRoleLost s else s).watchCore,
        (if s.sys.role == .active then retireAll (fun x => x.user == userHart) retRoleLost s else s).log) := rfl
  exact ⟨congrArg Prod.fst (hd.trans h), congrArg Prod.snd (hd.trans h)⟩

theorem logStored_nextSeq (r : LogRec) (rest : List LogRec) (l : Log) (k : Option Nat) : (logStored r rest l k).nextSeq = l.nextSeq := by
  cases k <;> rfl

theorem recordStore_stored_frame (s : State) :
    { recordStore .stored s with log := s.log } = s ∧ (recordStore .stored s).log.nextSeq = s.log.nextSeq := by
  have hstill (h : recordStore .stored s = onLog (fun l => { l with rebuilding := false }) s) :
      { recordStore .stored s with log := s.log } = s ∧ (recordStore .stored s).log.nextSeq = s.log.nextSeq := by
    rw [h]
    exact ⟨rfl, rfl⟩
  cases hst : s.log.staged with
  | nil =>
    refine hstill ?_
    have hs : (onLog (fun l => { l with rebuilding := false }) s).log.staged = [] := hst
    unfold recordStore
    dsimp only
    rw [hs]
  | cons r rest =>
    cases hacc : s.log.accepting with
    | false =>
      refine hstill ?_
      have hs : (onLog (fun l => { l with rebuilding := false }) s).log.staged = r :: rest := hst
      have ha : (!(onLog (fun l => { l with rebuilding := false }) s).log.accepting) = true := congrArg not hacc
      unfold recordStore
      dsimp only
      rw [hs]
      exact if_pos ha
    | true =>
      rw [recordStore_stored hacc hst]
      exact ⟨rfl, logStored_nextSeq r rest s.log _⟩

theorem storeStaged_frame (n : Nat) (s : State) :
    { storeStaged n s with log := s.log } = s ∧ (storeStaged n s).log.nextSeq = s.log.nextSeq := by
  induction n generalizing s with
  | zero => exact ⟨rfl, rfl⟩
  | succ n ih =>
    unfold storeStaged
    split
    · exact ⟨rfl, rfl⟩
    · obtain ⟨h1, h2⟩ := recordStore_stored_frame s
      generalize recordStore .stored s = u at h1 h2
      obtain ⟨i1, i2⟩ := ih u
      refine ⟨?_, i2.trans h2⟩
      have e := congrArg (fun x : State => { x with log := s.log }) i1
      exact Eq.trans e h1

/-! ### The entry in its order (R79) -/

/-- The hand-over, the held outputs and the stages. -/
def entryGiven (s : State) : State := stagesCommanded (releaseAllHolds (harbourHandover s))

/-- The mode, the role, the buses and the brake outputs. -/
def entryEnded (s : State) : State :=
  onSafe (fun x => { x with funcs := x.funcs.map SafeFunc.off }) (busesStop (dropRole (setMode .harbour s)))

/-- The record, and what is staged with it is written. -/
def entryTold (s : State) : State :=
  let s := raise .harbourEnter .notice 0xFF 0 0 0 s
  storeStaged s.log.staged.length s

/-- The banks, the links and the clocks. -/
def entryAsleep (s : State) : State :=
  onCyc (fun c => { c with epoch := none, pendingReq := none })
    (onPwr (fun p => { p with hbr := .asleep, pwrOnState := false }) (clocksAsleep (linksOff (retainBanks s))))

theorem harbourEntry_of_ended (h : s.pwr.hbr = .entering) (hc : cyclesEnded s = true) :
    harbourEntry s = entryAsleep (entryTold (entryEnded (entryGiven s))) := by
  unfold harbourEntry
  rw [if_pos ⟨h, hc⟩]
  unfold entryAsleep entryTold entryEnded entryGiven
  dsimp only

theorem entryGiven_kept (s : State) : (entryGiven s).watchCore = s.watchCore ∧ s.log.nextSeq ≤ (entryGiven s).log.nextSeq := by
  have h1 := harbourHandover_kept s
  unfold entryGiven
  generalize harbourHandover s = u at h1
  have h2 := releaseAllHolds_watchCore u
  have h3 := releaseAllHolds_nextSeq u
  generalize releaseAllHolds u = v at h2 h3
  obtain ⟨h4, h5⟩ := stagesCommanded_kept v
  have hlog : u.log = s.log := congrArg Prod.snd h1
  refine ⟨h4.trans (h2.trans (congrArg Prod.fst h1)), ?_⟩
  rw [h5]
  rw [hlog] at h3
  exact h3

theorem busesStop_kept (s : State) : (busesStop s).watchCore = s.watchCore ∧ (busesStop s).log = s.log ∧ (busesStop s).sys = s.sys := by
  have h := busesStop_besideQueues s
  generalize busesStop s = u at h
  have h1 := congrArg State.log h
  have h2 := congrArg State.sys h
  exact ⟨watchCore_of_besideQueues h, h1, h2⟩

theorem entryEnded_kept (s : State) : (entryEnded s).watchCore = s.watchCore ∧ (entryEnded s).log = s.log ∧ (entryEnded s).sys.mode = .harbour ∧
    (entryEnded s).sys.role = .none ∧ ∀ f ∈ (entryEnded s).safe.funcs, f.hsOn = false ∧ f.lsOn = false := by
  obtain ⟨h1, h2⟩ := setMode_kept .harbour s
  have hm := setMode_mode .harbour s
  unfold entryEnded
  generalize setMode .harbour s = u at h1 h2 hm
  obtain ⟨h3, h4⟩ := dropRole_kept u
  have hr := dropRole_role u
  have hm2 : (dropRole u).sys.mode = u.sys.mode := mode_of_core (dropRole_core u)
  generalize dropRole u = v at h3 h4 hr hm2
  obtain ⟨h5, h6, h7⟩ := busesStop_kept v
  generalize busesStop v = w at h5 h6 h7
  refine ⟨h5.trans (h3.trans h1), h6.trans (h4.trans h2), ?_, ?_, fun f hf => ?_⟩
  · show w.sys.mode = _
    rw [h7, hm2, hm]
  · show w.sys.role = _
    rw [h7, hr]
  · obtain ⟨g, -, rfl⟩ := List.mem_map.mp hf
    exact ⟨rfl, rfl⟩

theorem entryTold_kept (s : State) : { entryTold s with log := s.log } = s ∧ (entryTold s).log.nextSeq = s.log.nextSeq + 1 := by
  have h1 := raise_frame .harbourEnter .notice 0xFF 0 0 0 s
  have h2 := raise_nextSeq .harbourEnter .notice 0xFF 0 0 0 s
  unfold entryTold
  generalize raise .harbourEnter .notice 0xFF 0 0 0 s = u at h1 h2
  dsimp only
  obtain ⟨h3, h4⟩ := storeStaged_frame u.log.staged.length u
  refine ⟨?_, h4.trans h2⟩
  have e := congrArg (fun x : State => { x with log := s.log }) h3
  have e' := congrArg (fun x : State => { x with log := s.log }) h1
  exact Eq.trans e e'

/-- A module asleep in harbour watch. -/
structure Asleep (s t : State) : Prop where
  mode  : t.sys.mode = .harbour
  role  : t.sys.role = .none
  hbr   : t.pwr.hbr = .asleep
  pwrOn : t.pwr.pwrOnState = false
  phy   : t.sys.phy = [false, false, false, false]
  epoch : t.cyc.epoch = none
  funcs : ∀ f ∈ t.safe.funcs, f.hsOn = false ∧ f.lsOn = false
  run   : ∀ c ∈ t.sys.run, clockHeld s c = true
  mem   : t.mem.cells = s.mem.cells.filter fun c => s.pwr.force.retain.testBit (c.1 / bankBytes)
  log   : s.log.nextSeq < t.log.nextSeq
  key   : t.key = s.key
  rtc   : t.rtc = s.rtc

theorem entryAsleep_kept (s : State) : (entryAsleep s).sys.mode = s.sys.mode ∧ (entryAsleep s).sys.role = s.sys.role ∧
    (entryAsleep s).pwr = { s.pwr with hbr := .asleep, pwrOnState := false } ∧ (entryAsleep s).sys.phy = [false, false, false, false] ∧
    (entryAsleep s).cyc.epoch = none ∧ (entryAsleep s).safe = s.safe ∧ (entryAsleep s).sys.run = allClocks.filter (clockHeld s) ∧
    (entryAsleep s).mem.cells = s.mem.cells.filter (fun c => s.pwr.force.retain.testBit (c.1 / bankBytes)) ∧
    (entryAsleep s).log = s.log ∧ (entryAsleep s).key = s.key ∧ (entryAsleep s).rtc = s.rtc ∧ (entryAsleep s).sys.clkHold = s.sys.clkHold :=
  ⟨rfl, rfl, rfl, rfl, rfl, rfl, rfl, rfl, rfl, rfl, rfl, rfl⟩

theorem clockHeld_of_kept {s u : State} (ho : u.pwr.railsOff = s.pwr.railsOff) (hc : u.sys.clkHold = s.sys.clkHold) (c : Clock) :
    clockHeld u c = clockHeld s c := by
  unfold clockHeld
  rw [ho, hc]

theorem harbourEntry_asleep (h : s.pwr.hbr = .entering) (hc : cyclesEnded s = true) :
    Asleep s (harbourEntry s) ∧ (harbourEntry s).pwr.railsOff = s.pwr.railsOff ∧ (harbourEntry s).sys.clkHold = s.sys.clkHold := by
  rw [harbourEntry_of_ended h hc]
  obtain ⟨h1, hseq1⟩ := entryGiven_kept s
  generalize entryGiven s = a at h1 hseq1
  obtain ⟨h2, hlog2, hmode, hrole, hfuncs⟩ := entryEnded_kept a
  generalize entryEnded a = b at h2 hlog2 hmode hrole hfuncs
  obtain ⟨h3, hseq3⟩ := entryTold_kept b
  generalize entryTold b = c at h3 hseq3
  have hget {α : Type} (f : State → α) (hf : ∀ (x : State) (l : Log), f { x with log := l } = f x) : f c = f b :=
    (hf c b.log).symm.trans (congrArg f h3)
  have hcore : c.watchCore = s.watchCore := (hget State.watchCore fun _ _ => rfl).trans (h2.trans h1)
  have hpwr : c.pwr = s.pwr := congrArg (fun x => x.2.2.2.1) hcore
  have hhold : c.sys.clkHold = s.sys.clkHold := congrArg (fun x => x.2.2.2.2) hcore
  obtain ⟨k1, k2, k3, k4, k5, k6, k7, k8, k9, k10, k11, k12⟩ := entryAsleep_kept c
  generalize entryAsleep c = d at *
  refine ⟨⟨?_, ?_, ?_, ?_, k4, k5, ?_, fun x hx => ?_, ?_, ?_, ?_, ?_⟩, ?_, k12.trans hhold⟩
  · rw [k1, hget (fun x => x.sys.mode) fun _ _ => rfl, hmode]
  · rw [k2, hget (fun x => x.sys.role) fun _ _ => rfl, hrole]
  · rw [k3]
  · rw [k3]
  · rw [k6, hget State.safe fun _ _ => rfl]
    exact hfuncs
  · rw [k7] at hx
    rw [← clockHeld_of_kept (congrArg Pwr.railsOff hpwr) hhold]
    exact (List.mem_filter.mp hx).2
  · rw [k8, hpwr, show c.mem.cells = s.mem.cells from congrArg (fun x => x.2.2.1) hcore]
  · rw [k9, hseq3, hlog2]
    omega
  · exact k10.trans (congrArg (fun x => x.1) hcore)
  · exact k11.trans (congrArg (fun x => x.2.1) hcore)
  · rw [k3, hpwr]

/-! ### What follows a module that sleeps -/

/-- With the rails off no clock runs on but a held one. -/
theorem follow_run_of_asleep {s : State} (h : s.pwr.hbr = .asleep) {c : Clock} (hc : c ∈ (follow s).sys.run) :
    c ∈ s.sys.run ∨ clockHeld s c = true := by
  have hrun : (follow s).sys.run = allClocks.filter fun c => s.sys.run.contains c ||
      (s.sys.pll && (clockRequested (refreshStages s) c || clockHeld (refreshStages s) c)) := rfl
  rw [hrun] at hc
  have hreq : clockRequested (refreshStages s) c = false := by
    unfold clockRequested railsOn
    rw [refreshStages_pwr, h, show (HbrPhase.asleep != .asleep) = false from rfl, Bool.and_false, Bool.false_and]
  have hheld : clockHeld (refreshStages s) c = clockHeld s c := clockHeld_of_kept rfl rfl c
  have hor := (List.mem_filter.mp hc).2
  rw [hreq, Bool.false_or, hheld] at hor
  obtain h1 | h1 := Bool.or_eq_true_iff.mp hor
  · exact .inl (List.contains_iff_mem.mp h1)
  · exact .inr (Bool.and_eq_true_iff.mp h1).2

theorem run_of_settled {v u : State} (h : u.pwr.hbr = .asleep) (hrun : ∀ c ∈ u.sys.run, clockHeld s c = true)
    (ho : u.pwr.railsOff = s.pwr.railsOff) (hc : u.sys.clkHold = s.sys.clkHold) : ∀ c ∈ (follow (settle v u)).sys.run, clockHeld s c = true := by
  intro c hmem
  have hsys := settle_sys v u
  have hrest := settle_rest v u
  have hget {α : Type} (f : State → α) : f (settle v u).rest = f u.rest := congrArg f hrest
  have hhbr : (settle v u).pwr.hbr = .asleep := (hget fun x => x.pwr.hbr).trans h
  have hoff : (settle v u).pwr.railsOff = s.pwr.railsOff := (hget fun x => x.pwr.railsOff).trans ho
  obtain h1 | h1 := follow_run_of_asleep hhbr hmem
  · rw [hsys] at h1
    exact hrun c h1
  · rw [← clockHeld_of_kept hoff (by rw [hsys]; exact hc)]
    exact h1

theorem harbourEntry_outcome (h : s.pwr.hbr = .entering) (hc : cyclesEnded s = true) :
    ∃ t, exec .harbourEntry s = .next t ∧ Asleep s t := by
  refine ⟨follow (settle s (harbourEntry s)), rfl, ?_⟩
  obtain ⟨ha, ho, hh⟩ := harbourEntry_asleep h hc
  have hrun := run_of_settled (v := s) ha.hbr ha.run ho hh
  have hrest := answer_settle_rest s (harbourEntry s)
  generalize follow (settle s (harbourEntry s)) = t at hrun hrest
  have hget {α : Type} (f : State → α) : f t.rest = f (harbourEntry s).rest := congrArg f hrest
  have hlog := log_of_rest hrest
  have hsafe := safe_of_rest hrest
  exact ⟨(hget fun x => x.sys.mode).trans ha.mode, (hget fun x => x.sys.role).trans ha.role, (hget fun x => x.pwr.hbr).trans ha.hbr,
    (hget fun x => x.pwr.pwrOnState).trans ha.pwrOn, (hget fun x => x.sys.phy).trans ha.phy, (hget fun x => x.cyc.epoch).trans ha.epoch,
    by rw [hsafe]; exact ha.funcs, hrun, (hget fun x => x.mem.cells).trans ha.mem, by rw [hlog]; exact ha.log, (hget State.key).trans ha.key,
    (hget State.rtc).trans ha.rtc⟩

/-! ### A round's settle time (R81, R93) -/

/-- The supplies while a round reads. -/
def roundReads (s : State) : State := { s with pwr := { s.pwr with hbr := .reading } }

/-- The groups that the round names are supervised afresh. -/
def roundGroups (s : State) : State :=
  onPwr (fun p => { p with groups := p.groups.mapIdx fun g x => if ((List.range 5).filter (supervises s)).contains g then {} else x }) s

/-- The channels' conversions are discarded. -/
def roundAfresh (s : State) : State := onAna (fun a => { a with ch := a.ch.map fun c => { c with discard := 3, valid := false, round := [] } }) s

theorem roundSettled_of_due (h : s.pwr.hbr = .settling) (hd : settleEnd s ≤ s.mono) :
    roundSettled s = roundAfresh (roundGroups (roundReads s)) := if_pos ⟨h, hd⟩

theorem roundGroups_group {g : Nat} (h5 : g < 5) (hg : g < s.pwr.groups.length) :
    fieldGroup (roundGroups s) g = if supervises s g then {} else fieldGroup s g := by
  have hc : ((List.range 5).filter (supervises s)).contains g = supervises s g := by
    rw [Bool.eq_iff_iff, List.contains_iff_mem, List.mem_filter, List.mem_range]
    exact ⟨fun h => h.2, fun h => ⟨h5, h⟩⟩
  unfold fieldGroup roundGroups
  rw [onPwr_pwr]
  simp only [List.getD_eq_getElem?_getD, List.getElem?_mapIdx, List.getElem?_eq_getElem hg, Option.map_some, Option.getD_some, hc]

theorem roundSettled_frame (s : State) : { roundAfresh (roundGroups (roundReads s)) with pwr := s.pwr, ana := s.ana } = s := rfl

theorem watchRoundSettleEnd_outcome (h : s.pwr.hbr = .settling) (hd : settleEnd s ≤ s.mono) :
    ∃ t, exec .watchRoundSettleEnd s = .next t ∧ t.pwr.hbr = .reading ∧
      (∀ g, g < 5 → g < s.pwr.groups.length →
        (supervises (roundReads s) g = true → fieldGroup t g = {}) ∧
        (supervises (roundReads s) g = false → (fieldGroup s g).st ≠ .awaitAck ∨ NoDioSink s → fieldGroup t g = fieldGroup s g)) ∧
      (∀ x ∈ t.ana.ch, x.discard = 3 ∧ x.valid = false) ∧ { t with pwr := s.pwr, ana := s.ana }.rest = s.rest := by
  obtain ⟨t, hx, ht, hk⟩ := answer_settled_groups s (roundSettled s)
  rw [roundSettled_of_due h hd] at ht hk
  have hget {α : Type} (f : State → α) : f t.rest = f (roundAfresh (roundGroups (roundReads s))).rest := congrArg f ht.rest
  refine ⟨t, hx, hget fun x => x.pwr.hbr, fun g h5 hg => ?_, fun x hm => ?_, ?_⟩
  · have hown : fieldGroup (roundAfresh (roundGroups (roundReads s))) g = if supervises (roundReads s) g then {} else fieldGroup s g :=
      roundGroups_group (s := roundReads s) h5 hg
    refine ⟨fun hs => ?_, fun hs hc => ?_⟩
    · rw [hs, if_pos rfl] at hown
      rw [hk.same (.inl (by rw [hown]; decide)), hown]
    · rw [hs, if_neg (by decide)] at hown
      rw [hk.same (by rw [hown]; exact hc), hown]
  · have e : t.ana.ch.map (fun c => (c.discard, c.valid)) =
        (roundAfresh (roundGroups (roundReads s))).ana.ch.map fun c => (c.discard, c.valid) := by
      have e : (t.ana.ch.map AnaCh.inward).map (fun c => (c.discard, c.valid)) =
          ((roundAfresh (roundGroups (roundReads s))).ana.ch.map AnaCh.inward).map fun c => (c.discard, c.valid) :=
        hget fun x => x.ana.ch.map fun c => (c.discard, c.valid)
      rw [List.map_map, List.map_map] at e
      exact e
    have hm' := List.mem_map_of_mem (f := fun c : AnaCh => (c.discard, c.valid)) hm
    rw [e] at hm'
    obtain ⟨y, hy, he⟩ := List.mem_map.mp hm'
    obtain ⟨z, -, rfl⟩ := List.mem_map.mp hy
    exact ⟨(congrArg Prod.fst he).symm, (congrArg Prod.snd he).symm⟩
  · have e := congrArg (fun x : State => { x with pwr := s.rest.pwr, ana := s.rest.ana }) ht.rest
    exact Eq.trans e (congrArg State.rest (roundSettled_frame s))

/-! ### A round's readings (R81, R93) -/

/-- The readings of a round's channels and groups. -/
def roundRead (s : State) : State :=
  forAll ((List.range 4).filter fun g => s.pwr.force.digital.testBit g) (fun g t => watchReading g (qualified t g) (groupBitmap t g) qGood t)
    (forAll ((List.range 16).filter fun n => s.pwr.force.analogue.testBit n) (fun n t =>
      watchReading n (qualified t (n / 4) && (roundMean (anaCh t n)).isSome) (signed32 ((roundMean (anaCh t n)).getD 0)) (anaQuality t n) t) s)

/-- The module sleeps again after a round. -/
def roundEnds (s : State) : State :=
  clocksAsleep (onPwr (fun p => { p with hbr := .asleep, pwrOnState := false, rounds := satInc 32 p.rounds }) s)

theorem watchReading_frame (unit : Nat) (ok : Bool) (value : Nat) (q : Byte) (s : State) :
    { watchReading unit ok value q s with log := s.log, free := s.free } = s := by
  unfold watchReading
  cases ok <;> rfl

theorem forAll_frame {α : Type} (l : List α) (f : α → State → State) (hf : ∀ a t, { f a t with log := t.log, free := t.free } = t) (s : State) :
    { forAll l f s with log := s.log, free := s.free } = s := by
  induction l generalizing s with
  | nil => rfl
  | cons a l ih =>
    have e := congrArg (fun x : State => { x with log := s.log, free := s.free }) (ih (f a s))
    exact Eq.trans e (hf a s)

theorem roundRead_frame (s : State) : { roundRead s with log := s.log, free := s.free } = s := by
  unfold roundRead
  generalize hl : ((List.range 4).filter fun g => s.pwr.force.digital.testBit g) = l
  have h1 := forAll_frame ((List.range 16).filter fun n => s.pwr.force.analogue.testBit n) (fun n t =>
      watchReading n (qualified t (n / 4) && (roundMean (anaCh t n)).isSome) (signed32 ((roundMean (anaCh t n)).getD 0)) (anaQuality t n) t)
    (fun _ t => watchReading_frame _ _ _ _ t) s
  generalize forAll ((List.range 16).filter fun n => s.pwr.force.analogue.testBit n) _ s = u at h1
  have h2 := forAll_frame l (fun g t => watchReading g (qualified t g) (groupBitmap t g) qGood t) (fun _ t => watchReading_frame _ _ _ _ t) u
  have e := congrArg (fun x : State => { x with log := s.log, free := s.free }) h2
  exact Eq.trans e h1

theorem readingsDone_of_complete (h : s.pwr.hbr = .reading) (hc : roundComplete s = true) : readingsDone s = roundEnds (roundRead s) := by
  unfold readingsDone
  rw [if_pos ⟨h, hc⟩]
  have hd : (forAll ((List.range 16).filter fun n => s.pwr.force.analogue.testBit n) (fun n t =>
      watchReading n (qualified t (n / 4) && (roundMean (anaCh t n)).isSome) (signed32 ((roundMean (anaCh t n)).getD 0)) (anaQuality t n) t) s).pwr = s.pwr := by
    have e := congrArg State.pwr (forAll_frame ((List.range 16).filter fun n => s.pwr.force.analogue.testBit n) (fun n t =>
      watchReading n (qualified t (n / 4) && (roundMean (anaCh t n)).isSome) (signed32 ((roundMean (anaCh t n)).getD 0)) (anaQuality t n) t)
      (fun _ t => watchReading_frame _ _ _ _ t) s)
    exact e
  unfold roundEnds roundRead
  dsimp only
  rw [hd]

theorem roundRead_none (ha : s.pwr.force.analogue = 0) (hd : s.pwr.force.digital = 0) : roundRead s = s := by
  have hnil (l : List Nat) : (l.filter fun n => Nat.testBit 0 n) = [] := by simp
  unfold roundRead
  rw [ha, hd, hnil, hnil]
  rfl

theorem roundRead_one {n : Nat} (ha : s.pwr.force.analogue = 2 ^ n) (hn : n < 16) (hd : s.pwr.force.digital = 0)
    (hq : qualified s (n / 4) = true) (hr : (anaCh s n).round ≠ []) :
    roundRead s = raise .watchReading .info 0xFF n (signed32 (divEven (anaCh s n).round.sum (anaCh s n).round.length)) (anaQuality s n).toNat s := by
  have hnil : ((List.range 4).filter fun n => Nat.testBit 0 n) = [] := by simp
  have hone : ((List.range 16).filter fun m => (2 ^ n).testBit m) = [n] := by
    have hl : ∀ n < 16, ((List.range 16).filter fun m => (2 ^ n).testBit m) = [n] := by decide
    exact hl n hn
  have hmean : roundMean (anaCh s n) = some (divEven (anaCh s n).round.sum (anaCh s n).round.length) := by
    unfold roundMean
    split
    · next h => exact absurd h hr
    · rfl
  unfold roundRead
  rw [ha, hd, hnil, hone]
  show watchReading n (qualified s (n / 4) && (roundMean (anaCh s n)).isSome) (signed32 ((roundMean (anaCh s n)).getD 0)) (anaQuality s n) s = _
  rw [hq, hmean]
  rfl

theorem roundEnds_kept (s : State) : { roundEnds s with pwr := s.pwr, sys := s.sys } = s ∧
    (roundEnds s).pwr = { s.pwr with hbr := .asleep, pwrOnState := false, rounds := satInc 32 s.pwr.rounds } ∧
    (roundEnds s).sys.run = allClocks.filter (clockHeld s) ∧ (roundEnds s).sys.clkHold = s.sys.clkHold ∧ (roundEnds s).log = s.log :=
  ⟨rfl, rfl, rfl, rfl, rfl⟩

theorem watchReadingsDone_outcome (h : s.pwr.hbr = .reading) (hc : roundComplete s = true) :
    ∃ t, exec .watchReadingsDone s = .next t ∧ t.pwr.hbr = .asleep ∧ t.pwr.pwrOnState = false ∧
      t.pwr.rounds = satInc 32 s.pwr.rounds ∧ (∀ c ∈ t.sys.run, clockHeld s c = true) ∧ t.log = (roundRead s).log ∧
      { t with pwr := s.pwr, log := s.log, sys := s.sys }.rest = s.rest := by
  have hx : exec .watchReadingsDone s = answer (settle s (readingsDone s)) := rfl
  rw [readingsDone_of_complete h hc] at hx
  have hread := roundRead_frame s
  generalize roundRead s = u at hx hread
  obtain ⟨h1, h2, h3, h4, h5⟩ := roundEnds_kept u
  generalize roundEnds u = v at hx h1 h2 h3 h4 h5
  have hup : u.pwr = s.pwr := by
    have e := congrArg State.pwr hread
    exact e
  have hus : u.sys = s.sys := by
    have e := congrArg State.sys hread
    exact e
  have hrun := run_of_settled (s := s) (v := s) (u := v) (by rw [h2]) (fun c hm => by
      rw [h3] at hm
      rw [← clockHeld_of_kept (congrArg Pwr.railsOff hup) (by rw [hus])]
      exact (List.mem_filter.mp hm).2)
    (by rw [h2, hup]) (by rw [h4, hus])
  have hrest := answer_settle_rest s v
  refine ⟨_, hx, ?_⟩
  generalize follow (settle s v) = t at hrun hrest
  have hget {α : Type} (f : State → α) : f t.rest = f v.rest := congrArg f hrest
  refine ⟨(hget fun x => x.pwr.hbr).trans (by exact congrArg Pwr.hbr h2), (hget fun x => x.pwr.pwrOnState).trans (by exact congrArg Pwr.pwrOnState h2),
    (hget fun x => x.pwr.rounds).trans ?_, hrun, (log_of_rest hrest).trans h5, ?_⟩
  · have e := congrArg Pwr.rounds h2
    rw [hup] at e
    exact e
  · have e := hget fun x => { x with pwr := s.rest.pwr, log := s.rest.log, sys := s.rest.sys }
    have e1 := congrArg (fun x : State => { x with pwr := s.pwr, log := s.log, sys := s.sys }.rest) h1
    have e2 := congrArg (fun x : State => { x with pwr := s.pwr, log := s.log, sys := s.sys }.rest) hread
    exact (Eq.trans e e1).trans e2

theorem pwronFault_outcome (h : s.pwr.pwrOnState = true) :
    ∃ t, exec .pwronFault s = .next t ∧ t.pwr.pwrOnState = false ∧ t.pwr.flags.getLsbD 20 = true ∧ { t with pwr := s.pwr } = follow s := by
  have hx : exec .pwronFault s = answer (pwrFlag 20 (onPwr (fun p => { p with pwrOnState := false }) s)) := congrArg answer (if_pos h)
  exact ⟨_, hx, rfl, setBit_get s.pwr.flags 20 (by decide), follow_of_supplies rfl {}⟩

end

/-- Settles O43: each command by its own outcome. -/
theorem harbourWatchIsEnteredAndKept : Obligations.HarbourWatchIsEnteredAndKept := by
  unfold Obligations.HarbourWatchIsEnteredAndKept
  intro s
  refine ⟨harbourEnterRequest_accepted, harbourEnterRequest_refused, harbourAutoEnter_eq, fun h0 hx1 h ha => ?_, fun h hc => ?_,
    watchRoundSettleEnd_outcome, fun h hc => ?_, pwronFault_outcome⟩
  · obtain ⟨t, hx, hh, -⟩ := harbourEnterRequest_accepted h ha
    exact ⟨t, (harbourAutoEnter_eq h0 hx1).trans hx, hh⟩
  · obtain ⟨t, hx, ht⟩ := harbourEntry_outcome h hc
    refine ⟨t, hx, ht.mode, ht.role, ht.hbr, ht.pwrOn, ht.phy, ht.epoch, ht.funcs, ht.run, fun c hm => ?_, fun c hm => ?_, ht.log, ht.key, ht.rtc⟩
    · rw [ht.mem] at hm
      exact (List.mem_filter.mp hm).1
    · rw [ht.mem, List.mem_filter]
      exact ⟨fun e => e.2, fun e => ⟨hm, e⟩⟩
  · obtain ⟨t, hx, h1, h2, h3, h4, hlog, h5⟩ := watchReadingsDone_outcome h hc
    refine ⟨t, hx, h1, h2, h3, h4, fun ha hd => ?_, fun n ha hn hd hq hr => ?_, h5⟩
    · rw [hlog, roundRead_none ha hd]
    · rw [hlog, roundRead_one ha hn hd hq hr]

end Sys2Proof.Machine
end

section
/-! PROOFS. The hoist: a hoist closed and sent, its fragments taken and applied (10_hoist_codec.md R261 to R279). -/

namespace Sys2Proof.Machine

/-- A command that changes the hoist, the recorder and what has gone out alone leaves what follows as it was. -/
theorem follow_of_hoist {s u : State} (h : { u with hoist := s.hoist, log := s.log, sent := s.sent } = s) :
    { follow u with hoist := s.hoist, log := s.log, sent := s.sent } = follow s :=
  congrArg follow h

/-! ### A hoist is closed and sent (R264 to R269) -/

/-- Fragments go out on the pair link and change nothing else; a body has at least one. -/
theorem sendFragments_outcome (seq fuel no : Nat) (body : List Byte) (s : State) :
    ∃ l : List Sent, sendFragments seq fuel no body s = { s with sent := l ++ s.sent } ∧ (0 < fuel → l ≠ []) ∧
      ∀ x ∈ l, x.kind = .hoist ∧ x.num = seq := by
  induction fuel generalizing no body s with
  | zero => exact ⟨[], rfl, fun h => absurd h (Nat.lt_irrefl 0), fun _ h => absurd h List.not_mem_nil⟩
  | succ fuel ih =>
    unfold sendFragments sendFrame
    dsimp only
    split
    · refine ⟨[_], rfl, fun _ => List.cons_ne_nil _ _, fun x hx => ?_⟩
      rw [List.mem_singleton.1 hx]
      exact ⟨rfl, rfl⟩
    · obtain ⟨l, he, _, hl⟩ := ih (no + 1) (body.drop 1456) _
      refine ⟨l ++ [_], he.trans (congrArg (fun k => { s with sent := k }) (List.append_assoc l [_] s.sent).symm), fun _ => by simp, fun x hx => ?_⟩
      obtain hx | hx := List.mem_append.1 hx
      · exact hl x hx
      · rw [List.mem_singleton.1 hx]
        exact ⟨rfl, rfl⟩

/-- The SEQ of the next hoist (R264). -/
def hoistNext (s : State) : Nat := match s.hoist.seq with
  | some n => n + 1
  | none => 0

/-- What closing a hoist gives the book of the hoist, with no mirrored task (R264, R277). -/
structure Closed (s : State) (h : Hoist) : Prop where
  seq     : h.seq = some (hoistNext s)
  gen     : h.gen = s.olc.gen
  sent    : h.sent = satInc 32 s.hoist.sent
  largest : h.last ≤ h.largest
  image   : h.image = s.hoist.image
  next    : h.next = s.hoist.next

/-- A hoist goes out whole and its figures are kept; the rest is the record of an overflow. -/
structure Closing (s u : State) : Prop where
  hoist : Closed s u.hoist
  sent  : ∃ l : List Sent, u.sent = l ++ s.sent ∧ l ≠ [] ∧ ∀ x ∈ l, x.kind = .hoist ∧ x.num = hoistNext s
  frame : { u with hoist := s.hoist, log := s.log, sent := s.sent } = s

theorem Closing.overflow {s u : State} (h : Closing s u) : Closing s (overflowRecord u) := by
  unfold overflowRecord
  split
  · obtain ⟨⟨hseq, hgen, hsent, hlargest, himage, hnext⟩, hl, hframe⟩ := h
    exact ⟨⟨hseq, hgen, hsent, hlargest, himage, hnext⟩, hl, hframe⟩
  · exact h

/-- The fragments sent, then the book of the hoist changed: a hoist closed. -/
theorem closing_of_sent {s : State} (body : List Byte) {f : Hoist → Hoist} (hf : Closed s (f s.hoist)) :
    Closing s (onHoist f (sendFragments (hoistNext s) (body.length / 1456 + 1) 0 body s)) := by
  obtain ⟨l, he, hne, hl⟩ := sendFragments_outcome (hoistNext s) (body.length / 1456 + 1) 0 body s
  rw [he]
  exact ⟨hf, ⟨l, rfl, hne (Nat.succ_pos _), hl⟩, rfl⟩

theorem sendFragments_olc (seq fuel no : Nat) (body : List Byte) (s : State) : (sendFragments seq fuel no body s).olc = s.olc := by
  obtain ⟨l, he, -⟩ := sendFragments_outcome seq fuel no body s
  rw [he]

theorem hoistClose_closing {s : State} (hp : s.hoist.pacing = 0xFF) (hs : hoistSends s = true) : Closing s (hoistClose s) := by
  unfold hoistClose
  extract_lets img h seq fixed len used
  rw [if_neg (by simp [hs])]
  split
  rename_i changes cut _
  extract_lets used' room fresh refreshed overNow wraps done body coded sent closed
  have hclosed : Closing s closed := closing_of_sent body
    ⟨rfl, congrArg Olc.gen (sendFragments_olc _ _ _ _ _), rfl, Nat.le_max_right _ _, rfl, if_pos hp⟩
  split
  · exact hclosed.overflow
  · exact hclosed

theorem hoistTimer_closes {s : State} (hp : s.hoist.pacing = 0xFF) (hs : hoistSends s = true) :
    exec .hoistTimer s = answer (hoistClose s) := by
  show execHoistTimer s = _
  simp only [execHoistTimer, hp, hs, ne_eq, not_true_eq_false, if_false, if_true]

/-! ### Staleness (R273) -/

/-- The book of the hoist with the image lost. -/
def Hoist.unwhole (h : Hoist) : Hoist := { h with imageOk := false, catching := false, onlyOver := false }

/-- A side that is stale loses the image alone; another becomes stale with its record. -/
theorem becomeStale_cases (cause : Nat) (s : State) :
    (s.sys.stale = true ∧ becomeStale cause s = onHoist Hoist.unwhole s) ∨
      becomeStale cause s =
        raise .hoistStale .notice 0xFF cause 0 0 (onSys (fun y => { y with stale := true }) (onHoist Hoist.unwhole s)) := by
  by_cases h : s.sys.stale = true
  · exact .inl ⟨h, if_pos h⟩
  · exact .inr (if_neg h)

/-- Losing the image changes the hoist, STALE and the recorder. -/
theorem becomeStale_frame (cause : Nat) (s : State) :
    { becomeStale cause s with hoist := s.hoist, log := s.log, sys := { (becomeStale cause s).sys with stale := s.sys.stale } } = s := by
  obtain ⟨-, h⟩ | h := becomeStale_cases cause s <;> rw [h]
  · rfl
  · rfl

theorem becomeStale_stale (cause : Nat) (s : State) : (becomeStale cause s).sys.stale = true := by
  obtain ⟨hs, h⟩ | h := becomeStale_cases cause s <;> rw [h]
  · exact hs
  · rfl

theorem becomeStale_hoist (cause : Nat) (s : State) : (becomeStale cause s).hoist = s.hoist.unwhole := by
  obtain ⟨-, h⟩ | h := becomeStale_cases cause s <;> rw [h]
  · rfl
  · rfl

theorem becomeStale_nextSeq (cause : Nat) (s : State) : s.log.nextSeq ≤ (becomeStale cause s).log.nextSeq := by
  obtain ⟨-, h⟩ | h := becomeStale_cases cause s <;> rw [h]
  · exact Nat.le_refl _
  · rw [raise_nextSeq]
    exact Nat.le_succ _

/-- A frame that leaves STALE out, beyond what a settling changes. -/
theorem rest_of_stale {s t u : State} (hr : t.rest = u.rest)
    (hu : { u with hoist := s.hoist, log := s.log, sys := { u.sys with stale := s.sys.stale } } = s) :
    { t with hoist := s.hoist, log := s.log, sys := { t.sys with stale := s.sys.stale } }.rest = s.rest := by
  have h := congrArg (fun r : State => { r with hoist := s.hoist, log := s.log, sys := { r.sys with stale := s.sys.stale } }) hr
  have e := congrArg State.rest hu
  exact h.trans e

theorem rest_of_hoist {s t u : State} (hr : t.rest = u.rest) (hu : { u with hoist := s.hoist } = s) :
    { t with hoist := s.hoist }.rest = s.rest := by
  have h := congrArg (fun r : State => { r with hoist := s.hoist }) hr
  have e := congrArg State.rest hu
  exact h.trans e

theorem stale_of_rest {t u : State} (h : t.rest = u.rest) : t.sys.stale = u.sys.stale := by
  have e := congrArg (fun r : State => r.sys.stale) h
  exact e

theorem hoist_of_rest {t u : State} (h : t.rest = u.rest) : t.hoist = u.hoist := by
  have e := congrArg State.hoist h
  exact e

/-- The image is lost by silence, or nothing happens. -/
theorem hoistSilent_cases (s : State) : hoistSilent s = becomeStale 2 s ∨ hoistSilent s = s := by
  unfold hoistSilent
  split
  · exact .inl rfl
  · exact .inr rfl

theorem hoistSilent_frame (s : State) :
    { hoistSilent s with hoist := s.hoist, log := s.log, sys := { (hoistSilent s).sys with stale := s.sys.stale } } = s := by
  obtain h | h := hoistSilent_cases s <;> rw [h]
  exact becomeStale_frame 2 s

theorem hoistSilent_outcome {s : State} (hp : s.hoist.pacing = 0xFF) (hs : hoistSends s = false) :
    ∃ t, exec .hoistTimer s = .next t ∧ t.sent = s.sent ∧
      (hoistReceives s = true → s.pair.silent = false → (s.pair.partner.any fun p => p.role == 2 && p.mode == 1) = true →
        s.hoist.heardAt + 2000000 < s.mono → t.sys.stale = true ∧ t.hoist.imageOk = false) ∧
      { t with hoist := s.hoist, log := s.log, sys := { t.sys with stale := s.sys.stale } }.rest = s.rest := by
  have he : exec .hoistTimer s = answer (settle s (hoistSilent s)) := by
    show execHoistTimer s = _
    simp only [execHoistTimer, hp, hs, ne_eq, not_true_eq_false, if_false, Bool.false_eq_true]
  obtain ⟨t, hx, hr⟩ := answer_settled s (hoistSilent s)
  have hf := hoistSilent_frame s
  have hsent := congrArg State.sent hf
  refine ⟨t, he.trans hx, (sent_of_rest hr).trans hsent, fun hrec hsil hpart hlong => ?_, rest_of_stale hr hf⟩
  have hst : hoistSilent s = becomeStale 2 s := by
    unfold hoistSilent hoistPatience
    rw [if_pos (by simp [hrec, hsil, hpart, hp, hlong])]
  rw [stale_of_rest hr, hoist_of_rest hr, hst]
  exact ⟨becomeStale_stale 2 s, by rw [becomeStale_hoist]; rfl⟩

/-! ### A fragment arrives (R268, R272) -/

theorem hoistFragment_good {s : State} (hrec : hoistReceives s = true) (l : List Byte) :
    exec (.hoistFragment l none) s = answer (settle s (hoistFragment l s)) := by
  show execHoistFragment l none s = _
  simp only [execHoistFragment, hrec, Bool.not_true, Bool.false_eq_true, if_false]
  rfl

theorem hoistFragment_bad {s : State} (hrec : hoistReceives s = true) {p : Place} (hp : holdsWord s .mirror p = true)
    (hu : uncorrectable p s = true) (l : List Byte) :
    exec (.hoistFragment l (some p)) s = answer (settle s (mirrorHalts (ueFound .mirror p s))) := by
  show execHoistFragment l (some p) s = _
  simp only [execHoistFragment, hrec, Bool.not_true, Bool.false_eq_true, if_false, Option.bind_some, metBad_of_uncorrectable hp hu]

theorem ueFound_nextSeq (o : Owner) (p : Place) (s : State) : s.log.nextSeq < (ueFound o p s).log.nextSeq := by
  unfold ueFound reportUe
  extract_lets loc u v w
  have hw : w.log.nextSeq = s.log.nextSeq + 1 := raise_nextSeq _ _ _ _ _ _ _
  unfold weakFound
  split
  · rw [hw]
    exact Nat.lt_succ_self _
  · rw [raise_nextSeq]
    exact Nat.lt_succ_of_lt (hw ▸ Nat.lt_succ_self _)

theorem role_of_receives {s : State} (h : hoistReceives s = true) : s.sys.role = .standby := by
  simp only [hoistReceives, Bool.and_eq_true, beq_iff_eq] at h
  exact h.1.2

/-- An uncorrectable word of the mirror channel halts it, and the standby is stale (R106). -/
theorem hoistFragment_halts {s : State} (hrec : hoistReceives s = true) {p : Place} (hp : holdsWord s .mirror p = true)
    (hu : uncorrectable p s = true) (l : List Byte) :
    ∃ t, exec (.hoistFragment l (some p)) s = .next t ∧ t.hoist.halted = true ∧ t.hoist.seq = s.hoist.seq ∧
      t.sys.stale = true ∧ t.hoist.imageOk = false ∧ s.log.nextSeq < t.log.nextSeq ∧
      { t with hoist := s.hoist, log := s.log, mem := s.mem, sys := { t.sys with stale := s.sys.stale } }.rest = s.rest := by
  have hframe := ueFound_frame .mirror p s
  have hseq := ueFound_nextSeq .mirror p s
  obtain ⟨t, hx, hr⟩ := answer_settled s (mirrorHalts (ueFound .mirror p s))
  refine ⟨t, (hoistFragment_bad hrec hp hu l).trans hx, ?_⟩
  generalize ueFound .mirror p s = v at hframe hseq hr
  have hrole : v.sys.role = .standby := by
    have e := congrArg (fun x : State => x.sys.role) hframe
    exact e.trans (role_of_receives hrec)
  have hhoist : v.hoist.seq = s.hoist.seq := by
    have e := congrArg (fun x : State => x.hoist.seq) hframe
    exact e
  have hhalts : mirrorHalts v = becomeStale 2 (onHoist (fun h => { h with halted := true }) v) := if_pos hrole
  rw [hhalts] at hr
  have hgrows := becomeStale_nextSeq 2 (onHoist (fun h => { h with halted := true }) v)
  have hst := becomeStale_frame 2 (onHoist (fun h => { h with halted := true }) v)
  rw [hoist_of_rest hr, stale_of_rest hr, log_of_rest hr, becomeStale_hoist]
  refine ⟨rfl, hhoist, becomeStale_stale _ _, rfl, Nat.lt_of_lt_of_le hseq hgrows, ?_⟩
  generalize becomeStale 2 (onHoist (fun h => { h with halted := true }) v) = u at hr hst
  have h1 := congrArg (fun r : State =>
    { r with hoist := s.hoist, log := s.log, mem := s.mem.inward, sys := { r.sys with stale := s.sys.stale } }) hr
  have h2 := congrArg (fun x : State =>
    { x with hoist := s.hoist, log := s.log, mem := s.mem, sys := { x.sys with stale := s.sys.stale } }.rest) hst
  have h3 := congrArg (fun x : State => { x with hoist := s.hoist, sys := { x.sys with stale := s.sys.stale } }.rest) hframe
  exact h1.trans (h2.trans h3)

/-- A fragment that fails its check is no fragment. -/
theorem hoistFragment_failed {l : List Byte} (h : frameOk 0x50 l = false) (s : State) : hoistFragment l s = s := by
  unfold hoistFragment
  exact if_pos (.inl (by simp [h]))

/-! A body is read by the mirror list, the ranges, the types of the entries and the loops' sections alone (R269). -/

section
variable {s u : State} (hm : u.hoist.mirror = s.hoist.mirror) (hr : u.hoist.ranges = s.hoist.ranges) (hs : u.sig = s.sig)
  (he : u.eng = s.eng)

include hm hs in
theorem readEntries_congr (n pos : Nat) (l : List Byte) : readEntries u n pos l = readEntries s n pos l := by
  induction n generalizing pos l with
  | zero => rfl
  | succ n ih => simp only [readEntries, mirrorType, sigEntry, hm, hs, ih]

include hm hr hs he

theorem readRecord_congr (cls : Nat) (refresh : Bool) (l : List Byte) : readRecord u cls refresh l = readRecord s cls refresh l := by
  simp only [readRecord, readEntries_congr hm hs, rangeBits, hr, loopAt, he]

theorem readRecords_congr (n : Nat) (l : List Byte) : readRecords u n l = readRecords s n l := by
  induction n generalizing l with
  | zero => rfl
  | succ n ih => simp only [readRecords, ih, readRecord_congr hm hr hs he]

theorem readBody_congr (l : List Byte) : readBody u l = readBody s l := by
  simp only [readBody, readRecords_congr hm hr hs he]

end

/-- The book of the hoist with a body begun by fragment 0. -/
def Hoist.begun (seq : Nat) (h : Hoist) : Hoist := { h with fragSeq := some seq, fragNext := 0, fragData := [], fragLate := false }

/-- The book of the hoist with no body coming in. -/
def Hoist.dropped (h : Hoist) : Hoist := { h with fragSeq := none, fragNext := 0, fragData := [], fragLate := false }

/-- The book of the hoist with the next fragment of the body that comes in. -/
def Hoist.taken (no : Nat) (data : List Byte) (h : Hoist) : Hoist := { h with fragNext := no + 1, fragData := h.fragData ++ data }

section
variable {s : State} {l : List Byte} (hok : frameOk 0x50 l = true) (hlen : 21 ≤ fld l 2 2)
include hok hlen

theorem not_dropped : ¬ ((!frameOk 0x50 l) = true ∨ fld l 2 2 < 21) := by simp [hok, Nat.not_lt.2 hlen]

/-- Fragment 0 of a body of several begins it. -/
theorem hoistFragment_first (hno : fld l 12 2 = 0) (hlast : l.getD 14 0 &&& 1 = 0) :
    hoistFragment l s = onHoist (fun h => (h.begun (fld l 4 8)).taken 0 (slice l 16 (fld l 2 2 - 20))) s := by
  have hl : ¬ (l.getD 14 0 &&& 1 = 1) := by rw [hlast]; decide
  unfold hoistFragment
  extract_lets n seq no data u v late body w
  have hno : no = 0 := hno
  have hu : u = onHoist (Hoist.begun seq) s := if_pos hno
  have hin : u.hoist.fragSeq = some seq ∧ u.hoist.fragNext = no := by
    rw [hu, hno]
    exact ⟨rfl, rfl⟩
  rw [if_neg (not_dropped hok hlen), if_pos hin, if_neg hl]
  show onHoist _ u = _
  rw [hu, hno]
  rfl

/-- A fragment out of order gives the body up. -/
theorem hoistFragment_outOfOrder (hno : fld l 12 2 ≠ 0) (ho : s.hoist.fragSeq ≠ some (fld l 4 8) ∨ s.hoist.fragNext ≠ fld l 12 2) :
    hoistFragment l s = onHoist Hoist.dropped s := by
  unfold hoistFragment
  extract_lets n seq no data u v late body w
  have hu : u = s := if_neg hno
  rw [if_neg (not_dropped hok hlen), if_neg (by rw [hu]; exact fun h => ho.elim (fun e => e h.1) fun e => e h.2), hu]
  rfl

/-- The last fragment in order makes the body whole. -/
theorem hoistFragment_last (hno : fld l 12 2 ≠ 0) (hseq : s.hoist.fragSeq = some (fld l 4 8)) (hnext : s.hoist.fragNext = fld l 12 2)
    (hlast : l.getD 14 0 &&& 1 = 1) (hlate : s.hoist.fragLate = false) {b : HoistBody}
    (hb : readBody s (s.hoist.fragData ++ slice l 16 (fld l 2 2 - 20)) = some b) (hbs : b.seq = fld l 4 8) :
    hoistFragment l s = hoistWhole b false (onHoist Hoist.dropped s) := by
  unfold hoistFragment
  extract_lets n seq no data u v late body w
  have hu : u = s := if_neg hno
  have hbody : readBody w body = some b := by
    show readBody (onHoist _ (onHoist _ u)) (u.hoist.fragData ++ data) = _
    rw [hu, ← hb]
    exact readBody_congr (s := s) (by rfl) (by rfl) (by rfl) (by rfl) _
  have hl : late = false := by
    show u.hoist.fragLate = false
    rw [hu]
    exact hlate
  have hw : w = onHoist Hoist.dropped s := by
    show onHoist _ (onHoist _ u) = _
    rw [hu]
    rfl
  rw [if_neg (not_dropped hok hlen), if_pos (by rw [hu]; exact ⟨hseq, hnext⟩), if_pos hlast, hbody, hl, hw]
  exact if_pos hbs

end

/-! ### A whole hoist is applied (R272, R273) -/

/-- The figures that a whole hoist moves, with STALE. -/
structure Figures where
  seq         : Option Nat
  lastApplied : Option Nat
  expect      : Option Nat
  heardAt     : Nat
  applied     : Nat
  fragSeq     : Option Nat
  stale       : Bool

def State.figures (s : State) : Figures :=
  { seq := s.hoist.seq, lastApplied := s.hoist.lastApplied, expect := s.hoist.expect, heardAt := s.hoist.heardAt
    applied := s.hoist.applied, fragSeq := s.hoist.fragSeq, stale := s.sys.stale }

theorem skipReported_figures (n m : Nat) (s : State) : (skipReported n m s).figures = s.figures :=
  keeps_ite State.figures (keeps_ite State.figures rfl (keeps_ite State.figures rfl rfl)) rfl

theorem applyCycle_figures (gen : Nat) (c : CycleRec) (s : State) : (applyCycle gen c s).figures = s.figures := by
  have hskips : ∀ t : State, (forAll (List.range c.skips) (fun i t => skipReported c.task (c.firstSkip + i) t) t).figures = t.figures :=
    forAll_keeps State.figures _ _ fun i t => skipReported_figures _ _ t
  exact keeps_ite State.figures (keeps_ite State.figures (hskips s) (hskips s)) (hskips s)

/-- No record of a hoist moves a figure of it. -/
theorem applyRecord_figures (gen : Nat) (r : HoistRec) (s : State) : (applyRecord gen r s).figures = s.figures := by
  cases r with
  | cycle c => exact applyCycle_figures gen c s
  | outputs mask cmds a b => exact keeps_ite State.figures rfl rfl
  | forces refresh items => exact forAll_keeps State.figures _ forceWaits (fun _ _ => rfl) s
  | loopState n q m e qual secs => rfl
  | entries refresh first items => rfl
  | instanceRec refresh range first gs => rfl
  | history refresh range first codes => rfl

theorem digestCompare_figures (a : CycleRec) (own : Nat) (s : State) : (digestCompare a own s).figures = s.figures := by
  unfold digestCompare
  extract_lets t onT u v w
  have hw : w.figures = s.figures := rfl
  exact keeps_ite State.figures rfl (keeps_ite State.figures hw hw)

theorem compareCycles_figures (s : State) : (compareCycles s).figures = s.figures := by
  unfold compareCycles
  extract_lets pairs u
  have hu : u.figures = s.figures :=
    forAll_keeps State.figures _ _ (fun x t => keeps_ite State.figures (digestCompare_figures _ _ t) rfl) s
  exact hu

theorem catchUp_figures (b : HoistBody) (s : State) : (catchUp b s).figures = s.figures := by
  unfold catchUp
  split
  · rfl
  · extract_lets u n
    have hu : u.figures = s.figures := keeps_ite State.figures rfl rfl
    exact keeps_ite State.figures hu hu

/-- The figures without STALE. -/
def Figures.moved (f : Figures) : Figures := { f with stale := false }

theorem receivedOverflow_figures (s : State) : (receivedOverflow s).figures = { s.figures with stale := true } := by
  unfold receivedOverflow
  extract_lets only u
  split
  · next h =>
    have hs : s.sys.stale = true := h
    show { s.figures with stale := s.sys.stale } = _
    rw [hs]
  · rfl

theorem becomeFresh_moved (s : State) : (becomeFresh s).figures.moved = s.figures.moved :=
  keeps_ite (fun x => x.figures.moved) rfl rfl

/-- What the loss of hoists leaves of the figures: the instant, the count and the body that comes in. -/
def Figures.heard (f : Figures) : Nat × Nat × Option Nat := (f.heardAt, f.applied, f.fragSeq)

theorem becomeStale_heard (cause : Nat) (s : State) : (becomeStale cause s).figures.heard = s.figures.heard :=
  keeps_ite (fun x => x.figures.heard) rfl rfl

theorem hoistsLost_heard (n cause : Nat) (s : State) : (hoistsLost n cause s).figures.heard = s.figures.heard :=
  keeps_ite (fun x => x.figures.heard) rfl (becomeStale_heard _ _)

/-- A hoist that is applied gives the figures its own (R272); with OVERFLOW the standby is STALE (R273). -/
theorem hoistApply_figures (b : HoistBody) (s : State) : ∃ st : Bool, (b.overflow = true → st = true) ∧
    (hoistApply b s).figures =
      { seq := some b.seq, lastApplied := some b.seq, expect := some (b.seq + 1), heardAt := s.hoist.heardAt
        applied := satInc 32 s.hoist.applied, fragSeq := s.hoist.fragSeq, stale := st } := by
  unfold hoistApply
  extract_lets follows u wasWhole v w x y
  have hu : u.figures.heard = s.figures.heard := by
    show (if follows then s else _).figures.heard = _
    split
    · rfl
    · split
      · rfl
      · split
        · exact hoistsLost_heard _ _ s
        · exact becomeStale_heard _ s
  have hw : w.figures = v.figures := catchUp_figures b v
  have hv : v.figures = Figures.mk (some b.seq) (some b.seq) (some (b.seq + 1)) u.figures.heard.1
      (satInc 32 u.figures.heard.2.1) u.figures.heard.2.2 u.sys.stale := rfl
  have hy : ∃ st : Bool, (b.overflow = true → st = true) ∧ y.figures = { v.figures with stale := st } := by
    show ∃ st : Bool, _ ∧ (if b.overflow then receivedOverflow w else if (follows && wasWhole) = true then becomeFresh x else x).figures = _
    split
    · exact ⟨true, fun _ => rfl, by rw [receivedOverflow_figures, hw]⟩
    · next hb =>
      have hm : ∀ z : State, z.figures.moved = v.figures.moved → ∃ st : Bool, (b.overflow = true → st = true) ∧ z.figures = { v.figures with stale := st } := by
        intro z hz
        have e := congrArg (fun f => Figures.mk f.seq f.lastApplied f.expect f.heardAt f.applied f.fragSeq z.sys.stale) hz
        exact ⟨z.sys.stale, fun h => absurd h hb, e⟩
      have hx : x.figures.moved = v.figures.moved := congrArg Figures.moved hw
      exact hm _ (keeps_ite (fun x => x.figures.moved) ((becomeFresh_moved x).trans hx) hx)
  obtain ⟨st, hst, hy⟩ := hy
  refine ⟨st, hst, ?_⟩
  rw [compareCycles_figures, forAll_keeps State.figures _ _ fun r t => applyRecord_figures _ r t, hy, hv, hu]
  rfl

/-! ### What the obligation says of a body (R272) -/

section
variable {s : State} {b : HoistBody}

/-- The state in which a whole hoist is judged: the body taken out, the instant noted. -/
def hoistHeard (s : State) : State := onHoist (fun h => { h.dropped with heardAt := s.mono }) s

theorem inTime_heard : inTime (hoistHeard s) b = inTime s b := rfl

theorem hoistWhole_applied (hin : inTime s b = true) (hg : b.gen = s.olc.gen) :
    hoistWhole b false (onHoist Hoist.dropped s) = hoistApply b (hoistHeard s) := by
  have ht : inTime (hoistHeard s) b = true := inTime_heard.trans hin
  unfold hoistWhole
  extract_lets u
  have hu : u = hoistHeard s := rfl
  rw [hu, ht, if_neg Bool.false_ne_true, if_neg (by decide)]
  exact if_neg fun h => h hg

theorem hoistWhole_other (hin : inTime s b = true) (hg : b.gen ≠ s.olc.gen) :
    hoistWhole b false (onHoist Hoist.dropped s) = hoistsLost b.seq 5 (onHoist (fun h => { h with flags := flag 4 h.flags }) (hoistHeard s)) := by
  have ht : inTime (hoistHeard s) b = true := inTime_heard.trans hin
  unfold hoistWhole
  extract_lets u
  have hu : u = hoistHeard s := rfl
  rw [hu, ht, if_neg Bool.false_ne_true, if_neg (by decide)]
  exact if_pos hg

end

/-- The loss of hoists keeps the flags that stand, the last SEQ and the count of those applied. -/
theorem hoistsLost_keeps {n cause k : Nat} {s : State} (h : s.hoist.flags.getLsbD k = true) :
    (hoistsLost n cause s).hoist.flags.getLsbD k = true ∧ (hoistsLost n cause s).hoist.applied = s.hoist.applied ∧
      (hoistsLost n cause s).hoist.seq = s.hoist.seq := by
  unfold hoistsLost
  extract_lets from_
  split
  · exact ⟨h, rfl, rfl⟩
  · rw [becomeStale_hoist]
    exact ⟨flag_keeps 1 h, rfl, rfl⟩

theorem figures_of_rest {t u : State} (h : t.rest = u.rest) : t.figures = u.figures := by
  have e := congrArg State.figures h
  exact e

/-! ### The obligation -/

/-- Settles O44: a hoist's fragments carry its SEQ, and no record of a body moves a figure that the body itself moves. -/
theorem hoistsAreSentAndTaken : Obligations.HoistsAreSentAndTaken := by
  unfold Obligations.HoistsAreSentAndTaken
  intro s
  refine ⟨fun hp hs => ?closes, fun hp => ?paced, fun hp hs => hoistSilent_outcome hp hs, fun l p hrec => ?others,
    fun p l hrec hp hu => hoistFragment_halts hrec hp hu l, fun l hrec hbad => ?failed, fun l hrec hok hlen => ?frames, fun r => ?latch⟩
  case closes =>
    obtain ⟨⟨hseq, hgen, hsent, hlargest, himage, hnext⟩, ⟨l, hl, hne, hall⟩, hframe⟩ := hoistClose_closing hp hs
    refine ⟨_, hoistNext s, l, hoistTimer_closes hp hs, fun h => ?_, fun k h => ?_, hseq, hgen, hsent, hlargest, himage, hnext, hl, hne,
      hall, follow_of_hoist hframe⟩
    · rw [hoistNext, h]
    · rw [hoistNext, h]
  case paced =>
    show execHoistTimer s = _
    rw [execHoistTimer, if_pos hp]
    rfl
  case others =>
    show execHoistFragment l p s = _
    simp only [execHoistFragment, hrec, Bool.not_false, if_true]
    rfl
  case failed =>
    obtain ⟨t, hx, hr⟩ := answer_settled s s
    refine ⟨t, (hoistFragment_good hrec l).trans ?_, hoist_of_rest hr, stale_of_rest hr, hr⟩
    rw [hoistFragment_failed hbad]
    exact hx
  case frames =>
    refine ⟨fun hno hlast => ?first, fun hno ho => ?outOfOrder, fun hno hseq hnext hlast hlate b hb hbs hin => ⟨fun hg => ?own, fun hg => ?other⟩⟩
    case first =>
      obtain ⟨t, hx, hr⟩ := answer_settled s (hoistFragment l s)
      rw [hoistFragment_first hok hlen hno hlast] at hr
      refine ⟨t, (hoistFragment_good hrec l).trans hx, ?_⟩
      rw [hoist_of_rest hr]
      exact ⟨rfl, rfl, rfl, rfl, rest_of_hoist hr rfl⟩
    case outOfOrder =>
      obtain ⟨t, hx, hr⟩ := answer_settled s (hoistFragment l s)
      rw [hoistFragment_outOfOrder hok hlen hno ho] at hr
      refine ⟨t, (hoistFragment_good hrec l).trans hx, ?_⟩
      rw [hoist_of_rest hr]
      exact ⟨rfl, rfl, rest_of_hoist hr rfl⟩
    case own =>
      obtain ⟨t, hx, hr⟩ := answer_settled s (hoistFragment l s)
      rw [hoistFragment_last hok hlen hno hseq hnext hlast hlate hb hbs, hoistWhole_applied hin hg] at hr
      obtain ⟨st, hst, hfig⟩ := hoistApply_figures b (hoistHeard s)
      have hf := (figures_of_rest hr).trans hfig
      rw [← hbs]
      exact ⟨t, (hoistFragment_good hrec l).trans hx, congrArg Figures.seq hf, congrArg Figures.lastApplied hf, congrArg Figures.expect hf,
        congrArg Figures.heardAt hf, congrArg Figures.applied hf, congrArg Figures.fragSeq hf,
        fun h => (congrArg Figures.stale hf).trans (hst h)⟩
    case other =>
      obtain ⟨t, hx, hr⟩ := answer_settled s (hoistFragment l s)
      rw [hoistFragment_last hok hlen hno hseq hnext hlast hlate hb hbs, hoistWhole_other hin hg] at hr
      refine ⟨t, (hoistFragment_good hrec l).trans hx, ?_⟩
      rw [hoist_of_rest hr]
      exact hoistsLost_keeps (setBit_get s.hoist.flags 4 (by decide))
  case latch => cases r <;> exact ⟨_, rfl, rfl, rfl⟩

end Sys2Proof.Machine
end

section
/-! PROOFS. A tamper response that ends a download (06_online_change.md R176, 19_plant_port_and_access.md R487). -/

namespace Sys2Proof.Machine

/-- A side that receives a download while the switch of a change before it stands announced, and whose cover is to LOCK. -/
def switchAnnounced : State :=
  { State.reset with
    sec := { State.reset.sec with everKey := true, responses := [.lock, .alert, .alert, .alert, .alert] }
    olc := { State.reset.olc with phase := .receiving }
    pair := { State.reset.pair with cmd := some { kind := 2, arg := 0, seq := 0, due := 0, newEpoch := 0, acked := false, asked := 0 } } }

/-- The LOCK ends the download, and the announced switch with it. -/
theorem switchAnnounced_ended : (tamperEnter 0 switchAnnounced).pair.cmd = none := rfl

/-- Refutes O45: a LOCK that ends a download (R487) discards the announced switch with it (R176), and so changes what the side says in its
pennants, which the statement's frame leaves out. -/
theorem not_tamperSourcesRespond : ¬ Obligations.TamperSourcesRespond := by
  unfold Obligations.TamperSourcesRespond
  intro h
  obtain ⟨hcover, -⟩ := h switchAnnounced
  obtain ⟨hcover, -⟩ := hcover 0 (by decide) rfl rfl rfl
  obtain ⟨t, hx, -, -, -, -, -, -, -, hframe⟩ := hcover rfl
  have hx : answer (tamperEnter 0 switchAnnounced) = .next t := hx
  cases hx
  have e := congrArg (fun x : State => x.pair.cmd) hframe
  have hcmd : (tamperEnter 0 switchAnnounced).pair.cmd = switchAnnounced.pair.cmd := e
  rw [switchAnnounced_ended] at hcmd
  exact absurd hcmd.symm (Option.some_ne_none _)

end Sys2Proof.Machine
end

section
/-! PROOFS. Pennants, the partner's silence and hand-overs (09_pair_and_takeover.md R231 to R248). -/

namespace Sys2Proof.Machine

/-- A command that changes the pair, the recorder and what goes out alone leaves what follows as it was. -/
theorem follow_of_pair {s u : State} (h : { u with pair := s.pair, log := s.log } = s) :
    { follow u with pair := s.pair, log := s.log } = follow s :=
  congrArg follow h

/-! ### Frames that leave -/

theorem pennantBytes_length (p : Pennant) : (pennantBytes p).length = 108 := by
  simp only [pennantBytes, frameBytes, List.length_append, leBytes_length, List.length_singleton]

theorem padded_of_long {l : List Byte} (h : 46 ≤ l.length) : padded l = l := by
  simp only [padded, Nat.sub_eq_zero_of_le h, List.replicate_zero, List.append_nil]

theorem sendPennant_eq (cmd arg num at_ new : Nat) (s : State) : sendPennant cmd arg num at_ new s =
    { s with
      pair := { s.pair with seq := s.pair.seq + 1 }
      sent := { kind := .pennant, unit := s.pair.side, num := s.pair.seq, eth := some { ports := [3], dest := 0x01524D000010 },
                body := pennantBytes (ownPennant s cmd arg num at_ new) } :: s.sent } := by
  have h : padded (pennantBytes (ownPennant s cmd arg num at_ new)) = pennantBytes (ownPennant s cmd arg num at_ new) :=
    padded_of_long (by rw [pennantBytes_length]; decide)
  unfold sendPennant sendFrame
  rw [h]
  rfl

/-- Every pennant of a side counts SEQ on and goes out; nothing else changes. -/
theorem pennantSend_frame {s : State} (h : pairRuns s = true) :
    (pennantSend s).pair = { s.pair with seq := s.pair.seq + 1 } ∧ { pennantSend s with pair := s.pair, sent := s.sent } = s := by
  have hs : ∀ cmd arg num at_ new, (sendPennant cmd arg num at_ new s).pair = { s.pair with seq := s.pair.seq + 1 } ∧
      { sendPennant cmd arg num at_ new s with pair := s.pair, sent := s.sent } = s := fun _ _ _ _ _ => ⟨rfl, rfl⟩
  unfold pennantSend
  rw [if_pos h]
  split
  · split
    · exact hs _ _ _ _ _
    · exact hs _ _ _ _ _
  · split
    · split
      · exact hs _ _ _ _ _
      · exact hs _ _ _ _ _
    · exact hs _ _ _ _ _

theorem pennantSend_command {s : State} (h : pairRuns s = true) {c : PairCommand} (hc : s.pair.cmd = some c) (hv : c.void = false) :
    pennantSend s = sendPennant c.kind c.arg c.seq c.due c.newEpoch s := by
  unfold pennantSend
  rw [if_pos h, hc]
  exact if_neg (by simp [hv])

theorem pennantSend_plain {s : State} (h : pairRuns s = true) (hc : s.pair.cmd = none) (hr : s.cyc.pendingReq = none) :
    pennantSend s = sendPennant 0 0 s.pair.cmdSeq 0 0 s := by
  unfold pennantSend
  rw [if_pos h, hc, hr]

/-! ### What the steps of the pair leave of the link -/

/-- What a side knows of its link: the partner's last pennant with its instant, whether it is silent, and the counts. -/
structure Link where
  partner   : Option Pennant
  partnerAt : Nat
  silent    : Bool
  rx        : Nat
  bad       : Nat

def Pair.link (p : Pair) : Link :=
  { partner := p.partner, partnerAt := p.partnerAt, silent := p.silent, rx := p.rx, bad := p.bad }

/-- A step of the pair that keeps the link and the role, never ends STALE and never lowers the epoch (R236). -/
structure Abreast (s u : State) : Prop where
  link  : u.pair.link = s.pair.link
  role  : u.sys.role = s.sys.role
  stale : s.sys.stale = true → u.sys.stale = true
  epoch : s.pair.epoch ≤ u.pair.epoch

theorem abreast_refl (s : State) : Abreast s s := ⟨rfl, rfl, id, Nat.le_refl _⟩

theorem Abreast.trans {s u v : State} (h1 : Abreast s u) (h2 : Abreast u v) : Abreast s v :=
  ⟨h2.link.trans h1.link, h2.role.trans h1.role, fun h => h2.stale (h1.stale h), Nat.le_trans h1.epoch h2.epoch⟩

theorem abreast_ite {s a b : State} {c : Prop} [Decidable c] (ha : Abreast s a) (hb : Abreast s b) : Abreast s (if c then a else b) := by
  split
  · exact ha
  · exact hb

/-- A step that keeps the link, the role and STALE and the epoch. -/
theorem abreast_of_same {s u : State} (hl : u.pair.link = s.pair.link) (hy : u.sys = s.sys) (he : u.pair.epoch = s.pair.epoch) : Abreast s u :=
  ⟨hl, by rw [hy], fun h => by rw [hy]; exact h, he ▸ Nat.le_refl _⟩

theorem becomeStale_abreast (cause : Nat) (s : State) : Abreast s (becomeStale cause s) := by
  obtain ⟨-, h⟩ | h := becomeStale_cases cause s <;> rw [h]
  · exact abreast_of_same rfl rfl rfl
  · exact ⟨rfl, rfl, fun _ => rfl, Nat.le_refl _⟩

theorem olcAbandon_abreast (code : Nat) (s : State) : Abreast s (olcAbandon code s) :=
  abreast_ite (abreast_of_same rfl rfl rfl) (abreast_refl s)

theorem storeEpoch_abreast {e : Nat} {s : State} (h : s.pair.epoch ≤ e) : Abreast s (storeEpoch e s) := ⟨rfl, rfl, id, h⟩

/-- The frames in which a Jack frame leaves, newest first (R226, R229). -/
def jackFrames (k : SentKind) (unit num dest : Nat) (body : List Byte) (s : State) : List Sent :=
  (if s.pair.jackP4 then [{ kind := k, unit := unit, num := num, body := padded body, eth := some { ports := [4], dest := dest, tag := some 7 } }]
    else []) ++
  (if s.pair.jackRing && ringSends s then
    [{ kind := k, unit := unit, num := num, body := padded body,
       eth := some { ports := ringPorts s, dest := dest, hsr := some s.ring.hsrSeq.toNat } }]
    else [])

/-- The ring after a Jack frame: one HSR number further where it left there. -/
def jackRingAfter (s : State) : Ring := if s.pair.jackRing && ringSends s then { s.ring with hsrSeq := s.ring.hsrSeq + 1 } else s.ring

theorem jackSend_eq (k : SentKind) (unit num dest : Nat) (body : List Byte) (s : State) : jackSend k unit num dest body s =
    { s with sent := jackFrames k unit num dest body s ++ s.sent, ring := jackRingAfter s } := by
  unfold jackSend ringSend jackFrames jackRingAfter
  cases hr : s.pair.jackRing <;> cases hg : ringSends s <;> cases h4 : s.pair.jackP4 <;>
    simp [h4, sendFrame, onRing]

theorem jackRingAfter_frame (s : State) : { jackRingAfter s with hsrSeq := s.ring.hsrSeq } = s.ring := by
  unfold jackRingAfter
  split
  · rfl
  · rfl

theorem jackSend_pair (k : SentKind) (unit num dest : Nat) (body : List Byte) (s : State) : (jackSend k unit num dest body s).pair = s.pair := by
  rw [jackSend_eq]

theorem jackSend_sys (k : SentKind) (unit num dest : Nat) (body : List Byte) (s : State) : (jackSend k unit num dest body s).sys = s.sys := by
  rw [jackSend_eq]

theorem jackSend_abreast (k : SentKind) (unit num dest : Nat) (body : List Byte) (s : State) : Abreast s (jackSend k unit num dest body s) := by
  rw [jackSend_eq]
  exact abreast_of_same rfl rfl rfl

theorem notifySend_abreast (s : State) : Abreast s (notifySend s) := by
  unfold notifySend
  refine abreast_ite ?_ (abreast_refl s)
  extract_lets n f
  exact (jackSend_abreast _ _ _ _ _ s).trans (abreast_of_same rfl rfl rfl)

theorem enterTaking_abreast (cause epoch : Nat) (s : State) : Abreast s (enterTaking cause epoch s) := by
  unfold enterTaking
  extract_lets e u v w
  have hu : Abreast s u := (storeEpoch_abreast (Nat.le_max_left _ _)).trans (olcAbandon_abreast _ _)
  have hw : Abreast s w := hu.trans (abreast_of_same rfl rfl rfl)
  exact abreast_ite (hw.trans (abreast_of_same rfl rfl rfl)) (hw.trans (abreast_of_same rfl rfl rfl))

theorem acceptNew_abreast (p : Pennant) (s : State) : Abreast s (acceptNew p s) := by
  unfold acceptNew
  refine abreast_ite (abreast_refl s) ?_
  extract_lets u v
  have hu : Abreast s u := abreast_ite (olcAbandon_abreast _ s) (abreast_refl s)
  have hv : Abreast s v := abreast_ite (hu.trans (abreast_of_same rfl rfl rfl)) hu
  exact hv.trans (abreast_of_same rfl rfl rfl)

theorem acceptCommand_abreast (p : Pennant) (s : State) : Abreast s (acceptCommand p s) := by
  have hseq : Abreast s (onPair (fun x => { x with cmdSeq := p.cmdSeq }) s) := abreast_of_same rfl rfl rfl
  have htake : Abreast s (notifySend (enterTaking 2 p.newEpoch (onPair (fun x => { x with cmdSeq := p.cmdSeq }) s))) :=
    (hseq.trans (enterTaking_abreast _ _ _)).trans (notifySend_abreast _)
  have hstore : Abreast s (storeEpoch (max s.pair.epoch p.newEpoch) (onPair (fun x => { x with cmdSeq := p.cmdSeq }) s)) :=
    hseq.trans (storeEpoch_abreast (Nat.le_max_left _ _))
  unfold acceptCommand
  extract_lets can
  refine abreast_ite (abreast_ite (abreast_refl s) (abreast_ite htake (abreast_ite hstore (abreast_refl s))))
    (abreast_ite (abreast_ite (abreast_ite (abreast_of_same rfl rfl rfl) (acceptNew_abreast p s)) (abreast_refl s))
      (abreast_ite (olcAbandon_abreast _ s) (abreast_refl s)))

theorem olcMove_abreast (s : State) : Abreast s (olcMove s) := by
  unfold olcMove
  extract_lets b
  exact abreast_ite (abreast_refl s) (abreast_ite (abreast_of_same rfl rfl rfl) (abreast_of_same rfl rfl rfl))

theorem commandAcked_abreast (p : Pennant) (s : State) : Abreast s (commandAcked p s) := by
  unfold commandAcked
  split
  · exact abreast_refl s
  · extract_lets late step due
    exact abreast_ite (abreast_ite (olcMove_abreast s) (abreast_of_same rfl rfl rfl)) (abreast_refl s)

theorem partnerAsks_abreast (p : Pennant) (s : State) : Abreast s (partnerAsks p s) := by
  refine abreast_ite (Abreast.trans (Abreast.trans ?_ (olcAbandon_abreast _ _)) (abreast_of_same rfl rfl rfl)) (abreast_refl s)
  exact abreast_of_same rfl rfl rfl

theorem olcAnnounce_abreast (s : State) : Abreast s (olcAnnounce s) := by
  unfold olcAnnounce
  extract_lets alone b
  exact abreast_ite (abreast_ite (abreast_of_same rfl rfl rfl) (abreast_ite (abreast_of_same rfl rfl rfl) (abreast_refl s))) (abreast_refl s)

theorem mapBase_abreast (p : Pennant) (s : State) : Abreast s (mapBase p s) := by
  unfold mapBase
  extract_lets u v period d
  have hu : Abreast s u := abreast_of_same rfl rfl rfl
  have hv : Abreast s v := hu.trans (abreast_ite (abreast_refl u) (abreast_of_same rfl rfl rfl))
  exact abreast_ite (hv.trans (abreast_of_same rfl rfl rfl)) hu

/-- The mapping of the bases raises nothing and leaves the start and the epoch as they are. -/
theorem mapBase_keeps (p : Pennant) (s : State) : ((mapBase p s).log, (mapBase p s).start, (mapBase p s).pair.epoch) = (s.log, s.start, s.pair.epoch) := by
  unfold mapBase
  extract_lets u v period d
  have hv : (v.log, v.start, v.pair.epoch) = (s.log, s.start, s.pair.epoch) := keeps_ite (fun x : State => (x.log, x.start, x.pair.epoch)) rfl rfl
  exact keeps_ite (fun x : State => (x.log, x.start, x.pair.epoch)) hv rfl

/-! ### An ACTIVE side that becomes STANDBY (R236, R242) -/

/-- A step that keeps the pair and the module's own state. -/
def State.seat (s : State) : Pair × Sys := (s.pair, s.sys)

theorem seat_of_besideQueues {s u : State} (h : u.besideQueues = s.besideQueues) : u.seat = s.seat := by
  have e := congrArg State.seat h
  exact e

theorem stopSending_seat (s : State) : (stopSending s).seat = s.seat := by
  unfold stopSending
  extract_lets u v w
  have hu : u.seat = s.seat := seat_of_besideQueues (retireAll_besideQueues _ _ s)
  have hv : v.seat = u.seat := forAll_keeps State.seat _ _ (fun (d : Desc) t => seat_of_besideQueues (retire_besideQueues d.handle retRoleLost none t)) u
  have hw : w.seat = v.seat := forAll_keeps State.seat _ (fun (q : Nat) k => onBook q (fun b => { b with current := false }) k) (fun _ _ => rfl) v
  exact hw.trans (hv.trans hu)

theorem toStandby_seat (s : State) :
    (toStandby s).seat = ({ s.pair with st := .standby, cmd := none }, { s.sys with role := .standby }) := by
  have hdrop : ∀ x : State, (launchesDrop x).seat = x.seat := fun _ => rfl
  unfold toStandby
  rw [hdrop, stopSending_seat]
  rfl

/-- A side that has stepped down: STANDBY, STALE, of at least an epoch. -/
structure SteppedDown (e : Nat) (u : State) : Prop where
  role  : u.sys.role = .standby
  stale : u.sys.stale = true
  epoch : e ≤ u.pair.epoch

theorem SteppedDown.abreast {e : Nat} {u v : State} (h : SteppedDown e u) (ha : Abreast u v) : SteppedDown e v :=
  ⟨ha.role.trans h.role, ha.stale h.stale, Nat.le_trans h.epoch ha.epoch⟩

/-- A superseded side steps down and keeps its link. -/
theorem supersede_outcome (e : Nat) (s : State) : SteppedDown e (supersede e s) ∧ (supersede e s).pair.link = s.pair.link := by
  unfold supersede
  extract_lets u v w
  have hv : Abreast s v := ⟨rfl, rfl, id, Nat.le_max_left _ _⟩
  have hve : e ≤ v.pair.epoch := Nat.le_max_right _ _
  have hw : Abreast v w := olcAbandon_abreast _ v
  have hseat := toStandby_seat (raise .epochSuperseded .fault 0xFF 0 0 0 w)
  generalize toStandby (raise .epochSuperseded .fault 0xFF 0 0 0 w) = x at hseat
  have hpair : x.pair = { w.pair with st := .standby, cmd := none } := congrArg Prod.fst hseat
  have hsys : x.sys = { w.sys with role := .standby } := congrArg Prod.snd hseat
  have hx := becomeStale_abreast 1 x
  refine ⟨⟨hx.role.trans (by rw [hsys]), becomeStale_stale 1 x, ?_⟩, hx.link.trans ?_⟩
  · refine Nat.le_trans ?_ hx.epoch
    rw [hpair]
    exact Nat.le_trans hve hw.epoch
  · rw [hpair]
    exact hw.link.trans hv.link

theorem seeEpoch_link (e : Nat) (s : State) : (seeEpoch e s).pair.link = s.pair.link :=
  keeps_ite (fun x : State => x.pair.link) (keeps_ite (fun x : State => x.pair.link) (supersede_outcome e s).2
    (keeps_ite (fun x : State => x.pair.link) rfl rfl)) rfl

theorem seeEpoch_active {e : Nat} {s : State} (hr : s.sys.role = .active) (he : s.pair.epoch < e) : SteppedDown e (seeEpoch e s) := by
  unfold seeEpoch
  rw [if_pos he, if_pos hr]
  exact (supersede_outcome e s).1

/-! ### A pennant arrives (R233) -/

/-- The link of a side that has accepted a pennant. -/
def Pair.heardFrom (p : Pennant) (now : Nat) (x : Pair) : Link :=
  { partner := some p, partnerAt := now, silent := false, rx := satInc 32 x.rx, bad := x.bad }

theorem pennantAccepted_outcome (p : Pennant) (s : State) : (pennantAccepted p s).pair.link = s.pair.heardFrom p s.mono ∧
    (s.sys.role = .active → s.pair.epoch < p.epoch → SteppedDown p.epoch (pennantAccepted p s)) := by
  unfold pennantAccepted
  extract_lets was u v w x tie y z a
  have hv : v.pair = u.pair ∧ v.sys = s.sys := ⟨keeps_ite State.pair rfl rfl, keeps_ite State.sys rfl rfl⟩
  have hw : w.pair = u.pair ∧ w.sys = s.sys := ⟨keeps_ite State.pair hv.1 hv.1, keeps_ite State.sys hv.2 hv.2⟩
  have hx : Abreast w x := mapBase_abreast p w
  have hy : y.pair.link = x.pair.link := keeps_ite (fun k : State => k.pair.link) (supersede_outcome p.epoch x).2 (seeEpoch_link p.epoch x)
  have hyn : Abreast y (onPair (fun k => { k with st := .standby }) y) := abreast_of_same rfl rfl rfl
  have hz : Abreast y z := abreast_ite (hyn.trans (becomeStale_abreast 6 _)) (abreast_refl y)
  have hzp : Abreast z (onOlc (fun o => { o with partnerReady := p.flags.testBit 1 }) z) := abreast_of_same rfl rfl rfl
  have hya : Abreast y a := hz.trans (hzp.trans (olcAnnounce_abreast _))
  have ha : Abreast y (partnerAsks p (commandAcked p (acceptCommand p a))) :=
    (((hya.trans (acceptCommand_abreast p a)).trans (commandAcked_abreast p (acceptCommand p a))).trans
      (partnerAsks_abreast p (commandAcked p (acceptCommand p a))))
  refine ⟨ha.link.trans (hy.trans (hx.link.trans (congrArg Pair.link hw.1))), fun hrole hlt => SteppedDown.abreast ?_ ha⟩
  have hxr : x.sys.role = .active := by rw [hx.role, hw.2, hrole]
  show SteppedDown p.epoch (if tie then supersede p.epoch x else seeEpoch p.epoch x)
  split
  · exact (supersede_outcome p.epoch x).1
  · have hxe : x.pair.epoch = s.pair.epoch := by
      have e := congrArg (fun k : Log × Start × Nat => k.2.2) (mapBase_keeps p w)
      have ew := congrArg Pair.epoch hw.1
      exact e.trans ew
    exact seeEpoch_active hxr (hxe ▸ hlt)

/-- What a start has heard after a pennant (R57). -/
def Start.hears (p : Pennant) (x : Start) : Start := if x.phase == .listening then { x with heard := x.heard ++ [p] } else x

/-- A pennant heard in role discovery changes the link, the bases and what the start has heard. -/
theorem pennantHeard_outcome (p : Pennant) (s : State) : (pennantHeard p s).sys.role = s.sys.role ∧
    (pennantHeard p s).pair.link = { (s.pair.heardFrom p s.mono) with silent := s.pair.silent } ∧ (pennantHeard p s).log = s.log ∧
    (pennantHeard p s).start = s.start.hears p := by
  unfold pennantHeard
  extract_lets u
  have hu : (u.pair, u.sys, u.log, u.mono) = (s.pair, s.sys, s.log, s.mono) :=
    keeps_ite (fun x : State => (x.pair, x.sys, x.log, x.mono)) rfl rfl
  obtain ⟨hpair, hsys, hlog, hmono⟩ : u.pair = s.pair ∧ u.sys = s.sys ∧ u.log = s.log ∧ u.mono = s.mono := by
    simpa only [Prod.mk.injEq] using hu
  have hstart : u.start = s.start.hears p := by
    by_cases h : (s.start.phase == .listening) = true
    · exact (congrArg State.start (if_pos h)).trans (if_pos h).symm
    · exact (congrArg State.start (if_neg h)).trans (if_neg h).symm
  generalize hv : onPair (fun x => { x with rx := satInc 32 x.rx, partner := some p, partnerAt := u.mono }) u = v
  have hvp : v.pair.link = { (s.pair.heardFrom p s.mono) with silent := s.pair.silent } := by
    rw [← hv, ← hpair, ← hmono]
    rfl
  have hvs : v.sys = s.sys ∧ v.log = s.log ∧ v.start = s.start.hears p := by
    rw [← hv]
    exact ⟨hsys, hlog, hstart⟩
  obtain ⟨hsys, hlog, hstart⟩ := hvs
  have hm := mapBase_abreast p v
  have hk := mapBase_keeps p v
  have hkl := congrArg Prod.fst hk
  have hks := congrArg (fun k : Log × Start × Nat => k.2.1) hk
  exact ⟨hm.role.trans (congrArg Sys.role hsys), hm.link.trans hvp, hkl.trans hlog, hks.trans hstart⟩

/-- A frame that is no pennant: its check or its length fails (R229, R255). -/
theorem pennantReceived_bad {l : List Byte} {s : State} (hd : discovers s = true ∨ pairRuns s = true) (h : frameOk 0x40 l = false) :
    pennantReceived l s = pennantBad s := by
  unfold pennantReceived
  simp only [h, Bool.or_eq_true, hd, if_true, Bool.not_false, Bool.true_or]

section
variable {l : List Byte} {s : State} (hd : discovers s = true ∨ pairRuns s = true) (hok : frameOk 0x40 l = true) (hlen : fld l 2 2 = 108)
include hd hok hlen

theorem pennantReceived_foreign (h : (readPennant l).pairId ≠ (hdr s).pairId) : pennantReceived l s = pennantForeign s := by
  unfold pennantReceived
  simp only [hok, hlen, hd, h, Bool.or_eq_true, if_true, Bool.not_true, bne_self_eq_false, Bool.or_false, Bool.false_eq_true, if_false, ne_eq,
    not_false_eq_true]

variable (hid : (readPennant l).pairId = (hdr s).pairId)
include hid

theorem pennantReceived_clash (h : (readPennant l).side = s.pair.side) : pennantReceived l s =
    if (pennantClash s).start.phase == .listening then onStart (fun t => { t with heard := t.heard ++ [readPennant l] }) (pennantClash s)
    else pennantClash s := by
  unfold pennantReceived
  simp only [hok, hlen, hd, hid, h, Bool.or_eq_true, if_true, Bool.not_true, bne_self_eq_false, Bool.or_false, Bool.false_eq_true, if_false,
    ne_eq, not_true_eq_false]

/-- A new pennant of the other side is heard in role discovery and accepted in service. -/
theorem pennantReceived_fresh (hne : (readPennant l).side ≠ s.pair.side) (hside : (readPennant l).side = 3 - s.pair.side)
    (hf : s.pair.silent = true ∨ s.pair.partner = none ∨ ∃ q, s.pair.partner = some q ∧ q.seq < (readPennant l).seq) :
    pennantReceived l s = if discovers s then pennantHeard (readPennant l) s else pennantAccepted (readPennant l) s := by
  have hfresh : (s.pair.silent || match s.pair.partner with
      | none => true
      | some q => decide (q.seq < (readPennant l).seq)) = true := by
    obtain h | h | ⟨q, hq, hlt⟩ := hf
    · rw [h, Bool.true_or]
    · rw [h, Bool.or_true]
    · rw [hq]
      simp only [hlt, decide_true, Bool.or_true]
  unfold pennantReceived
  extract_lets p clash fresh
  have hfr : fresh = true := hfresh
  rw [if_pos (by simpa only [Bool.or_eq_true] using hd), if_neg (by simp [hok, hlen]), if_neg (fun h => h hid), if_neg hne,
    if_neg (fun h => h hside), if_neg (by simp [hfr])]

end

theorem link_of_rest {t u : State} (h : t.rest = u.rest) : t.pair = u.pair := by
  have e := congrArg State.pair h
  exact e

/-! ### The partner is silent (R234, R242) -/

/-- With no change in progress the loss of the partner ends none. -/
theorem olcPartnerGone_of_idle {s : State} (h : s.olc.phase = .idle) : olcPartnerGone s = s := by
  simp [olcPartnerGone, olcAbandon, olcPrepared, h, OlcPhase.before]

/-- The pair of a side whose partner is declared silent. -/
def Pair.hushed (p : Pair) : Pair := { p with silent := true, silences := satInc 32 p.silences }

theorem partnerSilent_first {s : State} (hp : pairRuns s = true) (hs : s.pair.silent = false) (hi : s.olc.phase = .idle) :
    partnerSilent s = match s.pair.st with
      | .active => partnerLost (onPair Pair.hushed s)
      | .releasing => partnerLost (onPair (fun p => { p with cmd := p.cmd.map fun c => { c with void := c.void || !c.acked } })
          (onPair Pair.hushed s))
      | .standby => standbySilent (onPair Pair.hushed s)
      | _ => onPair Pair.hushed s := by
  have hgone : olcPartnerGone (onPair Pair.hushed s) = onPair Pair.hushed s := olcPartnerGone_of_idle hi
  unfold partnerSilent
  extract_lets u v
  have hu : u = onPair Pair.hushed s := rfl
  have hv : v = onPair Pair.hushed s := keeps_ite id hu (hu ▸ hgone)
  rw [if_neg (by simp [hp]), if_neg (by simp [hs]), hv]
  rfl

theorem partnerSilent_again {s : State} (hp : pairRuns s = true) (hs : s.pair.silent = true) (hst : s.pair.st = .standby)
    (hl : s.pair.linkDown = false) (ha : s.pair.accepted = none) : partnerSilent s = standbySilent s := by
  simp [partnerSilent, hp, hs, hst, hl, ha]

/-- The query that leaves next (R238). -/
def queryFrame (s : State) : JackFrame :=
  { typ := 0x41, pairId := (hdr s).pairId, side := s.pair.side, arg := s.pair.client.reason, num := (s.pair.client.queryNo + 1).toNat
    epoch := s.pair.epoch }

/-- The pair with one more query out, counted as an attempt or not. -/
def Pair.queried (counted : Bool) (p : Pair) : Pair :=
  { p with
    queries := satInc 32 p.queries
    client := { p.client with queryNo := p.client.queryNo + 1, waiting := true
                              attempts := if counted then p.client.attempts + 1 else p.client.attempts } }

theorem sendQuery_eq (counted : Bool) (s : State) : sendQuery counted s =
    { s with
      pair := s.pair.queried counted
      sent := jackFrames .jackQuery s.pair.jackMac (s.pair.client.queryNo + 1).toNat s.pair.jackMac (jackBytes (queryFrame s)) s ++ s.sent
      ring := jackRingAfter s } := by
  unfold sendQuery
  extract_lets n f
  rw [jackSend_eq]
  rfl

/-- A query changes the pair and what goes out. -/
theorem sendQuery_frame (counted : Bool) (s : State) :
    { sendQuery counted s with pair := s.pair, sent := s.sent, ring := { (sendQuery counted s).ring with hsrSeq := s.ring.hsrSeq } } = s := by
  rw [sendQuery_eq]
  exact congrArg (fun r : Ring => { s with ring := r }) (jackRingAfter_frame s)

/-- The pair of a side in QUERY for a reason, before its first attempt. -/
def Pair.asking (reason : Nat) (p : Pair) : Pair := { p with st := .query, client := { p.client with reason := reason, attempts := 0 } }

/-- What a side that enters QUERY changes (R241, R242). -/
theorem enterQuery_outcome (reason : Nat) (s : State) : (enterQuery reason s).pair = (s.pair.asking reason).queried true ∧
    { enterQuery reason s with pair := s.pair, sent := s.sent, ring := { (enterQuery reason s).ring with hsrSeq := s.ring.hsrSeq } } = s := by
  have he : enterQuery reason s = sendQuery true (onPair (Pair.asking reason) s) := rfl
  have hf := congrArg (fun x : State => { x with pair := s.pair }) (sendQuery_frame true (onPair (Pair.asking reason) s))
  rw [he]
  refine ⟨?_, hf⟩
  rw [sendQuery_eq]
  rfl

/-- A standby that may ask queries the Jack for the silence (R242). -/
theorem standbySilent_asks {s : State} (hm : s.pair.mismatch = false) (ha : s.pair.accepted = none) :
    standbySilent s = enterQuery 2 (partnerLost s) := by
  simp [standbySilent, hm, ha]

/-- A frame of the pair, the recorder and what goes out, beyond what a settling changes. -/
theorem rest_of_pair {s t u : State} (hr : t.rest = u.rest)
    (hu : { u with pair := s.pair, log := s.log, sent := s.sent, ring := { u.ring with hsrSeq := s.ring.hsrSeq } } = s) :
    { t with pair := s.pair, log := s.log, sent := s.sent, ring := { t.ring with hsrSeq := s.ring.hsrSeq } }.rest = s.rest := by
  have h := congrArg (fun r : State =>
    { r with pair := s.pair, log := s.log, sent := s.sent, ring := { r.ring with hsrSeq := s.ring.hsrSeq } }) hr
  have e := congrArg State.rest hu
  exact h.trans e

theorem rest_of_pairLog {s t u : State} (hr : t.rest = u.rest) (hu : { u with pair := s.pair, log := s.log } = s) :
    { t with pair := s.pair, log := s.log }.rest = s.rest := by
  have h := congrArg (fun r : State => { r with pair := s.pair, log := s.log }) hr
  have e := congrArg State.rest hu
  exact h.trans e

theorem rest_of_pairAlone {s t u : State} (hr : t.rest = u.rest) (hu : { u with pair := s.pair } = s) :
    { t with pair := s.pair }.rest = s.rest := by
  have h := congrArg (fun r : State => { r with pair := s.pair }) hr
  have e := congrArg State.rest hu
  exact h.trans e

/-- The loss of the partner is recorded; nothing else of the module changes. -/
theorem partnerLost_outcome {s v : State} (hv : { v with pair := s.pair } = s) :
    (partnerLost v).log = (raise .partnerLost .fault 0xFF 0 0 0 s).log ∧ { partnerLost v with pair := s.pair, log := s.log } = s := by
  have hlog := congrArg State.log hv
  have hmono := congrArg State.mono hv
  have hframe := congrArg (fun x : State => { x with log := s.log }) hv
  exact ⟨raise_log _ _ _ _ _ _ _ _ hlog hmono, hframe⟩

/-- A standby of a silent partner in QUERY, with the loss recorded (R242). -/
theorem standbyAsks_outcome {s v t : State} (hv : v = s ∨ v = onPair Pair.hushed s)
    (hr : t.rest = (enterQuery 2 (partnerLost v)).rest) :
    t.pair.st = .query ∧ t.pair.client.waiting = true ∧ t.pair.client.attempts = 1 ∧ t.pair.client.reason = 2 ∧
      t.pair.flags.getLsbD 0 = true ∧ t.pair.silent = v.pair.silent ∧ t.pair.silences = v.pair.silences ∧
      t.log = (raise .partnerLost .fault 0xFF 0 0 0 s).log ∧
      { t with pair := s.pair, log := s.log, sent := s.sent, ring := { t.ring with hsrSeq := s.ring.hsrSeq } }.rest = s.rest := by
  obtain ⟨hpair, hframe⟩ := enterQuery_outcome 2 (partnerLost v)
  have hlog : (enterQuery 2 (partnerLost v)).log = (partnerLost v).log := by
    have e := congrArg State.log hframe
    exact e
  have hvs : { v with pair := s.pair } = s := by
    obtain rfl | rfl := hv <;> rfl
  obtain ⟨hl, hf⟩ := partnerLost_outcome hvs
  rw [link_of_rest hr, hpair]
  refine ⟨rfl, rfl, rfl, rfl, setBit_get v.pair.flags 0 (by decide), rfl, rfl, (log_of_rest hr).trans (hlog.trans hl), rest_of_pair hr ?_⟩
  have e1 := congrArg (fun x : State =>
    { x with pair := s.pair, log := s.log, sent := s.sent, ring := { x.ring with hsrSeq := s.ring.hsrSeq } }) hframe
  have e2 := congrArg (fun x : State => { x with sent := s.sent, ring := { x.ring with hsrSeq := s.ring.hsrSeq } }) hf
  exact Eq.trans e1 e2

/-- A pennant of another pair is counted as bad, flagged, and recorded the first time (R233). -/
theorem pennantForeign_outcome (s : State) : (pennantForeign s).pair.bad = satInc 32 s.pair.bad ∧ (pennantForeign s).pair.flags.getLsbD 8 = true ∧
    (pennantForeign s).pair.foreign = true ∧ (pennantForeign s).pair.partner = s.pair.partner ∧
    (s.pair.foreign = false → (pennantForeign s).log = (raise .pairForeign .fault 0xFF 0 0 0 s).log) ∧
    (s.pair.foreign = true → (pennantForeign s).log = s.log) := by
  have hflag := setBit_get s.pair.flags 8 (by decide)
  by_cases hfor : s.pair.foreign = true
  · have he : pennantForeign s = pennantBad (onPair (fun p => { p with flags := flag 8 p.flags }) s) := if_pos hfor
    rw [he]
    exact ⟨rfl, hflag, hfor, rfl, fun h => absurd hfor (by simp [h]), fun _ => rfl⟩
  · have he : pennantForeign s = raise .pairForeign .fault 0xFF 0 0 0
        (onPair (fun p => { p with foreign := true }) (pennantBad (onPair (fun p => { p with flags := flag 8 p.flags }) s))) := if_neg hfor
    rw [he]
    exact ⟨rfl, hflag, rfl, rfl, fun _ => raise_log _ _ _ _ _ _ _ _ rfl rfl, fun h => absurd h hfor⟩

/-- A pennant of the own side is counted as bad, flagged, and recorded the first time (R233). -/
theorem pennantClash_outcome (s : State) : (pennantClash s).pair.bad = satInc 32 s.pair.bad ∧ (pennantClash s).pair.flags.getLsbD 7 = true ∧
    (pennantClash s).pair.partner = s.pair.partner ∧
    (s.pair.clash = false → (pennantClash s).log = (raise .pairSideClash .fault 0xFF 0 0 0 s).log) := by
  have hflag := setBit_get s.pair.flags 7 (by decide)
  by_cases hcl : s.pair.clash = true
  · have he : pennantClash s = pennantBad (onPair (fun p => { p with flags := flag 7 p.flags }) s) := if_pos hcl
    rw [he]
    exact ⟨rfl, hflag, rfl, fun h => absurd hcl (by simp [h])⟩
  · have he : pennantClash s = raise .pairSideClash .fault 0xFF 0 0 0
        (onPair (fun p => { p with clash := true }) (pennantBad (onPair (fun p => { p with flags := flag 7 p.flags }) s))) := if_neg hcl
    rw [he]
    exact ⟨rfl, hflag, rfl, fun _ => raise_log _ _ _ _ _ _ _ _ rfl rfl⟩

theorem start_of_rest {t u : State} (h : t.rest = u.rest) : t.start = u.start := by
  have e := congrArg State.start h
  exact e

theorem role_of_rest {t u : State} (h : t.rest = u.rest) : t.sys.role = u.sys.role := by
  have e := congrArg (fun x : State => x.sys.role) h
  exact e

/-! ### The obligation -/

/-- What the obligation says of pennants that leave (R232). -/
theorem pennantSend_outcome {s : State} (h : pairRuns s = true) :
    ∃ t, exec .pennantSend s = .next t ∧ t.pair = { s.pair with seq := s.pair.seq + 1 } ∧
      { t with pair := s.pair, sent := s.sent } = follow s ∧ t.sent = (pennantSend s).sent := by
  obtain ⟨hpair, hframe⟩ := pennantSend_frame h
  exact ⟨_, rfl, hpair, congrArg follow hframe, rfl⟩

/-- Settles O46: each step of the pair keeps the link, the role and STALE or is a side's stepping down. -/
theorem pennantsAndHandovers : Obligations.PennantsAndHandovers := by
  unfold Obligations.PennantsAndHandovers
  intro s
  refine ⟨fun hp => ?sends, fun l hd => ?receives, fun he => ?early, fun hp he hs hi => ⟨fun hst => ?active, fun c hst hc => ?releasing, fun hst hm ha => ?standby⟩,
    fun hp he hs hst hl hm ha => ?again, fun hh hside => ?allowed, fun hh hside => ?refused, fun hside => ?other, fun c hst hc hk hack => ⟨fun he => ?waits, fun he => ?fails⟩⟩
  case sends =>
    obtain ⟨t, hx, hpair, hframe, hsent⟩ := pennantSend_outcome hp
    refine ⟨t, hx, hpair, hframe, fun c hc hv => hsent.trans ?_, fun hc hr => hsent.trans ?_⟩
    · rw [pennantSend_command hp hc hv, sendPennant_eq]
    · rw [pennantSend_plain hp hc hr, sendPennant_eq]
  case receives =>
    obtain ⟨t, hx, hr⟩ := answer_settled s (pennantReceived l s)
    have hx : exec (.pennantReceived l) s = .next t := hx
    have hpair := link_of_rest hr
    have hlog := log_of_rest hr
    refine ⟨fun hbad => ⟨t, hx, ?_⟩, fun ⟨hok, hlen⟩ hid => ⟨t, hx, ?_⟩, fun ⟨hok, hlen⟩ hid hside => ⟨t, hx, ?_⟩,
      fun ⟨hok, hlen⟩ hid hne hside hdis hf => ⟨t, hx, ?_⟩, fun ⟨hok, hlen⟩ hid hne hside hdis hf => ⟨t, hx, ?_⟩⟩
    · rw [pennantReceived_bad hd hbad] at hr hpair
      exact ⟨hpair, rest_of_pairAlone hr rfl⟩
    · rw [pennantReceived_foreign hd hok hlen hid] at hpair hlog
      rw [hpair, hlog]
      exact pennantForeign_outcome s
    · rw [pennantReceived_clash hd hok hlen hid hside] at hpair hlog
      have hp : t.pair = (pennantClash s).pair := hpair.trans (keeps_ite State.pair rfl rfl)
      have hl : t.log = (pennantClash s).log := hlog.trans (keeps_ite State.log rfl rfl)
      rw [hp, hl]
      exact pennantClash_outcome s
    · rw [pennantReceived_fresh hd hok hlen hid hne hside hf, hdis, if_pos rfl] at hr hpair hlog
      obtain ⟨hrole, hlink, hl, hstart⟩ := pennantHeard_outcome (readPennant l) s
      have ht := (start_of_rest hr).trans hstart
      have hlk := (congrArg Pair.link hpair).trans hlink
      refine ⟨congrArg Link.partner hlk, congrArg Link.partnerAt hlk, congrArg Link.rx hlk, (role_of_rest hr).trans hrole, hlog.trans hl, fun hph => ?_, fun hph => ?_⟩
      · rw [ht, Start.hears, hph]
        rfl
      · rw [ht, Start.hears, hph]
        rfl
    · rw [pennantReceived_fresh hd hok hlen hid hne hside hf, hdis, if_neg Bool.false_ne_true] at hr hpair
      obtain ⟨hlink, hdown⟩ := pennantAccepted_outcome (readPennant l) s
      have hlk := (congrArg Pair.link hpair).trans hlink
      refine ⟨congrArg Link.partner hlk, congrArg Link.partnerAt hlk, congrArg Link.silent hlk, congrArg Link.rx hlk, congrArg Link.bad hlk,
        fun hrole hlt => ?_⟩
      obtain ⟨hr1, hs1, he1⟩ := hdown hrole hlt
      exact ⟨(role_of_rest hr).trans hr1, (stale_of_rest hr).trans hs1, hpair ▸ he1⟩
  case early =>
    show execPartnerSilent s = _
    rw [execPartnerSilent, if_neg (show ¬ s.pair.partnerAt + silentNs ≤ s.mono from Nat.not_le.2 he)]
    rfl
  case active =>
    obtain ⟨t, hx, hr⟩ := answer_settled s (partnerSilent s)
    refine ⟨t, (congrArg answer (if_pos he)).trans hx, ?_⟩
    rw [partnerSilent_first hp hs hi, hst] at hr
    obtain ⟨hlog, hframe⟩ := partnerLost_outcome (s := s) (v := onPair Pair.hushed s) rfl
    rw [link_of_rest hr, log_of_rest hr]
    exact ⟨rfl, rfl, setBit_get s.pair.flags 0 (by decide), hst, hlog, rest_of_pairLog hr hframe⟩
  case releasing =>
    obtain ⟨t, hx, hr⟩ := answer_settled s (partnerSilent s)
    refine ⟨t, (congrArg answer (if_pos he)).trans hx, ?_⟩
    rw [partnerSilent_first hp hs hi, hst] at hr
    obtain ⟨hlog, hframe⟩ := partnerLost_outcome (s := s)
      (v := onPair (fun p => { p with cmd := p.cmd.map fun c => { c with void := c.void || !c.acked } }) (onPair Pair.hushed s)) rfl
    rw [link_of_rest hr, log_of_rest hr]
    exact ⟨rfl, hst, congrArg (Option.map _) hc, hlog, rest_of_pairLog hr hframe⟩
  case standby =>
    obtain ⟨t, hx, hr⟩ := answer_settled s (partnerSilent s)
    rw [partnerSilent_first hp hs hi, hst] at hr
    have hr : t.rest = (standbySilent (onPair Pair.hushed s)).rest := hr
    rw [standbySilent_asks (s := onPair Pair.hushed s) hm ha] at hr
    obtain ⟨hq, hw, hat, hre, hfl, hsil, -, hlog, hrest⟩ := standbyAsks_outcome (.inr rfl) hr
    exact ⟨t, (congrArg answer (if_pos he)).trans hx, hsil, hfl, hq, hw, hat, hre, hlog, hrest⟩
  case again =>
    obtain ⟨t, hx, hr⟩ := answer_settled s (partnerSilent s)
    rw [partnerSilent_again hp hs hst hl ha, standbySilent_asks hm ha] at hr
    obtain ⟨hq, hw, -, hre, hfl, -, hsil, hlog, hrest⟩ := standbyAsks_outcome (.inl rfl) hr
    exact ⟨t, (congrArg answer (if_pos he)).trans hx, hq, hw, hre, hsil, hfl, hlog, hrest⟩
  case allowed =>
    have hx : exec .handoverRequest s = answer (startCommand 3 0 (s.pair.epoch + 1) 2000000
        (onPair (fun p => { p with st := .releasing, handoverFailed := false }) s)) := by
      show answer (handoverRequest s) = _
      rw [handoverRequest, if_neg (by simp [hside]), if_pos hh]
    exact ⟨_, _, hx, rfl, rfl, rfl, rfl, rfl, rfl, rfl, rfl, rfl⟩
  case refused =>
    have hx : exec .handoverRequest s = answer (raise .handoverRefused .notice 0xFF 0 0 0
        (onPair (fun p => { p with flags := flag 6 p.flags, handoverFailed := true }) s)) := by
      show answer (handoverRequest s) = _
      rw [handoverRequest, if_neg (by simp [hside]), if_neg (by simp [hh])]
    exact ⟨_, hx, setBit_get s.pair.flags 6 (by decide), rfl, rfl, raise_log _ _ _ _ _ _ _ _ rfl rfl, follow_of_pair rfl⟩
  case other =>
    show answer (handoverRequest s) = _
    rw [handoverRequest, if_pos (by simp [hside])]
    rfl
  case waits =>
    show answer (handoverTimeout s) = _
    rw [handoverTimeout, if_neg (by simp [hst, hc, hk, hack, nsPerMs, Nat.not_le.2 he])]
    rfl
  case fails =>
    have hx : exec .handoverTimeout s = answer (raise .handoverFailed .notice 0xFF 0 0 0
        (onPair (fun p => { p with st := .active, cmd := none, flags := flag 5 p.flags, handoverFailed := true }) s)) := by
      show answer (handoverTimeout s) = _
      rw [handoverTimeout, if_pos (by simp [hst, hc, hk, hack, nsPerMs, he])]
    exact ⟨_, hx, rfl, rfl, setBit_get s.pair.flags 5 (by decide), raise_log _ _ _ _ _ _ _ _ rfl rfl, follow_of_pair rfl⟩

end Sys2Proof.Machine
end

section
/-! PROOFS. A probe of the Jack in harbour watch (03_supplies_and_harbour_watch.md R81, 09_pair_and_takeover.md R241). -/

namespace Sys2Proof.Machine

/-- A side of pair 0x51 asleep in harbour watch, whose mode still reads RUN. -/
def asleepSide : State :=
  { State.reset with
    sys := { State.reset.sys with mode := .run }
    start := { State.reset.start with phase := .idle, accepted := true, header := some { noHeader with kind := 1, pairId := 0x51 } }
    pair := { State.reset.pair with side := 1 }
    cyc := { State.reset.cyc with configError := false }
    pwr := { State.reset.pwr with railsOff := false, hbr := .asleep } }

/-- A probe of the Jack for that side. -/
def probeOfSide : List Byte := jackBytes { typ := 0x43, pairId := 0x51, side := 1, arg := 0, num := 4, epoch := 3 }

theorem probeOfSide_forMe : jackForMe 0x43 probeOfSide asleepSide = true := by decide +kernel

theorem asleepSide_silent : answersProbes asleepSide = false := by decide

/-- Refutes O47: the logic rails are off while harbour watch is asleep (R81), whatever the mode reads, so that side answers no probe; the
statement asks it to, for every side in RUN or STOP with a key that is not powered down. -/
theorem not_aSideAsksTheJack : ¬ Obligations.ASideAsksTheJack := by
  unfold Obligations.ASideAsksTheJack
  intro h
  obtain ⟨-, -, -, -, hprobe, -⟩ := h asleepSide rfl
  obtain ⟨hanswers, -⟩ := hprobe { port := 4, src := 0x99, hsr := none } probeOfSide probeOfSide_forMe rfl
  have hyes := hanswers rfl (.inl rfl) rfl
  rw [asleepSide_silent] at hyes
  exact Bool.false_ne_true hyes

end Sys2Proof.Machine
end

section
/-! PROOFS. The Jack: queries, probes, grants and notifies (09_pair_and_takeover.md R238 to R241). -/

namespace Sys2Proof.Machine

/-! ### The Jack's records -/

theorem jackAt_onJack_ne {i j : Nat} (h : j ≠ i) (f : JackRec → JackRec) (s : State) : jackAt (onJack i f s) j = jackAt s j := by
  show (s.pair.jack.modify i f).getD j _ = s.pair.jack.getD j _
  simp [List.getD_eq_getElem?_getD, h.symm]

theorem jackAt_onJack {i : Nat} {s : State} (hi : i < s.pair.jack.length) (f : JackRec → JackRec) : jackAt (onJack i f s) i = f (jackAt s i) := by
  show (s.pair.jack.modify i f).getD i _ = f (s.pair.jack.getD i _)
  simp [List.getD_eq_getElem?_getD, hi]

theorem lt_of_jackIndex {s : State} {p i : Nat} (h : jackIndex s p = some i) : i < s.pair.jack.length := by
  obtain ⟨hi, -⟩ := List.findIdx?_eq_some_iff_getElem.1 h
  exact hi

/-- A record that is busy is one of the served list. -/
theorem lt_of_busy {s : State} {i : Nat} (h : (jackAt s i).busy = true) : i < s.pair.jack.length := by
  by_contra hi
  have hd : jackAt s i = { pairId := 0 } := List.getD_eq_default _ _ (Nat.not_lt.1 hi)
  rw [hd] at h
  exact Bool.false_ne_true h

/-! ### What leaves -/

/-- The state with the pair changed and one Jack frame gone out. -/
def jackDone (p : Pair) (k : SentKind) (unit num dest : Nat) (body : List Byte) (s : State) : State :=
  { s with pair := p, sent := jackFrames k unit num dest body s ++ s.sent, ring := jackRingAfter s }

theorem jackSend_done (k : SentKind) (unit num dest : Nat) (body : List Byte) (s : State) :
    jackSend k unit num dest body s = jackDone s.pair k unit num dest body s := jackSend_eq k unit num dest body s

/-- The pair may change before the frame leaves, where its paths stay. -/
theorem jackSend_onJack (i : Nat) (f : JackRec → JackRec) (k : SentKind) (unit num dest : Nat) (body : List Byte) (s : State) :
    jackSend k unit num dest body (onJack i f s) = jackDone (onJack i f s).pair k unit num dest body s := by
  rw [jackSend_eq]
  rfl

/-- What follows when the Jack's records change and one frame leaves. -/
theorem follow_jackDone (p : Pair) (k : SentKind) (unit num dest : Nat) (body : List Byte) (s : State) :
    { follow (jackDone p k unit num dest body s) with
      pair := s.pair, sent := s.sent, ring := { (follow (jackDone p k unit num dest body s)).ring with hsrSeq := s.ring.hsrSeq } } = follow s := by
  have e := congrArg (fun r : Ring => follow { s with ring := r }) (jackRingAfter_frame s)
  exact e

/-- What a command that changes one record and sends one frame answers. -/
theorem jackDone_outcome {s : State} {i : Nat} (hi : i < s.pair.jack.length) (f : JackRec → JackRec) (k : SentKind) (unit num dest : Nat)
    (body : List Byte) : ∃ t, answer (jackDone (onJack i f s).pair k unit num dest body s) = .next t ∧ jackAt t i = f (jackAt s i) ∧
      (∀ j, j ≠ i → jackAt t j = jackAt s j) ∧ jackFrames k unit num dest body s ++ s.sent = t.sent ∧
      { t with pair := s.pair, sent := s.sent, ring := { t.ring with hsrSeq := s.ring.hsrSeq } } = follow s :=
  ⟨_, rfl, jackAt_onJack hi f, fun _ hj => jackAt_onJack_ne hj f s, rfl, follow_jackDone _ _ _ _ _ _ s⟩

/-! ### The Jack's service (R239, R240) -/

/-- The record of a pair whose other side is probed (R239). -/
def JackRec.probing (f : JackFrame) (no a : Nat) (r : JackRec) : JackRec :=
  { r with busy := true, querier := f.side, queryNo := f.num, known := f.epoch, probeNo := no, replyTo := a }

section
variable {s : State} {l : List Byte} (hs : jackServes s = true) (hlen : fld l 2 2 = 24)
include hs hlen

section
variable (hok : frameOk 0x41 l = true) (hside : (readJack l).side = 1 ∨ (readJack l).side = 2) (a : Nat)
include hok hside

theorem jackQuery_served : (jackServes s && jackFrameOk 0x41 l && ((readJack l).side == 1 || (readJack l).side == 2)) = true := by
  simp [hs, jackFrameOk, hok, hlen, hside]

/-- An answer to the query of a frame leaves and nothing else of the Jack changes. -/
theorem jackQuery_unknown (h : jackIndex s (readJack l).pairId = none) :
    jackQuery a l s = sendAnswer a (readJack l).pairId (readJack l).side 4 (readJack l).num 0 s := by
  unfold jackQuery
  rw [if_pos (jackQuery_served hs hlen hok hside), h]

variable {i : Nat} (hi : jackIndex s (readJack l).pairId = some i)
include hi

theorem jackQuery_spent (h : 0xFFFFFFFE ≤ (jackAt s i).epoch) :
    jackQuery a l s = sendAnswer a (readJack l).pairId (readJack l).side 4 (readJack l).num 0 s := by
  unfold jackQuery
  rw [if_pos (jackQuery_served hs hlen hok hside), hi]
  exact if_pos h

variable (he : (jackAt s i).epoch < 0xFFFFFFFE)
include he

theorem jackQuery_busy (hb : (jackAt s i).busy = true) :
    jackQuery a l s = sendAnswer a (readJack l).pairId (readJack l).side 3 (readJack l).num 0 s := by
  unfold jackQuery
  rw [if_pos (jackQuery_served hs hlen hok hside), hi]
  dsimp only
  rw [if_neg (Nat.not_le.2 he), if_pos hb]

variable (hb : (jackAt s i).busy = false)
include hb

theorem jackQuery_granted {g : Nat} (ho : (jackAt s i).owner = 3 - (readJack l).side) (hg : (jackAt s i).granted = some g)
    (hr : s.mono < g + 10000000) :
    jackQuery a l s = sendAnswer a (readJack l).pairId (readJack l).side 2 (readJack l).num (jackAt s i).epoch s := by
  have hyes : ((jackAt s i).owner == otherSide (readJack l).side && (jackAt s i).granted.any fun t => decide (s.mono < t + 10000000)) = true := by
    rw [ho, hg, Option.any_some, Bool.and_eq_true, decide_eq_true_eq]
    exact ⟨beq_self_eq_true _, hr⟩
  unfold jackQuery
  rw [if_pos (jackQuery_served hs hlen hok hside), hi]
  dsimp only
  rw [if_neg (Nat.not_le.2 he), if_neg (by simp [hb]), if_pos hyes]

theorem jackQuery_probes (ho : (jackAt s i).owner ≠ 3 - (readJack l).side ∨ (jackAt s i).granted = none) :
    jackQuery a l s = jackDone (onJack i (JackRec.probing (readJack l) (((jackAt s i).probeNo + 1) % 65536) a) s).pair .jackProbe 0
      (((jackAt s i).probeNo + 1) % 65536) 0x01524D000011
      (jackBytes { typ := 0x43, pairId := (readJack l).pairId, side := 3 - (readJack l).side, arg := 0
                   num := ((jackAt s i).probeNo + 1) % 65536, epoch := (jackAt s i).epoch }) s := by
  have hng : ¬ ((jackAt s i).owner == otherSide (readJack l).side && (jackAt s i).granted.any fun t => decide (s.mono < t + 10000000)) = true := by
    obtain h | h := ho
    · simp [otherSide, h]
    · simp [h]
  unfold jackQuery
  rw [if_pos (jackQuery_served hs hlen hok hside), hi]
  dsimp only
  rw [if_neg (Nat.not_le.2 he), if_neg (by simp [hb]), if_neg hng, jackSend_done]
  rfl

end

/-- The record of a pair taken over by an ACTIVE reply or notify (R239). -/
def JackRec.told (f : JackFrame) (r : JackRec) : JackRec := { r with epoch := f.epoch, owner := f.side, busy := false }

/-- The record of a pair that is granted (R239). -/
def JackRec.granting (e now : Nat) (r : JackRec) : JackRec :=
  { r with epoch := e, owner := r.querier, granted := some now, busy := false, grants := satInc 16 r.grants }

/-- The epoch that the Jack grants for a pair: above its record, the querier's and the replier's. -/
def grantEpoch (r : JackRec) (replied : Nat) : Nat := max (max r.epoch r.known) replied + 1

omit hs hlen in
theorem jackGrants_eq (i replied : Nat) : jackGrants i replied s =
    jackDone (onJack i (JackRec.granting (grantEpoch (jackAt s i) replied) s.mono) s).pair .jackAnswer (jackAt s i).replyTo (jackAt s i).queryNo
      (jackAt s i).replyTo
      (jackBytes { typ := 0x42, pairId := (jackAt s i).pairId, side := (jackAt s i).querier, arg := 1, num := (jackAt s i).queryNo
                   epoch := grantEpoch (jackAt s i) replied }) s :=
  jackSend_onJack i _ _ _ _ _ _ s

section
variable (hok : frameOk 0x44 l = true) {i : Nat} (hi : jackIndex s (readJack l).pairId = some i) (hb : (jackAt s i).busy = true)
  (hside : (readJack l).side = 3 - (jackAt s i).querier) (hnum : (readJack l).num = (jackAt s i).probeNo)
include hok hi hb hside hnum

/-- A reply to the Jack's probe takes the pair over or has it granted. -/
theorem jackProbeReply_eq : jackProbeReply l s =
    if (readJack l).arg = Role.active.code ∧ (jackAt s i).epoch ≤ (readJack l).epoch then
      jackDone (onJack i (JackRec.told (readJack l)) s).pair .jackAnswer (jackAt s i).replyTo (jackAt s i).queryNo (jackAt s i).replyTo
        (jackBytes { typ := 0x42, pairId := (jackAt s i).pairId, side := (jackAt s i).querier, arg := 2, num := (jackAt s i).queryNo
                     epoch := (readJack l).epoch }) s
    else jackGrants i (readJack l).epoch s := by
  have hf : ((jackAt s i).busy && (readJack l).side == otherSide (jackAt s i).querier && (readJack l).num == (jackAt s i).probeNo) = true := by
    simp [hb, hside, hnum, otherSide]
  unfold jackProbeReply
  rw [if_pos (by simp [hs, jackFrameOk, hok, hlen]), hi]
  dsimp only
  rw [if_pos hf, sendAnswer, jackSend_onJack]
  rfl

end

/-- The record of a pair that a notify updates (R239). -/
def JackRec.notified (f : JackFrame) (r : JackRec) : JackRec :=
  let r := if f.arg = Role.active.code ∧ r.epoch ≤ f.epoch then { r with epoch := f.epoch, owner := f.side } else r
  if f.side = 1 then { r with seenA := true } else { r with seenB := true }

/-- A notify updates the record of its pair and is acknowledged. -/
theorem jackNotify_eq (hok : frameOk 0x45 l = true) (hside : (readJack l).side = 1 ∨ (readJack l).side = 2) (a : Nat) {i : Nat}
    (hi : jackIndex s (readJack l).pairId = some i) : jackNotify a l s =
    jackDone (onJack i (JackRec.notified (readJack l)) s).pair .jackAck a (readJack l).num a
      (jackBytes { typ := 0x46, pairId := (readJack l).pairId, side := (readJack l).side, arg := 0, num := (readJack l).num
                   epoch := (jackAt (onJack i (JackRec.notified (readJack l)) s) i).epoch }) s := by
  unfold jackNotify
  rw [if_pos (by simp [hs, jackFrameOk, hok, hlen, hside]), hi]
  exact jackSend_onJack i _ _ _ _ _ _ s

end

/-- A notify never lowers the record's epoch, and an ACTIVE one of no lower epoch gives its own (R239). -/
theorem notified_epoch (f : JackFrame) (r : JackRec) : r.epoch ≤ (r.notified f).epoch ∧
    (f.arg = 2 → r.epoch ≤ f.epoch → (r.notified f).epoch = f.epoch ∧ (r.notified f).owner = f.side) := by
  have hseen : ∀ q : JackRec, (if f.side = 1 then { q with seenA := true } else { q with seenB := true }).epoch = q.epoch ∧
      (if f.side = 1 then { q with seenA := true } else { q with seenB := true }).owner = q.owner := by
    intro q
    split
    · exact ⟨rfl, rfl⟩
    · exact ⟨rfl, rfl⟩
  unfold JackRec.notified
  dsimp only
  rw [(hseen _).1, (hseen _).2]
  split
  · next h => exact ⟨h.2, fun _ _ => ⟨rfl, rfl⟩⟩
  · next h => exact ⟨Nat.le_refl _, fun ha he => absurd ⟨ha, he⟩ h⟩

theorem notified_seen (f : JackFrame) (r : JackRec) (h : f.side = 1 ∨ f.side = 2) :
    (f.side = 1 → (r.notified f).seenA = true) ∧ (f.side = 2 → (r.notified f).seenB = true) := by
  unfold JackRec.notified
  dsimp only
  obtain h | h := h <;> rw [h]
  · exact ⟨fun _ => rfl, fun e => absurd e (by decide)⟩
  · exact ⟨fun e => absurd e (by decide), fun _ => rfl⟩

/-! ### The obligation -/

theorem jackTakes_port4 {x : Rx} (hx : x.port = 4) {b : Bool} (hb : b = true) (f : State → State) (s : State) : jackTakes x b f s = f s := by
  rw [jackTakes, if_neg (by simp [hb]), if_pos hx]

theorem frameOk_jack {typ : Nat} {l : List Byte} (hok : frameOk typ l = true) (hlen : fld l 2 2 = 24) : jackFrameOk typ l = true := by
  simp [jackFrameOk, hok, hlen]

/-- Settles O48: every command of the Jack changes one record and sends one frame. -/
theorem theJackGrantsOnce : Obligations.TheJackGrantsOnce := by
  unfold Obligations.TheJackGrantsOnce
  intro s frames onlyJack
  refine ⟨fun hs => ⟨fun x l hx hok hlen hside => ?query, fun x l i hx hok hlen hi hb hside hnum => ?reply, fun i hb => ?timeout,
    fun x l i hx hok hlen hside hi => ?notify⟩, fun he => ?reachable, fun he => ?expires, fun i side hi => ?unseen⟩
  case query =>
    have htakes : exec (.jackQuery x l) s = answer (jackQuery x.src l s) :=
      congrArg answer (jackTakes_port4 hx (frameOk_jack hok hlen) _ s)
    have hanswers : ∀ verdict e, jackQuery x.src l s = sendAnswer x.src (readJack l).pairId (readJack l).side verdict (readJack l).num e s →
        ∃ t, exec (.jackQuery x l) s = .next t ∧ frames t .jackAnswer x.src (readJack l).num x.src
          { typ := 0x42, pairId := (readJack l).pairId, side := (readJack l).side, arg := verdict, num := (readJack l).num, epoch := e } ∧
          t.pair = s.pair ∧ onlyJack t := by
      intro verdict e h
      rw [htakes, h, sendAnswer, jackSend_done]
      exact ⟨_, rfl, rfl, rfl, follow_jackDone _ _ _ _ _ _ s⟩
    refine ⟨fun hn => hanswers 4 0 (jackQuery_unknown hs hlen hok hside _ hn), fun i hi => ⟨fun he => ?_, fun he hb => ?_, fun g he hb ho hg hr => ?_,
      fun he hb ho => ?_⟩⟩
    · exact hanswers 4 0 (jackQuery_spent hs hlen hok hside _ hi he)
    · exact hanswers 3 0 (jackQuery_busy hs hlen hok hside _ hi he hb)
    · exact hanswers 2 _ (jackQuery_granted hs hlen hok hside _ hi he hb ho hg hr)
    · rw [htakes, jackQuery_probes hs hlen hok hside _ hi he hb ho]
      obtain ⟨t, hx, hat, hothers, hsent, hframe⟩ := jackDone_outcome (lt_of_jackIndex hi)
        (JackRec.probing (readJack l) (((jackAt s i).probeNo + 1) % 65536) x.src) .jackProbe 0 (((jackAt s i).probeNo + 1) % 65536) 0x01524D000011
        (jackBytes { typ := 0x43, pairId := (readJack l).pairId, side := 3 - (readJack l).side, arg := 0
                     num := ((jackAt s i).probeNo + 1) % 65536, epoch := (jackAt s i).epoch })
      refine ⟨t, hx, ?_⟩
      rw [hat]
      exact ⟨rfl, rfl, rfl, rfl, hsent, hothers, hframe⟩
  case reply =>
    have htakes : exec (.jackProbeReply x l) s = answer (jackProbeReply l s) :=
      congrArg answer (jackTakes_port4 hx (frameOk_jack hok hlen) _ s)
    rw [htakes, jackProbeReply_eq hs hlen hok hi hb hside hnum]
    split
    · next h =>
      obtain ⟨t, hx, hat, hothers, hsent, hframe⟩ := jackDone_outcome (lt_of_jackIndex hi) (JackRec.told (readJack l)) .jackAnswer
        (jackAt s i).replyTo (jackAt s i).queryNo (jackAt s i).replyTo
        (jackBytes { typ := 0x42, pairId := (jackAt s i).pairId, side := (jackAt s i).querier, arg := 2, num := (jackAt s i).queryNo
                     epoch := (readJack l).epoch })
      refine ⟨t, hx, ?_⟩
      rw [hat]
      exact ⟨rfl, hothers, hframe, h.2, fun _ _ => ⟨rfl, rfl, rfl, hsent⟩, fun ha => absurd h.1 ha⟩
    · next h =>
      have hle : (jackAt s i).epoch ≤ grantEpoch (jackAt s i) (readJack l).epoch :=
        Nat.le_succ_of_le (Nat.le_trans (Nat.le_max_left _ _) (Nat.le_max_left _ _))
      rw [jackGrants_eq]
      obtain ⟨t, hx, hat, hothers, hsent, hframe⟩ := jackDone_outcome (lt_of_jackIndex hi)
        (JackRec.granting (grantEpoch (jackAt s i) (readJack l).epoch) s.mono) .jackAnswer (jackAt s i).replyTo (jackAt s i).queryNo
        (jackAt s i).replyTo
        (jackBytes { typ := 0x42, pairId := (jackAt s i).pairId, side := (jackAt s i).querier, arg := 1, num := (jackAt s i).queryNo
                     epoch := grantEpoch (jackAt s i) (readJack l).epoch })
      refine ⟨t, hx, ?_⟩
      rw [hat]
      exact ⟨rfl, hothers, hframe, hle, fun ha he => absurd ⟨ha, he⟩ h, fun _ => ⟨rfl, rfl, rfl, rfl, hsent⟩⟩
  case timeout =>
    have hx : exec (.jackProbeTimeout i) s = answer (jackGrants i 0 s) := congrArg answer (if_pos (by simp [hs, hb]))
    have hep : grantEpoch (jackAt s i) 0 = max (jackAt s i).epoch (jackAt s i).known + 1 := by simp [grantEpoch]
    rw [hx, jackGrants_eq]
    obtain ⟨t, hx, hat, hothers, -, hframe⟩ := jackDone_outcome (lt_of_busy hb)
      (JackRec.granting (grantEpoch (jackAt s i) 0) s.mono) .jackAnswer (jackAt s i).replyTo (jackAt s i).queryNo (jackAt s i).replyTo
      (jackBytes { typ := 0x42, pairId := (jackAt s i).pairId, side := (jackAt s i).querier, arg := 1, num := (jackAt s i).queryNo
                   epoch := grantEpoch (jackAt s i) 0 })
    refine ⟨t, hx, ?_⟩
    rw [hat]
    exact ⟨rfl, rfl, hep, rfl, hothers, hframe⟩
  case notify =>
    have htakes : exec (.jackNotify x l) s = answer (jackNotify x.src l s) :=
      congrArg answer (jackTakes_port4 hx (frameOk_jack hok hlen) _ s)
    have hon := jackAt_onJack (lt_of_jackIndex hi) (JackRec.notified (readJack l))
    obtain ⟨hle, htold⟩ := notified_epoch (readJack l) (jackAt s i)
    obtain ⟨hA, hB⟩ := notified_seen (readJack l) (jackAt s i) hside
    rw [htakes, jackNotify_eq hs hlen hok hside _ hi, hon]
    obtain ⟨t, hx, hat, hothers, hsent, hframe⟩ := jackDone_outcome (lt_of_jackIndex hi) (JackRec.notified (readJack l)) .jackAck
      x.src (readJack l).num x.src
      (jackBytes { typ := 0x46, pairId := (readJack l).pairId, side := (readJack l).side, arg := 0, num := (readJack l).num
                   epoch := ((jackAt s i).notified (readJack l)).epoch })
    refine ⟨t, hx, ?_⟩
    rw [hat]
    exact ⟨hle, hA, hB, htold, hsent, hothers, hframe⟩
  case reachable =>
    have hx : exec (.jackReachableExpiry none) s = execJackReachableExpiry none s := rfl
    rw [hx, execJackReachableExpiry]
    dsimp only
    rw [if_neg (Nat.not_le.2 he)]
    rfl
  case expires =>
    have hx : exec (.jackReachableExpiry none) s = execJackReachableExpiry none s := rfl
    rw [hx, execJackReachableExpiry]
    dsimp only
    rw [if_pos he]
    exact ⟨_, rfl, rfl, rfl, rfl⟩
  case unseen =>
    have hat := jackAt_onJack hi (fun r => if side = 1 then { r with seenA := false } else { r with seenB := false })
    exact ⟨_, rfl, hat, fun j hj => jackAt_onJack_ne hj _ s, rfl⟩

end Sys2Proof.Machine
end

section
/-! PROOFS. A write point where an index names two entries (05_program_cycle.md R128, 07_signal_table.md R190). -/

namespace Sys2Proof.Machine

/-- A signal table whose index 1 stands twice: an entry that programs write, and the item of digital group 0. -/
def doubledTable : Sig :=
  { State.reset.sig with entries := [(1, { kind := 7, recTyp := 8 }), (1, { kind := 2, ref := 0x200 })] }

/-- A task in its cycle that assigns 7 to index 1, while the cause of group 0's COMMON_FAULT stands unmarked. -/
def doubledSlot : State :=
  { State.reset with
    sig := doubledTable
    cyc := { State.reset.cyc with tasks := [{ cycleAt := some 0, started := true, slots := [(1, (7, 0x80))] }] }
    pwr := { State.reset.pwr with groups := [{ st := .low }] } }

def doubledWrite : WritePoint := { task := 0, slots := [], stores := [], keyOk := true }

/-- The item of the group, marked with the write point, is what the first entry of the index holds after it. -/
theorem doubledSlot_value : ∀ t, exec (.taskWritePoint doubledWrite) doubledSlot = .next t → (sigEntry t 1).value = 3 := by
  intro t h
  have hx : answer (settle doubledSlot (taskWritePoint doubledWrite doubledSlot)) = .next t := h
  cases hx
  decide +kernel

/-- Refutes O49: the statement gives the entry of an index the value that was posted, in every state; where the table holds an index twice
(it is kept in strictly rising key order, which the statement does not ask for), the second entry's source item overwrites it. -/
theorem not_cyclesAreReleasedFrozenAndPosted : ¬ Obligations.CyclesAreReleasedFrozenAndPosted := by
  unfold Obligations.CyclesAreReleasedFrozenAndPosted
  intro h
  obtain ⟨-, -, -, -, hwrite, -⟩ := h doubledSlot
  obtain ⟨-, hposts⟩ := hwrite doubledWrite 0 rfl rfl rfl (by decide) (by decide)
  obtain ⟨t, hx, -, -, -, -, -, hvalue, -⟩ := hposts (by decide)
  have hposted : (sigEntry t 1).value = 7 := hvalue (1, (7, 0x80)) (List.mem_singleton.2 rfl) (List.nodup_singleton 1) rfl rfl rfl
  rw [doubledSlot_value t hx] at hposted
  exact absurd hposted (by decide)

end Sys2Proof.Machine
end

section
/-! PROOFS. A request for HOLD that is let go while a forced item changes (05_program_cycle.md R135, R143). -/

namespace Sys2Proof.Machine

/-- A module that may not enter HOLD, with a request for it whose instant has come; the item of digital group 0 is forced, and the cause of
the group's COMMON_FAULT stands unmarked. -/
def forcedItem : State :=
  { State.reset with
    sig := { State.reset.sig with entries := [(1, { kind := 2, ref := 0x200, forced := true })] }
    cyc := { State.reset.cyc with
      pendingReq := some { code := 3, sdk := true, byPair := false, due := 0 }, forces := [(1, { value := 7, aside := (2, 0x80) })] }
    pwr := { State.reset.pwr with groups := [{ st := .low }] } }

/-- The item's new value is set aside with the change of mode. -/
theorem forcedItem_aside : ∀ t, exec .modeChange forcedItem = .next t → (t.cyc.forces.map fun f => f.2.aside.1) = [3] := by
  intro t h
  have hx : answer (settle forcedItem (modeChange forcedItem.mono forcedItem)) = .next t := h
  cases hx
  decide +kernel

/-- Refutes O50: the statement keeps all of the program cycle's state but the request where HOLD may not be entered, also the values that
forces have set aside; an item that changes with the command is written to them (R143). -/
theorem not_modesAndHalts : ¬ Obligations.ModesAndHalts := by
  unfold Obligations.ModesAndHalts
  intro h
  obtain ⟨-, -, -, hdue, -⟩ := h forcedItem
  obtain ⟨-, -, hgo⟩ := hdue { code := 3, sdk := true, byPair := false, due := 0 } rfl rfl rfl rfl (Nat.le_refl 0)
  obtain ⟨t, hx, -, hcyc⟩ := hgo rfl (by decide)
  have haside := forcedItem_aside t hx
  rw [hcyc] at haside
  exact absurd haside (by decide)

end Sys2Proof.Machine
end

section
/-! PROOFS. A force of an index that names two entries (05_program_cycle.md R143). -/

namespace Sys2Proof.Machine

/-- A force of index 1 whose boundary has come. The index stands twice in the table: an entry that programs write, and the item of digital
group 0, the cause of whose COMMON_FAULT stands unmarked. -/
def doubledForce : State :=
  { State.reset with
    sig := { State.reset.sig with entries := [(1, { kind := 7, recTyp := 8 }), (1, { kind := 2, ref := 0x200 })] }
    cyc := { State.reset.cyc with forceOps := [(0, .put 1 7)] }
    pwr := { State.reset.pwr with groups := [{ st := .low }] } }

/-- The item's new value is set aside at once. -/
theorem doubledForce_aside : ∀ t, exec .forceEffect doubledForce = .next t → (t.cyc.forces.map fun f => f.2.aside.1) = [3] := by
  intro t h
  have hx : answer (settle doubledForce (forceEffect doubledForce)) = .next t := h
  cases hx
  decide +kernel

/-- The one force of a table, as its lookup tells it. -/
theorem aside_of_look {l : List (Nat × Force)} {a : Datum} {f : Force} (hl : (l.map fun f => f.2.aside.1) = [a]) (hf : look 1 l = some f) :
    f.aside.1 = a := by
  obtain ⟨⟨k, g⟩, rfl, hg⟩ := List.map_eq_singleton_iff.1 hl
  simp only [look] at hf
  split at hf
  · cases hf
    exact hg
  · cases hf

/-- Refutes O51: the statement leaves aside what the entry of the index held, in every state; where the table holds an index twice (it is
kept in strictly rising key order, which the statement does not ask for), the second entry's source item is set aside instead. -/
theorem not_forcesAndNativeCalls : ¬ Obligations.ForcesAndNativeCalls := by
  unfold Obligations.ForcesAndNativeCalls
  intro h
  obtain ⟨-, -, -, -, -, hput, -⟩ := h doubledForce
  obtain ⟨t, hx, -, -, -, -, -, -, haside, -⟩ := hput 0 1 7 rfl (Nat.le_refl 0) rfl (by decide) rfl
  have hheld := aside_of_look (doubledForce_aside t hx) (haside rfl)
  exact absurd hheld (by decide)

end Sys2Proof.Machine
end

section
/-! PROOFS. An activation that fails while a switch is commanded (06_online_change.md R168, R177). -/

namespace Sys2Proof.Machine

/-- A staged change whose set cannot be read, with the command of a switch in progress. -/
def stagedUnread : State :=
  { State.reset with
    olc := { State.reset.olc with phase := .staged }
    pair := { State.reset.pair with cmd := some { kind := 2, arg := 0, seq := 1, due := 0, newEpoch := 0, acked := false, asked := 0 } } }

/-- The failed activation ends the command. -/
theorem stagedUnread_command : ∀ t, exec .olcActivate stagedUnread = .next t → t.pair.cmd.isSome = false := by
  intro t h
  have hx : answer (olcActivate stagedUnread) = .next t := h
  cases hx
  decide +kernel

/-- Refutes O56: the statement keeps all but the change, memory and the log where ACTIVATE fails, in every state; the end of a change also
drops the command of its switch (R177), which belongs to the pair link. -/
theorem not_onlineChangesRunTheirPhases : ¬ Obligations.OnlineChangesRunTheirPhases := by
  unfold Obligations.OnlineChangesRunTheirPhases
  intro h
  obtain ⟨-, -, hactivate, -⟩ := h stagedUnread
  obtain ⟨t, hx, -, -, -, hframe⟩ := hactivate rfl
  have hcmd := stagedUnread_command t hx
  have hkept : t.pair.cmd = stagedUnread.pair.cmd := by
    have e := congrArg (fun x : State => x.pair.cmd) hframe
    exact e
  rw [hkept] at hcmd
  exact absurd hcmd (by decide)

end Sys2Proof.Machine
end

section
/-! PROOFS. A requester's write of an index that names two entries (07_signal_table.md R190, R199). -/

namespace Sys2Proof.Machine

/-- A table whose index 1 stands twice, an entry of the host and the item of digital group 0; the plant port may write the SIG window and has
7 to write, while the cause of the group's COMMON_FAULT stands unmarked. -/
def doubledHost : State :=
  { State.reset with
    sig := { State.reset.sig with
      entries := [(1, { kind := 12 }), (1, { kind := 2, ref := 0x200 })], plant := { State.reset.sig.plant with wrValue := 7 } }
    plant := { State.reset.plant with windows := 16 }
    pwr := { State.reset.pwr with groups := [{ st := .low }] } }

/-- The item of the group, marked with the write, is what the first entry of the index holds after it. -/
theorem doubledHost_value : ∀ t, exec (.sigWrGo .plant 0x80010000) doubledHost = .next t → (sigEntry t 1).value = 3 := by
  intro t h
  have hx : answer (settle doubledHost (writeSigCtrl .plant 0x80010000 doubledHost)) = .next t := h
  cases hx
  decide +kernel

/-- Refutes O60: the statement gives a written entry the requester's value, in every state; where the table holds an index twice (it is kept
in strictly rising key order, which the statement does not ask for), the second entry's source item overwrites it. -/
theorem not_registersAreReadAndWritten : ¬ Obligations.RegistersAreReadAndWritten := by
  unfold Obligations.RegistersAreReadAndWritten
  intro h
  obtain ⟨-, -, -, -, -, -, -, -, hgo⟩ := h doubledHost
  obtain ⟨t, hx, hvalue, -⟩ := (hgo .plant 0x80010000 (by decide)).1 (by decide) (by decide)
  have hwritten : (sigEntry t 1).value = 7 := hvalue
  rw [doubledHost_value t hx] at hwritten
  exact absurd hwritten (by decide)

end Sys2Proof.Machine
end

section
/-! PROOFS. A repair of the key while the logic has no power (02_burgee_and_start.md R44, 01_station_overview.md R30, R31). -/

namespace Sys2Proof.Machine

/-- A module in RUN whose logic rails are off, its clocks locked, with a bad copy of the directory in a key that it may write. -/
def unpoweredRepair : State :=
  { State.reset with
    sys := { State.reset.sys with mode := .run, pll := true }
    pwr := { State.reset.pwr with railsOff := true }
    key := { State.reset.key with present := true, answers := true }
    start := { State.reset.start with bad := [{ typ := 0, inst := 0, copy := 0 }] } }

/-- The repair has started the peripheral clock. -/
theorem unpoweredRepair_clock : ∀ t, exec (.keyCopyRepair true) unpoweredRepair = .next t → t.sys.run = [.peripheral] := by
  intro t h
  have hx : answer (keyCopyRepair true unpoweredRepair) = .next t := h
  cases hx
  decide +kernel

/-- Refutes O53: the statement leaves all but the start, the key, the log and the free values as they were after a repair, in every state;
where the logic has no power in RUN, nothing requests the peripheral clock that the repair starts. -/
theorem not_rolesAreTakenAndTheKeyLeaves : ¬ Obligations.RolesAreTakenAndTheKeyLeaves := by
  unfold Obligations.RolesAreTakenAndTheKeyLeaves
  intro h
  obtain ⟨-, -, -, -, -, hrepair⟩ := h unpoweredRepair
  obtain ⟨t, hx, -, -, -, hframe⟩ := hrepair { typ := 0, inst := 0, copy := 0 } [] _ _ true rfl rfl (by decide) rfl rfl
  have hrun : t.sys.run = (follow unpoweredRepair).sys.run := by
    have e := congrArg (fun x : State => x.sys.run) hframe
    exact e
  rw [unpoweredRepair_clock t hx] at hrun
  exact absurd hrun (by decide)

end Sys2Proof.Machine
end

section
/-! PROOFS. A message that is the queue engine's first descriptor (19_plant_port_and_access.md R482, 01_station_overview.md R30, R31). -/

namespace Sys2Proof.Machine

/-- A module with its clocks locked and no descriptor held, an open session that may send messages, and channel 0's receive queue. -/
def emptyQueues : State :=
  { State.reset with
    sys := { State.reset.sys with pll := true }
    que := { State.reset.que with queues := [{ user := userPlant, unit := 0, role := 1, depth := 4 }] }
    plant := { State.reset.plant with sessions := [{ st := 2, perms := 2 }] } }

def firstRequest : PlantReq := { session := 0, number := 1, us := 0, formed := true }

/-- The descriptor that the message takes requests the peripheral clock, which runs from then on. -/
theorem emptyQueues_clock : ∀ t, exec (.messageSend firstRequest 0 0 []) emptyQueues = .next t → t.sys.run.contains .peripheral = true := by
  intro t h
  have hx : answer (serve svcMessageSend firstRequest (messageSend 0 0 []) emptyQueues) = .next t := h
  cases hx
  decide +kernel

/-- Refutes O55: the statement leaves all but the plant port, what is sent and the queues as they were after an accepted message; a descriptor
held is a request for the peripheral clock (R30), which starts where it did not run. -/
theorem not_servicesAnswer : ¬ Obligations.ServicesAnswer := by
  unfold Obligations.ServicesAnswer
  intro h
  obtain ⟨-, -, -, -, -, -, -, hsend, -⟩ := h emptyQueues firstRequest (by decide)
  obtain ⟨-, haccepted⟩ := hsend 0 0 [] (by decide) (by decide) (by decide)
  obtain ⟨t, d, hx, -, -, -, -, -, -, -, hframe⟩ := haccepted 0 (by decide) (by decide) (by decide) rfl rfl
  have hrun : t.sys.run = (follow emptyQueues).sys.run := by
    have e := congrArg (fun x : State => x.sys.run) hframe
    exact e
  have hclock := emptyQueues_clock t hx
  rw [hrun] at hclock
  exact absurd hclock (by decide)

end Sys2Proof.Machine
end

section
/-! PROOFS. The plant port's own frames, its sessions and the requests that it refuses (19_plant_port_and_access.md R475 to R480). -/

namespace Sys2Proof.Machine

/-! ### What follows a change of the plant port -/

theorem follow_of_plant {s u : State} (h : { u with plant := s.plant } = s) : { follow u with plant := s.plant } = follow s :=
  congrArg follow h

theorem follow_of_plant_sent {s u : State} (h : { u with plant := s.plant, sent := s.sent } = s) :
    { follow u with plant := s.plant, sent := s.sent } = follow s :=
  congrArg follow h

theorem follow_of_sent (s : State) (l : List Sent) : { follow { s with sent := l } with sent := s.sent } = follow s := rfl

/-! ### Sessions -/

theorem sessionAt_onSession_ne {j k : Nat} (h : j ≠ k) (f : Session → Session) (s : State) :
    sessionAt (onSession k f s) j = sessionAt s j := by
  unfold sessionAt onSession onPlant
  dsimp only
  rw [List.getD_eq_getElem?_getD, List.getElem?_modify_ne _ _ h.symm, ← List.getD_eq_getElem?_getD]

theorem sessionAt_onSession {k : Nat} {s : State} (h : k < s.plant.sessions.length) (f : Session → Session) :
    sessionAt (onSession k f s) k = f (sessionAt s k) := by
  unfold sessionAt onSession onPlant
  dsimp only
  rw [List.getD_eq_getElem?_getD, List.getElem?_modify_eq, List.getD_eq_getElem?_getD, List.getElem?_eq_getElem h]
  rfl

/-- A session that is not closed is one of the port's. -/
theorem lt_of_sessionAt {s : State} {k : Nat} (h : (sessionAt s k).st ≠ 0) : k < s.plant.sessions.length := by
  by_contra hk
  rw [sessionAt, List.getD_eq_default _ _ (Nat.le_of_not_lt hk)] at h
  exact h rfl

/-- A session that closes reads as one that was never open, also where the port has none of its number. -/
theorem sessionAt_closed (k : Nat) (s : State) : sessionAt (onSession k (fun _ => {}) s) k = {} := by
  obtain hk | hk := Nat.lt_or_ge k s.plant.sessions.length
  · exact sessionAt_onSession hk _
  · have hlen : (onSession k (fun _ => {}) s).plant.sessions.length = s.plant.sessions.length := List.length_modify ..
    exact List.getD_eq_default _ _ (hlen ▸ hk)

theorem onSession_frame (k : Nat) (f : Session → Session) (s : State) : { onSession k f s with plant := s.plant } = s := rfl

/-! ### ARP and ICMP (R475) -/

theorem arpRequest_outcome {s : State} (hup : plantUp s = true) {vid : Nat} (hvid : vidTaken s vid = true) (mac ip : Nat) :
    ∃ t, exec (.arpRequest vid mac ip s.plant.ipv4) s = .next t ∧ { t with sent := s.sent } = follow s ∧
      t.sent = { kind := .arp, unit := 4, num := plantTag s,
                 eth := some { ports := [4], dest := mac, tag := if s.plant.vid = 0 then none else some 5, vid := s.plant.vid, typ := 0x0806 },
                 body := beBytes 2 1 ++ beBytes 2 0x0800 ++ [6, 4] ++ beBytes 2 2 ++ beBytes 6 Config.moduleMac
                   ++ beBytes 4 s.plant.ipv4 ++ beBytes 6 mac ++ beBytes 4 ip ++ List.replicate 18 0 } :: s.sent := by
  refine ⟨_, rfl, ?frame, ?sent⟩
  case frame => rw [arpRequest, hup, hvid, beq_self_eq_true]; rfl
  case sent => rw [arpRequest, hup, hvid, beq_self_eq_true]; rfl

theorem icmpEcho_outcome {s : State} (hup : plantUp s = true) {vid : Nat} (hvid : vidTaken s vid = true) (body : List Byte) :
    ∃ t, exec (.icmpEcho vid s.plant.ipv4 body) s = .next t ∧ { t with sent := s.sent } = follow s ∧
      t.sent = { kind := .icmp, unit := 4, num := plantTag s, body := body } :: s.sent := by
  refine ⟨_, rfl, ?frame, ?sent⟩
  case frame => rw [icmpEcho, hup, hvid, beq_self_eq_true]; rfl
  case sent => rw [icmpEcho, hup, hvid, beq_self_eq_true]; rfl

/-! ### Connections (R475, R478) -/

theorem plantConnect_of_deaf {s : State} {p : PlantPeer} (h : plantUp s = false ∨ vidTaken s p.vid = false) : plantConnect p s = s := by
  obtain h | h := h <;> simp [plantConnect, h]

section
variable {s : State} {p : PlantPeer} (hup : plantUp s = true) (hvid : vidTaken s p.vid = true)
include hup hvid

theorem plantConnect_of_free {k : Nat} (hk : k < 4) (hfree : (sessionAt s k).st = 0) (hlow : ∀ j, j < k → (sessionAt s j).st ≠ 0) :
    plantConnect p s = onSession k (fun _ => { st := 1, ip := p.ip, mac := p.mac, heardAt := s.mono }) s := by
  have hfind : freeSession s = some k := by
    rw [freeSession, List.find?_range_eq_some]
    exact ⟨by simp [hfree], List.mem_range.2 hk, fun j hj => by simp [hlow j hj]⟩
  rw [plantConnect, hup, hvid, hfind]
  rfl

theorem plantConnect_of_full (hfull : ∀ j, j < 4 → (sessionAt s j).st ≠ 0) : plantConnect p s = plantRefuse 1 s := by
  have hfind : freeSession s = none := by
    rw [freeSession, List.find?_eq_none]
    intro j hj
    simp [hfull j (List.mem_range.1 hj)]
  rw [plantConnect, hup, hvid, hfind]
  rfl

theorem plantConnect_free_outcome (hlen : s.plant.sessions.length = 4) {k : Nat} (hk : k < 4) (hfree : (sessionAt s k).st = 0)
    (hlow : ∀ j, j < k → (sessionAt s j).st ≠ 0) :
    ∃ t, exec (.plantConnect p) s = .next t ∧ sessionAt t k = { st := 1, ip := p.ip, mac := p.mac, heardAt := s.mono } ∧
      (∀ j, j ≠ k → sessionAt t j = sessionAt s j) ∧ { t with plant := s.plant } = follow s := by
  have hat : exec (.plantConnect p) s = answer (onSession k (fun _ => { st := 1, ip := p.ip, mac := p.mac, heardAt := s.mono }) s) :=
    congrArg answer (plantConnect_of_free hup hvid hk hfree hlow)
  refine ⟨_, hat, ?_, fun j hj => ?_, follow_of_plant rfl⟩
  · exact sessionAt_onSession (hlen ▸ hk) fun _ => { st := 1, ip := p.ip, mac := p.mac, heardAt := s.mono }
  · exact sessionAt_onSession_ne hj _ s

theorem plantConnect_full_outcome (hfull : ∀ j, j < 4 → (sessionAt s j).st ≠ 0) :
    ∃ t, exec (.plantConnect p) s = .next t ∧ t.plant.sessions = s.plant.sessions ∧
      t.plant.refused = satInc 32 s.plant.refused ∧ t.plant.flags.getLsbD 1 = true ∧ { t with plant := s.plant } = follow s := by
  have hat : exec (.plantConnect p) s = answer (plantRefuse 1 s) := congrArg answer (plantConnect_of_full hup hvid hfull)
  exact ⟨_, hat, rfl, rfl, setBit_get _ _ (by decide), follow_of_plant rfl⟩

end

/-! ### The end of a session (R478) -/

theorem closed_outcome {c : Instr} {k : Nat} {s : State} (h : exec c s = answer (onSession k (fun _ => {}) s)) :
    ∃ t, exec c s = .next t ∧ sessionAt t k = {} ∧ (∀ j, j ≠ k → sessionAt t j = sessionAt s j) ∧ { t with plant := s.plant } = follow s :=
  ⟨_, h, sessionAt_closed k s, fun _ hj => sessionAt_onSession_ne hj _ s, follow_of_plant rfl⟩

theorem exec_plantIdleTimeout_early {s : State} {k : Nat} (h : s.mono < (sessionAt s k).heardAt + 120000000000) :
    exec (.plantIdleTimeout k) s = .next (follow s) := by
  have hnot : ¬(sessionAt s k).heardAt + 120 * nsPerSec ≤ s.mono := Nat.not_le.2 h
  exact congrArg answer (if_neg hnot)

theorem exec_plantIdleTimeout_due {s : State} {k : Nat} (h : (sessionAt s k).heardAt + 120000000000 ≤ s.mono) :
    exec (.plantIdleTimeout k) s = answer (onSession k (fun _ => {}) s) := by
  have hdue : (sessionAt s k).heardAt + 120 * nsPerSec ≤ s.mono := h
  exact congrArg answer (if_pos hdue)

/-! ### A handshake (R476, R477) -/

/-- A handshake with a calendar that is not valid is marked. -/
def clockDoubt (s : State) : State := if s.rtc.valid then s else onSec (fun x => { x with flags := flag 7 x.flags }) s

theorem clockDoubt_frame (s : State) : { clockDoubt s with sec := { (clockDoubt s).sec with flags := s.sec.flags } } = s := by
  unfold clockDoubt
  split
  · rfl
  · rfl

theorem clockDoubt_flag {s : State} (h : s.rtc.valid = false) : (clockDoubt s).sec.flags.getLsbD 7 = true := by
  rw [clockDoubt, h]
  exact setBit_get _ 7 (by decide)

/-- What the handshake has sent by its end: the device certificate where a suite is agreed on. -/
def presented (k : Nat) (c : ClientCert) (s : State) : List Sent :=
  match tlsAgrees s c with
  | some suite => { kind := .deviceCert, unit := k, num := suite, body := deviceCert s, eth := some (plantEth s (sessionAt s k).mac) } :: s.sent
  | none => s.sent

/-- The state in which the client's certificate is judged. -/
def judged (k : Nat) (c : ClientCert) (s : State) : State := { clockDoubt s with sent := presented k c s }

theorem presents_eq (k : Nat) (c : ClientCert) (s : State) : presents k c s = { s with sent := presented k c s } := by
  unfold presents presented
  cases tlsAgrees s c with
  | none => rfl
  | some suite => rfl

theorem presented_clockDoubt (k : Nat) (c : ClientCert) (s : State) : presented k c (clockDoubt s) = presented k c s := by
  unfold clockDoubt
  split
  · rfl
  · rfl

theorem presents_clockDoubt (k : Nat) (c : ClientCert) (s : State) : presents k c (clockDoubt s) = judged k c s := by
  rw [presents_eq, presented_clockDoubt]
  rfl

theorem admits_judged (k : Nat) (c : ClientCert) (s : State) : admits (judged k c s) c = admits s c := by
  unfold judged clockDoubt
  split
  · rfl
  · rfl

theorem judged_plant (k : Nat) (c : ClientCert) (s : State) : (judged k c s).plant = s.plant := by
  unfold judged clockDoubt
  split
  · rfl
  · rfl

theorem judged_beside (k : Nat) (c : ClientCert) (s : State) :
    (judged k c s).mono = s.mono ∧ (judged k c s).start = s.start := by
  unfold judged clockDoubt
  split
  · exact ⟨rfl, rfl⟩
  · exact ⟨rfl, rfl⟩

theorem plantHandshake_of_open {k : Nat} {c : ClientCert} {s : State} (h : (sessionAt s k).st = 1) :
    plantHandshake k c s =
      match admits s c with
      | none => authFails k (judged k c s)
      | some x => onPlant (fun p => { p with handshakes := satInc 32 p.handshakes })
          (onSession k (fun y => { y with st := 2, perms := x.1, anchor := x.2, noKey := !s.start.accepted, heardAt := s.mono }) (judged k c s)) := by
  obtain ⟨hmono, hstart⟩ := judged_beside k c s
  rw [plantHandshake, if_pos h]
  have hdoubt : (if s.rtc.valid then s else onSec (fun x => { x with flags := flag 7 x.flags }) s) = clockDoubt s := rfl
  dsimp only
  rw [hdoubt, presents_clockDoubt, admits_judged, hmono, hstart]
  split
  · next ha => rw [ha]
  · next perms anchor ha => rw [ha]

/-- A failed handshake: its session closed, counted and flagged; the log may hold its record. -/
theorem authFails_outcome (k : Nat) (s : State) :
    sessionAt (authFails k s) k = {} ∧ (∀ j, j ≠ k → sessionAt (authFails k s) j = sessionAt s j) ∧
      (authFails k s).plant.authFails = satInc 32 s.plant.authFails ∧ (authFails k s).plant.flags.getLsbD 0 = true ∧
      (authFails k s).sent = s.sent ∧ (authFails k s).sec = s.sec := by
  unfold authFails
  extract_lets a b
  have hb : ∀ l p, sessionAt { b with log := l, plant := { b.plant with authRecAt := p } } k = {} ∧
      (∀ j, j ≠ k → sessionAt { b with log := l, plant := { b.plant with authRecAt := p } } j = sessionAt s j) ∧
      b.plant.flags.getLsbD 0 = true :=
    fun l p => ⟨sessionAt_closed k s, fun j hj => sessionAt_onSession_ne hj _ s, setBit_get _ _ (by decide)⟩
  split
  · obtain ⟨hclosed, hothers, hflag⟩ := hb (raise .plantAuthFail .notice 0xFF 0 0 0 (onPlant (fun p => { p with authRecAt := some b.mono }) b)).log
      (some b.mono)
    rw [raise_frame]
    exact ⟨hclosed, hothers, rfl, hflag, rfl, rfl⟩
  · obtain ⟨hclosed, hothers, hflag⟩ := hb b.log b.plant.authRecAt
    exact ⟨hclosed, hothers, rfl, hflag, rfl, rfl⟩

/-- What a handshake leaves of its session and of the port's counts, by what the certificate gives. -/
theorem plantHandshake_verdict {k : Nat} {c : ClientCert} {s : State} (h : (sessionAt s k).st = 1) :
    (∀ j, j ≠ k → sessionAt (plantHandshake k c s) j = sessionAt s j) ∧
      (plantHandshake k c s).sent = presented k c s ∧ (plantHandshake k c s).sec = (clockDoubt s).sec ∧
      (∀ x, admits s c = some x →
        sessionAt (plantHandshake k c s) k =
            { sessionAt s k with st := 2, perms := x.1, anchor := x.2, noKey := !s.start.accepted, heardAt := s.mono } ∧
          (plantHandshake k c s).plant.handshakes = satInc 32 s.plant.handshakes) ∧
      (admits s c = none → sessionAt (plantHandshake k c s) k = {} ∧ (plantHandshake k c s).plant.authFails = satInc 32 s.plant.authFails ∧
        (plantHandshake k c s).plant.flags.getLsbD 0 = true) := by
  have hplant := judged_plant k c s
  have hsession : ∀ j, sessionAt (judged k c s) j = sessionAt s j := fun j => by rw [sessionAt, hplant]; rfl
  rw [plantHandshake_of_open h]
  cases ha : admits s c with
  | none =>
    obtain ⟨hclosed, hothers, hfails, hflag, hsent, hsec⟩ := authFails_outcome k (judged k c s)
    refine ⟨fun j hj => (hothers j hj).trans (hsession j), hsent, hsec, nofun, fun _ => ⟨hclosed, ?_, hflag⟩⟩
    exact hfails.trans (by rw [hplant])
  | some x =>
    have hk : k < (judged k c s).plant.sessions.length := by
      rw [hplant]
      exact lt_of_sessionAt (by rw [h]; decide)
    refine ⟨fun j hj => (sessionAt_onSession_ne hj _ _).trans (hsession j), rfl, rfl, ?_, nofun⟩
    rintro y ⟨⟩
    refine ⟨(sessionAt_onSession hk _).trans (by rw [hsession]), ?_⟩
    have hcount := congrArg (fun p : Plant => satInc 32 p.handshakes) hplant
    exact hcount

/-! ### A request that is refused (R479, R480) -/

/-- What a refused request leaves: its status without a body, the counts of the port and of the session, and nothing else. -/
def Refused (s t : State) (r : PlantReq) (service : Nat) (st : PStatus) : Prop :=
  t.sent = { kind := .plant, unit := r.session, num := r.number, body := responseHead service r.number 0 st.code, eth := some (plantEth s (sessionAt s r.session).mac) } :: s.sent ∧
  t.plant.refused = satInc 32 s.plant.refused ∧ t.plant.flags.getLsbD 2 = true ∧
  (sessionAt t r.session).served = satInc 32 (sessionAt s r.session).served ∧ (sessionAt t r.session).heardAt = s.mono ∧
  t.plant.respMax = max s.plant.respMax (min r.us (satMax 32)) ∧ { t with plant := s.plant, sent := s.sent } = follow s

/-- The port after a refused request. -/
def Plant.afterRefusal (p : Plant) (r : PlantReq) (now : Nat) : Plant :=
  { p with
    sessions := p.sessions.modify r.session fun x => { x with served := satInc 32 x.served, heardAt := now }
    respMax := max p.respMax (min r.us (satMax 32)), refused := satInc 32 p.refused, flags := flag 2 p.flags }

theorem respondPlant_eq_refusal (service : Nat) {r : PlantReq} {st : PStatus} (hst : st ≠ .ok) {s : State} (ho : (sessionAt s r.session).st = 2) :
    respondPlant service r st [] s = { s with
      plant := s.plant.afterRefusal r s.mono
      sent := { kind := .plant, unit := r.session, num := r.number, body := responseHead service r.number 0 st.code,
                eth := some (plantEth s (sessionAt s r.session).mac) } :: s.sent } := by
  have hresponse : responses service r st.code [] s =
      sessionSend .plant r.session r.number (responseHead service r.number 0 st.code) s := by
    rw [responses_of_length_le service r st.code s (Nat.zero_le _), List.append_nil, List.length_nil]
  rw [respondPlant, if_neg (not_not.2 ho)]
  dsimp only
  rw [if_neg hst, hresponse]
  rfl

theorem respondPlant_refused (service : Nat) {r : PlantReq} {st : PStatus} (hst : st ≠ .ok) {s : State} (ho : (sessionAt s r.session).st = 2) :
    Refused s (follow (respondPlant service r st [] s)) r service st := by
  have hk : r.session < s.plant.sessions.length := lt_of_sessionAt (by rw [ho]; decide)
  have hsession := sessionAt_onSession hk fun x => { x with served := satInc 32 x.served, heardAt := s.mono }
  rw [respondPlant_eq_refusal service hst ho, follow_replacing_plant_sent]
  refine ⟨rfl, rfl, setBit_get _ _ (by decide), ?_, ?_, rfl, rfl⟩
  · exact congrArg Session.served hsession
  · exact congrArg Session.heardAt hsession

theorem serve_denied {x : Service} {r : PlantReq} {s : State} (act : State → PStatus × List Byte × State)
    (hr : sessionReads s r = true) (hc : serviceCheck s x r ≠ .ok) :
    serve x r act s = respondPlant x.code r (serviceCheck s x r) [] s := by
  rw [serve, if_pos hr]
  split
  · next hok => exact absurd hok hc
  · rfl

/-- Whatever the service would do. -/
theorem exec_denied {x : Service} {r : PlantReq} {s : State} {c : Instr} (act : State → PStatus × List Byte × State)
    (h : exec c s = answer (serve x r act s)) (hr : sessionReads s r = true) (hc : serviceCheck s x r ≠ .ok) :
    ∃ t, exec c s = .next t ∧ Refused s t r x.code (serviceCheck s x r) :=
  ⟨_, h.trans (congrArg answer (serve_denied act hr hc)), respondPlant_refused x.code hc (sessionReads_open hr)⟩

/-- Each request of R480 is served through its service's conditions. -/
theorem exec_is_serve (s : State) (r : PlantReq) (a : RegAt) (n : Nat) (x : StartIn) (l : List RegPair) (cert : List Byte) (ch tag : Nat)
    (p : OlcPiece) (off : Nat) (vals : List Byte) (key : Nat × Nat) :
    ∀ c ∈ [(Instr.identify r, svcIdentify), (.regRead r a n, svcRegRead), (.regWrite r l x, svcRegWrite), (.logBulk r off n, svcLogBulk),
        (.dictionary r off n, svcDictionary), (.keyRead r tag off n, svcKeyRead), (.olcPiece r p, svcOlcPiece), (.enrol r cert, svcEnrol),
        (.identityGetRequest r, svcIdentity), (.identityInstall r cert key, svcIdentity), (.reauthorise r, svcReauthorise),
        (.messageOpen r ch, svcMessage), (.messageClose r ch, svcMessage), (.messageSend r ch tag vals, svcMessageSend)],
      ∃ act, exec c.1 s = answer (serve c.2 r act s) := by
  simp only [List.forall_mem_cons, List.not_mem_nil, false_implies, implies_true, and_true]
  exact ⟨⟨_, rfl⟩, ⟨_, rfl⟩, ⟨_, rfl⟩, ⟨_, rfl⟩, ⟨_, rfl⟩, ⟨_, rfl⟩, ⟨_, rfl⟩, ⟨_, rfl⟩, ⟨_, rfl⟩, ⟨_, rfl⟩, ⟨_, rfl⟩, ⟨_, rfl⟩, ⟨_, rfl⟩, ⟨_, rfl⟩⟩

/-- Settles O54: a handshake by what the certificate gives, a denied request by `serve_denied`, which no service's action enters. -/
theorem thePlantPortAdmits : Obligations.ThePlantPortAdmits := by
  unfold Obligations.ThePlantPortAdmits
  intro s
  refine ⟨fun hup vid hvid => ⟨fun mac ip => arpRequest_outcome hup hvid mac ip, fun body => icmpEcho_outcome hup hvid body⟩,
    fun p hp => congrArg answer (plantConnect_of_deaf hp), fun hup p hvid hlen => ⟨fun k hk hfree hlow => ?free, ?full⟩,
    fun k c hst => ?handshake, fun k => exec_plantIdleTimeout_early,
    fun k => ⟨fun h => closed_outcome (exec_plantIdleTimeout_due h), closed_outcome rfl⟩, fun r hr => ⟨fun code => ?unknown, ?denied⟩⟩
  case free => exact plantConnect_free_outcome hup hvid hlen hk hfree hlow
  case full => exact plantConnect_full_outcome hup hvid
  case handshake =>
    obtain ⟨hothers, hsent, hsec, hadmitted, hrefused⟩ := plantHandshake_verdict (c := c) hst
    refine ⟨_, rfl, hothers, fun hv => ?_, fun hnone => ⟨?_, ?_⟩, fun suite hsome => ?_, fun x hx => ?_, hrefused⟩
    · exact (congrArg (fun e : Sec => e.flags.getLsbD 7) hsec).trans (clockDoubt_flag hv)
    · exact hsent.trans (by rw [presented, hnone])
    · rw [admits, hnone]
      rfl
    · exact hsent.trans (by rw [presented, hsome])
    · obtain ⟨hsession, hcount⟩ := hadmitted x hx
      exact ⟨congrArg Session.st hsession, congrArg Session.perms hsession, congrArg Session.anchor hsession,
        congrArg Session.heardAt hsession, congrArg Session.noKey hsession, hcount⟩
  case unknown =>
    have hat : exec (.plantUnknownService code r) s = answer (respondPlant code r .badRequest [] s) := congrArg answer (if_pos hr)
    exact ⟨_, hat, respondPlant_refused code (by decide) (sessionReads_open hr)⟩
  case denied =>
    intro a n x l cert ch tag p off vals key c hc hdenied
    obtain ⟨act, hact⟩ := exec_is_serve s r a n x l cert ch tag p off vals key c hc
    exact exec_denied act hact hr hdenied

end Sys2Proof.Machine
end

section
/-! PROOFS. The serial lines as Modbus master and slave (19_plant_port_and_access.md R490 to R495, R501). -/

namespace Sys2Proof.Machine

/-! ### One line of the state -/

theorem serLine_onLine_ne {m n : Nat} (hm : 1 ≤ m) (hn : 1 ≤ n) (h : m ≠ n) (f : SerLine → SerLine) (s : State) :
    serLine (onLine n f s) m = serLine s m := by
  have hne : n - 1 ≠ m - 1 := by omega
  unfold serLine onLine onSer
  dsimp only
  rw [List.getD_eq_getElem?_getD, List.getElem?_modify_ne _ _ hne, ← List.getD_eq_getElem?_getD]

theorem onLine_onLine (n : Nat) (f g : SerLine → SerLine) (s : State) : onLine n f (onLine n g s) = onLine n (f ∘ g) s := by
  unfold onLine onSer
  dsimp only
  rw [List.modify_modify_eq]

theorem rest_of_ser {s t u : State} (h : t.rest = u.rest) (hu : { u with ser := s.ser } = s) : { t with ser := s.ser }.rest = s.rest :=
  (congrArg (fun x : State => { x with ser := s.ser }) h).trans (congrArg State.rest hu)

theorem rest_of_ser_sent {s t u : State} (h : t.rest = u.rest) (hu : { u with ser := s.ser, sent := s.sent } = s) :
    { t with ser := s.ser, sent := s.sent }.rest = s.rest :=
  (congrArg (fun x : State => { x with ser := s.ser, sent := s.sent }) h).trans (congrArg State.rest hu)

theorem any_role_onLine (n : Nat) {f : SerLine → SerLine} (hf : ∀ l, (f l).role = l.role) (l : List SerLine) :
    ((l.modify n f).any fun x => x.role != 0) = l.any fun x => x.role != 0 := by
  induction l generalizing n with
  | nil => rw [List.modify_nil]
  | cons x l ih =>
    cases n with
    | zero => rw [List.modify_zero_cons, List.any_cons, List.any_cons, hf]
    | succ n => rw [List.modify_succ_cons, List.any_cons, List.any_cons, ih]

/-- Of the lines the clocks read whether one is in use (R30). -/
theorem follow_of_roles {x : Ser} {s : State} (l : List Sent) (h : (x.lines.any fun y => y.role != 0) = s.ser.lines.any fun y => y.role != 0) :
    { follow { s with ser := x, sent := l } with ser := s.ser, sent := s.sent } = follow s := by
  have hq : clockRequested { refreshStages s with ser := x, sent := l } = clockRequested (refreshStages s) := by
    funext c
    cases c with
    | peripheral =>
      have hser : (x.lines.any fun y => y.role != 0) = (refreshStages s).ser.lines.any fun y => y.role != 0 := h
      simp only [clockRequested, hser]
      rfl
    | _ => rfl
  have hstages : follow { s with ser := x, sent := l } = grantClocks { refreshStages s with ser := x, sent := l } := rfl
  rw [hstages, follow]
  unfold grantClocks
  rw [hq]
  rfl

/-- An item's data goes to the entries that it is the source of: beside the table and the field only the line's marks of the item change. -/
theorem serArrives_rest (n item : Nat) (data : List Byte) (s : State) :
    (serArrives n item data s).rest =
      (onLine n (fun l => { l with failed := setBit l.failed item false, failRun := del item l.failRun }) s).rest :=
  rest_of_beyond (updateWhere_beyond _ _ _)

theorem declareAbsent_ser (which : SigEntry → Bool) (s : State) : (declareAbsent which s).ser = s.ser := by
  obtain ⟨v, hv, hbeside⟩ := declareAbsent_besideSig which s
  have hser : (declareAbsent which s).ser = v.ser := by
    have e := congrArg State.ser hbeside
    exact e
  rw [hser]
  obtain rfl | ⟨i, rfl⟩ := hv
  · rfl
  · rw [raise_frame]

section
variable {s : State} {n : Nat} (hn : 1 ≤ n) (hl : n ≤ s.ser.lines.length)

/-! ### A transaction of the master (R491) -/

section
variable {f : SerLine → SerLine}
include hn hl

theorem transDue_onLine (hs : ∀ l, (f l).sentData = l.sentData) (ht : ∀ l, (f l).lastSent = l.lastSent) (t : SerTrans) :
    transDue (onLine n f s) n t = transDue s n t := by
  unfold transDue
  dsimp only
  rw [serLine_onLine hn hl, hs, ht]
  rfl

theorem nextDue_onLine (hs : ∀ l, (f l).sentData = l.sentData) (ht : ∀ l, (f l).lastSent = l.lastSent)
    (htrans : ∀ l, (f l).trans = l.trans) (hround : ∀ l, (f l).round = l.round) : nextDue (onLine n f s) n = nextDue s n := by
  have hdue : transDue (onLine n f s) n = transDue s n := funext (transDue_onLine hn hl hs ht)
  unfold nextDue SerLine.inOrder
  dsimp only
  rw [hdue, serLine_onLine hn hl, htrans, hround]

theorem mapData_onLine (hd : ∀ l, (f l).data = l.data) (m : SerMap) : mapData (onLine n f s) n m = mapData s n m := by
  unfold mapData
  rw [serLine_onLine hn hl, hd]
  rfl

theorem mapRead_onLine (hd : ∀ l, (f l).data = l.data) (m : SerMap) (a c : Nat) : mapRead (onLine n f s) n m a c = mapRead s n m a c := by
  unfold mapRead
  rw [mapData_onLine hn hl hd]

end

/-- A line that has sent a transaction. -/
def SerLine.sending (l : SerLine) (t : SerTrans) (data : List Byte) (now : Nat) : SerLine :=
  { l with
    item := t.item, round := some t.item, sentData := put t.item data l.sentData, lastSent := put t.item now l.lastSent, afterQueue := true
    tx := if t.slave = 0 then none
          else some { item := t.item, handle := none, slave := t.slave, function := t.function, attempt := 1, at_ := now } }

theorem transSend_eq (t : SerTrans) :
    transSend n t s =
      { onLine n (fun l => l.sending t (transData s n t) s.mono) s with
        sent := { kind := .serial, unit := n, num := t.item, body := BitVec.ofNat 8 t.slave :: transPdu t (transData s n t) } :: s.sent } := rfl

include hn hl in
theorem serTransaction_of_due {t : SerTrans} (hrole : (serLine s n).role = 1) (htx : (serLine s n).tx = none) (hallowed : serTxAllowed s = true)
    (hwaits : waitingEntry s n = none) (hdue : nextDue s n = some t) :
    serTransaction n s = transSend n t (onLine n (fun l => { l with afterQueue := false }) s) := by
  have hwait : waitingEntry (onLine n (fun l => { l with afterQueue := false }) s) n = none := hwaits
  have hnext : nextDue (onLine n (fun l => { l with afterQueue := false }) s) n = some t :=
    (nextDue_onLine hn hl (f := fun l => { l with afterQueue := false }) (fun _ => rfl) (fun _ => rfl) (fun _ => rfl) fun _ => rfl).trans hdue
  have hgoes : ¬((serLine s n).role ≠ 1 ∨ (serLine s n).tx.isSome ∨ !serTxAllowed s) := by simp [hrole, htx, hallowed]
  rw [serTransaction]
  dsimp only
  rw [if_neg hgoes, hwait, hnext]

include hn hl in
theorem serTransaction_eq {t : SerTrans} (hrole : (serLine s n).role = 1) (htx : (serLine s n).tx = none) (hallowed : serTxAllowed s = true)
    (hwaits : waitingEntry s n = none) (hdue : nextDue s n = some t) :
    serTransaction n s =
      { onLine n (fun l => l.sending t (transData s n t) s.mono) s with
        sent := { kind := .serial, unit := n, num := t.item, body := BitVec.ofNat 8 t.slave :: transPdu t (transData s n t) } :: s.sent } := by
  have hdata : transData (onLine n (fun l => { l with afterQueue := false }) s) n t = transData s n t := rfl
  rw [serTransaction_of_due hn hl hrole htx hallowed hwaits hdue, transSend_eq, hdata, onLine_onLine]
  rfl

include hn hl in
theorem serialTransaction_outcome {tr : SerTrans} (hrole : (serLine s n).role = 1) (htx : (serLine s n).tx = none)
    (hallowed : serTxAllowed s = true) (hwaits : waitingEntry s n = none) (hdue : nextDue s n = some tr) :
    ∃ t, exec (.serialTransaction n) s = .next t ∧ (serLine t n).item = tr.item ∧
      (serLine t n).tx = (if tr.slave = 0 then none
        else some { item := tr.item, handle := none, slave := tr.slave, function := tr.function, attempt := 1, at_ := s.mono }) ∧
      t.sent = { kind := .serial, unit := n, num := tr.item, body := BitVec.ofNat 8 tr.slave :: transPdu tr (transData s n tr) } :: s.sent ∧
      (∀ m, 1 ≤ m → m ≠ n → serLine t m = serLine s m) ∧ { t with ser := s.ser, sent := s.sent } = follow s := by
  have hline := serLine_onLine hn hl fun l => l.sending tr (transData s n tr) s.mono
  refine ⟨_, congrArg answer (serTransaction_eq hn hl hrole htx hallowed hwaits hdue), ?_, ?_, rfl, fun m hm hne => ?_, ?_⟩
  · have e := congrArg SerLine.item hline
    exact e
  · have e := congrArg SerLine.tx hline
    exact e
  · exact serLine_onLine_ne hm hn hne (fun l => l.sending tr (transData s n tr) s.mono) s
  · have hroles := any_role_onLine (n - 1) (f := fun l => l.sending tr (transData s n tr) s.mono) (fun _ => rfl) s.ser.lines
    have hfollow : ∀ l, _ := fun l =>
      follow_of_roles (x := (onLine n (fun l => l.sending tr (transData s n tr) s.mono) s).ser) (s := s) l hroles
    exact hfollow _

/-! ### What a master line hears (R490, R491) -/

/-- A line that has taken a reply to a transaction that stands in it. -/
def SerLine.replied (l : SerLine) (item : Nat) : SerLine :=
  { l with frames := satInc 32 l.frames, tx := none, failRun := del item l.failRun }

/-- A line whose item's data has arrived. -/
def SerLine.arrived (l : SerLine) (item : Nat) : SerLine :=
  { l with failed := setBit l.failed item false, failRun := del item l.failRun }

section
variable {x : SerTx} {tr : SerTrans} {f : SerFrame}

include hn hl in
theorem serialReply_bad_outcome (hrole : (serLine s n).role = 1) (hcrc : f.crcOk = false) :
    ∃ t, exec (.serialReply n f) s = .next t ∧
      serLine t n = { serLine s n with crcErrors := satInc 32 (serLine s n).crcErrors, flags := flag 0 (serLine s n).flags } ∧
      (∀ m, 1 ≤ m → m ≠ n → serLine t m = serLine s m) ∧ { t with ser := s.ser }.rest = s.rest := by
  have hat : serReply n f s = serCrcError n s := by
    rw [serReply]
    dsimp only
    rw [if_neg (not_not.2 hrole), hcrc]
    rfl
  obtain ⟨t, hx, hrest⟩ := answer_settled s (serReply n f s)
  rw [hat] at hrest
  refine ⟨t, hx, (ser_of_rest hrest n).trans (serLine_onLine hn hl _), fun m hm hne => ?_, rest_of_ser hrest rfl⟩
  exact (ser_of_rest hrest m).trans (serLine_onLine_ne hm hn hne _ s)

include hn hl in
theorem serReply_of_fit (hrole : (serLine s n).role = 1) (hcrc : f.crcOk = true) (htx : (serLine s n).tx = some x) (hh : x.handle = none)
    (haddr : f.addr = x.slave) (hfn : fld f.pdu 0 1 = x.function) (htr : (serLine s n).trans.find? (fun t => t.item == x.item) = some tr)
    (hfit : replyFits tr f.pdu = true) :
    serReply n f s =
      if serReads tr.function then serArrives n tr.item (replyData f.pdu) (onLine n (fun l => l.replied tr.item) s)
      else onLine n (fun l => l.replied tr.item) s := by
  have hlist : ((serLine (serFrame n s) n).trans.find? fun t => t.item == x.item) = some tr := by
    rw [serFrame, serLine_onLine hn hl]
    exact htr
  have hnone : ¬(f.addr = x.slave ∧ fld f.pdu 0 1 = x.function + 128) := by omega
  have hfits : ¬(f.addr ≠ x.slave ∨ fld f.pdu 0 1 ≠ x.function) := by simp [haddr, hfn]
  have hsame : onLine n (fun l => { l with tx := none, failRun := del tr.item l.failRun }) (serFrame n s) =
      onLine n (fun l => l.replied tr.item) s := onLine_onLine ..
  rw [serReply]
  dsimp only
  rw [if_neg (not_not.2 hrole), hcrc, htx]
  dsimp only
  rw [serAnswered]
  dsimp only
  rw [if_neg hnone, if_neg hfits, hh]
  dsimp only
  rw [hlist]
  dsimp only
  rw [if_pos hfit, hsame]
  rfl

include hn hl in
theorem serialReply_fit_outcome (hrole : (serLine s n).role = 1) (hcrc : f.crcOk = true) (htx : (serLine s n).tx = some x)
    (hh : x.handle = none) (haddr : f.addr = x.slave) (hfn : fld f.pdu 0 1 = x.function)
    (htr : (serLine s n).trans.find? (fun t => t.item == x.item) = some tr) (hfit : replyFits tr f.pdu = true) :
    ∃ t, exec (.serialReply n f) s = .next t ∧ (serLine t n).tx = none ∧ (serLine t n).frames = satInc 32 (serLine s n).frames ∧
      look tr.item (serLine t n).failRun = none ∧ t.sent = s.sent ∧ t.log = s.log ∧
      (serReads tr.function = true → tr.item < 64 → (serLine t n).failed.getLsbD tr.item = false) := by
  have hat := serReply_of_fit hn hl hrole hcrc htx hh haddr hfn htr hfit
  obtain ⟨t, hx, hrest⟩ := answer_settled s (serReply n f s)
  have hlen := (onLine_lines_length n (fun l => l.replied tr.item) s).symm ▸ hl
  have hreplied := serLine_onLine hn hl fun l => l.replied tr.item
  rw [hat] at hrest
  cases hreads : serReads tr.function with
  | true =>
    rw [hreads, if_pos rfl, serArrives_rest] at hrest
    have hline := ser_of_rest hrest n
    have harrived := (serLine_onLine hn hlen fun l => l.arrived tr.item).trans (congrArg (fun l => SerLine.arrived l tr.item) hreplied)
    have hthis : serLine t n = ((serLine s n).replied tr.item).arrived tr.item := hline.trans harrived
    refine ⟨t, hx, ?_⟩
    rw [hthis]
    exact ⟨rfl, rfl, look_del_same _ _, (sent_of_rest hrest).trans rfl, (log_of_rest hrest).trans rfl, fun _ _ => setBit_clear_get _ _⟩
  | false =>
    rw [hreads, if_neg Bool.false_ne_true] at hrest
    have hthis : serLine t n = (serLine s n).replied tr.item := (ser_of_rest hrest n).trans hreplied
    refine ⟨t, hx, ?_⟩
    rw [hthis]
    exact ⟨rfl, rfl, look_del_same _ _, (sent_of_rest hrest).trans rfl, (log_of_rest hrest).trans rfl, nofun⟩

/-! ### A timeout (R491, R494) -/

/-- A line that has counted a timeout, and a failure of an item. -/
def SerLine.timedOut (l : SerLine) (item runs : Nat) (tx : Option SerTx) : SerLine :=
  { l with timeouts := satInc 32 l.timeouts, flags := flag 1 l.flags, failRun := put item runs l.failRun, tx := tx }

theorem timeoutNs_of_transaction (hh : x.handle = none) (htr : (serLine s n).trans.find? (fun t => t.item == x.item) = some tr) :
    (serLine s n).timeoutNs x = tr.timeoutMs * 1000000 := by
  rw [SerLine.timeoutNs, hh, htr]
  rfl

theorem serTimeout_early (htx : (serLine s n).tx = some x) (hh : x.handle = none)
    (htr : (serLine s n).trans.find? (fun t => t.item == x.item) = some tr) (h : s.mono < x.at_ + tr.timeoutMs * 1000000) :
    serTimeout n s = s := by
  rw [serTimeout, htx]
  dsimp only
  rw [timeoutNs_of_transaction hh htr, if_pos h]

theorem serTimeout_due (htx : (serLine s n).tx = some x) (hh : x.handle = none)
    (htr : (serLine s n).trans.find? (fun t => t.item == x.item) = some tr) (h : x.at_ + tr.timeoutMs * 1000000 ≤ s.mono) :
    serTimeout n s = serUnanswered n x s := by
  rw [serTimeout, htx]
  dsimp only
  rw [timeoutNs_of_transaction hh htr, if_neg (Nat.not_lt.2 h)]

/-- The failures in a row of an item, this one included. -/
def SerLine.runsOf (l : SerLine) (item : Nat) : Nat := ((look item l.failRun).getD 0) + 1

/-- Below the limit of failures the attempt is sent again, or ends. -/
theorem serFails_of_transaction (reply : Option (List Byte)) (hh : x.handle = none)
    (htr : (serLine s n).trans.find? (fun t => t.item == x.item) = some tr) (hlimit : (serLine s n).runsOf tr.item < (serLine s n).failLimit) :
    serFails n x reply s =
      let u := onLine n (fun l => { l with failRun := put tr.item ((serLine s n).runsOf tr.item) l.failRun }) s
      if decide ((serLine s n).force.retries < x.attempt) || !mayRepeat s tr then onLine n (fun l => { l with tx := none }) u
      else serSend n tr.item tr.slave (transPdu tr ((look tr.item (serLine s n).sentData).getD []))
        (onLine n (fun l => { l with tx := some { x with attempt := x.attempt + 1, at_ := s.mono } }) u) := by
  have hbelow : ¬(serReads tr.function && decide ((serLine s n).failLimit ≤ (look tr.item (serLine s n).failRun).getD 0 + 1)) = true := by
    have hnot : decide ((serLine s n).failLimit ≤ (look tr.item (serLine s n).failRun).getD 0 + 1) = false := decide_eq_false (Nat.not_le.2 hlimit)
    rw [hnot, Bool.and_false]
    exact Bool.false_ne_true
  rw [serFails]
  dsimp only
  rw [hh]
  dsimp only
  rw [htr]
  dsimp only
  rw [if_neg hbelow]
  rfl

include hn hl in
theorem serUnanswered_eq (hh : x.handle = none) (htr : (serLine s n).trans.find? (fun t => t.item == x.item) = some tr)
    (hlimit : (serLine s n).runsOf tr.item < (serLine s n).failLimit) :
    serUnanswered n x s =
      if decide ((serLine s n).force.retries < x.attempt) || !mayRepeat s tr then
        onLine n (fun l => l.timedOut tr.item ((serLine s n).runsOf tr.item) none) s
      else serSend n tr.item tr.slave (transPdu tr ((look tr.item (serLine s n).sentData).getD []))
        (onLine n (fun l => l.timedOut tr.item ((serLine s n).runsOf tr.item) (some { x with attempt := x.attempt + 1, at_ := s.mono })) s) := by
  have hline := serLine_onLine hn hl fun l => { l with timeouts := satInc 32 l.timeouts, flags := flag 1 l.flags }
  rw [serUnanswered, serFails_of_transaction none hh (by rw [hline]; exact htr) (by rw [hline]; exact hlimit), hline]
  dsimp only
  simp only [onLine_onLine]
  rfl

include hn hl in
theorem serialTimeout_outcome (htx : (serLine s n).tx = some x) (hh : x.handle = none)
    (htr : (serLine s n).trans.find? (fun t => t.item == x.item) = some tr) (hdue : x.at_ + tr.timeoutMs * 1000000 ≤ s.mono)
    (hlimit : (serLine s n).runsOf tr.item < (serLine s n).failLimit) :
    ∃ t, exec (.serialTimeout n) s = .next t ∧ (serLine t n).timeouts = satInc 32 (serLine s n).timeouts ∧ (serLine t n).flags.getLsbD 1 = true ∧
      look tr.item (serLine t n).failRun = some ((serLine s n).runsOf tr.item) ∧
      (x.attempt ≤ (serLine s n).force.retries → mayRepeat s tr = true →
        (serLine t n).tx = some { x with attempt := x.attempt + 1, at_ := s.mono } ∧
        t.sent = { kind := .serial, unit := n, num := tr.item, body := BitVec.ofNat 8 tr.slave :: transPdu tr ((look tr.item (serLine s n).sentData).getD []) } :: s.sent) ∧
      ((serLine s n).force.retries < x.attempt ∨ mayRepeat s tr = false → (serLine t n).tx = none ∧ t.sent = s.sent) ∧
      { t with ser := s.ser, sent := s.sent }.rest = s.rest := by
  have hat := (serTimeout_due htx hh htr hdue).trans (serUnanswered_eq hn hl hh htr hlimit)
  have hline := fun tx => serLine_onLine hn hl fun l => l.timedOut tr.item ((serLine s n).runsOf tr.item) tx
  obtain ⟨t, hx, hrest⟩ := answer_settled s (serTimeout n s)
  refine ⟨t, hx, ?_⟩
  rw [hat] at hrest
  obtain hends | hagain := Bool.eq_false_or_eq_true (decide ((serLine s n).force.retries < x.attempt) || !mayRepeat s tr)
  · rw [if_pos hends] at hrest
    have hthis := (ser_of_rest hrest n).trans (hline none)
    rw [hthis]
    refine ⟨rfl, setBit_get _ _ (by decide), look_put_same _ _ _, fun hle hmay => ?_, fun _ => ⟨rfl, (sent_of_rest hrest).trans rfl⟩,
      rest_of_ser_sent hrest rfl⟩
    simp [hmay, Nat.not_lt.2 hle] at hends
  · rw [if_neg (by rw [hagain]; exact Bool.false_ne_true)] at hrest
    have hthis := (ser_of_rest hrest n).trans (hline (some { x with attempt := x.attempt + 1, at_ := s.mono }))
    rw [hthis]
    refine ⟨rfl, setBit_get _ _ (by decide), look_put_same _ _ _, fun _ _ => ⟨rfl, (sent_of_rest hrest).trans rfl⟩, fun hend => ?_,
      rest_of_ser_sent hrest rfl⟩
    simp only [Bool.or_eq_false_iff, decide_eq_false_iff_not, Bool.not_eq_eq_eq_not, Bool.not_false] at hagain
    obtain ⟨hle, hmay⟩ := hagain
    obtain hlt | hnot := hend
    · exact absurd hlt hle
    · exact absurd hmay (by rw [hnot]; exact Bool.false_ne_true)

end

/-! ### A request to a slave (R492) -/

/-- A line that has answered a request with an exception. -/
def SerLine.refusing (l : SerLine) (code : Nat) : SerLine :=
  { l with frames := satInc 32 l.frames, exceptions := satInc 32 l.exceptions, flags := flag 2 l.flags, lastExc := 0 % 256 * 256 + code % 256 }

section
variable {f : SerFrame} (hrole : (serLine s n).role = 2) (hcrc : f.crcOk = true) (hmine : f.addr = (serLine s n).slaveAddr)
  (haddr : f.addr ≠ 0) (hallowed : serTxAllowed s = true) (hqueue : serRxQueue s n = none)
include hrole hcrc hmine

theorem serRequest_of_slave : serRequest n f s = slaveRequest n f (serFrame n s) := by
  have h0 : (serLine s n).role ≠ 0 := by rw [hrole]; decide
  rw [serRequest]
  dsimp only
  rw [if_neg h0, hcrc]
  rw [if_neg (show ¬((!true) = true) from Bool.false_ne_true), if_pos hrole, if_pos (.inl hmine)]

include hn hl haddr hallowed hqueue in
theorem slaveRefused_outcome {code : Nat} (hat : slaveRequest n f (serFrame n s) = slaveRefuse n 0 code f (serFrame n s)) :
    ∃ t, exec (.serialRequest n f) s = .next t ∧ (serLine t n).exceptions = satInc 32 (serLine s n).exceptions ∧
      t.sent = { kind := .serial, unit := n, num := (serLine s n).item,
                 body := [BitVec.ofNat 8 f.addr, BitVec.ofNat 8 (fld f.pdu 0 1 + 128), BitVec.ofNat 8 code] } :: s.sent := by
  have hanswers : slaveAnswers f s = true := by simp [slaveAnswers, haddr, hallowed]
  have hline := serLine_onLine hn hl fun l => l.refusing code
  have hexc : serException n 0 code (serFrame n s) = onLine n (fun l => l.refusing code) s := onLine_onLine ..
  have hrefuse : slaveRefuse n 0 code f (serFrame n s) =
      serSend n (serLine s n).item f.addr [BitVec.ofNat 8 (fld f.pdu 0 1 + 128), BitVec.ofNat 8 code] (onLine n (fun l => l.refusing code) s) := by
    have hasked : slaveAnswers f (serFrame n s) = true := hanswers
    have hasked' : slaveAnswers f (onLine n (fun l => l.refusing code) s) = true := hanswers
    have hqueue' : serRxQueue (onLine n (fun l => l.refusing code) s) n = none := hqueue
    rw [slaveRefuse, if_pos hasked, hexc, serToQueue, hqueue', slaveSend, if_pos hasked', hline]
    rfl
  obtain ⟨t, hx, hrest⟩ := answer_settled s (serRequest n f s)
  rw [serRequest_of_slave hrole hcrc hmine, hat, hrefuse] at hrest
  refine ⟨t, hx, ?_, (sent_of_rest hrest).trans rfl⟩
  exact congrArg SerLine.exceptions ((ser_of_rest hrest n).trans hline)

omit hrole hcrc hmine in
theorem slaveRequest_unknown (h : tableOf (fld f.pdu 0 1) = none) : slaveRequest n f (serFrame n s) = slaveRefuse n 0 1 f (serFrame n s) := by
  rw [slaveRequest]
  dsimp only
  rw [h]

omit hrole hcrc hmine in
include hn hl in
theorem slaveRequest_uncovered {tb : Nat} (h : tableOf (fld f.pdu 0 1) = some tb) (hitem : slaveItem (serLine s n) tb f.pdu = none) :
    slaveRequest n f (serFrame n s) = slaveRefuse n 0 2 f (serFrame n s) := by
  have hitem' : slaveItem (serLine (serFrame n s) n) tb f.pdu = none := by
    rw [serFrame, serLine_onLine hn hl]
    exact hitem
  rw [slaveRequest]
  dsimp only
  rw [h]
  dsimp only
  rw [hitem']

/-- A line that has answered a read. -/
def SerLine.answering (l : SerLine) (item : Nat) : SerLine := { l with frames := satInc 32 l.frames, item := item }

omit hrole hcrc hmine in
include hn hl haddr hallowed in
theorem slaveRequest_of_read {tb a c : Nat} {m : SerMap} (h : tableOf (fld f.pdu 0 1) = some tb) (hitem : slaveItem (serLine s n) tb f.pdu = some m)
    (hwrite : writePart f.pdu = none) (hread : readPart f.pdu = some (a, c)) :
    slaveRequest n f (serFrame n s) =
      serSend n m.item f.addr (BitVec.ofNat 8 (fld f.pdu 0 1) :: BitVec.ofNat 8 (mapRead s n m a c).length :: mapRead s n m a c)
        (onLine n (fun l => l.answering m.item) s) := by
  have hitem' : slaveItem (serLine (serFrame n s) n) tb f.pdu = some m := by
    rw [serFrame, serLine_onLine hn hl]
    exact hitem
  have hsame : onLine n (fun l => { l with item := m.item }) (serFrame n s) = onLine n (fun l => l.answering m.item) s := onLine_onLine ..
  have hdata : mapRead (serFrame n s) n m a c = mapRead s n m a c :=
    mapRead_onLine hn hl (f := fun l => { l with frames := satInc 32 l.frames }) (fun _ => rfl) m a c
  have hasked : slaveAnswers f (onLine n (fun l => l.answering m.item) s) = true := by
    have hanswers : slaveAnswers f s = true := by simp [slaveAnswers, haddr, hallowed]
    exact hanswers
  rw [slaveRequest]
  dsimp only
  rw [h]
  dsimp only
  rw [hitem']
  dsimp only
  rw [hwrite, hread]
  dsimp only
  rw [hsame, hdata, slaveSend, if_pos hasked, serLine_onLine hn hl]
  rfl

include hn hl haddr hallowed in
theorem serialRequest_read_outcome {tb a c : Nat} {m : SerMap} (h : tableOf (fld f.pdu 0 1) = some tb)
    (hitem : slaveItem (serLine s n) tb f.pdu = some m) (hwrite : writePart f.pdu = none) (hread : readPart f.pdu = some (a, c)) :
    ∃ t, exec (.serialRequest n f) s = .next t ∧ (serLine t n).item = m.item ∧ (serLine t n).exceptions = (serLine s n).exceptions ∧
      t.sent = { kind := .serial, unit := n, num := m.item, body := BitVec.ofNat 8 f.addr :: BitVec.ofNat 8 (fld f.pdu 0 1) :: BitVec.ofNat 8 (mapRead s n m a c).length :: mapRead s n m a c } :: s.sent ∧
      { t with ser := s.ser, sent := s.sent }.rest = s.rest := by
  have hline := serLine_onLine hn hl fun l => l.answering m.item
  obtain ⟨t, hx, hrest⟩ := answer_settled s (serRequest n f s)
  rw [serRequest_of_slave hrole hcrc hmine, slaveRequest_of_read hn hl haddr hallowed h hitem hwrite hread] at hrest
  have hthis := (ser_of_rest hrest n).trans hline
  exact ⟨t, hx, congrArg SerLine.item hthis, (congrArg SerLine.exceptions hthis).trans rfl, (sent_of_rest hrest).trans rfl, rest_of_ser_sent hrest rfl⟩

end

/-! ### A writable item that no write reaches (R494) -/

theorem serWriteTimeout_early {item : Nat} (h : s.mono < ((look item (serLine s n).lastSent).getD 0) + (serLine s n).writeTimeoutMs * 1000000) :
    serWriteTimeout n item s = s := by
  exact if_neg fun hdue => absurd hdue.2.2.1 (Nat.not_le.2 h)

/-- A line with an absent item. -/
def SerLine.missing (l : SerLine) (item : Nat) : SerLine := { l with failed := setBit l.failed item true, flags := flag 3 l.flags }

include hn hl in
/-- The record of an absence aside, the line holds its bit and its flag. -/
theorem serAbsent_line {item : Nat} (h : (serLine s n).failed.getLsbD item = false) :
    ∃ at_, serLine (serAbsent n item s) n = { (serLine s n).missing item with recAt := at_ } := by
  have hline := serLine_onLine hn hl fun l => l.missing item
  have hlen := (onLine_lines_length n (fun l => l.missing item) s).symm ▸ hl
  have hser : ∀ u : State, serLine (declareAbsent (isSerEntry n item) u) n = serLine u n := fun u =>
    congrArg (fun x : Ser => x.lines.getD (n - 1) {}) (declareAbsent_ser (isSerEntry n item) u)
  rw [serAbsent, if_neg (by rw [h]; exact Bool.false_ne_true)]
  dsimp only
  rw [hser]
  split
  · rw [raise_frame]
    exact ⟨_, (serLine_onLine hn hlen fun l => { l with recAt := some s.mono }).trans (by rw [hline])⟩
  · exact ⟨_, hline⟩

include hn hl in
theorem serialWriteTimeout_outcome {item : Nat} (hitem : item < 64) (hrole : (serLine s n).role = 2) (hms : (serLine s n).writeTimeoutMs ≠ 0)
    (hdue : ((look item (serLine s n).lastSent).getD 0) + (serLine s n).writeTimeoutMs * 1000000 ≤ s.mono)
    (hmap : ((serLine s n).maps.any fun m => m.item == item && m.writable) = true) (hfailed : (serLine s n).failed.getLsbD item = false) :
    ∃ t, exec (.serialWriteTimeout n item) s = .next t ∧ (serLine t n).failed.getLsbD item = true ∧ (serLine t n).flags.getLsbD 3 = true ∧
      (∀ i, i ≠ item → (serLine t n).failed.getLsbD i = (serLine s n).failed.getLsbD i) := by
  have hat : serWriteTimeout n item s = serAbsent n item s := if_pos ⟨hrole, hms, hdue, hmap⟩
  obtain ⟨at_, hline⟩ := serAbsent_line hn hl hfailed
  obtain ⟨t, hx, hrest⟩ := answer_settled s (serWriteTimeout n item s)
  rw [hat] at hrest
  have hthis := (ser_of_rest hrest n).trans hline
  refine ⟨t, hx, ?_⟩
  rw [hthis]
  exact ⟨setBit_get _ _ hitem, setBit_get _ _ (by decide), fun i hi => setBit_get_ne _ _ _ hi.symm _⟩

end

/-- Settles O57: what each command leaves of its line, and that settling touches no line (`ser_of_rest`). -/
theorem serialLinesTransact : Obligations.SerialLinesTransact := by
  unfold Obligations.SerialLinesTransact
  intro s n hn hl
  refine ⟨fun tr hrole htx hallowed hwaits hdue => ?transaction, fun f hrole hcrc => ?bad, fun f x tr hrole hcrc htx hh haddr hfn _ htr hfit => ?fit,
    fun x tr htx hh htr h => ?early, fun x tr htx hh htr hdue hlimit => ?late,
    fun f hrole hcrc hmine haddr hallowed hqueue => ⟨fun h => ?unknown, fun tb h hitem => ?uncovered,
      fun tb m a c h hitem hwrite hread => ?read⟩,
    fun item h => ?waits, fun item hitem hrole hms hdue hmap hfailed => ?absent⟩
  case transaction => exact serialTransaction_outcome hn hl hrole htx hallowed hwaits hdue
  case bad => exact serialReply_bad_outcome hn hl hrole hcrc
  case fit => exact serialReply_fit_outcome hn hl hrole hcrc htx hh haddr hfn htr hfit
  case early =>
    obtain ⟨t, hx, hrest⟩ := answer_settled s (serTimeout n s)
    exact ⟨t, hx, hrest.trans (congrArg State.rest (serTimeout_early htx hh htr h))⟩
  case late => exact serialTimeout_outcome hn hl htx hh htr hdue hlimit
  case unknown => exact slaveRefused_outcome hn hl hrole hcrc hmine haddr hallowed hqueue (slaveRequest_unknown h)
  case uncovered => exact slaveRefused_outcome hn hl hrole hcrc hmine haddr hallowed hqueue (slaveRequest_uncovered hn hl h hitem)
  case read => exact serialRequest_read_outcome hn hl hrole hcrc hmine haddr hallowed h hitem hwrite hread
  case waits =>
    obtain ⟨t, hx, hrest⟩ := answer_settled s (serWriteTimeout n item s)
    exact ⟨t, hx, hrest.trans (congrArg State.rest (serWriteTimeout_early h))⟩
  case absent => exact serialWriteTimeout_outcome hn hl hitem hrole hms hdue hmap hfailed

end Sys2Proof.Machine
end

section
/-! PROOFS. A start from its first row to its result (02_burgee_and_start.md R41 to R57, 05_program_cycle.md R135). -/

namespace Sys2Proof.Machine

/-! ### What a start hands on from row to row -/

/-- What every row of a start keeps: the carrier, the count of power cycles, the signers, the commands that wait, and the weak rows. -/
structure Durable where
  key     : Key
  power   : Nat
  signers : List Signer
  pending : List Instr
  weak    : List WeakEntry × List WeakEntry

def State.durable (s : State) : Durable :=
  { key := s.key, power := s.log.power, signers := s.sec.signers, pending := s.pending, weak := (s.mem.weak, s.mem.weakDue) }

/-- With it what a start has made afresh, the mode and whether the recorder accepts. -/
structure Begun where
  durable   : Durable
  mode      : Mode
  accepting : Bool
  cells     : List Host.Cell
  held      : List Desc
  forces    : List (Nat × Force)
  loops     : List (Nat × Loop)
  mono      : Nat

def State.begun (s : State) : Begun :=
  { durable := s.durable, mode := s.sys.mode, accepting := s.log.accepting, cells := s.mem.cells, held := s.que.held, forces := s.cyc.forces
    loops := s.eng.loops, mono := s.mono }

theorem begun_of_durable {s u : State} (h : u.begun = s.begun) : u.durable = s.durable := congrArg Begun.durable h

theorem raiseRecord_begun (code : EvCode) (sev : Severity) (flags source unit p1 p2 p3 : Nat) (s : State) :
    (raiseRecord code sev flags source unit p1 p2 p3 s).begun = s.begun := by
  unfold raiseRecord
  extract_lets r
  have h : ∀ l : Log, l.power = s.log.power → l.accepting = s.log.accepting → ({ s with log := l } : State).begun = s.begun := by
    intro l hp ha
    simp only [State.begun, State.durable, hp, ha]
  refine h _ ?_ ?_
  · dsimp only
    split <;> rfl
  · dsimp only
    split <;> rfl

theorem raise_begun (e : Ev) (sev : Severity) (u p q r : Nat) (s : State) : (raise e sev u p q r s).begun = s.begun :=
  raiseRecord_begun ..

theorem begun_raised {s x : State} (h : x.begun = s.begun) (e : Ev) (sev : Severity) (u p q r : Nat) : (raise e sev u p q r x).begun = s.begun :=
  (raise_begun e sev u p q r x).trans h

theorem onSafe_begun (f : Safe → Safe) (s : State) : (onSafe f s).begun = s.begun := rfl

theorem onTime_begun (f : Time → Time) (s : State) : (onTime f s).begun = s.begun := rfl

/-! ### The rows before the code test (R47, R414, R443 to R468) -/

theorem rebuildIndex_begun (s : State) : (rebuildIndex s).begun = s.begun := raise_begun ..

theorem recorderAccepts_begun (s : State) : (recorderAccepts s).begun = { s.begun with accepting := true } := rfl

theorem rtcChecks_begun (x : StartIn) (s : State) : (rtcChecks x s).begun = s.begun := by
  unfold rtcChecks
  cases x.curve with
  | some c => exact keeps_ite State.begun rfl (raise_begun ..)
  | none => exact keeps_ite State.begun (raise_begun ..) ((raise_begun ..).trans (raise_begun ..))

theorem tellAlarms_begun (s : State) : (tellAlarms s).begun = s.begun := by
  unfold tellAlarms
  extract_lets a b c
  have ha : a.begun = s.begun := forAll_keeps State.begun _ _ (fun _ _ => raise_begun ..) s
  have hb : b.begun = a.begun := forAll_keeps State.begun _ _ (fun _ _ => raiseRecord_begun ..) a
  have hc : c.begun = b.begun := forAll_keeps State.begun _ _ (fun _ _ => raiseRecord_begun ..) b
  exact hc.trans (hb.trans ha)

theorem tamperDeferred_begun (s : State) : (tamperDeferred s).begun = s.begun :=
  forAll_keeps State.begun _ _ (fun _ _ => raiseRecord_begun ..) s

theorem tellSilences_begun (s : State) : (tellSilences s).begun = s.begun := by
  unfold tellSilences
  extract_lets d a u
  have hu : u.begun = s.begun := by
    refine forAll_keeps State.begun d _ (fun n t => ?_) s
    exact begun_raised rfl ..
  refine (forAll_keeps State.begun a _ (fun n t => ?_) u).trans hu
  exact begun_raised rfl ..

theorem panelChecks_begun (x : StartIn) (s : State) : (panelChecks x s).begun = s.begun :=
  keeps_ite State.begun rfl (raise_begun ..)

theorem startChecks_begun (x : StartIn) (s : State) : (startChecks x s).begun = { s.begun with accepting := true } := by
  unfold startChecks
  extract_lets a b c d e f
  have ha : a.begun = s.begun := keeps_ite State.begun (rebuildIndex_begun s) rfl
  have hb : b.begun = { s.begun with accepting := true } := (recorderAccepts_begun a).trans (by rw [ha])
  have hc : c.begun = b.begun := keeps_ite State.begun (raise_begun .logWear .notice 0xFF b.log.retired.length 0 0 b) rfl
  have hd : d.begun = c.begun := (tellAlarms_begun _).trans (rtcChecks_begun x c)
  have he : e.begun = d.begun := (tellSilences_begun _).trans (tamperDeferred_begun d)
  have hf : f.begun = e.begun := keeps_ite State.begun (begun_raised (onSafe_begun _ e) .safetyPathFault .critical 0xFF 3 0 0) rfl
  exact (onTime_begun _ _).trans <| (panelChecks_begun x f).trans (hf.trans (he.trans (hd.trans (hc.trans hb))))

/-! ### What comes before the start itself -/

theorem insertKey_durable (x : StartIn) (s : State) : (insertKey x s).durable = { s.durable with key := x.key.getD s.key } := by
  unfold insertKey
  cases x.key with
  | none => rfl
  | some k => rfl

theorem durable_of_beyond {s u : State} (h : u.beyondField = s.beyondField) : u.durable = s.durable := by
  have e := congrArg State.durable h
  exact e

theorem forceFree_durable (i : Nat) (s : State) : (forceFree i s).durable = s.durable := by
  unfold forceFree
  split
  · rfl
  · extract_lets a b
    have htouched := durable_of_beyond (touchEntry_beyond i a)
    have hb : b.durable = a.durable := htouched
    exact (congrArg Begun.durable (raise_begun ..)).trans ((durable_of_beyond (deliver_beyond i b)).trans hb)

theorem releaseForces_durable (s : State) : (releaseForces s).durable = s.durable := forAll_keeps State.durable _ _ forceFree_durable s

theorem setMode_durable (m : Mode) (s : State) : (setMode m s).durable = s.durable := by
  unfold setMode keyTamperEnds
  split <;> split <;> rfl

theorem olcAbandon_durable (code : Nat) (s : State) : (olcAbandon code s).durable = s.durable :=
  keeps_ite State.durable (congrArg Begun.durable (raise_begun ..)) rfl

theorem durable_of_besideQueues {s u : State} (h : u.besideQueues = s.besideQueues) : u.durable = s.durable := by
  have e := congrArg State.durable h
  exact e

theorem dropRole_durable (s : State) : (dropRole s).durable = s.durable :=
  (keeps_ite State.durable (durable_of_besideQueues (retireAll_besideQueues (fun x => x.user == userHart) retRoleLost s)) rfl :
    (if s.sys.role == .active then retireAll (fun x => x.user == userHart) retRoleLost s else s).durable = s.durable)

/-- What a RESTART ends before the start. -/
def restartEnds (s : State) : State := busesStop (dropRole (stopTasks (olcAbandon olcAbandoned s)))

theorem restartEnds_durable (s : State) : (restartEnds s).durable = s.durable := by
  have hbuses := durable_of_besideQueues (busesStop_besideQueues (dropRole (stopTasks (olcAbandon olcAbandoned s))))
  have htasks : (stopTasks (olcAbandon olcAbandoned s)).durable = (olcAbandon olcAbandoned s).durable := rfl
  exact hbuses.trans ((dropRole_durable _).trans (htasks.trans (olcAbandon_durable _ s)))

/-- A state afresh. -/
theorem fresh_begun (s : State) :
    (fresh s).begun =
      { durable := { s.durable with weak := (weakAdd s.mem.weak s.mem.weakDue, []) }, mode := .starting, accepting := s.log.accepting, cells := []
        held := [], forces := [], loops := [], mono := 0 } := rfl

/-! ### A start that ends in HALTED (R52) -/

/-- What a halt keeps of a start: its result, its phase, the clocks, the recorder's count of power cycles and whether it accepts. -/
structure Verdict where
  result    : Nat
  phase     : StartPhase
  pll       : Bool
  power     : Nat
  accepting : Bool

def State.verdict (s : State) : Verdict :=
  { result := s.cyc.startResult, phase := s.start.phase, pll := s.sys.pll, power := s.log.power, accepting := s.log.accepting }

theorem raise_verdict (e : Ev) (sev : Severity) (u p q r : Nat) (s : State) : (raise e sev u p q r s).verdict = s.verdict := by
  have h := raise_begun e sev u p q r s
  have hpower := congrArg (fun b : Begun => b.durable.power) h
  have haccepting := congrArg Begun.accepting h
  have hv : (raise e sev u p q r s).verdict =
      { result := s.cyc.startResult, phase := s.start.phase, pll := s.sys.pll, power := (raise e sev u p q r s).log.power
        accepting := (raise e sev u p q r s).log.accepting } := rfl
  rw [hv]
  exact congr (congrArg (fun p a => ({ result := s.cyc.startResult, phase := s.start.phase, pll := s.sys.pll, power := p, accepting := a } : Verdict))
    hpower) haccepting

/-- The verdict with the role, which the last steps of a halt keep. -/
def State.haltSeen (s : State) : Verdict × Role := (s.verdict, s.sys.role)

theorem haltSeen_of_besideQueues {s u : State} (h : u.besideQueues = s.besideQueues) : u.haltSeen = s.haltSeen := by
  have e := congrArg State.haltSeen h
  exact e

theorem verdict_of_haltSeen {s u : State} (h : u.haltSeen = s.haltSeen) : u.verdict = s.verdict ∧ u.sys.role = s.sys.role :=
  Prod.mk.inj h

theorem dropRole_verdict (s : State) : (dropRole s).verdict = s.verdict :=
  (keeps_ite State.verdict
    (verdict_of_haltSeen (haltSeen_of_besideQueues (retireAll_besideQueues (fun x => x.user == userHart) retRoleLost s))).1 rfl :
    (if s.sys.role == .active then retireAll (fun x => x.user == userHart) retRoleLost s else s).verdict = s.verdict)

theorem raise_haltSeen (e : Ev) (sev : Severity) (u p q r : Nat) (s : State) : (raise e sev u p q r s).haltSeen = s.haltSeen :=
  congrArg (·, s.sys.role) (raise_verdict e sev u p q r s)

theorem releaseAllHolds_haltSeen (s : State) : (releaseAllHolds s).haltSeen = s.haltSeen := by
  unfold releaseAllHolds
  refine forAll_keeps State.haltSeen _ _ (fun n t => ?_) s
  dsimp only
  split
  · exact keeps_ite State.haltSeen (raise_haltSeen ..) rfl
  · rfl

theorem haltEnded_verdict (s : State) : (haltEnded s).verdict = s.verdict ∧ (haltEnded s).sys.role = .none := by
  have hbuses := haltSeen_of_besideQueues (busesStop_besideQueues (dropRole s))
  obtain ⟨hverdict, hrole⟩ := verdict_of_haltSeen ((releaseAllHolds_haltSeen (busesStop (dropRole s))).trans hbuses)
  unfold haltEnded
  rw [hverdict, hrole]
  exact ⟨dropRole_verdict s, dropRole_role s⟩

theorem ringSafeOnce_verdict (s : State) : (ringSafeOnce s).verdict = s.verdict := by
  refine forAll_keeps State.verdict _ _ (fun x t => ?_) s
  unfold sendOutput ringSend
  exact keeps_ite State.verdict rfl rfl

theorem olcAbandon_verdict (code : Nat) (s : State) : (olcAbandon code s).verdict = s.verdict :=
  keeps_ite State.verdict (raise_verdict ..) rfl

theorem setMode_verdict (m : Mode) (s : State) : (setMode m s).verdict = s.verdict := by
  unfold setMode keyTamperEnds
  split <;> split <;> rfl

theorem haltNoted_verdict (task : Nat) (s : State) : (haltNoted 8 task s).verdict = { s.verdict with phase := .idle } := by
  have hcalled : (haltCalled 8 s).verdict = s.verdict := keeps_ite State.verdict (ringSafeOnce_verdict _) rfl
  have htasks : (stopTasks (raise .halt .critical 0xFF 8 task 0 (haltCalled 8 s))).verdict = s.verdict :=
    (raise_verdict .halt .critical 0xFF 8 task 0 (haltCalled 8 s)).trans hcalled
  have hidle : ∀ u : State, u.verdict = s.verdict → (onStart (fun t => { t with phase := .idle }) u).verdict = { s.verdict with phase := .idle } :=
    fun u hu => congrArg (fun v : Verdict => { v with phase := .idle }) hu
  have hgiven := hidle _ ((olcAbandon_verdict olcAbandoned _).trans htasks)
  exact hgiven

theorem startResult_verdict (code p2 p3 : Nat) (s : State) :
    (startResult code p2 p3 s).verdict = { s.verdict with result := code, phase := .idle } := raise_verdict ..

/-- A start that halts: its result stands, without role. -/
theorem startHalts_outcome (code : Nat) {s : State} (h : s.sys.mode ≠ .halted) :
    (startHalts code s).sys.mode = .halted ∧ (startHalts code s).sys.role = .none ∧
      (startHalts code s).verdict = { s.verdict with result := code, phase := .idle } := by
  have hmode : (startResult code 0 0 s).sys.mode ≠ .halted := h
  have hat : startHalts code s = haltEnded (setMode .halted (haltNoted 8 0xFF (startResult code 0 0 s))) := haltNow_of_running hmode 8 0xFF
  refine ⟨haltNow_mode .., ?_, ?_⟩
  · rw [hat]
    exact (haltEnded_verdict _).2
  · rw [hat, (haltEnded_verdict _).1, setMode_verdict, haltNoted_verdict, startResult_verdict]

/-! ### A start that ends in STOP (R52, R54) -/

/-- Where a failed start leaves the module. -/
structure Standing where
  role        : Role
  level       : Nat
  configError : Bool
  result      : Nat
  accepted    : Bool
  phase       : StartPhase

def State.standing (s : State) : Standing :=
  { role := s.sys.role, level := s.sys.level, configError := s.cyc.configError, result := s.cyc.startResult, accepted := s.start.accepted
    phase := s.start.phase }

theorem soloEpoch_kept (s : State) : (soloEpoch s).standing = s.standing ∧ (soloEpoch s).begun = s.begun :=
  ⟨keeps_ite State.standing rfl rfl, keeps_ite State.begun rfl rfl⟩

theorem enterStop_kept (s : State) : (enterStop s).standing = s.standing ∧ (enterStop s).begun = { s.begun with mode := .stop } := ⟨rfl, rfl⟩

theorem startFails_outcome {code : Nat} (h1 : 1 ≤ code) (h2 : code ≤ 12) (s : State) :
    (startFails code 0 0 s).standing = { role := .solo, level := 0, configError := true, result := code, accepted := false, phase := .idle } ∧
      (startFails code 0 0 s).begun = { s.begun with mode := .stop } := by
  obtain ⟨u, hu⟩ : ∃ u, u = startResult code 0 0 (onStart (fun t => { t with accepted := false, header := none }) s) := ⟨_, rfl⟩
  have hbegun : u.begun = s.begun := by
    rw [hu]
    exact begun_raised rfl ..
  have hstanding : u.standing = { s.standing with
      configError := decide (1 ≤ code ∧ code ≤ 12), result := code, accepted := false, phase := .idle } := by
    rw [hu, startResult, raise_frame]
    rfl
  have hat : startFails code 0 0 s = enterStop (soloEpoch (onSys (fun y => { y with role := .solo, level := 0, stale := false }) u)) := by
    rw [hu]
    rfl
  rw [hat]
  obtain ⟨hs1, hb1⟩ := enterStop_kept (soloEpoch (onSys (fun y => { y with role := .solo, level := 0, stale := false }) u))
  obtain ⟨hs2, hb2⟩ := soloEpoch_kept (onSys (fun y => { y with role := .solo, level := 0, stale := false }) u)
  have hs3 : (onSys (fun y => { y with role := .solo, level := 0, stale := false }) u).standing = { u.standing with role := .solo, level := 0 } := rfl
  have hb3 : (onSys (fun y => { y with role := .solo, level := 0, stale := false }) u).begun = u.begun := rfl
  rw [hs1, hs2, hs3, hstanding, hb1, hb2, hb3, hbegun, decide_eq_true ⟨h1, h2⟩]
  exact ⟨rfl, rfl⟩

end Sys2Proof.Machine
end

section
/-! PROOFS. The ends of a cold start, a restart and a wake (02_burgee_and_start.md R41 to R57, 03_supplies_and_harbour_watch.md R80 to R83,
05_program_cycle.md R135). -/

namespace Sys2Proof.Machine

/-! ### From the code test to the key (R49, R54, R110) -/

theorem onMem_begun_of {f : Mem → Mem} {s : State} : (onMem f s).begun =
    { s.begun with durable := { s.durable with weak := ((f s.mem).weak, (f s.mem).weakDue) }, cells := (f s.mem).cells } := rfl

theorem tellSpares_begun (s : State) : (tellSpares s).begun = s.begun := by
  unfold tellSpares
  refine forAll_keeps State.begun _ _ (fun n t => ?_) s
  exact begun_raised rfl ..

/-- Every bank reads zero after the folding. -/
theorem applyFolding_begun (f : Folding) (s : State) :
    ∃ w, (applyFolding f s).begun = { s.begun with durable := { s.durable with weak := w }, cells := [] } := by
  unfold applyFolding
  extract_lets news u
  have hu : u.begun = _ := onMem_begun_of
  have hnews : (forAll news (fun f t => raise .bankFolded .notice f.1 f.1 f.2.1 f.2.2 t) u).begun = u.begun :=
    forAll_keeps State.begun _ _ (fun _ _ => raise_begun ..) u
  exact ⟨_, (tellSpares_begun _).trans (hnews.trans hu)⟩

/-- A start that finds no weak row has spares left. -/
theorem foldAll_none (power : Nat) : (foldAll [] power []).full = false := rfl

theorem fromCodeTest_failed {x : StartIn} (h : x.coder = false) (s : State) : fromCodeTest x s = startHalts memCoderFail s := by
  rw [fromCodeTest, h]
  rfl

theorem fromCodeTest_passed {x : StartIn} (h : x.coder = true) (hrows : x.rowFails = []) {s : State} (hweak : s.mem.weak = []) :
    fromCodeTest x s = readKey x (applyFolding (foldAll [] s.log.power []) s) := by
  have hfull : ¬(foldAll [] s.log.power []).full = true := by
    rw [foldAll_none]
    exact Bool.false_ne_true
  rw [fromCodeTest, h]
  dsimp only
  rw [hweak, hrows, if_neg (show ¬((!true) = true) from Bool.false_ne_true), if_neg hfull]

/-- What is wrong with the carrier in socket K, and the result that it gives a start. -/
def CarrierFails (x : StartIn) (k : Key) (r : Nat) : Prop :=
  (k.present = false ∧ r = keyAbsent) ∨ (k.present = true ∧ x.removed = true ∧ r = keyRemoved) ∨
    (k.present = true ∧ x.removed = false ∧ k.capacityMB ≠ 64 ∧ r = keyUnreadable)

/-- The carrier as the start leaves it. -/
def carrierLeft (x : StartIn) (k : Key) : Key := if x.removed then { k with present := false } else k

theorem carrierLeft_of_absent {x : StartIn} {k : Key} (h : k.present = false) : carrierLeft x k = k := by
  unfold carrierLeft
  split
  · exact congrArg (fun b => ({ k with present := b } : Key)) h.symm
  · rfl

theorem readKey_of_carrier {x : StartIn} {s : State} {r : Nat} (h : CarrierFails x s.key r) :
    1 ≤ r ∧ r ≤ 12 ∧ ∃ u, readKey x s = startFails r 0 0 u ∧
      u.begun = { s.begun with durable := { s.durable with key := carrierLeft x s.key } } := by
  have hread : (onStart (fun t => { t with keyRead := true }) s).begun = s.begun := rfl
  obtain ⟨habsent, rfl⟩ | ⟨hpresent, hremoved, rfl⟩ | ⟨hpresent, hstays, hsize, rfl⟩ := h
  · refine ⟨by decide, by decide, onStart (fun t => { t with keyRead := true }) s, ?_, ?_⟩
    · exact if_pos (by rw [Bool.not_eq_true']; exact habsent)
    · rw [hread, carrierLeft_of_absent habsent]
      rfl
  · have hthere : ¬(!s.key.present) = true := by rw [hpresent]; exact Bool.false_ne_true
    refine ⟨by decide, by decide, onKey (fun k => { k with present := false }) (onStart (fun t => { t with keyRead := true }) s), ?_, ?_⟩
    · exact (if_neg hthere).trans (if_pos hremoved)
    · rw [carrierLeft, if_pos hremoved]
      rfl
  · have hthere : ¬(!s.key.present) = true := by rw [hpresent]; exact Bool.false_ne_true
    have hkept : ¬x.removed = true := by rw [hstays]; exact Bool.false_ne_true
    refine ⟨by decide, by decide, onStart (fun t => { t with keyRead := true }) s, ?_, ?_⟩
    · exact (if_neg hthere).trans ((if_neg hkept).trans (if_pos (.inl hsize)))
    · rw [hread, carrierLeft, if_neg hkept]
      rfl

/-! ### What the state before the code test holds -/

/-- A state that a start has brought to the code test: the recorder accepts, and all is afresh. -/
structure Ready (x : StartIn) (s v : State) (power : Nat) : Prop where
  mode      : v.sys.mode ≠ .halted
  accepting : v.log.accepting = true
  weak      : s.mem.weak = [] → s.mem.weakDue = [] → v.mem.weak = []
  begun     : x.domainLost = false → ∃ w, v.begun =
    { durable := { key := x.key.getD s.key, power := power, signers := s.sec.signers, pending := s.pending, weak := w }
      mode := .starting, accepting := true, cells := [], held := [], forces := [], loops := [], mono := 0 }

section
variable {x : StartIn} {s v : State} {power : Nat} (hv : Ready x s v power)
include hv

theorem ready_halts (h : x.coder = false) :
    (fromCodeTest x v).sys.mode = .halted ∧ (fromCodeTest x v).sys.role = .none ∧ (fromCodeTest x v).cyc.startResult = memCoderFail ∧
      (fromCodeTest x v).log.accepting = true ∧ (x.domainLost = false → (fromCodeTest x v).log.power = power) := by
  obtain ⟨hmode, hrole, hverdict⟩ := startHalts_outcome memCoderFail hv.mode
  rw [fromCodeTest_failed h]
  refine ⟨hmode, hrole, congrArg Verdict.result hverdict, (congrArg Verdict.accepting hverdict).trans hv.accepting, fun hlost => ?_⟩
  obtain ⟨w, hbegun⟩ := hv.begun hlost
  exact (congrArg Verdict.power hverdict).trans (congrArg (fun b : Begun => b.durable.power) hbegun)

theorem ready_stops (h : x.coder = true) (hlost : x.domainLost = false) (hrows : x.rowFails = []) (hweak : s.mem.weak = [])
    (hdue : s.mem.weakDue = []) {r : Nat} (hcarrier : CarrierFails x (x.key.getD s.key) r) :
    (fromCodeTest x v).standing = { role := .solo, level := 0, configError := true, result := r, accepted := false, phase := .idle } ∧
      ∃ w, (fromCodeTest x v).begun =
        { durable := { key := carrierLeft x (x.key.getD s.key), power := power, signers := s.sec.signers, pending := s.pending, weak := w }
          mode := .stop, accepting := true, cells := [], held := [], forces := [], loops := [], mono := 0 } := by
  obtain ⟨w, hbegun⟩ := hv.begun hlost
  rw [fromCodeTest_passed h hrows (hv.weak hweak hdue)]
  obtain ⟨w', hfolded⟩ := applyFolding_begun (foldAll [] v.log.power []) v
  generalize applyFolding (foldAll [] v.log.power []) v = u at hfolded
  rw [hbegun] at hfolded
  have hkey : u.key = x.key.getD s.key := by
    have e := congrArg (fun b : Begun => b.durable.key) hfolded
    exact e.trans (congrArg (fun b : Begun => b.durable.key) hbegun)
  rw [← hkey] at hcarrier
  obtain ⟨h1, h2, y, hread, hy⟩ := readKey_of_carrier hcarrier
  obtain ⟨hstanding, hstopped⟩ := startFails_outcome h1 h2 y
  rw [hread]
  refine ⟨hstanding, w', ?_⟩
  rw [hstopped, hy, hkey]
  have hdurable : u.durable = { v.durable with weak := w' } := congrArg Begun.durable hfolded
  have hvd : v.durable = { key := x.key.getD s.key, power := power, signers := s.sec.signers, pending := s.pending, weak := w } :=
    congrArg Begun.durable hbegun
  rw [hfolded, hdurable, hvd]

end

/-! ### The rows up to the code test -/

theorem clocksLock_begun (s : State) : (clocksLock s).begun = s.begun := rfl

/-- A cold start's state at the code test. -/
def coldReady (x : StartIn) (s : State) : State :=
  let s := clocksLock (fresh (powerCycled (insertKey x s)))
  let s := if x.domainLost then domainLost s else s
  onSys (fun y => { y with phy := [true, true, true, true] }) (startChecks x (onLog (fun l => { l with power := satInc 24 l.power }) s))

/-- A restart's. -/
def warmReady (x : StartIn) (s : State) : State :=
  startChecks x (onSys (fun y => { y with phy := [true, true, true, true] })
    (clocksLock (fresh (insertKey x (releaseForces (setMode .starting s))))))

theorem insertKey_mem (x : StartIn) (s : State) : (insertKey x s).mem = s.mem := by
  unfold insertKey
  cases x.key with
  | none => rfl
  | some k => rfl

theorem coldStart_unlocked {x : StartIn} (h : x.locked = false) (s : State) :
    coldStart x s = startHalts clockFail (fresh (powerCycled (insertKey x s))) := by
  rw [coldStart]
  dsimp only
  rw [h]
  rfl

theorem coldStart_locked {x : StartIn} (h : x.locked = true) (s : State) : coldStart x s = fromCodeTest x (coldReady x s) := by
  rw [coldStart]
  dsimp only
  rw [h]
  rfl

theorem warmStart_unlocked {x : StartIn} (h : x.locked = false) (s : State) :
    warmStart x s = startHalts clockFail (fresh (insertKey x (releaseForces (setMode .starting s)))) := by
  rw [warmStart, h]
  rfl

theorem warmStart_locked {x : StartIn} (h : x.locked = true) (s : State) : warmStart x s = fromCodeTest x (warmReady x s) := by
  rw [warmStart, h]
  rfl

/-- What is afresh, with what outlives the start. -/
def freshBegun (k : Key) (power : Nat) (s : State) (w : List WeakEntry) (accepting : Bool) : Begun :=
  { durable := { key := k, power := power, signers := s.sec.signers, pending := s.pending, weak := (w, []) }
    mode := .starting, accepting := accepting, cells := [], held := [], forces := [], loops := [], mono := 0 }

theorem coldFresh_begun (x : StartIn) (s : State) :
    (fresh (powerCycled (insertKey x s))).begun = freshBegun (x.key.getD s.key) s.log.power s (weakAdd s.mem.weak []) false := by
  unfold insertKey
  cases x.key with
  | none => rfl
  | some k => rfl

theorem warmFresh_begun (x : StartIn) (s : State) :
    (fresh (insertKey x (releaseForces (setMode .starting s)))).begun =
      freshBegun (x.key.getD s.key) s.log.power s (weakAdd s.mem.weak s.mem.weakDue)
        (releaseForces (setMode .starting s)).log.accepting := by
  have hkept : (releaseForces (setMode .starting s)).durable = s.durable := (releaseForces_durable _).trans (setMode_durable .starting s)
  generalize releaseForces (setMode .starting s) = u at hkept
  have hkey : u.key = s.key := congrArg Durable.key hkept
  have hweak : u.mem.weak = s.mem.weak := congrArg (fun d : Durable => d.weak.1) hkept
  have hdue : u.mem.weakDue = s.mem.weakDue := congrArg (fun d : Durable => d.weak.2) hkept
  have hpower : u.log.power = s.log.power := congrArg Durable.power hkept
  have hsigners : u.sec.signers = s.sec.signers := congrArg Durable.signers hkept
  have hpending : u.pending = s.pending := congrArg Durable.pending hkept
  rw [fresh_begun, insertKey_durable, hkept, insertKey_mem, hkey, hweak, hdue]
  have haccepting : (insertKey x u).log.accepting = u.log.accepting := by
    unfold insertKey
    cases x.key with
    | none => rfl
    | some k => rfl
  rw [haccepting]
  rfl

theorem phy_begun (l : List Bool) (s : State) : (onSys (fun y => { y with phy := l }) s).begun = s.begun := rfl

theorem domainLost_begun (s : State) : (domainLost s).begun = { s.begun with durable := { s.durable with power := 0 } } := raise_begun ..

/-- The loss of the domain takes the count of power cycles, and nothing else that a start hands on. -/
theorem coldReady_begun (x : StartIn) (s : State) :
    ∃ p, (coldReady x s).begun = freshBegun (x.key.getD s.key) p s (weakAdd s.mem.weak []) true ∧
      (x.domainLost = false → p = satInc 24 s.log.power) := by
  have hfresh := (clocksLock_begun _).trans (coldFresh_begun x s)
  unfold coldReady
  generalize clocksLock (fresh (powerCycled (insertKey x s))) = a at hfresh
  dsimp only
  rw [phy_begun, startChecks_begun]
  have hcounted : ∀ b : State, (onLog (fun l => { l with power := satInc 24 l.power }) b).begun =
      { b.begun with durable := { b.durable with power := satInc 24 b.log.power } } := fun _ => rfl
  have hpower : a.log.power = s.log.power := congrArg (fun b : Begun => b.durable.power) hfresh
  have hdurable : a.durable = _ := congrArg Begun.durable hfresh
  rw [hcounted]
  split
  · next hl =>
    have hlost := domainLost_begun a
    have hld : (domainLost a).durable = _ := congrArg Begun.durable hlost
    refine ⟨satInc 24 (domainLost a).log.power, ?_, fun hno => absurd hl (by rw [hno]; exact Bool.false_ne_true)⟩
    rw [hlost, hld, hdurable, hfresh]
    rfl
  · refine ⟨satInc 24 a.log.power, ?_, fun _ => by rw [hpower]⟩
    rw [hdurable, hfresh]
    rfl

theorem warmReady_begun (x : StartIn) (s : State) :
    (warmReady x s).begun = freshBegun (x.key.getD s.key) s.log.power s (weakAdd s.mem.weak s.mem.weakDue) true := by
  have hfresh := (clocksLock_begun _).trans (warmFresh_begun x s)
  unfold warmReady
  generalize clocksLock (fresh (insertKey x (releaseForces (setMode .starting s)))) = a at hfresh
  rw [startChecks_begun, phy_begun, hfresh]
  rfl

theorem ready_of_begun {x : StartIn} {s v : State} {w : List WeakEntry} {p power : Nat}
    (h : v.begun = freshBegun (x.key.getD s.key) p s w true) (hp : x.domainLost = false → p = power)
    (hw : s.mem.weak = [] → s.mem.weakDue = [] → w = []) : Ready x s v power where
  mode := by
    have e : v.sys.mode = .starting := congrArg Begun.mode h
    rw [e]
    decide
  accepting := congrArg Begun.accepting h
  weak hweak hdue := (congrArg (fun b : Begun => b.durable.weak.1) h).trans (hw hweak hdue)
  begun hlost := by
    rw [h, hp hlost]
    exact ⟨_, rfl⟩

theorem coldReady_ready (x : StartIn) (s : State) : Ready x s (coldReady x s) (satInc 24 s.log.power) := by
  obtain ⟨p, hbegun, hp⟩ := coldReady_begun x s
  exact ready_of_begun hbegun hp fun hweak _ => by rw [hweak]; rfl

theorem warmReady_ready (x : StartIn) (s : State) : Ready x s (warmReady x s) s.log.power :=
  ready_of_begun (warmReady_begun x s) (fun _ => rfl) fun hweak hdue => by rw [hweak, hdue]; rfl

/-! ### What settling leaves of a start's end -/

theorem standing_of_rest {t u : State} (h : t.rest = u.rest) :
    t.standing = u.standing ∧ t.sys.mode = u.sys.mode ∧ t.sys.pll = u.sys.pll ∧ t.log = u.log := by
  have hs := congrArg State.standing h
  have hm := congrArg (fun x : State => x.sys.mode) h
  have hp := congrArg (fun x : State => x.sys.pll) h
  exact ⟨hs, hm, hp, log_of_rest h⟩

theorem begun_of_rest {t u : State} (h : t.rest = u.rest) (hf : u.cyc.forces = []) : t.begun = u.begun := by
  have hr : ∀ y : State, y.rest.begun = { y.begun with forces := y.cyc.forces.map fun p => (p.1, { p.2 with aside := (0, 0) }) } := fun _ => rfl
  have hb := (hr t).symm.trans ((congrArg State.begun h).trans (hr u))
  have hforces : t.cyc.forces = [] := by
    have e := congrArg Begun.forces hb
    rw [hf] at e
    exact List.map_eq_nil_iff.1 e
  have ht : ∀ y : State, y.cyc.forces = [] →
      { y.begun with forces := y.cyc.forces.map fun p => (p.1, { p.2 with aside := (0, 0) }) } = y.begun := by
    intro y hy
    have hy' : y.begun.forces = [] := hy
    have heta : { y.begun with forces := [] } = y.begun := by rw [← hy']
    rw [hy]
    exact heta
  rw [ht t hforces, ht u hf] at hb
  exact hb

/-- How a start ends that meets one of the first faults. -/
def StartEnded (x : StartIn) (s t : State) (power : Nat) : Prop :=
  (x.locked = false →
    t.sys.mode = .halted ∧ t.sys.role = .none ∧ t.cyc.startResult = clockFail ∧ t.start.phase = .idle ∧ t.sys.pll = false) ∧
  (x.locked = true → x.coder = false →
    t.sys.mode = .halted ∧ t.sys.role = .none ∧ t.cyc.startResult = memCoderFail ∧
      t.log.accepting = true ∧ (x.domainLost = false → t.log.power = power)) ∧
  (∀ r, x.locked = true → x.coder = true → x.domainLost = false → x.rowFails = [] → s.mem.weak = [] → s.mem.weakDue = [] →
    ((x.key.getD s.key).present = false ∧ r = keyAbsent) ∨
      ((x.key.getD s.key).present = true ∧ x.removed = true ∧ r = keyRemoved) ∨
      ((x.key.getD s.key).present = true ∧ x.removed = false ∧ (x.key.getD s.key).capacityMB ≠ 64 ∧ r = keyUnreadable) →
    t.sys.mode = .stop ∧ t.sys.role = .solo ∧ t.sys.level = 0 ∧ t.cyc.configError = true ∧
      t.cyc.startResult = r ∧ t.start.accepted = false ∧ t.start.phase = .idle ∧
      t.key = (if x.removed then { x.key.getD s.key with present := false } else x.key.getD s.key) ∧
      t.mem.cells = [] ∧ t.que.held = [] ∧ t.cyc.forces = [] ∧ t.eng.loops = [] ∧ t.mono = 0 ∧ t.log.accepting = true ∧
      t.log.power = power ∧ t.sec.signers = s.sec.signers ∧ t.pending = s.pending)

/-- A start with its clocks: unlocked it halts from a fresh state, locked it goes on from the code test. -/
theorem startEnded {x : StartIn} {s t u f v : State} {power : Nat} (ht : t.rest = u.rest) (hf : f.sys.mode = .starting ∧ f.sys.pll = false)
    (hunlocked : x.locked = false → u = startHalts clockFail f) (hlocked : x.locked = true → u = fromCodeTest x v) (hv : Ready x s v power) :
    StartEnded x s t power := by
  obtain ⟨hstanding, hmode, hpll, hlog⟩ := standing_of_rest ht
  have hrole : t.sys.role = u.sys.role := congrArg Standing.role hstanding
  have hresult : t.cyc.startResult = u.cyc.startResult := congrArg Standing.result hstanding
  have hphase : t.start.phase = u.start.phase := congrArg Standing.phase hstanding
  refine ⟨fun h => ?_, fun h hcoder => ?_, fun r h hcoder hlost hrows hweak hdue hcarrier => ?_⟩
  · obtain ⟨hstarting, hoff⟩ := hf
    obtain ⟨hm, hr, hverdict⟩ := startHalts_outcome clockFail (s := f) (by rw [hstarting]; decide)
    rw [hmode, hrole, hresult, hphase, hpll, hunlocked h]
    exact ⟨hm, hr, congrArg Verdict.result hverdict, congrArg Verdict.phase hverdict, (congrArg Verdict.pll hverdict).trans hoff⟩
  · rw [hmode, hrole, hresult, hlog, hlocked h]
    exact ready_halts hv hcoder
  · obtain ⟨hstands, w, hbegun⟩ := ready_stops hv hcoder hlost hrows hweak hdue hcarrier
    rw [← hlocked h] at hstands hbegun
    have htb := (begun_of_rest ht (congrArg Begun.forces hbegun)).trans hbegun
    have hts := hstanding.trans hstands
    exact ⟨congrArg Begun.mode htb, congrArg Standing.role hts, congrArg Standing.level hts, congrArg Standing.configError hts,
      congrArg Standing.result hts, congrArg Standing.accepted hts, congrArg Standing.phase hts,
      congrArg (fun b : Begun => b.durable.key) htb, congrArg Begun.cells htb, congrArg Begun.held htb, congrArg Begun.forces htb,
      congrArg Begun.loops htb, congrArg Begun.mono htb, congrArg Begun.accepting htb, congrArg (fun b : Begun => b.durable.power) htb,
      congrArg (fun b : Begun => b.durable.signers) htb, congrArg (fun b : Begun => b.durable.pending) htb⟩

theorem cold_ended {x : StartIn} {s t : State} (ht : t.rest = (coldStart x s).rest) : StartEnded x s t (satInc 24 s.log.power) :=
  startEnded ht ⟨rfl, rfl⟩ (fun h => coldStart_unlocked h s) (fun h => coldStart_locked h s) (coldReady_ready x s)

theorem warm_ended {x : StartIn} {s t : State} (ht : t.rest = (warmStart x s).rest) : StartEnded x s t s.log.power :=
  startEnded ht ⟨rfl, rfl⟩ (fun h => warmStart_unlocked h s) (fun h => warmStart_locked h s) (warmReady_ready x s)

/-- What a start takes of the state before it. -/
theorem startEnded_congr {x : StartIn} {s s' t : State} {power : Nat} (h : s'.durable = s.durable) (he : StartEnded x s' t power) :
    StartEnded x s t power := by
  have hkey : s'.key = s.key := congrArg Durable.key h
  have hsigners : s'.sec.signers = s.sec.signers := congrArg Durable.signers h
  have hpending : s'.pending = s.pending := congrArg Durable.pending h
  have hweak : s'.mem.weak = s.mem.weak := congrArg (fun d : Durable => d.weak.1) h
  have hdue : s'.mem.weakDue = s.mem.weakDue := congrArg (fun d : Durable => d.weak.2) h
  unfold StartEnded at *
  rwa [hkey, hsigners, hpending, hweak, hdue] at he

/-! ### The commands that start the module -/

theorem startSettled (u : State) : ∃ t, answer (startSettle u) = .next t ∧ t.rest = u.rest := answer_settled u u

theorem modeCause_restart {s : State} (hreq : s.cyc.pendingReq = none) : modeCause 4 s = if s.sys.mode == .stop || s.sys.mode == .halted then 0 else 1 := by
  have hnone : ¬(s.cyc.pendingReq.isSome || (s.pair.cmd.any (·.kind != 2) && ((4 : Nat) == 1 || (4 : Nat) == 2))) = true := by
    rw [hreq]
    simp
  exact if_neg hnone

theorem modeReqRestart_starts {s : State} {x : StartIn} (r : Reader) (hreq : s.cyc.pendingReq = none)
    (hm : s.sys.mode = .stop ∨ s.sys.mode = .halted) :
    ∃ t, exec (.modeReqRestart r x) s = .next t ∧ StartEnded x s t s.log.power := by
  have hcause : modeCause 4 s = 0 := by
    rw [modeCause_restart hreq]
    obtain hm | hm := hm <;> rw [hm] <;> rfl
  have hat : modeRestart r x s = warmStart x (restartEnds s) := by
    rw [modeRestart, hcause]
    rfl
  obtain ⟨t, hx, hrest⟩ := startSettled (modeRestart r x s)
  rw [hat] at hrest
  have hdurable := restartEnds_durable s
  generalize restartEnds s = u at hrest hdurable
  have hpower : u.log.power = s.log.power := congrArg Durable.power hdurable
  have hended := warm_ended hrest
  rw [hpower] at hended
  exact ⟨t, hx, startEnded_congr hdurable hended⟩

theorem modeReqRestart_refused {s : State} (x : StartIn) (r : Reader) (hreq : s.cyc.pendingReq = none) (hstop : s.sys.mode ≠ .stop)
    (hhalted : s.sys.mode ≠ .halted) :
    ∃ t, exec (.modeReqRestart r x) s = .next t ∧ t.sys.mode = s.sys.mode ∧
      t.log = (raise .modeRefused .notice 0xFF 4 s.sys.mode.code (requesterCode r + 256) s).log := by
  have hcause : modeCause 4 s = 1 := by
    rw [modeCause_restart hreq]
    simp [hstop, hhalted]
  have hat : modeRestart r x s = modeRefuse 4 1 r s := by
    rw [modeRestart, hcause]
    rfl
  obtain ⟨t, hx, hrest⟩ := startSettled (modeRestart r x s)
  rw [hat] at hrest
  obtain ⟨-, hmode, -, hlog⟩ := standing_of_rest hrest
  exact ⟨t, hx, hmode.trans rfl, hlog.trans rfl⟩

/-! ### A wake (R80 to R83) -/

section
variable {s : State} {x : StartIn} {w : WakeSource} (hm : s.sys.mode = .harbour)
include hm

theorem harbourWake_cold (hw : s.pwr.wakeWait.find? (fun v => wakeAction s v == 2) = some w) (hlost : s.pwr.retentionLost = true) :
    ∃ t, exec (.harbourWake x) s = .next t ∧ StartEnded x s t (satInc 24 s.log.power) := by
  obtain ⟨u, hu⟩ : ∃ u, u = onPwr (fun p => { p with lastAction := 2, lastSource := w.code }) (onPwr (fun p => { p with wakeWait := [] }) s) :=
    ⟨_, rfl⟩
  have hat : harbourWake x s = coldStart x u := by
    rw [harbourWake, if_pos hm]
    dsimp only
    have hfind : (s.pwr.wakeWait.find? (wakeAction (onPwr (fun p => { p with wakeWait := [] }) s) · == 2)) = some w := hw
    rw [hfind]
    dsimp only
    rw [← hu, wakeRun, if_pos (by rw [hu]; exact hlost)]
  obtain ⟨t, hx, hrest⟩ := startSettled (harbourWake x s)
  rw [hat] at hrest
  have hdurable : u.durable = s.durable := by rw [hu]; rfl
  have hpower : u.log.power = s.log.power := congrArg Durable.power hdurable
  have hended := cold_ended hrest
  rw [hpower] at hended
  exact ⟨t, hx, startEnded_congr hdurable hended⟩

/-- What a round's first record finds. -/
def roundReady (w : WakeSource) (s : State) : State :=
  scrubAfresh (onPwr (fun p => { p with hbr := .settling, pwrOnState := true, roundAt := s.mono })
    (onSys (fun y => { y with refClock := true, coreAwake := true })
      (onPwr (fun p => { p with lastAction := 1, lastSource := w.code }) (onPwr (fun p => { p with wakeWait := [] }) s))))

theorem harbourWake_round_eq (hnone : s.pwr.wakeWait.find? (fun v => wakeAction s v == 2) = none)
    (hw : s.pwr.wakeWait.find? (fun v => wakeAction s v == 1) = some w) (hlost : s.pwr.retentionLost = false) (hhbr : s.pwr.hbr = .asleep) :
    harbourWake x s = raise .watchRound .info 0xFF w.code 0 0 (tellAlarms (roundReady w s)) := by
  have hrun : (s.pwr.wakeWait.find? (wakeAction (onPwr (fun p => { p with wakeWait := [] }) s) · == 2)) = none := hnone
  have hround : (s.pwr.wakeWait.find? (wakeAction (onPwr (fun p => { p with wakeWait := [] }) s) · == 1)) = some w := hw
  have hkept : ¬(onPwr (fun p => { p with wakeWait := [] }) s).pwr.retentionLost = true := by
    have e : (onPwr (fun p => { p with wakeWait := [] }) s).pwr.retentionLost = false := hlost
    rw [e]
    exact Bool.false_ne_true
  have hasleep : (onPwr (fun p => { p with wakeWait := [] }) s).pwr.hbr = .asleep := hhbr
  rw [harbourWake, if_pos hm]
  dsimp only
  rw [hrun, hround]
  dsimp only
  rw [if_neg hkept, if_pos hasleep]
  rfl

end

theorem tellAlarms_pwr (s : State) : (tellAlarms s).pwr = s.pwr := by
  unfold tellAlarms
  extract_lets a b c
  have ha : a.pwr = s.pwr := by
    refine forAll_keeps State.pwr _ _ (fun _ _ => ?_) s
    rfl
  have hb : b.pwr = a.pwr := by
    refine forAll_keeps State.pwr _ _ (fun _ _ => ?_) a
    rfl
  have hc : c.pwr = b.pwr := by
    refine forAll_keeps State.pwr _ _ (fun _ _ => ?_) b
    rfl
  exact hc.trans (hb.trans ha)

theorem raiseRecord_nextSeq (code : EvCode) (sev : Severity) (flags source unit p1 p2 p3 : Nat) (s : State) :
    s.log.nextSeq ≤ (raiseRecord code sev flags source unit p1 p2 p3 s).log.nextSeq := by
  have h : (raiseRecord code sev flags source unit p1 p2 p3 s).log.nextSeq = s.log.nextSeq + 1 := by
    unfold raiseRecord
    simp only [onLog_log]
    split <;> rfl
  rw [h]
  exact Nat.le_succ _

theorem forAll_nextSeq {α : Type} (l : List α) (f : α → State → State) (h : ∀ a t, t.log.nextSeq ≤ (f a t).log.nextSeq) (s : State) :
    s.log.nextSeq ≤ (forAll l f s).log.nextSeq := by
  induction l generalizing s with
  | nil => exact le_rfl
  | cons a l ih => exact (h a s).trans (ih (f a s))

theorem tellAlarms_nextSeq (s : State) : s.log.nextSeq ≤ (tellAlarms s).log.nextSeq := by
  unfold tellAlarms
  extract_lets a b c
  have ha : s.log.nextSeq ≤ a.log.nextSeq := forAll_nextSeq _ _ (fun _ _ => raiseRecord_nextSeq ..) s
  have hb : a.log.nextSeq ≤ b.log.nextSeq := forAll_nextSeq _ _ (fun _ _ => raiseRecord_nextSeq ..) a
  have hc : b.log.nextSeq ≤ c.log.nextSeq := forAll_nextSeq _ _ (fun _ _ => raiseRecord_nextSeq ..) b
  exact ha.trans (hb.trans hc)

theorem harbourWake_round {s : State} {x : StartIn} {w : WakeSource} (hm : s.sys.mode = .harbour)
    (hnone : s.pwr.wakeWait.find? (fun v => wakeAction s v == 2) = none) (hw : s.pwr.wakeWait.find? (fun v => wakeAction s v == 1) = some w)
    (hlost : s.pwr.retentionLost = false) (hhbr : s.pwr.hbr = .asleep) :
    ∃ t, exec (.harbourWake x) s = .next t ∧ t.pwr.hbr = .settling ∧ t.pwr.pwrOnState = true ∧ t.pwr.wakeWait = [] ∧
      t.pwr.lastAction = 1 ∧ t.pwr.lastSource = w.code ∧ t.sys.mode = .harbour ∧ s.log.nextSeq < t.log.nextSeq := by
  obtain ⟨t, hx, hrest⟩ := startSettled (harbourWake x s)
  rw [harbourWake_round_eq hm hnone hw hlost hhbr] at hrest
  have hpwr := tellAlarms_pwr (roundReady w s)
  have hseq := tellAlarms_nextSeq (roundReady w s)
  have hmode : (tellAlarms (roundReady w s)).sys.mode = (roundReady w s).sys.mode := congrArg Begun.mode (tellAlarms_begun _)
  generalize tellAlarms (roundReady w s) = u at hrest hpwr hseq hmode
  obtain ⟨-, htm, -, hlog⟩ := standing_of_rest hrest
  have hraised := raise_nextSeq .watchRound .info 0xFF w.code 0 0 u
  have hkept : ∀ {β : Type} (m : Pwr → β), (∀ y : State, m y.rest.pwr = m y.pwr) → m t.pwr = m u.pwr := by
    intro β m hmr
    have e := congrArg (fun y : State => m y.pwr) hrest
    have e' := (hmr t).symm.trans (e.trans (hmr _))
    exact e'
  refine ⟨t, hx, ?_, ?_, ?_, ?_, ?_, (htm.trans hmode).trans hm, ?_⟩
  · exact (hkept Pwr.hbr fun _ => rfl).trans (by rw [hpwr]; rfl)
  · exact (hkept Pwr.pwrOnState fun _ => rfl).trans (by rw [hpwr]; rfl)
  · exact (hkept Pwr.wakeWait fun _ => rfl).trans (by rw [hpwr]; rfl)
  · exact (hkept Pwr.lastAction fun _ => rfl).trans (by rw [hpwr]; rfl)
  · exact (hkept Pwr.lastSource fun _ => rfl).trans (by rw [hpwr]; rfl)
  · rw [hlog, hraised]
    exact Nat.lt_succ_of_le hseq

/-- Settles O52: what the rows hand on to the code test (`coldReady_ready`, `warmReady_ready`) and the two ends of a start there
(`startHalts_outcome`, `startFails_outcome`). -/
theorem startsEndInTheirResult : Obligations.StartsEndInTheirResult := by
  unfold Obligations.StartsEndInTheirResult
  intro s x
  refine ⟨fun hdue => ?cold, fun hno => ?awake, fun r hreq hm => modeReqRestart_starts r hreq hm,
    fun r hreq hstop hhalted => modeReqRestart_refused x r hreq hstop hhalted,
    fun hm => ⟨fun w hw hlost => harbourWake_cold hm hw hlost, fun w hnone hw hlost hhbr => harbourWake_round hm hnone hw hlost hhbr⟩⟩
  case cold =>
    have hat : execColdStart x s = answer (startSettle (coldStart x s)) := congrArg answer (if_pos hdue)
    obtain ⟨t, hx, hrest⟩ := startSettled (coldStart x s)
    exact ⟨t, hat.trans hx, cold_ended hrest⟩
  case awake =>
    have hat : execColdStart x s = answer s := congrArg answer (if_neg (by rw [hno]; exact Bool.false_ne_true))
    exact hat

end Sys2Proof.Machine
end
